-- ==== Sys2Proof/Word.lean ====
section
/-! DEFINITION. The words of the device: bytes, 32-bit registers, 64-bit thread registers (R3, R16, R122). -/

namespace Sys2Proof

/-- One byte of memory, of a descriptor or of a packet. -/
abbrev Byte := BitVec 8

/-- One register (R3: every register is 32 bits wide). -/
abbrev Word := BitVec 32

/-- One thread register (R122: each core is 64-bit). -/
abbrev DWord := BitVec 64

end Sys2Proof
end

