-- ==== Sys2Proof/Machine/Payload.lean ====
section
/-! DEFINITION. What the outside hands the block with a command: packets, frames, sensor readings, images.
Every record is plain data; a command of Sys2Proof.Instr carries it as an operand. -/

namespace Sys2Proof

/-- Who makes a register access (R121, R646): the PF, a VF (1-63), or a firmware-mode thread. -/
inductive Requester where
  | pf
  | vf (n : Fin 64)
  | firmware
  deriving DecidableEq, Repr

/-- Which address space a register access names: BAR0, the BAR2 ring slices (Table 3.2), or the requester's own configuration space (R82, R114). -/
inductive RegSpace where
  | bar0
  | bar2
  | config
  deriving DecidableEq, Repr

/-- How a read of a program image fails (R99). -/
inductive ImageFail where
  | timeout
  | unsupported
  | abort
  | poisoned
  deriving DecidableEq, Repr

/-- A run of samples of one line, at full source depth; chroma lists are empty on lines that carry none. -/
structure LineSeg where
  line : Nat
  x    : Nat
  y    : List Nat
  cb   : List Nat
  cr   : List Nat
  deriving DecidableEq, Repr

/-- Where a packet arrived: Ethernet port, destination address, UDP port. -/
structure NetAddr where
  port : Nat
  dst  : Nat
  udp  : Nat
  deriving DecidableEq, Repr

/-- One ST 2110-20 packet (R191, R193): where it arrived, RTP extended sequence number, RTP timestamp, whether its geometry and
sampling are the configured ones (R203), and the pixel groups it carries. -/
structure VideoPkt where
  addr  : NetAddr
  seq   : Nat
  ts    : Nat
  fmtOk : Bool
  segs  : List LineSeg
  deriving DecidableEq, Repr

/-- One received SDI line (R192): whether it starts a raster (the start of active video of the first active line),
its ST 352 format check, and the line CRC result of every link. -/
structure SdiLine where
  first : Bool
  fmtOk : Bool
  crcOk : List Bool
  seg   : LineSeg
  deriving DecidableEq, Repr

/-- One operation of an SCTE 104 message (R208, R209). -/
structure SpliceOp where
  opId    : Nat
  kind    : Nat
  eventId : Nat
  preRoll : Nat
  deriving DecidableEq, Repr

/-- One ancillary packet with an SCTE 104 message (DID 0x41, SDID 0x07), or another ancillary packet. -/
structure AncPkt where
  addr   : NetAddr
  seq    : Nat
  ts     : Nat
  scte   : Bool
  sumOk  : Bool
  ops    : List SpliceOp
  deriving DecidableEq, Repr

/-- One received ST 2110-30 packet (R190, R412). -/
structure AudioPkt where
  port  : Nat
  dst   : Nat
  udp   : Nat
  ts    : Nat
  bytes : List Byte
  deriving DecidableEq, Repr

/-- The header of a ST 2022-1 FEC packet (R336): whether it covers a row or a column, the first packet that it covers, the step to the next one and how many they are. -/
structure FecHdr where
  row   : Bool
  base  : Nat
  off   : Nat
  count : Nat
  deriving DecidableEq, Repr

/-- One packet of a contribution stream (R336): where it arrived, RTP payload type (0 without RTP), extended sequence number, payload (with a transport stream whole TS
packets; of a FEC packet the XOR of the payloads that it covers), the pictures that begin in it (counted only without a transport stream, which shows them), how many
losses of continuity show at it that FEC does not recover, and the header of a FEC packet. -/
structure DecPkt where
  addr      : NetAddr
  pt        : Nat
  seq       : Nat
  bytes     : List Byte
  pics      : Nat
  contLost  : Nat
  fec       : Option FecHdr
  deriving DecidableEq, Repr

/-- The place of a packet among the stream's arrivals: media, columns and rows have sequence numbers of their own. -/
def DecPkt.key (p : DecPkt) : Nat := p.seq + match p.fec with | some h => if h.row then 2 ^ 41 else 2 ^ 40 | none => 0

/-- The packets that a FEC packet covers. -/
def FecHdr.covers (h : FecHdr) : List Nat := (List.range h.count).map fun i => h.base + i * h.off

/-- What the partner sends on a request (R359, R362): an ST 2110-20 packet or an SDI line, an ancillary packet, or a packet of a contribution stream. -/
inductive FetchItem where
  | video (p : VideoPkt)
  | anc (p : AncPkt)
  | dec (p : DecPkt)
  deriving DecidableEq, Repr

/-- A rectangle of a picture, in luma samples. -/
structure Region where
  x : Nat
  y : Nat
  w : Nat
  h : Nat
  deriving DecidableEq, Repr

/-- One picture as the decoder finds it in its received data (R335-R344), or the next rows of the picture before it (`cont`; then only its number, lines, regions,
bytes and released pictures count): a number by which reference lists name it, its time (RTP timestamp or PTS at 90 kHz), the raster that it carries, its profile (its
place in Table 11.1), level x 10 (for JPEG XS the level's place among the levels, from 0) and whether it uses a tool or sublevel that Table 11.1 does not support, whether it is an
IRAP picture (a JPEG XS codestream is one) or a RASL picture, whether a recovery period begins at it (recovery-point SEI, GDR), the picture at which the period began whose
recovery point it is, whether it was received complete, whether pictures just before it were lost whole, the regions that are missing or fail syntax checking, the pictures of its active reference lists, those that stay references after it, the
slots that its decoded picture buffer needs, whether it is output as soon as it is decoded, how many held pictures the standard's output process then releases, its
bytes in the bitstream buffer, and the samples that its decoding gives from the entries of its reference lists (`DpbPic.refs`, R343), line by line. -/
structure DecPic where
  cont       : Bool
  id         : Nat
  ts         : Nat
  width      : Nat
  height     : Nat
  half       : Bool
  depth      : Nat
  profile    : Nat
  level      : Nat
  unsupported : Bool
  irap       : Bool
  rasl       : Bool
  recStart   : Bool
  recEnd     : Option Nat
  complete   : Bool
  gap        : Bool
  badRegions : List Region
  refs       : List Nat
  keep       : List Nat
  dpb        : Nat
  immediate  : Bool
  releases   : Nat
  nbytes     : Nat
  lines      : List LineSeg
  deriving DecidableEq, Repr

/-- A notice of the partner about a channel: it shed the channel from a media time on (R371); the channel's state there (0 not loaded, 1 LOADED or ADMITTED, 2 RUNNING,
3 STOPPING) and its context digest (R385, R390); or it was told to RESYNC at a media time (R389). -/
inductive ChanNotice where
  | shed (mt : Nat)
  | state (code : Nat) (digest : BitVec 64)
  | resync (mt : Nat)
  deriving DecidableEq, Repr

/-- The pairing record of R355. -/
structure PairingRecord where
  revision : Nat
  senior   : Bool
  meas0    : List Byte
  meas1    : List Byte
  meas2    : List Byte
  boots    : Nat
  cascAddr : Nat
  deriving DecidableEq, Repr

/-- A history record of Table 12.2. -/
structure HistRecord where
  mt     : Nat
  digest : Nat
  size   : Nat
  flags  : Nat
  index  : Nat
  deriving DecidableEq, Repr

/-- A frame received at an Ethernet port, as policing and time-stamping see it (R428, R431, R432, R481): `v4` and `check` give an IPv4 header's checksum. -/
structure InFrame where
  bytes : Nat
  fcsOk : Bool
  isIp  : Bool
  dscp  : Nat
  dst   : Nat
  udp   : Nat
  v4    : Bool
  check : Nat
  deriving DecidableEq, Repr

/-- How a PTP message travels (Table 15.2). -/
inductive PtpOver where
  | udp4
  | udp6
  | ether
  deriving DecidableEq, Repr

/-- A PTP event message (R466, R469): a Sync or a Delay_Req, its transport and its bytes, over IPv6 with the stack's trailer at the end. -/
structure PtpMsg where
  sync  : Bool
  via   : PtpOver
  bytes : List Byte
  deriving DecidableEq, Repr

/-- What a class 0 or class 4 message carries (R508, R602, R626): a payload, a request for a quote (its nonce), a part of a quote, the refusal of one (a status), or a
request for Praline log records (sequence number, then count). The spec does not give the form of these requests. -/
inductive CascRole where
  | data
  | quoteRequest
  | quotePart
  | quoteRefused
  | logRequest
  deriving DecidableEq, Repr

/-- A cascade frame (R508): source, destination (none: all), class, sequence number, whether it is an acknowledgement, payload.
Class 2 frames carry FLT_STATUS, FLT_LIVE and the device state; class 1 the sender's counter and servo state. -/
structure CascFrame where
  src     : Nat
  dest    : Option Nat
  cls     : Nat
  seq     : Nat
  ack     : Bool
  role    : CascRole
  status  : BitVec 64
  live    : BitVec 64
  dev     : Nat
  servo   : Nat
  time    : Nat
  payload : List Byte
  deriving DecidableEq, Repr

/-- A hello (R504, R507). -/
structure CascHello where
  addr  : Nat
  boots : Nat
  meas0 : List Byte
  deriving DecidableEq, Repr

/-- What the controller finds on a transfer or a scrub read (R546-R548). -/
inductive AtomErr where
  | clean
  | corrected
  | uncorrectable
  deriving DecidableEq, Repr

/-- The sources of memory requests (Table 18.2). `tileB` says which tile's unit it is. -/
inductive MemSource where
  | ep (p : Fin 16) | dp (p : Fin 4) | mf (c : Fin 4) | capture (tileB : Bool) | packager (tileB : Bool) | check (tileB : Bool) | laneRaw (tileB : Bool)
  | blit (e : Fin 4) | mem (e : Fin 4) | host | dispatcher | firmware | twin | cascade | scrub | core (n : Fin 128)
  deriving DecidableEq, Repr

/-- Its source ID. -/
def MemSource.id : MemSource → Nat
  | .ep p => p | .dp p => 0x10 + p | .mf c => 0x14 + c | .capture b => 0x18 + b.toNat | .packager b => 0x1A + b.toNat | .check b => 0x1C + b.toNat
  | .laneRaw b => 0x1E + b.toNat | .blit e => 0x20 + e | .mem e => 0x24 + e | .host => 0x28 | .dispatcher => 0x29 | .firmware => 0x2A | .twin => 0x2B
  | .cascade => 0x2C | .scrub => 0x2D | .core n => 0x30 + n % 16

/-- It is a real-time master. -/
def MemSource.rt : MemSource → Bool
  | .ep _ => true | .mf _ => true | .capture _ => true | .packager _ => true
  | _ => false

/-- A request as it reaches a memory channel, and a burst of it (R535, R536): source, first atom address, atoms, whether it writes, what ECC finds by atom of the
request, and how many times each burst of it fails its CRC in turn. -/
structure Burst where
  src    : MemSource
  addr   : Nat
  atoms  : Nat
  write  : Bool
  errs   : List (Nat × AtomErr)
  crcBad : List Nat
  deriving DecidableEq, Repr

/-- One image as read from the flash or from a recovery set (R588, R589): the type under which its directory lists it, what the
verification of its signature finds, and its signed bytes, the header first. -/
structure BootImage where
  present : Bool
  typ     : Nat
  sigOk   : Bool
  signed  : List Byte
  deriving DecidableEq, Repr

/-- One tap event of R609. -/
structure TapEvent where
  tileB   : Bool
  port    : Nat
  flow    : Nat
  copyB   : Bool
  fec     : Bool
  octets  : Nat
  deriving DecidableEq, Repr

/-- What the regulator did in a control cycle (R57, R665): acknowledged the Voltage write, acknowledged the read-back, and the voltage read. -/
structure AvsReply where
  writeAck : Bool
  readAck  : Bool
  readMv   : Nat
  deriving DecidableEq, Repr

/-- A memory error of one of n pipes: the pipe, and whether it was a single-bit one, which is corrected (R299, R351). -/
structure PipeEcc (n : Nat) where
  pipe      : Fin n
  corrected : Bool
  deriving DecidableEq, Repr

/-- What the partner holds of an input or stream (R359, R361): sequence numbers or lines, and ancillary packets. -/
structure HeldMap where
  items : List Nat
  anc   : List Nat
  deriving DecidableEq, Repr

/-- What a poll of DETECT finds (R482, R662): whether the octet has its reference clock, whether the far end's termination is there, and for how many ticks there has been
signal energy without a break. -/
structure DetectFacts where
  clk    : Bool
  term   : Bool
  energy : Nat
  deriving DecidableEq, Repr

/-- A lane that bring-up and losses of lock name: a general lane, or the incoming cascade lane of ring A or B (R491, R492, R504). -/
inductive LaneRef where
  | general (l : Fin 256)
  | cascade (ringB : Bool)
  deriving DecidableEq, Repr

/-- What ends, or begins anew, a retrained lane's millisecond of clean lock (R492): its end, or a block error. -/
structure CleanLock where
  lane     : LaneRef
  blockErr : Bool
  deriving DecidableEq, Repr

/-- A unit that a tap has let through (R562): its bytes, and whether it has done so from the unit's beginning. -/
structure SnoopUnit where
  bytes : List Byte
  whole : Bool
  deriving DecidableEq, Repr

/-- A received lane's facts at the end of a bring-up stage (Table 16.3). -/
structure LaneFacts where
  ctle    : Nat
  dfe     : BitVec 32
  tx      : BitVec 32
  sdiRate : Nat
  deriving DecidableEq, Repr

end Sys2Proof
end

