-- ==== Sys2Proof/Machine/Tab.lean ====
section
/-! DEFINITION. Sparse tables: a list of (key, value) pairs with strictly rising keys and no entry equal to the default.
Memory, register banks, threads, channels and queues are all kept this way, so that equal contents are equal data. -/

namespace Sys2Proof.Machine

/-- A sparse table; a key that is not listed holds the default that the accessor names. -/
abbrev Tab (α : Type) := List (Nat × α)

/-- The entry of key `k`, or the default. -/
def Tab.get {α : Type} (d : α) : Tab α → Nat → α
  | [], _ => d
  | (j, v) :: m, k => if j = k then v else Tab.get d m k

/-- The table without key `k`. -/
def Tab.erase {α : Type} : Tab α → Nat → Tab α
  | [], _ => []
  | (j, v) :: m, k => if j = k then Tab.erase m k else (j, v) :: Tab.erase m k

/-- The table with a pair put before the first larger key. -/
def Tab.insert {α : Type} (k : Nat) (v : α) : Tab α → Tab α
  | [] => [(k, v)]
  | (j, w) :: m => if k < j then (k, v) :: (j, w) :: m else (j, w) :: Tab.insert k v m

/-- The table with key `k` holding `v`; the default is held by not being listed. -/
def Tab.put {α : Type} [DecidableEq α] (d : α) (m : Tab α) (k : Nat) (v : α) : Tab α :=
  if v = d then m.erase k else Tab.insert k v (m.erase k)

/-- The canonical form: keys strictly rising, no default entry. -/
abbrev Tab.wf {α : Type} [DecidableEq α] (d : α) (m : Tab α) : Prop :=
  List.Pairwise (fun a b => a.1 < b.1) m ∧ ∀ p ∈ m, p.2 ≠ d

/-- The first of the items that no other comes before. -/
def firstBest {α : Type} (le : α → α → Bool) : List α → Option α
  | [] => none
  | x :: xs => some (xs.foldl (fun b y => if le b y then b else y) x)

/-- The keys listed. -/
def Tab.keys {α : Type} (m : Tab α) : List Nat := m.map (·.1)

/-- Apply `f` to every listed entry of a table, keeping the canonical form. -/
def Tab.mapAll {α : Type} [DecidableEq α] (d : α) (f : Nat → α → α) (m : Tab α) : Tab α :=
  m.foldl (fun t p => Tab.put d t p.1 (f p.1 p.2)) m

end Sys2Proof.Machine
end

