-- ==== Sys2Proof/Machine/Records/Control.lean ====
section
/-! DEFINITION. The records of the control side: threads, descriptors, rings, the HUB block, the cadence controller, the fault
collector, resets and power states (chapters 2 to 5, 20 and 23). -/

namespace Sys2Proof.Machine

/-- A descriptor as a unit's input queue holds it (R155): its issuing function (64 = firmware), mode, thread, the start of that thread (`inc`) and bytes. -/
structure Desc where
  fn    : Nat := 0
  fw    : Bool := false
  tid   : Nat := 0
  inc   : Nat := 0
  bytes : List Byte := []
  deriving DecidableEq, Repr

/-- A completion entry (Table 3.5). -/
structure Comp where
  status : Nat
  kind   : Nat
  thread : Nat
  tag    : Nat
  sq     : Nat
  value  : Nat
  uptime : Nat
  deriving DecidableEq, Repr

/-- Thread states (Table 5.1). -/
inductive ThState where
  | free | ready | running | waiting | held | draining
  deriving DecidableEq, Repr

/-- Why a HELD thread is held (R147, R182, R103). -/
inductive Hold where
  | nothing
  | data (rd : Nat) (v : DWord) (cas : Option Bool)
  | fence (drain : Bool)
  | issue (rd : Nat) (d : Desc)
  | post
  | retire
  deriving DecidableEq, Repr

/-- A thread (Table 4.1, R168, R171, R183): its registers, flags, wait, hold, place, and the entry it runs for. `ready` orders the
READY threads of one priority (R179, R180, R182); `outst` counts descriptors that name it as notify thread, `issued` those it issued
that have not written their status word; `inc` numbers the start that made it, so that what was meant for an earlier program of its number is known (R153). -/
structure Thread where
  st       : ThState := .free
  inc      : Nat := 0
  fn       : Nat := 0
  firmware : Bool := false
  prio     : Nat := 0
  tileB    : Bool := false
  affinity : BitVec 64 := 0
  g        : Tab DWord := []
  pc       : DWord := 0
  wt       : Bool := false
  cas      : Bool := false
  flags    : Word := 0
  mask     : Word := 0
  waitAll  : Bool := false
  waitRd   : Nat := 0
  deadline : Option Nat := none
  hold     : Hold := .nothing
  home     : Nat := 0
  slot     : Option Nat := none
  resAge   : Nat := 0
  core     : Option Nat := none
  pending  : Word := 0
  outst    : Nat := 0
  issued   : Nat := 0
  origin   : Option (Nat × Nat × Nat) := none
  runStart : Nat := 0
  ready    : Int := 0
  deriving DecidableEq, Repr

/-- A device-memory window (R132). -/
structure Window where
  base : Nat := 0
  len  : Nat := 0
  r    : Bool := false
  w    : Bool := false
  deriving DecidableEq, Repr

/-- Who is held by a full post queue (R178). -/
inductive Poster where
  | thread (t : Nat)
  | entry (fn : Nat)
  | unit (u : Nat)
  deriving DecidableEq, Repr

/-- A post held under R178: its poster, target (number and start) and mask, and the core whose queue was full. -/
structure HeldPost where
  poster : Poster
  target : Nat
  inc    : Nat
  core   : Nat
  mask   : Word
  since  : Nat
  stalled : Bool := false
  deriving DecidableEq, Repr

/-- The dispatcher (chapter 5): post queues by home core, held posters in order, the DSP registers, order counters, and how many programs have started. -/
structure Dsp where
  postQ     : Tab (List (Nat × Word)) := []
  heldPosts : List HeldPost := []
  sel       : Nat := 0
  stallUs   : Nat := 100
  sliceUs   : Nat := 200
  last      : Word := 0
  spillLo   : Word := 0
  spillHi   : Word := 0
  head      : Int := 0
  tail      : Int := 0
  age       : Nat := 0
  starts    : Nat := 0
  deriving DecidableEq, Repr

/-- Ring states (Table 3.11). -/
inductive RingState where
  | disabled | active | held | error
  deriving DecidableEq, Repr

/-- A submission entry waiting at the head of its ring (R98, R178). -/
inductive RingWait where
  | nothing
  | program (entry : List Byte)
  | post (target tag sq : Nat)
  deriving DecidableEq, Repr

/-- One ring pair (Tables 3.7 to 3.13): registers, completions held for delivery, retirements waiting for room, the values
recorded at reset H, and vector 2's state. -/
structure Ring where
  sqBaseLo  : Word := 0
  sqBaseHi  : Word := 0
  cqBaseLo  : Word := 0
  cqBaseHi  : Word := 0
  sqLog     : Nat := 4
  cqLog     : Nat := 4
  coalesce  : Nat := 0
  enable    : Bool := false
  st        : RingState := .disabled
  sqTail    : Word := 0
  sqHead    : Word := 0
  cqHead    : Word := 0
  cqTail    : Word := 0
  held      : List Comp := []
  retq      : List (Comp × Option Nat) := []
  wait      : RingWait := .nothing
  recTail   : Word := 0
  recHead   : Word := 0
  recCq     : Word := 0
  v2pending : Bool := false
  v2due     : Option Nat := none
  deriving DecidableEq, Repr

/-- One entry of the hub firmware log (Table 3.14). -/
structure LogEntry where
  uptime : Nat := 0
  code   : Nat := 0
  source : Nat := 0
  arg    : Nat := 0
  deriving DecidableEq, Repr

/-- The HUB block and the PCIe side (chapter 3). `turn` is the function whose ring was served last (R95); `cmd` and `aer` are each function's Command register and
Uncorrectable Error Status register in its configuration space (R82, R114). -/
structure Hub where
  req       : Bool := false
  done      : Bool := false
  err       : Bool := false
  seq       : Nat := 0
  addrLo    : Word := 0
  addrHi    : Word := 0
  ownIdx    : Nat := 0
  ownKind   : Nat := 0
  ownErr    : Bool := false
  owner     : Tab Nat := []
  gen       : Nat := 0
  width     : Nat := 0
  flit      : Bool := false
  downCount : Nat := 0
  linkUp    : Bool := false
  numVfs    : Nat := 0
  log       : List LogEntry := []
  msix      : Tab Word := []
  pba       : Tab Word := []
  turn      : Nat := 63
  cmd       : Tab Word := []
  aer       : Tab Word := []
  deriving DecidableEq, Repr

/-- The cadence controller and the monitors (chapter 2): the last 64 windows of each island, newest first, the length of its run of
short windows, temperatures, set-point, the ticks of the last control cycle (R53) and of the last window (R51), the runs of R57 (`goodRun` of good read-backs), surplus, and the channels shed in the order they were shed, each with its
cause (1 FABRIC_CADENCE, 2 EP_TIMEOUT, 3 the partner, 16 + p EP_ECC of pipe p, 32 + p reset I of island p). -/
structure Fab where
  windows   : Tab (List Nat) := []
  shortRun  : Tab Nat := []
  temps     : Tab Int := []
  setMv     : Nat := 800
  lastCycle : Option Nat := none
  lastWin   : Option Nat := none
  nackRun   : Nat := 0
  badRun    : Nat := 0
  goodRun   : Nat := 0
  surplus   : Tab Nat := []
  shed      : List (Nat × Nat) := []
  deriving DecidableEq, Repr

/-- The fault collector (chapter 20). `latched` holds, for a source whose reaction is in force, the latched class plus 1; `beat` is
the tick of the last heartbeat, `wdtFrom` the tick from which the watchdog counts, once it is armed (R634), `aliveK` the last multiple of 500,000 ns judged. -/
structure Flt where
  live    : BitVec 64 := 0
  status  : BitVec 64 := 0
  prior   : BitVec 64 := 0
  latched : Tab Nat := []
  cls     : BitVec 128 := 0
  lock    : Bool := false
  alive   : Bool := false
  aliveK  : Nat := 0
  beat    : Option Nat := none
  wdtFrom : Option Nat := none
  deriving DecidableEq, Repr

/-- Boot, power and reset control (chapter 23). `ticks` counts 3 GHz ticks since reset P (R101: uptime); `octClk` says which octets were
last found with their reference clock (R662). -/
structure DevCtl where
  pwrOk      : Bool := false
  perstN     : Bool := true
  booting    : Bool := true
  bootFailed : Bool := false
  power      : Nat := 0
  dormant    : Bool := false
  dormantErr : Bool := false
  dormantReq : Option Bool := none
  island     : Nat := 0
  islBusy    : Option Nat := none
  islErr     : Bool := false
  lastReset  : Nat := 1
  ticks      : Nat := 0
  senior     : Bool := false
  octClk     : BitVec 32 := 0xFFFFFFFF#32
  deriving DecidableEq, Repr

/-- What the device drives out of itself, in the order it does so. -/
inductive OutEv where
  /-- A DMA write to host memory. -/
  | host (addr : Nat) (bytes : List Byte)
  /-- A DMA read of host memory. -/
  | hostRead (addr n : Nat)
  /-- An MSI-X message of a function. -/
  | msix (fn vec : Nat)
  /-- Data returned to a host or firmware read. -/
  | readData (bytes : List Byte)
  /-- A pin driven to a level. -/
  | pin (name : String) (level : Bool)
  /-- A Voltage write on AVSBus, in mV. -/
  | avs (mv : Nat)
  /-- A message to the Macaron partner: kind, object, media time, bytes. -/
  | twin (kind obj mt : Nat) (bytes : List Byte)
  /-- A frame that leaves on ring A or B of the cascade. -/
  | casc (ringB : Bool) (fr : CascFrame)
  /-- A hello to the neighbour on ring A or B. -/
  | cascHello (ringB : Bool) (h : CascHello)
  /-- A frame leaving an Ethernet port. -/
  | egress (port : Nat) (bytes : List Byte)
  /-- A one-step Sync as the MAC sends it (R469): the port, the message, and whether its UDP checksum is 0. -/
  | ptpSync (port : Nat) (bytes : List Byte) (noSum : Bool)
  /-- Symbols that a general lane transmits: levels 0 and 1, at PAM4 rates 0 to 3. -/
  | laneTx (lane : Nat) (levels : List Nat)
  /-- A line of characters on TOD_TX at a baud rate. -/
  | tod (baud : Nat) (bytes : List Byte)
  /-- A reply on PRL_UART. -/
  | uart (bytes : List Byte)
  /-- A mailbox message between the hub and the Praline island. -/
  | mailbox (toHub : Bool) (bytes : List Byte)
  /-- A notice by a named mechanism: a forced idle, a command on a memory channel, a PTP time-stamp. -/
  | notice (name : String) (a b c : Nat)
  deriving DecidableEq, Repr

/-- The link on which a message must wait for its turn: 1 and 2 are rings A and B of the cascade (R508), 3 is the twin link (R386); 0 is none. -/
def OutEv.link : OutEv → Nat
  | .casc ringB _ => if ringB then 2 else 1
  | .twin _ _ _ _ => 3
  | _ => 0

/-- The place of a message in its link's strict priority, the most urgent lowest: the order of Table 17.1 on a ring; Control, Fetch, Copy on the twin link (R386), where a
request for an item is kind 5 and a snapshot kind 9. DESIGN CHOICE (log entry 19): a request goes with the class of what it asks for. -/
def OutEv.urgency : OutEv → Nat
  | .casc _ fr => match fr.cls with | 2 => 0 | 1 => 1 | 0 => 2 | 3 => 3 | _ => 4
  | .twin kind _ _ _ => if kind = 9 then 2 else if kind = 5 then 1 else 0
  | _ => 0

end Sys2Proof.Machine
end

