-- ==== Sys2Proof/Machine/Records/Media.lean ====
section
/-! DEFINITION. The records of the media path: capture inputs, scenes, blit engines, pipes, channels with their rate control, decoder
streams (chapters 6 to 11). A `cfg` field keeps the descriptor that configured the object, byte for byte. -/

namespace Sys2Proof.Machine

/-- How a bitstream-changing descriptor with effective time 0 is being matched with the partner's (R366): not at all, waiting with its own
proposal, or agreed on a point. -/
inductive Match where
  | none
  | waiting (own : Nat)
  | agreed (point : Nat)
  deriving DecidableEq, Repr

/-- A descriptor held pending for its eligible point (R161, R162): unit, operation, object, effective time (0 = next point), whether it had
passed at acceptance, matching, acceptance tick, and whether the device raised it itself (R296, R382). -/
structure Pend where
  d        : Desc := {}
  unit     : Nat := 0
  op       : Nat := 0
  obj      : Nat := 0
  t        : Nat := 0
  late     : Bool := false
  twin     : Match := .none
  since    : Nat := 0
  internal : Bool := false
  event    : Nat := 0
  deriving DecidableEq, Repr

/-- A slot of a frame store (R205): the stamp it holds, the RTP timestamp or arrival that the raster was built from, the luma lines present, the
runs of samples that have arrived of each other line (R192: first sample, length), a format error, and the concealed mark of a decoded picture. -/
structure Slot where
  stamp   : Option Nat := none
  fixed   : Bool := false
  fresh   : Bool := false
  key     : Nat := 0
  arrived : Nat := 0
  lines   : List Nat := []
  groups  : Tab (List (Nat × Nat)) := []
  bad     : Bool := false
  marked  : Bool := false
  deriving DecidableEq, Repr

/-- What a raster is read from: nothing yet, a slot of the store, or the slate (R200 to R202). -/
inductive RasterSrc where
  | slate
  | slot (s : Nat)
  deriving DecidableEq, Repr

/-- Capture input states (Table 6.7). -/
inductive CapState where
  | unconfigured | stopped | waiting | normal | freeze | slate
  deriving DecidableEq, Repr

/-- A capture input (R189 to R214): configuration, substitution settings in force, store, merge history (`seenAt`: arrival tick of each sequence number
plus 1), paths, the tick being judged with its lines, the substitution run, what the tick presents, counters, and what the twin link has said
(`theirs`: the ancillary packets that the partner holds; `ancWait`: ancillary packets that wait to count as received, R361). `slateRows` are the slate's rows as they
were read for the tick (R202), plane x 8192 + row; `lastBad` the rasters last discarded; `sdiStamp` the stamp of the SDI raster that is arriving; `shown` says that a tick
has opened since CONFIGURE (R200); `mapV` holds the video packets that the partner holds, and `sdiWait` the messages of SDI rasters, by slot, whose stamp the senior has yet
to send (R360). -/
structure Cap where
  cfg      : List Byte := []
  st       : CapState := .unconfigured
  rx       : Bool := false
  subst    : Nat := 0
  freeze   : Nat := 0
  slateAdr : Nat := 0
  slots    : Tab Slot := []
  seenAt   : Tab Nat := []
  upA      : Bool := false
  upB      : Bool := false
  lastA    : Nat := 0
  lastB    : Nat := 0
  tick     : Nat := 0
  opened   : Bool := false
  cand     : Bool := false
  nextLine : Nat := 0
  conceal  : List Nat := []
  everSeen : Bool := false
  good     : Option Nat := none
  run      : Nat := 0
  src      : RasterSrc := .slate
  substSrc : RasterSrc := .slate
  fmtErr   : Bool := false
  slot     : Nat := 0
  rasters  : Nat := 0
  early    : Nat := 0
  lastBad  : List Nat := []
  slateRows : Tab (List Nat) := []
  sdiStamp : Nat := 0
  lines    : Nat := 0
  late     : Nat := 0
  bad      : Nat := 0
  ignored  : Nat := 0
  digest   : BitVec 64 := 0
  sdiSlot  : Option Nat := none
  verdicts : List (Nat × Bool) := []
  ancSeen  : List Nat := []
  theirs   : List Nat := []
  ancWait  : List AncPkt := []
  shown    : Bool := false
  mapV     : List Nat := []
  sdiWait  : List (Nat × AncPkt) := []
  deriving DecidableEq, Repr

/-- A layer (R235, Table 7.14): the descriptor of its active state (empty = disabled), taps in use and the reduction of R233. -/
structure Layer where
  cfg     : List Byte := []
  vTaps   : Nat := 0
  reduced : Bool := false
  deriving DecidableEq, Repr

/-- One composed pixel: 12-bit Y, Cb, Cr. -/
abbrev Px := Nat × Nat × Nat

/-- A raster in composition (R235, R238): its tick, the layers and outputs in force at it, its complete rows, and the output rows that were taken from
the previous slot (R241). A dead one was in composition, or begun, during a reset I of its island: no further row of it is composed (R638). -/
structure Raster where
  tick   : Nat := 0
  layers : List Layer := []
  outs   : Tab (List Byte) := []
  rows   : List (List Px) := []
  lost   : List (Nat × Nat) := []
  dead   : Bool := false
  deriving DecidableEq, Repr

/-- A scene (R215 to R248): configuration, the output entries in force, run state, the next tick, the ticks since it started, and its rasters in
composition, oldest first; the last is the current one. `past` keeps the ticks, layers and outputs of the last 256 rasters before them, latest first, for
the deadlines of the rows that the pipes still code (R286). -/
structure Scene where
  cfg      : List Byte := []
  outs     : Tab (List Byte) := []
  running  : Bool := false
  starting : Bool := false
  tick     : Nat := 0
  ticks    : Nat := 0
  work     : List Raster := []
  past     : List Raster := []
  deriving DecidableEq, Repr

/-- A compositor cluster's own counters (Tables 7.12 and 7.13) and its composition booking in milli-CU (R65, R219). -/
structure Cluster where
  underrun : Nat := 0
  layerSel : Nat := 0
  booked   : Tab Nat := []
  deriving DecidableEq, Repr

/-- A blit engine (R252 to R267): its queued jobs, the job in flight with its place (row, chunk index in the row's list), chunks since the last gap,
the gap's end, rows written, counts, and posts it holds. -/
structure Blit where
  queue  : List Desc := []
  job    : Option Desc := none
  row    : Nat := 0
  chunk  : Nat := 0
  moved  : Nat := 0
  gapEnd : Option Nat := none
  rows   : Nat := 0
  wmDone : Bool := false
  jobs   : Nat := 0
  aborts : Nat := 0
  deriving DecidableEq, Repr

/-- Picture types of rate control (R311). -/
inductive PicType where
  | key | p | b
  deriving DecidableEq, Repr

/-- The NAL units that precede a picture's first slice (R272, R279, R321, R329). -/
inductive HeadNal where
  | aud | vps | sps | pps | bufferingPeriod | pictureTiming | recoveryPoint
  deriving DecidableEq, Repr

/-- One band of a picture in coding (R314, R315): its rows, the next row to code, budget, target, overhead counted, minimum row cost, the bits spent, the
QP of the row, whether its budget is exhausted, row weights, and of each coded row its cost, its QP (none at floor), and what determines its reconstruction
(`codes`: the clean columns of R328 alone, then the whole row). -/
structure Band where
  first  : Nat := 0
  last   : Nat := 0
  next   : Nat := 0
  budget : Int := 0
  target : Int := 0
  ovh    : Int := 0
  m      : Int := 0
  spent  : Int := 0
  qp     : Int := 0
  exhausted : Bool := false
  weights : List Nat := []
  costs  : List Nat := []
  qps    : List (Option Int) := []
  codes  : List (Nat × Nat) := []
  deriving DecidableEq, Repr

/-- A picture, planned, in coding or resolved (R294, R304 to R319). `j` is its coding and `out` its output index; `arr`, `avg`, `vbv`, `base` are what R304,
R305 and R332 fix for it; `after` and `dsum` the fullness and D after it; `heads` the NAL units before its first slice with their bytes, `ovh` the bits that
member 0 counts for them; `released` the rows released; `limit` cuts it at a row, with
whether that counts as a miss (R370, R371, R381); `code` and `sig` determine what is coded and signalled for it (R277), `codes` its rows; `keyPends` are the
KEYPICs it carries. `cra` is the type of a key picture (R275), `refs` the coding indexes of its references (R274), `rc` the block in force for it (R332),
`intra`, `clean`, `cycle0` its intra columns, its clean boundary and the first picture of its refresh cycle (R327), `bp` the initial removal delay once its first
record is written (R321), `skipFrom` the first row that the skip path coded (R291), `gdr` a VVC picture that starts a cycle (R329), `copyOf` the coding and output
index of the JPEG XS picture that a repeat gives again byte for byte (R289). -/
structure Pic where
  j       : Nat := 0
  out     : Nat := 0
  mt      : Nat := 0
  typ     : PicType := .p
  bands   : List Band := []
  budget  : Int := 0
  target  : Int := 0
  qp      : Int := 0
  lowQp   : Option Int := none
  highQp  : Option Int := none
  arr     : Int := 0
  avg     : Int := 0
  vbv     : Int := 0
  base    : Bool := false
  ovh     : Nat := 0
  size    : Nat := 0
  filler  : Nat := 0
  after   : Int := 0
  dsum    : Int := 0
  released : Nat := 0
  limit   : Option (Nat × Bool) := none
  isRepeat : Bool := false
  skipped : Bool := false
  exhausted : Bool := false
  lateRows : Nat := 0
  fromSnap : Bool := false
  refreshDone : Bool := false
  costs   : List Nat := []
  code    : Nat := 0
  sig     : Nat := 0
  codes   : List (Nat × Nat) := []
  heads   : List (HeadNal × Nat) := []
  bp      : Option Nat := none
  cra     : Bool := false
  refs    : List Nat := []
  rc      : List Byte := []
  intra   : Nat × Nat := (0, 0)
  clean   : Nat := 0
  cycle0  : Nat := 0
  skipFrom : Option Nat := none
  gdr     : Bool := false
  copyOf  : Option (Nat × Nat) := none
  keyPends : List Pend := []
  deriving DecidableEq, Repr

/-- A record of an elementary-stream ring that the packager has not packetised (R396, R397): its place, payload NAL lengths and how many of them precede the slice, picture facts, and whether its bytes were overwritten or its channel is muted. -/
structure EsRec where
  at_    : Nat := 0
  len    : Nat := 0
  mt     : Nat := 0
  j      : Nat := 0
  out    : Nat := 0
  slice  : Nat := 0
  flags  : Nat := 0
  nals   : List Nat := []
  heads  : Nat := 0
  lost   : Bool := false
  muted  : Bool := false
  deriving DecidableEq, Repr

/-- Channel states (Table 9.8). -/
inductive ChState where
  | free | loaded | admitted | running | stopping
  deriving DecidableEq, Repr

/-- A channel (R278 to R300, R302 to R333): its loaded context and the rate-control block in force, state, bookings, sheds, counters, planning state
(`j` next coding index, `outNext` next output index outside the planned mini-GOPs, `gopLeft` the unplanned rest of one, `lastKey` output index of the last
key picture, `stopAt` the last output index), pictures in coding and resolved, fullness and D, and its ring (`esPtr` write place). -/
structure Chan where
  ctx      : List Byte := []
  rc       : List Byte := []
  st       : ChState := .free
  pipes    : List Nat := []
  rows     : List Nat := []
  shares   : List Nat := []
  startPend : Bool := false
  shed     : Bool := false
  shedFrom : Nat := 0
  muted    : Bool := false
  muteFrom : Nat := 0
  pics     : Nat := 0
  repeats  : Nat := 0
  misses   : Nat := 0
  lateRows : Nat := 0
  keys     : Nat := 0
  lastMt   : Nat := 0
  k0       : Nat := 0
  j        : Nat := 0
  outNext  : Nat := 0
  lastKey  : Nat := 0
  keyDuty  : Bool := false
  keyCarry : List Pend := []
  cycle    : Nat := 0
  stopAt   : Option Nat := none
  flight   : List Pic := []
  hist     : List Pic := []
  rcBase   : Nat := 0
  full     : Int := 0
  dsum     : Int := 0
  exhausted : Nat := 0
  floorRows : Nat := 0
  filler   : Nat := 0
  bits     : Nat := 0
  esPtr    : Nat := 0
  records  : List EsRec := []
  mirrored : List (Nat × Nat) := []
  deriving DecidableEq, Repr

/-- An encoder pipe (Tables 9.11 to 9.14): the row in progress (channel, member, coding index, row), the member whose context it holds, counts, ECC and parking, and the unpark in progress. -/
structure Pipe where
  cur      : Option (Nat × Nat × Nat × Nat) := none
  member   : Option (Nat × Nat) := none
  lastCh   : Nat := 0
  lastMem  : Nat := 0
  rows     : Nat := 0
  switches : Nat := 0
  missLive : Nat := 0
  missOther : Nat := 0
  corrected : Nat := 0
  uncorrected : Bool := false
  parked   : Bool := false
  out      : Bool := false
  unpark   : Option Desc := none
  deriving DecidableEq, Repr

/-- Decoder stream states (Table 11.6). -/
inductive DecState where
  | unconfigured | stopped | seeking | decoding
  deriving DecidableEq, Repr

/-- A picture of a decoded picture buffer (R338, R343, R344): number, time in ninths of a nanosecond, stamp, the key of its raster, its format check, its concealed mark,
whether the stream's mark lasted at it, whether the store takes it, whether it waits for its output, its samples, and what each entry of its active reference lists holds. -/
structure DpbPic where
  id     : Nat := 0
  t      : Nat := 0
  stamp  : Nat := 0
  key    : Nat := 0
  fmtOk  : Bool := true
  own    : Bool := false
  marked : Bool := false
  write  : Bool := true
  waits  : Bool := false
  segs   : List LineSeg := []
  refs   : List (List LineSeg) := []
  deriving DecidableEq, Repr

/-- A recovery period (R340, R344): the picture at which it began, whether decoding started there, whether the concealed mark was set before it and not again since, and
whether all of it was received complete. -/
structure RecPeriod where
  id    : Nat := 0
  start : Bool := false
  after : Bool := false
  clean : Bool := false
  deriving DecidableEq, Repr

/-- A decoder stream (R334 to R353): configuration, state, whether a START is pending, its booking, the bitstream buffer's bytes, pictures and write place, the concealed
mark, the recovery periods in progress (R340, R344), whether the last IRAP cleared a mark, the decoded pictures with their times, the
decoded picture buffer, the stamps given, arrivals (tick plus 1 of each sequence number), what the partner holds and when that was first known, the declarations of R362 and the
packets that wait for one, the payloads and FEC packets from which lost ones are restored (R336), and the counters. -/
structure Dec where
  cfg       : List Byte := []
  st        : DecState := .unconfigured
  starting  : Bool := false
  booked    : Nat := 0
  fill      : Nat := 0
  bufPics   : Nat := 0
  bsPtr     : Nat := 0
  mark      : Bool := false
  periods   : List RecPeriod := []
  raslMark  : Bool := false
  decoded   : List (Nat × List LineSeg) := []
  dpb       : List DpbPic := []
  stamps    : List Nat := []
  seenAt    : Tab Nat := []
  theirs    : List Nat := []
  theirAt   : Tab Nat := []
  declared  : List (Nat × Bool) := []
  waiting   : List DecPkt := []
  media     : Tab (List Byte) := []
  fecs      : List (FecHdr × List Byte) := []
  pics      : Nat := 0
  concealed : Nat := 0
  discard   : Nat := 0
  syntaxErr : Nat := 0
  missing   : Nat := 0
  lost      : Nat := 0
  recovered : Nat := 0
  deriving DecidableEq, Repr

/-- A decode pipe's memory errors (Table 11.9). -/
structure DecPipe where
  corrected : Nat := 0
  uncorrected : Bool := false
  out       : Bool := false
  deriving DecidableEq, Repr

end Sys2Proof.Machine
end

