-- ==== Sys2Proof/Machine/Records/Net.lean ====
section
/-! DEFINITION. The records of the twin pair, the packager, the traffic manager, the time base, the lanes, the cascade ring, the memory
controllers, the check units, the trust engine and the Praline island (chapters 12 to 19, 21 and 22). -/

namespace Sys2Proof.Machine

/-- A splice cue of a flow (R408, R409): kind, event, splice media time, the picture media time before which it is first sent, whether it came from SPLICE,
and whether it was sent. -/
structure Cue where
  kind  : Nat := 0
  event : Nat := 0
  mt    : Nat := 0
  first : Nat := 0
  own   : Bool := false
  sent  : Bool := false
  deriving DecidableEq, Repr

/-- A packager flow (R393 to R419): configuration, media packets built, TS packets numbered from `tsBase` = M(k0) of its channel's run, TS packets of a
datagram that is not full, continuity counters, TS packet of the last PCR, FEC sequence counts and the media packets of the matrix, the index of the next packet
of the picture, the picture whose rest is withheld, bytes in the packet buffer, counters, cues and audio packets. -/
structure Flow where
  cfg      : List Byte := []
  count    : Nat := 0
  tsN      : Nat := 0
  tsBase   : Option Nat := none
  part     : List Byte := []
  cc       : Tab Nat := []
  lastPcr  : Nat := 0
  fecCol   : Nat := 0
  fecRow   : Nat := 0
  media    : List (List Byte) := []
  pktIdx   : Nat := 0
  full     : Option Nat := none
  buffered : Nat := 0
  pkts     : Nat := 0
  muted    : Nat := 0
  overflow : Nat := 0
  cues     : Nat := 0
  unbound  : Nat := 0
  pending  : List Cue := []
  audio    : List (Nat × List Byte) := []
  deriving DecidableEq, Repr

/-- A proposal of the partner (R366) with the tick at which it arrived. -/
structure Proposal where
  unit  : Nat
  op    : Nat
  obj   : Nat
  user  : Nat
  mt    : Nat
  since : Nat
  deriving DecidableEq, Repr

/-- Pair states (Table 12.6). -/
inductive PairState where
  | unpaired | linking | paired | partitioned | rejected
  deriving DecidableEq, Repr

/-- What a snapshot brings beside the channel's state (R384): the numbering of its flow and its reference slots. -/
structure SnapRest where
  numbering : Flow
  refs      : List Byte
  deriving DecidableEq, Repr

/-- What the twin protocol keeps for one channel (Tables 12.10 and 12.11, R374, R383). `partner` is 1 when the partner holds the channel, 2 when it runs it, and
`partnerDig` its context digest; `theirs` the partner's records without an own one; `copy` says a copy is wanted; `snap` the snapshot held: its copy point, the channel's
state, the numbering of its flow and its reference slots. -/
structure TwinCh where
  phase    : Nat := 0
  follower : Bool := false
  episodes : Nat := 0
  split    : Nat := 0
  bad      : Nat := 0
  partner  : Nat := 0
  partnerDig : Option (BitVec 64) := none
  owed     : Bool := false
  theirs   : List HistRecord := []
  copy     : Bool := false
  copyMt   : Nat := 0
  snap     : Option (Nat × Chan × Flow × List Byte) := none
  deriving DecidableEq, Repr

/-- The twin link and pair (R354 to R392). `unheard` names the history records (channel, media time) sent since the partner was last heard (R378). -/
structure Twin where
  st        : PairState := .unpaired
  lanesUp   : List Nat := []
  halt      : Bool := false
  cause     : Nat := 0
  rtt       : Nat := 0
  items     : Nat := 0
  inMis     : Nat := 0
  partMt    : Nat := 0
  sel       : Nat := 0
  cfg       : List Byte := []
  lastFrame : Nat := 0
  meas0     : List Byte := []
  chs       : Tab TwinCh := []
  proposals : List Proposal := []
  digests   : List (Nat × Nat × BitVec 64) := []
  unheard   : List (Nat × Nat) := []
  pairedAt  : Nat := 0
  deriving DecidableEq, Repr

/-- A packet handed to an egress queue: flow, copy, FEC or media, UDP payload octets, frame bytes, picture media time, picture rate
of the channel (R446), index within the picture; `opens` is the media count of one whose PCRs are set at its queue (R406), `covers` are the media counts of an
FEC packet (R411). -/
structure Packet where
  flow  : Nat := 0
  copyB : Bool := false
  fec   : Bool := false
  udp   : Nat := 0
  frame : Nat := 0
  mt    : Nat := 0
  num   : Nat := 0
  den   : Nat := 0
  idx   : Nat := 0
  opens : Option Nat := none
  covers : List Nat := []
  bytes : List Byte := []
  deriving DecidableEq, Repr

/-- A token bucket (R427, R435): level in units of 1/(8 x 10^9) byte, what 1 bit/s brings in 1 ns, at a time-base moment. -/
structure Bucket where
  level : Int := 0
  at_   : Nat := 0
  deriving DecidableEq, Repr

/-- An egress queue (R420 to R446). -/
structure Queue where
  cfg    : List Byte := []
  rate   : Nat := 0
  burst  : Nat := 0
  weight : Nat := 0
  pkts   : List Packet := []
  tok    : Bucket := {}
  s      : Nat := 0
  f      : Nat := 0
  drops  : Nat := 0
  over_  : Nat := 0
  late   : Nat := 0
  deriving DecidableEq, Repr

/-- A gate list (R441, R444): base time, cycle, entries (mask, interval), start and n. -/
structure GateList where
  base    : Nat := 0
  cycle   : Nat := 0
  entries : List (Nat × Nat) := []
  start   : Nat := 0
  n       : Nat := 0
  deriving DecidableEq, Repr

/-- One class of a port (R435 to R440). -/
structure PortClass where
  weight  : Nat := 0
  rate    : Nat := 0
  burst   : Nat := 0
  tok     : Bucket := {}
  v       : Nat := 0
  deficit : Nat := 0
  deriving DecidableEq, Repr

/-- A port's egress side (Tables 14.5, 14.10 to 14.12): whether PORT has configured it, its classes, the place of the deficit round robin, the lists, the gates
as they stand, and the frame in transmission with the media time at which its MAC is free. -/
structure TmPort where
  set      : Bool := false
  overhead : Int := 20
  strict   : Nat := 255
  classes  : Tab PortClass := []
  drr      : Nat := 0
  fresh    : Bool := true
  oper     : Option GateList := none
  admin    : Option (GateList × Desc) := none
  gateMask : Nat := 255
  tx       : Option (Packet × Nat) := none
  deriving DecidableEq, Repr

/-- An ingress policer (R428 to R433). -/
structure Policer where
  cfg    : List Byte := []
  c      : Bucket := {}
  e      : Bucket := {}
  green  : Nat := 0
  yellow : Nat := 0
  red    : Nat := 0
  deriving DecidableEq, Repr

/-- The time base (R452 to R476): counter, increment, servo in units of 2^-87, cadence clock lag in 2^-32 ns, PPS and outputs. -/
structure TimeBase where
  sec      : Nat := 0
  ns       : Nat := 0
  frac     : Nat := 0
  incr     : Nat := 0x55555555
  integ    : Int := 0
  y        : Int := 0
  servo    : Nat := 0
  kp       : Nat := 28
  ki       : Nat := 32
  lockNs   : Nat := 100
  hold     : Nat := 20
  run      : Nat := 0
  lastSmp  : Option Nat := none
  offLo    : Word := 0
  offHi    : Word := 0
  sample   : Option Int := none
  stepUs   : Nat := 1000
  steps    : Nat := 0
  setIgn   : Bool := false
  overrun  : Bool := false
  lastChg  : Nat := 0
  latLo    : Word := 0
  latHi    : Word := 0
  latFrac  : Word := 0
  wrLo     : Option Word := none
  lag      : Int := 0
  ppsNs    : Nat := 0
  ppsSec   : Nat := 0
  ppsValid : Bool := false
  ppsEdge  : Option Nat := none
  ppsGap   : Bool := false
  ppsOut   : Bool := false
  ppsFall  : Option Nat := none
  lastSec  : Nat := 0
  todSec   : Option Nat := none
  outs     : List Byte := []
  ptp      : Tab (List Byte) := []
  refTb    : Bool := true
  refPcie  : Bool := true
  deriving DecidableEq, Repr

/-- Bring-up stages (Table 16.9). -/
inductive Stage where
  | unbound | detect | train | lock | caps | active | idle
  deriving DecidableEq, Repr

/-- A lane group (R479 to R493): its binding, descriptor, stage, the lanes that have passed the stage, and timing. `midway` says that it entered electrical idle before it was ACTIVE (R490),
`warm` that its TRAIN started from valid caches (Table 16.3), `been` that it has been ACTIVE (R494), `testAt` is the tick of its last TEST (R493). -/
structure Group where
  proto   : Nat := 0
  width   : Nat := 0
  cfg     : List Byte := []
  stage   : Stage := .unbound
  passed  : List Nat := []
  since   : Nat := 0
  retryAt : Option Nat := none
  idleAt  : Nat := 0
  loopback : Nat := 0
  pattern : Nat := 0
  check   : Bool := false
  down    : Bool := false
  dormant : Bool := false
  midway  : Bool := false
  warm    : Bool := false
  been    : Bool := false
  testAt  : Option Nat := none
  deriving DecidableEq, Repr

/-- A general lane (Tables 16.9 to 16.15, R486, R487): service, checker, SDI rate, equaliser (`tx` holds TX_PRE2, TX_PRE1, TX_MAIN, TX_POST, the first lowest) and its cache,
the tick of its last write, the tick from which it is in electrical idle, the last poll of DETECT, losses with the tick of the last one, the tick at which its group was unbound, the tick from which a lane
retrains alone and that from which it has lock again (R492), PRBS counters, generator and checker (`gen` and `chk` hold the last 31 bits, the latest lowest; `run` the
correct bits in a row, `win` which of the last 1,024 were wrong), a raw lane's places, its slips not yet made and the bits that do not fill an atom yet. -/
structure Lane where
  inSvc    : Bool := false
  chkLock  : Bool := false
  sdiRate  : Nat := 0
  ctle     : Nat := 16
  dfe      : Word := 0
  tx       : Word := 0x400000#32
  cache    : Bool := false
  cRate    : Nat := 0
  cCtle    : Nat := 16
  cDfe     : Word := 0
  cTx      : Word := 0x400000#32
  cacheAt  : Nat := 0
  polled   : Option Nat := none
  idleAt   : Option Nat := some 0
  eqHold   : Nat := 1000
  losses   : Nat := 0
  retries  : Nat := 0
  lostAt   : Option Nat := none
  freed    : Option Nat := none
  retrain  : Option Nat := none
  relock   : Option Nat := none
  gen      : Nat := 2147483647
  chk      : Nat := 0
  run      : Nat := 0
  win      : List Bool := []
  prbsErr  : Nat := 0
  prbsBits : Nat := 0
  rawPtr   : Nat := 0
  txPtr    : Nat := 0
  slips    : Nat := 0
  rxBits   : List Bool := []
  deriving DecidableEq, Repr

/-- One ring of the cascade (Tables 17.5 and 17.8): the stage of the incoming lane (R504) with the tick at which it began and that of the return to DETECT after a
failure, whether the lane retrains alone and the tick from which it has lock again (R492), whether the incoming hop is open under one of the first three cases of R516,
and under R515, whether a break notice says that the outgoing hop is, the upstream neighbour and the bypassed devices before it, and the tick of the last frame. -/
structure RingSide where
  stage    : Stage := .unbound
  since    : Nat := 0
  retryAt  : Option Nat := none
  lost     : Bool := false
  relock   : Option Nat := none
  brk      : Bool := false
  limit    : Bool := false
  noticed  : Bool := false
  upstream : Nat := 0
  skipped  : Nat := 0
  valid    : Bool := false
  lastFrame : Nat := 0
  deriving DecidableEq, Repr

/-- A message of class 0 or 4 that waits for its acknowledgement (R509). -/
structure CascMsg where
  d     : Desc := {}
  role  : CascRole := .data
  cls   : Nat := 0
  dest  : Nat := 0
  seq   : Nat := 0
  tries : Nat := 0
  at_   : Nat := 0
  bytes : List Byte := []
  deriving DecidableEq, Repr

/-- The cascade (R504 to R525). `seen` holds the tick of each device's last hello or broadcast, `seq` and `rxSeq` the next sequence number of each peer and class
(address x 8 + class), `rxHold` the messages that came before their turn, `out` the messages that wait, `lastBc` and `lastCmp` ns of the last periodic frames. -/
structure Casc where
  cfg     : List Byte := []
  map     : List Nat := []
  a       : RingSide := {}
  b       : RingSide := {}
  closed  : Bool := true
  force   : Bool := false
  dup     : Bool := false
  breaks  : Nat := 0
  retries : Nat := 0
  timeOff : Int := 0
  seen    : Tab Nat := []
  seq     : Tab Nat := []
  rxSeq   : Tab Nat := []
  rxHold  : List CascFrame := []
  rxIdx   : Nat := 0
  out     : List CascMsg := []
  lastBc  : Nat := 0
  lastCmp : Nat := 0
  deriving DecidableEq, Repr

/-- One memory channel's arbitration and refresh state (R535 to R540): the bursts that wait, oldest first, real-time bursts in a row, the source served last in the round robin, owed refreshes
(bank, moment), the next bank and the moment at which a refresh falls due, both in eighths of a tick, and whether it retrains. -/
structure McChan where
  queue  : List Burst := []
  rtRun  : Nat := 0
  rr     : Nat := 0
  owed   : List (Nat × Nat) := []
  next   : Nat := 0
  due    : Nat := 0
  inBurst : Bool := false
  forcedNow : Bool := false
  retrain : Bool := false
  deriving DecidableEq, Repr

/-- A memory controller (R526 to R555): its registers, `devLimit` the postponement limit that its device reports, whether it drains for self-refresh, its last
request, the place of scrub in its atoms, and the scrub period. -/
structure Mc where
  st       : Nat := 0
  density  : Nat := 1
  rate     : Nat := 3
  refPb    : Bool := false
  cache    : Bool := false
  hot      : Bool := false
  srIdle   : Nat := 20
  inhibit  : Bool := false
  limit    : Nat := 4
  devLimit : Nat := 15
  forced   : Nat := 0
  corr     : Nat := 0
  uncorr   : Nat := 0
  eccAddr  : Nat := 0
  periodH  : Nat := 24
  late     : Bool := false
  passes   : Nat := 0
  retries  : Nat := 0
  retrains : Nat := 0
  entries  : Nat := 0
  abandoned : Nat := 0
  drain    : Bool := false
  lastReq  : Nat := 0
  scrubPos : Nat := 0
  passAt   : Nat := 0
  passDone : Bool := false
  chans    : Tab McChan := []
  deriving DecidableEq, Repr

/-- A check engine or snoop channel (R556 to R569); `lost` says that its tap has been configured anew since it was bound (R567); `due` are the
units of its tap whose end it has not judged yet: media time (none for a frame, whose egress timestamp comes with its end), bytes, and whether withheld (R562). -/
structure Chk where
  cfg    : List Byte := []
  v      : BitVec 64 := 0
  valLo  : Word := 0
  ignored : Bool := false
  mis    : Bool := false
  misses : Nat := 0
  bound  : Bool := false
  overrun : Bool := false
  result : BitVec 64 := 0
  wptr   : Nat := 0
  units  : Nat := 0
  lost   : Bool := false
  due    : List (Option Nat × List Byte × Bool) := []
  deriving DecidableEq, Repr

/-- The requester of a quote (R599): a descriptor of this device, the partner, or a cascade device. -/
inductive QuoteFor where
  | self (d : Desc)
  | partner (nonce : List Byte)
  | casc (addr : Nat) (nonce : List Byte)
  deriving DecidableEq, Repr

/-- The trust engine (R587 to R606). `versions` and `done` hold the images accepted in this boot, `failed` the required ones refused; `keyDone` says that the boot ROM
has derived the key since the last reset; `snap` is the quote in service without its signature, `blockDue` the tick by which the island must have answered;
`attests` are the ATTESTs not yet complete, with acceptance tick and the bytes received; `keyHash` and `revoked` are the key-hash and revoke fuses of the key indexes
whose value is not the die's constant (R589, log entry 7). -/
structure Trust where
  boot      : Nat := 0
  copyB     : Bool := false
  recovery  : Bool := false
  slotDone  : Nat := 0
  keyReady  : Bool := false
  keyDone   : Bool := false
  versions  : Tab Nat := []
  fused     : Nat := 0
  bootCount : Nat := 0
  sensors   : Nat := 0
  tamper    : Nat := 0
  recLo     : Word := 0
  recHi     : Word := 0
  recGo     : Bool := false
  meas      : Tab (List Byte) := []
  done      : List Nat := []
  failed    : List Nat := []
  queue     : List QuoteFor := []
  serving   : Bool := false
  snap      : List Byte := []
  blockDue  : Option Nat := none
  attests   : List (Desc × Nat × List Byte) := []
  certs     : List Byte := []
  keyHash   : Tab (List Byte) := []
  revoked   : Tab Bool := []
  deriving DecidableEq, Repr

/-- What the island counts for one contract: the open second, its part that an interval closed early has taken (R624), the open interval and the totals (R610 to
R614), and MIN_RATE. -/
structure Contract where
  secPkts : Nat := 0
  secOct  : Nat := 0
  earlyPkts : Nat := 0
  earlyOct  : Nat := 0
  ivPkts  : Nat := 0
  ivOct   : Nat := 0
  ivSvc   : Nat := 0
  ivOut   : Nat := 0
  octets  : Nat := 0
  pkts    : Nat := 0
  svc     : Nat := 0
  outage  : Nat := 0
  minRate : Nat := 1
  deriving DecidableEq, Repr

/-- The Praline island (R607 to R626), kept by every reset: status, taps with the tick of their last heartbeat, hub time with the island time in ns at which it came,
the crystal counter with its fraction (units of 1/3,000,000,000 tick), checkpoint, the last second and the last interval boundary judged, what the open second and
interval have seen, the log with its records (sequence number, offset, length) and chain value (none before the first record), parameters, staged and committed changes
(kind, index, value), seal bodies that are being signed, the block, times of the last boundary, the hub's side: the status it last had and when, and
the last second for which it sent TIME; and the tap events on their way to the island (R609). -/
structure Prl where
  powered   : Bool := true
  tapA      : Bool := false
  tapB      : Bool := false
  beatA     : Nat := 0
  beatB     : Nat := 0
  mainAbsent : Bool := false
  logFull   : Bool := false
  logStopped : Bool := false
  timeDis   : Bool := false
  selfTest  : Bool := false
  sealHigh  : Bool := false
  keyReady  : Bool := true
  hubTime   : Option (Nat × Nat) := none
  audit     : Nat := 0
  interval  : Nat := 60
  counter   : Nat := 0
  frac      : Nat := 0
  checkpoint : Nat := 0
  secDone   : Nat := 0
  ivDone    : Nat := 0
  secDown   : Bool := false
  ivDown    : Bool := false
  ivAbsent  : Bool := false
  ivPresent : Bool := false
  ivParam   : Bool := false
  head      : Nat := 1
  released  : Nat := 0
  wptr      : Nat := 0
  ring      : Tab Byte := []
  recs      : List (Nat × Nat × Nat) := []
  chain     : Option (List Byte) := none
  certs     : List Byte := []
  map       : Tab Nat := []
  contracts : Tab Contract := []
  staged    : List (Nat × Nat × Nat) := []
  committed : List (Nat × Nat × Nat) := []
  signing   : List (List Byte × Nat) := []
  sealSeq   : Nat := 0
  block     : List Byte := []
  lastTime  : Option (Nat × Nat) := none
  sentStat  : Nat := 0
  sentSec   : Nat := 0
  hubStat   : Nat := 0
  hubStatAt : Nat := 0
  hubSec    : Nat := 0
  taps      : List TapEvent := []
  deriving DecidableEq, Repr

end Sys2Proof.Machine
end

