-- ==== Sys2Proof/Syntax.lean ====
section
/-! DEFINITION. The commands of the block: one constructor of Instr for each row of the spec's table of operations and
events (opcode_table.json), in the table's order, with the row's operands. `c` is a Dilet core, `z` the bits that an
instruction's format leaves unused (R144). A unit's descriptor operation carries no operand: it acts on the descriptor at the
head of the unit's input queue (R155). -/

namespace Sys2Proof

/-- The commands. -/
inductive Instr where
  /-- ADD (R145). A-format instruction writing ra + rb to rd. -/
  | addR (c : Fin 128) (rd ra rb : Fin 32)
  /-- SUB (R145). A-format instruction writing ra − rb to rd. -/
  | subR (c : Fin 128) (rd ra rb : Fin 32)
  /-- AND (R145). A-format instruction writing ra & rb to rd. -/
  | andR (c : Fin 128) (rd ra rb : Fin 32)
  /-- OR (R145). A-format instruction writing ra | rb to rd. -/
  | orR (c : Fin 128) (rd ra rb : Fin 32)
  /-- XOR (R145). A-format instruction writing ra ^ rb to rd. -/
  | xorR (c : Fin 128) (rd ra rb : Fin 32)
  /-- SLL (R145). Shift left logical by rb[5:0]. -/
  | sll (c : Fin 128) (rd ra rb : Fin 32)
  /-- SRL (R145). Shift right logical by rb[5:0] with zero fill. -/
  | srl (c : Fin 128) (rd ra rb : Fin 32)
  /-- SRA (R145). Shift right arithmetic by rb[5:0] with sign fill. -/
  | sra (c : Fin 128) (rd ra rb : Fin 32)
  /-- SLT (R145). Set rd to 1 if ra < rb signed. -/
  | slt (c : Fin 128) (rd ra rb : Fin 32)
  /-- SLTU (R145). Set rd to 1 if ra < rb unsigned. -/
  | sltu (c : Fin 128) (rd ra rb : Fin 32)
  /-- MIN (R145). Signed minimum of ra and rb. -/
  | minS (c : Fin 128) (rd ra rb : Fin 32)
  /-- MAX (R145). Signed maximum of ra and rb. -/
  | maxS (c : Fin 128) (rd ra rb : Fin 32)
  /-- MINU (R145). Unsigned minimum of ra and rb. -/
  | minu (c : Fin 128) (rd ra rb : Fin 32)
  /-- MAXU (R145). Unsigned maximum of ra and rb. -/
  | maxu (c : Fin 128) (rd ra rb : Fin 32)
  /-- MUL (R145). Low 64 bits of ra × rb. -/
  | mulR (c : Fin 128) (rd ra rb : Fin 32)
  /-- MULHU (R145). High 64 bits of unsigned ra × rb. -/
  | mulhu (c : Fin 128) (rd ra rb : Fin 32)
  /-- DIVU (R145). Unsigned division, all ones when rb is 0. -/
  | divu (c : Fin 128) (rd ra rb : Fin 32)
  /-- REMU (R145). Unsigned remainder, ra when rb is 0. -/
  | remu (c : Fin 128) (rd ra rb : Fin 32)
  /-- ADDI (R146). rd ← ra + sign-extended imm16. -/
  | addi (c : Fin 128) (rd ra : Fin 32) (imm : BitVec 16)
  /-- ANDI (R146). rd ← ra & zero-extended imm16. -/
  | andi (c : Fin 128) (rd ra : Fin 32) (imm : BitVec 16)
  /-- ORI (R146). rd ← ra | zero-extended imm16. -/
  | ori (c : Fin 128) (rd ra : Fin 32) (imm : BitVec 16)
  /-- XORI (R146). rd ← ra ^ zero-extended imm16. -/
  | xori (c : Fin 128) (rd ra : Fin 32) (imm : BitVec 16)
  /-- SHI (R146). Immediate shift whose kind and amount are selected by imm16. -/
  | shi (c : Fin 128) (rd ra : Fin 32) (imm : BitVec 16)
  /-- SLTI (R146). Set rd to 1 if ra < sign-extended imm16, signed. -/
  | slti (c : Fin 128) (rd ra : Fin 32) (imm : BitVec 16)
  /-- SLTUI (R146). Set rd to 1 if ra < sign-extended imm16, unsigned. -/
  | sltui (c : Fin 128) (rd ra : Fin 32) (imm : BitVec 16)
  /-- LD (R146). Sign-extending load from local, device or register space. -/
  | ld (c : Fin 128) (rd ra : Fin 32) (size space : BitVec 2) (off : BitVec 12)
  /-- LDU (R146). Zero-extending load from local, device or register space. -/
  | ldu (c : Fin 128) (rd ra : Fin 32) (size space : BitVec 2) (off : BitVec 12)
  /-- ST (R146). Store of the low bytes of rd to local, device or register space. -/
  | st (c : Fin 128) (rd ra : Fin 32) (size space : BitVec 2) (off : BitVec 12)
  /-- AMO (R140). Indivisible read-modify-write on an aligned 32- or 64-bit device location. -/
  | amo (c : Fin 128) (rd ra rb : Fin 32) (kind : BitVec 3) (wide : Bool) (z : BitVec 7)
  /-- BEQ (R146). Branch if ra = rb. -/
  | beq (c : Fin 128) (ra rb : Fin 32) (off : BitVec 16)
  /-- BNE (R146). Branch if ra ≠ rb. -/
  | bne (c : Fin 128) (ra rb : Fin 32) (off : BitVec 16)
  /-- BLT (R146). Branch if ra < rb signed. -/
  | blt (c : Fin 128) (ra rb : Fin 32) (off : BitVec 16)
  /-- BGE (R146). Branch if ra ≥ rb signed. -/
  | bge (c : Fin 128) (ra rb : Fin 32) (off : BitVec 16)
  /-- BLTU (R146). Branch if ra < rb unsigned. -/
  | bltu (c : Fin 128) (ra rb : Fin 32) (off : BitVec 16)
  /-- BGEU (R146). Branch if ra ≥ rb unsigned. -/
  | bgeu (c : Fin 128) (ra rb : Fin 32) (off : BitVec 16)
  /-- JAL (R146). Jump relative and link. -/
  | jal (c : Fin 128) (rd : Fin 32) (z : BitVec 5) (imm : BitVec 16)
  /-- JALR (R146). Jump to register plus offset and link. -/
  | jalr (c : Fin 128) (rd ra : Fin 32) (imm : BitVec 16)
  /-- ISSUE (R154). Checks a descriptor header and copies the descriptor into the unit's input queue. -/
  | issue (c : Fin 128) (rd ra : Fin 32) (z : BitVec 8) (imm : BitVec 8)
  /-- WAIT (R148). Waits for event flags in any or all mode, with an optional timeout. -/
  | wait (c : Fin 128) (rd ra rb : Fin 32) (sub : BitVec 3) (z : BitVec 8)
  /-- POST (R149). Posts a 32-bit mask to a target thread. -/
  | post (c : Fin 128) (rd ra rb : Fin 32) (z : BitVec 11)
  /-- YIELD (R182). Releases the core, and the thread goes to the tail of its READY order. -/
  | yieldCore (c : Fin 128) (z : BitVec 26)
  /-- END (R101). Ends the thread, with g1 as its completion value. -/
  | endThread (c : Fin 128) (z : BitVec 26)
  /-- TIME (R453). Reads the time-base counter as media time. -/
  | timeRd (c : Fin 128) (rd : Fin 32) (z : BitVec 21)
  /-- MFS (R146). Reads a special register selected by imm8. -/
  | mfs (c : Fin 128) (rd : Fin 32) (z : BitVec 13) (sel : BitVec 8)
  /-- MTS (R146). Writes flags from ra[1:0]. -/
  | mts (c : Fin 128) (ra : Fin 32) (z : BitVec 13) (sel : BitVec 8)
  /-- MFENCE (R139). Holds the thread until earlier device accesses, and with DRAIN earlier descriptors, are complete. -/
  | mfence (c : Fin 128) (z : BitVec 18) (imm : BitVec 8)
  /-- WIN (R133). Sets one device-memory window of a function from a local record. -/
  | win (c : Fin 128) (rd ra : Fin 32) (z : BitVec 16)
  /-- TRAP (R146). Traps SWTRAP with code imm8. -/
  | trap (c : Fin 128) (z : BitVec 18) (imm : BitVec 8)
  /-- LI (R146). Loads the sign-extended extension word into rd. -/
  | li (c : Fin 128) (rd : Fin 32) (z : BitVec 21) (ext : BitVec 32)
  /-- LIH (R146). Loads the extension word into rd[63:32]. -/
  | lih (c : Fin 128) (rd : Fin 32) (z : BitVec 21) (ext : BitVec 32)
  /-- DEVICE_LOAD_DATA_RETURN (R147). Data of a device load or AMO result returns and the held thread continues. -/
  | deviceLoadDataReturn (t : Fin 4096)
  /-- MFENCE_COMPLETE (R139). The accesses or descriptors an MFENCE waits for complete, and the thread is released. -/
  | mfenceComplete (t : Fin 4096)
  /-- ISSUE_QUEUE_SPACE (R155). Space frees in a unit queue and an ISSUE held by back-pressure copies its descriptor. -/
  | issueQueueSpace (t : Fin 4096)
  /-- WAIT_TIMEOUT (R148). The timeout of a WAIT expires first, setting flags.WT. -/
  | waitTimeout (t : Fin 4096)
  /-- MERGE_PATH_FOLD (R175). The dispatcher folds a thread's pending word into its flags and may wake it. -/
  | mergePathFold (t : Fin 4096)
  /-- POST_QUEUE_FOLD (R177). The dispatcher folds a post-queue entry into its thread's flags and may wake it. -/
  | postQueueFold (c : Fin 128)
  /-- POST_QUEUE_ENTRY_FREE (R178). A post-queue entry frees and a poster held by back-pressure is released. -/
  | postQueueEntryFree (c : Fin 128)
  /-- CORE_DISPATCH (R179). An idle core takes the highest-priority READY thread of its affinity. -/
  | coreDispatch (c : Fin 128)
  /-- TIME_SLICE_EXPIRY (R181). A thread that has run for DSP_SLICE.US moves to the tail of its priority. -/
  | timeSliceExpiry (c : Fin 128)
  /-- DISPATCH_STALL (R186). A held poster passes DSP_STALL_LIMIT.US and the stall is recorded. -/
  | dispatchStall
  /-- RING_SQ_TAIL_WRITE (R94). Host writes the submission tail doorbell, or puts the ring in ERROR if too far ahead. -/
  | ringSqTailWrite (who : Requester) (fn : Fin 64) (v : BitVec 32)
  /-- SQ_ENTRY_FETCH (R95). The hub fetches the next submission entry of a ring and acts on its kind. -/
  | sqEntryFetch (fn : Fin 64) (entry : List Byte)
  /-- PROGRAM_START (R98). A thread frees and the waiting kind 1 entry's image is fetched and its program started. -/
  | programStart (fn : Fin 64) (image : List Byte)
  /-- PROGRAM_IMAGE_READ_FAIL (R99). A host read of a program image fails and the entry retires with TIMEOUT or BAD_DESCRIPTOR. -/
  | programImageReadFail (fn : Fin 64) (f : ImageFail)
  /-- RING_CQ_HEAD_WRITE (R105). Host writes the completion head doorbell, ending vector 2 pending and freeing room. -/
  | ringCqHeadWrite (who : Requester) (fn : Fin 64) (v : BitVec 32)
  /-- VECTOR2_COALESCE_EXPIRY (R105). The COALESCE_US delay expires and the vector 2 message is sent. -/
  | vector2CoalesceExpiry (fn : Fin 64)
  /-- RING_ENABLE_SET (R108). Setting RING_CTRL.ENABLE delivers held completions and resumes service. -/
  | ringEnableSet (who : Requester) (fn : Fin 64)
  /-- RING_ENABLE_CLEAR (R108). Clearing RING_CTRL.ENABLE stops fetching. -/
  | ringEnableClear (who : Requester) (fn : Fin 64)
  /-- HUB_RESYNC_REQ_WRITE (R113). The PF writes 1 to HUB_RESYNC.REQ to request a Summary Block. -/
  | hubResyncReqWrite (who : Requester)
  /-- SUMMARY_BLOCK_WRITE (R114). Hub firmware writes the Summary Block, sets DONE or ERR and raises vector 0. -/
  | summaryBlockWrite (ok : Bool)
  /-- HUB_OWN_FN_WRITE (R89). The PF sets the owner of the selected object, or the write is refused. -/
  | hubOwnFnWrite (who : Requester) (v : BitVec 32)
  /-- VF_DISABLE (R89). Clearing VF Enable or lowering NumVFs removes VFs, which take reset F. -/
  | vfDisable (enable : Bool) (numVfs : Fin 64)
  /-- D3HOT_ENTRY (R84). A function in D3hot behaves towards its rings as after reset H. -/
  | d3hotEntry (fn : Fin 64)
  /-- REGISTER_WRITE (R6). A write to a register with no behaviour of its own sets its fields by access code. -/
  | registerWrite (who : Requester) (sp : RegSpace) (off : BitVec 26) (v : BitVec 32) (be : BitVec 4)
  /-- HOST_BAR4_ACCESS (R673). A host read or write of device memory through the BAR4 aperture. -/
  | hostBar4Access (write : Bool) (addr : BitVec 36) (data : List Byte) (en : List Bool)
  /-- CORE_WINDOW_READ (R650). A read of a Dilet core window, which raises DILET_ECC on a double-bit error. -/
  | coreWindowRead (c : Fin 128) (off : BitVec 18)
  /-- FABRIC_ADMIT (R71). Books a channel's shares on its named pipes. -/
  | fabricAdmit
  /-- FABRIC_RELEASE (R73). Removes a channel's bookings. -/
  | fabricRelease
  /-- FABRIC_QUERY (R66). Writes the capacity record. -/
  | fabricQuery
  /-- CADENCE_WINDOW (R51). One time-base microsecond of replica handshakes is counted for each island. -/
  | cadenceWindow (counts : List Nat)
  /-- CADENCE_CONTROL_CYCLE (R54). The 10 µs control cycle decides and writes the VDD_CORE set-point and computes surplus. -/
  | cadenceControlCycle (temps : List Int) (avs : AvsReply)
  /-- SHED_RESTORE (R79). After FABRIC_CADENCE is cleared, a shed channel is restored once its pipes and later sheds allow. -/
  | shedRestore (ch : Fin 512)
  /-- CAPTURE_CONFIGURE (R212). Sets a capture input's configuration. -/
  | captureConfigure
  /-- CAPTURE_START (R210). Starts frame-sync from the effective tick. -/
  | captureStart
  /-- CAPTURE_STOP (R210). From the effective tick presents slate and receives nothing. -/
  | captureStop
  /-- CAPTURE_SUBST (R210). Changes SUBST, FREEZE_TICKS and SLATE_ADDR at the effective tick. -/
  | captureSubst
  /-- ST2110_PACKET_RX (R191). A video packet arrives, is merged across paths and written to the store. -/
  | st2110PacketRx (i : Fin 192) (pathB : Bool) (pkt : VideoPkt)
  /-- SDI_LINE_RX (R192). An SDI line is received with its line CRC on every link. -/
  | sdiLineRx (i : Fin 192) (ln : SdiLine)
  /-- PATH_DOWN_TIMEOUT (R191). A path that has carried no packet for 10 ms is marked down. -/
  | pathDownTimeout (i : Fin 192) (pathB : Bool)
  /-- ANC_PACKET_RX (R208). An ST 2110-40 or VANC packet is read for SCTE 104 messages. -/
  | ancPacketRx (i : Fin 192) (pkt : AncPkt)
  /-- AUDIO_PACKET_RX (R190). An ST 2110-30 packet is stamped with its media time and handed to the packager. -/
  | audioPacketRx (pkt : AudioPkt)
  /-- LINE_DUE (R197). A line of the candidate raster falls due and its presence is judged. -/
  | lineDue (i : Fin 192)
  /-- CAPTURE_OUTPUT_TICK (R200). At each output tick capture presents one raster chosen by Table 6.2. -/
  | captureOutputTick (i : Fin 192)
  /-- MF_SCENE_CONFIGURE (R245). Sets a scene's configuration. -/
  | mfSceneConfigure
  /-- MF_SCENE_START (R245). Books the scene's cost and starts composition from the effective tick. -/
  | mfSceneStart
  /-- MF_SCENE_STOP (R243). Stops a scene at the effective tick. -/
  | mfSceneStop
  /-- MF_LAYER_COMMIT (R245). Queues a pending commit of one layer's state. -/
  | mfLayerCommit
  /-- MF_OUTPUT_COMMIT (R243). Replaces an output entry at the effective tick. -/
  | mfOutputCommit
  /-- SCENE_TICK (R235). A scene tick begins a raster and applies commits due at it. -/
  | sceneTick (cl : Fin 4) (sc : Fin 16)
  /-- SCENE_ROW_COMPLETE (R238). A scene row's composition completes and ROW advances. -/
  | sceneRowComplete (cl : Fin 4) (sc : Fin 16)
  /-- OUTPUT_ROW_UNDERRUN (R241). An output row not complete 50 µs after its bound is taken from the previous slot. -/
  | outputRowUnderrun (cl : Fin 4) (sc : Fin 16) (o : Fin 8) (row : Fin 4320)
  /-- BLIT_FILL (R249). Queues a fill of a destination rectangle. -/
  | blitFill
  /-- BLIT_COPY (R249). Queues a byte copy between rectangles. -/
  | blitCopy
  /-- BLIT_CONVERT (R259). Queues a copy with format conversion. -/
  | blitConvert
  /-- BLIT_CHUNK (R256). The engine reads and writes one chunk of the current job. -/
  | blitChunk (e : Fin 4)
  /-- BURST_GAP_EXPIRY (R260). The BURST_GAP wait after sixteen chunks ends and the job continues. -/
  | burstGapExpiry (e : Fin 4)
  /-- ENC_LOAD (R284). Replaces a channel's context. -/
  | encLoad
  /-- ENC_START (R285). Starts a channel with a key picture from the effective tick. -/
  | encStart
  /-- ENC_STOP (R297). Makes the picture before the effective tick the channel's last. -/
  | encStop
  /-- ENC_KEYPIC (R294). Codes a key picture at the first unplanned picture at or after its time. -/
  | encKeypic
  /-- ENC_RATE (R331). Changes rate-control parameters at a picture. -/
  | encRate
  /-- ENC_STATS (R282). Writes a channel's statistics record. -/
  | encStats
  /-- ENC_PARK (R285). Parks or unparks a pipe. -/
  | encPark
  /-- UNPARK_COMPLETE (R285). An unparked pipe returns to service within 50 µs. -/
  | unparkComplete (p : Fin 16)
  /-- CTU_ROW_BOUNDARY (R287). At a row boundary the pipe picks and codes the next member's row. The moment brings nothing but the pipe: what a row costs follows
  from R277's inputs. -/
  | ctuRowBoundary (p : Fin 16) (cost : Unit)
  /-- PICTURE_DEADLINE (R291). At Tj an incomplete picture, that of coding index j, is replaced by a repeat or completed by the skip path. -/
  | pictureDeadline (ch : Fin 512) (j : Nat)
  /-- EP_ECC (R299). An uncorrectable pipe memory error takes the pipe out of service. -/
  | epEcc (e : PipeEcc 16)
  /-- EP_MEMORY_TEST_DONE (R299). After EP_ECC is cleared the pipe memory test ends and channels are restored or the fault recurs. -/
  | epMemoryTestDone (p : Fin 16) (pass : Bool)
  /-- DEC_CONFIGURE (R350). Sets a decoder stream's configuration. -/
  | decConfigure
  /-- DEC_START (R350). Books and starts decoding from the effective tick. -/
  | decStart
  /-- DEC_STOP (R347). Stops a stream from the effective tick. -/
  | decStop
  /-- DEC_PACKET_RX (R336). A stream packet arrives, is merged, recovered by FEC and buffered. -/
  | decPacketRx (st : Fin 16) (pathB : Bool) (pkt : DecPkt)
  /-- DEC_PICTURE_DECODED (R338). A picture is decoded, with concealment, and written to the store. -/
  | decPictureDecoded (st : Fin 16) (pic : DecPic)
  /-- DP_ECC (R351). An uncorrectable decode-pipe memory error takes the pipe out of service. -/
  | dpEcc (e : PipeEcc 4)
  /-- DP_MEMORY_TEST_DONE (R351). After DP_ECC is cleared the memory test ends and streams resume seeking. -/
  | dpMemoryTestDone (d : Fin 4) (pass : Bool)
  /-- TWIN_CONFIGURE (R389). Sets the twin configuration and starts bring-up. -/
  | twinConfigure
  /-- TWIN_UNPAIR (R389). Stops the link and enters UNPAIRED. -/
  | twinUnpair
  /-- TWIN_RESYNC (R389). Makes a channel diverge on the follower. -/
  | twinResync
  /-- PAIRING_RECORD_RX (R356). The partner's pairing record arrives and the pair is accepted or rejected. -/
  | pairingRecordRx (r : PairingRecord)
  /-- COMPLETENESS_MAP_RX (R359). A partner's completeness map arrives and missing data is fetched. -/
  | completenessMapRx (i : Fin 192) (held : HeldMap)
  /-- TWIN_FETCH_DATA_RX (R359). A fetched packet or line arrives and is written to the store. -/
  | twinFetchDataRx (i : Fin 192) (item : FetchItem)
  /-- PRESENCE_VERDICT_RX (R360). The junior receives the senior's line verdict and stamp. -/
  | presenceVerdictRx (i : Fin 192) (line : Nat) (present : Bool) (stamp : Nat)
  /-- PACKET_DECLARATION_RX (R362). The junior receives the senior's received-or-lost declaration for a stream packet. -/
  | packetDeclarationRx (st : Fin 16) (seq : Nat) (received : Bool)
  /-- INPUT_DIGEST_RX (R363). The partner's input digest arrives and a mismatch raises TWIN_DIVERGE. -/
  | inputDigestRx (i : Fin 192) (mt : Nat) (digest : BitVec 64)
  /-- MATCH_PROPOSAL_RX (R366). The partner's proposal arrives and the agreed point is fixed. -/
  | matchProposalRx (unit op : Nat) (obj user : Nat) (mt : Nat) (ctx : BitVec 64)
  /-- MATCH_TIMEOUT (R366). A descriptor finds no match within MATCH_US and completes TIMEOUT. -/
  | matchTimeout
  /-- MISS_NOTICE_RX (R370). A partner's miss notice arrives and the miss is mirrored where possible. -/
  | missNoticeRx (ch : Fin 512) (mt : Nat) (rows : Nat)
  /-- SHED_NOTICE_RX (R371). A partner's notice about a channel arrives: of a shed, from whose media time the channel is shed too, or one of the
others that the control class carries (R380, R385, R389, R390). -/
  | shedNoticeRx (ch : Fin 512) (x : ChanNotice)
  /-- HISTORY_RECORD_RX (R375). A partner's history record arrives and is compared with the own record. -/
  | historyRecordRx (ch : Fin 512) (r : HistRecord)
  /-- SNAPSHOT_RX (R384). The snapshot arrives and the follower codes the copy point from it. -/
  | snapshotRx (ch : Fin 512) (mt : Nat) (complete : Bool) (snap : Machine.Chan) (rest : Machine.SnapRest)
  /-- TWIN_LINK_DEAD (R378). No frame for DEAD_US declares the link down and the pair PARTITIONED. -/
  | twinLinkDead
  /-- PKG_CONFIGURE (R416). Sets a flow's configuration. -/
  | pkgConfigure
  /-- PKG_RELEASE (R416). Returns a flow to unconfigured. -/
  | pkgRelease
  /-- PKG_SPLICE (R416). Places an SCTE 35 cue at a picture. -/
  | pkgSplice
  /-- ES_RECORD_PACKETISE (R402). The packager builds a released record's packets and hands them to egress queues. -/
  | esRecordPacketise (ch : Fin 512)
  /-- AUDIO_FORWARD_DUE (R412). An audio packet reaches M + AUDIO_DELAY_NS and enters its egress queue. -/
  | audioForwardDue (f : Fin 4096)
  /-- TM_QUEUE (R449). Configures an egress queue. -/
  | tmQueue
  /-- TM_SHAPE (R449). Requests a shaper or weight change at a microsecond boundary. -/
  | tmShape
  /-- SHAPE_TAKES_EFFECT (R437). A pending SHAPE takes effect at its microsecond boundary. -/
  | shapeTakesEffect
  /-- TM_PORT (R449). Sets port overhead, class modes, weights and shapers. -/
  | tmPort
  /-- TM_GATE (R444). Writes a port's administrative gate list. -/
  | tmGate
  /-- GATE_LIST_OPERATIONAL (R445). An administrative gate list becomes operational and the GATE completes. -/
  | gateListOperational (p : Fin 128)
  /-- GATE_ENTRY_CHANGE (R441). The gate list advances to its next entry. -/
  | gateEntryChange (p : Fin 128)
  /-- TM_POLICER (R449). Configures an ingress policer. -/
  | tmPolicer
  /-- TM_RELEASE (R449). Returns a queue or policer to unconfigured. -/
  | tmRelease
  /-- INGRESS_FRAME_RX (R428). A received frame is policed, coloured and passed, re-marked or dropped. -/
  | ingressFrameRx (p : Fin 128) (fr : InFrame)
  /-- PACKET_ENQUEUE (R422). A packet enters an egress queue or is dropped at its limit. -/
  | packetEnqueue
  /-- PORT_SCHEDULE (R440). The MAC is free and the port picks the next packet by class and fair queueing. -/
  | portSchedule (p : Fin 128)
  /-- PACE_SLOT (R446). A paced packet's slot arrives and it becomes ready. -/
  | paceSlot (q : Fin 8192)
  /-- FRAME_TX_DONE (R609). A MAC completes a frame with its FCS and sends a tap event. -/
  | frameTxDone (p : Fin 128)
  /-- TIME_PTP_PORT (R474). Configures PTP on a port. -/
  | timePtpPort
  /-- TIME_OUTPUTS (R474). Sets sample source, PPS and TOD outputs. -/
  | timeOutputs
  /-- TB_OFFSET_HI_WRITE (R458). A firmware write to TB_OFFSET_HI commits a servo sample. -/
  | tbOffsetHiWrite (v : BitVec 32)
  /-- SERVO_SAMPLE (R459). The servo consumes a sample, stepping the counter or updating y and its state. -/
  | servoSample
  /-- HOLDOVER_TIMEOUT (R460). No sample for HOLD × 100 ms puts the servo in HOLDOVER. -/
  | holdoverTimeout
  /-- TB_NOW_NS_READ (R456). A read of TB_NOW_NS latches seconds and fraction of the same tick. -/
  | tbNowNsRead
  /-- TB_NOW_SEC_HI_WRITE (R457). A firmware write of TB_NOW_SEC_HI coarse-sets the seconds, or is ignored. -/
  | tbNowSecHiWrite (v : BitVec 32)
  /-- PPS_IN_EDGE (R471). A PPS_IN edge latches the counter and may commit a sample. -/
  | ppsInEdge
  /-- TIME_PPS (R471). 1.100 s pass without a PPS_IN edge and TIME_PPS is raised. -/
  | timePps
  /-- PPS_OUT_EDGE (R470). The counter's nanoseconds pass 0 and PPS_OUT rises. -/
  | ppsOutEdge
  /-- PPS_OUT_FALL (R470). PPS_WIDTH_US expires and PPS_OUT falls. -/
  | ppsOutFall
  /-- TOD_LINE_START (R472). 10 ms after a PPS edge the TOD line is sent. -/
  | todLineStart (utcOffset : Nat)
  /-- PTP_MESSAGE_RX (R466). A PTP event message is received and timestamped. -/
  | ptpMessageRx (p : Fin 128) (m : PtpMsg)
  /-- PTP_MESSAGE_TX (R469). A PTP event message is sent and timestamped, one-step Syncs written in flight. -/
  | ptpMessageTx (p : Fin 128) (m : PtpMsg)
  /-- LANE_CONFIGURE (R501). Binds a lane group and starts bring-up. -/
  | laneConfigure
  /-- LANE_RELEASE (R501). Unbinds a lane group. -/
  | laneRelease
  /-- LANE_IDLE (R490). Puts a group into electrical idle or takes it out. -/
  | laneIdle
  /-- LANE_TEST (R499). Switches pattern, loopback and checker of a test group. -/
  | laneTest
  /-- DETECT_POLL (R482). The 1 ms DETECT poll tests termination or energy. -/
  | detectPoll (l : LaneRef) (found : DetectFacts)
  /-- BRINGUP_STAGE_PASS (R482). Every lane passes a bring-up stage and the group moves on. -/
  | bringupStagePass (l : LaneRef) (facts : LaneFacts)
  /-- BRINGUP_STAGE_TIMEOUT (R483). A stage fails or exceeds its limit and a retry is counted. -/
  | bringupStageTimeout (l : LaneRef)
  /-- BRINGUP_RETRY (R483). 10 ms after a failure the group returns to DETECT. -/
  | bringupRetry (l : LaneRef)
  /-- LANE_LOCK_LOSS (R492). An ACTIVE lane loses lock, raises LANE_LOCK and acts by binding. -/
  | laneLockLoss (l : LaneRef) (energy : Bool)
  /-- LANE_READMIT (R492). A retrained twin or cascade lane is re-admitted after 1 ms of clean lock. -/
  | laneReadmit (x : CleanLock)
  /-- EQ_CACHE_WRITE (R486). An ACTIVE lane writes its equaliser cache every 100 ms. -/
  | eqCacheWrite (l : Fin 256) (facts : LaneFacts)
  /-- EQ_CACHE_INVALIDATE (R487). Idle beyond LANEn_EQ_HOLD.US invalidates the cache and resets the equaliser. -/
  | eqCacheInvalidate (l : Fin 256)
  /-- LANEN_SLIP_WRITE (R495). A write of 1 to SLIP moves a raw group's word boundary one UI. -/
  | lanenSlipWrite (who : Requester) (l : Fin 256) (v : BitVec 32)
  /-- RAW_ATOM_WRITE (R494). A raw group writes a received 64-byte atom and advances its pointer. -/
  | rawAtomWrite (l : Fin 256) (data : List Byte)
  /-- CASC_CONFIGURE (R523). Configures the cascade address, map and buffers. -/
  | cascConfigure
  /-- CASC_SEND (R523). Sends a control or telemetry message. -/
  | cascSend
  /-- CASC_BYPASS (R523). Writes CASC_BYPASS.FORCE. -/
  | cascBypass
  /-- CASC_BYPASS_FORCE_WRITE (R525). A firmware write of CASC_BYPASS.FORCE closes or releases the bypass. -/
  | cascBypassForceWrite (who : Requester) (v : BitVec 32)
  /-- CASC_FRAME_RX (R508). A cascade frame arrives and is delivered, acknowledged or forwarded. -/
  | cascFrameRx (ringB : Bool) (fr : CascFrame)
  /-- CASC_HELLO_RX (R507). A neighbour's hello arrives, with skipped count and duplicate checks. -/
  | cascHelloRx (ringB : Bool) (h : CascHello)
  /-- CONTROL_ACK_TIMEOUT (R509). No acknowledgement arrives and the control message is retried or times out. -/
  | controlAckTimeout
  /-- FAULT_BROADCAST_PERIOD (R510). Every 100 ms a fault broadcast is sent on both rings. -/
  | faultBroadcastPeriod
  /-- TIME_COMPARISON_PERIOD (R508). Every 125 ms a time comparison is sent on each ring. -/
  | timeComparisonPeriod
  /-- HOP_FRAME_TIMEOUT (R516). No frame for BREAK_US opens the hop and raises CASC_BREAK. -/
  | hopFrameTimeout (ringB : Bool)
  /-- BREAK_NOTICE_RX (R517). A break notice arrives and the devices wrap. -/
  | breakNoticeRx (ringB : Bool)
  /-- CLEAR_NOTICE_RX (R518). A clear notice arrives and the devices unwrap. -/
  | clearNoticeRx (ringB : Bool)
  /-- BYPASS_CONDITION_CHANGE (R513). A bypass condition arises or ends and the switches close or open. -/
  | bypassConditionChange
  /-- MC_BURST_BOUNDARY (R536). A channel starts the next burst and issues an owed refresh. -/
  | mcBurstBoundary (m : Fin 12) (k : Fin 4) (waiting : List Burst)
  /-- MC_RETRAIN_DONE (R548). Retraining of a channel completes and waiting requests resume. -/
  | mcRetrainDone (m : Fin 12) (k : Fin 4)
  /-- REFRESH_DUE (R538). A per-bank or all-bank refresh falls due and becomes owed. -/
  | refreshDue (m : Fin 12) (k : Fin 4)
  /-- FORCED_REFRESH (R540). An owed refresh reaches its limit and is forced. -/
  | forcedRefresh (m : Fin 12) (k : Fin 4)
  /-- SR_IDLE_EXPIRY (R542). The idle count expires and self-refresh entry drains. -/
  | srIdleExpiry (m : Fin 12)
  /-- SR_DRAIN_DONE (R542). Drain ends and the controller enters self-refresh. -/
  | srDrainDone (m : Fin 12)
  /-- SR_EXIT_REQUEST (R544). A request reaches a controller in self-refresh and it exits. -/
  | srExitRequest (m : Fin 12)
  /-- SCRUB_ATOM (R549). Scrub reads one atom and corrects it if needed. -/
  | scrubAtom (m : Fin 12) (err : AtomErr)
  /-- SCRUB_PERIOD_END (R549). A scrub period ends and LATE is set if the pass did not complete. -/
  | scrubPeriodEnd (m : Fin 12)
  /-- MEM_COPY (R554). Copies device memory. -/
  | memCopy (e : Fin 4)
  /-- MEM_FILL (R554). Fills device memory with a pattern. -/
  | memFill (e : Fin 4)
  /-- CHECK_CONFIGURE (R567). Configures a check engine or snoop channel. -/
  | checkConfigure
  /-- CHECK_FEED (R561). Feeds device-memory bytes to a write-fed engine. -/
  | checkFeed
  /-- CHECK_STORE_VALUE (R567). Writes an engine's running value and result. -/
  | checkStoreValue
  /-- CHECK_LOAD_VALUE (R567). Sets an engine's running value. -/
  | checkLoadValue
  /-- CHECK_RELEASE (R567). Returns a check object to unconfigured. -/
  | checkRelease
  /-- CHK_DATA_WRITE (R560). A write to _DATA_B, _DATA_H or _DATA_W feeds bytes to an engine. -/
  | chkDataWrite (who : Requester) (e : Fin 8) (form : Fin 3) (v : BitVec 32)
  /-- CHK_VALUE_HI_WRITE (R561). A write to _VALUE_HI sets the running value. -/
  | chkValueHiWrite (who : Requester) (e : Fin 8) (v : BitVec 32)
  /-- CHK_CTRL_COMPARE (R565). A write of 1 to COMPARE compares the result with EXPECT. -/
  | chkCtrlCompare (who : Requester) (e : Fin 8)
  /-- CHK_CTRL_RESTART (R569). A write of 1 to RESTART sets the running value to INIT. -/
  | chkCtrlRestart (who : Requester) (e : Fin 8)
  /-- CHK_MODE_WRITE (R560). A write of CHK_MODE changes engine modes and unconfigures changed engines. -/
  | chkModeWrite (who : Requester) (v : BitVec 32)
  /-- SNOOP_UNIT_END (R562). A tapped unit ends, latching, logging and comparing the result. -/
  | snoopUnitEnd (k : Fin 56) (mt : Nat) (unit : SnoopUnit) (withheld full : Bool)
  /-- FAULT_LINE_RISE (R572). A source line rises and its sticky bit latches with its class's reaction. -/
  | faultLineRise (srcs : BitVec 64)
  /-- FAULT_ASSERT (R584). Asserts or deasserts a software fault source. -/
  | faultAssert
  /-- FLT_STATUS_W1C (R581). A W1C of FLT_STATUS clears sticky bits and releases their reactions. -/
  | fltStatusW1c (who : Requester) (hi : Bool) (v : BitVec 32)
  /-- FLT_CLASS_WRITE (R577). A write sets source classes, subject to locks. -/
  | fltClassWrite (who : Requester) (k : Fin 4) (v : BitVec 32)
  /-- FLT_CTRL_CLASS_LOCK (R577). Setting CLASS_LOCK locks every class field. -/
  | fltCtrlClassLock (who : Requester)
  /-- FLT_HEARTBEAT_WRITE (R573). A firmware write is a heartbeat. -/
  | fltHeartbeatWrite (who : Requester) (v : BitVec 32)
  /-- HUB_WDT (R573). No heartbeat for 50 ms raises HUB_WDT. -/
  | hubWdt
  /-- HEARTBEAT_LAPSE (R583). No heartbeat for 10 ms stops ALIVE. -/
  | heartbeatLapse
  /-- ALIVE_TOGGLE (R583). At each 500,000 ns multiple ALIVE toggles while healthy. -/
  | aliveToggle
  /-- TRUST_ATTEST (R604). Requests a signed quote from this device, the partner or a cascade device. -/
  | trustAttest
  /-- TRUST_CERTS (R603). Copies the certificate store. -/
  | trustCerts
  /-- TRUST_MEASURE (R604). Extends MEAS5 with a hash of a memory range. -/
  | trustMeasure
  /-- TRUST_COMMIT_SVN (R596). Raises the fused minimum security version. -/
  | trustCommitSvn
  /-- QUOTE_SERVICE_START (R600). A queued quote request starts service and its snapshot is taken. -/
  | quoteServiceStart
  /-- PRALINE_BLOCK_TIMEOUT (R601). The island does not answer within 10 ms and the quote's Praline block is omitted. -/
  | pralineBlockTimeout
  /-- QUOTE_SIGNED (R600). A quote is signed and delivered. -/
  | quoteSigned
  /-- TRUST_TAMPER (R605). A tamper sensor trips, erasing the identity key. -/
  | trustTamper (sensors : BitVec 3)
  /-- TRUST_RECOVER_GO (R591). Setting GO in BOOT_FAILED repeats boot from an image set in memory. -/
  | trustRecoverGo (who : Requester) (v : BitVec 32)
  /-- BOOT_IMAGE_LOAD (R589). An image is read, verified and measured, or refused with BOOT_AUTH. -/
  | bootImageLoad (copyB : Bool) (img : BootImage)
  /-- TAP_EVENT (R610). The island counts a tap event for its flow's contract. -/
  | tapEvent (ev : TapEvent)
  /-- TAP_HEARTBEAT_RX (R612). A tile tap heartbeat arrives and ends tap down. -/
  | tapHeartbeatRx (tileB : Bool)
  /-- TAP_HEARTBEAT_TIMEOUT (R612). No heartbeat for 10 µs marks a tile's tap down. -/
  | tapHeartbeatTimeout (tileB : Bool)
  /-- ISLAND_SECOND_BOUNDARY (R611). An island second ends, classifying it and updating totals and checkpoint. -/
  | islandSecondBoundary
  /-- INTERVAL_BOUNDARY (R613). An interval boundary writes INTERVAL, PARAM, TOTALS and SEAL records as due. -/
  | intervalBoundary
  /-- SEAL_SIGNATURE_DONE (R618). A seal's signature completes and replaces the status block. -/
  | sealSignatureDone
  /-- MAILBOX_TIME_RX (R621). A TIME message from the hub is received. -/
  | mailboxTimeRx (msg : List Byte)
  /-- MAILBOX_RELEASE_RX (R619). A RELEASE message permits overwriting records. -/
  | mailboxReleaseRx (msg : List Byte)
  /-- HUB_TIME_SEND (R621). At each whole media second the hub sends a TIME message. -/
  | hubTimeSend
  /-- PRL_STATUS_SEND (R608). The island sends its status word on change or each island second. -/
  | prlStatusSend
  /-- PRALINE_LINK (R608). No status message for 3 s raises PRALINE_LINK. -/
  | pralineLink
  /-- PRL_SEAL_N_EDGE (R622). An edge of PRL_SEAL_N writes SEAL_INPUT and may discard staged changes. -/
  | prlSealNEdge (high : Bool)
  /-- PRL_UART_ID (R623). UART command returning identity, key and next sequence number. -/
  | prlUartId
  /-- PRL_UART_STATUS (R623). UART command returning status, audit counter and island counter. -/
  | prlUartStatus
  /-- PRL_UART_READ (R623). UART command returning log records. -/
  | prlUartRead (first n : Nat)
  /-- PRL_UART_BLOCK (R623). UART command returning the status block. -/
  | prlUartBlock
  /-- PRL_UART_MAP (R623). UART command staging a flow map change. -/
  | prlUartMap (flow : Nat) (contract : Option Nat) (bits : Nat)
  /-- PRL_UART_RATE (R623). UART command staging a MIN_RATE change. -/
  | prlUartRate (contract rate : Nat)
  /-- PRL_UART_INTERVAL (R623). UART command staging INTERVAL_S. -/
  | prlUartInterval (sec : Nat)
  /-- PRL_UART_COMMIT (R622). UART command committing staged changes for the next boundary. -/
  | prlUartCommit
  /-- PRL_UART_DISCARD (R623). UART command dropping staged changes. -/
  | prlUartDiscard
  /-- MAIN_SUPPLY_LOSS (R624). PWR_OK low: the island closes the interval and seals. -/
  | mainSupplyLoss
  /-- MAIN_SUPPLY_RETURN (R624). Main supplies return and a POWER record is written. -/
  | mainSupplyReturn
  /-- VDD_PRL_POWER_UP (R620). The island powers up, self-tests and resumes its counter from the checkpoint. -/
  | vddPrlPowerUp (keyOk : Bool)
  /-- RESET_P (R627). PWR_OK low or power-on reset asserted resets everything but the island. -/
  | resetP
  /-- PERST_N_FALL (R633). PERST_N falls and reset E takes steps 1 to 6 of Table 23.1. -/
  | perstNFall
  /-- PERST_N_RISE (R628). PERST_N rises and the device boots. -/
  | perstNRise (senior : Bool)
  /-- DEV_CTRL_SOFT (R631). A write of 1 to SOFT takes reset S and boots. -/
  | devCtrlSoft (who : Requester)
  /-- RESET_H (R629). Link down or hot reset holds rings and keeps channels. -/
  | resetH (linkDown : Bool)
  /-- RESET_F (R630). A function-level reset ends the function's threads and rings. -/
  | resetF (fn : Fin 64)
  /-- DEV_CTRL_ISL_GO (R632). Starts reset I of the island in DEV_CTRL.ISLAND, or refuses it. -/
  | devCtrlIslGo (who : Requester)
  /-- ISLAND_RESET_DONE (R638). The reset island is back in service and ISL_GO reads 0. -/
  | islandResetDone
  /-- BOOT_COMPLETE (R634). Boot completes, the device leaves BOOTING and ring service starts. -/
  | bootComplete
  /-- MC_TRAINING_DONE (R550). Training at reset P ends and memory is zeroed, or training fails. -/
  | mcTrainingDone (m : Fin 12) (ok perBank : Bool) (density : Fin 3)
  /-- DEV_CTRL_DORMANT_SET (R641). A write of 1 to DORMANT starts entry or is refused. -/
  | devCtrlDormantSet (who : Requester)
  /-- DORMANT_ENTERED (R641). Lanes idle, islands 0–23 off and memory in self-refresh: POWER reads DORMANT. -/
  | dormantEntered
  /-- DEV_CTRL_DORMANT_CLEAR (R643). A write of 0 to DORMANT starts leaving. -/
  | devCtrlDormantClear (who : Requester)
  /-- DORMANT_LEFT (R643). All islands reach 1.03 times their floor and POWER reads ACTIVE. -/
  | dormantLeft (epFail : BitVec 16) (dpFail : BitVec 4)
  /-- PWR_MON (R655). A main rail out of range for 10 µs raises PWR_MON. -/
  | pwrMon (out : Bool)
  /-- THERM_TRIP (R668). A sensor above 135 °C for 10 µs raises THERM_TRIP and drives THERM_TRIP_N low. -/
  | thermTrip
  /-- CLK_REF (R661). A reference clock absent over 1 µs or out of range raises CLK_REF. -/
  | clkRef (tb : Bool)
  /-- PWR_OK_RISE (R627). Release of PWR_OK and power-on reset ends reset P and starts boot. -/
  | pwrOkRise (senior : Bool)
  /-- PCIE_LINK_UP (R114). The PCIe link trains up again, ending the PCIE_LINK condition and letting a pending Summary Block request run. -/
  | pcieLinkUp (gen : Fin 7) (width : Fin 32) (flit : Bool)
  /-- D2D_LINK (R32). Loss of a die-to-die bridge raises D2D_LINK with its locked HALT class. -/
  | d2dLink
  /-- HUB_ECC (R572). An uncorrectable error in hub firmware memory raises HUB_ECC. -/
  | hubEcc
  /-- FLT_SELF (R573). The collector's continuous latch-parity check fails and raises FLT_SELF. -/
  | fltSelf
  /-- ATTEST_TIMEOUT (R604). TIMEOUT_MS passes without the whole quote written and the ATTEST completes TIMEOUT. -/
  | attestTimeout
  /-- SHAPER_COUNT_REACHES_ZERO (R436). A queue or class shaper's count rises from debt to 0, so a held packet becomes eligible. -/
  | shaperCountReachesZero (isClass : Bool) (idx : Fin 8192) (cls : Fin 8)
  /-- PRBS_CHECKER_LOCK (R498). The PRBS checker gains lock after 64 correct bits or loses it at 512 errors in 1,024 bits. -/
  | prbsCheckerLock (l : Fin 256) (rx : List Bool)
  /-- PACKET_DECLARED_LOST (R362). The senior declares a decoder-stream packet lost when neither half holds it SKEW_US after a later packet arrived. -/
  | packetDeclaredLost (st : Fin 16) (seq : Nat)
  /-- PARTNER_HALT_REPORT_RX (R378). The partner reports a latched HALT and the pair treats it as down and enters PARTITIONED. -/
  | partnerHaltReportRx (halt : Bool)
  /-- TWIN_QUOTE_REQUEST_RX (R599). A quote request from the twin partner arrives over the control class and joins the quote queue. -/
  | twinQuoteRequestRx (nonce : List Byte)
  /-- TWIN_QUOTE_RX (R602). A quote from the twin partner arrives over the control class and is written at RESULT_ADDR, completing the ATTEST. -/
  | twinQuoteRx (bytes : List Byte)
  /-- REFCLK_TB_RETURN (R661). REFCLK_TB returns, the time-base counter counts on, and CLK_REF falls. -/
  | refclkTbReturn
  /-- DEVICE_HIGH_TEMPERATURE (R538). A GDDR7 device reports high temperature, or ceases to, and tREFIpb and MCn_STATUS.HOT change. -/
  | deviceHighTemperature (m : Fin 12) (hot : Bool)
  /-- HUB_TIME_LAPSE (R615). No TIME message for 2 s makes the island's hub time invalid and changes its status word. -/
  | hubTimeLapse
  deriving DecidableEq, Repr

end Sys2Proof
end

