-- ==== Sys2Proof/Decode.lean ====
section
/-! DEFINITION. The command that a word spells. No row of spec/opcode_table.json gives bits, so no word spells a command by the table; the instructions of a Svetu
core have encodings of their own in chapter 4 (R142 to R146), which `decodeSvetu` reads. -/

namespace Sys2Proof

/-- The command of a word numbered by the table's bits: none, since the table gives no row any bits. -/
def decodeTableWord (_nbits _w : Nat) : Option Instr := none

/-! ## Fields of an instruction word (Table 4.3) -/

/-- Bits 31:26, the major opcode. -/
def svOp (w : BitVec 32) : Nat := w.toNat / 2 ^ 26

/-- The register fields: bits 25:21, 20:16 and 15:11. -/
def svA (w : BitVec 32) : Fin 32 := ⟨w.toNat / 2 ^ 21 % 32, Nat.mod_lt _ (by decide)⟩
def svB (w : BitVec 32) : Fin 32 := ⟨w.toNat / 2 ^ 16 % 32, Nat.mod_lt _ (by decide)⟩
def svC (w : BitVec 32) : Fin 32 := ⟨w.toNat / 2 ^ 11 % 32, Nat.mod_lt _ (by decide)⟩

/-- `n` bits of the word from bit `lo`. -/
def svBits (w : BitVec 32) (lo n : Nat) : BitVec n := BitVec.ofNat n (w.toNat / 2 ^ lo)

/-- The A-format operation of a func value (Table 4.4). -/
def decodeFunc (c : Fin 128) (w : BitVec 32) : Option Instr :=
  let rd := svA w
  let ra := svB w
  let rb := svC w
  match w.toNat % 2 ^ 11 with
  | 0x000 => some (.addR c rd ra rb)
  | 0x001 => some (.subR c rd ra rb)
  | 0x002 => some (.andR c rd ra rb)
  | 0x003 => some (.orR c rd ra rb)
  | 0x004 => some (.xorR c rd ra rb)
  | 0x005 => some (.sll c rd ra rb)
  | 0x006 => some (.srl c rd ra rb)
  | 0x007 => some (.sra c rd ra rb)
  | 0x008 => some (.slt c rd ra rb)
  | 0x009 => some (.sltu c rd ra rb)
  | 0x00A => some (.minS c rd ra rb)
  | 0x00B => some (.maxS c rd ra rb)
  | 0x00C => some (.minu c rd ra rb)
  | 0x00D => some (.maxu c rd ra rb)
  | 0x010 => some (.mulR c rd ra rb)
  | 0x011 => some (.mulhu c rd ra rb)
  | 0x018 => some (.divu c rd ra rb)
  | 0x019 => some (.remu c rd ra rb)
  | _ => none

/-- The command that an instruction word and the word behind it spell on a core (R142 to R146): none for an undefined major opcode or func (R144). Unused
bits, sub, selector and kind values go into the command, whose meaning judges them. -/
def decodeSvetu (c : Fin 128) (w ext : BitVec 32) : Option Instr :=
  let a := svA w
  let b := svB w
  let imm := svBits w 0 16
  let imm8 := svBits w 0 8
  match svOp w with
  | 0x00 => decodeFunc c w
  | 0x01 => some (.addi c a b imm)
  | 0x02 => some (.andi c a b imm)
  | 0x03 => some (.ori c a b imm)
  | 0x04 => some (.xori c a b imm)
  | 0x05 => some (.shi c a b imm)
  | 0x06 => some (.slti c a b imm)
  | 0x07 => some (.sltui c a b imm)
  | 0x08 => some (.ld c a b (svBits w 14 2) (svBits w 12 2) (svBits w 0 12))
  | 0x09 => some (.ldu c a b (svBits w 14 2) (svBits w 12 2) (svBits w 0 12))
  | 0x0A => some (.st c a b (svBits w 14 2) (svBits w 12 2) (svBits w 0 12))
  | 0x0B => some (.amo c a b (svC w) (svBits w 8 3) (w.getLsbD 7) (svBits w 0 7))
  | 0x10 => some (.beq c a b imm)
  | 0x11 => some (.bne c a b imm)
  | 0x12 => some (.blt c a b imm)
  | 0x13 => some (.bge c a b imm)
  | 0x14 => some (.bltu c a b imm)
  | 0x15 => some (.bgeu c a b imm)
  | 0x16 => some (.jal c a (svBits w 16 5) imm)
  | 0x17 => some (.jalr c a b imm)
  | 0x20 => some (.issue c a b (svBits w 8 8) imm8)
  | 0x21 => some (.wait c a b (svC w) (svBits w 8 3) imm8)
  | 0x22 => some (.post c a b (svC w) (svBits w 0 11))
  | 0x23 => some (.yieldCore c (svBits w 0 26))
  | 0x24 => some (.endThread c (svBits w 0 26))
  | 0x25 => some (.timeRd c a (svBits w 0 21))
  | 0x26 => some (.mfs c a (svBits w 8 13) imm8)
  | 0x27 => some (.mts c b (svBits w 21 5 ++ svBits w 8 8) imm8)
  | 0x28 => some (.mfence c (svBits w 8 18) imm8)
  | 0x29 => some (.win c a b (svBits w 0 16))
  | 0x2A => some (.trap c (svBits w 8 18) imm8)
  | 0x30 => some (.li c a (svBits w 0 21) ext)
  | 0x31 => some (.lih c a (svBits w 0 21) ext)
  | _ => none

end Sys2Proof
end

