-- ==== Sys2Proof/Machine/Bytes.lean ====
section
/-! DEFINITION. Little-endian byte strings, bit fields and byte memories (R3, R16). -/

namespace Sys2Proof.Machine

/-- The number that little-endian bytes spell (R16). -/
def leNat : List Byte → Nat
  | [] => 0
  | b :: bs => b.toNat + 256 * leNat bs

/-- The `n` low bytes of a number, least significant first. -/
def toLE : Nat → Nat → List Byte
  | 0, _ => []
  | n + 1, v => BitVec.ofNat 8 v :: toLE n (v / 256)

/-- `n` bytes of a structure from byte offset `off`, as a number; bytes past its end read 0. -/
def fieldLE (bs : List Byte) (off n : Nat) : Nat := leNat ((bs.drop off).take n)

/-- Byte `off` of a structure. -/
def byteAt (bs : List Byte) (off : Nat) : Nat := (bs.getD off 0).toNat

/-- A number read as `w`-bit two's complement. -/
def toSigned (w v : Nat) : Int := if v % 2 ^ w < 2 ^ (w - 1) then (v % 2 ^ w : Nat) else (v % 2 ^ w : Nat) - (2 ^ w : Nat)

/-- An integer as `w`-bit two's complement. -/
def ofSigned (w : Nat) (v : Int) : Nat := (v % (2 ^ w : Nat)).toNat

/-- All bytes of a range are 0. -/
def zeroBytes (bs : List Byte) (off n : Nat) : Bool := ((bs.drop off).take n).all (· == 0)

/-- The last `n` items of a list. -/
def lastN {α : Type} (n : Nat) (l : List α) : List α := l.drop (l.length - n)

/-- Byte strings XORed, the shorter padded with zeros. -/
def xorBytes : List Byte → List Byte → List Byte
  | a :: as, b :: bs => (a ^^^ b) :: xorBytes as bs
  | [], bs => bs
  | as, [] => as

/-- `n` zero bytes. -/
def zeros (n : Nat) : List Byte := List.replicate n 0

/-- A structure with `b` laid over it from byte `off`. -/
def overlay (bs : List Byte) (off : Nat) (b : List Byte) : List Byte :=
  bs.take off ++ b ++ bs.drop (off + b.length)

/-- Field value `v` of `w` bits at bit `lo` of a register. -/
def fld (lo w v : Nat) : Nat := (v % 2 ^ w) * 2 ^ lo

/-- Bits `lo` to `lo + w - 1` of a number. -/
def bits (v lo w : Nat) : Nat := v / 2 ^ lo % 2 ^ w

/-- Bit `i` of a number. -/
def bitN (v i : Nat) : Bool := v / 2 ^ i % 2 == 1

/-- A Boolean as a bit. -/
def b2n (b : Bool) : Nat := if b then 1 else 0

/-- The low and high registers of a 64-bit value. -/
def loW (v : Nat) : Word := BitVec.ofNat 32 v
def hiW (v : Nat) : Word := BitVec.ofNat 32 (v / 2 ^ 32)

/-- A value clamped to a range. -/
def clampN (lo hi v : Nat) : Nat := if v < lo then lo else if hi < v then hi else v

/-- A counter that stops at the largest value of its `w` bits. -/
def satAdd (w a b : Nat) : Nat := min (2 ^ w - 1) (a + b)

/-- Bytes `a` to `a + n - 1` of a byte memory in which an unlisted byte is 0. -/
def readBytes (m : Tab Byte) (a : Nat) : Nat → List Byte
  | 0 => []
  | n + 1 => m.get 0 a :: readBytes m (a + 1) n

/-- A byte memory after bytes are written from address `a` up. -/
def writeBytes (m : Tab Byte) (a : Nat) : List Byte → Tab Byte
  | [] => m
  | b :: bs => writeBytes (m.put 0 a b) (a + 1) bs

end Sys2Proof.Machine
end

