-- ==== Sys2Proof/Machine/Crc.lean ====
section
/-! DEFINITION. Cyclic redundancy checks of any width up to 64 bits (R207, R557). -/

namespace Sys2Proof.Machine

/-- One input bit of a CRC with register `v` of `w` bits and polynomial `poly`, most significant bit first. -/
def crcBit (w poly v : Nat) (b : Bool) : Nat :=
  let top := bitN v (w - 1) != b
  let sh := v * 2 % 2 ^ w
  if top then sh ^^^ poly else sh

/-- The bits of a byte in the order they enter: least significant first when the input is reflected. -/
def byteBits (refl : Bool) (b : Byte) : List Bool :=
  (List.range 8).map fun i => b.getLsbD (if refl then i else 7 - i)

/-- The register after more bytes. -/
def crcFeed (w poly : Nat) (refIn : Bool) (v : Nat) (bs : List Byte) : Nat :=
  bs.foldl (fun r b => (byteBits refIn b).foldl (crcBit w poly) r) v

/-- The `w` bits of a number in reverse order. -/
def reflectBits (w v : Nat) : Nat := (List.range w).foldl (fun r i => r * 2 + b2n (bitN v i)) 0

/-- The result of a register: reflected if asked, then XORed. -/
def crcResult (w : Nat) (refOut : Bool) (xorOut v : Nat) : Nat := (if refOut then reflectBits w v else v) ^^^ xorOut

/-- The CRC-64 of R207. -/
def crc64 (bs : List Byte) : BitVec 64 :=
  BitVec.ofNat 64 (crcResult 64 true (2 ^ 64 - 1) (crcFeed 64 0x42F0E1EBA9EA3693 true (2 ^ 64 - 1) bs))

end Sys2Proof.Machine
end

