-- ==== Sys2Proof/Config.lean ====
section
/-! DEFINITION. What the spec leaves to each device or does not state: opaque constants that no proof can evaluate. -/

namespace Sys2Proof.Config

/-- FREE VALUE: the n-th value that the spec leaves undefined or does not state. UNVERIFIED by design: log entry 12. -/
opaque freeValue : Nat → Nat

/-- Depth of a unit's input queue (R155), for every unit but BLIT, which has 64 (R252). The spec gives no depth: log entry 4. -/
opaque unitQueueDepth : Nat → Nat

/-- Floor cadence fused for island n (R52): the spec gives no number, log entry 8. -/
opaque cadFloor : Nat → Nat

/-- SHAKE256 with an output of n bytes (R589, R592, R597, R616): FIPS 202, named and not defined by the spec, log entry 7. -/
opaque shake256 : List Byte → Nat → List Byte

/-- An SLH-DSA signature (FIPS 205) of a message by the key derived from a 96-byte seed (R600, R618): log entry 7. -/
opaque slhSign : List Byte → List Byte → List Byte

/-- The public key of that key pair (R597, R598): log entry 7. -/
opaque slhPublic : List Byte → List Byte

/-- The key-hash fuses of a key index, and its revoke fuse (R589): log entry 7. -/
opaque keyHash : Nat → List Byte
opaque keyRevoked : Nat → Bool

/-- The fused device secret of R597 and the Praline die's secret of R625: log entry 7. -/
opaque deviceSecret : List Byte
opaque pralineSecret : List Byte

/-- The Praline mask ROM, whose hash is the firmware identity (R625): log entry 7. -/
opaque maskRom : List Byte

/-- The firmware identity in the genesis record, written at manufacture (Table 22.3): log entry 7. -/
opaque genesisIdent : List Byte

/-- Coefficient t of phase p of the built-in set for a tap count, S3.12 (R232): the spec does not give the sets, log entry 16. -/
opaque builtinCoef : Nat → Nat → Nat → Int

/-- FREE VALUE: what device memory holds at an address after its contents became undefined for the n-th time (R661): log entry 12. -/
opaque lostByte : Nat → Nat → BitVec 8

/-- FREE VALUE: byte i of the bytes drawn under number n, of an item whose content the spec leaves to the coder's decisions (R277): log entry 17. -/
opaque codedByte : Nat → Nat → Nat

/-- What a coder's state or an item of a stream is determined by, as a number: a free function of a kind and of all that the item may depend on (R277, R323, R328);
two items of the same number are the same: log entry 17. -/
opaque coderState : Nat → List Nat → Nat

/-- FREE VALUE: a size that the spec leaves to the coder, by the item's number and an index (R310, R319, R321): log entry 17. -/
opaque coderSize : Nat → Nat → Nat

/-- The MAC address of port p (R398), which the spec does not give: log entry 26. -/
opaque portMac : Nat → Nat

/-- Header fields whose value neither the spec nor the descriptors state (R403, R408, R411): log entry 26. -/
opaque headerField : Nat → Nat

/-- The PCI vendor ID of Octerat Microsystems (R83): the spec gives no number, log entry 14. -/
opaque vendorId : Nat

end Sys2Proof.Config
end

