-- ==== Sys2Proof/Machine/Dev.lean ====
section
/-! DEFINITION. The block itself: every register, table, queue, memory and pin the spec gives it, but for the queue of waiting commands. -/

namespace Sys2Proof.Machine

/-- Everything the device holds. Tables are keyed by the object's number; `loc` by core x 0x4_0000 + local address; `win` by function x 8 + window;
`scene` by cluster x 16 + scene; `layer` as Table 3.3; `mc` by controller; `chk` 0-7 engines, 8-55 snoop channels; `spillErr` and `locErr` list the 64-bit
words with a double-bit error (R136, R183); `mem` device memory, as what it differs by from the contents that `memEra` names (R661: how often they became undefined; 0 is memory of zeros);
`poison` the poisoned atoms (R547); `tmIn` the packets handed
over to the egress queues, with their queue; `out` what the device has driven out; `freeCtr` is the model's own counter
of free values. -/
structure Dev where
  ctl      : DevCtl := {}
  tb       : TimeBase := {}
  flt      : Flt := {}
  hub      : Hub := {}
  rings    : Tab Ring := []
  dsp      : Dsp := {}
  thr      : Tab Thread := []
  loc      : Tab Byte := []
  locErr   : List Nat := []
  spillErr : List (Nat × Nat) := []
  win      : Tab Window := []
  unitQ    : Tab (List Desc) := []
  pend     : List Pend := []
  fab      : Fab := {}
  cap      : Tab Cap := []
  capSel   : Nat := 0
  scene    : Tab Scene := []
  layer    : Tab Layer := []
  cluster  : Tab Cluster := []
  blit     : Tab Blit := []
  chan     : Tab Chan := []
  pipe     : Tab Pipe := []
  dec      : Tab Dec := []
  decPipe  : Tab DecPipe := []
  decSel   : Nat := 0
  twin     : Twin := {}
  flow     : Tab Flow := []
  pkgSel   : Nat := 0
  tmIn     : List (Nat × Packet) := []
  queue    : Tab Queue := []
  port     : Tab TmPort := []
  pol      : Tab Policer := []
  portSel  : Nat := 0
  qSel     : Nat := 0
  polSel   : Nat := 0
  group    : Tab Group := []
  lane     : Tab Lane := []
  casc     : Casc := {}
  mc       : Tab Mc := []
  chk      : Tab Chk := []
  chkMode  : Nat := 0
  chkSel   : Nat := 0
  trust    : Trust := {}
  prl      : Prl := {}
  mem      : List Host.Cell := []
  memEra   : Nat := 0
  poison   : List Nat := []
  out      : List OutEv := []
  waiting  : List OutEv := []
  absent   : List (Nat × NetAddr) := []
  freeCtr  : Nat := 0
  deriving DecidableEq, Repr

end Sys2Proof.Machine
end

