-- ==== Sys2Proof/Machine/State.lean ====
section
/-! DEFINITION. The state: the block and the commands that wait for it, first in, first out. -/

namespace Sys2Proof.Machine

/-- The machine. -/
structure State where
  pending : List Instr
  dev     : Dev
  deriving DecidableEq, Repr

/-- Why a step stops with a fault. -/
inductive Fault where
  /-- An operand list of a command that has not the length the command's row needs (CADENCE_WINDOW and CADENCE_CONTROL_CYCLE: one item for each of
  the 32 cadence islands). Raised by those two meanings. Safe: no hardware event has such an operand. -/
  | malformedOperand
  deriving DecidableEq, Repr

/-- Why a step answers no meaning. -/
inductive Refusal where
  /-- No meaning yet for the command of that mnemonic. Raised by the arms of exec that say so. Safe. -/
  | notModelled (mnemonic : String)
  deriving DecidableEq, Repr

/-- The default classes of Table 20.1, source 0 first. -/
def defaultClasses : List Nat :=
  [3, 3, 2, 1, 0, 1, 2, 2, 2, 2, 2, 3, 2, 2, 2, 2] ++ [2, 2, 2, 2, 2, 2, 2, 2, 0, 0, 1, 0, 1, 0, 2, 2] ++
  [0, 0, 2, 1, 1, 1, 0, 1, 0, 1, 0, 1, 1, 1, 1, 1] ++ [3, 3, 1, 1, 3, 3, 2, 3, 0, 0, 0, 0, 0, 0, 0, 3]

/-- Two-bit fields packed, the first lowest. -/
def packClasses : List Nat → Nat
  | [] => 0
  | c :: cs => c + 4 * packClasses cs

/-- The fault collector at reset P: every view and reaction 0 (R582), classes at their defaults (Table 20.5). -/
def Flt.reset : Flt := { cls := BitVec.ofNat 128 (packClasses defaultClasses) }

/-- Window 0 of function 0 covers the installed memory (R132), 36 GiB for a density of 24 Gb (R528, log entry 10); every other window has length 0. -/
def resetWindow : Window := { base := 0, len := 38654705664, r := true, w := true }

/-- The device in reset P. Every field is at the reset value of its register table; the values that the spec does not give are those of
log entries 2, 9, 10, 11, 12, 13, 14 and 15. -/
def Dev.reset : Dev := { flt := Flt.reset, win := [(0, resetWindow)] }

/-- The machine right after reset: reset P in force, no command waiting. -/
def State.reset : State := { pending := [], dev := Dev.reset }

end Sys2Proof.Machine
end

