-- ==== Sys2Proof/Machine/Access.lean ====
section
/-! DEFINITION. Reading and replacing one object of a table of the device, by its number. An object that a table does not list is at its
default, which is its reset state. -/

namespace Sys2Proof.Machine

/-- The answer of a meaning: the machine goes on with the device changed and the queue of commands untouched. -/
def ok (s : State) (d : Dev) : Host.Outcome State Fault Refusal := .next { s with dev := d }

/-- The entry of table `rings` with number `k`; the same with another value; the same changed by `f`. -/
def Dev.ring (d : Dev) (k : Nat) : Ring := d.rings.get ({} : Ring) k
def Dev.putRing (d : Dev) (k : Nat) (x : Ring) : Dev := { d with rings := d.rings.put ({} : Ring) k x }
def Dev.modRing (d : Dev) (k : Nat) (f : Ring → Ring) : Dev := d.putRing k (f (d.ring k))

/-- The entry of table `thr` with number `k`; the same with another value; the same changed by `f`. -/
def Dev.thread (d : Dev) (k : Nat) : Thread := d.thr.get ({} : Thread) k
def Dev.putThread (d : Dev) (k : Nat) (x : Thread) : Dev := { d with thr := d.thr.put ({} : Thread) k x }
def Dev.modThread (d : Dev) (k : Nat) (f : Thread → Thread) : Dev := d.putThread k (f (d.thread k))

/-- The entry of table `win` with number `k`; the same with another value; the same changed by `f`. -/
def Dev.window (d : Dev) (k : Nat) : Window := d.win.get ({} : Window) k
def Dev.putWindow (d : Dev) (k : Nat) (x : Window) : Dev := { d with win := d.win.put ({} : Window) k x }
def Dev.modWindow (d : Dev) (k : Nat) (f : Window → Window) : Dev := d.putWindow k (f (d.window k))

/-- The entry of table `cap` with number `k`; the same with another value; the same changed by `f`. -/
def Dev.capIn (d : Dev) (k : Nat) : Cap := d.cap.get ({} : Cap) k
def Dev.putCapIn (d : Dev) (k : Nat) (x : Cap) : Dev := { d with cap := d.cap.put ({} : Cap) k x }
def Dev.modCapIn (d : Dev) (k : Nat) (f : Cap → Cap) : Dev := d.putCapIn k (f (d.capIn k))

/-- The entry of table `scene` with number `k`; the same with another value; the same changed by `f`. -/
def Dev.sceneAt (d : Dev) (k : Nat) : Scene := d.scene.get ({} : Scene) k
def Dev.putSceneAt (d : Dev) (k : Nat) (x : Scene) : Dev := { d with scene := d.scene.put ({} : Scene) k x }
def Dev.modSceneAt (d : Dev) (k : Nat) (f : Scene → Scene) : Dev := d.putSceneAt k (f (d.sceneAt k))

/-- The entry of table `layer` with number `k`; the same with another value; the same changed by `f`. -/
def Dev.layerAt (d : Dev) (k : Nat) : Layer := d.layer.get ({} : Layer) k
def Dev.putLayerAt (d : Dev) (k : Nat) (x : Layer) : Dev := { d with layer := d.layer.put ({} : Layer) k x }
def Dev.modLayerAt (d : Dev) (k : Nat) (f : Layer → Layer) : Dev := d.putLayerAt k (f (d.layerAt k))

/-- The entry of table `cluster` with number `k`; the same with another value; the same changed by `f`. -/
def Dev.clusterAt (d : Dev) (k : Nat) : Cluster := d.cluster.get ({} : Cluster) k
def Dev.putClusterAt (d : Dev) (k : Nat) (x : Cluster) : Dev := { d with cluster := d.cluster.put ({} : Cluster) k x }
def Dev.modClusterAt (d : Dev) (k : Nat) (f : Cluster → Cluster) : Dev := d.putClusterAt k (f (d.clusterAt k))

/-- The entry of table `blit` with number `k`; the same with another value; the same changed by `f`. -/
def Dev.engine (d : Dev) (k : Nat) : Blit := d.blit.get ({} : Blit) k
def Dev.putEngine (d : Dev) (k : Nat) (x : Blit) : Dev := { d with blit := d.blit.put ({} : Blit) k x }
def Dev.modEngine (d : Dev) (k : Nat) (f : Blit → Blit) : Dev := d.putEngine k (f (d.engine k))

/-- The entry of table `chan` with number `k`; the same with another value; the same changed by `f`. -/
def Dev.channel (d : Dev) (k : Nat) : Chan := d.chan.get ({} : Chan) k
def Dev.putChannel (d : Dev) (k : Nat) (x : Chan) : Dev := { d with chan := d.chan.put ({} : Chan) k x }
def Dev.modChannel (d : Dev) (k : Nat) (f : Chan → Chan) : Dev := d.putChannel k (f (d.channel k))

/-- The entry of table `pipe` with number `k`; the same with another value; the same changed by `f`. -/
def Dev.pipeAt (d : Dev) (k : Nat) : Pipe := d.pipe.get ({} : Pipe) k
def Dev.putPipeAt (d : Dev) (k : Nat) (x : Pipe) : Dev := { d with pipe := d.pipe.put ({} : Pipe) k x }
def Dev.modPipeAt (d : Dev) (k : Nat) (f : Pipe → Pipe) : Dev := d.putPipeAt k (f (d.pipeAt k))

/-- The entry of table `dec` with number `k`; the same with another value; the same changed by `f`. -/
def Dev.stream (d : Dev) (k : Nat) : Dec := d.dec.get ({} : Dec) k
def Dev.putStream (d : Dev) (k : Nat) (x : Dec) : Dev := { d with dec := d.dec.put ({} : Dec) k x }
def Dev.modStream (d : Dev) (k : Nat) (f : Dec → Dec) : Dev := d.putStream k (f (d.stream k))

/-- The entry of table `decPipe` with number `k`; the same with another value; the same changed by `f`. -/
def Dev.decPipeAt (d : Dev) (k : Nat) : DecPipe := d.decPipe.get ({} : DecPipe) k
def Dev.putDecPipeAt (d : Dev) (k : Nat) (x : DecPipe) : Dev := { d with decPipe := d.decPipe.put ({} : DecPipe) k x }
def Dev.modDecPipeAt (d : Dev) (k : Nat) (f : DecPipe → DecPipe) : Dev := d.putDecPipeAt k (f (d.decPipeAt k))

/-- The entry of table `flow` with number `k`; the same with another value; the same changed by `f`. -/
def Dev.flowAt (d : Dev) (k : Nat) : Flow := d.flow.get ({} : Flow) k
def Dev.putFlowAt (d : Dev) (k : Nat) (x : Flow) : Dev := { d with flow := d.flow.put ({} : Flow) k x }
def Dev.modFlowAt (d : Dev) (k : Nat) (f : Flow → Flow) : Dev := d.putFlowAt k (f (d.flowAt k))

/-- The entry of table `queue` with number `k`; the same with another value; the same changed by `f`. -/
def Dev.queueAt (d : Dev) (k : Nat) : Queue := d.queue.get ({} : Queue) k
def Dev.putQueueAt (d : Dev) (k : Nat) (x : Queue) : Dev := { d with queue := d.queue.put ({} : Queue) k x }
def Dev.modQueueAt (d : Dev) (k : Nat) (f : Queue → Queue) : Dev := d.putQueueAt k (f (d.queueAt k))

/-- The entry of table `port` with number `k`; the same with another value; the same changed by `f`. -/
def Dev.portAt (d : Dev) (k : Nat) : TmPort := d.port.get ({} : TmPort) k
def Dev.putPortAt (d : Dev) (k : Nat) (x : TmPort) : Dev := { d with port := d.port.put ({} : TmPort) k x }
def Dev.modPortAt (d : Dev) (k : Nat) (f : TmPort → TmPort) : Dev := d.putPortAt k (f (d.portAt k))

/-- The entry of table `pol` with number `k`; the same with another value; the same changed by `f`. -/
def Dev.policer (d : Dev) (k : Nat) : Policer := d.pol.get ({} : Policer) k
def Dev.putPolicer (d : Dev) (k : Nat) (x : Policer) : Dev := { d with pol := d.pol.put ({} : Policer) k x }
def Dev.modPolicer (d : Dev) (k : Nat) (f : Policer → Policer) : Dev := d.putPolicer k (f (d.policer k))

/-- The entry of table `group` with number `k`; the same with another value; the same changed by `f`. -/
def Dev.groupAt (d : Dev) (k : Nat) : Group := d.group.get ({} : Group) k
def Dev.putGroupAt (d : Dev) (k : Nat) (x : Group) : Dev := { d with group := d.group.put ({} : Group) k x }
def Dev.modGroupAt (d : Dev) (k : Nat) (f : Group → Group) : Dev := d.putGroupAt k (f (d.groupAt k))

/-- The entry of table `lane` with number `k`; the same with another value; the same changed by `f`. -/
def Dev.laneAt (d : Dev) (k : Nat) : Lane := d.lane.get ({} : Lane) k
def Dev.putLaneAt (d : Dev) (k : Nat) (x : Lane) : Dev := { d with lane := d.lane.put ({} : Lane) k x }
def Dev.modLaneAt (d : Dev) (k : Nat) (f : Lane → Lane) : Dev := d.putLaneAt k (f (d.laneAt k))

/-- The entry of table `mc` with number `k`; the same with another value; the same changed by `f`. -/
def Dev.mcAt (d : Dev) (k : Nat) : Mc := d.mc.get ({} : Mc) k
def Dev.putMcAt (d : Dev) (k : Nat) (x : Mc) : Dev := { d with mc := d.mc.put ({} : Mc) k x }
def Dev.modMcAt (d : Dev) (k : Nat) (f : Mc → Mc) : Dev := d.putMcAt k (f (d.mcAt k))

/-- The entry of table `chk` with number `k`; the same with another value; the same changed by `f`. -/
def Dev.check (d : Dev) (k : Nat) : Chk := d.chk.get ({} : Chk) k
def Dev.putCheck (d : Dev) (k : Nat) (x : Chk) : Dev := { d with chk := d.chk.put ({} : Chk) k x }
def Dev.modCheck (d : Dev) (k : Nat) (f : Chk → Chk) : Dev := d.putCheck k (f (d.check k))

/-- The entry of table `unitQ` with number `k`; the same with another value; the same changed by `f`. -/
def Dev.unitQueue (d : Dev) (k : Nat) : List Desc := d.unitQ.get ([] : List Desc) k
def Dev.putUnitQueue (d : Dev) (k : Nat) (x : List Desc) : Dev := { d with unitQ := d.unitQ.put ([] : List Desc) k x }
def Dev.modUnitQueue (d : Dev) (k : Nat) (f : List Desc → List Desc) : Dev := d.putUnitQueue k (f (d.unitQueue k))

end Sys2Proof.Machine
end

