-- ==== Sys2Proof/Machine/Ops.lean ====
section
/-! DEFINITION. Shared operations: time, output, device memory and windows, faults, posts, ring completions, and the completion of a descriptor. -/

namespace Sys2Proof.Machine

/-! ## Time -/

/-- Uptime in ns: three ticks make one nanosecond (Table 0.3). Intervals that the spec bounds in time units are measured by it too, at 3,000 ticks a
microsecond (R51); moments of media time follow the counter (R462, log entry 18). -/
def Dev.upNs (d : Dev) : Nat := d.ctl.ticks / 3

/-- The counter in ns. -/
def Dev.nowNs (d : Dev) : Nat := d.tb.sec * 1000000000 + d.tb.ns

/-- Media time, the counter in ns modulo 2^64 (R453). -/
def Dev.media (d : Dev) : Nat := d.nowNs % 2 ^ 64

/-- The whole counter in units of 2^-32 ns (R452). -/
def TimeBase.total (t : TimeBase) : Nat := (t.sec * 1000000000 + t.ns) * 2 ^ 32 + t.frac

/-- The cadence clock in ns (R462, R463): the counter less its lag. -/
def Dev.cadence (d : Dev) : Nat := (((d.tb.total : Int) - d.tb.lag) / 4294967296).toNat

/-- Grid point k of a rate (R193). -/
def gridPoint (num den k : Nat) : Nat := k * den * 1000000000 / num

/-- The largest k whose grid point is at or below a time. -/
def gridIndex (num den t : Nat) : Nat :=
  let k := t * num / (den * 1000000000)
  if gridPoint num den (k + 1) ≤ t then k + 1 else k

/-- The grid point nearest to a time; a midway value takes the earlier point (R193). -/
def gridNearest (num den t : Nat) : Nat :=
  let k := gridIndex num den t
  let a := gridPoint num den k
  let b := gridPoint num den (k + 1)
  if t - a ≤ b - t then a else b

/-- The first k whose grid point is at or after a time. -/
def gridAtOrAfter (num den t : Nat) : Nat :=
  let k := gridIndex num den t
  if gridPoint num den k = t then k else k + 1

/-- The rates of R194. -/
def ratePermitted (num den : Nat) : Bool :=
  den != 0 && (([24, 25, 30, 50, 60, 100, 120].any fun r => num == r * den) ||
    ([24, 30, 60, 120].any fun r => num * 1001 == r * 1000 * den))

/-! ## Requesters -/

/-- The PF makes the access (R121), or the PF or firmware (R646). -/
def isPf (w : Requester) : Bool := w == .pf
def isFw (w : Requester) : Bool := w == .firmware
def isPfOrFw (w : Requester) : Bool := w == .pf || w == .firmware

/-! ## Output -/

/-- The device drives something out. -/
def Dev.emit (d : Dev) (e : OutEv) : Dev := if e.link = 0 then { d with out := d.out ++ [e] } else { d with waiting := d.waiting ++ [e] }

/-- A frame from an address is dropped before any other unit sees it (R434). The row of what it carries follows within the tick (log entry 61). -/
def Dev.dropFrame (d : Dev) (a : NetAddr) : Dev := { d with absent := (d.absent.filter fun e => e.1 == d.ctl.ticks) ++ [(d.ctl.ticks, a)] }

/-- What a received frame does, unless a frame of its kind has been dropped in this tick: then it is that one. -/
def Dev.unlessDropped (d : Dev) (sel : NetAddr → Bool) (f : Dev → Dev) : Dev :=
  match d.absent.find? fun e => e.1 == d.ctl.ticks && sel e.2 with
  | some e => { d with absent := d.absent.erase e }
  | none => f d

/-- The message that a link serves next: of those that wait for it the first of the most urgent class (R386, R508). -/
def Dev.nextOn (d : Dev) (link : Nat) : Option OutEv :=
  (d.waiting.filter fun e => e.link == link).foldl (fun b e => match b with | some x => if e.urgency < x.urgency then some e else b | none => some e) none

/-- A link sends one of the messages that wait for it; one that has started is not interrupted (R508). -/
def Dev.serveLink (d : Dev) (link : Nat) : Dev :=
  match d.nextOn link with
  | some e => { d with waiting := d.waiting.erase e, out := d.out ++ [e] }
  | none => d

/-- The twin link serves what waits for it; with no lane in service, that is lost (R378). -/
def Dev.serveTwin (d : Dev) : Dev := if d.twin.lanesUp.isEmpty then { d with waiting := d.waiting.filter fun e => e.link != 3 } else d.serveLink 3

/-- An MSI-X vector of a function is raised (R104): sent when its table entry is unmasked, else left pending (R651). Nothing reaches a host while the
link is down. -/
def Dev.raiseVector (d : Dev) (fn vec : Nat) : Dev :=
  if !d.hub.linkUp then d
  else if (d.hub.msix.get 1 (fn * 128 + vec * 4 + 3)).getLsbD 0 then
    { d with hub := { d.hub with pba := d.hub.pba.put 0 fn (d.hub.pba.get 0 fn ||| (1#32 <<< vec)) } }
  else d.emit (.msix fn vec)

/-! ## Device memory -/

/-- The installed capacity C of R528, from the density of MC0. -/
def Dev.capacity (d : Dev) : Nat := 12 * (2 + (d.mcAt 0).density) * 2 ^ 30

/-- What an address reads as that nothing has written: 0 since R550's zeroing, or a free value once the contents became undefined (R661). -/
def baseByte (era a : Nat) : Byte := if era = 0 then 0 else Config.lostByte era a

/-- Bytes between their own form and that of the memory, which lists differences from the base. -/
def rebase (era a : Nat) (bs : List Byte) : List Byte := if era = 0 then bs else bs.zipIdx.map fun e => e.1 ^^^ Config.lostByte era (a + e.2)

/-- One byte of device memory. -/
def Dev.memByte (d : Dev) (a : Nat) : Byte := Tab.get 0 d.mem a ^^^ baseByte d.memEra a

/-- Bytes of device memory. -/
def Dev.memRead (d : Dev) (a n : Nat) : List Byte := rebase d.memEra a (readBytes d.mem a n)

/-- The cells of device memory after bytes are put at an address. -/
def Dev.memPut (d : Dev) (a : Nat) (bs : List Byte) : List Host.Cell := writeBytes d.mem a (rebase d.memEra a bs)

/-- The poison of an atom ends only when a write covers the whole atom (R547). -/
def clearPoison (p : List Nat) (a n : Nat) : List Nat := p.filter fun atom => !(a ≤ atom * 64 && atom * 64 + 64 ≤ a + n)

/-- Device memory after bytes are written; addresses at or above the capacity hold no memory (R131). -/
def Dev.memWrite (d : Dev) (a : Nat) (bs : List Byte) : Dev :=
  if a + bs.length ≤ d.capacity then
    { d with mem := d.memPut a bs, poison := clearPoison d.poison a bs.length }
  else d

/-- An atom of the range is poisoned. -/
def Dev.poisoned (d : Dev) (a n : Nat) : Bool := d.poison.any fun p => p * 64 < a + n && a < p * 64 + 64

/-- The end of the run of bytes from `pos` that windows of a function cover with a permission, in at most `fuel` windows. -/
def coverEnd (ws : List Window) (ok : Window → Bool) : Nat → Nat → Nat
  | 0, pos => pos
  | n + 1, pos =>
    let e := ws.foldl (fun m w => if ok w && w.base ≤ pos && pos < w.base + w.len then max m (w.base + w.len) else m) pos
    if e = pos then pos else coverEnd ws ok n e

/-- The eight windows of a function (R132). -/
def Dev.windows (d : Dev) (fn : Nat) : List Window := (List.range 8).map fun i => d.window (fn * 8 + i)

/-- First byte of the spill area and its size (R184). -/
def Dev.spillBase (d : Dev) : Nat := d.dsp.spillLo.toNat + d.dsp.spillHi.toNat * 2 ^ 32
def spillRecord : Nat := 69632
def spillSize : Nat := 4096 * spillRecord

/-- Every byte of a range lies in windows of the function with the permissions asked, and none in the spill area (R130, R132, R184). -/
def Dev.granted (d : Dev) (fn a n : Nat) (r w : Bool) : Bool :=
  (!r || a + n ≤ coverEnd (d.windows fn) (·.r) 9 a) && (!w || a + n ≤ coverEnd (d.windows fn) (·.w) 9 a) &&
    (a + n ≤ d.spillBase || d.spillBase + spillSize ≤ a)

/-! ## Faults (chapter 20) -/

/-- The class of a source (Table 20.5). -/
def Flt.classOf (f : Flt) (i : Nat) : Nat := bits f.cls.toNat (2 * i) 2

/-- A HALT reaction is latched. -/
def Dev.halted (d : Dev) : Bool := d.flt.latched.any (·.2 == 4)

/-- The reaction level of R576. -/
def Dev.reaction (d : Dev) : Nat := d.flt.latched.foldl (fun m p => max m (p.2 - 1)) 0

/-- The reaction of a source is in force at class 2 or above (R574: containment). -/
def Dev.contains (d : Dev) (i : Nat) : Bool := 3 ≤ d.flt.latched.get 0 i

/-- Packets that are sent or dropped leave their flows' packet buffers (R422). -/
def Dev.freePkts (d : Dev) (ps : List Packet) : Dev :=
  ps.foldl (fun e p => e.modFlowAt p.flow fun f => { f with buffered := f.buffered - p.frame }) d

/-- Every queued packet of an egress queue is discarded and counted (R423, R575). -/
def Dev.discardQueues (d : Dev) (sel : Queue → Bool) : Dev :=
  let gone := (d.queue.filter fun e => sel e.2).flatMap fun e => e.2.pkts
  { d with queue := d.queue.mapAll ({} : Queue) fun _ q => if sel q then { q with drops := satAdd 32 q.drops q.pkts.length, pkts := [] } else q }.freePkts gone

/-- The device state of the Summary Block (Table 3.14). -/
def Dev.state (d : Dev) : Nat :=
  if d.ctl.bootFailed then 4 else if d.ctl.booting then 0 else if d.halted then 3 else if d.ctl.power = 2 then 2 else 1

/-- An incoming hop is open (R516). -/
def RingSide.openHop (r : RingSide) : Bool := r.brk || r.limit

/-- The incoming lane is ACTIVE and has not lost lock. -/
def RingSide.lane (r : RingSide) : Bool := r.stage == .active && !r.lost

/-- Fields of the CONFIGURE descriptor (Table 17.3). -/
def Casc.get (c : Casc) (off n : Nat) : Nat := fieldLE c.cfg off n
def Casc.addr (c : Casc) : Nat := c.get 0x20 2

/-- A ring's outgoing hop is wrapped: the device beyond it has said that it is open, or that device's hop to this one, on the other ring, is (R517). -/
def Casc.wraps (c : Casc) (ringB : Bool) : Bool := if ringB then c.b.noticed || c.a.openHop else c.a.noticed || c.b.openHop

/-- A frame leaves on a ring, or on the other one where that ring is wrapped; a closed bypass carries none of this device (R512, R517). -/
def Dev.cascPut (d : Dev) (ringB : Bool) (fr : CascFrame) : Dev :=
  if d.casc.closed then d
  else if !d.casc.wraps ringB then d.emit (.casc ringB fr)
  else if !d.casc.wraps (!ringB) then d.emit (.casc (!ringB) fr)
  else d

/-- A frame of this device, with the status words, counter and states that classes 2 and 1 carry (R508). -/
def Dev.ownFrame (d : Dev) (cls : Nat) (dest : Option Nat) (seq : Nat) (role : CascRole) (payload : List Byte) : CascFrame :=
  { src := d.casc.addr, dest := dest, cls := cls, seq := seq, ack := false, role := role, status := d.flt.status, live := d.flt.live, dev := d.state, servo := d.tb.servo
    time := d.media, payload := payload }

/-- A fault broadcast on both rings (R510). -/
def Dev.broadcast (d : Dev) : Dev :=
  let fr := d.ownFrame 2 none 0 .data []
  (d.cascPut false fr).cascPut true fr

/-- The conditions of Table 17.2 as the CAUSE bits. -/
def Dev.bypassCause (d : Dev) : Nat :=
  fld 0 1 (b2n (!d.ctl.perstN)) + fld 1 1 (b2n d.halted) + fld 2 1 (b2n d.casc.force) +
    fld 3 1 (b2n (d.casc.cfg.isEmpty || d.ctl.booting))

/-- A measurement slot (R592): 64 bytes, 0 until it is extended. -/
def Dev.meas (d : Dev) (s : Nat) : List Byte :=
  let b := d.trust.meas.get [] s
  if b.isEmpty then zeros 64 else b

/-- This device's hello goes to its neighbour on each ring (R504, R507). -/
def Dev.sendHello (d : Dev) : Dev :=
  let h : CascHello := ⟨d.casc.addr, d.trust.bootCount, d.meas 0⟩
  (d.emit (.cascHello false h)).emit (.cascHello true h)

/-- What waits for no ring. -/
def Dev.offRings (d : Dev) : List OutEv := d.waiting.filter fun e => e.link != 1 && e.link != 2

/-- The switches follow the conditions (R512, R513): a closed bypass has no hops of its own; opening starts bring-up of the cascade lanes, and until these are ACTIVE both
hops are open, which counts twice (R516). What still waits for a ring as the bypass closes does not leave. -/
def Dev.updateBypass (d : Dev) : Dev :=
  let close := d.bypassCause != 0 || !d.ctl.pwrOk
  let fresh (r : RingSide) : RingSide :=
    { r with stage := if close then .unbound else .detect, since := d.ctl.ticks, retryAt := none, lost := false, relock := none, brk := !close, limit := false, noticed := false }
  if close == d.casc.closed then d
  else
    let d1 := { d with casc := { d.casc with closed := close, a := fresh d.casc.a, b := fresh d.casc.b, breaks := if close then d.casc.breaks else satAdd 16 d.casc.breaks 2 },
                       flt := { d.flt with live := d.flt.live &&& ~~~((if d.casc.dup then 0#64 else 1#64 <<< 45) ||| (1#64 <<< 46)) } }
    if close then { d1 with waiting := d.offRings } else (d1.emit (.notice "CASC_BREAK" 0 d.casc.a.upstream 0)).emit (.notice "CASC_BREAK" 1 d.casc.b.upstream 0)

/-- The HALT actions of R575: queues discard, the bypass closes after the broadcast, which comes first on each ring (R513); ALIVE stops and the device state reads HALTED by what `halted` says.
The partner is told. -/
def Dev.haltActions (d : Dev) : Dev :=
  let d := (((d.discardQueues fun _ => true).serveLink 1).serveLink 2).updateBypass
  if d.twin.st = .paired then d.emit (.twin 11 0 d.media [1]) else d

/-- The lines that have no reaction in force yet: the ones that latch now (R576, R582). -/
def Dev.fresh (d : Dev) (srcs : BitVec 64) : List Nat :=
  (List.range 64).filter fun i => srcs.getLsbD i && d.flt.latched.get 0 i == 0

/-- Lines rise in one latch cycle (R572, R576, R578, R579): sticky bits are set, each latches its class, one vector 1 message and one broadcast are raised
between them when any class is 1 or higher, and the HALT actions follow a class 3. -/
def Dev.latch (d : Dev) (srcs : BitVec 64) : Dev :=
  let new := d.fresh srcs
  if new = [] then d
  else
    let top := new.foldl (fun m i => max m (d.flt.classOf i)) 0
    let was := d.halted
    let d1 := { d with flt := { d.flt with
      status := d.flt.status ||| srcs,
      latched := new.foldl (fun t i => t.put 0 i (d.flt.classOf i + 1)) d.flt.latched } }
    let d2 := if top = 0 then d1 else (d1.raiseVector 0 1).broadcast
    if top = 3 && !was then d2.haltActions else d2

/-- One event source drives its line for one latch cycle (R571). -/
def Dev.raise (d : Dev) (i : Nat) : Dev := d.latch (1#64 <<< i)

/-- A condition source's line goes to a level (R571): a rise latches. -/
def Dev.setLine (d : Dev) (i : Nat) (b : Bool) : Dev :=
  if b then
    if d.flt.live.getLsbD i then d
    else { d with flt := { d.flt with live := d.flt.live ||| (1#64 <<< i) } }.raise i
  else { d with flt := { d.flt with live := d.flt.live &&& ~~~(1#64 <<< i) } }

/-! ## Threads and posts (chapter 5) -/

/-- A post reaches a thread in these states (R172). -/
def Thread.live (t : Thread) : Bool :=
  match t.st with
  | .ready | .running | .waiting | .held => true
  | .free | .draining => false

/-- The thread that executes on a core, if one does. -/
def Dev.running (d : Dev) (c : Nat) : Option Nat :=
  (d.thr.map (·.1)).find? fun t => (d.thread t).st == .running && (d.thread t).core == some c

/-- A core is busy while a thread runs on it or is held on a device access there (R182). -/
def Dev.coreBusy (d : Dev) (c : Nat) : Bool := d.thr.any fun p => p.2.core == some c

/-- A core is in a thread's affinity set (R169, R44). -/
def Thread.allows (t : Thread) (c : Nat) : Bool :=
  if t.tileB then 64 ≤ c && c < 128 && t.affinity.getLsbD (c - 64) else c < 64 && t.affinity.getLsbD c

/-- The cores of a thread's set, in order. -/
def Thread.cores (t : Thread) : List Nat := (List.range 128).filter t.allows

/-- The first byte of a thread's segment in the table of local memories: its slot (R129), or the firmware region. -/
def Thread.segBase (t : Thread) : Nat :=
  if t.firmware then t.home * 262144 else t.home * 262144 + (t.slot.getD 0 + 1) * 65536

/-- A byte memory with range [b, b+n) replaced by what range [a, a+n) of another holds. -/
def moveRange (src dst : Tab Byte) (a b n : Nat) : Tab Byte :=
  (src.filter fun p => a ≤ p.1 && p.1 < a + n).foldl (fun m p => m.put 0 (p.1 - a + b) p.2)
    (dst.filter fun p => !(b ≤ p.1 && p.1 < b + n))

/-- Write a general register; g0 discards (Table 4.1). -/
def Thread.setG (t : Thread) (r : Nat) (v : DWord) : Thread :=
  if r = 0 then t else { t with g := t.g.put 0 r v }

/-- Read a general register; g0 reads 0 (Table 4.1). -/
def Thread.gpr (t : Thread) (r : Nat) : DWord := if r = 0 then 0 else t.g.get 0 r

/-- The registers of a thread (Table 4.1) as its record holds them behind the segment (R183): g0 to g31, `pc`, and WT and CAS. DESIGN CHOICE: the spec gives no layout
(log entry 29). -/
def Thread.image (x : Thread) : List Byte :=
  (List.range 32).flatMap (fun r => toLE 8 (x.g.get 0 r).toNat) ++ toLE 8 x.pc.toNat ++ toLE 8 (b2n x.wt + 2 * b2n x.cas)

/-- A thread with the registers that 272 bytes of a record hold; bits 1:0 of `pc` are 0. -/
def Thread.fromImage (x : Thread) (b : List Byte) : Thread :=
  (List.range 32).foldl (fun y r => y.setG r (BitVec.ofNat 64 (fieldLE b (8 * r) 8)))
    { x with pc := BitVec.ofNat 64 (fieldLE b 256 8 / 4 * 4), wt := bitN (fieldLE b 264 8) 0, cas := bitN (fieldLE b 264 8) 1 }

/-- Where a thread's record holds its registers. -/
def Dev.regsAt (d : Dev) (t : Nat) : Nat := d.spillBase + t * spillRecord + 65536

/-- A thread's registers are written to its record in the spill area. -/
def Dev.spillRegs (d : Dev) (t : Nat) : Dev :=
  { d with mem := d.memPut (d.regsAt t) (d.thread t).image, poison := clearPoison d.poison (d.regsAt t) 272 }

/-- The thread stands in the spill area (R183): a program that has not ended and holds no slot. -/
def Thread.spilled (x : Thread) : Bool := !x.firmware && x.slot.isNone && x.live

/-- A thread with its registers: those of its record while it is spilled (R183, R185). -/
def Dev.withRegs (d : Dev) (t : Nat) : Thread := if (d.thread t).spilled then (d.thread t).fromImage (d.memRead (d.regsAt t) 272) else d.thread t

/-- A thread's registers change, wherever they stand. -/
def Dev.modRegs (d : Dev) (t : Nat) (f : Thread → Thread) : Dev :=
  let d1 := d.putThread t (f (d.withRegs t))
  if (d.thread t).spilled then d1.spillRegs t else d1

/-- Spill a resident thread (R183): its registers and its segment go to its record, double-bit errors with it; the slot keeps its contents. -/
def Dev.spill (d0 : Dev) (t : Nat) : Dev :=
  let d := d0.spillRegs t
  let x := d.thread t
  let base := x.segBase
  let recd := d.spillBase + t * spillRecord
  let errs := (d.locErr.filter fun w => base ≤ w * 8 && w * 8 < base + 65536).map fun w => (t, w - base / 8)
  ({ d with mem := if d.memEra = 0 then moveRange d.loc d.mem base recd 65536 else d.memPut recd (readBytes d.loc base 65536), poison := clearPoison d.poison recd 65536,
            spillErr := (d.spillErr.filter fun e : Nat × Nat => e.1 != t) ++ errs }).putThread t { x with slot := none }

/-- The order in which residents are chosen to make room (R183): WAITING, HELD, READY; then lowest priority; then resident longest. -/
def spillRank (t : Thread) : Nat :=
  (match t.st with | .waiting => 0 | .held => 1 | _ => 2) * 2 ^ 80 + (63 - t.prio) * 2 ^ 70 + t.resAge

/-- Threads resident on a core. -/
def Dev.residents (d : Dev) (c : Nat) : List Nat :=
  (d.thr.map (·.1)).filter fun t => (d.thread t).home == c && (d.thread t).slot.isSome && !(d.thread t).firmware

/-- A free segment slot of a core. -/
def Dev.freeSlot (d : Dev) (c : Nat) : Option Nat :=
  (List.range 3).find? fun k => !(d.residents c).any fun t => (d.thread t).slot == some k

/-- Restore a spilled thread from its record into a slot of a core (R185). -/
def Dev.restore (d : Dev) (t c k : Nat) : Dev :=
  let x := { d.withRegs t with home := c, slot := some k, resAge := d.dsp.age }
  let base := x.segBase
  let recd := d.spillBase + t * spillRecord
  let errs := (d.spillErr.filter fun e => e.1 == t).map fun e => e.2 + base / 8
  ({ d with loc := if d.memEra = 0 then moveRange d.mem d.loc recd base 65536 else writeBytes d.loc base (d.memRead recd 65536), spillErr := d.spillErr.filter (fun e => e.1 != t),
            locErr := d.locErr.filter (fun w => !(base ≤ w * 8 && w * 8 < base + 65536)) ++ errs,
            dsp := { d.dsp with age := d.dsp.age + 1 } }).putThread t x

/-- A core with no free slot spills one of its residents that does not run (R183). -/
def Dev.makeRoom (d : Dev) (c : Nat) : Dev :=
  match d.freeSlot c with
  | some _ => d
  | none =>
    match firstBest (fun a b => decide (spillRank (d.thread a) ≤ spillRank (d.thread b))) ((d.residents c).filter fun u => (d.thread u).st != ThState.running) with
    | some v => d.spill v
    | none => d

/-- The thread takes a free slot of the core, if there is one. -/
def Dev.takeSlot (d : Dev) (t c : Nat) : Dev :=
  match d.freeSlot c with
  | some k => d.restore t c k
  | none => d

/-- Make the thread resident on the core (R183, R185): a thread that holds a slot there stays; another is spilled from where it is, room is made, and it is
restored. A firmware-mode thread runs in the firmware region. -/
def Dev.makeResident (d : Dev) (t c : Nat) : Dev :=
  let x := d.thread t
  if x.firmware then d.putThread t { x with home := c }
  else if x.slot.isSome && x.home == c then d
  else ((if x.slot.isSome then d.spill t else d).makeRoom c).takeSlot t c

/-- The thread runs on the core from now. -/
def Dev.runOn (d : Dev) (t c : Nat) : Dev :=
  (d.makeResident t c).modThread t fun x => { x with st := .running, core := some c, home := c, runStart := d.ctl.ticks }

/-- The thread becomes READY at the tail of its priority's order. -/
def Dev.toTail (d : Dev) (t : Nat) : Dev :=
  { d with dsp := { d.dsp with tail := d.dsp.tail + 1 } }.modThread t fun x =>
    { x with st := .ready, core := none, hold := .nothing, ready := d.dsp.tail + 1 }

/-- The thread becomes READY at the head of its priority's order (R180). -/
def Dev.toHead (d : Dev) (t : Nat) : Dev :=
  { d with dsp := { d.dsp with head := d.dsp.head - 1 } }.modThread t fun x =>
    { x with st := .ready, core := none, hold := .nothing, ready := d.dsp.head - 1 }

/-- The core that a thread which has just become READY takes by preemption (R180): none while a core of its set is idle; else the core of the set that runs
the thread of lowest priority, if strictly lower, the lowest-numbered of several. -/
def Dev.victim (d : Dev) (t : Nat) : Option (Nat × Nat) :=
  let x := d.thread t
  if x.cores.any fun c => !d.coreBusy c then none
  else x.cores.foldl (fun best c =>
    match d.running c with
    | none => best
    | some v =>
      if x.prio < (d.thread v).prio then
        match best with
        | none => some (c, v)
        | some (_, u) => if (d.thread u).prio < (d.thread v).prio then some (c, v) else best
      else best) none

/-- A READY thread preempts, and so may the thread that it preempts, which is READY now, on another core of its own set (R180); each is of lower priority than
the one before it, so 64 rounds are enough. -/
def Dev.preempt : Nat → Dev → Nat → Dev
  | 0, d, _ => d
  | n + 1, d, t =>
    match d.victim t with
    | some (c, v) => Dev.preempt n ((d.toHead v).runOn t c) v
    | none => d

/-- A thread becomes READY (R174, R180). -/
def Dev.makeReady (d : Dev) (t : Nat) : Dev := Dev.preempt 64 (d.toTail t) t

/-- The wait condition of R148. -/
def Thread.satisfied (t : Thread) : Bool :=
  if t.waitAll then t.flags &&& t.mask == t.mask else t.flags &&& t.mask != 0

/-- A WAITING thread whose condition holds takes its flags and becomes READY (R148, R173, R174). -/
def Dev.wake (d : Dev) (t : Nat) : Dev :=
  let x := d.thread t
  if x.st = .waiting && x.satisfied then
    (d.modRegs t fun y => { y with flags := x.flags &&& ~~~x.mask, wt := false, deadline := none }.setG x.waitRd ((x.flags &&& x.mask).setWidth 64)).makeReady t
  else d

/-- Post on the merge path (R175): ORed into the pending word, never held. -/
def Dev.mergePost (d : Dev) (t : Nat) (mask : Word) : Dev :=
  if (d.thread t).live then d.modThread t fun x => { x with pending := x.pending ||| mask } else d

/-- The post queue of a core. -/
def Dev.postQueue (d : Dev) (c : Nat) : List (Nat × Word) := d.dsp.postQ.get [] c
def Dev.putPostQueue (d : Dev) (c : Nat) (q : List (Nat × Word)) : Dev :=
  { d with dsp := { d.dsp with postQ := d.dsp.postQ.put [] c q } }

/-- The target of a held post is still the thread that the post was made to. -/
def Dev.heldLive (d : Dev) (h : HeldPost) : Bool := (d.thread h.target).live && (d.thread h.target).inc == h.inc

/-- The core whose queue a held post waits for: the home core of its target (R176), or, once that thread has ended, the core where it was held. -/
def Dev.heldCore (d : Dev) (h : HeldPost) : Nat := if d.heldLive h then (d.thread h.target).home else h.core

/-- No earlier post of the same poster is held before it: a unit's completion path goes in order (R178). -/
def Dsp.leads (s : Dsp) (h : HeldPost) : Bool := (s.heldPosts.find? fun g => g.poster == h.poster) == some h

/-- A held post waits for an entry of this core's queue. -/
def Dev.queueWaited (d : Dev) (c : Nat) : Bool := d.dsp.heldPosts.any fun h => d.heldCore h == c && d.dsp.leads h

/-- The target has an entry in its home core's queue, or the queue has room that no held post waits for (R177, R178). -/
def Dev.postRoom (d : Dev) (t : Nat) : Bool :=
  let q := d.postQueue (d.thread t).home
  q.any (·.1 == t) || (q.length < 64 && !d.queueWaited (d.thread t).home)

/-- The poster of a post that finds no room is held (R178). -/
def Dev.holdPost (d : Dev) (p : Poster) (t : Nat) (mask : Word) : Dev :=
  { d with dsp := { d.dsp with heldPosts := d.dsp.heldPosts ++
    [{ poster := p, target := t, inc := (d.thread t).inc, core := (d.thread t).home, mask := mask, since := d.ctl.ticks }] } }

/-- Put a post into the queue of the target's home core (R177). -/
def Dev.enqueuePost (d : Dev) (t : Nat) (mask : Word) : Dev :=
  let c := (d.thread t).home
  let q := d.postQueue c
  d.putPostQueue c (if q.any (·.1 == t) then q.map fun e => if e.1 == t then (t, e.2 ||| mask) else e else q ++ [(t, mask)])

/-- A unit posts through the post queues (R176, R178): a full queue holds the unit's completion path, in order. DESIGN CHOICE (log entry 51): a unit whose path is held
completes its later descriptors all the same, status words included, and only their posts wait. -/
def Dev.unitPost (d : Dev) (unit t : Nat) (mask : Word) : Dev :=
  if !(d.thread t).live then d
  else if d.postRoom t && !d.dsp.heldPosts.any (·.poster == .unit unit) then d.enqueuePost t mask
  else d.holdPost (.unit unit) t mask

/-- Units whose completion posts take the merge path (R175): CAPTURE, MF, ENC, DEC. -/
def mergeUnit (u : Nat) : Bool := u == 1 || u == 2 || u == 4 || u == 5

/-- A unit's post by the path its unit has. -/
def Dev.postBy (d : Dev) (unit t : Nat) (mask : Word) : Dev :=
  if mergeUnit unit then d.mergePost t mask else d.unitPost unit t mask

/-- The bit of a flag number; a number above 31 names no flag. -/
def flagMask (n : Nat) : Word := if n < 32 then 1#32 <<< n else 0

/-! ## Ring completions (chapter 3) -/

/-- Log2 of a ring's entries, clamped to 4-12 (Table 3.10). -/
def clampLog (k : Nat) : Nat := clampN 4 12 k

/-- A completion entry's 32 bytes (Table 3.5, R102). -/
def Comp.bytes (c : Comp) (i m : Nat) : List Byte :=
  toLE 1 c.status ++ toLE 1 c.kind ++ toLE 2 c.thread ++ toLE 4 c.tag ++ toLE 4 c.sq ++ toLE 2 ((i / 2 ^ m + 1) % 2) ++ toLE 2 0 ++
    toLE 8 c.value ++ toLE 8 c.uptime

/-- The completion ring has room (R103). -/
def Ring.room (r : Ring) : Bool := (r.cqTail - r.cqHead).toNat < 2 ^ clampLog r.cqLog

/-- The device writes completions of a ring that is enabled and ACTIVE or in ERROR (R94, R103, R108). -/
def Ring.delivers (r : Ring) : Bool := r.enable && (r.st == .active || r.st == .error)

/-- Write one completion entry and raise vector 2 as R105 has it. -/
def Dev.writeComp (d : Dev) (fn : Nat) (c : Comp) : Dev :=
  let r := d.ring fn
  let m := clampLog r.cqLog
  let i := r.cqTail.toNat
  let base := r.cqBaseLo.toNat + r.cqBaseHi.toNat * 2 ^ 32
  let d1 := d.emit (.host (base + i % 2 ^ m * 32) (c.bytes i m))
  let r1 := { r with cqTail := r.cqTail + 1 }
  if r1.v2pending || r1.v2due.isSome then d1.putRing fn r1
  else if r1.coalesce = 0 then (d1.putRing fn { r1 with v2pending := true }).raiseVector fn 2
  else d1.putRing fn { r1 with v2due := some (d.ctl.ticks + r1.coalesce * 3000) }

/-! ## The header of a descriptor (chapter 4) -/

/-- Fields of the common header (Table 4.7). -/
def Desc.get (d : Desc) (off n : Nat) : Nat := fieldLE d.bytes off n
def Desc.unit (d : Desc) : Nat := d.get 0 1
def Desc.op (d : Desc) : Nat := d.get 1 1
def Desc.eff (d : Desc) : Nat := d.get 8 8
def Desc.strict (d : Desc) : Bool := bitN (d.get 4 2) 1
def Desc.notifyErr (d : Desc) : Bool := bitN (d.get 4 2) 2
def Desc.notify (d : Desc) : Nat := d.get 0x10 2
def Desc.flag (d : Desc) : Nat := d.get 0x12 1
def Desc.user (d : Desc) : Nat := d.get 0x14 4
def Desc.statusAddr (d : Desc) : Nat := d.get 0x18 8

/-- A descriptor fewer names this thread as notify thread; a DRAINING thread with none is free (R153, R170). -/
def Dev.unname (d : Dev) (x : Desc) : Dev :=
  if x.notify = 0xFFFF then d
  else
    let t := d.thread x.notify
    if t.st = .draining && t.outst ≤ 1 then d.putThread x.notify {}
    else d.putThread x.notify { t with outst := t.outst - 1 }

/-- A descriptor more names its notify thread: one that a unit's queue holds, or that its thread is held with (R153). -/
def Dev.nameNotify (d : Dev) (x : Desc) : Dev := if x.notify = 0xFFFF then d else d.modThread x.notify fun t => { t with outst := t.outst + 1 }

/-- A thread that ends in ISSUE never issues its descriptor. -/
def Dev.dropIssue (d : Dev) (t : Nat) : Dev :=
  match (d.thread t).st, (d.thread t).hold with
  | .held, .issue _ y => d.unname y
  | _, _ => d

/-- The thread leaves for FREE, or for DRAINING while descriptors name it as notify thread (R170, Table 5.1). -/
def Dev.freeThread (d : Dev) (t : Nat) : Dev :=
  let x := d.thread t
  d.putThread t (if x.outst = 0 then {} else { st := .draining, fn := x.fn, firmware := x.firmware, prio := x.prio, tileB := x.tileB, affinity := x.affinity,
                                               outst := x.outst, home := x.home })

/-- The thread of a delivered or stored entry is released. -/
def Dev.releaseRetired (d : Dev) : Option Nat → Dev
  | some t => d.freeThread t
  | none => d

/-- Deliver or store what waits, oldest first: to the completion ring while it has room, to the store of 4,096 entries while the ring is not served
(R103, R108, R110). DESIGN CHOICE (log entry 50): the store of R110 stands in `Ring.held`, at no device address, since the spec gives it none. -/
def Dev.pump (fn : Nat) : Nat → Dev → Dev
  | 0, d => d
  | n + 1, d =>
    let r := d.ring fn
    if r.delivers then
      if !r.room then d
      else match r.held, r.retq with
        | c :: cs, _ => Dev.pump fn n ((d.putRing fn { r with held := cs }).writeComp fn c)
        | [], (c, t) :: cs => Dev.pump fn n (((d.putRing fn { r with retq := cs }).writeComp fn c).releaseRetired t)
        | [], [] => d
    else match r.retq with
      | (c, t) :: cs =>
        if r.held.length < 4096 then Dev.pump fn n ((d.putRing fn { r with retq := cs, held := r.held ++ [c] }).releaseRetired t) else d
      | [] => d

/-- Pump everything that waits. -/
def Dev.pumpAll (d : Dev) (fn : Nat) : Dev :=
  Dev.pump fn ((d.ring fn).held.length + (d.ring fn).retq.length) d

/-- An entry retires (R101): it joins the ring's retirements, with the thread that it holds until there is room. -/
def Dev.retire (d : Dev) (fn : Nat) (c : Comp) (t : Option Nat) : Dev :=
  (d.modRing fn fun r => { r with retq := r.retq ++ [(c, t)] }).pumpAll fn

/-- A thread ends (R101, R103, R170): its core is free, its entry retires with a status and value; a thread of no entry is freed at once. Its pending word is
cleared. DESIGN CHOICE (log entry 51): an entry that a post queue holds for it stays there, and the fold discards it, unless a later program has taken the number. -/
def Dev.endThread (d0 : Dev) (t status value : Nat) : Dev :=
  let d := d0.dropIssue t
  let x := d.thread t
  let d1 := d.putThread t { x with st := .held, hold := .retire, core := none, deadline := none, pending := 0, slot := none }
  match x.origin with
  | some (fn, tag, sq) => d1.retire fn ⟨status, 1, t, tag, sq, value, d.upNs⟩ (some t)
  | none => d1.freeThread t

/-! ## Descriptors (chapter 4) -/

/-- Completion status codes (Table 4.10). -/
def stOK := 0x00
def stLate := 0x01
def stCapacity := 0x02
def stTwinSplit := 0x03
def stBadDesc := 0x04
def stNotOwner := 0x05
def stBusy := 0x06
def stReduced := 0x07
def stGeometry := 0x08
def stFormat := 0x09
def stTimeout := 0x0A
def stAborted := 0x0B
def stUnsupported := 0x0C
def stSealed := 0x0D
def stInternal := 0x0F

/-- The 16 bytes of a status word (Table 4.9). -/
def statusWord (d : Desc) (status mt : Nat) : List Byte :=
  toLE 1 status ++ toLE 1 d.unit ++ toLE 1 d.op ++ toLE 1 1 ++ toLE 4 d.user ++ toLE 8 mt

/-- A descriptor fewer is outstanding for the thread that issued it and for the one it names (R139, R153, R170). -/
def Dev.settle (d : Dev) (x : Desc) : Dev :=
  (d.modThread x.tid fun t => if t.inc = x.inc then { t with issued := t.issued - 1 } else t).unname x

/-- The completion path of a descriptor (R178, R263): its unit, or its blit engine, numbered from 64; the issue router's, 512, for a unit that does not exist (R157). -/
def Desc.path (x : Desc) : Nat := if x.unit = 3 then 64 + x.get 0x20 1 else if 1 ≤ x.unit && x.unit ≤ 16 then x.unit else 512

/-- A unit completes a descriptor (R158, R159): the status word, then the notify post, unless NOTIFY_ERR holds it back. A command the device raised itself has
no bytes and writes nothing (R296, R382). -/
def Dev.complete (d : Dev) (x : Desc) (status mt : Nat) : Dev :=
  if x.bytes.isEmpty then d
  else
    let d1 := if x.statusAddr = 0 then d else d.memWrite x.statusAddr (statusWord x status mt)
    let d2 := if x.notify = 0xFFFF || (x.notifyErr && (status == stOK || status == stLate)) then d1
      else d1.postBy x.path x.notify (flagMask x.flag)
    d2.settle x

/-- Slot s is extended with 64 bytes (R592), and SLOT_DONE says so. -/
def Dev.extend (d : Dev) (s : Nat) (v : List Byte) : Dev :=
  { d with trust := { d.trust with meas := d.trust.meas.put [] s (Config.shake256 (d.meas s ++ v) 64), slotDone := d.trust.slotDone ||| 2 ^ s } }

/-! ## The pairing record (chapter 12) -/

/-- This half's pairing record goes to the partner (R355). -/
def Dev.sendPairing (d : Dev) : Dev :=
  d.emit (.twin 12 0 0 ([0xB0#8] ++ toLE 1 (b2n d.ctl.senior) ++ d.meas 0 ++ d.meas 1 ++ d.meas 2 ++ toLE 4 d.trust.bootCount ++ toLE 2 (fieldLE d.casc.cfg 0x20 2)))

/-- A half that is LINKING or PARTITIONED attempts to pair (R356, R357): not while it is REJECTED, latches a HALT, or its island is in reset. -/
def Dev.offerPairing (d : Dev) : Dev :=
  if (d.twin.st == .linking || d.twin.st == .partitioned) && !d.halted && d.ctl.islBusy != some 30 then d.sendPairing else d

/-- A free value of the model (log entry 12). -/
def Dev.freeVal (d : Dev) : Nat := Config.freeValue d.freeCtr
def Dev.nextFree (d : Dev) : Dev := { d with freeCtr := d.freeCtr + 1 }

end Sys2Proof.Machine
end

