-- ==== Sys2Proof/Machine/Descr.lean ====
section
/-! DEFINITION. What happens to a descriptor in a unit: its queue, the checks of R157, pending descriptors (R161 to R165) and the matching of a
twin pair's commands (R366 to R369). -/

namespace Sys2Proof.Machine

/-- A range of device memory that a descriptor body names, with the permissions that the operation needs (R157). -/
structure MemRef where
  addr : Nat
  len  : Nat
  r    : Bool := false
  w    : Bool := false
  deriving DecidableEq, Repr

/-- An area that a body names unless its address is 0. -/
def optArea (addr len : Nat) (r w : Bool) : List MemRef := if addr = 0 then [] else [⟨addr, len, r, w⟩]

/-- What R157 needs to know of one operation's descriptor: its length, the reserved body bytes, whether EFFECTIVE_TIME must be 0, the object
indexes with their limits, the owned objects named (kind, index), whether only the PF owns what it names, its memory, and, for a
bitstream-changing operation on a twinned object (R365), the number of the object. -/
structure OpSpec where
  len  : Nat := 0x40
  rsv  : List (Nat × Nat) := []
  eff0 : Bool := false
  idx  : List (Nat × Nat) := []
  own  : List (Nat × Nat) := []
  pf   : Bool := false
  mem  : List MemRef := []
  obj  : Nat := 0
  twin : Bool := false
  deriving DecidableEq, Repr

/-- The operations of each unit of Table 4.8, from the unit's own table of operations (R157 step 1). -/
def unitOps : Nat → Nat
  | 1 => 4 | 2 => 5 | 3 => 3 | 4 => 7 | 5 => 3 | 6 => 3 | 7 => 6 | 8 => 2 | 9 => 5 | 10 => 2 | 11 => 3 | 12 => 4 | 13 => 3 | 14 => 4 | 15 => 1
  | 16 => 3 | _ => 0

/-- The unit is one of Table 4.8. -/
def Desc.known (x : Desc) : Bool := unitOps x.unit != 0

/-- The operation is one of the unit's. -/
def Desc.opKnown (x : Desc) : Bool := 1 ≤ x.op && x.op ≤ unitOps x.unit

/-- The owner of an object (R88, Table 3.3); an object that no owner was set for belongs to the PF. -/
def Dev.ownerOf (d : Dev) (kind index : Nat) : Nat := d.hub.owner.get 0 (kind * 8192 + index)

/-- The device addresses of the range, its first one in any case, lie below the installed capacity (R131). -/
def Dev.exists_ (d : Dev) (m : MemRef) : Bool := m.addr + max 1 m.len ≤ d.capacity

/-- Step 2 of R157. -/
def Dev.badForm (d : Dev) (x : Desc) (sp : OpSpec) : Bool :=
  x.bytes.length != sp.len || !zeroBytes x.bytes 6 2 || !zeroBytes x.bytes 0x13 1 || sp.rsv.any (fun r => !zeroBytes x.bytes r.1 r.2) ||
    x.flag > 31 || x.get 4 2 / 8 != 0 || (sp.eff0 && x.eff != 0) || sp.idx.any (fun i => i.2 ≤ i.1) || sp.mem.any (fun m => !d.exists_ m)

/-- Step 3 of R157: ownership (R91) and the windows (R132). A firmware thread is not confined (R124). -/
def Dev.notOwner (d : Dev) (x : Desc) (sp : OpSpec) : Bool :=
  !x.fw && (sp.own.any (fun o => d.ownerOf o.1 o.2 != x.fn) || (sp.pf && x.fn != 0) ||
    sp.mem.any fun m => !d.granted x.fn m.addr (max 1 m.len) m.r m.w)

/-- A second descriptor with the key of one that is still pending in the matching of R366. -/
def Dev.twinDup (d : Dev) (x : Desc) (obj : Nat) : Bool :=
  d.pend.any fun p => p.twin != .none && p.unit == x.unit && p.op == x.op && p.d.user == x.user && p.obj == obj

/-- The twin checks of R366 step 5 and R367. -/
def Dev.twinCheck (d : Dev) (x : Desc) (obj : Nat) : Option Nat :=
  if x.eff != 0 then none
  else if d.twin.st = .partitioned then some stTwinSplit
  else if d.twin.st = .paired && d.twinDup x obj then some stBusy
  else none

/-- The checks of R157 up to its step 3, and the twin checks that follow them; the failing status, if any. -/
def Dev.check157 (d : Dev) (x : Desc) (sp : OpSpec) : Option Nat :=
  if d.badForm x sp then some stBadDesc
  else if d.notOwner x sp then some stNotOwner
  else if sp.twin then d.twinCheck x sp.obj
  else none

/-- A unit completes with UNSUPPORTED what stands at the head of its queue and names none of its operations (R157 step 1). -/
def Dev.skipUnknown (u : Nat) : Nat → Dev → Dev
  | 0, d => d
  | n + 1, d =>
    match d.unitQueue u with
    | x :: rest => if x.opKnown then d else Dev.skipUnknown u n ((d.putUnitQueue u rest).complete x stUnsupported 0)
    | [] => d

/-- A unit before it takes a descriptor: none of an operation that it does not have stands at the head of its queue. -/
def Dev.unitHead (d : Dev) (u : Nat) : Dev := Dev.skipUnknown u (d.unitQueue u).length d

/-- The descriptors that ISSUE has put into a unit's input queue and the unit has not yet taken (R155). -/
def Dev.takeHead (d : Dev) (u op : Nat) : Option (Desc × Dev) :=
  match d.unitQueue u with
  | x :: rest => if x.op = op then some (x, d.putUnitQueue u rest) else none
  | [] => none

/-- A unit takes the descriptor at the head of its queue, when it names this operation, and checks it; `run` is the operation's own part. -/
def Dev.runUnit (d0 : Dev) (u op : Nat) (sp : Dev → Desc → OpSpec) (run : Dev → Desc → Dev) : Dev :=
  let d := d0.unitHead u
  match d.takeHead u op with
  | none => d
  | some (x, d1) =>
    match d1.check157 x (sp d1 x) with
    | some st => d1.complete x st 0
    | none => run d1 x

/-- The first check that fails decides the status. -/
def firstFail : List (Bool × Nat) → Option Nat
  | [] => none
  | (b, st) :: r => if b then some st else firstFail r

/-- Run an operation's own checks, completing with the first status that fails. -/
def Dev.checked (d : Dev) (x : Desc) (cs : List (Bool × Nat)) (k : Dev) : Dev :=
  match firstFail cs with
  | some st => d.complete x st 0
  | none => k

/-- The device is entering or in DORMANT (R642). -/
def Dev.dozing (d : Dev) : Bool := d.ctl.power == 1 || d.ctl.power == 2

/-- Lead points of R366. -/
def Dev.leadPoints (d : Dev) : Nat := byteAt d.twin.cfg 0x26

/-- The object of a proposal or notice: unit, operation, object, USER and media time as sent to the partner. -/
def proposalBytes (unit op obj user : Nat) : List Byte := toLE 1 unit ++ toLE 1 op ++ toLE 2 obj ++ toLE 4 user

/-- A proposal of a command that the partner raised itself (R371, R382): operation 8 or 9 of ENC, which Table 9.4 does not have. -/
def Proposal.internal (q : Proposal) : Bool := q.unit == 4 && (q.op == 8 || q.op == 9)

/-- The partner's proposal of a key, while its MATCH_US has not run out. -/
def Dev.proposalFor (d : Dev) (unit op obj user : Nat) : Option Proposal :=
  d.twin.proposals.find? fun q => q.unit == unit && q.op == op && q.obj == obj && q.user == user && (q.internal || d.ctl.ticks ≤ q.since + fieldLE d.twin.cfg 0x24 2 * 3000)

/-- A media time has passed when the last eligible point that the unit has released is at or after it (R37). -/
def passedBy (last : Option Nat) (t : Nat) : Bool := match last with | some m => decide (t ≤ m) | none => false

/-- A checked descriptor is held pending for its eligible point (R161, R162, R366). `passed` says which media times have passed; `ahead n` is the point n
after the next; `twinned` says that R366 applies. -/
def Dev.holdPend (d : Dev) (x : Desc) (obj : Nat) (passed : Nat → Bool) (ahead : Nat → Nat) (twinned : Bool) : Dev :=
  let p : Pend := { d := x, unit := x.unit, op := x.op, obj := obj, t := x.eff, since := d.ctl.ticks }
  if x.eff != 0 then
    let late := passed x.eff
    if late && x.strict then d.complete x stTimeout 0
    else { d with pend := d.pend ++ [{ p with late := late }] }
  else if twinned && d.twin.st = .paired then
    let own := ahead d.leadPoints
    let d1 := d.emit (.twin 1 obj own (proposalBytes x.unit x.op obj x.user))
    match d.proposalFor x.unit x.op obj x.user with
    | some q =>
      let a := max own q.mt
      { d1 with pend := d1.pend ++ [{ p with twin := .agreed a, late := passed a }],
                twin := { d1.twin with proposals := d1.twin.proposals.erase q } }
    | none => { d1 with pend := d1.pend ++ [{ p with twin := .waiting own }] }
  else { d with pend := d.pend ++ [p] }

/-- A pending descriptor takes effect at an eligible point of media time `m`; one whose time had passed, at the next (R162, R366). -/
def Pend.due (p : Pend) (m : Nat) : Bool :=
  match p.twin with
  | .none => p.t ≤ m || p.late
  | .waiting _ => false
  | .agreed a => a ≤ m || p.late

/-- The status of a descriptor that takes effect (R162, R366). -/
def Pend.status (p : Pend) : Nat := if p.late then stLate else stOK

/-- The pending descriptors that a unit applies at one point, in the order it accepted them (R163). -/
def Dev.dueAt (d : Dev) (unit op obj m : Nat) : List Pend :=
  d.pend.filter fun p => p.unit == unit && p.op == op && p.obj == obj && p.due m

/-- Take those descriptors out of the pending list. -/
def Dev.dropDue (d : Dev) (unit op obj m : Nat) : Dev :=
  { d with pend := d.pend.filter fun p => !(p.unit == unit && p.op == op && p.obj == obj && p.due m) }

/-- Apply each due descriptor with `f`, then complete it with the point's media time. -/
def Dev.applyDue (d : Dev) (unit op obj m : Nat) (f : Dev → Pend → Dev) : Dev :=
  (d.dueAt unit op obj m).foldl (fun e p => (f e p).complete p.d p.status m) (d.dropDue unit op obj m)

/-- The pending descriptors of an object complete ABORTED and take no effect (R164). -/
def Dev.abortPend (d : Dev) (sel : Pend → Bool) : Dev :=
  (d.pend.filter sel).foldl (fun e p => e.complete p.d stAborted 0) { d with pend := d.pend.filter fun p => !sel p }

/-- Object k is a snoop object on a tap (R562). -/
def Dev.onTap (d : Dev) (kind tap k : Nat) (c : Chk) : Bool :=
  !c.cfg.isEmpty && (8 ≤ k || bitN d.chkMode k) && fieldLE c.cfg 0x26 1 == kind && fieldLE c.cfg 0x40 2 == tap

/-- A tap object is configured anew: the snoop objects on it stay bound, with no input (R567). -/
def Dev.cutTaps (d : Dev) (kind tap : Nat) : Dev :=
  { d with chk := d.chk.mapAll ({} : Chk) fun k c => if d.onTap kind tap k c then { c with lost := true } else c }

/-- A unit of a tap has passed: every snoop object on it that still takes input sees a copy (R562, R563). -/
def Dev.tapUnit (d : Dev) (kind tap : Nat) (mt : Option Nat) (bytes : List Byte) (withheld : Bool) : Dev :=
  { d with chk := d.chk.mapAll ({} : Chk) fun k c =>
      if d.onTap kind tap k c && !c.lost && !c.overrun then { c with due := c.due ++ [(mt, bytes, withheld)] } else c }

/-- The issue router completes a descriptor with an unknown unit (R157); any other is copied into its unit's queue. -/
def Dev.routeIssue (d : Dev) (x : Desc) : Dev :=
  if x.known then d.putUnitQueue x.unit (d.unitQueue x.unit ++ [x]) else d.complete x stUnsupported 0

/-- The input queue is full (R155, R252): 64 descriptors for each blit engine, the device's own depth for the others. -/
def Dev.issueFull (d : Dev) (x : Desc) : Bool :=
  x.known &&
    (if x.unit = 3 then
      let e := x.get 0x20 1
      64 ≤ ((d.unitQueue 3).filter fun y => y.get 0x20 1 == e).length + (d.engine e).queue.length
    else Config.unitQueueDepth x.unit ≤ (d.unitQueue x.unit).length)

/-- Copy a descriptor into its queue for the thread that issues it (R155). -/
def Dev.acceptIssue (d : Dev) (x : Desc) : Dev := (d.modThread x.tid fun t => { t with issued := t.issued + 1 }).routeIssue x

end Sys2Proof.Machine
end

