-- ==== Sys2Proof/Machine/Cfg.lean ====
section
/-! DEFINITION. The fields of the configurations that inputs, scenes, layers, outputs and channels hold, and what is twinned (chapters 6, 7, 9 and 12). -/

namespace Sys2Proof.Machine

/-- A number rounded up to a multiple, and a quotient rounded up. -/
def roundUp (v m : Nat) : Nat := (v + m - 1) / m * m
def ceilDiv (a b : Nat) : Nat := (a + b - 1) / b

/-- The grid point nearest to the rational a / b, the earlier one of two (R193). -/
def gridNearestQ (num den a b : Nat) : Nat :=
  let k := gridIndex num den (a / b)
  let p := gridPoint num den k
  let q := gridPoint num den (k + 1)
  if a - p * b ≤ q * b - a then p else q

/-! ## Rasters in store format (R204) -/

/-- Pitch, plane offsets and sizes of a raster. -/
structure Geom where
  w : Nat
  h : Nat
  half : Bool
  deriving DecidableEq, Repr

def Geom.pitch (g : Geom) (plane : Nat) : Nat := if plane = 0 then roundUp (g.w * 2) 256 else roundUp (g.w / 2 * 2) 256
def Geom.width (g : Geom) (plane : Nat) : Nat := if plane = 0 then g.w else g.w / 2
def Geom.rows (g : Geom) (plane : Nat) : Nat := if plane = 0 || !g.half then g.h else g.h / 2
def Geom.offset (g : Geom) (plane : Nat) : Nat :=
  match plane with
  | 0 => 0
  | 1 => g.pitch 0 * g.h
  | _ => g.pitch 0 * g.h + g.pitch 1 * g.rows 1
def Geom.size (g : Geom) : Nat := g.pitch 0 * g.h + 2 * (g.pitch 1 * g.rows 1)
def Geom.slotSize (g : Geom) : Nat := roundUp g.size 4096

/-- One row of a plane at a device address as its 16-bit containers. -/
def Dev.storeRow (d : Dev) (base : Nat) (g : Geom) (plane y : Nat) : List Nat :=
  (List.range (g.width plane)).map fun x => fieldLE (d.memRead (base + g.offset plane + y * g.pitch plane + 2 * x) 2) 0 2

/-- The sample that a container holds: bits 11:0 (R204). -/
def sample12 (v : Nat) : Nat := v % 4096

/-- Write samples of a row of a plane from index x. -/
def Dev.putStoreRow (d : Dev) (base : Nat) (g : Geom) (plane y x : Nat) (vs : List Nat) : Dev :=
  if vs.isEmpty then d else d.memWrite (base + g.offset plane + y * g.pitch plane + 2 * x) (vs.flatMap fun v => toLE 2 (v % 4096))

/-! ## Lane groups that other units bind (R479) -/

/-- The group that a lane belongs to. -/
def Dev.groupOf (d : Dev) (l : Nat) : Option (Nat × Group) :=
  d.group.find? fun e => e.2.proto != 0 && e.1 ≤ l && l < e.1 + e.2.width

/-- The lanes of a group. -/
def groupLanes (first : Nat) (g : Group) : List Nat := (List.range g.width).map (first + ·)

/-- Lanes that leave a group are in electrical idle from now (R487, R501). -/
def Dev.idleLanes (d : Dev) (ls : List Nat) : Dev :=
  ls.foldl (fun e l => e.modLaneAt l fun y =>
    { y with inSvc := false, chkLock := false, sdiRate := 0, idleAt := some (y.idleAt.getD d.ctl.ticks), retrain := none, relock := none }) d

/-- Hold limit of LANEn_EQ_HOLD in ticks (Table 16.12). -/
def Lane.holdTicks (l : Lane) : Nat := clampN 1 1000000 l.eqHold * 3000

/-- The equaliser's defaults, and no valid cache (R487). -/
def Lane.plain (y : Lane) : Lane := { y with cache := false, ctle := 16, dfe := 0, tx := 0x400000#32, cRate := 0, cCtle := 16, cDfe := 0, cTx := 0x400000#32 }

/-- The lane's electrical idle has been longer than its hold limit (R487). -/
def Lane.stale (y : Lane) (now : Nat) : Bool := match y.idleAt with | some t => decide (t + y.holdTicks < now) | none => false

/-- A lane leaves electrical idle: its equaliser is at the defaults if the idle outlasted the cache (R487, R489). -/
def Lane.wake (y : Lane) (now : Nat) : Lane := { (if y.stale now then y.plain else y) with idleAt := none, polled := none }

/-- Line rate of a group in kb/s; the twin link runs at 112.5 Gb/s (R355). An SDI lane, whose rate only LOCK finds, has none in its group: 0. -/
def Group.kbps (g : Group) : Nat := if g.proto = 3 then 112500000 else fieldLE g.cfg 0x28 4
def Group.pam4 (g : Group) : Bool := 53125000 ≤ g.kbps

/-- An octet would need a third rate (R478); SDI lanes use no synthesiser. -/
def Dev.octetFull (d : Dev) (o kbps : Nat) : Bool :=
  2 < (((d.group.filter fun e => e.2.proto != 0 && e.2.proto != 2 && e.1 / 8 == o).map fun e => e.2.kbps) ++ [kbps]).eraseDups.length

/-- A group is bound and starts bring-up (R482); at an NRZ rate its lanes have no DFE (R485). -/
def Dev.bindGroup (d : Dev) (first width proto : Nat) (cfg : List Byte) : Dev :=
  let g : Group := { proto := proto, width := width, cfg := cfg, stage := .detect, since := d.ctl.ticks }
  (groupLanes first g).foldl (fun e l => e.modLaneAt l fun y => { y.wake d.ctl.ticks with dfe := if g.pam4 then (y.wake d.ctl.ticks).dfe else 0, inSvc := false, chkLock := false, sdiRate := 0, retrain := none, relock := none }) (d.putGroupAt first g)

/-- A group is unbound. -/
def Dev.unbindGroup (d : Dev) (first : Nat) : Dev :=
  let g := d.groupAt first
  if g.proto = 0 then d else (groupLanes first g).foldl (fun e l => e.modLaneAt l fun y => { y with freed := some d.ctl.ticks }) ((d.putGroupAt first {}).idleLanes (groupLanes first g))

/-! ## Capture inputs (Table 6.4) -/

def Cap.get (c : Cap) (o n : Nat) : Nat := fieldLE c.cfg o n
def Cap.kind (c : Cap) : Nat := c.get 0x22 1
def Cap.half (c : Cap) : Bool := c.get 0x23 1 == 1
def Cap.depth (c : Cap) : Nat := c.get 0x24 1
def Cap.links (c : Cap) : Nat := c.get 0x27 1
/-- The lanes of an SDI input. -/
def Cap.sdiLanes (c : Cap) : List Nat := if !c.cfg.isEmpty && c.kind = 1 then (List.range c.links).map (c.get 0x78 2 + ·) else []
def Cap.width (c : Cap) : Nat := c.get 0x28 2
def Cap.height (c : Cap) : Nat := c.get 0x2A 2
def Cap.inNum (c : Cap) : Nat := c.get 0x2C 4
def Cap.inDen (c : Cap) : Nat := c.get 0x30 4
def Cap.outNum (c : Cap) : Nat := c.get 0x34 4
def Cap.outDen (c : Cap) : Nat := c.get 0x38 4
def Cap.syncDelay (c : Cap) : Nat := c.get 0x3C 4
def Cap.storeAddr (c : Cap) : Nat := c.get 0x40 8
def Cap.skewUs (c : Cap) : Nat := c.get 0x7A 2
def Cap.geom (c : Cap) : Geom := ⟨c.width, c.height, c.half⟩
def Cap.slotAddr (c : Cap) (s : Nat) : Nat := c.storeAddr + s * c.geom.slotSize
def Cap.slotAt (c : Cap) (s : Nat) : Slot := c.slots.get {} s
/-- Grid point of output tick k. -/
def Cap.mt (c : Cap) (k : Nat) : Nat := gridPoint c.outNum c.outDen k

/-! ## Scenes, layers and outputs (Tables 7.6 and 7.7) -/

def Scene.get (s : Scene) (o n : Nat) : Nat := fieldLE s.cfg o n
def Scene.width (s : Scene) : Nat := s.get 0x24 2
def Scene.height (s : Scene) : Nat := s.get 0x26 2
def Scene.num (s : Scene) : Nat := s.get 0x28 4
def Scene.den (s : Scene) : Nat := s.get 0x2C 4
def Scene.delay (s : Scene) : Nat := s.get 0x30 4
def Scene.outCount (s : Scene) : Nat := s.get 0x3A 1
def Scene.mt (s : Scene) (k : Nat) : Nat := gridPoint s.num s.den k
/-- The output entry in force. -/
def Scene.out (s : Scene) (j : Nat) : List Byte := s.outs.get [] j
def outW (o : List Byte) : Nat := fieldLE o 0 2
def outH (o : List Byte) : Nat := fieldLE o 2 2
def outHalf (o : List Byte) : Bool := byteAt o 4 == 1
def outOn (o : List Byte) : Bool := byteAt o 5 == 1
def outAddr (o : List Byte) : Nat := fieldLE o 8 8
def outGeom (o : List Byte) : Geom := ⟨outW o, outH o, outHalf o⟩

def Layer.get (y : Layer) (o n : Nat) : Nat := fieldLE y.cfg o n
def Layer.enabled (y : Layer) : Bool := y.get 0x23 1 == 1
def Layer.readsInput (y : Layer) (i : Nat) : Bool := y.enabled && y.get 0x24 1 == 0 && y.get 0x26 2 == i

/-! ## Channels (Table 9.4) -/

def Chan.get (c : Chan) (o n : Nat) : Nat := fieldLE c.ctx o n
def Chan.codec (c : Chan) : Nat := c.get 0x22 1
def Chan.profile (c : Chan) : Nat := c.get 0x23 1
def Chan.depth (c : Chan) : Nat := c.get 0x26 1
def Chan.ctu (c : Chan) : Nat := if c.codec = 3 then 16 else c.get 0x27 1
def Chan.width (c : Chan) : Nat := c.get 0x28 2
def Chan.height (c : Chan) : Nat := c.get 0x2A 2
def Chan.num (c : Chan) : Nat := c.get 0x2C 4
def Chan.den (c : Chan) : Nat := c.get 0x30 4
def Chan.sceneIx (c : Chan) : Nat := c.get 0x34 1 * 16 + c.get 0x35 1
def Chan.outIx (c : Chan) : Nat := c.get 0x36 1
def Chan.cls (c : Chan) : Nat := c.get 0x38 1
def Chan.rank (c : Chan) : Nat := c.get 0x39 1
def Chan.latMode (c : Chan) : Nat := c.get 0x3B 1
def Chan.sliceRows (c : Chan) : Nat := c.get 0x3C 1
def Chan.refreshPics (c : Chan) : Nat := c.get 0x3D 1
def Chan.gop (c : Chan) : Nat := c.get 0x3E 1
def Chan.depthG (c : Chan) : Nat := if c.gop = 2 then c.get 0x3F 1 else 1
def Chan.refs (c : Chan) : Nat := c.get 0x40 1
def Chan.keyType (c : Chan) : Nat := c.get 0x41 1
def Chan.flags (c : Chan) : Nat := c.get 0x42 2
def Chan.keyInterval (c : Chan) : Nat := c.get 0x44 4
def Chan.outDelay (c : Chan) : Nat := c.get 0x48 4
def Chan.flow (c : Chan) : Nat := c.get 0x4C 2
def Chan.twin (c : Chan) : Nat := c.get 0x4E 1
def Chan.esAddr (c : Chan) : Nat := c.get 0x60 8
def Chan.esSize (c : Chan) : Nat := c.get 0x68 4
def Chan.stopOnFlr (c : Chan) : Bool := bitN c.flags 0
def Chan.spliceKey (c : Chan) : Bool := bitN c.flags 1
/-- 4:2:2 sampling follows from the profile (Table 9.1). -/
def Chan.is422 (c : Chan) : Bool := c.profile == 2
/-- CTU rows of a picture (R64); a JPEG XS channel counts 16-line slices (R273). -/
def Chan.rowCount (c : Chan) : Nat := ceilDiv c.height c.ctu
/-- Picture period P in ns, rounded down, as a numerator over RATE_NUM. -/
def Chan.period (c : Chan) : Nat := c.den * 1000000000 / c.num
def Chan.mt (c : Chan) (k : Nat) : Nat := gridPoint c.num c.den k
/-- The channel's first picture whose media time is at or after `t`, as its grid point. -/
def Chan.pictureFor (c : Chan) (t : Nat) : Nat := max c.k0 (gridAtOrAfter c.num c.den t)
/-- The media time of the last picture planned (R294). -/
def Chan.lastPlanned (c : Chan) : Option Nat := if c.outNext = 0 then none else some (c.mt (c.k0 + c.outNext - 1))
/-- Media times of the planned pictures of which no packet is built, in coding order (R410). -/
def Chan.unpacked (c : Chan) : List Nat :=
  ((c.records.filter fun r => bitN r.flags 0).map (·.mt)) ++ (c.flight.filter fun p => p.released == 0).map (·.mt)
/-- Packets of the picture for media time `t` have been built. -/
def Chan.packed (c : Chan) (t : Nat) : Bool := decide (c.pictureFor t < c.k0 + c.outNext) && !c.unpacked.contains (c.mt (c.pictureFor t))
/-- The picture n after the next of which no packet is built, in coding order as far as it is planned. -/
def Chan.packAhead (c : Chan) (n : Nat) : Nat := c.unpacked.getD n (c.mt (c.k0 + c.outNext + (n - c.unpacked.length)))
/-- ADMITTED, RUNNING or STOPPING. -/
def Chan.held (c : Chan) : Bool := c.st == .admitted || c.st == .running || c.st == .stopping

/-! ## What is twinned (R365 and the input rule of chapter 12) -/

/-- A twinned channel reads the scene. -/
def Dev.twinnedScene (d : Dev) (s : Nat) : Bool := d.chan.any fun p => p.2.twin == 1 && p.2.held && p.2.sceneIx == s

/-- A layer of the scene reads the input. -/
def Dev.sceneReads (d : Dev) (s i : Nat) : Bool := (List.range 8).any fun l => (d.layerAt (s * 8 + l)).readsInput i

/-- A scene that feeds a twinned channel reads the input. -/
def Dev.twinnedInput (d : Dev) (i : Nat) : Bool := (List.range 64).any fun s => d.twinnedScene s && d.sceneReads s i

/-- The channel's TWIN is 1. -/
def Dev.twinnedChannel (d : Dev) (n : Nat) : Bool := (d.channel n).twin == 1

/-- The pair is PAIRED. -/
def Dev.paired (d : Dev) : Bool := d.twin.st == .paired

/-- This half's presence on the twinned input is what the senior says (R360). -/
def Dev.follows (d : Dev) (i : Nat) : Bool := d.paired && !d.ctl.senior && d.twinnedInput i

/-! ## Packager flows (Table 13.6, R395) -/

def Flow.get (f : Flow) (o n : Nat) : Nat := fieldLE f.cfg o n
def Flow.configured (f : Flow) : Bool := !f.cfg.isEmpty
def Flow.kind (f : Flow) : Nat := f.get 0x22 1
def Flow.queueA (f : Flow) : Nat := f.get 0x34 2

/-- The queue of a configured flow, as the object that says who owns it (R394). -/
def Dev.flowObject (d : Dev) (k : Nat) : List (Nat × Nat) := if (d.flowAt k).configured then [(1, (d.flowAt k).queueA)] else []
def Flow.queueB (f : Flow) : Nat := f.get 0x36 2
def Flow.pidScte (f : Flow) : Nat := f.get 0x54 2

/-- The function that a configured flow belongs to: the owner of its egress queue (R394). -/
def Dev.flowOwner (d : Dev) (f : Flow) : Nat := d.ownerOf 1 f.queueA

/-- A channel names the flow, which is configured, of kind 0 to 2 and its owner's (R395). -/
def Dev.bound (d : Dev) (n k : Nat) : Bool :=
  let c := d.channel n
  let f := d.flowAt k
  c.flow == k && f.configured && f.kind != 3 && d.flowOwner f == d.ownerOf 0 n

/-- The channel that a flow carries: the lowest-numbered running one bound to it (R395). -/
def Dev.carried (d : Dev) (k : Nat) : Option Nat :=
  (d.chan.find? fun p => (p.2.st == .running || p.2.st == .stopping) && d.bound p.1 k).map (·.1)

/-! ## Splices (R209) -/

/-- The channels fed from an input: those that read an output of a scene that reads it. -/
def Dev.fedBy (d : Dev) (i : Nat) : List Nat := (d.chan.filter fun p => p.2.held && d.sceneReads p.2.sceneIx i).map (·.1)

/-- A splice reaches one channel: an internal KEYPIC when SPLICE_KEY is set (R296), and a cue on the flow that carries it (R408, R409). Type 5
withdraws the pending KEYPIC of its event. -/
def Dev.spliceTo (d : Dev) (stamp kind event mt : Nat) (n : Nat) : Dev :=
  let c := d.channel n
  let d1 :=
    if !c.spliceKey || c.st != .running then d
    else if kind = 5 then
      let withdrawn (p : Pend) : Bool := p.internal && p.unit == 4 && p.op == 4 && p.obj == n && p.event == event
      { d with pend := d.pend.filter fun p => !withdrawn p }.putChannel n { c with keyCarry := c.keyCarry.filter fun p => !withdrawn p }
    else { d with pend := d.pend ++ [{ unit := 4, op := 4, obj := n, t := mt, internal := true, event := event, since := d.ctl.ticks }] }
  let f := d1.flowAt c.flow
  if d1.carried c.flow == some n && (f.kind == 1 || f.kind == 2) && f.pidScte != 0 then
    d1.putFlowAt c.flow { f with pending := f.pending ++ [{ kind := kind, event := event, mt := mt, first := stamp }] }
  else d1

end Sys2Proof.Machine
end

