-- ==== Sys2Proof/Machine/Capture.lean ====
section
/-! DEFINITION. Capture inputs: reception, the four-raster store, presence, substitution and digests, splices and audio (chapter 6). -/

namespace Sys2Proof.Machine

/-! ## Stamps (R193) -/

/-- A timestamp of `w` bits extended to the value nearest to the counter, in ticks of a clock of `hz`. -/
def extendTs (w hz counterNs ts : Nat) : Nat :=
  let base := counterNs * hz / 1000000000 / 2 ^ w * 2 ^ w + ts % 2 ^ w
  let off (v : Nat) : Nat := ((v * 1000000000 : Int) - (counterNs * hz : Nat)).natAbs
  if 2 ^ w ≤ base && off (base - 2 ^ w) < off base then base - 2 ^ w else if off (base + 2 ^ w) < off base then base + 2 ^ w else base

/-- An RTP timestamp has 32 bits. -/
def extendRtp (hz counterNs ts : Nat) : Nat := extendTs 32 hz counterNs ts

/-- The stamp of an ST 2110-20 timestamp on the input's grid. -/
def Dev.rtpStamp (d : Dev) (c : Cap) (ts : Nat) : Nat := gridNearestQ c.inNum c.inDen (extendRtp 90000 d.media ts * 100000) 9

/-- The media time of an ST 2110-30 packet: its 48 kHz timestamp (R190). -/
def Dev.audioTime (d : Dev) (ts : Nat) : Nat := extendRtp 48000 d.media ts * 1000000000 / 48000

/-! ## The store (R205, R206) -/

/-- The next output tick of the input. DESIGN CHOICE (log entry 59): a tick is the next one until its line 0 has been judged, so also while SYNC_DELAY_NS runs. -/
def Cap.nextTick (c : Cap) : Nat := if c.opened then c.tick + 1 else c.tick

/-- The stamp lies more than two output periods beyond the next output tick (R206). -/
def Cap.tooEarly (c : Cap) (stamp : Nat) : Bool :=
  2 * c.outDen * 1000000000 < (stamp - c.mt c.nextTick) * c.outNum

/-- A slot is pinned (R205). -/
def Cap.pinned (c : Cap) (s : Nat) : Bool := c.src == .slot s || (c.subst == 0 && c.good == some s)

/-- The slot that holds a stamp; one that has the senior's before one that has its own (R360). -/
def Cap.holding (c : Cap) (stamp : Nat) : Option Nat :=
  match (List.range 4).find? fun s => (c.slotAt s).stamp == some stamp && (c.slotAt s).fixed with
  | some s => some s
  | none => (List.range 4).find? fun s => (c.slotAt s).stamp == some stamp

/-- The slot that an arriving raster takes (R205). -/
def Cap.victim (c : Cap) : Option Nat :=
  match (List.range 4).find? fun s => (c.slotAt s).stamp == none with
  | some s => some s
  | none =>
    ((List.range 4).filter fun s => !c.pinned s).foldl (fun b s =>
      match b with
      | none => some s
      | some t => if (c.slotAt s).stamp.getD 0 < (c.slotAt t).stamp.getD 0 then some s else b) none

/-- A raster is discarded and counted once (R205, R206). -/
def Cap.discard (c : Cap) (key : Nat) : Cap :=
  if c.lastBad.contains key then c else { c with lastBad := lastN 16 (c.lastBad ++ [key]), early := satAdd 8 c.early 1 }

/-- A raster takes its slot. -/
def Cap.take (c : Cap) (stamp key : Nat) : Option Nat × Cap :=
  match c.victim with
  | some s => (some s, { c with slots := c.slots.put {} s { stamp := some stamp, key := key }, good := if c.good == some s then none else c.good })
  | none => (none, c.discard key)

/-- The slot for a piece of the raster with a stamp, built from `key`: the one it has, or a new one; none when the raster is, or was, discarded. A slot that a verdict of the
senior made (R360) takes the first raster of its stamp. -/
def Cap.slotFor (c : Cap) (stamp key : Nat) : Option Nat × Cap :=
  if c.lastBad.contains key then (none, c)
  else match c.holding stamp with
  | some s =>
    if (c.slotAt s).key == key then (some s, c)
    else if (c.slotAt s).fresh then (some s, { c with slots := c.slots.put {} s { c.slotAt s with key := key, fresh := false } })
    else (none, c.discard key)
  | none => if c.tooEarly stamp then (none, c.discard key) else c.take stamp key

/-- A sample of the source depth in the 12-bit scale of the store (R204). -/
def Cap.scale (c : Cap) (v : Nat) : Nat := v % 2 ^ c.depth * 2 ^ (12 - c.depth)

/-- The runs of samples that have arrived of a line, with one more; the line is present once they cover it (R192). -/
def Slot.arrive (s : Slot) (width : Nat) (g : LineSeg) : Slot :=
  let runs := (g.x, g.y.length) :: s.groups.get [] g.line
  if s.lines.contains g.line then s
  else if (List.range width).all fun x => runs.any fun r => r.1 ≤ x && x < r.1 + r.2 then
    { s with lines := s.lines ++ [g.line], groups := s.groups.put [] g.line [] }
  else { s with groups := s.groups.put [] g.line runs }

/-- Write a run of samples to slot `s` of input `i` and mark what has arrived. -/
def Dev.placeSeg (d : Dev) (i s : Nat) (g : LineSeg) : Dev :=
  let c := d.capIn i
  if g.line < c.height && g.x + g.y.length ≤ c.width then
    let base := c.slotAddr s
    let cy := if c.half then g.line / 2 else g.line
    let d1 := ((d.putStoreRow base c.geom 0 g.line g.x (g.y.map c.scale)).putStoreRow base c.geom 1 cy (g.x / 2) (g.cb.map c.scale)).putStoreRow
      base c.geom 2 cy (g.x / 2) (g.cr.map c.scale)
    d1.modCapIn i fun c => { c with slots := c.slots.put {} s ((c.slotAt s).arrive c.width g) }
  else d

/-- The format of a raster differs from the configuration (R203): of the candidate that is being presented that is a fault at once, else its tick finds it. -/
def Dev.markBad (d : Dev) (i s : Nat) : Dev :=
  let c := d.capIn i
  let now := c.opened && c.cand && c.src == .slot s && !(c.slotAt s).bad
  let d1 := d.putCapIn i { c with slots := c.slots.put {} s { c.slotAt s with bad := true }, fmtErr := c.fmtErr || now }
  if now then d1.raise 26 else d1

/-- Place a received packet's samples in the raster of its timestamp (R193, R203, R204). -/
def Dev.placeVideo (d : Dev) (i : Nat) (p : VideoPkt) : Dev :=
  let c := d.capIn i
  let (slot, c1) := c.slotFor (d.rtpStamp c p.ts) p.ts
  let d1 := d.putCapIn i c1
  match slot with
  | none => d1
  | some s =>
    if p.fmtOk then p.segs.foldl (fun e g => e.placeSeg i s g) d1
    else d1.markBad i s

/-! ## Reception -/

/-- The map of what this half holds goes to the partner as data arrives (R359): packets and lines, [1] ancillary packets, [2] packets of a stream. -/
def Dev.sendMap (d : Dev) (i item : Nat) (kind : List Byte) : Dev := if d.paired && d.twinnedInput i then d.emit (.twin 4 i item kind) else d

/-- A copy of a packet by one of the paths (R191): the first copy is kept; a later copy is discarded, and counted when it is beyond SKEW_US. -/
def Dev.mergeCopy (d : Dev) (i : Nat) (pathB : Bool) (seq : Nat) : Bool × Dev :=
  let c := d.capIn i
  let c1 := if pathB then { c with upB := true, lastB := d.ctl.ticks } else { c with upA := true, lastA := d.ctl.ticks }
  match c1.seenAt.get 0 seq with
  | 0 => (true, d.putCapIn i { c1 with seenAt := c1.seenAt.put 0 seq (d.ctl.ticks + 1) })
  | t + 1 => (false, d.putCapIn i (if t + c1.skewUs * 3000 < d.ctl.ticks then { c1 with late := satAdd 16 c1.late 1 } else c1))

/-- The address that a path of an input listens to (Table 6.4). -/
def Cap.pathAddr (c : Cap) (pathB : Bool) : NetAddr :=
  if pathB then ⟨c.get 0x77 1, c.get 0x60 16, c.get 0x72 2⟩ else ⟨c.get 0x76 1, c.get 0x50 16, c.get 0x70 2⟩

/-- An ST 2110-20 packet arrives (R191). -/
def Dev.videoRx (d : Dev) (i : Nat) (pathB : Bool) (p : VideoPkt) : Dev :=
  let c := d.capIn i
  if !c.rx || c.kind != 0 || (pathB && c.links != 2) || p.addr != c.pathAddr pathB then d
  else
    let (new, d1) := d.mergeCopy i pathB p.seq
    if new then (d1.placeVideo i p).sendMap i p.seq [] else d1

/-- A line of an SDI raster as the maps and requests of the twin link name it (R359): with the media time at which the raster began to arrive. -/
def sdiKey (arrived line : Nat) : Nat := arrived * 8192 + line

/-- The slot that an SDI raster takes as its first line arrives. A junior discards no raster for its own stamp, since the senior sends another (R360). -/
def Dev.sdiSlotFor (d : Dev) (i : Nat) (c : Cap) (stamp : Nat) : Option Nat × Cap :=
  if d.follows i then (if c.tooEarly stamp then (none, c.discard (d.ctl.ticks + 1)) else c.take stamp (d.ctl.ticks + 1))
  else c.slotFor stamp (d.ctl.ticks + 1)

/-- An SDI line arrives (R192, R193, R492): it is present when every link carries it without error on a locked lane; the first line of a raster opens it with the grid point nearest to the counter. -/
def Dev.sdiRx (d : Dev) (i : Nat) (l : SdiLine) : Dev :=
  let c := d.capIn i
  if !c.rx || c.kind != 1 then d
  else
    let stamp := gridNearest c.inNum c.inDen d.media
    let c1 :=
      if l.first then
        let (slot, c0) := d.sdiSlotFor i c stamp
        let c1 := match slot with | some s => { c0 with slots := c0.slots.put {} s { c0.slotAt s with arrived := d.media } } | none => c0
        { c1 with sdiSlot := slot, sdiStamp := stamp, sdiWait := c1.sdiWait.filter fun w => some w.1 != slot }
      else c
    let d1 := d.putCapIn i c1
    match c1.sdiSlot with
    | none => d1
    | some s =>
      if !l.fmtOk then d1.markBad i s
      else if l.crcOk.length == c1.links && l.crcOk.all id && c1.sdiLanes.all (fun k => (d1.groupAt k).stage == .active) then (d1.placeSeg i s l.seg).sendMap i (sdiKey (c1.slotAt s).arrived l.seg.line) []
      else d1

/-- A path without a packet for 10 ms is marked down (R191). -/
def Dev.pathTimeout (d : Dev) (i : Nat) (pathB : Bool) : Dev :=
  d.modCapIn i fun c =>
    if (if pathB then c.lastB else c.lastA) + 30000000 ≤ d.ctl.ticks then (if pathB then { c with upB := false } else { c with upA := false }) else c

/-! ## Presence and substitution -/

/-- Due time of line y of tick k on the cadence clock (R197). -/
def Cap.dueTime (c : Cap) (k y : Nat) : Nat := c.mt k + c.syncDelay + (y + 1) * c.outDen * 1000000000 / (c.outNum * c.height)

/-- The slot of the candidate raster of tick k (R196). -/
def Cap.candidate (c : Cap) (k : Nat) : Option Nat := c.holding (gridPoint c.inNum c.inDen (gridIndex c.inNum c.inDen (c.mt k)))

/-- Whether a line of the candidate counts as present: by what this half holds, or by the senior's verdict (R197, R360). -/
def Dev.linePresent (d : Dev) (i y : Nat) : Bool :=
  let c := d.capIn i
  if d.follows i then c.verdicts.contains (y, true)
  else match c.candidate c.tick with
    | some s => (c.slotAt s).lines.contains y
    | none => false

/-- What replaces a missing raster or line (R201). -/
def Cap.substitute (c : Cap) : RasterSrc :=
  match c.good with
  | some s => if c.subst == 0 && (c.freeze == 0 || c.run < c.freeze) then .slot s else .slate
  | none => .slate

/-- Fields of Table 11.4 that capture needs: the input of a decoder stream. -/
def Dec.get (s : Dec) (o n : Nat) : Nat := fieldLE s.cfg o n
def Dec.input (s : Dec) : Nat := s.get 0x26 2

/-- A stream seeks (R340): of its decoded pictures only those stay that wait for their output (log entry 54). -/
def Dec.seek (s : Dec) : Dec :=
  { s with st := .seeking, starting := false, mark := false, periods := [], raslMark := false
           dpb := s.dpb.filter (·.waits) }

/-- A stream that stops: it receives and writes nothing, and its booking is released (R339, Table 11.3). -/
def Dec.halt (s : Dec) : Dec := { s with st := .stopped, starting := false, booked := 0, fill := 0, bufPics := 0, mark := false, waiting := [], dpb := [] }

/-- DEC START and STOP take effect at an output tick of the bound input (R347); a STOP aborts what the stream still has pending (R164), and on a stopped stream changes
nothing, so that the booking of a START that follows stands (R339). -/
def Dev.decGo (d : Dev) (k op : Nat) : Dev :=
  if op = 2 then
    d.modStream k fun s =>
      if s.st = .stopped then { s.seek with fill := 0, bufPics := 0, bsPtr := 0, decoded := [], stamps := [], seenAt := [], theirs := [], theirAt := [], declared := [], waiting := [],
                                                 media := [], fecs := [] } else s
  else if (d.stream k).st == .stopped then d
  else (d.abortPend fun p => p.unit == 5 && p.obj == k).modStream k Dec.halt

/-- A pending operation of an input: its own, or one of the decoder stream bound to it. -/
def Dev.ofInput (d : Dev) (i : Nat) (p : Pend) : Bool := (p.unit == 1 && p.obj == i) || (p.unit == 5 && (d.stream p.obj).input == i)

/-- The operations due at tick k take effect, in the order of acceptance (Table 6.3, R163, R210, R212, R347). -/
def Dev.capPoint (d : Dev) (i : Nat) : Dev :=
  let m := (d.capIn i).mt (d.capIn i).tick
  let mine := d.pend.filter fun p => d.ofInput i p && p.due m
  mine.foldl (fun e p =>
    (if p.unit = 5 then e.decGo p.obj p.op else match p.op with
      | 2 => e.modCapIn i fun c => if c.st == CapState.stopped then { c with st := .waiting, rx := true, everSeen := false, run := 0 } else c
      | 3 => e.modCapIn i fun c => if c.st == CapState.stopped then c else { c with st := .stopped, rx := false }
      | _ => e.modCapIn i fun c => { c with subst := p.d.get 0x26 1, freeze := p.d.get 0x7C 4, slateAdr := p.d.get 0x48 8 }).complete p.d p.status m)
    { d with pend := d.pend.filter fun p => !(d.ofInput i p && p.due m) }

/-! ## What a tick presents -/

/-- The slate as it stands in memory now. -/
def Dev.slateRow (d : Dev) (c : Cap) (plane y : Nat) : List Nat :=
  if c.slateAdr = 0 then List.replicate (c.geom.width plane) (if plane = 0 then 256 else 2048) else d.storeRow c.slateAdr c.geom plane y

/-- A row of the slate: as it was read when the row was presented, else as it is (R202). -/
def Dev.slateAt (d : Dev) (c : Cap) (plane y : Nat) : List Nat :=
  match c.slateRows.get [] (plane * 8192 + y) with
  | [] => d.slateRow c plane y
  | r => r

/-- A row of a source. -/
def Dev.sourceRow (d : Dev) (c : Cap) (src : RasterSrc) (plane y : Nat) : List Nat :=
  match src with
  | .slate => d.slateAt c plane y
  | .slot s => d.storeRow (c.slotAddr s) c.geom plane y

/-- A row is concealed; a 4:2:0 chroma row with either of its luma lines (R203). -/
def Cap.rowConcealed (c : Cap) (plane y : Nat) : Bool :=
  if plane = 0 || !c.half then c.conceal.contains y else c.conceal.contains (2 * y) || c.conceal.contains (2 * y + 1)

/-- What a row of the raster that an input presents now comes from. -/
def Cap.rowSource (c : Cap) (plane y : Nat) : RasterSrc := if c.cand && c.rowConcealed plane y then c.substSrc else c.src

/-- A row of the raster that an input presents now. -/
def Dev.presentRow (d : Dev) (i plane y : Nat) : List Nat :=
  let c := d.capIn i
  d.sourceRow c (c.rowSource plane y) plane y

/-- The rows that end with luma line y: its own, and the chroma rows beside it. -/
def Cap.rowsAt (c : Cap) (y : Nat) : List (Nat × Nat) :=
  (0, y) :: (if !c.half then [(1, y), (2, y)] else if y % 2 = 1 then [(1, y / 2), (2, y / 2)] else [])

/-- The rows of luma line y are presented: those that show the slate are read now, and once (R202). -/
def Dev.fixRows (d : Dev) (i y : Nat) : Dev :=
  let c := d.capIn i
  let rows := (c.rowsAt y).filter fun r => c.rowSource r.1 r.2 == .slate && (c.slateRows.get [] (r.1 * 8192 + r.2)).isEmpty
  d.putCapIn i { c with slateRows := rows.foldl (fun (t : Tab (List Nat)) r => t.put [] (r.1 * 8192 + r.2) (d.slateRow c r.1 r.2)) c.slateRows }

/-- Every row that is not presented yet is presented now. -/
def Dev.fixAll (d : Dev) (i : Nat) : Dev := (List.range (d.capIn i).height).foldl (fun e y => e.fixRows i y) d

/-- The state shown for a whole-raster substitute (Table 6.2). -/
def substState : RasterSrc → CapState
  | .slate => .slate
  | .slot _ => .freeze

/-- The senior sends its verdict on a line, and for SDI the stamp with that of line 0 (R360). -/
def Dev.sendVerdict (d : Dev) (i y : Nat) (present : Bool) (stamp : Nat) : Dev :=
  if d.paired && d.ctl.senior && d.twinnedInput i then d.emit (.twin 2 i y (toLE 1 (b2n present) ++ toLE 8 stamp)) else d

/-- Line 0 of tick k falls due: the tick opens (R197, R200, R203). A tick under the first row of Table 6.2 raises no fault source. On a pair the senior's verdict counts the
format too, and the junior follows it whatever it has found itself (R360). -/
def Dev.openTick (d : Dev) (i : Nat) : Dev :=
  let d0 := d.capPoint i
  let c := d0.capIn i
  let here := c.candidate c.tick
  let badFmt := match here with | some s => (c.slotAt s).bad | none => false
  let present := d0.linePresent i 0
  let shows := present && (d0.follows i || !badFmt)
  let c0 := { c with opened := true, shown := true, nextLine := 1, conceal := [], cand := false, slateRows := [], fmtErr := if here.isSome then badFmt else c.fmtErr }
  let d1 := if c.st == CapState.stopped then d0 else d0.sendVerdict i 0 shows ((here.bind fun s => (c.slotAt s).stamp).getD 0)
  let d2 := if badFmt && c.st != .stopped && c.everSeen then d1.raise 26 else d1
  if c.st == CapState.stopped then d2.putCapIn i { c0 with src := .slate, run := 0 }
  else match here, shows with
    | some s, true =>
      let c2 := { c0 with run := 0, st := .normal, everSeen := true, cand := true, src := .slot s }
      d2.putCapIn i { c2 with substSrc := c2.substitute }
    | _, _ =>
      if !c.everSeen then d2.putCapIn i { c0 with st := .waiting, src := .slate }
      else
        let sub := c.substitute
        (d2.putCapIn i { c0 with st := substState sub, src := sub, run := c.run + 1, rasters := satAdd 24 c.rasters 1 }).raise 25

/-- A later line of the candidate falls due (R197, R203). -/
def Dev.judgeLine (d : Dev) (i : Nat) : Dev :=
  let c := d.capIn i
  let y := c.nextLine
  if !c.cand then d.putCapIn i { c with nextLine := y + 1 }
  else
    let present := d.linePresent i y
    let d1 := d.sendVerdict i y present 0
    if present then d1.putCapIn i { c with nextLine := y + 1 }
    else
      let d2 := d1.putCapIn i { c with nextLine := y + 1, conceal := c.conceal ++ [y], lines := satAdd 32 c.lines 1 }
      if c.conceal = [] then d2.raise 25 else d2

/-- The next line of the current tick has fallen due; a follower waits for the senior's verdict (R240, R360). -/
def Dev.lineIsDue (d : Dev) (i : Nat) : Bool :=
  let c := d.capIn i
  let y := if c.opened then c.nextLine else 0
  c.st != .unconfigured && y < c.height && c.dueTime c.tick y ≤ d.cadence &&
    (!d.follows i || c.st == .stopped || c.verdicts.any fun v => v.1 == y)

/-- LINE_DUE (R197). -/
def Dev.lineDue (d : Dev) (i : Nat) : Dev :=
  if !d.lineIsDue i then d
  else if (d.capIn i).opened then (d.judgeLine i).fixRows i (d.capIn i).nextLine
  else (d.openTick i).fixRows i 0

/-- The bytes that the digest of R207 covers. -/
def Dev.presentBytes (d : Dev) (i : Nat) : List Byte :=
  (List.range 3).flatMap fun plane => (List.range ((d.capIn i).geom.rows plane)).flatMap fun y => (d.presentRow i plane y).flatMap (toLE 2)

/-- Every line of the tick has been judged, or none has to be. -/
def Dev.tickReady (d : Dev) (i : Nat) : Bool :=
  let c := d.capIn i
  c.st != .unconfigured && c.opened && (!c.cand || c.height ≤ c.nextLine)

/-- The two halves exchange the digest of a raster (R363): a partner's that came first is compared at once. -/
def Dev.shareDigest (d : Dev) (i mt : Nat) (dig : BitVec 64) : Dev :=
  if !(d.paired && d.twinnedInput i) then d
  else
    let d1 := d.emit (.twin 3 i mt (toLE 8 dig.toNat))
    match d1.twin.digests.find? fun q => q.1 == i && q.2.1 == mt with
    | some q =>
      let d2 := { d1 with twin := { d1.twin with digests := d1.twin.digests.erase q } }
      if q.2.2 == dig then d2 else { d2 with twin := { d2.twin with inMis := satAdd 8 d2.twin.inMis 1 } }.raise 36
    | none => { d1 with twin := { d1.twin with digests := d1.twin.digests ++ [(i, mt, dig)] } }

/-- The stamp of the raster that a message belongs to (R209): of the SDI raster that is arriving, be it discarded or not, or of its timestamp. -/
def Dev.ancStamp (d : Dev) (c : Cap) (p : AncPkt) : Nat :=
  if c.kind = 1 then (c.sdiSlot.bind fun s => (c.slotAt s).stamp).getD c.sdiStamp else d.rtpStamp c p.ts

/-- CAPTURE_OUTPUT_TICK (R199, R200, R207, R345, R562): the raster of tick k is presented whole, which its tap sees, and tick k + 1 is next. -/
def Dev.capTick (d : Dev) (i : Nat) : Dev :=
  let dz := if (d.capIn i).opened then d else d.lineDue i
  if !dz.tickReady i then dz
  else
    let d0 := dz.fixAll i
    let c := d0.capIn i
    let bs := d0.presentBytes i
    let dig := crc64 bs
    let shown := match c.src with | .slot s => s | .slate => c.slot
    let good := match c.src with | .slot s => if c.cand && c.conceal = [] && !(c.slotAt s).marked && !(c.slotAt s).bad then some s else c.good | .slate => c.good
    let c1 : Cap := { c with tick := c.tick + 1, opened := false, nextLine := 0, verdicts := [], digest := dig, slot := shown, good := good
                             ancWait := c.ancWait.filter fun p => decide (c.tick ≤ gridAtOrAfter c.outNum c.outDen (d0.ancStamp c p) + 1) }
    ((d0.tapUnit 1 i (some (c.mt c.tick)) bs false).putCapIn i c1).shareDigest i (c.mt c.tick) dig

/-! ## Ancillary data and audio -/

/-- The output grid point that an immediate splice takes (R209): the first one after the stamp of its message's raster, so that it follows from content (R36, log
entry 53). -/
def Cap.spliceNow (c : Cap) (stamp : Nat) : Nat := c.mt (gridIndex c.outNum c.outDen stamp + 1)

/-- One operation of a message (R208, R209). -/
def Dev.spliceOp (d : Dev) (i stamp : Nat) (o : SpliceOp) : Dev :=
  if o.opId = 0x0101 && 1 ≤ o.kind && o.kind ≤ 5 then
    let mt := if o.kind = 1 || o.kind = 3 then stamp + o.preRoll * 1000000 else if o.kind = 5 then 0 else (d.capIn i).spliceNow stamp
    (d.fedBy i).foldl (fun e n => e.spliceTo stamp o.kind o.eventId mt n) d
  else d.modCapIn i fun c => { c with ignored := satAdd 16 c.ignored 1 }

/-- The due time of the last line of a message's raster has passed, after which it no longer counts as received on a pair (R361). -/
def Dev.ancLate (d : Dev) (c : Cap) (p : AncPkt) : Bool :=
  d.paired && decide (c.dueTime (gridAtOrAfter c.outNum c.outDen (d.ancStamp c p)) (c.height - 1) < d.cadence)

/-- The packet arrived on the ancillary port of one of the input's paths (Table 6.4). -/
def Cap.hearsAnc (c : Cap) (a : NetAddr) : Bool :=
  a.udp == c.get 0x74 2 && ([false, true].any fun b => (!b || c.links == 2) && a.port == (c.pathAddr b).port && a.dst == (c.pathAddr b).dst)

/-- A message that counts as received is read (R208), with the stamp of its raster. -/
def Dev.readAncAt (d : Dev) (i stamp : Nat) (p : AncPkt) : Dev :=
  let c := d.capIn i
  if !p.scte then d
  else if !p.sumOk then d.putCapIn i { c with bad := satAdd 16 c.bad 1 }
  else p.ops.foldl (fun e o => e.spliceOp i stamp o) d
def Dev.readAnc (d : Dev) (i : Nat) (p : AncPkt) : Dev := d.readAncAt i (d.ancStamp (d.capIn i) p) p

/-- The messages of an SDI raster that waited for its stamp are read with it (R209, R360). -/
def Dev.readSdi (d : Dev) (i s stamp : Nat) : Dev :=
  let c := d.capIn i
  ((c.sdiWait.filter fun w => w.1 == s).map (·.2)).foldl (fun e p => e.readAncAt i stamp p) (d.putCapIn i { c with sdiWait := c.sdiWait.filter fun w => w.1 != s })

/-- The slot of an arriving SDI raster that has yet to get the senior's stamp. -/
def Dev.unstamped (d : Dev) (i : Nat) (c : Cap) : Option Nat := if d.follows i then c.sdiSlot.filter fun s => !(c.slotAt s).fixed else none

/-- An ancillary packet arrives (R189, R208): one copy of each sequence number counts; on the senior half of a pair it counts when it is in time, on the junior half once the
senior holds it (R361). A message of an SDI raster waits on the junior half for the raster's stamp (R360). -/
def Dev.ancRx (d : Dev) (i : Nat) (p : AncPkt) : Dev :=
  let c := d.capIn i
  if !c.rx || c.kind = 2 || (c.kind = 0 && (c.get 0x74 2 = 0 || !c.hearsAnc p.addr || c.ancSeen.contains p.seq)) then d
  else if c.kind = 1 then
    match d.unstamped i c with
    | some s => d.putCapIn i { c with sdiWait := c.sdiWait ++ [(s, p)] }
    | none => d.readAnc i p
  else
    let d0 := d.putCapIn i { c with ancSeen := c.ancSeen ++ [p.seq] }
    if d0.twinnedInput i && !d0.follows i && d0.ancLate c p then d0
    else
      let d1 := d0.sendMap i p.seq [1#8]
      if d1.follows i && !c.theirs.contains p.seq then d1.modCapIn i fun c => { c with ancWait := c.ancWait ++ [p] } else d1.readAnc i p

/-- The flows that forward a received audio packet (R412). -/
def Dev.audioFlows (d : Dev) (p : AudioPkt) : List Nat :=
  (d.flow.filter fun e => e.2.kind == 3 && e.2.get 0xA8 1 == p.port && e.2.get 0xB0 16 == p.dst && e.2.get 0x96 2 == p.udp).map (·.1)

/-- AUDIO_PACKET_RX (R190): the packet takes its media time and waits in every flow that receives it (R412). -/
def Dev.audioRx (d : Dev) (p : AudioPkt) : Dev :=
  (d.audioFlows p).foldl (fun e k => e.modFlowAt k fun f => { f with audio := f.audio ++ [(d.audioTime p.ts, p.bytes)] }) d

/-! ## The CAPTURE unit -/

/-- The geometry that a CAPTURE body names. -/
def Desc.capGeom (x : Desc) : Geom := ⟨x.get 0x28 2, x.get 0x2A 2, x.get 0x23 1 == 1⟩

/-- CAPTURE CONFIGURE (Table 6.4): the store is read and written, the slate read. -/
def capConfigureSpec (_ : Dev) (x : Desc) : OpSpec :=
  { len := 0x80, eff0 := true, idx := [(x.get 0x20 2, 192)], pf := true,
    mem := ⟨x.get 0x40 8, 4 * x.capGeom.slotSize, true, true⟩ :: optArea (x.get 0x48 8) x.capGeom.size true false }

/-- CAPTURE START and STOP: Table 6.4 reserves no byte, and they read INPUT alone. -/
def capStartSpec (d : Dev) (x : Desc) : OpSpec :=
  { len := 0x80, idx := [(x.get 0x20 2, 192)], pf := true, obj := x.get 0x20 2, twin := d.twinnedInput (x.get 0x20 2) }

/-- CAPTURE SUBST: INPUT, SUBST, SLATE_ADDR and FREEZE_TICKS are named. -/
def capSubstSpec (d : Dev) (x : Desc) : OpSpec :=
  { len := 0x80, rsv := [(0x22, 4), (0x27, 0x21), (0x50, 0x2C)], idx := [(x.get 0x20 2, 192)], pf := true, obj := x.get 0x20 2,
    twin := d.twinnedInput (x.get 0x20 2),
    mem := optArea (x.get 0x48 8) (d.capIn (x.get 0x20 2)).geom.size true false }

/-- A field of Table 6.4 is outside its range, or a rate is not permitted (R212 step 2). -/
def capBadField (x : Desc) : Bool :=
  let k := x.get 0x22 1
  let links := x.get 0x27 1
  let depth := x.get 0x24 1
  let w := x.get 0x28 2
  let h := x.get 0x2A 2
  let sync := x.get 0x3C 4
  let lane := x.get 0x78 2
  k > 2 || x.get 0x23 1 > 1 || !(depth == 8 || depth == 10 || depth == 12) || x.get 0x25 1 > 2 || x.get 0x26 1 > 1 ||
    !(match k with | 0 => links == 1 || links == 2 | 1 => links == 1 || links == 2 || links == 4 | _ => links == 0) ||
    w % 2 != 0 || w < 16 || w > 7680 || h < 16 || h > 4320 || (x.get 0x23 1 == 1 && h % 2 != 0) ||
    !ratePermitted (x.get 0x2C 4) (x.get 0x30 4) || !ratePermitted (x.get 0x34 4) (x.get 0x38 4) ||
    sync < 50000 || sync > 100000000 || x.get 0x40 8 % 4096 != 0 || (links == 1 && !zeroBytes x.bytes 0x60 16) ||
    x.get 0x76 1 > 127 || x.get 0x77 1 > 127 || (if k = 1 then lane % links != 0 || lane > 255 else lane != 0) || x.get 0x7A 2 > 10000

/-- Lanes that carry SDI (Table 6.1). -/
def sdiLane (l : Nat) : Bool := l < 32 || (128 ≤ l && l < 160)

/-- A format that Table 6.1 does not list (R189). -/
def capBadFormat (x : Desc) : Bool :=
  x.get 0x22 1 == 1 && (List.range (x.get 0x27 1)).any fun j => !sdiLane (x.get 0x78 2 + j)

/-- A raster beyond what the SDI links carry: one 11.88 Gb/s link carries 3,840 x 2,160 at 60 Hz, 10-bit 4:2:2 (R212 step 4, log entry 21). -/
def capBadGeometry (x : Desc) : Bool :=
  x.get 0x22 1 == 1 &&
    decide (x.get 0x27 1 * 3840 * 2160 * 60 * 10 * x.get 0x30 4 < x.get 0x28 2 * x.get 0x2A 2 * x.get 0x2C 4 * max 10 (x.get 0x24 1))

/-- The limits of R212 step 5, and a lane that is bound to another group (R479). -/
def Dev.capFull (d : Dev) (x : Desc) : Bool :=
  let i := x.get 0x20 2
  let k := x.get 0x22 1
  let others := d.cap.filter fun p => p.1 != i && p.2.st != .unconfigured
  (k == 0 && 128 ≤ (others.filter fun p => p.2.kind == 0).length) || (k == 1 && 64 ≤ (others.filter fun p => p.2.kind == 1).length) ||
    (k == 1 && others.any fun p => p.2.kind == 1 && p.2.get 0x78 2 < x.get 0x78 2 + x.get 0x27 1 && x.get 0x78 2 < p.2.get 0x78 2 + p.2.links) ||
    (k == 1 && (List.range (x.get 0x27 1)).any fun j =>
      match d.groupOf (x.get 0x78 2 + j) with
      | some (_, g) => !(g.proto == 2 && (d.capIn i).sdiLanes.contains (x.get 0x78 2 + j))
      | none => false)

/-- CAPTURE CONFIGURE (R205, R210, R212): the input is stopped, no slot holds a raster, its pending operations are aborted, and its SDI lanes are bound, each
as its own group (R479). DESIGN CHOICE (log entry 59): it receives from now on (R210 says only that a STOP ends that), and its first output tick is the first
grid point at or after the cadence clock. -/
def Dev.capConfigure (d : Dev) (x : Desc) : Dev :=
  let i := x.get 0x20 2
  let c := d.capIn i
  d.checked x [(c.st != .unconfigured && c.st != .stopped, stBusy), (capBadField x, stBadDesc), (capBadFormat x, stFormat),
      (capBadGeometry x, stGeometry), (d.capFull x, stCapacity)]
    (let d1 := d.abortPend fun p => p.unit == 1 && p.obj == i
     let c1 : Cap := { c with cfg := x.bytes, st := .stopped, rx := true, subst := x.get 0x26 1, freeze := x.get 0x7C 4, slateAdr := x.get 0x48 8,
                              slots := [], seenAt := [], opened := false, nextLine := 0, conceal := [], cand := false, everSeen := false, good := none,
                              run := 0, src := .slate, lastBad := [], slateRows := [], sdiSlot := none, verdicts := [], ancSeen := [], theirs := [], ancWait := [], shown := false, mapV := [], sdiWait := [],
                              tick := gridAtOrAfter (x.get 0x34 4) (x.get 0x38 4) d.cadence }
     let d2 := c.sdiLanes.foldl (fun e l => e.unbindGroup l) d1
     let d3 := c1.sdiLanes.foldl (fun e l => e.bindGroup l 1 2 []) d2
     ((d3.putCapIn i c1).cutTaps 1 i).complete x stOK 0)

/-- The media time of the last output tick that has opened. -/
def Cap.lastPoint (c : Cap) : Option Nat := if c.nextTick = 0 then none else some (c.mt (c.nextTick - 1))

/-- CAPTURE START, STOP and SUBST are accepted for a tick (R210, R212, R642). -/
def Dev.capHold (d : Dev) (x : Desc) : Dev :=
  let i := x.get 0x20 2
  let c := d.capIn i
  d.checked x [(c.st == .unconfigured || (x.op == 2 && d.dozing), stBusy), (x.op == 4 && x.get 0x26 1 > 1, stBadDesc)]
    (d.holdPend x i (passedBy c.lastPoint) (fun n => c.mt (c.nextTick + n)) (d.twinnedInput i))

/-! ## Registers (Table 6.5) -/

def capStateCode : CapState → Nat
  | .unconfigured => 0 | .stopped => 1 | .waiting => 2 | .normal => 3 | .freeze => 4 | .slate => 5

/-- A read of the CAP block. A stopped input that has presented a tick shows SLATE (Table 6.2). -/
def Dev.readCap (d : Dev) (off : Nat) : Nat :=
  let c := d.capIn d.capSel
  match off with
  | 0x00 => d.capSel
  | 0x04 => (if c.st == .stopped && c.shown then capStateCode .slate else capStateCode c.st) + fld 3 1 (b2n c.fmtErr) + fld 4 2 c.slot
  | 0x08 => c.rasters + fld 24 8 c.early
  | 0x0C => c.lines
  | 0x10 => b2n c.upA + fld 1 1 (b2n c.upB) + fld 16 16 c.late
  | 0x14 => c.bad + fld 16 16 c.ignored
  | 0x18 => (loW c.digest.toNat).toNat
  | 0x1C => (hiW c.digest.toNat).toNat
  | _ => 0

/-- A write of the CAP block (R214). -/
def Dev.writeCap (d : Dev) (who : Requester) (off : Nat) (v : Word) : Dev :=
  if isPf who && off == 0 then { d with capSel := bits v.toNat 0 8 } else d

/-! ## Meanings -/

/-- CAPTURE_CONFIGURE (R212). -/
def execCaptureConfigure (s : State) : Host.Outcome State Fault Refusal := ok s (s.dev.runUnit 1 1 capConfigureSpec Dev.capConfigure)

/-- CAPTURE_START (R210). -/
def execCaptureStart (s : State) : Host.Outcome State Fault Refusal := ok s (s.dev.runUnit 1 2 capStartSpec Dev.capHold)

/-- CAPTURE_STOP (R210). -/
def execCaptureStop (s : State) : Host.Outcome State Fault Refusal := ok s (s.dev.runUnit 1 3 capStartSpec Dev.capHold)

/-- CAPTURE_SUBST (R210). -/
def execCaptureSubst (s : State) : Host.Outcome State Fault Refusal := ok s (s.dev.runUnit 1 4 capSubstSpec Dev.capHold)

/-- ST2110_PACKET_RX (R191, R434). -/
def execSt2110PacketRx (i : Fin 192) (pathB : Bool) (pkt : VideoPkt) (s : State) : Host.Outcome State Fault Refusal :=
  ok s (s.dev.unlessDropped (· == pkt.addr) fun d => d.videoRx i pathB pkt)

/-- SDI_LINE_RX (R192). -/
def execSdiLineRx (i : Fin 192) (ln : SdiLine) (s : State) : Host.Outcome State Fault Refusal := ok s (s.dev.sdiRx i ln)

/-- PATH_DOWN_TIMEOUT (R191). -/
def execPathDownTimeout (i : Fin 192) (pathB : Bool) (s : State) : Host.Outcome State Fault Refusal := ok s (s.dev.pathTimeout i pathB)

/-- ANC_PACKET_RX (R208, R434). -/
def execAncPacketRx (i : Fin 192) (pkt : AncPkt) (s : State) : Host.Outcome State Fault Refusal := 
  ok s (s.dev.unlessDropped (fun a => (s.dev.capIn i).kind == 0 && a == pkt.addr) fun d => d.ancRx i pkt)

/-- AUDIO_PACKET_RX (R190, R434). -/
def execAudioPacketRx (pkt : AudioPkt) (s : State) : Host.Outcome State Fault Refusal := 
  ok s (s.dev.unlessDropped (· == ⟨pkt.port, pkt.dst, pkt.udp⟩) fun d => d.audioRx pkt)

/-- LINE_DUE (R197). -/
def execLineDue (i : Fin 192) (s : State) : Host.Outcome State Fault Refusal := ok s (s.dev.lineDue i)

/-- CAPTURE_OUTPUT_TICK (R200). -/
def execCaptureOutputTick (i : Fin 192) (s : State) : Host.Outcome State Fault Refusal := ok s (s.dev.capTick i)

end Sys2Proof.Machine
end

