-- ==== Sys2Proof/Machine/Pixel.lean ====
section
/-! DEFINITION. The compositor's pixel arithmetic: fetch, chroma resampling, conversion, scaling and blending (R220 to R233). Every function is of content
and layer state alone (R229). -/

namespace Sys2Proof.Machine

/-- A fetched pixel: three components in 12 bits, alpha in 10. -/
abbrev Apx := (Nat × Nat × Nat) × Nat

/-- Clamp an integer into 0 to hi. -/
def clampI (hi v : Int) : Nat := (max 0 (min hi v)).toNat

/-! ## Fields of a layer (Table 7.7) -/

def Layer.source (y : Layer) : Nat := y.get 0x24 1
def Layer.format (y : Layer) : Nat := y.get 0x25 1
def Layer.input (y : Layer) : Nat := y.get 0x26 2
def Layer.surf (y : Layer) : Nat := y.get 0x28 8
def Layer.pitch (y : Layer) : Nat := y.get 0x30 4
def Layer.srcX (y : Layer) : Nat := y.get 0x34 2
def Layer.srcY (y : Layer) : Nat := y.get 0x36 2
def Layer.srcW (y : Layer) : Nat := y.get 0x38 2
def Layer.srcH (y : Layer) : Nat := y.get 0x3A 2
def Layer.dstX (y : Layer) : Nat := y.get 0x3C 2
def Layer.dstY (y : Layer) : Nat := y.get 0x3E 2
def Layer.dstW (y : Layer) : Nat := y.get 0x40 2
def Layer.dstH (y : Layer) : Nat := y.get 0x42 2
def Layer.alpha (y : Layer) : Nat := y.get 0x44 2
def Layer.csc (y : Layer) : Nat := y.get 0x46 1
def Layer.hTaps (y : Layer) : Nat := y.get 0x66 1
def Layer.coefAddr (y : Layer) : Nat := y.get 0x68 8
def Layer.planeRows (y : Layer) : Nat := y.get 0x70 2
def Layer.scaled (y : Layer) : Bool := y.srcW != y.dstW || y.srcH != y.dstH
/-- The source is premultiplied: format 2, or 3 and 4 with PREMUL. -/
def Layer.premul (y : Layer) : Bool := y.format == 2 || ((y.format == 3 || y.format == 4) && y.get 0x47 1 == 1)

/-! ## Fetch (R221, R222) -/

/-- 8-bit and 2-bit alpha in 10 bits (R222). -/
def alpha8 (a : Nat) : Nat := a * 4 + a / 64
def alpha2 (a : Nat) : Nat := a * 341

/-- Pixel of an ARGB8888 or ARGB2101010 word, components R, G, B (Table 7.1). -/
def argb8 (w : Nat) : Apx := ((bits w 16 8 * 16, bits w 8 8 * 16, bits w 0 8 * 16), alpha8 (bits w 24 8))
def argb10 (w : Nat) : Apx := ((bits w 20 10 * 4, bits w 10 10 * 4, bits w 0 10 * 4), alpha2 (bits w 30 2))

/-- Chroma brought up horizontally: pixel x from the samples of a row (Table 7.2). -/
def upH (c : Nat → Nat) (last x : Nat) : Nat := if x % 2 = 0 then c (min last (x / 2)) else (c (min last (x / 2)) + c (min last (x / 2 + 1)) + 1) / 2

/-- Chroma brought up vertically: row y from the rows of a plane (Table 7.2). -/
def upV (c : Nat → Nat) (last y : Nat) : Nat :=
  let j := min last (y / 2)
  if y % 2 = 0 then (3 * c j + c (min last (y / 2 - 1)) + 2) / 4 else (3 * c j + c (min last (y / 2 + 1)) + 2) / 4

/-- A pixel of a planar source: `smp plane row index` reads a sample in 12 bits; horizontal first, then vertical (log entry 22). -/
def planarPixel (smp : Nat → Nat → Nat → Nat) (half : Bool) (lastC lastRow x y : Nat) : Apx :=
  let ch (plane : Nat) : Nat :=
    if half then upV (fun r => upH (smp plane r) lastC x) lastRow y else upH (smp plane (min lastRow y)) lastC x
  ((smp 0 y x, ch 1, ch 2), 1023)

/-- A pixel of a surface (Table 7.1, R221). DESIGN CHOICE (log entry 59): a planar surface's chroma plane is PITCH / 4 samples wide for the edges of R223. -/
def Dev.surfacePixel (d : Dev) (l : Layer) (x y : Nat) : Apx :=
  let p := l.pitch
  let word (o : Nat) : Nat := fieldLE (d.memRead (l.surf + y * p + o) 4) 0 4
  match l.format with
  | 1 => argb8 (word (4 * x))
  | 2 => argb8 (word (4 * x))
  | 3 => argb10 (word (4 * x))
  | 4 =>
    let v := fieldLE (d.memRead (l.surf + y * p + 8 * x) 8) 0 8
    ((bits v 0 10 * 4, bits v 16 10 * 4, bits v 32 10 * 4), bits v 48 10)
  | 7 => ((l.get 0x60 2, l.get 0x62 2, l.get 0x64 2), alpha8 (fieldLE (d.memRead (l.surf + y * p + x) 1) 0 1))
  | f =>
    let cp := roundUp (p / 2) 256
    let crows := if f = 6 then l.planeRows / 2 else l.planeRows
    let base (plane : Nat) : Nat := if plane = 0 then l.surf else l.surf + p * l.planeRows + (plane - 1) * cp * crows
    let smp (plane r i : Nat) : Nat :=
      bits (fieldLE (d.memRead (base plane + r * (if plane = 0 then p else cp) + 2 * i) 2) 0 2) 0 10 * 4
    planarPixel smp (f == 6) (p / 4 - 1) (crows - 1) x y

/-- A pixel of what a capture input presents (R217, R220, R223). -/
def Dev.capturePixel (d : Dev) (i x y : Nat) : Apx :=
  let g := (d.capIn i).geom
  planarPixel (fun plane r k => sample12 ((d.presentRow i plane r).getD k 0)) g.half (g.width 1 - 1) (g.rows 1 - 1) x y

/-- A pixel of a layer's source. -/
def Dev.layerPixel (d : Dev) (l : Layer) (x y : Nat) : Apx := if l.source = 0 then d.capturePixel l.input x y else d.surfacePixel l x y

/-! ## Scaling (R231, R232) -/

/-- Coefficient t of phase p of the built-in set for a tap count (R232): S3.12, 0 beyond the taps, and 4,096 in sum. The spec gives no numbers (log entry 16): those
before the last tap are free within -4,095 to 4,096. -/
def builtin (taps p t : Nat) : Int :=
  let free (k : Nat) : Int := max (-4095) (min 4096 (Config.builtinCoef taps p k))
  if taps ≤ t then 0
  else if t + 1 = taps then 4096 - ((List.range t).map free).sum
  else free t

/-- Coefficient t of phase p of a scaler: the built-in set, or one half of a table in device memory, which is read
again at each use (DESIGN CHOICE, log entry 59). -/
def Dev.coef (d : Dev) (table half taps p t : Nat) : Int :=
  if table = 0 then builtin taps p t else toSigned 16 (fieldLE (d.memRead (table + half + 16 * p + 2 * t) 2) 0 2)

/-- The first source index and the phase of destination index x: n destination samples from m (R231). -/
def scalePos (n m x : Nat) : Int × Nat :=
  let p : Int := ((2 * x + 1) * m * 32 / n : Nat) - 32
  (p / 64, (p % 64).toNat)

/-- A source index of the span, clamped into it. -/
def spanIndex (m : Nat) (i : Int) (taps t : Nat) : Nat := clampI ((m : Int) - 1) (i - (taps / 2 : Nat) + 1 + (t : Nat))

/-- One resampled value of N source samples, before the clamp. -/
def resample (cs : List Int) (vs : List Nat) : Int := ((cs.zip vs).foldl (fun s p => s + p.1 * (p.2 : Int)) 0 + 2048) / 4096

/-- Resample a pixel sequence at index x: every component, alpha included. -/
def scalePx (coefs : Nat → Nat → Int) (taps n m x : Nat) (src : Nat → Apx) : Apx :=
  let (i, ph) := scalePos n m x
  let cs := (List.range taps).map (coefs ph)
  let ps := (List.range taps).map fun t => src (spanIndex m i taps t)
  let one (f : Apx → Nat) (hi : Int) : Nat := clampI hi (resample cs (ps.map f))
  ((one (·.1.1) 4095, one (·.1.2.1) 4095, one (·.1.2.2) 4095), one (·.2) 1023)

/-! ## Conversion (R224, R226) -/

/-- The matrix and offsets of a preset, rows Y, Cb, Cr. -/
def preset : Nat → List Int × List Int
  | 1 => ([1048, 2057, 400, -605, -1187, 1792, 1792, -1501, -291], [256, 2048, 2048])
  | 2 => ([745, 2507, 253, -411, -1381, 1792, 1792, -1628, -164], [256, 2048, 2048])
  | 3 => ([921, 2376, 208, -500, -1292, 1792, 1792, -1648, -144], [256, 2048, 2048])
  | _ => ([4096, 0, 0, 0, 4096, 0, 0, 0, 4096], [0, 0, 0])

/-- The matrix and offsets of a layer. -/
def Layer.matrix (l : Layer) : List Int × List Int :=
  if l.csc = 4 then ((List.range 9).map fun t => toSigned 16 (l.get (0x48 + 2 * t) 2), (List.range 3).map fun t => toSigned 16 (l.get (0x5A + 2 * t) 2))
  else preset l.csc

/-- One converted component (R224). -/
def convert (c : List Int) (o : Int) (premul : Bool) (r : Nat) (s : Nat × Nat × Nat) (a : Nat) : Nat :=
  let v := (c.getD (3 * r) 0 * s.1 + c.getD (3 * r + 1) 0 * s.2.1 + c.getD (3 * r + 2) 0 * s.2.2 + 2048) / 4096
  clampI 4095 (if premul then v + (o * a + 511) / 1023 else v + o)

/-- A pixel converted to Y, Cb, Cr; format 7 bypasses conversion (R225). -/
def Layer.convertPx (l : Layer) (p : Apx) (a : Nat) : Px :=
  if l.format = 7 then p.1
  else
    let (c, o) := l.matrix
    (convert c (o.getD 0 0) l.premul 0 p.1 a, convert c (o.getD 1 0) l.premul 1 p.1 a, convert c (o.getD 2 0) l.premul 2 p.1 a)

/-! ## Blending (R227) -/

/-- One component blended over what lies beneath. -/
def blend (premul : Bool) (a l s d : Nat) : Nat :=
  let w := a * l
  if premul then min 4095 ((l * 1023 * s + (1046529 - w) * d + 523264) / 1046529)
  else (w * s + (1046529 - w) * d + 523264) / 1046529

/-- A layer's pixel over the pixel beneath; layer 0 is opaque (R222). -/
def Layer.over (l : Layer) (index : Nat) (p : Apx) (b : Px) : Px :=
  let a := if index = 0 then 1023 else p.2
  let la := if index = 0 then 1023 else l.alpha
  let s := l.convertPx p a
  (blend l.premul a la s.1 b.1, blend l.premul a la s.2.1 b.2.1, blend l.premul a la s.2.2 b.2.2)

/-- The layer's pixel at position (x, y) of its destination rectangle. DESIGN CHOICE (log entry 59): the source's components are scaled before colour conversion. -/
def Dev.layerAtDst (d : Dev) (l : Layer) (x y : Nat) : Apx :=
  if l.scaled then
    let vtab := if l.reduced then 0 else l.coefAddr
    scalePx (d.coef l.coefAddr 0 l.hTaps) l.hTaps l.dstW l.srcW x fun sx =>
      scalePx (d.coef vtab 1024 l.vTaps) l.vTaps l.dstH l.srcH y fun sy => d.layerPixel l (l.srcX + sx) (l.srcY + sy)
  else d.layerPixel l (l.srcX + x) (l.srcY + y)

/-- Row y of a scene: the background with every enabled layer over it (R228). -/
def Dev.composeRow (d : Dev) (s : Scene) (layers : List Layer) (y : Nat) : List Px :=
  (List.range s.width).map fun x =>
    (layers.zipIdx).foldl (fun b e =>
      let l := e.1
      if l.enabled && l.dstX ≤ x && x < l.dstX + l.dstW && l.dstY ≤ y && y < l.dstY + l.dstH then
        l.over e.2 (d.layerAtDst l (x - l.dstX) (y - l.dstY)) b
      else b) (s.get 0x34 2, s.get 0x36 2, s.get 0x38 2)

/-! ## Outputs (R230, R231, Table 7.2) -/

/-- Row v of an output of a scene from the composed rows, before its chroma is reduced. -/
def Dev.outputRow (d : Dev) (s : Scene) (rows : List (List Px)) (o : List Byte) (v : Nat) : List Px :=
  let at_ (x y : Nat) : Apx := (((rows.getD y []).getD x (0, 0, 0)), 1023)
  if outW o = s.width && outH o = s.height then rows.getD v []
  else
    let ht := byteAt o 6
    let vt := byteAt o 7
    let table := fieldLE o 0x10 8
    (List.range (outW o)).map fun x =>
      (scalePx (d.coef table 0 ht) ht (outW o) s.width x fun sx =>
        scalePx (d.coef table 1024 vt) vt (outH o) s.height v fun sy => at_ sx sy).1

/-- A chroma row reduced horizontally (Table 7.2). -/
def downH (cs : List Nat) : List Nat :=
  (List.range (cs.length / 2)).map fun i =>
    let g (k : Nat) : Nat := cs.getD (min k (cs.length - 1)) 0
    (g (2 * i - 1) + 2 * g (2 * i) + g (2 * i + 1) + 2) / 4

/-- Two reduced chroma rows reduced vertically. -/
def downV (a b : List Nat) : List Nat := (a.zip b).map fun p => (p.1 + p.2 + 1) / 2

end Sys2Proof.Machine
end

