-- ==== Sys2Proof/Machine/Blit.lean ====
section
/-! DEFINITION. The blit engines: the BLIT unit, surfaces, chunks, conversion, gaps and watermarks (chapter 8). -/

namespace Sys2Proof.Machine

/-! ## Surfaces (R221, Table 7.1) -/

/-- One side of a job: a surface and the corner of the rectangle in it. -/
structure Surf where
  fmt   : Nat
  addr  : Nat
  pitch : Nat
  rows  : Nat
  x     : Nat
  y     : Nat
  premul : Bool
  deriving DecidableEq, Repr

def Surf.planar (s : Surf) : Bool := s.fmt == 5 || s.fmt == 6
/-- Bytes of a pixel, or of a sample of a planar format. -/
def Surf.bpp (s : Surf) : Nat := match s.fmt with | 1 => 4 | 2 => 4 | 3 => 4 | 4 => 8 | 5 => 2 | 6 => 2 | 7 => 1 | _ => 0
def Surf.planes (s : Surf) : Nat := if s.planar then 3 else 1
def Surf.pitchOf (s : Surf) (plane : Nat) : Nat := if plane = 0 then s.pitch else roundUp (s.pitch / 2) 256
/-- Rows of a plane for a number of luma rows. -/
def Surf.rowsOf (s : Surf) (plane n : Nat) : Nat := if plane != 0 && s.fmt = 6 then n / 2 else n
def Surf.base (s : Surf) (plane : Nat) : Nat :=
  if plane = 0 then s.addr else s.addr + s.pitch * s.rows + (plane - 1) * (s.pitchOf 1 * s.rowsOf 1 s.rows)
/-- Samples of a row of a plane for a number of luma samples. -/
def Surf.cols (plane n : Nat) : Nat := if plane = 0 then n else n / 2
/-- Address of the first byte of row j of the rectangle in a plane. -/
def Surf.rowAddr (s : Surf) (plane j : Nat) : Nat :=
  s.base plane + (s.rowsOf plane s.y + j) * s.pitchOf plane + Surf.cols plane s.x * s.bpp
def Surf.rowLen (s : Surf) (plane w : Nat) : Nat := Surf.cols plane w * s.bpp
/-- The bounding byte range of a w x h rectangle over all planes (R253). -/
def Surf.extent (s : Surf) (w h : Nat) : Nat × Nat :=
  let ps := List.range s.planes
  let a := (ps.map fun p => s.rowAddr p 0).foldl min (s.rowAddr 0 0)
  let e := (ps.map fun p => s.rowAddr p (s.rowsOf p h - 1) + s.rowLen p w).foldl max 0
  (a, max 1 (e - a))

/-! ## Fields (Table 8.2) -/

def Desc.bW (x : Desc) : Nat := x.get 0x28 2
def Desc.bH (x : Desc) : Nat := x.get 0x2A 2
def Desc.xdir (x : Desc) : Bool := x.get 0x21 1 == 1
def Desc.ydir (x : Desc) : Bool := x.get 0x22 1 == 1
/-- A format is premultiplied: 2, or 3 and 4 by a bit of PREMUL (R259). -/
def isPremul (fmt : Nat) (bit : Bool) : Bool := fmt == 2 || ((fmt == 3 || fmt == 4) && bit)
def Desc.bSrc (x : Desc) : Surf :=
  ⟨x.get 0x23 1, x.get 0x30 8, x.get 0x38 4, x.get 0x3C 2, x.get 0x40 2, x.get 0x42 2, isPremul (x.get 0x23 1) (bitN (x.get 0x25 1) 0)⟩
def Desc.bDst (x : Desc) : Surf :=
  ⟨x.get 0x24 1, x.get 0x48 8, x.get 0x50 4, x.get 0x54 2, x.get 0x44 2, x.get 0x46 2, isPremul (x.get 0x24 1) (bitN (x.get 0x25 1) 1)⟩

/-- The descriptor of a BLIT operation (R249 to R251, R253). -/
def blitSpec (_ : Dev) (x : Desc) : OpSpec :=
  let s := x.bSrc.extent x.bW x.bH
  let t := x.bDst.extent x.bW x.bH
  { len := 0x80, eff0 := true, rsv := [(0x27, 1), (0x3E, 2), (0x56, 2), (0x60, 32)],
    mem := (if x.op = 1 then [] else [⟨s.1, s.2, true, false⟩]) ++ [⟨t.1, t.2, false, true⟩] }

/-- A surface field is outside its range. -/
def badSurf (s : Surf) (minPitch : Nat) : Bool :=
  s.fmt = 0 || 7 < s.fmt || s.addr % 256 != 0 || s.pitch % 256 != 0 || s.pitch < minPitch || 4194304 < s.pitch || (!s.planar && s.rows != 0)

/-- Bits of FILL that a format uses. -/
def fillBits (fmt : Nat) : Nat := match fmt with | 4 => 64 | 5 => 48 | 6 => 48 | 7 => 8 | _ => 32

/-- BAD_DESCRIPTOR of R253 step 1. -/
def blitBad (x : Desc) : Bool :=
  let f := x.op = 1
  let p := x.get 0x25 1
  let alpha (fmt : Nat) : Bool := fmt == 3 || fmt == 4
  x.get 0x20 1 > 3 || x.get 0x21 1 > 1 || x.get 0x22 1 > 1 || badSurf x.bDst 256 || (!f && badSurf x.bSrc 0) || (f && (x.get 0x23 1 != 0 || !zeroBytes x.bytes 0x30 14 ||
    !zeroBytes x.bytes 0x40 4)) || p > 3 || (bitN p 0 && !alpha (x.get 0x23 1)) || (bitN p 1 && !alpha (x.get 0x24 1)) || x.get 0x26 1 > 31 ||
    x.bW = 0 || x.bW > 32767 || x.bH = 0 || x.bH > 32767 || x.get 0x2C 2 > x.bH || (f && 2 ^ fillBits (x.get 0x24 1) ≤ x.get 0x58 8)

/-- The pairs of Table 8.3. -/
def convertOk (s t : Nat) : Bool := t == 7 || (s ≤ 3 && t ≤ 3) || (4 ≤ s && s ≤ 6 && 4 ≤ t && t ≤ 6)

/-- REJECTED_FORMAT of R253 step 2. -/
def blitFormat (x : Desc) : Bool :=
  (x.op == 2 && x.get 0x23 1 != x.get 0x24 1) || (x.op == 3 && !convertOk (x.get 0x23 1) (x.get 0x24 1))

/-- A rectangle that its surface does not hold. -/
def badRect (s : Surf) (w h : Nat) : Bool :=
  s.pitch < (s.x + w) * s.bpp || (s.planar && (s.rows < s.y + h || s.x % 2 = 1 || w % 2 = 1)) || (s.fmt == 6 && (s.y % 2 = 1 || h % 2 = 1))

/-- REJECTED_GEOMETRY of R253 step 3. -/
def blitGeometry (x : Desc) : Bool :=
  let s := x.bSrc.extent x.bW x.bH
  let t := x.bDst.extent x.bW x.bH
  badRect x.bDst x.bW x.bH || (x.op != 1 && badRect x.bSrc x.bW x.bH) || (x.op == 3 && s.1 < t.1 + t.2 && t.1 < s.1 + s.2)

/-- The engine starts the next job that waits for it. -/
def Blit.next (b : Blit) : Blit :=
  match b.queue with
  | x :: xs => { b with queue := xs, job := some x, row := 0, chunk := 0, moved := 0, gapEnd := none, rows := 0 }
  | [] => { b with job := none, gapEnd := none }

/-- A checked job joins its engine (R252). -/
def Dev.blitAccept (d : Dev) (x : Desc) : Dev :=
  d.checked x [(blitBad x, stBadDesc), (blitFormat x, stFormat), (blitGeometry x, stGeometry)]
    (d.modEngine (x.get 0x20 1) fun b =>
      let b1 := { b with queue := b.queue ++ [x] }
      if b.job.isNone then b1.next else b1)

/-! ## Chunks (R254, R255) -/

/-- A chunk: plane, row of the plane within the rectangle, byte offset in that row, bytes. -/
structure Chunk where
  plane : Nat
  row   : Nat
  off   : Nat
  len   : Nat
  deriving DecidableEq, Repr

/-- The parts of [a, a + n) that lie within one 256-byte block each, as offsets and lengths. -/
def cutBlocks (a n : Nat) : List (Nat × Nat) :=
  if n = 0 then [] else
    (List.range ((a + n - 1) / 256 - a / 256 + 1)).map fun k =>
      let lo := max a ((a / 256 + k) * 256)
      let hi := min (a + n) ((a / 256 + k + 1) * 256)
      (lo - a, hi - lo)

/-- The plane rows that rectangle row y writes, Y, Cb, Cr; in format 6 a chroma row goes with the luma row of its pair that is processed second. -/
def Desc.planeRows (x : Desc) (y : Nat) : List (Nat × Nat) :=
  match x.get 0x24 1 with
  | 5 => [(0, y), (1, y), (2, y)]
  | 6 => if (y % 2 == 1) != x.ydir then [(0, y), (1, y / 2), (2, y / 2)] else [(0, y)]
  | _ => [(0, y)]

/-- The chunks of row r in processing order. -/
def Desc.chunks (x : Desc) (r : Nat) : List Chunk :=
  let y := if x.ydir then x.bH - 1 - r else r
  (x.planeRows y).flatMap fun p =>
    let cs := (cutBlocks (x.bDst.rowAddr p.1 p.2) (x.bDst.rowLen p.1 x.bW)).map fun c => Chunk.mk p.1 p.2 c.1 c.2
    if x.xdir then cs.reverse else cs

/-! ## Conversion (R259) -/

/-- The offset of the sample that a plane row holds at index i, clamped to the rectangle. -/
def clampTo (n i : Nat) : Nat := min (n - 1) i

/-- A 10-bit sample of a planar source. -/
def Dev.planarSample (d : Dev) (s : Surf) (plane row i : Nat) : Nat :=
  bits (fieldLE (d.memRead (s.rowAddr plane row + 2 * i) 2) 0 2) 0 10

/-- Pixel (x, y) of a w x h source rectangle, expanded to 10 bits and 4:4:4 (steps 1 and 2). -/
def Dev.blitPixel (d : Dev) (s : Surf) (w h x y : Nat) : Apx :=
  let word := fieldLE (d.memRead (s.rowAddr 0 y + s.bpp * x) s.bpp) 0 s.bpp
  match s.fmt with
  | 1 => ((alpha8 (bits word 16 8), alpha8 (bits word 8 8), alpha8 (bits word 0 8)), alpha8 (bits word 24 8))
  | 2 => ((alpha8 (bits word 16 8), alpha8 (bits word 8 8), alpha8 (bits word 0 8)), alpha8 (bits word 24 8))
  | 3 => ((bits word 20 10, bits word 10 10, bits word 0 10), alpha2 (bits word 30 2))
  | 4 => ((bits word 0 10, bits word 16 10, bits word 32 10), bits word 48 10)
  | 7 => ((0, 0, 0), alpha8 word)
  | _ => planarPixel (d.planarSample s) (s.fmt == 6) (w / 2 - 1) (s.rowsOf 1 h - 1) x y

/-- Premultiply and unpremultiply (step 3). -/
def premulOne (a c : Nat) : Nat := (c * a + 511) / 1023
def unpremulOne (a c : Nat) : Nat := if a = 0 then 0 else min 1023 ((c * 1023 + a / 2) / a)

/-- A pixel in the destination's alpha mode. -/
def setAlphaMode (src dst : Bool) (p : Apx) : Apx :=
  let all (f : Nat → Nat) : Apx := ((f p.1.1, f p.1.2.1, f p.1.2.2), p.2)
  if src == dst then p else if dst then all (premulOne p.2) else all (unpremulOne p.2)

/-- A 10-bit value reduced to a width with largest value m (step 5). -/
def narrow (m v : Nat) : Nat := (v * m + 511) / 1023

/-- The bytes of a packed destination pixel. -/
def packPixel (fmt : Nat) (p : Apx) : List Byte :=
  let c (i : Nat) : Nat := match i with | 0 => p.1.1 | 1 => p.1.2.1 | _ => p.1.2.2
  match fmt with
  | 3 => toLE 4 (c 2 + c 1 * 2 ^ 10 + c 0 * 2 ^ 20 + narrow 3 p.2 * 2 ^ 30)
  | 4 => toLE 2 (c 0) ++ toLE 2 (c 1) ++ toLE 2 (c 2) ++ toLE 2 p.2
  | 7 => toLE 1 (narrow 255 p.2)
  | _ => toLE 1 (narrow 255 (c 2)) ++ toLE 1 (narrow 255 (c 1)) ++ toLE 1 (narrow 255 (c 0)) ++ toLE 1 (narrow 255 p.2)

/-- A pixel of the source in the destination's alpha mode. -/
def Dev.blitAt (d : Dev) (x : Desc) (px py : Nat) : Apx :=
  setAlphaMode x.bSrc.premul x.bDst.premul (d.blitPixel x.bSrc x.bW x.bH px py)

/-- One chroma component. -/
def chromaOf (plane : Nat) (p : Apx) : Nat := if plane = 1 then p.1.2.1 else p.1.2.2

/-- A chroma sample of the destination: the down filters of Table 7.2 (step 4). -/
def Dev.blitChroma (d : Dev) (x : Desc) (plane i j : Nat) : Nat :=
  let line (y : Nat) : Nat :=
    let g (k : Nat) : Nat := chromaOf plane (d.blitAt x (clampTo x.bW k) (clampTo x.bH y))
    (g (2 * i - 1) + 2 * g (2 * i) + g (2 * i + 1) + 2) / 4
  if x.get 0x24 1 = 6 then (line (2 * j) + line (2 * j + 1) + 1) / 2 else line j

/-- The bytes of sample or pixel i of plane row j of a CONVERT. -/
def Dev.convertedSample (d : Dev) (x : Desc) (plane j i : Nat) : List Byte :=
  if x.bDst.planar then toLE 2 (if plane = 0 then (d.blitAt x i j).1.1 else d.blitChroma x plane i j)
  else packPixel (x.get 0x24 1) (d.blitAt x i j)

/-- The bytes that a chunk writes (R256). -/
def Dev.chunkBytes (d : Dev) (x : Desc) (c : Chunk) : List Byte :=
  let bpp := x.bDst.bpp
  match x.op with
  | 1 =>
    let pixel := toLE bpp (if x.bDst.planar then bits (x.get 0x58 8) (16 * c.plane) 16 else x.get 0x58 8)
    (List.range (c.len / bpp)).flatMap fun _ => pixel
  | 2 => d.memRead (x.bSrc.rowAddr c.plane c.row + c.off) c.len
  | _ => (List.range (c.len / bpp)).flatMap fun k => d.convertedSample x c.plane c.row (c.off / bpp + k)

/-- The source bytes that pixel (px, py) needs: its own, and the chroma samples that the up filters read. -/
def pixelNeeds (s : Surf) (w h : Nat) (luma chroma : Bool) (px py : Nat) : List (Nat × Nat) :=
  if !s.planar then [(s.rowAddr 0 py + s.bpp * px, s.bpp)]
  else
    let cols := if px % 2 = 0 then [px / 2] else [px / 2, clampTo (w / 2) (px / 2 + 1)]
    let rows := if s.fmt = 5 then [py] else if py % 2 = 0 then [py / 2, py / 2 - 1] else [py / 2, clampTo (h / 2) (py / 2 + 1)]
    (if luma then [(s.rowAddr 0 py + 2 * px, 2)] else []) ++
      (if chroma then [1, 2].flatMap fun plane => rows.flatMap fun r => cols.map fun i => (s.rowAddr plane r + 2 * i, 2) else [])

/-- The source bytes that a chunk needs (R265). -/
def Desc.chunkNeeds (x : Desc) (c : Chunk) : List (Nat × Nat) :=
  let t := x.bDst
  let idx := (List.range (c.len / t.bpp)).map (c.off / t.bpp + ·)
  match x.op with
  | 1 => []
  | 2 => [(x.bSrc.rowAddr c.plane c.row + c.off, c.len)]
  | _ =>
    if t.fmt = 7 && x.bSrc.planar then []
    else if !t.planar then idx.flatMap fun i => pixelNeeds x.bSrc x.bW x.bH true true i c.row
    else if c.plane = 0 then idx.flatMap fun i => pixelNeeds x.bSrc x.bW x.bH true false i c.row
    else idx.flatMap fun i =>
      (if t.fmt = 6 then [2 * c.row, 2 * c.row + 1] else [c.row]).flatMap fun y =>
        [2 * i - 1, 2 * i, 2 * i + 1].flatMap fun k => pixelNeeds x.bSrc x.bW x.bH false true (clampTo x.bW k) y

/-! ## Running a job -/

/-- The job of an engine ends ABORTED or INTERNAL (R265, R266). -/
def Dev.blitFail (d : Dev) (e : Nat) (x : Desc) (status : Nat) : Dev :=
  ((d.modEngine e fun b => { b.next with aborts := (b.aborts + 1) % 2 ^ 32 }).complete x status 0).raise 29

/-- The watermark post (R262). -/
def Dev.watermark (d : Dev) (x : Desc) (rows : Nat) : Dev :=
  if x.get 0x2C 2 != 0 && rows = x.get 0x2C 2 && x.notify != 0xFFFF && !x.notifyErr then d.postBy x.path x.notify (flagMask (x.get 0x26 1)) else d

/-- One chunk of the job in flight on engine e (R256, R260). -/
def Dev.blitChunk (d : Dev) (e : Nat) : Dev :=
  let b := d.engine e
  match b.job with
  | none => d
  | some x =>
    if b.gapEnd.isSome || d.ctl.islBusy == some (24 + e / 2) then d
    else
      let cs := x.chunks b.row
      match cs[b.chunk]? with
      | none => d
      | some c =>
        if (x.chunkNeeds c).any fun r => d.poisoned r.1 r.2 then d.blitFail e x stInternal
        else
          let d1 := d.memWrite (x.bDst.rowAddr c.plane c.row + c.off) (d.chunkBytes x c)
          let lastOfRow := decide (cs.length ≤ b.chunk + 1)
          let b1 := { b with moved := b.moved + 1, chunk := if lastOfRow then 0 else b.chunk + 1,
                             row := if lastOfRow then b.row + 1 else b.row, rows := if lastOfRow then b.row + 1 else b.rows }
          let gap := (b.moved + 1) % 16 = 0 && x.get 0x2E 2 != 0
          let b2 := { b1 with gapEnd := if gap then some (d.ctl.ticks + 3 * x.get 0x2E 2) else none }
          if !lastOfRow then d1.putEngine e b2
          else if b1.row < x.bH then (d1.putEngine e b2).watermark x b1.row
          else (((d1.watermark x b1.row).putEngine e { b1.next with jobs := (b1.jobs + 1) % 2 ^ 32 }).complete x stOK 0)

/-- A gap ends (R260). -/
def Dev.gapExpiry (d : Dev) (e : Nat) : Dev :=
  let b := d.engine e
  match b.gapEnd with
  | some t => if t ≤ d.ctl.ticks then d.putEngine e { b with gapEnd := none } else d
  | none => d

/-- Every job of some engines ends ABORTED (R266, resets H, F and I): jobs in flight, jobs waiting and descriptors not yet taken. BLITe_ROW, which survives no
reset (Table 8.6), reads 0. -/
def Dev.blitAbort (d : Dev) (es : List Nat) : Dev :=
  let mine (x : Desc) : Bool := es.contains (x.get 0x20 1 % 4)
  let waiting := (d.unitQueue 3).filter mine
  let d1 := es.foldl (fun f e =>
    (match (f.engine e).job with | some x => x :: (f.engine e).queue | none => []).foldl (fun g x => g.blitFail e x stAborted) f)
    (d.putUnitQueue 3 ((d.unitQueue 3).filter fun x => !mine x))
  let d2 := waiting.foldl (fun f x => (f.modEngine (x.get 0x20 1 % 4) fun b => { b with aborts := (b.aborts + 1) % 2 ^ 32 }).complete x stAborted 0 |>.raise 29) d1
  es.foldl (fun f e => f.modEngine e fun b => { b with rows := 0 }) d2

/-- The jobs of all four engines end (resets H and F). -/
def Dev.blitAbortAll (d : Dev) : Dev := d.blitAbort [0, 1, 2, 3]

/-! ## Registers (Table 8.4) -/

/-- A read of the BLIT block. -/
def Dev.readBlit (d : Dev) (off : Nat) : Nat :=
  if 0x40 ≤ off then 0
  else
    let e := off / 0x10
    let b := d.engine e
    match off % 0x10 with
    | 0 => b2n b.job.isSome + fld 8 7 (b.queue.length + ((d.unitQueue 3).filter fun x => x.get 0x20 1 == e).length)
    | 4 => b.rows
    | 8 => b.jobs
    | 0xC => b.aborts
    | _ => 0

/-! ## Meanings -/

/-- BLIT_FILL (R249). -/
def execBlitFill (s : State) : Host.Outcome State Fault Refusal := ok s (s.dev.runUnit 3 1 blitSpec Dev.blitAccept)

/-- BLIT_COPY (R249). -/
def execBlitCopy (s : State) : Host.Outcome State Fault Refusal := ok s (s.dev.runUnit 3 2 blitSpec Dev.blitAccept)

/-- BLIT_CONVERT (R249, R258). -/
def execBlitConvert (s : State) : Host.Outcome State Fault Refusal := ok s (s.dev.runUnit 3 3 blitSpec Dev.blitAccept)

/-- BLIT_CHUNK (R254). -/
def execBlitChunk (e : Fin 4) (s : State) : Host.Outcome State Fault Refusal := ok s (s.dev.blitChunk e)

/-- BURST_GAP_EXPIRY (R260). -/
def execBurstGapExpiry (e : Fin 4) (s : State) : Host.Outcome State Fault Refusal := ok s (s.dev.gapExpiry e)

end Sys2Proof.Machine
end

