-- ==== Sys2Proof/Machine/Messages.lean ====
section
/-! DEFINITION. Messages of the cascade ring: sending, acknowledgement, retries and the receive ring (R508, R509, R522). -/

namespace Sys2Proof.Machine

/-- Fields of the CONFIGURE descriptor (Table 17.3). -/
def Casc.breakTicks (c : Casc) : Nat := c.get 0x24 2 * 3000
def Casc.rxThread (c : Casc) : Nat := c.get 0x26 2
def Casc.rxAddr (c : Casc) : Nat := c.get 0x30 8
def Casc.peerAddr (c : Casc) : Nat := c.get 0x38 8

/-- A message of class 0 or 4 leaves, on ring A (log entry 56). -/
def Dev.sendMsg (d : Dev) (m : CascMsg) : Dev := d.cascPut false (d.ownFrame m.cls (some m.dest) m.seq m.role m.bytes)

/-- A message of class 0 or 4 is sent for the first time; its descriptor, if it has one, completes with its acknowledgement. -/
def Dev.sendControl (d : Dev) (x : Desc) (cls dest : Nat) (role : CascRole) (bytes : List Byte) : Dev :=
  let key := dest * 8 + cls
  let n := d.casc.seq.get 0 key
  let m : CascMsg := { d := x, role := role, cls := cls, dest := dest, seq := n, at_ := d.ctl.ticks, bytes := bytes }
  { d with casc := { d.casc with seq := d.casc.seq.put 0 key (n + 1), out := d.casc.out ++ [m] } }.sendMsg m

/-- The wait for an acknowledgement: 50 us and 240 ns for each hop of the map. -/
def Casc.ackTicks (c : Casc) : Nat := 150000 + 720 * c.map.length

/-- One waiting message that has had no acknowledgement: sent again up to three times, then given up. -/
def Dev.retryMsg (d : Dev) (m : CascMsg) : Dev :=
  if m.at_ + d.casc.ackTicks ≤ d.ctl.ticks then
    if m.tries < 3 then
      { d with casc := { d.casc with retries := satAdd 16 d.casc.retries 1, out := d.casc.out ++ [{ m with tries := m.tries + 1, at_ := d.ctl.ticks }] } }.sendMsg m
    else d.complete m.d stTimeout 0
  else { d with casc := { d.casc with out := d.casc.out ++ [m] } }

/-- All waiting messages are looked at. -/
def Dev.ackTimeouts (d : Dev) : Dev := d.casc.out.foldl Dev.retryMsg { d with casc := { d.casc with out := [] } }

/-- An acknowledgement: the message is done. -/
def Dev.ackRx (d : Dev) (src cls seq : Nat) : Dev :=
  let sel (m : CascMsg) : Bool := m.dest == src && m.cls == cls && m.seq == seq
  (d.casc.out.filter sel).foldl (fun e m => e.complete m.d stOK 0) { d with casc := { d.casc with out := d.casc.out.filter fun m => !sel m } }

/-- A record of the receive ring: 256 places of 256 bytes, the oldest overwritten (R522). `fr.time` is the media time of the message's receipt. -/
def Dev.rxRecord (d : Dev) (fr : CascFrame) : Dev :=
  let bs := toLE 2 fr.src ++ toLE 1 fr.cls ++ toLE 1 fr.payload.length ++ toLE 4 fr.seq ++ toLE 8 fr.time ++ fr.payload
  { d with casc := { d.casc with rxIdx := (d.casc.rxIdx + 1) % 256 } }.memWrite (d.casc.rxAddr + d.casc.rxIdx * 256) bs

end Sys2Proof.Machine
end

