-- ==== Sys2Proof/Machine/Gates.lean ====
section
/-! DEFINITION. Gate lists of a port (R441 to R443). -/

namespace Sys2Proof.Machine

/-- The position in the cycle at a time (R441); a step back of the counter can put it before the start. -/
def GateList.pos (g : GateList) (t : Nat) : Nat := (((t : Int) - (g.start : Int)) % ((max g.cycle 1 : Nat) : Int)).toNat

/-- The segments of one cycle: mask and end position. The last entry lasts to the cycle's end, and what lies beyond it is cut. -/
def segments (cycle : Nat) : Nat → List (Nat × Nat) → List (Nat × Nat)
  | _, [] => []
  | from_, [(m, _)] => if from_ < cycle then [(m, cycle)] else []
  | from_, (m, i) :: rest => if cycle ≤ from_ + i then (if from_ < cycle then [(m, cycle)] else []) else (m, from_ + i) :: segments cycle (from_ + i) rest

/-- The mask in force at a time; a list without entries opens every gate (R445). -/
def GateList.maskAt (g : GateList) (t : Nat) : Nat :=
  if g.entries.isEmpty then 255
  else match (segments g.cycle 0 g.entries).find? fun s => decide (g.pos t < s.2) with
    | some s => s.1
    | none => 255

/-- The first moment from time t, within two cycles, at which the gate of class c is closed. -/
def GateList.closesAt (g : GateList) (c t : Nat) : Option Nat :=
  if g.entries.isEmpty then none
  else
    let p := g.pos t
    let base : Int := (t : Int) - (p : Int)
    let one := segments g.cycle 0 g.entries
    let all := (List.range 3).flatMap fun k => one.zipIdx.map fun e => (e.1.1, (if e.2 = 0 then 0 else (one.getD (e.2 - 1) (0, 0)).2) + k * g.cycle, e.1.2 + k * g.cycle)
    match all.find? fun s => decide (p < s.2.2) && !bitN s.1 c with
    | some s => some (base + (max p s.2.1 : Nat)).toNat
    | none => none

/-- The longest continuous opening of class c, none when its gate never closes (R443). -/
def GateList.longest (g : GateList) (c : Nat) : Option Nat :=
  if g.entries.isEmpty then none
  else
    let one := segments g.cycle 0 g.entries
    if one.all fun s => bitN s.1 c then none
    else
      let lens := one.zipIdx.map fun e => (bitN e.1.1 c, e.1.2 - (if e.2 = 0 then 0 else (one.getD (e.2 - 1) (0, 0)).2))
      some ((lens ++ lens).foldl (fun (acc : Nat × Nat) s => if s.1 then (acc.1 + s.2, max acc.2 (acc.1 + s.2)) else (0, acc.2)) (0, 0)).2

/-- The gate mask of a port at a time. -/
def TmPort.maskAt (p : TmPort) (t : Nat) : Nat := match p.oper with | some g => g.maskAt t | none => 255

/-- When the gate of class c next closes, looking into a list that becomes operational meanwhile (R443). -/
def TmPort.closesAt (p : TmPort) (c t : Nat) : Option Nat :=
  let now := match p.oper with | some g => g.closesAt c t | none => none
  match p.admin with
  | some (g, _) =>
    match now with
    | some e => if e < g.start then some e else g.closesAt c (max t g.start)
    | none => g.closesAt c (max t g.start)
  | none => now

/-- Every port takes its gates from its list at the present time (R442). -/
def Dev.recomputeGates (d : Dev) : Dev := { d with port := d.port.mapAll ({} : TmPort) fun _ p => { p with gateMask := p.maskAt d.media } }

end Sys2Proof.Machine
end

