-- ==== Sys2Proof/Machine/TimeBase.lean ====
section
/-! DEFINITION. The time base: the counter, its servo, the cadence clock's lag, PPS and time of day (chapter 15). -/

namespace Sys2Proof.Machine

/-! ## The counter -/

/-- The effective increment, TB_INCR x (1 - y) rounded to 2^-32 ns (R454); y is kept in units of 2^-87. -/
def TimeBase.step (t : TimeBase) : Nat := (((t.incr : Int) * (2 ^ 87 - t.y) + 2 ^ 86) / 2 ^ 87).toNat

/-- The counter set to a number of 2^-32 ns (R452): 48 bits of seconds. -/
def TimeBase.setTotal (t : TimeBase) (v : Nat) : TimeBase :=
  let s := v / 2 ^ 32
  { t with sec := s / 1000000000 % 2 ^ 48, ns := s % 1000000000, frac := v % 2 ^ 32 }

/-- The lag of the cadence clock one tick on: 1,000 ppm of the increment nearer to 0 (R463). -/
def convergeLag (lag : Int) (inc : Nat) : Int :=
  let q : Int := (inc / 1000 : Nat)
  if lag > q then lag - q else if lag < -q then lag + q else 0

/-- One 3 GHz tick of the counter (R452, R463). -/
def TimeBase.advance (t : TimeBase) : TimeBase :=
  let inc := t.step
  { t.setTotal (t.total + inc) with lag := convergeLag t.lag inc }

/-- The island's crystal over one tick: 32,768 of its ticks make a second (R611, log entry 18). -/
def Prl.advance (p : Prl) : Prl :=
  if !p.powered then p
  else if p.frac + 32768 < 3000000000 then { p with frac := p.frac + 32768 }
  else { p with frac := p.frac + 32768 - 3000000000, counter := p.counter + 1 }

/-- One tick passes with no command: uptime counts, the counter while REFCLK_TB is present (R452, R661), and the island's crystal. -/
def Dev.tick (d : Dev) : Dev :=
  ((({ d with ctl := { d.ctl with ticks := d.ctl.ticks + 1 }, tb := if d.tb.refTb && d.ctl.pwrOk then d.tb.advance else d.tb, prl := d.prl.advance } : Dev).serveLink 1).serveLink 2).serveTwin

/-- A capture input, scene, decoder stream or channel is started (R457, R463). -/
def Dev.anyStarted (d : Dev) : Bool :=
  d.cap.any (fun p => p.2.st == .waiting || p.2.st == .normal || p.2.st == .freeze || p.2.st == .slate) ||
    d.scene.any (fun p => p.2.running || p.2.starting) ||
    d.dec.any (fun p => p.2.st == .seeking || p.2.st == .decoding || p.2.starting) ||
    d.chan.any (fun p => p.2.st == .running || p.2.st == .stopping || p.2.startPend)

/-! ## The servo -/

/-- Fields of TB_SERVO and TB_STEP_LIMIT as they act (Tables 15.9 and 15.10). -/
def TimeBase.lockLimit (t : TimeBase) : Nat := if t.lockNs = 0 then 1 else t.lockNs
def TimeBase.holdTicks (t : TimeBase) : Nat := (if t.hold = 0 then 1 else t.hold) * 300000000
def TimeBase.stepLimit (t : TimeBase) : Nat := clampN 1 1000000 t.stepUs

/-- Clamp to 200 parts per million, in units of 2^-87 (R459). -/
def clampPpm (v : Int) : Int := max (-(2 ^ 87 / 5000)) (min (2 ^ 87 / 5000) v)

/-- The servo enters a state; leaving LOCKED raises TIME_LOCK, whose condition lasts until LOCKED is entered again (R460, Table 20.1). -/
def Dev.enterServo (d : Dev) (st : Nat) : Dev :=
  let was := d.tb.servo
  if was = st then d
  else
    let d1 := { d with tb := { d.tb with servo := st, lastChg := d.media } }
    if st = 2 then d1.setLine 41 false else if was = 2 then d1.setLine 41 true else d1

/-- The counter jumps by `delta` units of 2^-32 ns at one tick (R459); the cadence clock keeps its time while anything is started (R463), and the gates take
their positions from the stepped value (R442). -/
def Dev.stepCounter (d : Dev) (delta : Int) : Dev :=
  let t1 := d.tb.setTotal (((d.tb.total : Int) + delta) % (2 ^ 48 * 1000000000 * 2 ^ 32)).toNat
  let lag := if d.anyStarted then d.tb.lag + delta else d.tb.lag
  { d with tb := { t1 with steps := satAdd 10 d.tb.steps 1, lag := lag, lastSec := min d.tb.lastSec t1.sec } }.recomputeGates

/-- The number of consecutive good samples after one of offset `e` (2^-24 ns), and the state that Table 15.1 gives. -/
def TimeBase.afterSample (t : TimeBase) (e : Int) : Nat × Nat :=
  let good := e.natAbs ≤ t.lockLimit * 2 ^ 24
  match t.servo with
  | 1 => if good then (if t.run + 1 < 16 then (1, t.run + 1) else (2, 0)) else (1, 0)
  | 2 => if e.natAbs ≤ 4 * t.lockLimit * 2 ^ 24 then (2, 0) else (1, 0)
  | _ => (1, 0)

/-- One sample of the servo (R459), `e` in 2^-24 ns. -/
def Dev.servoSample (d : Dev) (e : Int) : Dev :=
  let d0 := { d with tb := { d.tb with sample := none, lastSmp := some d.ctl.ticks } }
  if (d.tb.stepLimit * 1000 * 2 ^ 24 : Nat) < e.natAbs then
    let d1 := d0.stepCounter (-(e * 256))
    { d1 with tb := { d1.tb with run := 0 } }.enterServo 1
  else
    let integ := clampPpm (d.tb.integ + e * 2 ^ (63 - d.tb.ki))
    let y := clampPpm (integ + e * 2 ^ (63 - d.tb.kp))
    let (st, run) := d.tb.afterSample e
    { d0 with tb := { d0.tb with integ := integ, y := y, run := run } }.enterServo st

/-- A sample is committed; one that was not yet consumed is replaced (R458). -/
def Dev.commitSample (d : Dev) (e : Int) : Dev :=
  { d with tb := { d.tb with sample := some e, overrun := d.tb.overrun || d.tb.sample.isSome } }

/-- Fields of the TIME OUTPUTS body (Table 15.4), kept from its byte 0x20. -/
def TimeBase.source (t : TimeBase) : Nat := byteAt t.outs 0
def TimeBase.ppsOutOn (t : TimeBase) : Bool := byteAt t.outs 1 == 1
def TimeBase.ppsWidth (t : TimeBase) : Nat := fieldLE t.outs 2 2
def TimeBase.tod (t : TimeBase) : Nat := byteAt t.outs 4
def TimeBase.ppsInOn (t : TimeBase) : Bool := byteAt t.outs 5 == 1
def TimeBase.ppsDelay (t : TimeBase) : Int := toSigned 32 (fieldLE t.outs 8 4)

/-- A firmware write of TB_OFFSET_HI (R458, R461). -/
def Dev.tbOffsetHi (d : Dev) (v : Word) : Dev :=
  if d.tb.source != 0 then d
  else { d with tb := { d.tb with offHi := v } }.commitSample (toSigned 64 (d.tb.offLo.toNat + v.toNat * 2 ^ 32))

/-- A firmware write of TB_NOW_SEC_HI: a coarse set (R457). -/
def Dev.tbCoarseSet (d : Dev) (v : Word) : Dev :=
  if d.anyStarted then { d with tb := { d.tb with setIgn := true } }
  else
    let sec := (v.toNat % 2 ^ 16) * 2 ^ 32 + (d.tb.wrLo.getD 0).toNat
    { d with tb := { d.tb with sec := sec, lastSec := sec, steps := satAdd 10 d.tb.steps 1 } }.recomputeGates

/-- A read of TB_NOW_NS latches the seconds and the fraction of the same tick (R456). -/
def Dev.tbReadNow (d : Dev) : Dev :=
  { d with tb := { d.tb with latLo := BitVec.ofNat 32 d.tb.sec, latHi := BitVec.ofNat 32 (d.tb.sec / 2 ^ 32),
                             latFrac := BitVec.ofNat 32 d.tb.frac } }

/-- The servo consumes the committed sample (R458, R459). -/
def Dev.tbConsume (d : Dev) : Dev :=
  match d.tb.sample with
  | some e => d.servoSample e
  | none => d

/-- No sample for HOLD x 100 ms in ACQUIRING or LOCKED (Table 15.1): y is fixed at the integrator's value. -/
def Dev.tbHoldover (d : Dev) : Dev :=
  match d.tb.lastSmp with
  | some t =>
    if (d.tb.servo = 1 || d.tb.servo = 2) && t + d.tb.holdTicks ≤ d.ctl.ticks then
      { d with tb := { d.tb with y := d.tb.integ, run := 0 } }.enterServo 3
    else d
  | none => d

/-! ## Pins -/

/-- An edge of PPS_IN (R461, R471): it is latched, checked against a whole second, and commits a sample when it is the source, which
TB_OFFSET then shows as the last offset (Table 15.8). -/
def Dev.ppsInEdge (d : Dev) : Dev :=
  if !d.tb.ppsInOn then d
  else
    let n := d.tb.ns
    let d1 := { d with tb := { d.tb with ppsNs := n, ppsSec := d.tb.sec % 2 ^ 32, ppsValid := true, ppsEdge := some d.ctl.ticks, ppsGap := false } }
    let d2 := if d.tb.stepLimit * 1000 < min n (1000000000 - n) then d1.raise 42 else d1
    if d.tb.source = 1 then
      let e := (n : Int) - d.tb.ppsDelay
      let v := (if 500000000 ≤ e then e - 1000000000 else e) * 2 ^ 24
      { d2 with tb := { d2.tb with offLo := loW (ofSigned 64 v), offHi := hiW (ofSigned 64 v) } }.commitSample v
    else d2

/-- 1.100 s after the last edge with no new one: TIME_PPS once (R471). -/
def Dev.ppsGapCheck (d : Dev) : Dev :=
  match d.tb.ppsEdge with
  | some t =>
    if d.tb.ppsInOn && !d.tb.ppsGap && t + 3300000000 ≤ d.ctl.ticks then { d with tb := { d.tb with ppsGap := true } }.raise 42 else d
  | none => d

/-- The counter's nanoseconds pass 0 (R470, R472): the pin rises if enabled, and the line of time of day is due. -/
def Dev.ppsOutEdge (d : Dev) : Dev :=
  if d.tb.sec ≤ d.tb.lastSec then d
  else
    let d1 := { d with tb := { d.tb with lastSec := d.tb.sec, todSec := if d.tb.tod = 0 then none else some d.tb.sec } }
    if d.tb.ppsOutOn then
      { d1 with tb := { d1.tb with ppsOut := true, ppsFall := some (d.tb.sec * 1000000000 + d.tb.ppsWidth * 1000) } }.emit (.pin "PPS_OUT" true)
    else d1

/-- PPS_WIDTH_US after the edge the pin falls (R470). -/
def Dev.ppsOutFall (d : Dev) : Dev :=
  match d.tb.ppsFall with
  | some t => if t ≤ d.tb.sec * 1000000000 + d.tb.ns then { d with tb := { d.tb with ppsOut := false, ppsFall := none } }.emit (.pin "PPS_OUT" false) else d
  | none => d

/-- The characters of a text as bytes, and of a number in decimal. -/
def textBytes (s : List Char) : List Byte := s.map fun c => BitVec.ofNat 8 c.toNat
def decimalBytes (n : Nat) : List Byte := textBytes (Nat.toDigits 10 n)

/-- Two upper-case hexadecimal digits of a byte. -/
def hexByte (b : Byte) : List Byte :=
  [b.toNat / 16, b.toNat % 16].map fun n => BitVec.ofNat 8 (if n < 10 then 48 + n else 55 + n)

/-- The line of R472 for a second, a UTC offset and a servo state. -/
def todLine (sec utc servo : Nat) : List Byte :=
  let body := textBytes ['K', 'G', 'T', 'O', 'D', ','] ++ decimalBytes sec ++ textBytes [','] ++ decimalBytes utc ++ textBytes [','] ++
    decimalBytes servo
  textBytes ['$'] ++ body ++ textBytes ['*'] ++ hexByte (body.foldl (· ^^^ ·) 0) ++ [13#8, 10#8]

/-- 10 ms after the edge the line is sent (R472). -/
def Dev.todStart (d : Dev) (utc : Nat) : Dev :=
  match d.tb.todSec with
  | some s =>
    if d.tb.tod != 0 && s * 1000000000 + 10000000 ≤ d.tb.sec * 1000000000 + d.tb.ns then
      { d with tb := { d.tb with todSec := none } }.emit (.tod (if d.tb.tod = 1 then 9600 else 115200) (todLine s utc d.tb.servo))
    else d
  | none => d

/-! ## The TIME unit -/

/-- The body of TIME PTP_PORT and OUTPUTS (Table 15.4). -/
def ptpPortSpec (_ : Dev) (x : Desc) : OpSpec :=
  { rsv := [(0x2C, 4), (0x38, 8)], eff0 := true, idx := [(x.get 0x20 1, 128)], own := [(2, x.get 0x20 1)] }
def outputsSpec (_ : Dev) (_ : Desc) : OpSpec := { rsv := [(0x26, 2), (0x2C, 20)], eff0 := true, pf := true }

/-- A value lies in a signed range. -/
def inRange (lo hi v : Int) : Bool := lo ≤ v && v ≤ hi

/-- PTP on a port is enabled. -/
def Dev.ptpOn (d : Dev) (p : Nat) : Bool := byteAt (d.tb.ptp.get [] p) 1 == 1

/-- TIME PTP_PORT (R474). -/
def Dev.timePtpPort (d : Dev) (x : Desc) : Dev :=
  let p := x.get 0x20 1
  let s8 (o : Nat) : Int := toSigned 8 (x.get o 1)
  let bad := x.get 0x21 1 > 1 || x.get 0x22 1 > 127 || x.get 0x23 1 > 1 || x.get 0x24 1 > 2 || x.get 0x25 1 > 1 || !inRange (-7) 0 (s8 0x26) ||
    !inRange (-3) 1 (s8 0x27) || !inRange (-7) 0 (s8 0x28) || !inRange 2 10 (x.get 0x29 1 : Nat) ||
    !inRange (-10000000) 10000000 (toSigned 64 (x.get 0x30 8))
  let full := x.get 0x21 1 == 1 && !d.ptpOn p && 4 ≤ (d.tb.ptp.filter fun e => byteAt e.2 1 == 1).length
  d.checked x [(bad, stBadDesc), (full, stCapacity)]
    ({ d with tb := { d.tb with ptp := d.tb.ptp.put [] p (x.bytes.drop 0x20) } }.complete x stOK 0)

/-- TIME OUTPUTS (R474, R471): a new PPS_IN setting arms the edge check afresh, and a pin that is disabled is held low. -/
def Dev.timeOutputs (d : Dev) (x : Desc) : Dev :=
  let bad := x.get 0x20 1 > 2 || x.get 0x21 1 > 1 || x.get 0x22 2 = 0 || x.get 0x24 1 > 2 || x.get 0x25 1 > 1 ||
    !inRange (-1000000) 1000000 (toSigned 32 (x.get 0x28 4))
  let stay := d.tb.ppsInOn && x.get 0x25 1 == 1
  let low := x.get 0x21 1 == 0
  let d1 := { d with tb := { d.tb with
    outs := x.bytes.drop 0x20, ppsEdge := if stay then d.tb.ppsEdge else none,
    ppsGap := stay && d.tb.ppsGap, ppsOut := d.tb.ppsOut && !low, ppsFall := if low then none else d.tb.ppsFall,
    todSec := if x.get 0x24 1 = 0 then none else d.tb.todSec } }
  d.checked x [(bad, stBadDesc)] ((if d.tb.ppsOut && low then d1.emit (.pin "PPS_OUT" false) else d1).complete x stOK 0)

/-! ## Meanings -/

/-- TIME_PTP_PORT (R474). -/
def execTimePtpPort (s : State) : Host.Outcome State Fault Refusal := ok s (s.dev.runUnit 8 1 ptpPortSpec Dev.timePtpPort)

/-- TIME_OUTPUTS (R474). -/
def execTimeOutputs (s : State) : Host.Outcome State Fault Refusal := ok s (s.dev.runUnit 8 2 outputsSpec Dev.timeOutputs)

/-- TB_OFFSET_HI_WRITE (R458, R461). -/
def execTbOffsetHiWrite (v : Word) (s : State) : Host.Outcome State Fault Refusal := ok s (s.dev.tbOffsetHi v)

/-- SERVO_SAMPLE (R459). -/
def execServoSample (s : State) : Host.Outcome State Fault Refusal := ok s s.dev.tbConsume

/-- HOLDOVER_TIMEOUT (R460). -/
def execHoldoverTimeout (s : State) : Host.Outcome State Fault Refusal := ok s s.dev.tbHoldover

/-- TB_NOW_NS_READ (R456): the read returns the nanoseconds. -/
def execTbNowNsRead (s : State) : Host.Outcome State Fault Refusal := ok s (s.dev.tbReadNow.emit (.readData (toLE 4 s.dev.tb.ns)))

/-- TB_NOW_SEC_HI_WRITE (R457). -/
def execTbNowSecHiWrite (v : Word) (s : State) : Host.Outcome State Fault Refusal := ok s (s.dev.tbCoarseSet v)

/-- PPS_IN_EDGE (R471). -/
def execPpsInEdge (s : State) : Host.Outcome State Fault Refusal := ok s s.dev.ppsInEdge

/-- TIME_PPS (R471). -/
def execTimePps (s : State) : Host.Outcome State Fault Refusal := ok s s.dev.ppsGapCheck

/-- PPS_OUT_EDGE (R470). -/
def execPpsOutEdge (s : State) : Host.Outcome State Fault Refusal := ok s s.dev.ppsOutEdge

/-- PPS_OUT_FALL (R470). -/
def execPpsOutFall (s : State) : Host.Outcome State Fault Refusal := ok s s.dev.ppsOutFall

/-- TOD_LINE_START (R472). -/
def execTodLineStart (utcOffset : Nat) (s : State) : Host.Outcome State Fault Refusal := ok s (s.dev.todStart utcOffset)

end Sys2Proof.Machine
end

