-- ==== Sys2Proof/Machine/Trust.lean ====
section
/-! DEFINITION. The trust engine: images, measurements, identity, quotes and tamper (chapter 21). -/

namespace Sys2Proof.Machine

/-! ## Images (R587 to R591) -/

/-- SHAKE256 with 512-bit output. -/
def shake512 (bs : List Byte) : List Byte := Config.shake256 bs 64

/-- The security version in an image's header (Table 21.2). -/
def imageVersion (i : BootImage) : Nat := fieldLE i.signed 8 4

/-- The header of an image of type t (Table 21.2): tag, type, key index, reserved bytes, version, and the length of the payload behind it. -/
def headerOk (t : Nat) (i : BootImage) : Bool :=
  let h := i.signed
  let key := fieldLE h 5 1
  let n := fieldLE h 0x0C 4
  fieldLE h 0 4 == 0x4B475349 && fieldLE h 4 1 == t && (key ≤ 3 || (key == 4 && t == 4)) && zeroBytes h 6 2 && zeroBytes h 0x50 48 && decide (imageVersion i ≤ 64) &&
    n % 64 == 0 && decide (n ≤ 2 ^ 24) && h.length == 128 + n

/-- The fuses of the image's key index hold the hash of its public key, and that index's revoke fuse is not blown (R589). A fuse row that State does not list is the
die's own, a constant of Config (log entry 7). -/
def Dev.keyOk (d : Dev) (i : BootImage) : Bool :=
  let k := fieldLE i.signed 5 1
  shake512 ((i.signed.drop 0x10).take 64) == d.trust.keyHash.get (Config.keyHash k) k && !d.trust.revoked.get (Config.keyRevoked k) k

/-- R589: the header, the key's fuses, what the verifier finds, and the fused minimum version. -/
def Dev.accepts (d : Dev) (t : Nat) (i : BootImage) : Bool :=
  i.present && i.typ == t && headerOk t i && d.keyOk i && i.sigOk && decide (d.trust.fused ≤ imageVersion i)

/-- BOOT_AUTH holds while a required image is outstanding (R590). -/
def Dev.authLine (d : Dev) : Dev := d.setLine 2 (!d.trust.failed.isEmpty)

/-- The identity key is derived once after each reset P, E or S, and not while a sensor reads tripped (R597, R605). -/
def Dev.deriveKey (d : Dev) : Dev :=
  if d.trust.keyDone then d
  else
    let d1 := { d with trust := { d.trust with keyDone := true, keyReady := d.trust.sensors == 0 } }
    if d.trust.sensors = 0 then d1 else d1.setLine 49 true

/-- An accepted image is measured before it runs. A policy image may set the data rate of the memory (R527); the spec does not give its layout, so the rate is a free
value (log entry 12). -/
def Dev.acceptImage (d : Dev) (t : Nat) (copyB : Bool) (i : BootImage) : Dev :=
  let d1 := d.extend t (shake512 i.signed)
  let d2 := { d1 with trust := { d1.trust with versions := d1.trust.versions.put 0 t (imageVersion i), done := d1.trust.done ++ [t], failed := d1.trust.failed.filter (· != t),
                                               boot := if t = 0 then 1 else d1.trust.boot, copyB := if t = 0 then copyB else d1.trust.copyB } }.authLine
  if t = 4 then (List.range 12).foldl (fun e m => e.modMcAt m fun c => { c with rate := d.freeVal % 4 }) d2.nextFree else d2

/-- A required image is refused or absent: BOOT_AUTH, and BOOT_FAILED unless the boot ROM still has copy B to try. -/
def Dev.refuseImage (d : Dev) (t : Nat) (copyB : Bool) : Dev :=
  let d1 := { d with trust := { d.trust with failed := d.trust.failed.filter (· != t) ++ [t] } }.authLine
  if t = 0 && !copyB then d1
  else { d1 with trust := { d1.trust with boot := 3 }, ctl := { d1.ctl with bootFailed := true } }

/-- An image as it is read: the boot ROM takes hub firmware from copy A, then B; the hub firmware takes the others from the copy that supplied it. -/
def Dev.bootImage (d : Dev) (copyB : Bool) (i : BootImage) : Dev :=
  let t := i.typ
  if !d.ctl.booting || !d.ctl.pwrOk || !d.ctl.perstN || t > 4 || d.trust.done.contains t then d
  else if t = 0 then
    if d.trust.boot != 0 || d.trust.failed.contains 0 != copyB then d
    else
      let d1 := d.deriveKey
      if d1.accepts 0 i then d1.acceptImage 0 copyB i else d1.refuseImage 0 copyB
  else if d.trust.boot = 0 || copyB != d.trust.copyB || !d.trust.done.contains 0 then d
  else if d.accepts t i then d.acceptImage t copyB i
  else if t = 4 then d
  else d.refuseImage t copyB

/-- A write of TRUST_RECOVER_HI (R591, R606): GO repeats the boot from the set as from copy A. Memory that failed its training stays unavailable (R551). -/
def Dev.recoverGo (d : Dev) (who : Requester) (v : Word) : Dev :=
  if !isPf who then d
  else
    let d1 := { d with trust := { d.trust with recHi := v &&& 0xFFFF#32 } }
    if v.getLsbD 31 && d.ctl.bootFailed && !(List.range 12).any (fun m => (d.mcAt m).st == 5) then
      { d1 with ctl := { d1.ctl with bootFailed := false, booting := true },
                trust := { d1.trust with recGo := true, recovery := true, boot := 0, copyB := false, done := [], failed := d1.trust.failed.filter (· != 0) } }
    else d1

/-- Lowest version of the images of types 0 to 3 that run (R596). -/
def Dev.runningVersion (d : Dev) : Nat :=
  if [0, 1, 2, 3].all d.trust.done.contains then [0, 1, 2, 3].foldl (fun m t => min m (d.trust.versions.get 0 t)) 64 else 0

/-! ## Quotes (R599 to R602) -/

/-- The identity key pair's seed, and the public key. -/
def identitySeed : List Byte := Config.shake256 (Config.deviceSecret ++ textBytes "KG9-512L identity".toList) 96
def identityKey : List Byte := Config.slhPublic identitySeed

/-- A list brought to n bytes. -/
def fit (n : Nat) (bs : List Byte) : List Byte := (bs ++ zeros n).take n

/-- Bytes 0x0000 to 0x775F of Table 21.4 for a nonce and a Praline block, if there is one. -/
def Dev.quoteBody (d : Dev) (nonce : List Byte) (block : Option (List Byte)) : List Byte :=
  toLE 2 0x4B51 ++ toLE 2 1 ++ toLE 4 80416 ++ toLE 4 (b2n block.isNone + fld 8 8 d.trust.slotDone + fld 16 16 d.trust.tamper) ++ toLE 4 d.trust.bootCount ++
    toLE 4 (d.trust.versions.get 0 0) ++ toLE 4 d.trust.fused ++ toLE 1 d.state ++ zeros 7 ++ fit 32 nonce ++
    ((List.range 8).flatMap d.meas) ++ fit 64 identityKey ++ fit 29920 (block.getD [])

/-- The nonce of a request. -/
def QuoteFor.nonce : QuoteFor → List Byte
  | .self x => (x.bytes.drop 0x40).take 32
  | .partner n => n
  | .casc _ n => n

/-- A status is sent back to a requester. -/
def Dev.refuseQuote (d : Dev) (q : QuoteFor) (status : Nat) : Dev :=
  match q with
  | .self x => { d with trust := { d.trust with attests := d.trust.attests.filter fun a => a.1 != x } }.complete x status 0
  | .partner _ => d.emit (.twin 14 0 d.media (toLE 1 status))
  | .casc a _ => d.sendControl {} 0 a .quoteRefused (toLE 1 status)

/-- A request joins the queue of eight, of which one may be in service. -/
def Dev.quoteFull (d : Dev) : Bool := 8 ≤ d.trust.queue.length
def Dev.askQuote (d : Dev) (q : QuoteFor) : Dev :=
  if d.quoteFull then d.refuseQuote q stBusy else { d with trust := { d.trust with queue := d.trust.queue ++ [q] } }

/-- Service of the oldest request starts (R599, R600, R601, R605): the snapshot, with the island's block unless PRALINE_LINK is active or the island is off. -/
def Dev.quoteStart (d : Dev) : Dev :=
  if d.trust.serving || d.flt.live.getLsbD 0 then d
  else match d.trust.queue with
    | [] => d
    | q :: rest =>
      if !d.trust.keyReady then { d with trust := { d.trust with queue := rest } }.refuseQuote q stInternal
      else
        let absent := d.flt.live.getLsbD 51 || !d.prl.powered
        { d with trust := { d.trust with serving := true, snap := d.quoteBody q.nonce (if absent then none else some d.prl.block),
                                         blockDue := if absent then none else some (d.ctl.ticks + 30000000) } }

/-- The island has not answered within 10 ms: its block is 0 and flag bit 0 is set. -/
def Dev.blockTimeout (d : Dev) : Dev :=
  match d.trust.blockDue with
  | some t =>
    if d.trust.serving && t ≤ d.ctl.ticks then
      { d with trust := { d.trust with blockDue := none,
                                       snap := overlay (overlay d.trust.snap 8 (toLE 1 (byteAt d.trust.snap 8 ||| 1))) 0x280 (zeros 29920) } }
    else d
  | none => d

/-- The quote in service with its signature. -/
def Dev.quoteBytes (d : Dev) : List Byte := d.trust.snap ++ fit 49856 (Config.slhSign identitySeed d.trust.snap)

/-- The parts of a quote for a cascade requester: 335 of 240 bytes and one of 16. -/
def quoteParts (q : List Byte) : List (List Byte) := (List.range 336).map fun i => (q.drop (i * 240)).take 240

/-- The quote is signed and goes to its requester; without the key, erased since the snapshot, it is refused (R605). -/
def Dev.quoteSigned (d : Dev) : Dev :=
  match d.trust.serving, d.trust.queue with
  | true, q :: rest =>
    let b := d.quoteBytes
    let d1 := { d with trust := { d.trust with serving := false, queue := rest, snap := [], blockDue := none } }
    if !d.trust.keyReady then d1.refuseQuote q stInternal
    else match q with
    | .self x =>
      if d.trust.attests.any (·.1 == x) then
        ({ d1 with trust := { d1.trust with attests := d1.trust.attests.eraseP (·.1 == x) } }.memWrite (x.get 0x28 8) b).complete x stOK 0
      else d1
    | .partner _ => d1.emit (.twin 14 0 d.media b)
    | .casc a _ => (quoteParts b).foldl (fun e p => e.sendControl {} 0 a .quotePart p) d1
  | _, _ => d

/-- Bytes of a quote arrive for the oldest ATTEST that `sel` names; the whole quote is written before the ATTEST completes (R602). -/
def Dev.quotePart (d : Dev) (sel : Desc → Bool) (bs : List Byte) : Dev :=
  match d.trust.attests.find? fun a => sel a.1 with
  | some (x, t, got) =>
    let all := got ++ bs
    if all.length < 80416 then
      { d with trust := { d.trust with attests := d.trust.attests.map fun a => if a.1 == x && a.2.1 == t then (x, t, all) else a } }
    else ({ d with trust := { d.trust with attests := d.trust.attests.eraseP fun a => sel a.1 } }.memWrite (x.get 0x28 8) (all.take 80416)).complete x stOK 0
  | none => d

/-- The serving device refuses. -/
def Dev.quoteRefused (d : Dev) (sel : Desc → Bool) (status : Nat) : Dev :=
  match d.trust.attests.find? fun a => sel a.1 with
  | some (x, _, _) => { d with trust := { d.trust with attests := d.trust.attests.eraseP fun a => sel a.1 } }.complete x status 0
  | none => d

/-- A quote from the partner, whole; one byte is its refusal. -/
def Dev.twinQuote (d : Dev) (bs : List Byte) : Dev :=
  let sel (x : Desc) : Bool := x.get 0x20 1 == 1
  if bs.length = 1 then d.quoteRefused sel (leNat bs) else d.quotePart sel bs

/-- The partner asks for a quote while PAIRED. -/
def Dev.twinQuoteRequest (d : Dev) (nonce : List Byte) : Dev := if d.twin.st == .paired then d.askQuote (.partner nonce) else d

/-- TIMEOUT_MS has passed for an ATTEST (R604). -/
def Dev.attestTimeout (d : Dev) : Dev :=
  let gone (a : Desc × Nat × List Byte) : Bool := decide (a.2.1 + a.1.get 0x24 2 * 3000000 ≤ d.ctl.ticks)
  let late := d.trust.attests.filter gone
  let keep (q : QuoteFor) : Bool := match q with | .self x => !late.any (·.1 == x) | _ => true
  let queue := match d.trust.serving, d.trust.queue with | true, q :: r => q :: r.filter keep | _, q => q.filter keep
  late.foldl (fun e a => e.complete a.1 stTimeout 0) { d with trust := { d.trust with attests := d.trust.attests.filter fun a => !gone a, queue := queue } }

/-! ## The TRUST unit (R603, R604) -/

def attestSpec (_ : Dev) (x : Desc) : OpSpec :=
  { len := 0x60, eff0 := true, rsv := [(0x21, 1), (0x26, 2), (0x34, 12)], mem := [⟨x.get 0x28 8, x.get 0x30 4, false, true⟩] }
def certsSpec (_ : Dev) (x : Desc) : OpSpec := { eff0 := true, rsv := [(0x2C, 20)], mem := [⟨x.get 0x20 8, x.get 0x28 4, false, true⟩] }
def measureSpec (_ : Dev) (x : Desc) : OpSpec := { eff0 := true, pf := true, rsv := [(0x30, 16)], mem := [⟨x.get 0x20 8, x.get 0x28 8, true, false⟩] }
def commitSpec (_ : Dev) (_ : Desc) : OpSpec := { eff0 := true, pf := true, rsv := [(0x20, 32)] }

/-- A field breaks Table 21.6. -/
def attestBad (x : Desc) : Bool :=
  let t := x.get 0x20 1
  let ms := x.get 0x24 2
  t > 2 || (if t = 2 then x.get 0x22 2 > 0x3FF else x.get 0x22 2 != 0) || ms < 300 || ms > 60000 || x.get 0x28 8 % 64 != 0 || x.get 0x30 4 < 80416

/-- ATTEST: accepted, it waits for its quote. -/
def Dev.trustAttest (d : Dev) (x : Desc) : Dev :=
  let t := x.get 0x20 1
  let busy := (t == 0 && d.quoteFull) || (t == 1 && d.twin.st != .paired) || (t == 2 && d.casc.cfg.isEmpty)
  let d1 := { d with trust := { d.trust with attests := d.trust.attests ++ [(x, d.ctl.ticks, [])] } }
  d.checked x [(attestBad x, stBadDesc), (busy, stBusy)]
    (match t with
     | 0 => d1.askQuote (.self x)
     | 1 => d1.emit (.twin 13 0 d.media ((x.bytes.drop 0x40).take 32))
     | _ => d1.sendControl {} 0 (x.get 0x22 2) .quoteRequest ((x.bytes.drop 0x40).take 32))

/-- CERTS. -/
def Dev.trustCerts (d : Dev) (x : Desc) : Dev :=
  d.checked x [(x.get 0x20 8 % 64 != 0 || x.get 0x28 4 < 131072, stBadDesc)] ((d.memWrite (x.get 0x20 8) (fit 131072 d.trust.certs)).complete x stOK 0)

/-- MEASURE extends slot 5; a poisoned range is reported and not measured (R547). -/
def Dev.trustMeasure (d : Dev) (x : Desc) : Dev :=
  let a := x.get 0x20 8
  let n := x.get 0x28 8
  d.checked x [(n % 64 != 0 || n < 64 || 2 ^ 32 < n, stBadDesc), (d.poisoned a n, stInternal)] ((d.extend 5 (shake512 (d.memRead a n))).complete x stOK 0)

/-- COMMIT_SVN raises the fused minimum (R596). -/
def Dev.trustCommit (d : Dev) (x : Desc) : Dev :=
  { d with trust := { d.trust with fused := max d.trust.fused d.runningVersion } }.complete x stOK 0

/-! ## Tamper (R605) -/

/-- The sensors change; they sense only while the hub is powered. -/
def Dev.tamperTrip (d : Dev) (sensors : Nat) : Dev :=
  if !d.ctl.pwrOk then d
  else if (List.range 3).any fun i => bitN sensors i && !bitN d.trust.sensors i then
    { d with trust := { d.trust with sensors := sensors, tamper := satAdd 16 d.trust.tamper 1, keyReady := false } }.setLine 49 true
  else { d with trust := { d.trust with sensors := sensors } }.setLine 49 (sensors != 0)

/-! ## Registers (Table 21.7) -/

/-- A read of the TRUST block. -/
def Dev.readTrust (d : Dev) (off : Nat) : Nat :=
  let t := d.trust
  if 0x200 ≤ off && off < 0x400 then fieldLE (d.meas ((off - 0x200) / 64)) ((off - 0x200) % 64) 4
  else match off with
  | 0x00 => t.boot + fld 2 1 (b2n t.copyB) + fld 3 1 (b2n t.recovery) + fld 4 4 t.queue.length + fld 8 8 t.slotDone + fld 16 1 (b2n t.keyReady)
  | 0x04 => d.runningVersion + fld 8 8 t.fused
  | 0x08 => t.bootCount
  | 0x0C => t.sensors + fld 16 16 t.tamper
  | 0x10 => t.recLo.toNat
  | 0x14 => t.recHi.toNat + fld 31 1 (b2n t.recGo)
  | _ => 0

/-- A write of the TRUST block (R606). -/
def Dev.writeTrust (d : Dev) (who : Requester) (off : Nat) (v : Word) : Dev :=
  match off with
  | 0x10 => if isPf who then { d with trust := { d.trust with recLo := v } } else d
  | 0x14 => d.recoverGo who v
  | _ => d

/-! ## Meanings -/

/-- TRUST_ATTEST (R604). -/
def execTrustAttest (s : State) : Host.Outcome State Fault Refusal := ok s (s.dev.runUnit 14 1 attestSpec Dev.trustAttest)

/-- TRUST_CERTS (R598, R603). -/
def execTrustCerts (s : State) : Host.Outcome State Fault Refusal := ok s (s.dev.runUnit 14 2 certsSpec Dev.trustCerts)

/-- TRUST_MEASURE (R592, R604). -/
def execTrustMeasure (s : State) : Host.Outcome State Fault Refusal := ok s (s.dev.runUnit 14 3 measureSpec Dev.trustMeasure)

/-- TRUST_COMMIT_SVN (R596). -/
def execTrustCommitSvn (s : State) : Host.Outcome State Fault Refusal := ok s (s.dev.runUnit 14 4 commitSpec Dev.trustCommit)

/-- QUOTE_SERVICE_START (R599, R600). -/
def execQuoteServiceStart (s : State) : Host.Outcome State Fault Refusal := ok s s.dev.quoteStart

/-- PRALINE_BLOCK_TIMEOUT (R601). -/
def execPralineBlockTimeout (s : State) : Host.Outcome State Fault Refusal := ok s s.dev.blockTimeout

/-- QUOTE_SIGNED (R600, R602). -/
def execQuoteSigned (s : State) : Host.Outcome State Fault Refusal := ok s s.dev.quoteSigned

/-- TRUST_TAMPER (R605). -/
def execTrustTamper (sensors : BitVec 3) (s : State) : Host.Outcome State Fault Refusal := ok s (s.dev.tamperTrip sensors.toNat)

/-- TRUST_RECOVER_GO (R591). -/
def execTrustRecoverGo (who : Requester) (v : Word) (s : State) : Host.Outcome State Fault Refusal := ok s (s.dev.recoverGo who v)

/-- BOOT_IMAGE_LOAD (R589, R590). -/
def execBootImageLoad (copyB : Bool) (img : BootImage) (s : State) : Host.Outcome State Fault Refusal := ok s (s.dev.bootImage copyB img)

/-- ATTEST_TIMEOUT (R604). -/
def execAttestTimeout (s : State) : Host.Outcome State Fault Refusal := ok s s.dev.attestTimeout

/-- TWIN_QUOTE_REQUEST_RX (R599). -/
def execTwinQuoteRequestRx (nonce : List Byte) (s : State) : Host.Outcome State Fault Refusal := ok s (s.dev.twinQuoteRequest nonce)

/-- TWIN_QUOTE_RX (R602). -/
def execTwinQuoteRx (bytes : List Byte) (s : State) : Host.Outcome State Fault Refusal := ok s (s.dev.twinQuote bytes)

end Sys2Proof.Machine
end

