-- ==== Sys2Proof/Machine/Cascade.lean ====
section
/-! DEFINITION. The cascade ring: frames, hellos, open hops and wraps, the bypass, and the CASC unit (chapter 17). Class 4 requests are answered from the Praline log. -/

namespace Sys2Proof.Machine

/-! ## Hops -/

/-- One side of the ring, and the same changed. -/
def Dev.side (d : Dev) (ringB : Bool) : RingSide := if ringB then d.casc.b else d.casc.a
def Dev.modSide (d : Dev) (ringB : Bool) (f : RingSide → RingSide) : Dev :=
  { d with casc := if ringB then { d.casc with b := f d.casc.b } else { d.casc with a := f d.casc.a } }

/-- The incoming hop carries traffic. -/
def RingSide.carries (r : RingSide) : Bool := r.lane && !r.openHop

/-- State of a ring (Table 17.5) from its own side and the other ring's (R516, R517, R520). -/
def ringState (own other : RingSide) : Nat :=
  let out := other.lane && !own.noticed
  let otherOut := own.lane && !other.noticed
  if !own.carries && !out then 0 else if own.carries && out && other.carries && otherOut then 1 else 2

/-- The lines of CASC_BREAK and CASC_BYPASS_LIMIT follow their conditions (R507, R515, R516). -/
def Dev.cascLines (d : Dev) : Dev :=
  let c := d.casc
  let d1 := d.setLine 45 (c.dup || (!c.closed && (c.a.brk || c.b.brk)))
  d1.setLine 46 (!c.closed && (c.a.limit || c.b.limit))

/-- A hop opens, under R515 (`limit`) or under another case of R516: it is counted, and a break notice goes to its upstream neighbour on the other ring. -/
def Dev.openHop (d : Dev) (ringB limit : Bool) : Dev :=
  let d1 := d.modSide ringB fun r => if limit then { r with limit := true } else { r with brk := true }
  ({ d1 with casc := { d1.casc with breaks := satAdd 16 d1.casc.breaks 1 } }.emit (.notice "CASC_BREAK" (b2n ringB) (d.side ringB).upstream 0)).cascLines

/-- The lane is not ACTIVE, has lost lock, or has brought no frame for BREAK_US (R516). -/
def RingSide.gone (r : RingSide) (now gap : Nat) : Bool := !r.lane || decide (r.lastFrame + gap ≤ now)

/-- No frame for BREAK_US: the hop is open. -/
def Dev.hopTimeout (d : Dev) (ringB : Bool) : Dev :=
  let r := d.side ringB
  if !d.casc.closed && !r.brk && r.gone d.ctl.ticks d.casc.breakTicks then d.openHop ringB false else d

/-- Notices from the downstream end of this device's outgoing hop; they come on the other ring (R517, R518). -/
def Dev.breakNotice (d : Dev) (ringB noticed : Bool) : Dev := if d.casc.closed then d else d.modSide (!ringB) fun r => { r with noticed := noticed }

/-- Map entries between the upstream neighbour and this device, in a ring's direction (R515); where its own hello has come round, every other one. -/
def Casc.skippedFrom (c : Casc) (ringB : Bool) (up : Nat) : Nat :=
  let n := c.map.length
  let i := c.map.findIdx (· == up)
  let j := c.map.findIdx (· == c.addr)
  if n = 0 then 0 else if i = j then n - 1 else (if ringB then (i + n - j) % n else (j + n - i) % n) - 1

/-- Something has come over the incoming hop. -/
def RingSide.heard (r : RingSide) (now : Nat) : RingSide := { r with lastFrame := now }

/-- The incoming lane has lock and so brings frames: one that retrains alone once it has lock again (R492). -/
def RingSide.receives (r : RingSide) : Bool := r.stage == .active && (!r.lost || r.relock.isSome)

/-- A hop whose conditions are over is not open any more (R516, R518): the one of R515 when the count has fallen to 3 or less and the lane is ACTIVE. The clear notice goes
to the upstream neighbour when none is left. -/
def Dev.tryClear (d : Dev) (ringB : Bool) : Dev :=
  let r := d.side ringB
  let r1 := { r with brk := r.brk && r.gone d.ctl.ticks d.casc.breakTicks, limit := r.limit && !(r.lane && decide (r.skipped ≤ 3)) }
  let d1 := d.modSide ringB fun _ => r1
  if r.openHop && !r1.openHop then (d1.emit (.notice "CASC_CLEAR" (b2n ringB) r.upstream 0)).cascLines
  else if r1 = r then d else d1.cascLines

/-- A hello (R504, R507, R515): it ends the CAPS stage of its lane, which answers with its own, so that the neighbour's ends too; a hop with more than three bypassed
devices is treated as open. A lane without lock brings none. -/
def Dev.helloRx (d : Dev) (ringB : Bool) (h : CascHello) : Dev :=
  let was := d.side ringB
  if d.casc.closed || decide (1024 ≤ h.addr) || !(was.stage == .caps || was.receives) then d
  else
    let k := d.casc.skippedFrom ringB h.addr
    let dup := d.casc.dup || (h.addr == d.casc.addr && (h.boots != d.trust.bootCount || h.meas0 != d.meas 0))
    let d1 := (d.modSide ringB fun r => { r.heard d.ctl.ticks with stage := .active, retryAt := none, upstream := h.addr, skipped := min 7 k, valid := true }).memWrite
      (d.casc.peerAddr + h.addr * 32 + 0x18) (toLE 8 d.media)
    let d2 := { d1 with casc := { d1.casc with dup := dup, seen := d1.casc.seen.put 0 h.addr (d.ctl.ticks + 1) } }
    let d3 := if was.stage == .caps then d2.sendHello else d2
    let d4 := if decide (3 < k) && !was.limit then d3.openHop ringB true else d3.cascLines
    d4.tryClear ringB

/-! ## Cascade lanes (R491, R492, R504) -/

/-- The incoming lane of a ring enters a stage; in CAPS it sends its hello. -/
def Dev.cascStage (d : Dev) (ringB : Bool) (st : Stage) : Dev :=
  let d1 := d.modSide ringB fun r => { r with stage := st, since := d.ctl.ticks, retryAt := none }
  if st == .caps then d1.sendHello else d1

/-- A stage fails: 10 ms later the lane is back at DETECT (R483). -/
def Dev.cascFail (d : Dev) (ringB : Bool) : Dev := d.modSide ringB fun r => { r with retryAt := some (d.ctl.ticks + 30000000) }

/-- The limits of Table 16.3 that hold for a cascade lane: 500 ms for TRAIN and 10 ms for LOCK. -/
def RingSide.overdue (r : RingSide) (now : Nat) : Bool :=
  match r.stage with
  | .train => decide (r.since + 1500000000 < now)
  | .lock => decide (r.since + 30000000 < now)
  | _ => false

/-- A poll of DETECT (R482). -/
def Dev.cascDetect (d : Dev) (ringB term : Bool) : Dev :=
  let r := d.side ringB
  if d.casc.closed || r.stage != .detect || decide (d.ctl.ticks < r.since + 3000000) then d
  else if term then d.cascStage ringB .train
  else d.modSide ringB fun r => { r with since := d.ctl.ticks }

/-- The lane passes TRAIN or LOCK; CAPS passes by a hello alone. A lane that retrains alone has lock again (R492). -/
def Dev.cascPass (d : Dev) (ringB : Bool) : Dev :=
  let r := d.side ringB
  if d.casc.closed || r.retryAt.isSome then d
  else if r.overdue d.ctl.ticks then d.cascFail ringB
  else match r.stage with
    | .train => d.cascStage ringB .lock
    | .lock => d.cascStage ringB .caps
    | .active => if r.lost && r.relock.isNone then d.modSide ringB fun r => { r with relock := some d.ctl.ticks } else d
    | _ => d

/-- A stage exceeds its limit (R483). -/
def Dev.cascTimeout (d : Dev) (ringB : Bool) : Dev :=
  let r := d.side ringB
  if !d.casc.closed && r.retryAt.isNone && r.overdue d.ctl.ticks then d.cascFail ringB else d

/-- 10 ms after a failure the lane returns to DETECT (R483). -/
def Dev.cascRetry (d : Dev) (ringB : Bool) : Dev :=
  match (d.side ringB).retryAt with
  | some t => if !d.casc.closed && decide (t ≤ d.ctl.ticks) then d.cascStage ringB .detect else d
  | none => d

/-- A cascade lane loses lock (R491, R492, R516): ACTIVE, the loss raises LANE_LOCK, the hop is open and the lane retrains alone; in LOCK or CAPS the stage fails. -/
def Dev.cascLoss (d : Dev) (ringB : Bool) : Dev :=
  let r := d.side ringB
  if d.casc.closed then d
  else match r.stage with
    | .active =>
      let d1 := (d.modSide ringB fun r => { r with lost := true, relock := none }).raise 43
      if r.brk || d1.casc.closed then d1 else d1.openHop ringB false
    | .lock => if r.retryAt.isNone then d.cascFail ringB else d
    | .caps => if r.retryAt.isNone then d.cascFail ringB else d
    | _ => d

/-- A cascade lane is in service again 1 ms after it gained lock again; a block error begins the millisecond anew (R492, R518). -/
def Dev.cascReadmit (d : Dev) (ringB blockErr : Bool) : Dev :=
  match (d.side ringB).relock with
  | some t =>
    if blockErr then d.modSide ringB fun r => { r with relock := some d.ctl.ticks }
    else if t + 3000000 ≤ d.ctl.ticks then (d.modSide ringB fun r => { r with lost := false, relock := none }).tryClear ringB
    else d
  | none => d

/-- Devices heard in the last second, this one included (Table 17.7). -/
def Dev.cascSeen (d : Dev) : Nat :=
  if d.casc.cfg.isEmpty then 0
  else (d.casc.seen.filter fun e => e.1 != d.casc.addr && d.ctl.ticks < e.2 + 3000000000).length + 1

/-! ## Frames (R508 to R511) -/

/-- A fault broadcast of a peer (Table 17.1): its words and device state go into the peer table, and it is posted; it has no other consequence. -/
def Dev.peerFault (d : Dev) (fr : CascFrame) : Dev :=
  let d1 := { d with casc := { d.casc with seen := d.casc.seen.put 0 fr.src (d.ctl.ticks + 1) } }.memWrite (d.casc.peerAddr + fr.src * 32)
    (toLE 8 fr.status.toNat ++ toLE 8 fr.live.toNat ++ toLE 1 fr.dev)
  if d.casc.rxThread = 0xFFFF then d1 else d1.unitPost 13 d.casc.rxThread (flagMask (d.casc.get 0x40 1))

/-- A record of the Praline log, forwarded unchanged (R626). -/
def Dev.logRecord (d : Dev) (n : Nat) : Option (List Byte) :=
  (d.prl.recs.find? fun r => r.1 == n).map fun r => readBytes d.prl.ring r.2.1 r.2.2

/-- What an acknowledged message does at its destination. -/
def Dev.deliver (d : Dev) (fr : CascFrame) : Dev :=
  let sel (x : Desc) : Bool := x.get 0x20 1 == 2 && x.get 0x22 2 == fr.src
  match fr.role with
  | .data => d.rxRecord fr
  | .quoteRequest => d.askQuote (.casc fr.src fr.payload)
  | .quotePart => d.quotePart sel fr.payload
  | .quoteRefused => d.quoteRefused sel (leNat fr.payload)
  | .logRequest =>
    (List.range (fieldLE fr.payload 8 2)).foldl (fun e i =>
      match e.logRecord (fieldLE fr.payload 0 8 + i) with
      | some bs => e.sendControl {} 4 fr.src .data bs
      | none => e) d

/-- Deliver a source's messages in order, those held with it. -/
def Dev.deliverAll (src cls : Nat) : Nat → Dev → Dev
  | 0, d => d
  | n + 1, d =>
    let key := src * 8 + cls
    match d.casc.rxHold.find? fun f => f.src == src && f.cls == cls && f.seq == d.casc.rxSeq.get 0 key with
    | none => d
    | some fr =>
      Dev.deliverAll src cls n
        ({ d with casc := { d.casc with rxHold := d.casc.rxHold.erase fr, rxSeq := d.casc.rxSeq.put 0 key (d.casc.rxSeq.get 0 key + 1) } }.deliver fr)

/-- A message of class 0 or 4 for this device: acknowledged always, delivered once and in order (R509). -/
def Dev.messageRx (d : Dev) (fr : CascFrame) : Dev :=
  if fr.ack then d.ackRx fr.src fr.cls fr.seq
  else if fr.cls = 0 && d.casc.dup then d
  else
    let d1 := d.cascPut false { d.ownFrame fr.cls (some fr.src) fr.seq .data [] with ack := true }
    if fr.seq < d.casc.rxSeq.get 0 (fr.src * 8 + fr.cls) || d.casc.rxHold.any (fun f => f.src == fr.src && f.cls == fr.cls && f.seq == fr.seq) then d1
    else
      let d2 := { d1 with casc := { d1.casc with rxHold := d1.casc.rxHold ++ [{ fr with time := d.media }] } }
      Dev.deliverAll fr.src fr.cls d2.casc.rxHold.length d2

/-- A neighbour's time comparison: its servo state goes into the peer table (R522). -/
def Dev.peerServo (d : Dev) (fr : CascFrame) : Dev := d.memWrite (d.casc.peerAddr + fr.src * 32 + 0x11) (toLE 1 fr.servo)

/-- The neighbour's counter minus this device's (R511). The link delay that the device measures is not in the frame: it is a free value (log entry 12). -/
def Dev.timeCompare (d : Dev) (fr : CascFrame) : Dev :=
  let off : Int := (fr.time : Int) + d.freeVal - d.media
  { d.nextFree with casc := { d.casc with timeOff := max (-2147483648) (min 2147483647 off) } }

/-- A frame arrives on a ring; one for others goes on unchanged, on the same ring (R506). -/
def Dev.cascFrame (d : Dev) (ringB : Bool) (fr : CascFrame) : Dev :=
  if d.casc.closed || d.casc.cfg.isEmpty || !(d.side ringB).receives then d
  else
    let d1 := (d.modSide ringB fun r => r.heard d.ctl.ticks).tryClear ringB
    if fr.src = d.casc.addr ∨ 1024 ≤ fr.src then d1
    else match fr.cls with
      | 2 => (d1.peerFault fr).cascPut ringB fr
      | 1 =>
        if fr.src != (d1.side ringB).upstream then d1
        else if ringB then d1.peerServo fr
        else (d1.peerServo fr).timeCompare fr
      | 3 =>
        (match fr.dest with
         | none => (d1.rxRecord { fr with time := d.media }).cascPut ringB fr
         | some a => if a = d.casc.addr then d1.rxRecord { fr with time := d.media } else d1.cascPut ringB fr)
      | _ => if fr.dest = some d.casc.addr then d1.messageRx fr else d1.cascPut ringB fr

/-- The hub's periodic status, a telemetry message to all (Table 17.1). What it says is the hub firmware's: free values (log entry 12). -/
def Dev.hubStatus (d : Dev) : CascFrame :=
  d.ownFrame 3 none 0 .data ((List.range (d.freeVal % 240 + 1)).map fun i => BitVec.ofNat 8 (Config.freeValue (d.freeCtr + 1 + i)))

/-- Every 100 ms (R510), and with it the hub's periodic status, whose period the spec does not give. DESIGN CHOICE (log entry 56). -/
def Dev.broadcastPeriod (d : Dev) : Dev :=
  if d.casc.lastBc + 100000000 ≤ d.upNs then
    let d1 := ({ d with casc := { d.casc with lastBc := d.upNs } }.broadcast).cascPut false d.hubStatus
    { d1 with freeCtr := d.freeCtr + 241 }
  else d

/-- Every 125 ms, on each ring to the neighbour there (R508). -/
def Dev.comparePeriod (d : Dev) : Dev :=
  if d.casc.lastCmp + 125000000 ≤ d.upNs then
    ({ d with casc := { d.casc with lastCmp := d.upNs } }.cascPut false (d.ownFrame 1 (some d.casc.b.upstream) 0 .data [])).cascPut true
      (d.ownFrame 1 (some d.casc.a.upstream) 0 .data [])
  else d

/-- The bypass follows its conditions, and so do the lines. -/
def Dev.bypassFollow (d : Dev) : Dev := d.updateBypass.cascLines

/-- FORCE is written. -/
def Dev.setForce (d : Dev) (b : Bool) : Dev := { d with casc := { d.casc with force := b } }.bypassFollow

/-! ## The CASC unit (R521 to R523) -/

def cascConfigureSpec (_ : Dev) (x : Desc) : OpSpec :=
  { len := 0x60, eff0 := true, pf := true, rsv := [(0x41, 31)],
    mem := [⟨x.get 0x28 8, max 1 (2 * x.get 0x22 2), true, false⟩, ⟨x.get 0x30 8, 65536, false, true⟩, ⟨x.get 0x38 8, 32768, false, true⟩] }
def cascSendSpec (_ : Dev) (x : Desc) : OpSpec := { eff0 := true, rsv := [(0x25, 3), (0x30, 16)], mem := [⟨x.get 0x28 8, max 1 (x.get 0x24 1), true, false⟩] }
def cascBypassSpec (_ : Dev) (_ : Desc) : OpSpec := { eff0 := true, pf := true, rsv := [(0x21, 31)] }

/-- The map that a CONFIGURE names. -/
def Dev.cascMap (d : Dev) (x : Desc) : List Nat := (List.range (x.get 0x22 2)).map fun i => leNat (d.memRead (x.get 0x28 8 + 2 * i) 2)

/-- A field is out of range, or the map breaks R522. -/
def Dev.cascBad (d : Dev) (x : Desc) : Bool :=
  let m := d.cascMap x
  let t := x.get 0x26 2
  x.get 0x20 2 > 0x3FF || x.get 0x22 2 = 0 || x.get 0x22 2 > 1024 || x.get 0x24 2 < 2 || x.get 0x24 2 > 1000 || x.get 0x40 1 > 31 ||
    (t != 0xFFFF && (t ≥ 4096 || !(d.thread t).live || (d.thread t).fn != 0)) || !m.Nodup || !m.contains (x.get 0x20 2) || m.any (· > 0x3FF)

/-- CONFIGURE: the bypass is closed until the new map is loaded, and opens again with new hops (R523). -/
def Dev.cascConfigure (d : Dev) (x : Desc) : Dev :=
  d.checked x [(d.cascBad x, stBadDesc)]
    (({ d with casc := { d.casc with cfg := x.bytes, map := d.cascMap x, dup := false, rxIdx := 0, closed := true }, waiting := d.offRings }.bypassFollow).complete x stOK 0)

/-- SEND: class 3 is done when sent, class 0 when acknowledged. -/
def Dev.cascSend (d : Dev) (x : Desc) : Dev :=
  let cls := x.get 0x22 1
  let all := x.get 0x23 1
  let n := x.get 0x24 1
  let bs := d.memRead (x.get 0x28 8) n
  d.checked x [(d.casc.cfg.isEmpty, stBusy),
      (!(cls == 0 || cls == 3) || all > 1 || (all == 1 && cls != 3) || n = 0 || n > 240 || (all == 0 && x.get 0x20 2 > 0x3FF), stBadDesc),
      (d.poisoned (x.get 0x28 8) n, stInternal)]
    (if cls = 3 then (d.cascPut false (d.ownFrame 3 (if all = 1 then none else some (x.get 0x20 2)) 0 .data bs)).complete x stOK 0
      else d.sendControl x 0 (x.get 0x20 2) .data bs)

/-- BYPASS: CLOSE is 0 or 1. -/
def Dev.cascBypass (d : Dev) (x : Desc) : Dev :=
  d.checked x [(x.get 0x20 1 > 1, stBadDesc)] ((d.setForce (x.get 0x20 1 == 1)).complete x stOK 0)

/-! ## Registers (Table 17.4) -/

/-- A neighbour register. -/
def RingSide.neigh (r : RingSide) : Nat := r.upstream + fld 10 3 r.skipped + fld 13 1 (b2n r.valid)

/-- A read of the CASC block. -/
def Dev.readCasc (d : Dev) (off : Nat) : Nat :=
  let c := d.casc
  match off with
  | 0x00 => ringState c.a c.b + fld 2 2 (ringState c.b c.a) + fld 4 1 (b2n c.closed) + fld 5 1 (b2n (!c.cfg.isEmpty)) + fld 6 1 (b2n c.dup) + fld 12 4 d.bypassCause
  | 0x04 => c.addr
  | 0x08 => b2n c.force
  | 0x0C => d.cascSeen
  | 0x10 => c.a.neigh
  | 0x14 => c.b.neigh
  | 0x18 => c.breaks + fld 16 16 c.retries
  | 0x1C => ofSigned 32 c.timeOff
  | _ => 0

/-- A write of the CASC block: FORCE, by firmware (R525). -/
def Dev.cascForce (d : Dev) (who : Requester) (v : Word) : Dev := if isFw who then d.setForce (v.getLsbD 0) else d
def Dev.writeCasc (d : Dev) (who : Requester) (off : Nat) (v : Word) : Dev := if off = 0x08 then d.cascForce who v else d

/-! ## Meanings -/

/-- CASC_CONFIGURE (R523). -/
def execCascConfigure (s : State) : Host.Outcome State Fault Refusal := ok s (s.dev.runUnit 13 1 cascConfigureSpec Dev.cascConfigure)

/-- CASC_SEND (R523). -/
def execCascSend (s : State) : Host.Outcome State Fault Refusal := ok s (s.dev.runUnit 13 2 cascSendSpec Dev.cascSend)

/-- CASC_BYPASS (R523). -/
def execCascBypass (s : State) : Host.Outcome State Fault Refusal := ok s (s.dev.runUnit 13 3 cascBypassSpec Dev.cascBypass)

/-- CASC_BYPASS_FORCE_WRITE (R525). -/
def execCascBypassForceWrite (who : Requester) (v : Word) (s : State) : Host.Outcome State Fault Refusal := ok s (s.dev.cascForce who v)

/-- CASC_FRAME_RX (R508 to R511). -/
def execCascFrameRx (ringB : Bool) (fr : CascFrame) (s : State) : Host.Outcome State Fault Refusal := ok s (s.dev.cascFrame ringB fr)

/-- CASC_HELLO_RX (R507, R515). -/
def execCascHelloRx (ringB : Bool) (h : CascHello) (s : State) : Host.Outcome State Fault Refusal := ok s (s.dev.helloRx ringB h)

/-- CONTROL_ACK_TIMEOUT (R509). -/
def execControlAckTimeout (s : State) : Host.Outcome State Fault Refusal := ok s s.dev.ackTimeouts

/-- FAULT_BROADCAST_PERIOD (R510). -/
def execFaultBroadcastPeriod (s : State) : Host.Outcome State Fault Refusal := ok s s.dev.broadcastPeriod

/-- TIME_COMPARISON_PERIOD (R508). -/
def execTimeComparisonPeriod (s : State) : Host.Outcome State Fault Refusal := ok s s.dev.comparePeriod

/-- HOP_FRAME_TIMEOUT (R516). -/
def execHopFrameTimeout (ringB : Bool) (s : State) : Host.Outcome State Fault Refusal := ok s (s.dev.hopTimeout ringB)

/-- BREAK_NOTICE_RX (R517). -/
def execBreakNoticeRx (ringB : Bool) (s : State) : Host.Outcome State Fault Refusal := ok s (s.dev.breakNotice ringB true)

/-- CLEAR_NOTICE_RX (R518). -/
def execClearNoticeRx (ringB : Bool) (s : State) : Host.Outcome State Fault Refusal := ok s (s.dev.breakNotice ringB false)

/-- BYPASS_CONDITION_CHANGE (R512, R513). -/
def execBypassConditionChange (s : State) : Host.Outcome State Fault Refusal := ok s s.dev.bypassFollow

end Sys2Proof.Machine
end

