-- ==== Sys2Proof/Machine/RateControl.lean ====
section
/-! DEFINITION. Rate control (chapter 10): the rate-control block and its checks, the buffer model, planning of pictures, row control and resolution. It reads
what R323 lists and nothing else. -/

namespace Sys2Proof.Machine

/-! ## The block (Table 10.1) -/

/-- `n` bytes of the block in force at their offset of Table 10.1, and a signed byte of it. -/
def Chan.rcGet (c : Chan) (o n : Nat) : Nat := fieldLE c.rc (o - 0x100) n
def Chan.rcS8 (c : Chan) (o : Nat) : Int := toSigned 8 (c.rcGet o 1)
def Chan.rcMode (c : Chan) : Nat := c.rcGet 0x100 1
def Chan.bitrate (c : Chan) : Nat := c.rcGet 0x108 8
def Chan.maxRate (c : Chan) : Nat := c.rcGet 0x110 8
def Chan.vbvSize (c : Chan) : Nat := c.rcGet 0x118 8
/-- The initial fullness is that of the loaded block. -/
def Chan.vbvInit (c : Chan) : Nat := c.get 0x120 8
def Chan.isXs (c : Chan) : Bool := c.codec == 3
/-- The fill rate (R304). -/
def Chan.fillRate (c : Chan) : Nat := if c.rcMode = 0 then c.bitrate else c.maxRate
/-- The bits that arrive during picture j (R304). -/
def arrival (j rate num den : Nat) : Nat := (j + 1) * rate * den / num - j * rate * den / num
/-- The smallest and the largest of them. -/
def arrivalMin (rate num den : Nat) : Nat := rate * den / num
def arrivalMax (rate num den : Nat) : Nat := ceilDiv (rate * den) num

/-- Table 10.2: inter and intra floor cost of a CTU. -/
def floorCost (codec ctu : Nat) : Nat × Nat :=
  match codec, ctu with
  | 0, _ => (8, 24)
  | 1, 32 => (8, 40)
  | 2, 128 => (16, 320)
  | 1, _ => (12, 96)
  | 2, _ => (12, 96)
  | _, _ => (0, 0)

/-- CTU columns n = Wc / C (R310). -/
def Chan.cols (c : Chan) : Nat := ceilDiv c.width c.ctu
def Chan.margin (c : Chan) : Nat := c.rcGet 0x130 2
def Chan.mInter (c : Chan) : Nat := c.cols * (floorCost c.codec c.ctu).1 + c.margin
def Chan.mIntra (c : Chan) : Nat := c.cols * (floorCost c.codec c.ctu).2 + c.margin
/-- Floor sizes (R310). -/
def Chan.zP (c : Chan) : Nat := c.rowCount * c.mInter + 2048
def Chan.zK (c : Chan) : Nat := c.rowCount * c.mIntra + 8192

/-- QP limits (R302). -/
def Chan.qpLo (c : Chan) : Int := if c.depth = 8 then 0 else -12
def Chan.qpHi (c : Chan) : Int := if c.codec = 2 then 63 else 51

/-- ES_SIZE holds the largest picture and 1 MiB (R303). -/
def Chan.esTooSmall (c : Chan) : Bool :=
  decide (c.esSize < ceilDiv (c.vbvSize + 2 * arrivalMax c.fillRate c.num c.den) 8 + 2 ^ 20)

/-- The block of a JPEG XS channel holds BITRATE alone (R302). -/
def Chan.rcBadXs (c : Chan) : Bool := !zeroBytes c.rc 0 8 || !zeroBytes c.rc 0x10 240 || c.esTooSmall

/-- A field of the block breaks Table 10.1; `init` judges VBV_INIT too. -/
def Chan.rcBadFields (c : Chan) (init : Bool) : Bool :=
  let mode := c.rcMode
  let cbr := mode == 0
  let vbr := mode == 2
  let r (lo hi : Int) (o : Nat) : Bool := !(decide (lo ≤ c.rcS8 o) && decide (c.rcS8 o ≤ hi))
  let u (lo hi o n : Nat) : Bool := !(decide (lo ≤ c.rcGet o n) && decide (c.rcGet o n ≤ hi))
  let zero (o n : Nat) : Bool := c.rcGet o n != 0
  let amax := arrivalMax c.fillRate c.num c.den
  mode > 2 || (if cbr then u 1 255 0x101 1 else zero 0x101 1) || u 256 1024 0x102 2 || !zeroBytes c.rc 4 4 || !zeroBytes c.rc 0x39 199 ||
    (vbr && zero 0x108 8) || (if cbr then zero 0x110 8 else c.maxRate < c.bitrate) || (init && u amax c.vbvSize 0x120 8) ||
    r c.qpLo c.qpHi 0x128 || r (c.rcS8 0x128) c.qpHi 0x129 || r c.qpLo c.qpHi 0x12A || (if vbr then r c.qpLo c.qpHi 0x12B else zero 0x12B 1) ||
    u 256 4095 0x12C 2 || u 32 256 0x12E 2 || u 256 65535 0x130 2 || u 0 12 0x132 1 || (if vbr then r (-12) 0 0x133 else zero 0x133 1) ||
    (if mode == 1 then u 1 65535 0x134 4 else zero 0x134 4) || (if vbr then u 0 12 0x138 1 else zero 0x138 1)

/-- The CTU size is one of the codec's (Table 9.2). -/
def Chan.ctuFits (c : Chan) : Bool :=
  match c.codec with
  | 0 => c.get 0x27 1 == 16
  | 1 => c.get 0x27 1 == 32 || c.get 0x27 1 == 64
  | 2 => c.get 0x27 1 == 64 || c.get 0x27 1 == 128
  | _ => c.get 0x27 1 == 0

/-- BAD_DESCRIPTOR of R303. -/
def Chan.rcBad (c : Chan) (init : Bool) : Bool :=
  if c.isXs then c.rcBadXs
  else c.rcBadFields init || c.vbvSize < 2 * arrivalMax c.fillRate c.num c.den || (c.ctuFits && arrivalMin c.fillRate c.num c.den < c.zK) ||
    c.esTooSmall

/-! ## Level limits

The limits are those of the standards, which the spec names and does not repeat (PRESUMED, log entry 24). -/

/-- AVC, H.264 Table A-1, by level x 10: macroblocks a second, macroblocks a picture, MaxBR and MaxCPB in 1,000 bits. -/
def avcLevel : Nat → Option (Nat × Nat × Nat × Nat)
  | 10 => some (1485, 99, 64, 175) | 11 => some (3000, 396, 192, 500) | 12 => some (6000, 396, 384, 1000)
  | 13 => some (11880, 396, 768, 2000) | 20 => some (11880, 396, 2000, 2000) | 21 => some (19800, 792, 4000, 4000)
  | 22 => some (20250, 1620, 4000, 4000) | 30 => some (40500, 1620, 10000, 10000) | 31 => some (108000, 3600, 14000, 14000)
  | 32 => some (216000, 5120, 20000, 20000) | 40 => some (245760, 8192, 20000, 25000) | 41 => some (245760, 8192, 50000, 62500)
  | 42 => some (522240, 8704, 50000, 62500) | 50 => some (589824, 22080, 135000, 135000) | 51 => some (983040, 36864, 240000, 240000)
  | 52 => some (2073600, 36864, 240000, 240000) | 60 => some (4177920, 139264, 240000, 240000)
  | 61 => some (8355840, 139264, 480000, 480000) | 62 => some (16711680, 139264, 800000, 800000)
  | _ => none

/-- HEVC and VVC, by level x 10: luma samples a picture, luma samples a second, and the MaxBR and MaxCPB of the main and the high tier in 1,000 bits
(0 = the level has no high tier). VVC differs in the main tier of 6.0 and 6.2. -/
def hevcLevel (vvc : Bool) : Nat → Option (Nat × Nat × (Nat × Nat) × (Nat × Nat))
  | 10 => some (36864, 552960, (128, 350), (0, 0)) | 20 => some (122880, 3686400, (1500, 1500), (0, 0))
  | 21 => some (245760, 7372800, (3000, 3000), (0, 0)) | 30 => some (552960, 16588800, (6000, 6000), (0, 0))
  | 31 => some (983040, 33177600, (10000, 10000), (0, 0)) | 40 => some (2228224, 66846720, (12000, 12000), (30000, 30000))
  | 41 => some (2228224, 133693440, (20000, 20000), (50000, 50000)) | 50 => some (8912896, 267386880, (25000, 25000), (100000, 100000))
  | 51 => some (8912896, 534773760, (40000, 40000), (160000, 160000)) | 52 => some (8912896, 1069547520, (60000, 60000), (240000, 240000))
  | 60 => some (35651584, 1069547520, if vvc then (80000, 80000) else (60000, 60000), (240000, 240000))
  | 61 => some (35651584, 2139095040, (120000, 120000), (480000, 480000))
  | 62 => some (35651584, 4278190080, if vvc then (180000, 180000) else (240000, 240000), (800000, 800000))
  | _ => none

/-- Limits of the signalled profile, tier and level: luma samples a picture and a second, NAL bit rate and NAL CPB size in bits. -/
def Chan.limits (c : Chan) : Option (Nat × Nat × Nat × Nat) :=
  let level := c.get 0x24 1
  match c.codec with
  | 0 =>
    let f := if c.profile = 2 then 4800 else 3600
    (avcLevel level).map fun e => (e.2.1 * 256, e.1 * 256, e.2.2.1 * f, e.2.2.2 * f)
  | 3 => none
  | k =>
    let f := if c.profile = 2 then (if k = 1 then 1833 else 2750) else 1100
    match hevcLevel (k == 2) level with
    | none => none
    | some e =>
      let t := if c.get 0x25 1 = 0 then e.2.2.1 else e.2.2.2
      if t.1 = 0 then none else some (e.1, e.2.1, t.1 * f, t.2 * f)

/-- Luma samples a second of the JPEG XS 8k-2 level, and 12 bits for each. -/
def xsRate : Nat := 2139095040

/-- REJECTED_GEOMETRY of R303. -/
def Chan.rcGeometry (c : Chan) : Bool :=
  (match c.limits with
    | some l => l.2.2.1 < c.fillRate || l.2.2.2 < c.vbvSize
    | none => xsRate * 12 < c.fillRate) ||
  c.cols < c.refreshPics

/-! ## The buffer model (R304 to R309) -/

/-- Bytes of the least filler NAL unit: header and trailing bits (PRESUMED from the standards, log entry 24). -/
def Chan.fillerMin (c : Chan) : Nat := match c.codec with | 0 => 2 | 3 => 1 | _ => 3

/-- The planning lag L (R308). -/
def Chan.lag (c : Chan) : Nat :=
  max 2 (ceilDiv ((c.outDelay + 20000) * c.num + (c.depthG - 1) * c.den * 1000000000) (c.den * 1000000000))

/-- One step of R305 from a fullness, for a picture of size b. -/
def Chan.flow1 (c : Chan) (p : Pic) (f b : Int) : Int :=
  let f := if p.base then min f p.vbv else f
  if c.rcMode = 0 then f - b + p.arr else min p.vbv (f - b + p.arr)

/-- The picture with a coding index, planned or resolved. -/
def Chan.picAt (c : Chan) (j : Nat) : Option Pic := (c.flight ++ c.hist).find? (·.j == j)

/-- One step of R305 for a picture that is still in coding, with its budget as its size (R309). Under CBR its filler of R306, if any, leaves at most `VBV_SIZE` and
at least that less what the least filler NAL unit can pass it by, so the estimate stays at or below the exact fullness (log entry 62). -/
def Chan.flowBound (c : Chan) (p : Pic) (f : Int) : Int :=
  let x := c.flow1 p f p.budget
  if c.rcMode = 0 && !c.isXs then min x (p.vbv - (8 * c.fillerMin - 1)) else x

/-- The estimated fullness before the picture of coding index j (R309); that of a RATE picture never passes the new VBV_SIZE (R332). -/
def Chan.fhat (c : Chan) (j : Nat) (base : Bool) (vbv : Nat) : Int :=
  let known := c.hist.find? fun p => p.j + c.lag ≤ j
  let (start, f0) : Nat × Int := match known with | some p => (p.j + 1, p.after) | none => (0, (c.vbvInit : Int))
  let f := (List.range (j - start)).foldl (fun f i =>
    match c.picAt (start + i) with
    | some p => c.flowBound p f
    | none => f) f0
  let f := if j = 0 then f else max f (match c.picAt (j - 1) with | some p => p.arr | none => 0)
  if base then min f (vbv : Int) else f

/-! ## Planning (R310 to R314, R327) -/

/-- The intra columns of picture i of a refresh cycle: from the first to below the second (R327). -/
def Chan.intraCols (c : Chan) : Nat × Nat := (c.cycle * c.cols / c.refreshPics, (c.cycle + 1) * c.cols / c.refreshPics)

/-- Their count. -/
def Chan.refreshCols (c : Chan) : Nat := c.intraCols.2 - c.intraCols.1

/-- The minimum row cost of a picture (R310). -/
def Chan.rowMin (c : Chan) (typ : PicType) : Nat :=
  if typ = .key then c.mIntra
  else if c.latMode = 1 then
    let k := c.refreshCols
    k * (floorCost c.codec c.ctu).2 + (c.cols - k) * (floorCost c.codec c.ctu).1 + c.margin
  else c.mInter

/-- The weight of a picture (R311). -/
def Chan.weight (c : Chan) (typ : PicType) : Nat :=
  match typ with
  | .key => c.rcGet 0x12C 2
  | .p => 256
  | .b => if c.latMode = 1 then 256 else c.rcGet 0x12E 2

/-- Picture s of R313. -/
def Chan.picS (c : Chan) (j : Nat) (typ : PicType) : Option Pic :=
  c.hist.find? fun p => p.typ = typ && !p.isRepeat && p.j + c.lag ≤ j

/-- Table 10.3: the thresholds T with 256 a at or above T b. -/
def steps (a b : Int) : Int := (([287, 323, 362, 406, 456, 512].filter fun t => decide ((t : Int) * b ≤ 256 * a)).length : Int)

/-- A QP clamped to QP_MIN to QP_MAX. -/
def Chan.clampQp (c : Chan) (q : Int) : Int := max (c.rcS8 0x128) (min (c.rcS8 0x129) q)

/-- The target (R311). -/
def Chan.target (c : Chan) (typ : PicType) (arr avg fhat d : Int) : Int :=
  let w : Int := c.weight typ
  match c.rcMode with
  | 0 => arr * w / 256 + (fhat - (c.vbvSize * c.rcGet 0x101 1 / 256 : Nat)) / 8
  | 1 => avg * w / 256 - d / (c.rcGet 0x134 4 : Nat)
  | _ => 0

/-- The picture QP (R313). -/
def Chan.picQp (c : Chan) (typ : PicType) (t : Int) (s : Option Pic) : Int :=
  c.clampQp
    (if c.rcMode = 2 then
      c.rcS8 0x12B + (match typ with | .key => c.rcS8 0x133 | .p => 0 | .b => (c.rcGet 0x138 1 : Int))
    else match s with
      | none => c.rcS8 0x12A
      | some p => p.qp + steps ((p.size : Int) - p.filler) t - steps t ((p.size : Int) - p.filler))

/-- The first row of each member's band (R64). -/
def bandStarts : Nat → List Nat → List (Nat × Nat)
  | _, [] => []
  | a, n :: ns => (a, n) :: bandStarts (a + n) ns

/-- D over the pictures up to coding index j - L (R311, R332). -/
def Chan.dFor (c : Chan) (j : Nat) : Int :=
  match c.hist.find? fun p => p.j + c.lag ≤ j with
  | some p => if c.rcBase ≤ p.j then p.dsum else 0
  | none => 0

/-- The bands of a picture (R314). `ovh` is the overhead that member 0 counts before its first row. -/
def Chan.bandsOf (c : Chan) (typ : PicType) (budget target : Int) (qp : Int) (ovh : Nat) (s : Option Pic) : List Band :=
  let m := c.rowMin typ
  let over_ := if typ = .key then 8192 else 2048
  let z : Int := c.rowCount * m + over_
  let w (r : Nat) : Nat := match s with | some p => max m (p.costs.getD r 0) | none => 1
  let total : Int := ((List.range c.rowCount).map w).sum
  (bandStarts 0 c.rows).zipIdx.map fun e =>
    let ws := (List.range e.1.2).map fun i => w (e.1.1 + i)
    let wb : Int := ws.sum
    let zb : Int := e.1.2 * m + (if e.2 = 0 then over_ else 0)
    let o := if e.2 = 0 then ovh else 0
    { first := e.1.1, last := e.1.1 + e.1.2 - 1, next := e.1.1, budget := zb + (budget - z) * wb / total, target := target * wb / total,
      ovh := o, m := m, spent := o, qp := qp, weights := ws }

/-- The bits of the NAL units before a picture's first slice. -/
def headBits (hs : List (HeadNal × Nat)) : Nat := 8 * (hs.map (·.2)).sum

/-- The next picture in coding order, planned (R294, R309 to R314, R327). `heads` are the NAL units before its first slice, with 64 bytes for a buffering-period
message (R310, R321). -/
def Chan.planPic (c : Chan) (typ : PicType) (out : Nat) (base : Bool) (heads : List (HeadNal × Nat)) : Pic :=
  let i := c.j - (if base then c.j else c.rcBase)
  let arr : Int := arrival i c.fillRate c.num c.den
  let avg : Int := arrival i c.bitrate c.num c.den
  let z : Int := if typ = .key then c.zK else c.rowCount * c.rowMin typ + 2048
  let f := c.fhat c.j base c.vbvSize
  let t := c.target typ arr avg f (if base then 0 else c.dFor c.j)
  let b := if c.rcMode = 2 then f else min f (max z (t * (c.rcGet 0x102 2 : Nat) / 256))
  let s := c.picS c.j typ
  let q := c.picQp typ t s
  let refresh := c.latMode == 1 && typ != .key
  { j := c.j, out := out, mt := c.mt (c.k0 + out), typ := typ, budget := if c.isXs then arr else b, target := t, qp := q,
    bands := if c.isXs then (bandStarts 0 c.rows).map fun e => { first := e.1, last := e.1 + e.2 - 1, next := e.1 } else c.bandsOf typ b t q (headBits heads) s,
    arr := arr, avg := avg, vbv := c.vbvSize, base := base, ovh := headBits heads, heads := heads, rc := c.rc,
    intra := if refresh then c.intraCols else (0, 0), clean := if refresh then c.intraCols.2 else if typ = .key then c.cols else 0, cycle0 := c.j - c.cycle,
    refreshDone := refresh && c.cycle + 1 = c.refreshPics }

/-! ## Rows (R315 to R317, R322) -/

/-- The cap of a band's next row (R315). -/
def Band.cap (b : Band) : Int := b.budget - b.spent - ((b.last : Int) - b.next) * b.m

/-- The plan of R317. -/
def Band.plan (b : Band) : Int :=
  b.ovh + (b.target - b.ovh) * (((b.weights.take (b.next - b.first)).sum : Nat) : Int) / ((b.weights.sum : Nat) : Int)

/-- The row QP step of R317. -/
def Band.step (b : Band) : Int :=
  let v := 256 * b.spent
  let p := b.plan
  if 320 * p ≤ v then 2 else if 272 * p ≤ v then 1 else if v < 205 * p then -2 else if v < 240 * p then -1 else 0

/-- What is decided before the next row of a band is coded: whether the budget is exhausted, and the row's QP. The limits are those of the block in force for
the picture (R323, R332). -/
def Chan.startBandRow (c0 : Chan) (p : Pic) (b : Band) : Band :=
  let c := { c0 with rc := p.rc }
  let qp := p.qp
  if c.isXs then b
  else if b.exhausted || b.cap ≤ b.m then { b with exhausted := true }
  else if b.next = b.first || c.rcMode = 2 then b
  else
    let span : Int := c.rcGet 0x132 1
    { b with qp := c.clampQp (max (qp - span) (min (qp + span) (b.qp + b.step))) }

/-- Bits of slice r of a JPEG XS picture (R322). -/
def Chan.xsRow (c : Chan) (p : Pic) (r : Nat) : Nat :=
  let total := p.arr.toNat / 8
  let n := c.rowCount
  8 * (if r + 1 = n then total - (n - 1) * (total / n) else total / n)

/-- The floor cost c of each CTU of a row of a picture (R310): the intra value in a key picture and in the intra columns of a refresh (R315, R327). -/
def Chan.ctuFloors (c : Chan) (p : Pic) : List Nat :=
  (List.range c.cols).map fun x =>
    if p.typ = .key || (p.intra.1 ≤ x && x < p.intra.2) then (floorCost c.codec c.ctu).2 else (floorCost c.codec c.ctu).1

/-- What the coder's decisions give for one CTU row: the bits before its first CTU, the bits that each CTU takes as it is decided, and those that it takes at
floor (R316). -/
structure RowCost where
  head   : Nat
  ctus   : List Nat
  floors : List Nat
  deriving DecidableEq, Repr

/-- The CTU guard of R316 over the CTUs of a row, each with the bits that it takes, those that it takes at floor, and its floor cost c, after `b` bits of the row:
how many CTUs stand as they were decided. -/
def guardCut (cap : Nat) : List (Nat × Nat × Nat) → Nat → Nat
  | [], _ => 0
  | e :: es, b => if cap < b + e.1 + (es.map (·.2.2)).sum then 0 else 1 + guardCut cap es (b + e.1)

/-- The CTUs of a row as `guardCtus` takes them. -/
def Chan.rowCtus (c : Chan) (p : Pic) (cost : RowCost) : List (Nat × Nat × Nat) :=
  (c.ctuFloors p).zipIdx.map fun e => (cost.ctus.getD e.2 0, cost.floors.getD e.2 0, e.1)

/-- The slices of a picture as first row and rows: whole CTU rows within each band (Table 9.2, Table 9.4). -/
def Chan.slices (c : Chan) : List (Nat × Nat) :=
  (bandStarts 0 c.rows).flatMap fun e =>
    let n := if c.isXs then 1 else if c.sliceRows = 0 then e.2 else c.sliceRows
    (List.range (ceilDiv e.2 n)).map fun k => (e.1 + k * n, min n (e.2 - k * n))

/-- The bits of row r when its decisions give `bits` and at most `cap` are free: the last row of a slice takes the bits that fill its NAL unit's last byte,
so that the rows of a slice add up to its bytes. `costs` are those of the rows before it. -/
def Chan.alignRow (c : Chan) (costs : Nat → Nat) (r bits cap : Nat) : Nat :=
  match c.slices.find? fun s => s.1 ≤ r && r < s.1 + s.2 with
  | some s =>
    if r + 1 = s.1 + s.2 then
      let t := ((List.range (s.2 - 1)).map fun i => costs (s.1 + i)).sum
      min (roundUp (t + bits) 8) ((t + cap) / 8 * 8) - t
    else bits
  | none => bits

/-- Bits of row r. -/
def Pic.rowCost (p : Pic) (r : Nat) : Nat :=
  match p.bands.find? fun b => b.first ≤ r && r < b.next with
  | some b => b.costs.getD (r - b.first) 0
  | none => 0

/-- The bits before a row's first CTU; they fit ROW_MARGIN. -/
def Chan.rowHead (c : Chan) (p : Pic) (cost : RowCost) : Nat := min cost.head ({ c with rc := p.rc } : Chan).margin

/-- How many CTUs of the band's next row stand as they were decided; the others are coded at floor (R315, R316). -/
def Chan.rowCut (c : Chan) (p : Pic) (b : Band) (cost : RowCost) : Nat :=
  if c.isXs then c.cols else if b.exhausted then 0 else guardCut b.cap.toNat (c.rowCtus p cost) (c.rowHead p cost)

/-- The bits that the band's next row takes, at most its cap, and at most m at floor, and whether the guard turned its tail to floor (R310, R315, R316). -/
def Chan.rowBits (c : Chan) (p : Pic) (b : Band) (cost : RowCost) : Nat × Bool :=
  if c.isXs then (c.xsRow p b.next, false)
  else
    let es := c.rowCtus p cost
    let k := c.rowCut p b cost
    let n := c.rowHead p cost + ((es.take k).map (·.1)).sum + ((es.drop k).map fun x => min x.2.1 x.2.2).sum
    (c.alignRow p.rowCost b.next n (if b.exhausted then b.m else b.cap).toNat, !b.exhausted && decide (k < es.length))

/-- The least and largest of a QP and an optional one. -/
def optMin (a : Option Int) (b : Int) : Option Int := some (match a with | some x => min x b | none => b)
def optMax (a : Option Int) (b : Int) : Option Int := some (match a with | some x => max x b | none => b)

/-- A picture after the next row of a member's band is coded; `code` determines the row's reconstruction. -/
def Chan.endPicRow (c : Chan) (p : Pic) (m : Nat) (cost : RowCost) (code : Nat × Nat) : Pic :=
  match p.bands[m]? with
  | none => p
  | some b =>
    let bits := (c.rowBits p b cost).1
    let b1 := { b with
      spent := b.spent + bits, next := b.next + 1, costs := b.costs ++ [bits], codes := b.codes ++ [code], qps := b.qps ++ [if b.exhausted then none else some b.qp] }
    { p with bands := p.bands.set m b1 }

/-- The rows of a picture coded from the top without a gap. -/
def Pic.contig (p : Pic) : Nat :=
  p.bands.foldl (fun n b => if n = b.first then b.next else n) 0

/-- What determines the reconstruction of row r of a picture: its clean columns, and the whole row (R328). -/
def Pic.rowCode (p : Pic) (r : Nat) : Nat × Nat :=
  if p.bands.isEmpty then p.codes.getD r (0, 0)
  else match p.bands.find? fun b => b.first ≤ r && r < b.next with
    | some b => b.codes.getD (r - b.first) (0, 0)
    | none => (0, 0)

/-! ## Resolution (R305, R306, R319) -/

/-- The filler of a picture of b bits removed at fullness f (R306). -/
def Chan.fillerFor (c : Chan) (p : Pic) (f b : Int) : Nat :=
  let e := f - b + p.arr - p.vbv
  if c.rcMode = 0 && 0 < e then 8 * max c.fillerMin (ceilDiv e.toNat 8) else 0

/-- Resolved pictures are kept while they can still be read: the last 200, and the latest of each type before them that is no repeat. -/
def pruneHist (j : Nat) (h : List Pic) : List Pic :=
  let old := h.filter fun p => p.j + 200 ≤ j
  let keep (t : PicType) : List Pic := (old.find? fun p => p.typ = t && !p.isRepeat).toList
  (h.filter fun p => !(p.j + 200 ≤ j)) ++ keep .key ++ keep .p ++ keep .b

/-- The exact fullness before the picture at the head is removed (R305, R332). -/
def Chan.fullAt (c : Chan) (p : Pic) : Int := if p.base then min c.full p.vbv else c.full

/-- The bits of a picture without its filler: the NAL units before its first slice, and its slices. -/
def Chan.picBits (c : Chan) (p : Pic) : Nat := headBits p.heads + ((List.range c.rowCount).map p.rowCost).sum

/-- A picture of known size enters the buffer model, D and the history (R305, R311), unless a snapshot has brought its record (R383). -/
def Chan.enter (c : Chan) (p : Pic) : Chan :=
  if c.hist.any (·.j == p.j) then c
  else
    let f := c.fullAt p - p.size + p.arr
    let nf := if c.rcMode = 0 then f else min p.vbv f
    let d := (if p.base then 0 else c.dsum) + (p.size : Int) - p.avg
    { c with full := nf, dsum := d, hist := pruneHist p.j ({ p with after := nf, dsum := d, bands := [] } :: c.hist) }

/-- The lowest and the highest QP of a resolved picture's rows, floor rows at the codec's highest for the one and left out for the other (R333); JPEG XS has none. -/
def Chan.qpRange (c : Chan) (p : Pic) : Option Int × Option Int :=
  let qs := p.bands.flatMap (·.qps)
  if c.isXs then (none, none) else (qs.foldl (fun a q => optMin a (q.getD c.qpHi)) none, qs.foldl (fun a q => match q with | some x => optMax a x | none => a) none)

/-- A picture is resolved: it gets its filler, which a JPEG XS repeat has from its source, and enters the buffer model (R289, R305, R306). -/
def Chan.resolve (c : Chan) (p : Pic) : Chan × Pic :=
  let b := c.picBits p
  let fil := if p.copyOf.isSome then p.filler else c.fillerFor p (c.fullAt p) b
  let p1 := { p with
    size := b + fil, filler := fil, lowQp := (c.qpRange p).1, highQp := (c.qpRange p).2, costs := (List.range c.rowCount).map p.rowCost, codes := (List.range c.rowCount).map p.rowCode }
  ({ c.enter p1 with filler := c.filler + fil, bits := c.bits + (b + fil) }, p1)

/-! ## RATE (R330 to R332) -/

/-- The block after a RATE descriptor. -/
def applyRate (rc : List Byte) (x : Desc) : List Byte :=
  let ch := x.get 0x22 2
  let rc := if bitN ch 0 then overlay rc 8 ((x.bytes.drop 0x28).take 24) else rc
  let rc := if bitN ch 1 then overlay (overlay rc 0x28 ((x.bytes.drop 0x40).take 2)) 0x2B ((x.bytes.drop 0x42).take 1) else rc
  if bitN ch 2 then overlay rc 0x2C ((x.bytes.drop 0x44).take 4) else rc

/-- Fields whose CHANGE bit is clear are 0 (R331). -/
def rateFieldsBad (x : Desc) : Bool :=
  let ch := x.get 0x22 2
  ch = 0 || ch > 7 || (!bitN ch 0 && !zeroBytes x.bytes 0x28 24) || (!bitN ch 1 && !zeroBytes x.bytes 0x40 3) || (!bitN ch 2 && !zeroBytes x.bytes 0x44 4)

/-! ## Telemetry (Table 10.6) -/

/-- The STATS record (Table 9.7), 128 bytes. -/
def Chan.statsRecord (c : Chan) : List Byte :=
  let p := c.hist.headD {}
  let s (n : Nat) (v : Int) : List Byte := toLE n (ofSigned (8 * n) v)
  toLE 8 c.pics ++ toLE 8 c.repeats ++ toLE 8 c.misses ++ toLE 8 c.keys ++ s 8 c.full ++ toLE 8 p.size ++ s 8 p.budget ++
    s 8 (if c.rcMode = 2 then 0 else p.target) ++ s 2 p.qp ++ s 2 (p.lowQp.getD p.qp) ++ s 2 (p.highQp.getD p.qp) ++ toLE 2 0 ++ toLE 8 c.exhausted ++
    toLE 8 c.floorRows ++ toLE 8 c.filler ++ toLE 8 c.bits ++ toLE 8 p.mt ++ zeros 16

end Sys2Proof.Machine
end

