-- ==== Sys2Proof/Machine/Channels.lean ====
section
/-! DEFINITION. What several blocks do to a channel: sheds and restores (R77 to R79, R298 to R300, R371), and on a twin pair its history records, their
comparison, divergence and repair (R373 to R385). -/

namespace Sys2Proof.Machine

/-! ## Twin state of a channel -/

def Dev.twinCh (d : Dev) (n : Nat) : TwinCh := d.twin.chs.get {} n
def Dev.putTwinCh (d : Dev) (n : Nat) (t : TwinCh) : Dev := { d with twin := { d.twin with chs := d.twin.chs.put {} n t } }
def Dev.modTwinCh (d : Dev) (n : Nat) (f : TwinCh → TwinCh) : Dev := d.putTwinCh n (f (d.twinCh n))

/-- The channel is twinned and the pair is PAIRED. -/
def Dev.linked (d : Dev) (n : Nat) : Bool := d.paired && d.twinnedChannel n

/-- RUNNING or STOPPING. -/
def Chan.active (c : Chan) : Bool := c.st == .running || c.st == .stopping

/-- What the partner learns of a channel (R380, R385, R390): its state there and its context digest. -/
def Chan.notice (c : Chan) : Nat := match c.st with | .free => 0 | .loaded | .admitted => 1 | .running => 2 | .stopping => 3

/-- A command that the device raises itself and that both halves agree on (R366, R371, R382): 8, the restore of a shed channel, or 9, the KEYPIC of a copy point. Neither is
a code of Table 9.4, so no descriptor has their key. -/
def Dev.holdInternal (d : Dev) (op n : Nat) : Dev :=
  let c := d.channel n
  let own := c.mt (c.k0 + c.outNext + d.leadPoints)
  if d.pend.any fun p => p.internal && p.unit == 4 && p.op == op && p.obj == n && p.twin != .none then d
  else
    let d1 := d.emit (.twin 1 n own (proposalBytes 4 op n 0))
    let p : Pend := { unit := 4, op := op, obj := n, internal := true, since := d.ctl.ticks }
    match d1.proposalFor 4 op n 0 with
    | some q => { d1 with pend := d1.pend ++ [{ p with twin := .agreed (max own q.mt) }], twin := { d1.twin with proposals := d1.twin.proposals.erase q } }
    | none => { d1 with pend := d1.pend ++ [{ p with twin := .waiting own }] }

/-- The context without the bytes that change no byte of a picture (R277, R390). -/
def codedContext (ctx : List Byte) : List Byte :=
  let z := [(0x38, 2), (0x4C, 2), (0x50, 28)].foldl (fun (t : List Byte) (r : Nat × Nat) => overlay t r.1 (zeros r.2)) ctx
  (z.drop 0x20).take 0x7E0

/-- The context digest of R390. -/
def contextDigest (ctx : List Byte) : BitVec 64 := crc64 (codedContext ctx)

/-- The partner is told how a twinned channel stands here. -/
def Dev.tellChannel (d : Dev) (n : Nat) : Dev :=
  if d.linked n then d.emit (.twin 15 n 0 (toLE 1 (d.channel n).notice ++ toLE 8 (contextDigest (d.channel n).ctx).toNat)) else d

/-! ## Sheds -/

/-- The channel is shed for a cause, on every member (R77): its first repeat takes the place of the first picture that is not yet planned, whose media time its partner
learns (R78, R294, R371). What has been planned is coded to its end (log entry 52). A shed for
a cause whose restore is agreed but not yet reached withdraws that restore. -/
def Dev.shedChannel (d : Dev) (cause n : Nat) : Dev :=
  let c := d.channel n
  if !c.active then d
  else if d.fab.shed.contains (cause, n) then { d with pend := d.pend.filter fun p => !(p.internal && p.unit == 4 && p.op == 8 && p.obj == n) }
  else
    let d1 := { d with fab := { d.fab with shed := d.fab.shed ++ [(cause, n)] } }.putChannel n { c with shed := true, shedFrom := if c.shed then c.shedFrom else c.mt (c.k0 + c.outNext) }
    if d.linked n && !c.shed then d1.emit (.twin 7 n (c.mt (c.k0 + c.outNext)) []) else d1

/-- The channels with a share on a pipe, in order. -/
def Dev.sharing (d : Dev) (p : Nat) : List Nat := (d.chan.filter fun e => e.2.pipes.contains p).map (·.1)

/-- Shed a list of channels for one cause. -/
def Dev.shedAll (d : Dev) (cause : Nat) (ns : List Nat) : Dev := ns.foldl (fun e n => e.shedChannel cause n) d

/-- Every cause is gone: the channel resumes with a key picture (R79, R295). -/
def Dev.unshed (d : Dev) (n : Nat) : Dev :=
  { d with fab := { d.fab with shed := d.fab.shed.filter fun e => e.2 != n } }.modChannel n fun c => { c with shed := false, shedFrom := 0, keyDuty := true }

/-- One cause is released. The channel resumes when no cause is left, on a pair at an agreed point (R371), until which it stays among the shed ones and holds
those shed before it back (R79). -/
def Dev.restoreChannel (d : Dev) (cause n : Nat) : Dev :=
  let rest := d.fab.shed.filter fun e => e != (cause, n)
  if rest == d.fab.shed then d
  else if rest.any (fun e => e.2 == n) then { d with fab := { d.fab with shed := rest } }
  else if d.linked n then d.holdInternal 8 n
  else d.unshed n

/-- Release a cause from every channel, the last shed first (R79, R298, R299). -/
def Dev.restoreAll (d : Dev) (cause : Nat) : Dev :=
  ((d.fab.shed.filter fun e => e.1 == cause).reverse).foldl (fun e s => e.restoreChannel cause s.2) d

/-- An agreed restore that is due at a picture of media time m. -/
def restoreDue (n m : Nat) (p : Pend) : Bool := p.internal && p.unit == 4 && p.op == 8 && p.obj == n && p.due m

/-- At a picture of media time m that is not yet planned an agreed restore takes effect (R371). -/
def Dev.restorePoint (d : Dev) (n m : Nat) : Dev :=
  if d.pend.any (restoreDue n m) then { d with pend := d.pend.filter fun p => !restoreDue n m p }.unshed n else d

/-! ## History records (R373 to R375) -/

/-- The place of the record of coding index j. -/
def Dev.histAddr (d : Dev) (n j : Nat) : Nat := fieldLE d.twin.cfg 0x28 8 + n * 32768 + j % 1024 * 32

/-- The 32 bytes of Table 12.2. -/
def histBytes (r : HistRecord) : List Byte :=
  toLE 8 r.mt ++ toLE 8 r.digest ++ toLE 4 r.size ++ toLE 2 r.flags ++ toLE 2 0 ++ toLE 4 r.index ++ toLE 4 0

/-- A record as the history area holds it. -/
def Dev.histRead (d : Dev) (n j : Nat) : HistRecord :=
  let b := d.memRead (d.histAddr n j) 32
  ⟨fieldLE b 0 8, fieldLE b 8 8, fieldLE b 0x10 4, fieldLE b 0x14 2, fieldLE b 0x18 4⟩

/-- The own record of a picture: it lies within a mini-GOP of its place in output order. -/
def Dev.ownRecord (d : Dev) (n mt : Nat) : Option HistRecord :=
  let c := d.channel n
  let o := gridIndex c.num c.den mt - c.k0
  ((List.range 17).find? fun i => (d.histRead n (o + i - 8)).mt == mt && decide (o + i - 8 < c.pics)).map fun i => d.histRead n (o + i - 8)

/-- Two records of one picture agree: digest, size and what the stream shows; whether a half coded from a snapshot or was muted is its own matter. -/
def histAgrees (a b : HistRecord) : Bool := a.digest == b.digest && a.size == b.size && bits a.flags 0 4 == bits b.flags 0 4

/-- The first coding index of which no slice has been released. -/
def Chan.firstUnreleased (c : Chan) : Nat :=
  match c.flight with
  | p :: _ => if p.released = 0 then p.j else p.j + 1
  | [] => c.j

/-- The follower mutes the channel from its first picture with no slice released and goes to the skip path (R381). -/
def Dev.muteFrom (d : Dev) (n : Nat) : Dev :=
  d.modChannel n fun c =>
    let from_ := c.firstUnreleased
    { c with muted := true, muteFrom := if c.muted then c.muteFrom else from_,
             flight := c.flight.map fun p => if from_ ≤ p.j && p.limit.isNone then { p with limit := some (0, false) } else p }

/-- A copy is wanted: when nothing else would give a copy point, both halves raise a KEYPIC (R382). -/
def Dev.wantCopy (d : Dev) (n : Nat) : Dev :=
  let c := d.channel n
  let d1 := d.modTwinCh n fun t => { t with copy := true }
  if d.linked n && c.keyInterval = 0 && c.latMode != 1 && !c.isXs then d1.holdInternal 9 n else d1

/-- An attempt to copy has failed: the follower stays muted, goes on by the skip path and tries again at the next copy point (R384). -/
def Dev.copyFailed (d : Dev) (n : Nat) : Dev := ((d.modTwinCh n fun t => { t with phase := 2, snap := none }).muteFrom n).wantCopy n

/-- A first mismatch (R381). -/
def Dev.diverge (d : Dev) (n mt : Nat) : Dev :=
  let t := d.twinCh n
  let d1 := d.putTwinCh n { t with bad := mt, episodes := satAdd 16 t.episodes 1, phase := if t.follower then 2 else t.phase }
  (if t.follower then (d1.raise 36).muteFrom n else d1).wantCopy n

/-- The copy is done (R384). -/
def Dev.copyDone (d : Dev) (n : Nat) : Dev :=
  (d.modTwinCh n fun t => { t with phase := 1, copy := false, snap := none }).modChannel n fun c => { c with muted := false, muteFrom := 0 }

/-- A comparison of a picture's two records (R375, R384). -/
def Dev.compareRecords (d : Dev) (n : Nat) (own theirs : HistRecord) : Dev :=
  let t := d.twinCh n
  let same := histAgrees own theirs
  if t.phase = 3 && t.copyMt = own.mt then (if same then d.copyDone n else d.copyFailed n)
  else if t.copy then (if same && bitN theirs.flags 4 && !t.follower then d.putTwinCh n { t with copy := false } else d)
  else if same then d
  else d.diverge n own.mt

/-- A record of the partner arrives (R375). A muted one says that the partner follows. -/
def Dev.theirRecord (d : Dev) (n : Nat) (r : HistRecord) : Dev :=
  let d1 := d.modTwinCh n fun t => { t with follower := t.follower && !(bitN r.flags 5 && !(d.channel n).muted) }
  match d1.ownRecord n r.mt with
  | some own => d1.compareRecords n own r
  | none => d1.modTwinCh n fun t => { t with theirs := lastN 1024 (t.theirs ++ [r]) }

/-- A record is written into its place (R374). -/
def Dev.storeRecord (d : Dev) (n : Nat) (r : HistRecord) : Dev := d.memWrite (d.histAddr n r.index) (histBytes r)

/-- A record goes to the partner and is compared with the partner's, if that has come (R375). -/
def Dev.shareRecord (d : Dev) (n : Nat) (r : HistRecord) : Dev :=
  let d1 := { d with twin := { d.twin with unheard := d.twin.unheard ++ [(n, r.mt)] } }.emit (.twin 8 n r.mt (histBytes r))
  match (d1.twinCh n).theirs.find? (·.mt == r.mt) with
  | some q => (d1.modTwinCh n fun t => { t with theirs := t.theirs.filter (·.mt != r.mt) }).compareRecords n r q
  | none => d1

/-- A released picture of a twinned channel gets its record (R374, R375); while PARTITIONED the first one gives the split point (R378). -/
def Dev.ownRelease (d : Dev) (n : Nat) (r : HistRecord) : Dev :=
  if (d.channel n).twin != 1 || d.twin.cfg.isEmpty then d
  else if d.paired then (d.storeRecord n r).shareRecord n r
  else (d.storeRecord n r).modTwinCh n fun t => { t with split := if d.twin.st = .partitioned && t.split = 0 && !t.owed then r.mt else t.split }

/-! ## Snapshots (R383) -/

/-- The bytes of a channel descriptor that may differ between the halves are the follower's own (R390). -/
def keepPlacement (own theirs : List Byte) : List Byte :=
  let keep (t : List Byte) (r : Nat × Nat) : List Byte := overlay t r.1 ((own.drop r.1).take r.2)
  [(0, 0x20), (0x38, 2), (0x4C, 2), (0x50, 28)].foldl keep theirs

/-- The numbering state of a flow (R383). -/
def Flow.numbering (f : Flow) : List Byte :=
  toLE 8 f.count ++ toLE 8 f.tsN ++ toLE 8 (f.tsBase.getD 0) ++ toLE 2 f.part.length ++ f.part ++ toLE 2 f.cc.length ++ (f.cc.flatMap fun e => toLE 2 e.1 ++ toLE 1 e.2) ++
    toLE 8 f.lastPcr ++ toLE 8 f.fecCol ++ toLE 8 f.fecRow ++ toLE 2 f.media.length ++ f.media.flatMap fun m => toLE 2 m.length ++ m

/-- The source sends its snapshot when it plans the copy point (R383): the records of the resolved pictures, which hold the pictures s of this picture and the next ones, the
budgets of those in coding (R309), and every reference slot, unless the copy point is an IDR picture. -/
def Dev.sendSnapshot (d : Dev) (n mt : Nat) (refs : List Byte) : Dev :=
  let c := d.channel n
  d.emit (.twin 9 n mt (c.ctx ++ c.rc ++ toLE 8 c.k0 ++ toLE 8 c.j ++ toLE 8 c.outNext ++ toLE 8 c.lastKey ++ toLE 8 c.cycle ++ toLE 8 (ofSigned 64 c.full) ++
    toLE 8 (ofSigned 64 c.dsum) ++ (d.flowAt c.flow).numbering ++ toLE 8 c.lag ++
    (c.hist.flatMap fun p => toLE 8 p.j ++ toLE 8 p.size ++ toLE 8 p.filler ++ toLE 2 (ofSigned 16 p.qp) ++ toLE 8 (ofSigned 64 p.after) ++ p.costs.flatMap (toLE 4)) ++
    (c.flight.flatMap fun p => toLE 8 p.j ++ toLE 8 (ofSigned 64 p.budget)) ++ refs))

/-- Where the reference slots stand (REF_ADDR of Table 9.4). -/
def Chan.refsAt (c : Chan) : Nat := c.get 0x58 8

/-- A picture of the follower's with what the source planned for it: its budget and its arrivals (R309). -/
def Pic.budgeted (p : Pic) (ps : List Pic) : Pic :=
  match ps.find? fun q => q.j == p.j with
  | some q => { p with budget := q.budget, arr := q.arr, avg := q.avg, vbv := q.vbv, base := q.base }
  | none => p

/-- The channel with the source's state (R383): planning, rate control, the records of the pictures s, and the budgets of the pictures in coding. A picture that the source
still has in coding and this half has resolved enters the buffer model with this half's size (log entry 19). -/
def Chan.copyFrom (c s : Chan) : Chan :=
  let c1 := { c with
    ctx := keepPlacement c.ctx s.ctx, rc := s.rc, k0 := s.k0, j := s.j, outNext := s.outNext, lastKey := s.lastKey, keyDuty := s.keyDuty, cycle := s.cycle, hist := s.hist
    rcBase := s.rcBase, full := s.full, dsum := s.dsum, flight := c.flight.map fun p => p.budgeted (s.flight ++ s.hist) }
  ((c.hist.filter fun p => s.flight.any fun q => q.j == p.j).reverse).foldl (fun e p => e.enter (p.budgeted s.flight)) c1

/-- The follower takes the source's state over before it plans the copy point: planning, rate control, the numbering of the bound flow and the reference slots. -/
def Dev.adoptSnapshot (d : Dev) (n mt : Nat) : Dev :=
  let t := d.twinCh n
  match t.snap with
  | some (x, s, f, refs) =>
    if x != mt then d
    else
      let c := d.channel n
      let d1 := d.putChannel n (c.copyFrom s)
      let d2 := d1.modFlowAt c.flow fun g => { g with count := f.count, tsN := f.tsN, tsBase := f.tsBase, part := f.part, cc := f.cc, lastPcr := f.lastPcr, fecCol := f.fecCol,
                                                       fecRow := f.fecRow, media := f.media }
      (if refs.isEmpty then d2 else d2.memWrite (d2.channel n).refsAt refs).putTwinCh n { t with phase := 3, copyMt := mt, snap := none }
  | none => d

/-- A snapshot for the picture of media time m is at hand. -/
def Dev.snapReady (d : Dev) (n m : Nat) : Bool := match (d.twinCh n).snap with | some (x, _) => x == m | none => false

/-- A picture of the channel is left to the skip path: the channel is shed, or muted and its copy is not at hand (R293, R381). -/
def Dev.skipOnly (d : Dev) (n m : Nat) : Bool :=
  let c := d.channel n
  (c.shed && c.shedFrom ≤ m && !d.pend.any (restoreDue n m)) || ((d.twinCh n).phase == 2 && !d.snapReady n m)

end Sys2Proof.Machine
end

