-- ==== Sys2Proof/Machine/Compositor.lean ====
section
/-! DEFINITION. Scenes: the MF unit, ticks and commits, rows, output slots and underruns (chapter 7). A scene has number cluster x 16 + scene and a
layer number scene x 8 + layer, which is the index of Table 3.3. -/

namespace Sys2Proof.Machine

/-! ## Scalers and bookings -/

/-- An output entry that needs a scaler (R230). -/
def Scene.scaledOut (s : Scene) (o : List Byte) : Bool := outOn o && (outW o != s.width || outH o != s.height)

/-- Scalers that the enabled outputs of a scene need. -/
def Scene.outScalers (s : Scene) : Nat := ((List.range s.outCount).filter fun j => s.scaledOut (s.out j)).length

/-- Scalers in use in a cluster (Table 7.11). -/
def Dev.scalersUsed (d : Dev) (cl : Nat) : Nat :=
  ((List.range 16).map fun k => let s := d.sceneAt (cl * 16 + k); if s.running then s.outScalers else 0).sum +
    ((List.range 128).filter fun k => (d.layerAt (cl * 128 + k)).vTaps != 0).length

/-- Composition cost of a scene in milli-CU (R219). -/
def sceneCost (w h num den : Nat) : Nat := ceilDiv (w * h * num) (den * 1000)

/-- Milli-CU booked on a cluster (R65). -/
def Dev.mfBooked (d : Dev) (cl : Nat) : Nat := ((d.clusterAt cl).booked.map (·.2)).sum

/-- Book or release a scene's cost. -/
def Dev.bookScene (d : Dev) (s cost : Nat) : Dev := d.modClusterAt (s / 16) fun c => { c with booked := c.booked.put 0 s cost }

/-- A channel that runs reads output j of the scene (R245). DESIGN CHOICE (log entry 59): one that is STOPPING still reads it. -/
def Dev.outputRead (d : Dev) (s : Nat) (j : Option Nat) : Bool :=
  d.chan.any fun p => (p.2.st == .running || p.2.st == .stopping) && p.2.sceneIx == s && (j.isNone || j == some p.2.outIx)

/-! ## Checks at acceptance (R245) -/

def okTaps (t : Nat) : Bool := t == 2 || t == 4 || t == 6 || t == 8

/-- An output entry outside its range (Table 7.6). -/
def badEntry (o : List Byte) : Bool :=
  byteAt o 4 > 1 || byteAt o 5 > 1 || !okTaps (byteAt o 6) || !okTaps (byteAt o 7) || outAddr o % 4096 != 0

/-- A ratio outside 1/8 to 8 (R232). -/
def badRatio (a b : Nat) : Bool := b * 8 < a || a * 8 < b

/-- An output that breaks R218 or R232. -/
def badOutput (w h : Nat) (o : List Byte) : Bool :=
  outW o % 2 != 0 || outH o % 2 != 0 || outW o = 0 || outH o = 0 || w < outW o || h < outH o || badRatio w (outW o) || badRatio h (outH o)

/-- Memory that an output entry names. -/
def entryMem (o : List Byte) : List MemRef :=
  ⟨outAddr o, 4 * (outGeom o).slotSize, true, true⟩ :: optArea (fieldLE o 0x10 8) 2048 true false

/-- Entry j of a SCENE_CONFIGURE. -/
def Desc.entry (x : Desc) (j : Nat) : List Byte := (x.bytes.drop (0x40 + 32 * j)).take 32

/-- SCENE_CONFIGURE (Table 7.6). -/
def mfConfigureSpec (_ : Dev) (x : Desc) : OpSpec :=
  { len := 0x140, eff0 := true, pf := true, idx := [(x.get 0x20 2, 4), (x.get 0x22 1, 16)],
    rsv := (List.range 8).map fun j => (0x58 + 32 * j, 8)
    mem := (List.range (min 8 (x.get 0x3A 1))).flatMap fun j => entryMem (x.entry j) }

/-- The scene that SCENE_CONFIGURE, SCENE_START, SCENE_STOP and OUTPUT_COMMIT name (R244). -/
def Desc.sceneIx (x : Desc) : Nat := x.get 0x20 2 * 16 + x.get 0x22 1

/-- SCENE_START and SCENE_STOP (R244). -/
def mfStartSpec (d : Dev) (x : Desc) : OpSpec :=
  { pf := true, idx := [(x.get 0x20 2, 4), (x.get 0x22 1, 16)], rsv := [(0x23, 0x1D)], obj := x.sceneIx, twin := d.twinnedScene x.sceneIx }

/-- OUTPUT_COMMIT (R244). Its object is scene x 8 + output. -/
def mfOutputSpec (d : Dev) (x : Desc) : OpSpec :=
  { len := 0x60, pf := true, idx := [(x.get 0x20 2, 4), (x.get 0x22 1, 16), (x.get 0x23 1, 8)], rsv := [(0x24, 0x1C), (0x58, 8)],
    mem := entryMem (x.entry 0), obj := x.sceneIx * 8 + x.get 0x23 1, twin := d.twinnedScene x.sceneIx }

/-- The layer that a LAYER_COMMIT names. -/
def Desc.layerIx (x : Desc) : Nat := (x.get 0x20 1 * 16 + x.get 0x21 1) * 8 + x.get 0x22 1

/-- Bytes of the surface that a layer reads (R221). -/
def Layer.surfaceSize (l : Layer) : Nat :=
  let f := l.format
  if f = 5 || f = 6 then l.pitch * l.planeRows + 2 * (roundUp (l.pitch / 2) 256 * (if f = 6 then l.planeRows / 2 else l.planeRows))
  else l.pitch * (l.srcY + l.srcH)

/-- LAYER_COMMIT (Table 7.7); the fields from 0x24 on count only when the layer is enabled. A capture input that it names belongs to the PF (R88, R91). -/
def mfLayerSpec (d : Dev) (x : Desc) : OpSpec :=
  let l : Layer := { cfg := x.bytes }
  let on := l.enabled
  let input := on && l.source == 0
  { len := 0x80, idx := [(x.get 0x20 1, 4), (x.get 0x21 1, 16), (x.get 0x22 1, 8)] ++ (if input then [(l.input, 192)] else []), rsv := [(0x72, 14)],
    own := [(3, x.layerIx)], pf := input,
    mem := if !on then [] else
      (if l.source = 1 then [⟨l.surf, l.surfaceSize, true, false⟩] else []) ++ optArea l.coefAddr 2048 true false
    obj := x.layerIx, twin := d.twinnedScene (x.layerIx / 8) }

/-- A field of SCENE_CONFIGURE is outside its range (R245 step 2). -/
def mfBadScene (x : Desc) : Bool :=
  let w := x.get 0x24 2
  let h := x.get 0x26 2
  let n := x.get 0x3A 1
  x.get 0x23 1 > 2 || w % 2 != 0 || w < 16 || w > 7680 || h % 2 != 0 || h < 16 || h > 4320 || !ratePermitted (x.get 0x28 4) (x.get 0x2C 4) ||
    x.get 0x30 4 > 100000000 || x.get 0x34 2 > 4095 || x.get 0x36 2 > 4095 || x.get 0x38 2 > 4095 || n = 0 || n > 8 || x.get 0x3B 1 > 31 ||
    (x.get 0x3C 2 > 4095 && x.get 0x3C 2 != 0xFFFF) || x.get 0x3E 2 = 0 || x.get 0x3E 2 > h ||
    ((List.range n).any fun j => badEntry (x.entry j)) || !zeroBytes x.bytes (0x40 + 32 * n) (256 - 32 * n)

/-- The rate of an input that a layer reads is the scene's (R217). -/
def Dev.inputRateOk (d : Dev) (i num den : Nat) : Bool := (d.capIn i).outNum * den == num * (d.capIn i).outDen

/-- An active layer of a scene reads an input of another rate. -/
def Dev.sceneRateBad (d : Dev) (s num den : Nat) : Bool :=
  (List.range 8).any fun l =>
    let y := d.layerAt (s * 8 + l)
    y.enabled && y.source == 0 && !d.inputRateOk y.input num den

/-- The pending operations of a scene, its layers and outputs. -/
def scenePend (s : Nat) (p : Pend) : Bool := p.unit == 2 && (if p.op == 4 || p.op == 5 then p.obj / 8 == s else p.obj == s)

/-- SCENE_CONFIGURE (R235, R243, R245). DESIGN CHOICE (log entry 59): enabled layers whose rectangles leave a smaller scene do not refuse it, and are clipped. -/
def Dev.mfConfigure (d : Dev) (x : Desc) : Dev :=
  let s := x.sceneIx
  let c := d.sceneAt s
  let w := x.get 0x24 2
  let h := x.get 0x26 2
  let n := x.get 0x3A 1
  d.checked x [(c.running || c.starting, stBusy), (mfBadScene x, stBadDesc), (d.sceneRateBad s (x.get 0x28 4) (x.get 0x2C 4), stFormat),
      ((List.range n).any fun j => badOutput w h (x.entry j), stGeometry)]
    (let d1 := d.abortPend (scenePend s)
     let c1 : Scene := { cfg := x.bytes, tick := gridAtOrAfter (x.get 0x28 4) (x.get 0x2C 4) d.cadence,
                         outs := (List.range n).foldl (fun t j => t.put [] j (x.entry j)) [] }
     (d1.putSceneAt s c1).complete x stOK 0)

/-- The media time of the last tick of the scene that has begun. -/
def Scene.lastPoint (s : Scene) : Option Nat := if s.tick = 0 then none else some (s.mt (s.tick - 1))

/-- Hold an operation for a tick of scene s. -/
def Dev.mfHold (d : Dev) (x : Desc) (s obj : Nat) : Dev :=
  let c := d.sceneAt s
  d.holdPend x obj (passedBy c.lastPoint) (fun n => c.mt (c.tick + n)) (d.twinnedScene s)

/-- SCENE_START: the cost is booked on acceptance; a STRICT_TIME that has passed books nothing (R162, R245). -/
def Dev.mfStart (d : Dev) (x : Desc) : Dev :=
  let s := x.sceneIx
  let c := d.sceneAt s
  let cost := sceneCost c.width c.height c.num c.den
  d.checked x [(c.cfg.isEmpty || c.running || c.starting || d.dozing, stBusy), (8000000 < d.mfBooked (s / 16) + cost, stCapacity)]
    (let d1 := d.mfHold x s s
     if d1.pend.length = d.pend.length then d1
     else (d1.bookScene s cost).putSceneAt s { c with starting := true })

/-- SCENE_STOP. -/
def Dev.mfStop (d : Dev) (x : Desc) : Dev :=
  let s := x.sceneIx
  d.checked x [((d.sceneAt s).cfg.isEmpty || d.outputRead s none, stBusy)] (d.mfHold x s s)

/-- OUTPUT_COMMIT. -/
def Dev.mfOutput (d : Dev) (x : Desc) : Dev :=
  let s := x.sceneIx
  let j := x.get 0x23 1
  let c := d.sceneAt s
  d.checked x [(c.cfg.isEmpty || d.outputRead s (some j), stBusy), (badEntry (x.entry 0) || c.outCount ≤ j, stBadDesc),
      (badOutput c.width c.height (x.entry 0), stGeometry)] (d.mfHold x s (s * 8 + j))

/-- An S12.0 value outside its thirteen bits. -/
def badS12 (v : Nat) : Bool := decide (toSigned 16 v < -4096) || decide (4095 < toSigned 16 v)

/-- A field of an enabling LAYER_COMMIT is outside its range. DESIGN CHOICE (log entry 59): PREMUL and FILL are judged whatever the format. -/
def badLayer (l : Layer) : Bool :=
  l.source > 1 || l.format > 7 || (l.csc == 4 && ((List.range 3).any fun t => badS12 (l.get (0x5A + 2 * t) 2))) || l.pitch % 256 != 0 || l.srcW = 0 || l.srcH = 0 || l.dstW = 0 || l.dstH = 0 || l.alpha > 1023 ||
    l.csc > 4 || l.get 0x47 1 > 1 || l.get 0x60 2 > 4095 || l.get 0x62 2 > 4095 || l.get 0x64 2 > 4095 || !okTaps l.hTaps || !okTaps (l.get 0x67 1)

/-- LAYER_COMMIT (R220, R232, R234, R245). -/
def Dev.mfLayer (d : Dev) (x : Desc) : Dev :=
  let ix := x.layerIx
  let s := ix / 8
  let c := d.sceneAt s
  let l : Layer := { cfg := x.bytes }
  let on := l.enabled
  let cap := d.capIn l.input
  d.checked x [
      (c.cfg.isEmpty || 8 ≤ (d.pend.filter fun p => p.unit == 2 && p.op == 4 && p.obj == ix).length, stBusy),
      (l.get 0x23 1 > 1 || (on && badLayer l), stBadDesc),
      (on && ((l.format == 0) != (l.source == 0) || (l.source == 0 && (cap.st == .unconfigured || !d.inputRateOk l.input c.num c.den))), stFormat),
      (on && (c.width < l.dstX + l.dstW || c.height < l.dstY + l.dstH ||
        (l.source == 0 && (cap.width < l.srcX + l.srcW || cap.height < l.srcY + l.srcH)) ||
        badRatio l.srcW l.dstW || badRatio l.srcH l.dstH || (l.scaled && l.srcW > 30720)), stGeometry)]
    (d.mfHold x s ix)

/-! ## Points (R235 to R237, R246) -/

/-- A custom table breaks R232 in one half, for a tap count. -/
def Dev.tableBad (d : Dev) (table half taps : Nat) : Bool :=
  (List.range 64).any fun ph =>
    let cs := (List.range 8).map fun t => d.coef table half 8 ph t
    cs.sum != 4096 || (cs.drop taps).any (· != 0)

/-- The vertical taps that fit the line buffer (R233). -/
def fitTaps (taps w : Nat) : Nat := ([8, 6, 4, 2].filter fun t => t ≤ taps && t * w ≤ 61440).headD 2

/-- Scenes whose enabled layers read an input. -/
def Dev.readers (d : Dev) (i : Nat) : List Nat := (List.range 64).filter fun s => d.sceneReads s i

/-- A SCENE_START reaches its point: its scaled outputs take scalers, or it is refused and its booking released. -/
def Dev.startScene (d : Dev) (s m : Nat) (p : Pend) : Dev :=
  let c := d.sceneAt s
  if 32 < d.scalersUsed (s / 16) + c.outScalers then
    ((d.bookScene s 0).putSceneAt s { c with starting := false }).complete p.d stCapacity 0
  else (d.putSceneAt s { c with starting := false, running := true, ticks := 0 }).complete p.d p.status m

/-- A SCENE_STOP reaches its point; the booking of a START that still waits stays. -/
def Dev.stopScene (d : Dev) (s m : Nat) (p : Pend) : Dev :=
  ((if (d.sceneAt s).starting then d else d.bookScene s 0).modSceneAt s fun c => { c with running := false }).complete p.d p.status m

/-- A LAYER_COMMIT reaches its point (R233, R246). -/
def Dev.commitLayer (d : Dev) (m : Nat) (p : Pend) : Dev :=
  let ix := p.obj
  let s := ix / 8
  let l : Layer := { cfg := p.d.bytes }
  if !l.enabled then (d.putLayerAt ix {}).complete p.d p.status m
  else
    let old := d.layerAt ix
    let used := d.scalersUsed (s / 16) - (if old.vTaps != 0 then 1 else 0)
    let others := ((d.putLayerAt ix {}).readers l.input).filter (· != s)
    let want := l.get 0x67 1
    let taps := fitTaps want l.srcW
    let reduced := l.scaled && taps != want
    let bad := l.coefAddr != 0 && (d.tableBad l.coefAddr 0 l.hTaps || (!reduced && d.tableBad l.coefAddr 1024 want))
    if (l.scaled && 32 ≤ used) || (l.source == 0 && 4 ≤ others.length) then d.complete p.d stCapacity 0
    else if bad then d.complete p.d stBadDesc 0
    else if !l.scaled then (d.putLayerAt ix l).complete p.d p.status m
    else if reduced then ((d.putLayerAt ix { l with vTaps := taps, reduced := true }).raise 27).complete p.d stReduced m
    else (d.putLayerAt ix { l with vTaps := taps }).complete p.d p.status m

/-- An OUTPUT_COMMIT reaches its point. -/
def Dev.commitOutput (d : Dev) (m : Nat) (p : Pend) : Dev :=
  let s := p.obj / 8
  let j := p.obj % 8
  let c := d.sceneAt s
  let o := p.d.entry 0
  let needs := c.running && c.scaledOut o && !c.scaledOut (c.out j)
  let table := fieldLE o 0x10 8
  if needs && 32 ≤ d.scalersUsed (s / 16) then d.complete p.d stCapacity 0
  else if table != 0 && (d.tableBad table 0 (byteAt o 6) || d.tableBad table 1024 (byteAt o 7)) then d.complete p.d stBadDesc 0
  else (d.putSceneAt s { c with outs := c.outs.put [] j o }).complete p.d p.status m

/-- Everything that is due at a tick of the scene takes effect, in the order of acceptance (R163, R236). -/
def Dev.scenePoint (d : Dev) (s m : Nat) : Dev :=
  let mine := d.pend.filter fun p => scenePend s p && p.due m
  mine.foldl (fun e p =>
    match p.op with
    | 2 => e.startScene s m p
    | 3 => e.stopScene s m p
    | 4 => e.commitLayer m p
    | _ => e.commitOutput m p)
    { d with pend := d.pend.filter fun p => !(scenePend s p && p.due m) }

/-- The raster of the last tick; a tick that begins none has no rows (R238). -/
def Scene.current (s : Scene) : Raster := (s.work.find? fun w => w.tick + 1 == s.tick).getD {}

/-! ## What rows read (R217, R231, R240) -/

/-- The last source row that destination row y of a layer or output reads: n destination rows of m (R231). -/
def lastRead (scaled : Bool) (taps n m y : Nat) : Nat := if scaled then spanIndex m (scalePos n m y).1 taps (taps - 1) else y

/-- The last line of its input that row y of the scene reads through a layer. The chroma of a 4:2:0 input at a luma line comes from two chroma rows (Table 7.2), of
which the later one ends one or two lines below it. -/
def Layer.lastLine (l : Layer) (g : Geom) (y : Nat) : Nat :=
  let v := l.srcY + lastRead l.scaled l.vTaps l.dstH l.srcH (y - l.dstY)
  if g.half then min (g.h - 1) (v + 1 + v % 2) else v

/-- Row y of the scene reads a capture input through a layer. -/
def Layer.readsAt (l : Layer) (y : Nat) : Bool := l.enabled && l.source == 0 && l.dstY ≤ y && y < l.dstY + l.dstH

/-- Capture has judged a line of tick k, or has presented the tick whole (R217, R240). -/
def Dev.lineReady (d : Dev) (i k y : Nat) : Bool :=
  let c := d.capIn i
  (c.tick == k && c.opened && y < c.nextLine) || (c.tick == k + 1 && !c.opened)

/-- Every capture line that row y of a raster reads is there. -/
def Dev.rowReady (d : Dev) (w : Raster) (y : Nat) : Bool :=
  !w.dead && w.layers.all fun l => !l.readsAt y || d.lineReady l.input w.tick (l.lastLine (d.capIn l.input).geom y)

/-- A capture input that row y reads presents a later tick already, so that the raster ends here. -/
def Dev.rowGone (d : Dev) (w : Raster) (y : Nat) : Bool :=
  w.dead || w.layers.any fun l => l.readsAt y && (let c := d.capIn l.input; decide (w.tick + 1 < c.tick) || (c.tick == w.tick + 1 && c.opened))

/-- The last scene row that output row v reads. -/
def Scene.outLast (s : Scene) (o : List Byte) (v : Nat) : Nat :=
  lastRead (outW o != s.width || outH o != s.height) (byteAt o 7) (outH o) s.height v

/-- A raster still has something to come: rows to compose, or output rows to take from the previous slot (R241). -/
def Dev.rasterOpen (d : Dev) (s : Scene) (w : Raster) : Bool :=
  let n := w.rows.length
  (n < s.height && !d.rowGone w n) || ((List.range s.outCount).any fun j =>
    let o := w.outs.get [] j
    outOn o && (List.range (outH o)).any fun v => n ≤ s.outLast o v && !w.lost.contains (j, v))

/-- SCENE_TICK (R215, R235, R238): once the cadence clock passes the tick's media time its commits apply, and a running scene begins a raster; one that begins
while its island is in reset is lost (R638). DESIGN CHOICE (log entry 59): SCANROW.TICK reads 1 during the first raster of a started scene. -/
def Dev.sceneTick (d : Dev) (s : Nat) : Dev :=
  let c := d.sceneAt s
  let m := c.mt c.tick
  if c.cfg.isEmpty || d.cadence < m then d
  else
    let d1 := d.scenePoint s m
    let c1 := d1.sceneAt s
    let begun : Raster := { tick := c.tick, layers := (List.range 8).map fun l => d1.layerAt (s * 8 + l), outs := c1.outs, dead := d.ctl.islBusy == some (20 + s / 16) }
    let ended := (c1.work.filter fun w => !d1.rasterOpen c1 w).map fun w => { w with rows := [], lost := [] }
    let keep := c1.work.filter fun w => d1.rasterOpen c1 w
    d1.putSceneAt s { c1 with
      tick := c.tick + 1
      ticks := if c1.running then c1.ticks + 1 else c1.ticks
      work := if c1.running then keep ++ [begun] else keep
      past := (ended.reverse ++ c1.past).take 256 }

/-! ## Rows (R238 to R242) -/

/-- The slot of tick k of an output (R242). -/
def outSlot (o : List Byte) (k : Nat) : Nat := outAddr o + k % 4 * (outGeom o).slotSize

/-- Write output row v, and the chroma row that it completes. -/
def Dev.writeOutRow (d : Dev) (s : Scene) (w : Raster) (o : List Byte) (v : Nat) : Dev :=
  let base := outSlot o w.tick
  let g := outGeom o
  let row := d.outputRow s w.rows o v
  let d1 := d.putStoreRow base g 0 v 0 (row.map (·.1))
  if !g.half then
    (d1.putStoreRow base g 1 v 0 (downH (row.map (·.2.1)))).putStoreRow base g 2 v 0 (downH (row.map (·.2.2)))
  else if v % 2 = 0 then d1
  else
    let up := d.outputRow s w.rows o (v - 1)
    (d1.putStoreRow base g 1 (v / 2) 0 (downV (downH (up.map (·.2.1))) (downH (row.map (·.2.1))))).putStoreRow base g 2 (v / 2) 0
      (downV (downH (up.map (·.2.2))) (downH (row.map (·.2.2))))

/-- Output rows that the scene row y completes are written, but for those already taken from the previous slot. -/
def Dev.writeOuts (d : Dev) (s : Scene) (w : Raster) (y : Nat) : Dev :=
  (List.range s.outCount).foldl (fun e j =>
    let o := w.outs.get [] j
    if !outOn o then e
    else ((List.range (outH o)).filter fun v => s.outLast o v == y && !w.lost.contains (j, v)).foldl (fun e v => e.writeOutRow s w o v) e) d

/-- The first raster of a scene that has rows to compose and can still do so. -/
def Dev.pickRaster (d : Dev) (s : Scene) : Option Raster := s.work.find? fun w => w.rows.length < s.height && !d.rowGone w w.rows.length

/-- The scene with one raster replaced. -/
def Scene.putRaster (s : Scene) (w : Raster) : Scene := { s with work := s.work.map fun v => if v.tick == w.tick then w else v }

/-- SCENE_ROW_COMPLETE (R238 to R240): the next row of the oldest raster in composition; the row mark posts when the current raster reaches it. -/
def Dev.sceneRow (d : Dev) (s : Nat) : Dev :=
  let c := d.sceneAt s
  match d.pickRaster c with
  | none => d
  | some w =>
    let y := w.rows.length
    if !d.rowReady w y || d.ctl.islBusy == some (20 + s / 16) then d
    else
      let w1 := { w with rows := w.rows ++ [d.composeRow c w.layers y] }
      let d1 := (d.writeOuts c w1 y).putSceneAt s (c.putRaster w1)
      let t := c.get 0x3C 2
      if w.tick + 1 = c.tick && y + 1 = c.get 0x3E 2 && t != 0xFFFF then d1.mergePost t (flagMask (c.get 0x3B 1)) else d1

/-- The bound of scene row y of tick k, without capture lines that are still due (R240). -/
def Scene.rowBound (s : Scene) (k y : Nat) : Nat := s.mt k + s.delay + (y + 1) * s.den * 1000000000 / (s.num * s.height)

/-- The bound of an output row in ns of the cadence clock (R240): 4 us after the last scene row, which is 4 us after the later of its own time and the
due time of each capture line. -/
def Dev.outBound (d : Dev) (s : Scene) (w : Raster) (o : List Byte) (v : Nat) : Nat :=
  let y := s.outLast o v
  w.layers.foldl (fun t l =>
    let i := d.capIn l.input
    if l.readsAt y then max t (i.dueTime w.tick (l.lastLine i.geom y)) else t)
    (s.rowBound w.tick y) + 8000

/-- OUTPUT_ROW_UNDERRUN (R241): a row not complete 50 us after its bound is taken from the previous slot. -/
def Dev.outUnderrun (d : Dev) (s j v : Nat) : Dev :=
  let c := d.sceneAt s
  match c.work.find? fun w => outOn (w.outs.get [] j) && w.rows.length ≤ c.outLast (w.outs.get [] j) v && !w.lost.contains (j, v) with
  | none => d
  | some w =>
    let o := w.outs.get [] j
    if outH o ≤ v || d.cadence < d.outBound c w o v + 50000 then d
    else
      let g := outGeom o
      let src := outSlot o (w.tick + 3)
      let base := outSlot o w.tick
      let copy (e : Dev) (plane y : Nat) : Dev := e.putStoreRow base g plane y 0 (d.storeRow src g plane y)
      let d1 := copy d 0 v
      let d2 := if !g.half then copy (copy d1 1 v) 2 v else if v % 2 = 1 then copy (copy d1 1 (v / 2)) 2 (v / 2) else d1
      let d3 := d2.putSceneAt s (c.putRaster { w with lost := w.lost ++ [(j, v)] })
      (d3.modClusterAt (s / 16) fun q => { q with underrun := satAdd 32 q.underrun 1 }).raise 28

/-- Output row v of output j of tick k is complete, composed or substituted: what the pipes wait for (R276). -/
def Dev.outRowDone (d : Dev) (s j k v : Nat) : Bool :=
  let c := d.sceneAt s
  match c.work.find? fun w => w.tick == k with
  | some w => c.outLast (w.outs.get [] j) v < w.rows.length || w.lost.contains (j, v)
  | none => k < c.tick

/-! ## Registers (Table 7.8) -/

/-- Bits 15:0 and 31:16 of MFn_SCENE_STATE. -/
def Dev.sceneBits (d : Dev) (cl : Nat) : Nat :=
  (List.range 16).foldl (fun v k =>
    let s := d.sceneAt (cl * 16 + k)
    v + fld k 1 (b2n (!s.cfg.isEmpty)) + fld (16 + k) 1 (b2n s.running)) 0

/-- A word of the coefficient window: sets for 2, 4, 6 and 8 taps, 1,024 bytes each (R247). -/
def coefWord (o : Nat) : Nat :=
  let taps := 2 * (o / 1024 + 1)
  let ph := o % 1024 / 16
  let t := o % 16 / 2
  ofSigned 16 (builtin taps ph t) + 65536 * ofSigned 16 (builtin taps ph (t + 1))

/-- A read of the block of cluster n. -/
def Dev.readMf (d : Dev) (n off : Nat) : Nat :=
  let q := d.clusterAt n
  if off < 0x40 then
    let s := d.sceneAt (n * 16 + off / 4)
    (if s.current.dead then 0 else s.current.rows.length) + fld 16 16 s.ticks
  else if 0x1000 ≤ off && off < 0x2000 then coefWord (off - 0x1000)
  else match off with
    | 0x40 => d.sceneBits n
    | 0x44 => d.scalersUsed n
    | 0x48 => q.underrun
    | 0x4C => q.layerSel
    | 0x50 =>
      let ix := n * 128 + q.layerSel
      let l := d.layerAt ix
      b2n l.enabled + fld 1 4 l.vTaps + fld 5 1 (b2n l.reduced) + fld 6 4 (d.pend.filter fun p => p.unit == 2 && p.op == 4 && p.obj == ix).length
    | _ => 0

/-- A write of it (R247). -/
def Dev.writeMf (d : Dev) (who : Requester) (n off : Nat) (v : Word) : Dev :=
  if isPf who && off == 0x4C then d.modClusterAt n fun q => { q with layerSel := bits v.toNat 0 7 } else d

/-! ## Meanings -/

/-- MF_SCENE_CONFIGURE (R245). -/
def execMfSceneConfigure (s : State) : Host.Outcome State Fault Refusal := ok s (s.dev.runUnit 2 1 mfConfigureSpec Dev.mfConfigure)

/-- MF_SCENE_START (R245). -/
def execMfSceneStart (s : State) : Host.Outcome State Fault Refusal := ok s (s.dev.runUnit 2 2 mfStartSpec Dev.mfStart)

/-- MF_SCENE_STOP (R243). -/
def execMfSceneStop (s : State) : Host.Outcome State Fault Refusal := ok s (s.dev.runUnit 2 3 mfStartSpec Dev.mfStop)

/-- MF_LAYER_COMMIT (R245). -/
def execMfLayerCommit (s : State) : Host.Outcome State Fault Refusal := ok s (s.dev.runUnit 2 4 mfLayerSpec Dev.mfLayer)

/-- MF_OUTPUT_COMMIT (R243). -/
def execMfOutputCommit (s : State) : Host.Outcome State Fault Refusal := ok s (s.dev.runUnit 2 5 mfOutputSpec Dev.mfOutput)

/-- SCENE_ROW_COMPLETE (R238). -/
def execSceneRowComplete (cl : Fin 4) (sc : Fin 16) (s : State) : Host.Outcome State Fault Refusal := ok s (s.dev.sceneRow (cl * 16 + sc))

/-- OUTPUT_ROW_UNDERRUN (R241). -/
def execOutputRowUnderrun (cl : Fin 4) (sc : Fin 16) (o : Fin 8) (row : Fin 4320) (s : State) : Host.Outcome State Fault Refusal :=
  ok s (s.dev.outUnderrun (cl * 16 + sc) o row)

end Sys2Proof.Machine
end

