-- ==== Sys2Proof/Machine/Fabric.lean ====
section
/-! DEFINITION. Cadence, the set-point of VDD_CORE, admission, sheds for lack of cadence and the FAB registers (chapter 2). -/

namespace Sys2Proof.Machine

/-! ## Cadence (R51, R75) -/

/-- Floor cadence of an island (R52): 20 bits, fused. -/
def floorOf (n : Nat) : Nat := Config.cadFloor n % 2 ^ 20

/-- The mean of the last 64 windows. DESIGN CHOICE (log entry 49): it is rounded down. -/
def Dev.cadMean (d : Dev) (n : Nat) : Nat :=
  let ws := d.fab.windows.get [] n
  if ws.isEmpty then 0 else ws.sum / ws.length % 2 ^ 20

/-- The island is short (R75). -/
def Dev.isShort (d : Dev) (n : Nat) : Bool := 16 ≤ d.fab.shortRun.get 0 n

/-- Islands 0-23 are powered down from step 2 of R641 until VDD_CORE has reached 800 mV again (R643). -/
def Dev.unpowered (d : Dev) (n : Nat) : Bool :=
  decide (n < 24) && (d.ctl.power == 1 || d.ctl.power == 2 || (d.ctl.power == 3 && decide (d.fab.setMv < 800)))

/-- The islands that the cadence controller regards (R54, R641). -/
def Dev.powered (d : Dev) : List Nat := (List.range 32).filter fun n => !d.unpowered n

/-- The next window ends: one microsecond, 3,000 ticks, after the last one (R51). -/
def Dev.windowDue (d : Dev) : Bool := match d.fab.lastWin with | some t => decide (t + 3000 ≤ d.ctl.ticks) | none => true

/-- FABRIC_CADENCE is 1 while an island is short (R75). -/
def Dev.cadLine (d : Dev) : Dev := d.setLine 8 ((List.range 32).any d.isShort)

/-- What one window of every island does (R51, R75). A powered-down island has none. -/
def Dev.windowActs (d : Dev) (counts : List Nat) : Dev :=
  let f := counts.zipIdx.foldl (fun (f : Fab) e =>
    if d.unpowered e.2 then { f with windows := f.windows.put [] e.2 [], shortRun := f.shortRun.put 0 e.2 0 }
    else
      { f with windows := f.windows.put [] e.2 ((e.1 :: f.windows.get [] e.2).take 64)
               shortRun := f.shortRun.put 0 e.2 (if e.1 < floorOf e.2 then f.shortRun.get 0 e.2 + 1 else 0) }) { d.fab with lastWin := some d.ctl.ticks }
  { d with fab := f }.cadLine

/-- One window of every island, when it is due. -/
def Dev.cadWindow (d : Dev) (counts : List Nat) : Dev := if d.windowDue then d.windowActs counts else d

/-! ## The control cycle (R53 to R58) -/

/-- Table 2.1 in mV. DESIGN CHOICE (log entry 49): its end rows go on below -55 and above 125 degrees. -/
def vddBound (t : Int) : Nat := if t < -20 then 720 else if t < 20 then 670 else if t ≤ 85 then 620 else 650

/-- The highest bound of the islands (R55). -/
def Dev.bound21 (d : Dev) : Nat := (List.range 32).foldl (fun m n => max m (vddBound (d.fab.temps.get 0 n))) 0

/-- The set-point that the cycle decides on (R54, R55, R58). DESIGN CHOICE (log entry 49): the cadence that is compared with 1.03 and 1.06 times the floor is the mean that
FAB_CADn reports. -/
def Dev.nextVdd (d : Dev) : Nat :=
  let v := d.fab.setMv
  let b := d.bound21
  if d.flt.status.getLsbD 9 then min 850 (v + 5)
  else if v < b || (d.ctl.power == 3 && decide (v < 800)) then min 850 (v + 5)
  else if d.powered.any fun n => decide (d.cadMean n * 100 < 103 * floorOf n) then min 850 (v + 5)
  else if d.powered.all fun n => decide (106 * floorOf n ≤ d.cadMean n * 100) then (if b + 5 ≤ v && 605 ≤ v then v - 5 else v)
  else v

/-- The read-back of a cycle (R57, R665): the runs that raise and drop AVS_BUS. -/
def Dev.readBack (d : Dev) (a : AvsReply) : Dev :=
  let near := decide (((a.readMv : Int) - d.fab.setMv).natAbs ≤ 15)
  let held := d.flt.live.getLsbD 10
  let bad := if a.readAck && !near then d.fab.badRun + 1 else 0
  let good := if held && a.readAck && near then d.fab.goodRun + 1 else 0
  if held then
    if 3 ≤ good then { d with fab := { d.fab with goodRun := 0, badRun := 0, nackRun := 0 } }.setLine 10 false
    else { d with fab := { d.fab with goodRun := good, badRun := 0 } }
  else if 3 ≤ bad || 3 ≤ d.fab.nackRun then { d with fab := { d.fab with badRun := 0, nackRun := 0, goodRun := 0 } }.setLine 10 true
  else { d with fab := { d.fab with badRun := bad, goodRun := 0 } }

/-- The Voltage write of a cycle (R53, R57): none while AVS_BUS is 1. -/
def Dev.writeVdd (d : Dev) (a : AvsReply) : Dev :=
  let v := d.nextVdd
  if d.flt.live.getLsbD 10 || v = d.fab.setMv then d
  else if a.writeAck then { d with fab := { d.fab with setMv := v, nackRun := 0 } }.emit (.avs v)
  else { d with fab := { d.fab with nackRun := d.fab.nackRun + 1 } }.emit (.avs v)

/-- Surplus of pipe p in whole CU (R60). -/
def Dev.surplusOf (d : Dev) (p : Nat) : Nat := min 1100 (3000 * d.cadMean p / floorOf p - 3000)

/-! ## Sheds for lack of cadence (R76 to R79) -/

/-- The share of a channel on a pipe. -/
def Chan.shareOn (c : Chan) (p : Nat) : Nat := ((c.pipes.zip c.shares).filter fun e => e.1 == p).map (·.2) |>.sum

/-- Demand of the channels still running on a pipe. -/
def Dev.demand (d : Dev) (p : Nat) : Nat := (d.chan.map fun e => if e.2.active && !e.2.shed then e.2.shareOn p else 0).sum

/-- The channel of a class to shed first: highest rank, then highest number. -/
def Dev.pickShed (d : Dev) (p cls : Nat) : Option Nat :=
  d.chan.foldl (fun best e =>
    if e.2.active && !e.2.shed && e.2.pipes.contains p && e.2.cls == cls then
      match best with
      | some b => if (d.channel b).rank ≤ e.2.rank then some e.1 else some b
      | none => some e.1
    else best) none

/-- Shed channels of a pipe until the demand fits (R76); `fuel` bounds the number of channels. -/
def Dev.shedUntil (p avail : Nat) : Nat → Dev → Dev
  | 0, d => d
  | n + 1, d =>
    if d.demand p ≤ avail then d
    else match (d.pickShed p 2).orElse fun _ => (d.pickShed p 1).orElse fun _ => d.pickShed p 0 with
      | some c => Dev.shedUntil p avail n (d.shedChannel 1 c)
      | none => d

/-- The shed pass of a pipe (R76): the CONTAIN reaction of FABRIC_CADENCE (R79). -/
def Dev.shedPass (d : Dev) (p : Nat) : Dev :=
  if d.isShort p && d.contains 8 then Dev.shedUntil p (3000000 * d.cadMean p / floorOf p) 512 d else d

/-- The next control cycle is due: 10 us, 30,000 ticks, after the last one (R53). -/
def Dev.cycleDue (d : Dev) : Bool := match d.fab.lastCycle with | some t => decide (t + 30000 ≤ d.ctl.ticks) | none => true

/-- What a control cycle does (R54 to R60, R76). DESIGN CHOICE (log entry 49): its read-back follows its Voltage write, so that it is compared with the set-point
after the write. -/
def Dev.cycleActs (d : Dev) (temps : List Int) (a : AvsReply) : Dev :=
  let d0 := { d with fab := { d.fab with lastCycle := some d.ctl.ticks, temps := temps.zipIdx.foldl (fun (t : Tab Int) (e : Int × Nat) => t.put 0 e.2 e.1) d.fab.temps } }
  let d1 := d0.setLine 9 (temps.any fun t => decide (125 < t) || decide (t < -55))
  let d2 := (d1.writeVdd a).readBack a
  let d3 := { d2 with fab := { d2.fab with surplus := (List.range 16).foldl (fun t p => t.put 0 p (d2.surplusOf p)) d2.fab.surplus } }
  (List.range 16).foldl Dev.shedPass d3

/-- One control cycle, when it is due. -/
def Dev.controlCycle (d : Dev) (temps : List Int) (a : AvsReply) : Dev := if d.cycleDue then d.cycleActs temps a else d

/-- No channel that was shed after this one for a cause, on a pipe of this one, still waits. -/
def Dev.lastShed (d : Dev) (cause n : Nat) (any : Bool) : Bool :=
  let later : List (Nat × Nat) := ((d.fab.shed.dropWhile fun e => e != (cause, n)).drop 1).filter fun e => e.1 == cause
  let c := d.channel n
  later.all fun e => !any && !((d.channel e.2).pipes.any c.pipes.contains)

/-- SHED_RESTORE: the channel comes back from a shed for cadence (R79), and from one for EP_TIMEOUT (R298). -/
def Dev.shedRestore (d : Dev) (n : Nat) : Dev :=
  let c := d.channel n
  let fast := c.pipes.all fun p => decide (103 * floorOf p ≤ d.cadMean p * 100)
  let d1 := if d.fab.shed.contains (1, n) && !d.flt.status.getLsbD 8 && fast && d.lastShed 1 n false then d.restoreChannel 1 n else d
  if d1.fab.shed.contains (2, n) && !d1.flt.status.getLsbD 30 && d1.lastShed 2 n true then d1.restoreChannel 2 n else d1

/-! ## Admission (R62 to R74) -/

/-- The exact cost of R62 in milli-CU, as numerator and denominator. -/
def costFrac (w h num den chroma codec : Nat) : Nat × Nat := (w * h * num * chroma * codec, den * 10000000)

/-- Cost of a channel: coded size (R271), chroma and codec factors in hundredths (Table 2.2). -/
def Chan.cost (c : Chan) : Nat × Nat :=
  costFrac (roundUp c.width 8) (roundUp c.height 8) c.num c.den (if c.is422 then 133 else 100) (match c.codec with | 2 => 115 | 3 => 50 | _ => 100)

/-- Rows that member m of n takes of r rows (R64). -/
def memberRows (r n m : Nat) : Nat := r / n + (if m < r % n then 1 else 0)

/-- The member pipes that an ADMIT names. -/
def Desc.admitPipes (x : Desc) : List Nat := (List.range (x.get 0x24 1)).map fun i => x.get (0x28 + i) 1

/-- Bookings of a class on a pipe. -/
def Dev.booked (d : Dev) (p : Nat) (live : Bool) : Nat :=
  (d.chan.map fun e => if e.2.held && (e.2.cls == 0) == live then e.2.shareOn p else 0).sum

/-- A pipe has a shed channel. -/
def Dev.pipeShed (d : Dev) (p : Nat) : Bool := d.chan.any fun e => e.2.shed && e.2.active && e.2.pipes.contains p

/-- FABRIC bodies (R67, R68). -/
def admitSpec (_ : Dev) (x : Desc) : OpSpec :=
  { eff0 := true, rsv := [(0x25, 3), (0x2C, 4), (0x38, 8)], idx := [(x.get 0x20 2, 512)], own := [(0, x.get 0x20 2)],
    mem := optArea (x.get 0x30 8) 0x28 false true }
def releaseSpec (_ : Dev) (x : Desc) : OpSpec :=
  { eff0 := true, rsv := [(0x25, 3), (0x2C, 4), (0x38, 8)], idx := [(x.get 0x20 2, 512)], own := [(0, x.get 0x20 2)],
    mem := optArea (x.get 0x30 8) 1 false false }
def querySpec (_ : Dev) (x : Desc) : OpSpec :=
  { eff0 := true, rsv := [(0x25, 3), (0x2C, 4), (0x38, 8)], mem := optArea (x.get 0x30 8) 0x120 false true }

/-- BAD_DESCRIPTOR of R71 step 3. -/
def badAdmit (x : Desc) : Bool :=
  let n := x.get 0x24 1
  let ps := x.admitPipes
  x.get 0x22 1 > 2 || n = 0 || n > 4 || !ps.Nodup || ps.any (15 < ·) || ((List.range 4).any fun i => n ≤ i && x.get (0x28 + i) 1 != 0xFF) ||
    ps.any (fun p => p / 8 != ps.headD 0 / 8)

/-- FABRIC ADMIT (R70, R71, R74). -/
def Dev.runAdmit (d : Dev) (x : Desc) : Dev :=
  let n := x.get 0x20 2
  let c := d.channel n
  let live := x.get 0x22 1 == 0
  let ps := x.admitPipes
  let q := c.cost
  let r := c.rowCount
  let rows := (List.range ps.length).map (memberRows r ps.length)
  let shares := rows.map fun m => ceilDiv (q.1 * m) (q.2 * r)
  let over_ := decide (12000000 * q.2 < q.1) || shares.any (3000000 < ·)
  let full := live && ((ps.zip shares).any (fun e => 3000000 < d.booked e.1 true + e.2) || ps.any d.pipeShed)
  let record := toLE 4 (ceilDiv q.1 q.2) ++ toLE 2 r ++ toLE 2 0 ++
    (List.range 4).flatMap fun m => toLE 2 (rows.getD m 0) ++ toLE 2 0 ++ toLE 4 (shares.getD m 0)
  d.checked x [(c.st != .loaded, stBusy), (badAdmit x, stBadDesc), (over_, stCapacity), (full, stCapacity)]
    (let c1 := { c with st := .admitted, pipes := ps, rows := rows, shares := shares, ctx := overlay c.ctx 0x38 (toLE 1 (x.get 0x22 1) ++ toLE 1 (x.get 0x23 1)) }
     let d1 := d.putChannel n c1
     (if x.get 0x30 8 = 0 then d1 else d1.memWrite (x.get 0x30 8) record).complete x stOK 0)

/-- The channel counts as started (R73, R285). -/
def Chan.started (c : Chan) : Bool := c.active || c.startPend

/-- FABRIC RELEASE (R73). -/
def Dev.releaseBooking (d : Dev) (x : Desc) : Dev :=
  let n := x.get 0x20 2
  let c := d.channel n
  d.checked x [(c.started, stBusy)]
    ((if c.st = .admitted then d.putChannel n { c with st := .loaded, pipes := [], rows := [], shares := [] } else d).complete x stOK 0)

/-- Milli-CU booked on a decode pipe (R65). -/
def Dev.decBooked (d : Dev) (p : Nat) : Nat :=
  (d.dec.map fun e => if !e.2.cfg.isEmpty && fieldLE e.2.cfg 0x22 1 == p then e.2.booked else 0).sum

/-- The record of Table 2.6. -/
def Dev.capacityRecord (d : Dev) : List Byte :=
  ((List.range 16).flatMap fun p => toLE 4 (d.booked p true) ++ toLE 4 (d.booked p false) ++ toLE 4 (d.fab.surplus.get 0 p) ++ toLE 4 (b2n (d.pipeShed p))) ++
    ((List.range 4).flatMap fun p => toLE 4 (d.decBooked p)) ++ ((List.range 4).flatMap fun k => toLE 4 (d.mfBooked k))

/-- FABRIC QUERY (Table 2.3). -/
def Dev.queryCapacity (d : Dev) (x : Desc) : Dev :=
  (if x.get 0x30 8 = 0 then d else d.memWrite (x.get 0x30 8) d.capacityRecord).complete x stOK 0

/-! ## Registers (Table 2.7) -/

/-- A read of the FAB block. -/
def Dev.readFab (d : Dev) (off : Nat) : Nat :=
  let w := off / 4
  if off < 0x80 then d.cadMean w + fld 31 1 (b2n (d.isShort w))
  else if off < 0x100 then floorOf (w - 32)
  else if off = 0x100 then
    d.fab.setMv + fld 16 1 (b2n (d.fab.setMv == 850)) + fld 17 1 (b2n (d.fab.setMv == d.bound21)) + fld 18 1 (b2n (d.flt.live.getLsbD 10))
  else if off = 0x104 then
    let ts := (List.range 32).map (d.fab.temps.get 0)
    ofSigned 9 (ts.foldl max (-256)) + fld 16 9 (ofSigned 9 (ts.foldl min 255))
  else if off = 0x108 then
    (List.range 16).foldl (fun v p => v + fld p 1 (b2n (d.pipeShed p))) 0 + fld 16 10 (d.chan.filter fun e => e.2.shed).length
  else if 0x200 ≤ off && off < 0x240 then d.booked (w - 0x80) true
  else if 0x240 ≤ off && off < 0x280 then d.fab.surplus.get 0 (w - 0x90)
  else if 0x280 ≤ off && off < 0x290 then d.decBooked (w - 0xA0)
  else if 0x290 ≤ off && off < 0x2A0 then d.mfBooked (w - 0xA4)
  else 0

/-! ## Meanings -/

/-- FABRIC_ADMIT (R71). -/
def execFabricAdmit (s : State) : Host.Outcome State Fault Refusal := ok s (s.dev.runUnit 16 1 admitSpec Dev.runAdmit)

/-- FABRIC_RELEASE (R73). -/
def execFabricRelease (s : State) : Host.Outcome State Fault Refusal := ok s (s.dev.runUnit 16 2 releaseSpec Dev.releaseBooking)

/-- FABRIC_QUERY (R66). -/
def execFabricQuery (s : State) : Host.Outcome State Fault Refusal := ok s (s.dev.runUnit 16 3 querySpec Dev.queryCapacity)

/-- CADENCE_WINDOW (R51): one count for each of the 32 islands. -/
def execCadenceWindow (counts : List Nat) (s : State) : Host.Outcome State Fault Refusal :=
  if counts.length = 32 then ok s (s.dev.cadWindow counts) else .fault .malformedOperand

/-- CADENCE_CONTROL_CYCLE (R53): one temperature for each of the 32 islands. -/
def execCadenceControlCycle (temps : List Int) (avs : AvsReply) (s : State) : Host.Outcome State Fault Refusal :=
  if temps.length = 32 then ok s (s.dev.controlCycle temps avs) else .fault .malformedOperand

/-- SHED_RESTORE (R79). -/
def execShedRestore (ch : Fin 512) (s : State) : Host.Outcome State Fault Refusal := ok s (s.dev.shedRestore ch)

end Sys2Proof.Machine
end

