-- ==== Sys2Proof/Machine/Check.lean ====
section
/-! DEFINITION. The check units: write-fed engines and snoop channels (chapter 19). Engines are numbered 0 to 7, snoop channels 8 to 55. -/

namespace Sys2Proof.Machine

/-! ## Parameters (R557 to R559) -/

/-- The CRC model in force: width, polynomial, initial value, final XOR and the two flags. -/
structure CrcModel where
  w      : Nat
  poly   : Nat
  init   : Nat
  xorOut : Nat
  refIn  : Bool
  refOut : Bool
  deriving DecidableEq, Repr

/-- A field of an object's configuration. -/
def Chk.get (c : Chk) (off n : Nat) : Nat := fieldLE c.cfg off n

/-- The presets of Table 19.1, or the descriptor's own fields. -/
def Chk.model (c : Chk) : CrcModel :=
  match c.get 0x22 1 with
  | 1 => ⟨64, 0x42F0E1EBA9EA3693, 2 ^ 64 - 1, 2 ^ 64 - 1, true, true⟩
  | 2 => ⟨32, 0x04C11DB7, 2 ^ 32 - 1, 2 ^ 32 - 1, true, true⟩
  | 3 => ⟨32, 0x1EDC6F41, 2 ^ 32 - 1, 2 ^ 32 - 1, true, true⟩
  | 4 => ⟨16, 0x1021, 0xFFFF, 0, false, false⟩
  | _ => ⟨c.get 0x23 1, c.get 0x28 8, c.get 0x30 8, c.get 0x38 8, c.get 0x24 1 == 1, c.get 0x25 1 == 1⟩

def Chk.set (c : Chk) : Bool := !c.cfg.isEmpty
def Chk.segment (c : Chk) : Bool := c.get 0x27 1 == 1
def Chk.compare (c : Chk) : Nat := c.get 0x42 1
def Chk.logAddr (c : Chk) : Nat := c.get 0x58 8
def Chk.logSize (c : Chk) : Nat := c.get 0x60 4

/-- The running value after bytes. -/
def Chk.feed (c : Chk) (v : BitVec 64) (bs : List Byte) : BitVec 64 :=
  BitVec.ofNat 64 (crcFeed c.model.w c.model.poly c.model.refIn v.toNat bs)

/-- The result now (R558). -/
def Chk.now (c : Chk) : BitVec 64 := if c.set then BitVec.ofNat 64 (crcResult c.model.w c.model.refOut c.model.xorOut c.v.toNat) else c.result

/-- A running value of w bits (R557). -/
def Chk.clip (c : Chk) (v : BitVec 64) : BitVec 64 := if c.set then BitVec.ofNat 64 (v.toNat % 2 ^ c.model.w) else v

/-- The engine is in snoop mode (R560). -/
def Dev.snoopMode (d : Dev) (k : Nat) : Bool := k < 8 && bitN d.chkMode k

/-- A write-fed engine that is configured. -/
def Dev.writeFed (d : Dev) (e : Nat) : Bool := (d.check e).set && !d.snoopMode e

/-- The object returns to unconfigured. -/
def Chk.release (c : Chk) : Chk := { c with cfg := [], bound := false, overrun := false, lost := false, due := [] }

/-! ## Comparison (R565) -/

/-- A result differs from what was expected. -/
def Dev.mismatch (d : Dev) (k : Nat) : Dev :=
  let c := d.check k
  let d1 := (d.putCheck k { c with mis := true, misses := satAdd 16 c.misses 1 }).raise 47
  if c.get 0x44 2 = 0xFFFF then d1 else d1.unitPost 9 (c.get 0x44 2) (flagMask (c.get 0x43 1))

/-- An engine compares its result with EXPECT. -/
def Dev.compareEngine (d : Dev) (e : Nat) : Dev :=
  let c := d.check e
  if c.compare = 1 && c.now.toNat != c.get 0x48 8 then d.mismatch e else d

/-- What unit i of a snoop object is compared with. -/
def Dev.expected (d : Dev) (c : Chk) : Option Nat :=
  match c.compare with
  | 1 => some (c.get 0x48 8)
  | 2 => some (leNat (d.memRead (c.get 0x50 8 + c.units % c.get 0x46 2 * 8) 8))
  | _ => none

/-! ## Snoop (R562 to R564) -/

/-- The tap's object is configured. -/
def Dev.tapSet (d : Dev) (kind tap : Nat) : Bool :=
  match kind with
  | 0 => (d.channel tap).st != .free
  | 1 => (d.capIn tap).st != .unconfigured
  | 2 => !(d.flowAt tap).cfg.isEmpty
  | _ => (d.portAt tap).set

/-- The oldest unit of the tap that the object has not judged ends, when it is the one named. One in progress at CONFIGURE (not `whole`) ends at the boundary at which the binding takes effect. `full` says that the lag buffer filled, which it can
only below the floor of the object's island (R563). -/
def Dev.snoopEnd (d : Dev) (k mt : Nat) (bytes : List Byte) (withheld full whole : Bool) : Dev :=
  let c0 := d.check k
  let c := { c0 with due := c0.due.drop 1 }
  let named := match c0.due with | (m, b, w) :: _ => m.getD mt == mt && b == bytes && w == withheld | [] => false
  let island := if k < 8 then (if k < 4 then 28 else 29) else if k < 32 then 28 else 29
  if !named || !c.set || (k < 8 && !d.snoopMode k) || c.overrun || c.lost || !d.tapSet (c.get 0x26 1) (c.get 0x40 2) then d
  else if !c.bound && !whole then d.putCheck k { c with bound := true }
  else if full && (d.fab.windows.get [] island).headD 0 < floorOf island then d.putCheck k { c with overrun := true }
  else
    let v := c.feed (if c.segment then BitVec.ofNat 64 c.model.init else c.v) bytes
    let c1 := { c with v := v, bound := true }
    let r := c1.now
    let differs := match d.expected c with | some e => r.toNat != e | none => false
    let entry := toLE 8 mt ++ toLE 8 r.toNat ++ toLE 8 bytes.length ++ toLE 4 c.units ++ toLE 4 (b2n differs + 2 * b2n withheld)
    let d1 := d.putCheck k { c1 with result := r, units := c.units + 1, wptr := if c.logAddr = 0 then c.wptr else (c.wptr + 32) % c.logSize }
    let d2 := if c.logAddr = 0 then d1 else d1.memWrite (c.logAddr + c.wptr) entry
    if differs then d2.mismatch k else d2

/-! ## The CHECK unit (R566, R567) -/

/-- The object's number. -/
def chkIndex (obj idx : Nat) : Nat := if obj = 1 then 8 + idx else idx

/-- Limits of the taps of Table 19.2. -/
def tapLimit : Nat → Nat
  | 0 => 512 | 1 => 192 | 2 => 4096 | 3 => 128 | _ => 0

/-- The object whose owner decides about a tap (R91): a channel, a flow's queue, a port; capture inputs are the PF's. -/
def Dev.tapObject (d : Dev) (kind tap : Nat) : List (Nat × Nat) :=
  if tapLimit kind ≤ tap then []
  else match kind with
  | 0 => [(0, tap)] | 2 => d.flowObject tap | 3 => [(2, tap)] | _ => []

/-- CONFIGURE names the object that it taps, unless it is of a write-fed engine. -/
def checkConfigureSpec (d : Dev) (x : Desc) : OpSpec :=
  { len := 0x80, eff0 := true, pf := true, rsv := [(0x64, 28)],
    own := if x.get 0x20 1 = 1 || (x.get 0x20 1 = 0 && d.snoopMode (x.get 0x21 1)) then d.tapObject (x.get 0x26 1) (x.get 0x40 2) else []
    mem := (if x.get 0x42 1 = 2 then [⟨x.get 0x50 8, max 1 (8 * x.get 0x46 2), true, false⟩] else []) ++
      (if x.get 0x58 8 = 0 then [] else [⟨x.get 0x58 8, max 1 (x.get 0x60 4), false, true⟩]) }

/-- A field breaks Table 19.4 or R557; snoop fields on a write-fed engine disagree with its mode. -/
def Dev.checkBad (d : Dev) (x : Desc) : Bool :=
  let g := x.get
  let obj := g 0x20 1
  let wide (o : Nat) : Bool := 2 ^ g 0x23 1 ≤ g o 8
  let own := g 0x22 1 = 0
  let fed := obj = 0 && !d.snoopMode (g 0x21 1)
  obj > 1 || (if obj = 0 then 8 else 48) ≤ g 0x21 1 || g 0x22 1 > 4 ||
    (if own then g 0x23 1 = 0 || g 0x23 1 > 64 || wide 0x28 || wide 0x30 || wide 0x38 else !zeroBytes x.bytes 0x23 3 || !zeroBytes x.bytes 0x28 24) ||
    g 0x24 1 > 1 || g 0x25 1 > 1 || g 0x27 1 > 1 || g 0x42 1 > 2 || g 0x43 1 > 31 || (g 0x44 2 ≥ 4096 && g 0x44 2 != 0xFFFF) ||
    (if g 0x42 1 = 2 then g 0x46 2 = 0 || g 0x50 8 % 8 != 0 else g 0x46 2 != 0) ||
    (if g 0x58 8 = 0 then g 0x60 4 != 0 else g 0x58 8 % 4096 != 0 || g 0x60 4 % 4096 != 0 || g 0x60 4 < 65536 || g 0x60 4 > 2 ^ 24) ||
    (if fed then g 0x26 1 != 0 || g 0x27 1 != 0 || g 0x40 2 != 0 || g 0x42 1 = 2 || g 0x58 8 != 0 else tapLimit (g 0x26 1) ≤ g 0x40 2)

/-- CONFIGURE. -/
def Dev.checkConfigure (d : Dev) (x : Desc) : Dev :=
  let k := chkIndex (x.get 0x20 1) (x.get 0x21 1)
  let fed := x.get 0x20 1 = 0 && !d.snoopMode (x.get 0x21 1)
  let known := decide (x.get 0x20 1 ≤ 1 ∧ x.get 0x21 1 < if x.get 0x20 1 = 0 then 8 else 48)
  d.checked x [(known && (d.check k).set, stBusy), (d.checkBad x, stBadDesc), (!fed && !d.tapSet (x.get 0x26 1) (x.get 0x40 2), stFormat)]
    ((d.modCheck k fun c =>
      let c1 := { c.release with cfg := x.bytes, units := 0, wptr := 0 }
      { c1 with v := BitVec.ofNat 64 c1.model.init }).complete x stOK 0)

def checkFeedSpec (_ : Dev) (x : Desc) : OpSpec :=
  { eff0 := true, pf := true, rsv := [(0x21, 7), (0x38, 8)], mem := [⟨x.get 0x28 8, max 1 (x.get 0x30 8), true, false⟩] }
def checkStoreSpec (_ : Dev) (x : Desc) : OpSpec :=
  { eff0 := true, pf := true, rsv := [(0x22, 6), (0x30, 16)], mem := [⟨x.get 0x28 8, 16, false, true⟩] }
def checkLoadSpec (_ : Dev) (_ : Desc) : OpSpec := { eff0 := true, pf := true, rsv := [(0x21, 7), (0x30, 16)] }
def checkReleaseSpec (_ : Dev) (_ : Desc) : OpSpec := { eff0 := true, pf := true, rsv := [(0x22, 30)] }

/-- FEED: the bytes in address order; a poisoned atom is reported (R547). -/
def Dev.checkFeed (d : Dev) (x : Desc) : Dev :=
  let e := x.get 0x20 1
  let n := x.get 0x30 8
  let a := x.get 0x28 8
  d.checked x [(e > 7 || n = 0 || 2 ^ 32 < n, stBadDesc), (!d.writeFed e, stBusy)]
    ((d.modCheck e fun c => { c with v := c.feed c.v (d.memRead a n) }).complete x (if d.poisoned a n then stInternal else stOK) 0)

/-- STORE_VALUE: v, then the result, with a comparison if asked. -/
def Dev.checkStore (d : Dev) (x : Desc) : Dev :=
  let e := x.get 0x20 1
  let c := d.check e
  let d1 := d.memWrite (x.get 0x28 8) (toLE 8 c.v.toNat ++ toLE 8 c.now.toNat)
  d.checked x [(e > 7 || x.get 0x21 1 > 1 || x.get 0x28 8 % 16 != 0, stBadDesc), (!d.writeFed e, stBusy)]
    ((if x.get 0x21 1 = 1 then d1.compareEngine e else d1).complete x stOK 0)

/-- LOAD_VALUE. -/
def Dev.checkLoad (d : Dev) (x : Desc) : Dev :=
  let e := x.get 0x20 1
  d.checked x [(e > 7, stBadDesc), (!d.writeFed e, stBusy)] ((d.modCheck e fun c => { c with v := c.clip (BitVec.ofNat 64 (x.get 0x28 8)) }).complete x stOK 0)

/-- RELEASE. -/
def Dev.checkRelease (d : Dev) (x : Desc) : Dev :=
  d.checked x [(x.get 0x20 1 > 1 || (if x.get 0x20 1 = 1 then 48 else 8) ≤ x.get 0x21 1, stBadDesc)]
    ((d.modCheck (chkIndex (x.get 0x20 1) (x.get 0x21 1)) Chk.release).complete x stOK 0)

/-! ## Registers (Table 19.5) -/

/-- A write of CHK_CEe_DATA_B, _H or _W (R560, R561): form 0, 1 or 2. -/
def Dev.chkData (d : Dev) (who : Requester) (e form : Nat) (v : Word) : Dev :=
  if !isPfOrFw who then d
  else if d.writeFed e then d.modCheck e fun c => { c with v := c.feed c.v (toLE (2 ^ form) v.toNat) }
  else d.modCheck e fun c => { c with ignored := true }

/-- A write of VALUE_LO, and of VALUE_HI, which commits (R561). -/
def Dev.chkValueLo (d : Dev) (who : Requester) (e : Nat) (v : Word) : Dev := if isPfOrFw who then d.modCheck e fun c => { c with valLo := v } else d
def Dev.chkValueHi (d : Dev) (who : Requester) (e : Nat) (v : Word) : Dev :=
  if isPfOrFw who then d.modCheck e fun c => { c with v := c.clip (v ++ c.valLo) } else d

/-- Writes of 1 to COMPARE and RESTART. -/
def Dev.chkCompare (d : Dev) (who : Requester) (e : Nat) : Dev := if isPfOrFw who && (d.check e).set then d.compareEngine e else d
def Dev.chkRestart (d : Dev) (who : Requester) (e : Nat) : Dev :=
  if isPfOrFw who && (d.check e).set then d.modCheck e fun c => { c with v := BitVec.ofNat 64 c.model.init } else d

/-- A write of CHK_MODE: an engine whose bit changes returns to unconfigured (R560). -/
def Dev.chkSetMode (d : Dev) (who : Requester) (v : Word) : Dev :=
  if !isPfOrFw who then d
  else
    let m := bits v.toNat 0 8
    (List.range 8).foldl (fun e i => if bitN m i != bitN d.chkMode i && (d.check i).set then e.modCheck i Chk.release else e) { d with chkMode := m }

/-- A write of CHK_CEe_CTRL: what came earlier is compared, then the engine restarts. -/
def Dev.chkCtrl (d : Dev) (who : Requester) (e : Nat) (v : Word) : Dev :=
  if !isPfOrFw who then d
  else
    let d1 := d.modCheck e fun c => { c with ignored := c.ignored && !v.getLsbD 2, mis := c.mis && !v.getLsbD 3 }
    let d2 := if v.getLsbD 0 then d1.chkCompare who e else d1
    if v.getLsbD 1 then d2.chkRestart who e else d2

/-- The object that CHK_CS_SEL selects. -/
def Dev.csObject (d : Dev) : Nat := if d.chkSel < 48 then 8 + d.chkSel else d.chkSel - 48

/-- A read of the CHK block. -/
def Dev.readChk (d : Dev) (off : Nat) : Nat :=
  let s := d.check d.csObject
  if 0x100 ≤ off && off < 0x200 then
    let c := d.check ((off - 0x100) / 0x20)
    match (off - 0x100) % 0x20 with
    | 0x0C => (loW c.v.toNat).toNat
    | 0x10 => (hiW c.v.toNat).toNat
    | 0x14 => (loW c.now.toNat).toNat
    | 0x18 => (hiW c.now.toNat).toNat
    | 0x1C => fld 2 1 (b2n c.ignored) + fld 3 1 (b2n c.mis) + fld 4 12 (min 4095 c.misses)
    | _ => 0
  else match off with
  | 0x000 => d.chkMode
  | 0x400 => d.chkSel
  | 0x404 => if d.chkSel < 56 then b2n (s.set && s.bound) + fld 1 1 (b2n s.overrun) + fld 16 16 s.misses else 0
  | 0x408 => if d.chkSel < 56 then (loW s.result.toNat).toNat else 0
  | 0x40C => if d.chkSel < 56 then (hiW s.result.toNat).toNat else 0
  | 0x410 => if d.chkSel < 56 then s.wptr else 0
  | _ => 0

/-- A write of the CHK block. -/
def Dev.writeChk (d : Dev) (who : Requester) (off : Nat) (v : Word) : Dev :=
  if 0x100 ≤ off && off < 0x200 then
    let e := (off - 0x100) / 0x20
    match (off - 0x100) % 0x20 with
    | 0x00 => d.chkData who e 0 v
    | 0x04 => d.chkData who e 1 v
    | 0x08 => d.chkData who e 2 v
    | 0x0C => d.chkValueLo who e v
    | 0x10 => d.chkValueHi who e v
    | 0x1C => d.chkCtrl who e v
    | _ => d
  else match off with
  | 0x000 => d.chkSetMode who v
  | 0x400 => if isPfOrFw who then { d with chkSel := bits v.toNat 0 6 } else d
  | _ => d

/-! ## Meanings -/

/-- CHECK_CONFIGURE (R567). -/
def execCheckConfigure (s : State) : Host.Outcome State Fault Refusal := ok s (s.dev.runUnit 9 1 checkConfigureSpec Dev.checkConfigure)

/-- CHECK_FEED (R567). -/
def execCheckFeed (s : State) : Host.Outcome State Fault Refusal := ok s (s.dev.runUnit 9 2 checkFeedSpec Dev.checkFeed)

/-- CHECK_STORE_VALUE (R565, R567). -/
def execCheckStoreValue (s : State) : Host.Outcome State Fault Refusal := ok s (s.dev.runUnit 9 3 checkStoreSpec Dev.checkStore)

/-- CHECK_LOAD_VALUE (R567). -/
def execCheckLoadValue (s : State) : Host.Outcome State Fault Refusal := ok s (s.dev.runUnit 9 4 checkLoadSpec Dev.checkLoad)

/-- CHECK_RELEASE (R567). -/
def execCheckRelease (s : State) : Host.Outcome State Fault Refusal := ok s (s.dev.runUnit 9 5 checkReleaseSpec Dev.checkRelease)

/-- CHK_DATA_WRITE (R560). -/
def execChkDataWrite (who : Requester) (e : Fin 8) (form : Fin 3) (v : Word) (s : State) : Host.Outcome State Fault Refusal := ok s (s.dev.chkData who e form v)

/-- CHK_VALUE_HI_WRITE (R561). -/
def execChkValueHiWrite (who : Requester) (e : Fin 8) (v : Word) (s : State) : Host.Outcome State Fault Refusal := ok s (s.dev.chkValueHi who e v)

/-- CHK_CTRL_COMPARE (R565). -/
def execChkCtrlCompare (who : Requester) (e : Fin 8) (s : State) : Host.Outcome State Fault Refusal := ok s (s.dev.chkCompare who e)

/-- CHK_CTRL_RESTART (R569). -/
def execChkCtrlRestart (who : Requester) (e : Fin 8) (s : State) : Host.Outcome State Fault Refusal := ok s (s.dev.chkRestart who e)

/-- CHK_MODE_WRITE (R560). -/
def execChkModeWrite (who : Requester) (v : Word) (s : State) : Host.Outcome State Fault Refusal := ok s (s.dev.chkSetMode who v)

/-- SNOOP_UNIT_END (R562 to R565). -/
def execSnoopUnitEnd (k : Fin 56) (mt : Nat) (unit : SnoopUnit) (withheld full : Bool) (s : State) : Host.Outcome State Fault Refusal :=
  ok s (s.dev.snoopEnd k mt unit.bytes withheld full unit.whole)

end Sys2Proof.Machine
end

