-- ==== Sys2Proof/Machine/Coding.lean ====
section
/-! DEFINITION. What a picture's bytes are made of: the samples that are coded (R270, R271), what the parameter sets and messages signal (R269, R270, R321,
R329), the memory areas of a channel (R280), references (R274, R276), and what each item depends on (R277, R290, R323, R328). The coder's decisions and the
bit strings of the standards are opaque: `Config.coderState` names an item by all that it may depend on, and `Config.codedByte` gives its bytes. -/

namespace Sys2Proof.Machine

/-! ## Areas (Table 9.5) -/

/-- Wc and Hc (R271). -/
def Chan.wc (c : Chan) : Nat := roundUp c.width (max 1 c.ctu)
def Chan.hc (c : Chan) : Nat := roundUp c.height (max 1 c.ctu)
/-- Areas of Table 9.5 as address and size: context, references, elementary stream. -/
def Chan.ctxArea (c : Chan) : Nat × Nat := (c.get 0x50 8, roundUp (49152 + ceilDiv (c.wc * c.hc) 128) 4096)
def Chan.refSlotSize (c : Chan) : Nat := roundUp (c.wc * c.hc * (if c.is422 then 4 else 3) + c.wc * c.hc / 16) 4096
def Chan.refSlots (c : Chan) : Nat := c.get 0x4F 1
def Chan.refArea (c : Chan) : Nat × Nat := (c.get 0x58 8, c.refSlots * c.refSlotSize)
def Chan.esArea (c : Chan) : Nat × Nat := (c.esAddr, c.esSize)

/-! ## Samples (R270, R271) -/

/-- A 12-bit sample reduced to the coded depth (R270). -/
def codeSample (depth v : Nat) : Nat := if depth = 8 then min 255 ((v + 8) / 16) else min 1023 ((v + 2) / 4)

/-- A row of n samples, its last one repeated (R271). -/
def padEnd (n : Nat) (xs : List Nat) : List Nat := xs ++ List.replicate (n - xs.length) (xs.getLast?.getD 0)

/-- The coded size, and the conformance cropping window that takes the added columns and rows away (R271). -/
def Chan.codedW (c : Chan) : Nat := roundUp c.width 8
def Chan.codedH (c : Chan) : Nat := roundUp c.height 8
def Chan.cropping (c : Chan) : Nat × Nat := (c.codedW - c.width, c.codedH - c.height)

/-- Row y of a plane of the picture of output index `out` as the pipe codes it: the scene output's row, reduced in depth and padded at the right and below. -/
def Dev.codedRow (d : Dev) (c : Chan) (out plane y : Nat) : List Nat :=
  let o := (d.sceneAt c.sceneIx).out c.outIx
  let g := outGeom o
  padEnd (if plane = 0 then c.codedW else c.codedW / 2)
    ((d.storeRow (outSlot o (c.k0 + out)) g plane (min y (g.rows plane - 1))).map fun v => codeSample c.depth (sample12 v))

/-- The coded samples of CTU row r left of a luma column. -/
def Dev.ctuSource (d : Dev) (c : Chan) (out r lim : Nat) : List Nat :=
  let plane (k : Nat) : List Nat :=
    let step := if k = 0 || c.is422 then c.ctu else c.ctu / 2
    let rows := if k = 0 || c.is422 then c.codedH else c.codedH / 2
    (List.range step).flatMap fun i => if r * step + i < rows then (d.codedRow c out k (r * step + i)).take (if k = 0 then lim else lim / 2) else []
  plane 0 ++ plane 1 ++ plane 2

/-! ## What is signalled (R269, R270, R272, R321, R327, R329) -/

/-- The levels of JPEG XS as widest and tallest picture, samples and samples a second, from the lowest, and its sublevels in bits a sample (PRESUMED from
ISO/IEC 21122-2, log entry 24). -/
def xsLevels : List (Nat × Nat × Nat × Nat) :=
  [(1280, 5120, 2621440, 83558400), (2048, 8192, 4194304, 133693440), (4096, 16384, 8912896, 267386880), (4096, 16384, 16777216, 534773760),
   (4096, 16384, 16777216, 1069547520), (8192, 32768, 35651584, 1069547520), (8192, 32768, 67108864, 2139095040)]
def xsSublevels : List Nat := [2, 3, 4, 6, 9, 12]

/-- The lowest JPEG XS level, by its place in the list, and the lowest sublevel that the stream meets (R269). -/
def Chan.xsLevel (c : Chan) : Nat × Nat :=
  let fits (l : Nat × Nat × Nat × Nat) : Bool :=
    c.width ≤ l.1 && c.height ≤ l.2.1 && c.width * c.height ≤ l.2.2.1 && c.width * c.height * c.num ≤ l.2.2.2 * c.den
  let rate := ((xsLevels.find? fits).getD (0, 0, 0, xsRate)).2.2.2
  ((xsLevels.findIdx? fits).getD 6, (xsSublevels.find? fun b => c.bitrate ≤ b * rate).getD 12)

/-- colour_primaries, transfer_characteristics and matrix_coefficients for a COLOUR tag and a TRANSFER (R270). -/
def colourCodes (colour transfer : Nat) : Nat × Nat × Nat :=
  let (p, t, m) := match colour with | 0 => (6, 6, 6) | 1 => (1, 1, 1) | _ => (9, 14, 9)
  (p, match transfer with | 1 => 16 | 2 => 18 | _ => t, m)

/-- The codes of those levels and sublevels in a JPEG XS picture header (PRESUMED from ISO/IEC 21122-2, log entry 24). -/
def xsLevelCode (l : Nat) : Nat := [0x04, 0x10, 0x20, 0x24, 0x28, 0x30, 0x34].getD l 0x34
def xsSublevelCode (b : Nat) : Nat := ([(2, 0x03), (3, 0x04), (4, 0x06), (6, 0x08), (9, 0x0C), (12, 0x10)].find? fun (e : Nat × Nat) => e.1 == b).elim 0x10 (·.2)

/-- The standards' own codes for a profile and a level of Table 9.1 (R269; PRESUMED from the standards, log entry 24): profile_idc and level_idc of AVC, the general
ones of HEVC and VVC, and those of the JPEG XS picture header. -/
def Chan.profileCode (c : Chan) : Nat :=
  match c.codec with
  | 0 => if c.profile = 2 then 122 else 110
  | 1 => match c.profile with | 0 => 1 | 1 => 2 | _ => 4
  | 2 => if c.profile = 2 then 33 else 1
  | _ => 0x3540
def Chan.levelCode (c : Chan) : Nat × Nat :=
  let l := c.get 0x24 1
  match c.codec with
  | 0 => (l, 0)
  | 1 => (3 * l, 0)
  | 2 => (16 * (l / 10) + 3 * (l % 10), 0)
  | _ => (xsLevelCode c.xsLevel.1, xsSublevelCode c.xsLevel.2)

/-- The coding tools of Table 9.2 (R272), and the wavelet of JPEG XS (R273). -/
inductive Tool where
  | cabac | transform4 | transform8 | transformTo32 | dst4 | transformSkip | signHiding | transformTo64 | implicitMts | lfnst | dependentQuant | intraAvc | intra35
  | intra67 | mrl | cclm | treeSplits | dualTree | quarterSample | parts8 | merge | amvp | amp | tmvp | mmvd | amvr | affine | dmvr | bdof | deblocking | sao | alf
  | wavelet
  deriving DecidableEq, Repr

/-- The tools that a channel's pictures use, and no others; PRESET 1 adds those marked live-high (Table 9.2). -/
def Chan.tools (c : Chan) : List Tool :=
  match c.codec with
  | 0 => [.cabac, .transform4, .transform8, .intraAvc, .quarterSample, .parts8, .deblocking]
  | 1 => [.cabac, .transformTo32, .dst4, .transformSkip, .signHiding, .intra35, .merge, .amvp, .amp, .tmvp, .deblocking, .sao]
  | 2 => [.cabac, .transformTo64, .implicitMts, .lfnst, .dependentQuant, .treeSplits, .dualTree, .intra67, .mrl, .cclm, .merge, .amvp, .mmvd, .amvr, .tmvp] ++
      (if c.get 0x3A 1 = 1 then [.affine, .dmvr, .bdof] else []) ++ [.deblocking, .sao, .alf]
  | _ => [.wavelet]

/-- The tools of a clean block of a gradual refresh (R328). -/
def Chan.cleanTools (c : Chan) : List Tool := c.tools.filter fun t => t != .affine && t != .dmvr && t != .bdof

/-- Tools as numbers. -/
def toolCodes (ts : List Tool) : List Nat :=
  let all : List Tool := [.cabac, .transform4, .transform8, .transformTo32, .dst4, .transformSkip, .signHiding, .transformTo64, .implicitMts, .lfnst, .dependentQuant, .intraAvc,
    .intra35, .intra67, .mrl, .cclm, .treeSplits, .dualTree, .quarterSample, .parts8, .merge, .amvp, .amp, .tmvp, .mmvd, .amvr, .affine, .dmvr, .bdof, .deblocking, .sao, .alf,
    .wavelet]
  ts.map all.idxOf

/-- What the parameter sets of a channel say (R268 to R275, R321, R329): profile, tier and level in the standard's codes (for JPEG XS with its sublevel), depth,
sampling, colour, range, coded size and cropping, the HRD parameters (NAL parameters alone, fill rate, VBV_SIZE, cbr_flag and low_delay_hrd_flag), the tools, the
largest motion, and how the bands of a gang are told apart: tile rows, whether loop filters cross them, and disable_deblocking_filter_idc (Table 9.2); for JPEG XS
the decomposition levels and the lines of a slice (R273). -/
structure Signals where
  codec    : Nat
  profile  : Nat
  tier     : Nat
  level    : Nat × Nat
  depth    : Nat
  chroma   : Nat
  colour   : Nat × Nat × Nat
  fullRange : Bool
  size     : Nat × Nat
  crop     : Nat × Nat
  nalHrd   : Bool
  vclHrd   : Bool
  rate     : Nat
  cpb      : Nat
  cbr      : Bool
  lowDelay : Bool
  gdr      : Bool
  tools    : List Tool
  motion   : Nat × Nat
  tileRows : Nat
  across   : Bool
  deblock  : Nat
  levels   : Nat × Nat
  sliceLines : Nat
  deriving DecidableEq, Repr

/-- What the channel's parameter sets say now. -/
def Dev.signals (d : Dev) (c : Chan) : Signals :=
  { codec := c.codec, profile := c.profileCode, tier := c.get 0x25 1, level := c.levelCode, depth := c.depth,
    chroma := if c.is422 then 2 else 1, colour := colourCodes ((d.sceneAt c.sceneIx).get 0x23 1) (c.get 0x37 1), fullRange := false,
    size := (c.codedW, c.codedH), crop := c.cropping, nalHrd := !c.isXs, vclHrd := false, rate := c.fillRate, cpb := c.vbvSize, cbr := c.rcMode == 0,
    lowDelay := c.depthG == 1, gdr := c.latMode == 1 && c.codec == 2, tools := c.tools, motion := if c.isXs then (0, 0) else (1024, 256)
    tileRows := if c.codec = 1 || c.codec = 2 then c.pipes.length else 1, across := false, deblock := if c.codec = 0 && 1 < c.pipes.length then 2 else 0
    levels := if c.isXs then (5, 1) else (0, 0), sliceLines := if c.isXs then 16 else 0 }

/-- The same as numbers. -/
def Signals.items (s : Signals) : List Nat :=
  [s.codec, s.profile, s.tier, s.level.1, s.level.2, s.depth, s.chroma, s.colour.1, s.colour.2.1, s.colour.2.2, b2n s.fullRange, s.size.1, s.size.2, s.crop.1,
   s.crop.2, b2n s.nalHrd, b2n s.vclHrd, s.rate, s.cpb, b2n s.cbr, b2n s.lowDelay, b2n s.gdr, s.motion.1, s.motion.2, s.tileRows, b2n s.across, s.deblock,
   s.levels.1, s.levels.2, s.sliceLines] ++ toolCodes s.tools

def HeadNal.code : HeadNal → Nat
  | .aud => 0 | .vps => 1 | .sps => 2 | .pps => 3 | .bufferingPeriod => 4 | .pictureTiming => 5 | .recoveryPoint => 6

/-- The NAL units before a picture's first slice: the delimiter (R279), parameter sets before a key picture and the first picture of a refresh cycle (Table 9.2,
R295, R329), and the messages of R321 and R329. A VVC picture that starts a cycle is a GDR picture and needs no message. -/
def Chan.headKinds (c : Chan) (key starts : Bool) : List HeadNal :=
  if c.isXs then []
  else
    (if bitN c.flags 2 then [.aud] else []) ++ (if key || starts then (if c.codec = 1 then [HeadNal.vps] else []) ++ [.sps, .pps] else []) ++
      (if key then [.bufferingPeriod] else []) ++ [.pictureTiming] ++ (if starts && c.codec != 2 then [.recoveryPoint] else [])

/-- Bytes of a delimiter and least bytes of another one; a buffering-period message is counted with 64 (R321). -/
def Chan.headLeast (c : Chan) : HeadNal → Nat
  | .aud => if c.codec = 0 then 2 else 3
  | .bufferingPeriod => 64
  | _ => 1

/-- The bytes of each of them: what the coder needs, free within the room that R310 leaves. -/
def Chan.headSizes (c : Chan) (code : Nat) : Nat → List HeadNal → List (HeadNal × Nat)
  | _, [] => []
  | room, k :: ks =>
    let rest := (ks.map c.headLeast).sum
    let n := match k with | .aud => c.headLeast k | .bufferingPeriod => 64 | _ => 1 + Config.coderSize code k.code % (room - rest)
    (k, n) :: c.headSizes code (room - n) ks

/-- recovery_frame_cnt or ph_recovery_poc_cnt of a cycle's first picture (R329). -/
def Chan.recoveryCount (c : Chan) : Nat := c.refreshPics - 1

/-! ## What items depend on (R277, R290, R323, R328) -/

/-- What the parameter sets depend on. -/
def Dev.sigCode (d : Dev) (c : Chan) : Nat := Config.coderState 1 (d.signals c).items

/-- A VVC picture that starts a refresh cycle is a GDR picture (R329). -/
def Chan.gdrNext (c : Chan) (typ : PicType) : Bool := c.latMode == 1 && c.codec == 2 && typ != .key && c.cycle == 0

/-- What a picture depends on before its rows are coded: the context and block in force, the row split, its counts and its type (R277, R323). -/
def Chan.planCode (c : Chan) (typ : PicType) (cra : Bool) (out sig : Nat) : Nat :=
  let t := match typ with | .key => 0 | .p => 1 | .b => 2
  Config.coderState 0 ([t, b2n cra, b2n (c.gdrNext typ), c.k0, c.j, out, c.cycle, if c.latMode = 1 then c.recoveryCount else 0, sig] ++ c.rows ++ (codedContext c.ctx).map (·.toNat) ++
    c.rc.map (·.toNat))

/-- What skip rows and repeats depend on: the context, the slice structure and picture counts (R290). -/
def Chan.skipCode (c : Chan) (p : Pic) (r : Nat) : Nat :=
  let at_ := p.copyOf.getD (p.j, p.out)
  Config.coderState 2 ([at_.1, at_.2, r] ++ c.rows ++ (codedContext c.ctx).map (·.toNat))

/-- Luma and chroma of the black key picture (R289). -/
def Chan.blackSamples (c : Chan) : Nat × Nat := if c.depth = 8 then (16, 128) else (64, 512)

/-- What the black key picture depends on (R289). -/
def Chan.blackCode (c : Chan) : Nat := Config.coderState 3 ([c.blackSamples.1, c.blackSamples.2] ++ c.rows ++ (codedContext c.ctx).map (·.toNat))

/-- Pictures from the last key picture on, latest first in coding order; `uptoKey` cuts a list there. -/
def uptoKey : List Pic → List Pic
  | [] => []
  | p :: ps => if p.typ = .key then [p] else p :: uptoKey ps

/-- The references of the next picture in coding order as coding indexes (Table 9.3): in a low-delay structure the last REFS pictures; in a mini-GOP the last REFS
anchors for its P picture, and the nearest pictures on both sides for a B picture (log entry 25). Nothing before the last key picture is a reference. -/
def Chan.refsOf (c : Chan) (typ : PicType) (out : Nat) : List Nat :=
  let ps := uptoKey (c.flight.reverse ++ c.hist)
  let near (best : Option Pic) (p : Pic) (closer : Nat → Nat → Bool) : Option Pic := match best with | none => some p | some b => if closer p.out b.out then some p else some b
  if typ = .key then []
  else if c.gop != 2 then (ps.take c.refs).map (·.j)
  else if typ = .p then ((ps.filter fun p => p.typ != .b).take c.refs).map (·.j)
  else
    let below := (ps.filter fun p => p.out < out).foldl (fun b p => near b p fun x y => decide (y < x)) none
    let above := (ps.filter fun p => out < p.out).foldl (fun b p => near b p fun x y => decide (x < y)) none
    (below.toList ++ above.toList).map (·.j)

/-- The CTU rows of a reference that row r of a picture may read: down to luma row C x (r + 1) + 264, or to its last row (R276). -/
def Chan.reachOf (c : Chan) (r : Nat) : Nat := ceilDiv (min (c.ctu * (r + 1) + 265) c.height) c.ctu

/-- The luma columns of a gradual-refresh reference that a clean block may read: up to 8 samples left of its clean boundary (R328). -/
def Chan.cleanLimit (c : Chan) (q : Pic) : Nat := q.clean * c.ctu - 8

/-- What may be read of a clean item to the left of a luma column. -/
def leftOf (code lim : Nat) : Nat := Config.coderState 10 [code, lim]

/-- What the decisions of row r of a picture depend on (R277, R328): in its clean columns, the samples left of the clean boundary, the clean columns of the row above
in its band and of the references of the same refresh cycle, those as far as `cleanLimit`, and the tools of R328; in the whole row, all of its samples, the row above
and its references. -/
def Dev.rowFacts (d : Dev) (n : Nat) (p : Pic) (r : Nat) (b : Band) : Nat × Nat :=
  let c := d.channel n
  let refs := p.refs.filterMap c.picAt
  let above (f : Nat × Nat → Nat) : List Nat := if r = b.first then [] else [f (p.rowCode (r - 1))]
  let clean :=
    if c.latMode = 1 && p.typ != .key then
      Config.coderState 4 ([p.code, r, ofSigned 8 b.qp, b2n b.exhausted] ++ toolCodes c.cleanTools ++ d.ctuSource c p.out r (p.clean * c.ctu) ++ above (·.1) ++
        (refs.filter fun q => decide (p.cycle0 ≤ q.j)).flatMap fun q => (List.range (c.reachOf r)).map fun k => leftOf (q.rowCode k).1 (c.cleanLimit q))
    else 0
  (clean, Config.coderState 5 ([p.code, clean, r, ofSigned 8 b.qp, b2n b.exhausted] ++ d.ctuSource c p.out r c.codedW ++ above (·.2) ++
    refs.flatMap fun q => q.code :: (List.range (c.reachOf r)).map fun k => (q.rowCode k).2))

/-- What the coder's decisions for a row give: sizes that follow from what they depend on, and from nothing else (R277). -/
def Dev.rowCost (d : Dev) (n : Nat) (p : Pic) (r : Nat) (b : Band) : RowCost :=
  let c := d.channel n
  let f := d.rowFacts n p r b
  let of (x : Nat) : Nat := if c.latMode = 1 && p.typ != .key && x < p.clean then f.1 else f.2
  { head := Config.coderSize f.2 0, ctus := (List.range c.cols).map fun x => Config.coderSize (of x) (2 * x + 1)
    floors := (List.range c.cols).map fun x => Config.coderSize (of x) (2 * x + 2) }

/-- What the reconstruction of row r of a picture depends on: what its decisions depend on, and how many CTUs stand as they were decided. A discarded CTU leaves no
other trace (R316). -/
def Dev.codeRow (d : Dev) (n : Nat) (p : Pic) (r : Nat) (b : Band) (cost : RowCost) : Nat × Nat :=
  let f := d.rowFacts n p r b
  let k := (d.channel n).rowCut p b cost
  (Config.coderState 11 [f.1, min k p.clean], Config.coderState 11 [f.2, k])

/-- What the bytes of row r of a picture depend on: those of a skip row on R290's list. -/
def Chan.streamCode (c : Chan) (p : Pic) (r : Nat) : Nat :=
  match p.skipFrom with
  | some k => if k ≤ r then c.skipCode p r else (p.rowCode r).2
  | none => (p.rowCode r).2

/-! ## NAL units -/

/-- Bytes `off` to `off + n - 1` of an item. -/
def drawBytes (code off n : Nat) : List Byte := (List.range n).map fun i => BitVec.ofNat 8 (Config.codedByte code (off + i))

/-- The header of a NAL unit of a type, in the codec's layout (PRESUMED from the standards, log entry 24): nal_ref_idc 3 for IDR slices and parameter sets, 2 for other
slices, 0 for the rest; layer 0 and temporal sublayer 0. -/
def nalHeader (codec ty : Nat) : List Byte :=
  match codec with
  | 0 => [BitVec.ofNat 8 ((if ty = 5 || ty = 7 || ty = 8 then 96 else if ty = 1 then 64 else 0) + ty)]
  | 1 => [BitVec.ofNat 8 (2 * ty), 0x01#8]
  | _ => [0x00#8, BitVec.ofNat 8 (8 * ty + 1)]

/-- A byte string that starts with a header, its length unchanged. -/
def stamped (h bs : List Byte) : List Byte := (h ++ bs.drop h.length).take bs.length

/-- An end-of-sequence NAL unit, and a filler NAL unit of n bytes. -/
def eosNal (codec : Nat) : List Byte := nalHeader codec (match codec with | 0 => 10 | 1 => 36 | _ => 21)
def fillerNal (codec n : Nat) : List Byte :=
  let h := nalHeader codec (match codec with | 0 => 12 | 1 => 38 | _ => 25)
  h ++ List.replicate (n - h.length - 1) 0xFF#8 ++ [0x80#8]

/-- nal_unit_type of a NAL unit before the first slice, and of a picture's slices: IDR or CRA for a key picture and for the black one, GDR where R329 has it. -/
def HeadNal.nalType (codec : Nat) : HeadNal → Nat
  | .aud => match codec with | 0 => 9 | 1 => 35 | _ => 20
  | .vps => 32
  | .sps => match codec with | 0 => 7 | 1 => 33 | _ => 15
  | .pps => match codec with | 0 => 8 | 1 => 34 | _ => 16
  | _ => match codec with | 0 => 6 | 1 => 39 | _ => 23
def Chan.sliceType (c : Chan) (p : Pic) : Nat :=
  let key := if p.isRepeat then p.heads.any (·.1 == .sps) else p.typ == .key
  match c.codec with
  | 0 => if key then 5 else 1
  | 1 => if key then (if p.cra then 21 else 19) else 1
  | _ => if key then (if p.cra then 9 else 7) else if p.gdr && !p.isRepeat then 10 else 0

/-- Big-endian bytes of a number. -/
def bigEndian (n v : Nat) : List Byte := (toLE n v).reverse

/-- The codestream header of a JPEG XS picture (R273; PRESUMED from ISO/IEC 21122-1, log entry 24): SOC, CAP, the picture header with the codestream's bytes, profile,
level, size, slices of 16 lines, three components and 5 and 1 decomposition levels, the component table at 4:2:2, and the weights of 24 bands. -/
def Chan.xsHeader (c : Chan) (p : Pic) : List Byte :=
  let total := if p.copyOf.isSome then ((List.range c.rowCount).map p.rowCost).sum / 8 else p.arr.toNat / 8
  let be := bigEndian
  be 2 0xFF10 ++ be 4 0xFF500002 ++ be 4 0xFF12001A ++ be 4 total ++ be 2 c.profileCode ++ be 1 c.levelCode.1 ++ be 1 c.levelCode.2 ++ be 2 c.codedW ++ be 2 c.codedH ++
    be 2 0 ++ be 2 8 ++ [3#8, 4#8, 8#8] ++ be 1 (Config.headerField 4) ++ be 2 (Config.headerField 5) ++ [0x51#8] ++ be 1 (Config.headerField 6) ++
    be 4 0xFF130008 ++ be 4 0x0A110A21 ++ be 2 0x0A21 ++ be 4 0xFF140032 ++ drawBytes (Config.coderState 7 [p.code, c.rowCount]) 0 48

/-- The bytes of a NAL unit before a picture's first slice: parameter sets follow from what they say, the buffering-period message from the initial removal
delay (R321), a picture-timing message from its picture with a removal delay of one period, the others from their picture. -/
def Chan.headBytes (c : Chan) (p : Pic) (k : HeadNal) (n : Nat) : List Byte :=
  stamped (nalHeader c.codec (k.nalType c.codec)) (drawBytes (match k with
    | .vps | .sps | .pps => Config.coderState 6 [p.sig, k.code]
    | .bufferingPeriod => Config.coderState 6 [p.sig, k.code, p.bp.getD 0]
    | .pictureTiming => Config.coderState 6 [p.code, k.code, c.num, c.den]
    | .recoveryPoint => Config.coderState 6 [p.code, k.code, c.recoveryCount]
    | .aud => Config.coderState 6 [p.code, k.code]) 0 n)

/-- At its release a key picture gets its buffering-period message: the initial removal delay in 90 kHz units is the exact fullness over the fill rate, and the
message takes at most the 64 bytes that were counted (R321). -/
def Chan.withMessage (c : Chan) (p : Pic) : Pic :=
  if p.bp.isSome || !p.heads.any (·.1 == .bufferingPeriod) then p
  else
    let delay := (c.fullAt p).toNat * 90000 / ({ c with rc := p.rc } : Chan).fillRate
    { p with bp := some delay
             heads := p.heads.map fun h => if h.1 = .bufferingPeriod then (h.1, 1 + Config.coderSize (Config.coderState 6 [p.sig, 4, delay]) 0 % 64) else h }

end Sys2Proof.Machine
end

