-- ==== Sys2Proof/Machine/Decoder.lean ====
section
/-! DEFINITION. The contribution decoder: streams, stamps, concealment, decode pipes (chapter 11). -/

namespace Sys2Proof.Machine

/-! ## Streams (Table 11.4) -/

def Dec.pipe (s : Dec) : Nat := s.get 0x22 1
def Dec.codec (s : Dec) : Nat := s.get 0x23 1
def Dec.transport (s : Dec) : Nat := s.get 0x24 1
def Dec.paths (s : Dec) : Nat := s.get 0x25 1
def Dec.tsOffset (s : Dec) : Int := toSigned 64 (s.get 0x28 8)
def Dec.skewUs (s : Dec) : Nat := s.get 0x34 2
def Dec.bsSize (s : Dec) : Nat := s.get 0x3C 4

def Dec.pid (s : Dec) : Nat := s.get 0x30 2
def Dec.payloadType (s : Dec) : Nat := s.get 0x32 1
def Dec.fec (s : Dec) : Nat := s.get 0x33 1
def Dec.bsAddr (s : Dec) : Nat := s.get 0x68 8
def Dec.refAddr (s : Dec) : Nat := s.get 0x60 8
def Dec.refSlots (s : Dec) : Nat := s.get 0x70 1

/-- The address that a path of a stream listens to. -/
def Dec.pathAddr (s : Dec) (pathB : Bool) : NetAddr :=
  if pathB then ⟨s.get 0x37 1, s.get 0x50 16, s.get 0x3A 2⟩ else ⟨s.get 0x36 1, s.get 0x40 16, s.get 0x38 2⟩

/-- The stream receives. -/
def Dec.active (s : Dec) : Bool := s.st == .seeking || s.st == .decoding

/-- The decode pipe decodes: it is in service and its island is not in reset I (R351, R352). -/
def Dev.decServes (d : Dev) (p : Nat) : Bool := !(d.decPipeAt p).out && d.ctl.islBusy != some (16 + p)

/-- The stream is judged by the senior's declarations (R362). -/
def Dev.decFollows (d : Dev) (k : Nat) : Bool := d.follows (d.stream k).input
def Dev.decTwinned (d : Dev) (k : Nat) : Bool := d.twinnedInput (d.stream k).input

/-! ## Reception (R336, R341, R346, R362) -/

/-- FEC is in use (Table 11.2). -/
def Dec.repairs (s : Dec) : Bool := s.transport == 1 && s.fec != 0

/-- The packet is one of the stream's (R336): it came by a path in use, with the payload type that the stream has. A FEC packet counts where its kind is in use; PRESUMED
from ST 2022-1 (log entry 54): columns come two UDP ports above the media, rows four. -/
def Dec.hears (s : Dec) (pathB : Bool) (p : DecPkt) : Bool :=
  (!pathB || s.paths == 2) &&
    match p.fec with
    | some h =>
      let a := s.pathAddr pathB
      s.repairs && (!h.row || s.fec == 2) && p.addr == { a with udp := a.udp + (if h.row then 4 else 2) }
    | none => p.addr == s.pathAddr pathB && (s.payloadType == 0 || s.transport == 2 || p.pt == s.payloadType)

/-- The TS packets of a datagram. -/
def tsPackets : Nat → List Byte → List (List Byte)
  | 0, _ => []
  | n + 1, bs => if bs.isEmpty then [] else bs.take 188 :: tsPackets n (bs.drop 188)

/-- PID of a TS packet, and whether a unit starts in its payload. -/
def tsPid (t : List Byte) : Nat := byteAt t 1 % 32 * 256 + byteAt t 2
def tsStart (t : List Byte) : Bool := bitN (byteAt t 1) 6

/-- What a payload brings into the bitstream buffer, and the pictures that begin in it: of a transport stream the packets of the video PID alone (R336). -/
def Dec.carried (s : Dec) (bs : List Byte) (pics : Nat) : List Byte × Nat :=
  if s.transport = 0 then (bs, pics)
  else
    let ts := (tsPackets bs.length bs).filter fun t => tsPid t == s.pid
    (ts.flatten, (ts.filter tsStart).length)

/-- A packet that FEC can restore now: the only one missing of those that a FEC packet covers, and its bytes (R336). -/
def Dec.restorable (s : Dec) : Option (Nat × List Byte) :=
  s.fecs.findSome? fun f =>
    match f.1.covers.filter fun q => (s.media.get [] q).isEmpty with
    | [q] => some (q, (f.1.covers.filter (· != q)).foldl (fun b r => xorBytes b (s.media.get [] r)) f.2)
    | _ => none

/-- Bytes enter the bitstream buffer, which is a ring (R341, log entry 54). -/
def Dev.putBitstream (d : Dev) (s : Dec) (bs : List Byte) : Dev :=
  let room := s.bsSize - s.bsPtr
  let d1 := if bs.isEmpty then d else d.memWrite (s.bsAddr + s.bsPtr) (bs.take room)
  if room < bs.length then d1.memWrite s.bsAddr (bs.drop room) else d1

/-- A payload enters the bitstream buffer; one that finds it full discards all that it holds (R341). -/
def Dev.bufferBytes (d : Dev) (k : Nat) (raw : List Byte) (pics : Nat) : Dev :=
  let s := d.stream k
  let (bs, ps) := s.carried raw pics
  let n := bs.length
  let s1 := { s with bsPtr := (s.bsPtr + n) % max 1 s.bsSize }
  let full := decide (s.bsSize < s.fill + n)
  let s2 := if full then { s1.seek with fill := n, bufPics := ps, discard := (s.discard + s.bufPics) % 2 ^ 32 }
            else { s1 with fill := s.fill + n, bufPics := s.bufPics + ps }
  let d1 := (d.putBitstream s bs).putStream k s2
  if full then d1.raise 33 else d1

/-- FEC restores what it can, one packet after the other; a packet restored is counted, and its own copy is a later copy (R336, R346). -/
def Dev.repair (k : Nat) : Nat → Dev → Dev
  | 0, d => d
  | n + 1, d =>
    match (d.stream k).restorable with
    | some (q, bs) =>
      Dev.repair k n ((d.modStream k fun s => { s with
        media := s.media.put [] q bs, recovered := satAdd 16 s.recovered 1
        seenAt := if s.seenAt.get 0 q = 0 then s.seenAt.put 0 q (d.ctl.ticks + 1) else s.seenAt }).bufferBytes k bs 0)
    | none => d

/-- A packet that counts as received: its payload enters the bitstream buffer, or it joins the FEC packets; then FEC restores what it can. Losses of continuity are counted
and raised (R346). -/
def Dev.bufferPkt (d : Dev) (k : Nat) (p : DecPkt) : Dev :=
  let d1 := d.modStream k fun s => { s with lost := satAdd 16 s.lost p.contLost }
  let d2 :=
    match p.fec with
    | some h => d1.modStream k fun s => { s with fecs := s.fecs ++ [(h, p.bytes)] }
    | none => (if (d.stream k).repairs then d1.modStream k fun s => { s with media := s.media.put [] p.seq p.bytes } else d1).bufferBytes k p.bytes p.pics
  let d3 := if 0 < p.contLost then d2.raise 33 else d2
  if (d.stream k).repairs then Dev.repair k (d3.stream k).fecs.length d3 else d3

/-- What a copy of a packet says of its path, which the bound input shows in CAP_PATH (R191, log entry 54): the path is up, and a copy that came more than
SKEW_US after the first one counts as late. -/
def Dev.decPath (d : Dev) (k : Nat) (pathB : Bool) (seq : Nat) : Dev :=
  let s := d.stream k
  let late := match s.seenAt.get 0 seq with | 0 => false | t + 1 => decide (t + s.skewUs * 3000 < d.ctl.ticks)
  d.modCapIn s.input fun c =>
    let c1 := if pathB then { c with upB := true, lastB := d.ctl.ticks } else { c with upA := true, lastA := d.ctl.ticks }
    if late then { c1 with late := satAdd 16 c1.late 1 } else c1

/-- A packet has come (R336, R191, R362): its first copy counts, on the junior half once the senior has declared it received, and not once it has been declared lost.
The partner learns that this half holds it. -/
def Dev.decArrive (d : Dev) (k : Nat) (p : DecPkt) : Dev :=
  let s := d.stream k
  if s.seenAt.get 0 p.key != 0 then d
  else
    let s1 := { s with seenAt := s.seenAt.put 0 p.key (d.ctl.ticks + 1) }
    let d1 := (d.putStream k s1).sendMap s.input p.key [2#8]
    if s.declared.contains (p.key, false) then d1
    else if d.decFollows k && !s.declared.contains (p.key, true) then d1.putStream k { s1 with waiting := s1.waiting ++ [p] }
    else (if d.paired && d.ctl.senior && d.decTwinned k then d1.emit (.twin 10 k p.key [1]) else d1).bufferPkt k p

/-- A packet arrives by one of the paths. -/
def Dev.decPacket (d : Dev) (k : Nat) (pathB : Bool) (p : DecPkt) : Dev :=
  let s := d.stream k
  if !s.active || !s.hears pathB p then d else (d.decPath k pathB p.key).decArrive k p

/-- Packets that wait for a declaration count at once when the pair is no longer PAIRED (R364). -/
def Dev.flushWaiting (d : Dev) (k : Nat) : Dev :=
  let ps := (d.stream k).waiting
  ps.foldl (fun e p => e.bufferPkt k p) (if ps.isEmpty then d else d.modStream k fun s => { s with waiting := [] })

/-- The earliest arrival of a packet numbered above `seq`, at either half, as ticks plus 1 (R362). -/
def Dec.laterArrival (s : Dec) (seq : Nat) : Option Nat :=
  (((s.seenAt ++ s.theirAt).filter fun e => seq < e.1 && e.1 / 2 ^ 40 == seq / 2 ^ 40).map (·.2)).min?

/-- The senior declares a packet lost (R362): neither half holds it SKEW_US after a later one arrived. -/
def Dev.declareLost (d : Dev) (k seq : Nat) : Dev :=
  let s := d.stream k
  if !s.active || !d.paired || !d.ctl.senior || !d.decTwinned k || s.seenAt.get 0 seq != 0 || s.theirs.contains seq || s.declared.contains (seq, false) then d
  else match s.laterArrival seq with
    | some t =>
      if t + s.skewUs * 3000 ≤ d.ctl.ticks + 1 then (d.putStream k { s with declared := s.declared ++ [(seq, false)] }).emit (.twin 10 k seq [0]) else d
    | none => d

/-- The junior follows a declaration (R362); a packet that it lacks it fetches. -/
def Dev.declaration (d : Dev) (k seq : Nat) (received : Bool) : Dev :=
  let s := d.stream k
  if !s.active || !d.decFollows k || s.declared.contains (seq, true) || s.declared.contains (seq, false) then d
  else
    let d1 := d.putStream k { s with declared := s.declared ++ [(seq, received)], waiting := s.waiting.filter (·.key != seq) }
    match s.waiting.find? (·.key == seq) with
    | some p => if received then d1.bufferPkt k p else d1
    | none => if received && s.seenAt.get 0 seq = 0 then d1.emit (.twin 5 s.input seq [2]) else d1

/-! ## Pictures (R337 to R345) -/

/-- A picture's time in ninths of a nanosecond, with TS_OFFSET_NS: a 32-bit RTP timestamp, or a 33-bit PTS. -/
def Dev.decTime (d : Dev) (s : Dec) (ts : Nat) : Nat :=
  (((extendTs (if s.transport = 0 then 32 else 33) 90000 d.media ts * 100000 : Nat) : Int) + s.tsOffset * 9).toNat

/-- The stamp of R337. -/
def Dev.decStamp (d : Dev) (s : Dec) (ts : Nat) : Nat :=
  let c := d.capIn s.input
  gridNearestQ c.inNum c.inDen (d.decTime s ts) 9

/-- The decoded picture latest in output order that precedes a time (R343). -/
def Dec.substitute (s : Dec) (t : Nat) : List LineSeg :=
  ((s.decoded.filter fun e => e.1 < t).foldl (fun (b : Option (Nat × List LineSeg)) e =>
    match b with
    | some x => if x.1 < e.1 then some e else b
    | none => some e) none).elim [] (·.2)

/-- The picture that concealed blocks are taken from: the substitute, or in JPEG XS the last of the rasters decoded before (R342). -/
def Dec.concealFrom (s : Dec) (t : Nat) (before : List (Nat × List LineSeg)) : List LineSeg :=
  if s.codec = 3 then (before.getLast?).elim [] (·.2) else s.substitute t

/-- One sample of a picture given line by line; a later run overlays an earlier one. `half` says that chroma has half the luma's x. -/
def segSample (segs : List LineSeg) (pick : LineSeg → List Nat) (half : Bool) (grey line x : Nat) : Nat :=
  segs.foldl (fun v g =>
    let x0 := if half then g.x / 2 else g.x
    if g.line = line && x0 ≤ x then (pick g).getD (x - x0) v else v) grey

/-- The rows that replace a concealed region; grey is the middle of the range when no picture precedes (R342, R343). -/
def concealSegs (src : List LineSeg) (grey : Nat) (c420 : Bool) (r : Region) : List LineSeg :=
  (List.range r.h).map fun dy =>
    let y := r.y + dy
    let chroma (pick : LineSeg → List Nat) : List Nat :=
      if c420 && y % 2 = 1 then [] else (List.range (r.w / 2)).map fun i => segSample src pick true grey y (r.x / 2 + i)
    { line := y, x := r.x, y := (List.range r.w).map fun i => segSample src (·.y) false grey y (r.x + i), cb := chroma (·.cb), cr := chroma (·.cr) }

/-- The samples that a picture, or more of its rows, gives: what was decoded, and its concealed regions. -/
def Dec.samples (s : Dec) (p : DecPic) (t : Nat) (before : List (Nat × List LineSeg)) (bad : List Region) : List LineSeg :=
  p.lines ++ bad.flatMap (concealSegs (s.concealFrom t before) (2 ^ (p.depth - 1)) p.half)

/-- The profiles of Table 11.1 as most bits and whether 4:2:2 is carried. -/
def decProfiles : Nat → List (Nat × Bool)
  | 0 => [(8, false), (8, false), (10, false), (10, true)]
  | 1 => [(8, false), (10, false), (10, true)]
  | 2 => [(10, false), (10, true)]
  | _ => [(10, true)]

/-- The picture conforms to a profile of Table 11.1 within its highest level, and uses no tool that is not supported (R335). Main 4:2:2 10 of JPEG XS has no
4:2:0 (log entry 24). -/
def Dec.decodable (s : Dec) (p : DecPic) : Bool :=
  !p.unsupported && p.level ≤ (if s.codec = 3 then 6 else 62) &&
    match (decProfiles s.codec)[p.profile]? with
    | some (bits, c422) => p.depth ≤ bits && (c422 || p.half) && !(s.codec = 3 && p.half)
    | none => false

/-- A mid-grey picture (R343). -/
def greyPicture (p : DecPic) : List LineSeg :=
  let grey := 2 ^ (p.depth - 1)
  (List.range p.height).map fun y =>
    let c : List Nat := if p.half && y % 2 = 1 then [] else List.replicate (p.width / 2) grey
    { line := y, x := 0, y := List.replicate p.width grey, cb := c, cr := c }

/-- What an entry of a picture's active reference lists holds: the picture of the decoded picture buffer, or in its place the substitute (R343). -/
def Dec.refEntry (s : Dec) (p : DecPic) (t r : Nat) : List LineSeg :=
  match s.dpb.find? fun q => q.id == r with
  | some q => q.segs
  | none => if (s.substitute t).isEmpty then greyPicture p else s.substitute t

/-- The entries of a picture's active reference lists that were never received, and whether one that is held is marked concealed (R343, R344). -/
def Dec.missRefs (s : Dec) (p : DecPic) : List Nat := p.refs.filter fun r => !s.dpb.any fun q => q.id == r
def Dec.markedRef (s : Dec) (p : DecPic) : Bool := s.dpb.any fun q => q.own && p.refs.contains q.id

/-- What R344 makes of a picture: its own mark, and the stream's after it. `start` says that decoding starts with it; `hit` that it used a substitute or has a
concealed region. A recovery period counts that begins while the mark is set, and is not set again in it, or with the start of decoding (R340). -/
def Dec.marks (s : Dec) (start hit : Bool) (p : DecPic) : Bool × Dec :=
  if s.codec = 3 then (hit, { s with mark := hit })
  else
    let on := (s.periods.map fun r => { r with clean := r.clean && p.complete && !p.gap }) ++
      if p.recStart then [{ id := p.id, start := start, after := s.mark, clean := p.complete : RecPeriod }] else []
    let on1 := on.map fun r => { r with after := r.after && !hit }
    let clears := (p.irap && p.complete) || on1.any fun r => p.recEnd == some r.id && (r.start || r.after) && r.clean
    let rasl := p.rasl && s.raslMark && s.codec != 0
    let own := hit || (!clears && (s.markedRef p || rasl))
    (own, { s with mark := (own && !rasl) || (s.mark && !clears), periods := if p.irap then [] else on1.filter fun r => p.recEnd != some r.id
                   raslMark := if p.irap then s.mark && p.complete else s.raslMark })

/-- The store takes samples of a picture (R335, R338, R345); `counts` says that it becomes a concealed picture written. -/
def Dev.decStore (d : Dev) (k : Nat) (q : DpbPic) (segs : List LineSeg) (counts : Bool) : Dev :=
  let i := (d.stream k).input
  let c := d.capIn i
  if !q.write || !c.rx || c.kind != 2 then d
  else
    let (slot, c1) := c.slotFor q.stamp q.key
    let d1 := d.putCapIn i c1
    match slot with
    | none => d1
    | some n =>
      let d2 := d1.putCapIn i { c1 with slots := c1.slots.put {} n { c1.slotAt n with bad := (c1.slotAt n).bad || !q.fmtOk, marked := q.marked } }
      let d3 := if q.fmtOk then segs.foldl (fun e g => e.placeSeg i n g) d2 else d2
      if counts && q.fmtOk then d3.modStream k fun s => { s with concealed := (s.concealed + 1) % 2 ^ 32 } else d3

/-- A picture that opens decoding (R340): an IRAP picture, a recovery point or a GDR picture, or a complete JPEG XS codestream. -/
def Dec.opens (s : Dec) (p : DecPic) : Bool := if s.codec = 3 then p.irap && p.complete else p.irap || p.recStart

/-- Bytes of a reference slot (R349). -/
def refSlot (c : Cap) : Nat :=
  let w := roundUp c.width 128
  let h := roundUp c.height 128
  roundUp (w * h * (if c.half then 3 else 4) + w * h / 16) 4096

/-- A picture fills a slot of the reference area (R349); which slot, and its bytes, are free values (log entry 23). -/
def Dev.putDecRef (d : Dev) (k : Nat) (q : DpbPic) : Dev :=
  let s := d.stream k
  let n := refSlot (d.capIn s.input)
  let code := Config.coderState 9 (q.key :: (q.segs ++ q.refs.flatten).flatMap fun g => [g.line, g.x] ++ g.y ++ g.cb ++ g.cr)
  if s.refSlots = 0 || n = 0 then d else d.memWrite (s.refAddr + Config.coderSize code 0 % s.refSlots * n) (drawBytes code 0 n)

/-- The picture of the decoded picture buffer that comes first in output order among those that wait. -/
def Dec.firstWaiting (s : Dec) : Option DpbPic :=
  (s.dpb.filter (·.waits)).foldl (fun b q => match b with | some x => if q.t < x.t then some q else b | none => some q) none

/-- The standard's output process releases a held picture: it is copied from its reference slot to the store (R338). -/
def Dev.decRelease (d : Dev) (k : Nat) : Dev :=
  match (d.stream k).firstWaiting with
  | none => d
  | some q =>
    (d.modStream k fun s => { s with dpb := s.dpb.map fun e => if e.key = q.key then { e with waits := false } else e }).decStore k q q.segs q.own

/-- The rest of a picture's effect: what it displaces from the buffers, its samples, its output, and the pictures that are released after it. -/
def Dev.decOutput (d : Dev) (k : Nat) (q : DpbPic) (segs : List LineSeg) (counts : Bool) (releases : Nat) : Dev :=
  (List.range releases).foldl (fun e _ => e.decRelease k) (if q.waits then d else d.decStore k q segs counts)

/-- More rows of the picture that was decoded last (R338, R342). -/
def Dev.decRows (d : Dev) (k : Nat) (p : DecPic) : Dev :=
  let s := d.stream k
  match s.dpb.getLast? with
  | none => d
  | some q =>
    if s.st != .decoding || q.id != p.id then d
    else
      let hit := p.badRegions != []
      let before := s.decoded.dropLast
      let segs := s.samples p q.t before p.badRegions
      let own := q.own || hit
      let mark := s.mark || (hit && !(p.rasl && s.raslMark))
      let q1 := { q with own := own, marked := q.marked || own, segs := q.segs ++ segs }
      let d1 := d.putStream k { s with
        fill := s.fill - p.nbytes, syntaxErr := satAdd 16 s.syntaxErr p.badRegions.length, mark := mark
        periods := s.periods.map fun r => { r with clean := r.clean && !hit, after := r.after && !hit }
        decoded := before ++ [(q.t, q1.segs)], dpb := s.dpb.dropLast ++ [q1] }
      ((if hit then d1.raise 33 else d1).putDecRef k q1).decOutput k q1 segs (own && !q.own) p.releases

/-- The regions of a picture that are concealed: those that its data lack, and all of it when its decoded picture buffer needs too many slots (R342, R349). -/
def Dec.badOf (s : Dec) (p : DecPic) : List Region :=
  p.badRegions ++ if s.codec != 3 && s.refSlots - 1 < p.dpb then [⟨0, 0, p.width, p.height⟩] else []

/-- The picture's raster is the one that the input is configured for (R335). -/
def Cap.decFits (c : Cap) (p : DecPic) : Bool := p.width == c.width && p.height == c.height && p.half == c.half && p.depth == c.depth

/-- A picture is decoded: what it references is judged, and it joins the decoded picture buffer (R335, R337 to R345, R349). -/
def Dev.decDecode (d : Dev) (k : Nat) (s : Dec) (start : Bool) (p : DecPic) : Dev :=
  let t := d.decTime s p.ts
  let stamp := d.decStamp s p.ts
  let dup := s.stamps.contains stamp
  let bad := s.badOf p
  let missing := (s.missRefs p).length
  let hit := bad != [] || missing != 0
  let (own, s1) := s.marks start hit p
  let pics := (s.pics + 1) % 2 ^ 32
  let q : DpbPic := { id := p.id, t := t, stamp := stamp, key := pics, fmtOk := (d.capIn s.input).decFits p, own := own, marked := own || s1.mark, write := !dup,
                      waits := !p.immediate, segs := s.samples p t s.decoded bad, refs := p.refs.map (s.refEntry p t) }
  let d1 := d.putStream k { s1 with
    st := .decoding, pics := pics, syntaxErr := satAdd 16 s.syntaxErr (bad.length + b2n dup), missing := satAdd 16 s.missing missing
    stamps := s.stamps ++ [stamp], decoded := s.decoded ++ [(t, q.segs)]
    dpb := (s.dpb.filter fun e => p.keep.contains e.id || e.waits) ++ [q] }
  ((if hit then d1.raise 33 else d1).putDecRef k q).decOutput k q q.segs own p.releases

/-- A picture leaves the bitstream buffer: it is decoded, or discarded while the stream seeks (R340), or left undecoded where R335 does not have it decoded. -/
def Dev.decPicture (d : Dev) (k : Nat) (p : DecPic) : Dev :=
  let s0 := d.stream k
  let s := { s0 with fill := s0.fill - p.nbytes, bufPics := s0.bufPics - 1 }
  let start := s0.st == .seeking
  if !s0.active || !d.decServes s0.pipe then d
  else if p.cont then d.decRows k p
  else if start && !s0.opens p then d.putStream k { s with discard := (s.discard + 1) % 2 ^ 32 }
  else if !s0.decodable p then d.putStream k s
  else d.decDecode k s start p

/-! ## The DEC unit (R347 to R350) -/

/-- The length of the reference area that CONFIGURE names. -/
def Dev.decRefLen (d : Dev) (x : Desc) : Nat := x.get 0x70 1 * refSlot (d.capIn (x.get 0x26 2))

/-- The reference area that CONFIGURE names; every codec but JPEG XS has one. -/
def Dev.decRefArea (d : Dev) (x : Desc) : List MemRef :=
  if x.get 0x23 1 = 3 then optArea (x.get 0x60 8) (d.decRefLen x) true true else [⟨x.get 0x60 8, d.decRefLen x, true, true⟩]

/-- CONFIGURE: the reference area and the bitstream buffer are read and written. -/
def decConfigureSpec (d : Dev) (x : Desc) : OpSpec :=
  { len := 0x80, eff0 := true, rsv := [(0x71, 15)], idx := [(x.get 0x20 2, 16), (x.get 0x26 2, 192)], pf := true,
    mem := d.decRefArea x ++ [⟨x.get 0x68 8, x.get 0x3C 4, true, true⟩] }

/-- START and STOP (R348). -/
def decStreamSpec (d : Dev) (x : Desc) : OpSpec :=
  { rsv := [(0x22, 30)], idx := [(x.get 0x20 2, 16)], pf := true, obj := x.get 0x20 2, twin := d.decTwinned (x.get 0x20 2) }

/-- Two ranges overlap. -/
def overlaps (a n b m : Nat) : Bool := decide (a < b + m) && decide (b < a + n) && n != 0 && m != 0

/-- A field is outside Table 11.4, or the two areas overlap. -/
def Dev.decBadField (d : Dev) (x : Desc) : Bool :=
  let one := x.get 0x25 1 == 1
  let tr := x.get 0x24 1
  let pid := x.get 0x30 2
  let pt := x.get 0x32 1
  let off := toSigned 64 (x.get 0x28 8)
  let bs := x.get 0x3C 4
  let xs := x.get 0x23 1 == 3
  let slots := x.get 0x70 1
  x.get 0x22 1 > 3 || x.get 0x23 1 > 3 || tr > 2 || !(one || x.get 0x25 1 == 2) || off < -1000000000 || 1000000000 < off ||
    (if tr = 0 then pid != 0 else pid < 0x20 || 0x1FFE < pid) || !(pt == 0 || (96 ≤ pt && pt ≤ 127)) || x.get 0x33 1 > 2 || (x.get 0x33 1 != 0 && tr != 1) ||
    x.get 0x34 2 > 10000 || x.get 0x36 1 > 127 || x.get 0x37 1 > 127 ||
    (one && (x.get 0x37 1 != 0 || x.get 0x3A 2 != 0 || !zeroBytes x.bytes 0x50 16)) || bs % 65536 != 0 || bs < 2 ^ 20 || 2 ^ 28 < bs ||
    x.get 0x60 8 % 4096 != 0 || x.get 0x68 8 % 4096 != 0 || (if xs then x.get 0x60 8 != 0 || slots != 0 else slots < 2 || 18 < slots) ||
    overlaps (x.get 0x60 8) (slots * refSlot (d.capIn (x.get 0x26 2))) (x.get 0x68 8) bs

/-- REJECTED_FORMAT: the input has not KIND 2, another stream has it, or no profile of the codec carries its sampling and depth (Table 11.1). -/
def Dev.decBadFormat (d : Dev) (x : Desc) : Bool :=
  let k := x.get 0x20 2
  let i := x.get 0x26 2
  let c := d.capIn i
  c.st == .unconfigured || c.kind != 2 || d.dec.any (fun e => e.1 != k && e.2.st != .unconfigured && e.2.input == i) || 10 < c.depth ||
    (x.get 0x23 1 == 3 && c.half)

/-- REJECTED_GEOMETRY: luma samples, or macroblocks of AVC, of level 6.2 (log entry 24). -/
def Dev.decBadGeometry (d : Dev) (x : Desc) : Bool :=
  let c := d.capIn (x.get 0x26 2)
  if x.get 0x23 1 = 0 then decide (139264 < roundUp c.width 16 / 16 * (roundUp c.height 16 / 16)) else decide (35651584 < c.width * c.height)

/-- CONFIGURE (R350): pending operations of the stream are aborted. -/
def Dev.decConfigure (d : Dev) (x : Desc) : Dev :=
  let k := x.get 0x20 2
  let s := d.stream k
  d.checked x [(s.active, stBusy), (d.decBadField x, stBadDesc), (d.decBadFormat x, stFormat), (d.decBadGeometry x, stGeometry)]
    (((d.abortPend fun p => p.unit == 5 && p.obj == k).putStream k { s.halt with cfg := x.bytes }).complete x stOK 0)

/-- Milli-CU of a stream (R339). -/
def Cap.decCost (c : Cap) : Nat :=
  let q := costFrac c.width c.height c.inNum c.inDen (if c.half then 100 else 133) 100
  ceilDiv q.1 q.2

/-- Held for an output tick of the bound input (R347). -/
def Dev.decHold (d : Dev) (x : Desc) : Dev :=
  let k := x.get 0x20 2
  let c := d.capIn (d.stream k).input
  d.holdPend x k (passedBy c.lastPoint) (fun n => c.mt (c.nextTick + n)) (d.decTwinned k)

/-- START (R339, R350, R642): it books when it is accepted, once for the stream. -/
def Dev.decStart (d : Dev) (x : Desc) : Dev :=
  let k := x.get 0x20 2
  let s := d.stream k
  let cost := (d.capIn s.input).decCost
  d.checked x [(s.st != .stopped || d.dozing, stBusy), (3000000 < d.decBooked s.pipe - s.booked + cost, stCapacity)]
    (let d1 := d.decHold x
     if d1.pend.length = d.pend.length then d1 else d1.modStream k fun y => { y with starting := true, booked := cost })

/-- STOP (R350). -/
def Dev.decStop (d : Dev) (x : Desc) : Dev :=
  d.checked x [((d.stream (x.get 0x20 2)).st == .unconfigured, stBusy)] (d.decHold x)

/-! ## Decode-pipe memory errors (R351) -/

/-- A single-bit error is corrected and counted; another one raises DP_ECC, whose reaction takes the pipe out of service. -/
def Dev.dpEcc (d : Dev) (p : Nat) (corrected : Bool) : Dev :=
  if corrected then d.modDecPipeAt p fun q => { q with corrected := satAdd 16 q.corrected 1 }
  else
    let d1 := (d.modDecPipeAt p fun q => { q with uncorrected := true }).raise 34
    if d1.contains 34 then d1.modDecPipeAt p fun q => { q with out := true } else d1

/-- The streams of a pipe resume in SEEKING (R351, R352). -/
def Dev.decSeekAll (d : Dev) (p : Nat) : Dev :=
  { d with dec := d.dec.mapAll ({} : Dec) fun _ s => if s.active && s.pipe == p then s.seek else s }

def Dev.dpTest (d : Dev) (p : Nat) (pass : Bool) : Dev :=
  if !(d.decPipeAt p).out || d.flt.status.getLsbD 34 then d
  else if pass then (d.modDecPipeAt p fun q => { q with out := false }).decSeekAll p
  else (d.modDecPipeAt p fun q => { q with uncorrected := true }).raise 34

/-! ## Registers (Table 11.5) -/

def Dec.stateCode (s : Dec) : Nat :=
  match s.st with
  | .unconfigured => 0 | .stopped => 1 | .seeking => 2 | .decoding => if s.mark then 4 else 3

/-- A read of the DP block. -/
def Dev.readDp (d : Dev) (off : Nat) : Nat :=
  let s := d.stream d.decSel
  match off with
  | 0x00 => d.decSel
  | 0x04 => s.stateCode + fld 4 2 s.pipe
  | 0x08 => s.pics
  | 0x0C => s.concealed
  | 0x10 => s.discard
  | 0x14 => s.syntaxErr + fld 16 16 s.missing
  | 0x18 => s.lost + fld 16 16 s.recovered
  | _ =>
    if 0x100 ≤ off && off < 0x110 then
      let q := d.decPipeAt ((off - 0x100) / 4)
      q.corrected + fld 16 1 (b2n q.uncorrected) + fld 17 1 (b2n q.out)
    else 0

/-- A write of the DP block (R353). -/
def Dev.writeDp (d : Dev) (who : Requester) (off : Nat) (v : Word) : Dev :=
  if isPf who && off == 0 then { d with decSel := bits v.toNat 0 4 } else d

/-! ## Meanings -/

/-- DEC_CONFIGURE (R350). -/
def execDecConfigure (s : State) : Host.Outcome State Fault Refusal := ok s (s.dev.runUnit 5 1 decConfigureSpec Dev.decConfigure)

/-- DEC_START (R350). -/
def execDecStart (s : State) : Host.Outcome State Fault Refusal := ok s (s.dev.runUnit 5 2 decStreamSpec Dev.decStart)

/-- DEC_STOP (R347). -/
def execDecStop (s : State) : Host.Outcome State Fault Refusal := ok s (s.dev.runUnit 5 3 decStreamSpec Dev.decStop)

/-- DEC_PACKET_RX (R336, R341). -/
def execDecPacketRx (st : Fin 16) (pathB : Bool) (pkt : DecPkt) (s : State) : Host.Outcome State Fault Refusal := 
  ok s (s.dev.unlessDropped (· == pkt.addr) fun d => d.decPacket st pathB pkt)

/-- DEC_PICTURE_DECODED (R338). -/
def execDecPictureDecoded (st : Fin 16) (pic : DecPic) (s : State) : Host.Outcome State Fault Refusal := ok s (s.dev.decPicture st pic)

/-- DP_ECC (R351). -/
def execDpEcc (e : PipeEcc 4) (s : State) : Host.Outcome State Fault Refusal := ok s (s.dev.dpEcc e.pipe e.corrected)

/-- DP_MEMORY_TEST_DONE (R351). -/
def execDpMemoryTestDone (p : Fin 4) (pass : Bool) (s : State) : Host.Outcome State Fault Refusal := ok s (s.dev.dpTest p pass)

/-- PACKET_DECLARED_LOST (R362). -/
def execPacketDeclaredLost (st : Fin 16) (seq : Nat) (s : State) : Host.Outcome State Fault Refusal := ok s (s.dev.declareLost st seq)

end Sys2Proof.Machine
end

