-- ==== Sys2Proof/Machine/EncPics.lean ====
section
/-! DEFINITION. Pictures of a channel: planning by mini-GOP (R274, R275, R294), the elementary-stream ring (R396), release and resolution (R289 to R293, R325),
repeats and skip completions. -/

namespace Sys2Proof.Machine

/-! ## The next pictures (R274, R275, R294) -/

/-- The eligible pictures of KEYPIC and RATE: pending operations of a channel due at media time m. Operation 9 is the KEYPIC of a copy point (R382). -/
def Dev.encDue (d : Dev) (op n m : Nat) : List Pend := d.pend.filter fun p => p.unit == 4 && p.op == op && p.obj == n && p.due m

/-- A RATE that changes rates and buffer (R332). -/
def rekeys (p : Pend) : Bool := bitN (p.d.get 0x22 2) 0

/-- The picture of output index x is to be a key picture (R275, R289, R294, R295, R332, R371); `first` says that no picture not yet planned precedes it. -/
def Dev.keyAt (d : Dev) (n x : Nat) (first : Bool) : Bool :=
  let c := d.channel n
  let m := c.mt (c.k0 + x)
  c.isXs || (first && (c.keyDuty || !c.keyCarry.isEmpty)) || (c.keyInterval != 0 && c.lastKey + c.keyInterval ≤ x) ||
    d.pend.any (restoreDue n m) || !(d.encDue 4 n m).isEmpty || !(d.encDue 9 n m).isEmpty || (d.encDue 5 n m).any rekeys

/-- The B pictures between two anchors, in coding order: the middle one first, then each half (Table 9.3, log entry 25). -/
def bOrder : Nat → Nat → Nat → List Nat
  | 0, _, _ => []
  | fuel + 1, lo, hi =>
    if hi ≤ lo + 1 then []
    else
      let mid := (lo + hi) / 2
      mid :: (bOrder fuel lo mid ++ bOrder fuel mid hi)

/-- The next mini-GOP in coding order, as output indexes with their types: a key picture alone, or up to G pictures that end before the next key picture and at
the last picture (R274, R294, R297). -/
def Dev.nextGop (d : Dev) (n : Nat) : List (Nat × PicType) :=
  let c := d.channel n
  let a := c.outNext
  if d.keyAt n a true then [(a, .key)]
  else if c.depthG = 1 then [(a, if c.gop = 1 then .b else .p)]
  else
    let free := ((List.range c.depthG).takeWhile fun i => i = 0 || !d.keyAt n (a + i) false).length
    let len := match c.stopAt with | some s => min free (s - a) | none => free
    let last := a + len - 1
    (last, PicType.p) :: (bOrder 8 0 len).map fun i => (a + i - 1, PicType.b)

/-- RATEs that have reached the picture of output index `out` of a mini-GOP that starts at `first`, in the order in which they take effect: by their first
picture, and on one picture by acceptance (R162, R163, R330). -/
def Dev.ratesAt (d : Dev) (n first out : Nat) : List Pend :=
  let c := d.channel n
  let m (i : Nat) : Nat := c.mt (c.k0 + first + i)
  (List.range (out + 1 - first)).flatMap fun i => (d.encDue 5 n (m i)).filter fun p => i = 0 || !p.due (m (i - 1))

/-- The block after some RATEs (R332). -/
def ratedBlock (rc : List Byte) (ps : List Pend) : List Byte := ps.foldl (fun r p => applyRate r p.d) rc

/-- The type of a key picture (R275, R282, R294, R295): CRA when the last KEYPIC on it that names a type says so, else the channel's own (log entry 52). -/
def Chan.craFor (c : Chan) (kps : List Pend) : Bool :=
  match (kps.filter fun p => !p.internal && p.d.get 0x22 1 != 0).getLast? with
  | some p => p.d.get 0x22 1 == 2
  | none => c.keyType == 1

/-- One picture of a mini-GOP that starts at output index `first` is planned at the next coding index. -/
def Dev.planOne (d : Dev) (n first : Nat) (o : Nat × PicType) : Dev :=
  let c := d.channel n
  let m := c.mt (c.k0 + o.1)
  let key := o.2 == .key
  let rates := d.ratesAt n first o.1
  let kps := if key then c.keyCarry ++ d.encDue 4 n m else []
  let base := rates.any rekeys
  let c1 := { c with rc := ratedBlock c.rc rates }
  let cra := key && !c.isXs && c.craFor kps
  let sig := d.sigCode c1
  let code := c1.planCode o.2 cra o.1 sig
  let heads := c1.headSizes code (if key then 1024 else 256) (c1.headKinds key (c.latMode == 1 && !key && c.cycle == 0))
  let p := c1.planPic o.2 o.1 base heads
  let d1 := if key then { d with pend := d.pend.filter fun q => !(q.unit == 4 && (q.op == 4 || q.op == 9) && q.obj == n && q.due m) } else d
  let q := { p with
    code := code, sig := sig, cra := cra, gdr := c.gdrNext o.2, refs := c.refsOf o.2 o.1, keyPends := if c.isXs then [] else kps, fromSnap := (d.twinCh n).phase == 3
    limit := (c.mirrored.find? fun (e : Nat × Nat) => e.1 == m).map fun (e : Nat × Nat) => (e.2, true) }
  let d2 := d1.putChannel n { c with
    flight := c.flight ++ [q]
    mirrored := c.mirrored.filter (fun (e : Nat × Nat) => e.1 != m), j := c.j + 1, lastKey := if key then o.1 else c.lastKey
    keyDuty := c.keyDuty && !key, keyCarry := if key then [] else c.keyCarry, rcBase := if base then c.j else c.rcBase
    cycle := if key then 0 else if c.latMode = 1 then (c.cycle + 1) % c.refreshPics else c.cycle }
  if c.isXs then kps.foldl (fun e q => e.complete q.d q.status m) d2 else d2

/-- RATEs that reached a picture of the mini-GOP complete, and their values stay in force (R332). -/
def Dev.commitRates (d : Dev) (n first last : Nat) : Dev :=
  let c := d.channel n
  let due := d.encDue 5 n (c.mt (c.k0 + last))
  let d1 := { d with pend := d.pend.filter fun p => !(p.unit == 4 && p.op == 5 && p.obj == n && p.due (c.mt (c.k0 + last))) }
  let d2 := d1.putChannel n { c with rc := ratedBlock c.rc (d.ratesAt n first last) }
  due.foldl (fun e p =>
    let at_ := ((List.range (last + 1 - first)).find? fun i => p.due (c.mt (c.k0 + first + i))).getD 0
    e.complete p.d p.status (c.mt (c.k0 + first + at_))) d2

/-- The picture is the copy point of R382: a key picture, or under gradual refresh the one that completes a refresh. -/
def Chan.copyPoint (c : Chan) (typ : PicType) : Bool := if c.latMode = 1 then c.cycle + 1 == c.refreshPics && typ != .key else typ == .key

/-- The pictures of the next mini-GOP are planned (R294). A picture that misses its output tick before its coding started is planned as any other: what timing
decides is its resolution alone (R324). -/
def Dev.planNext (d : Dev) (n : Nat) : Dev :=
  let c := d.channel n
  let gop := d.nextGop n
  let last := c.outNext + gop.length - 1
  ((gop.foldl (fun e o => e.planOne n c.outNext o) d).commitRates n c.outNext last).modChannel n fun c => { c with outNext := last + 1 }

/-- The next mini-GOP is planned because its first row starts: an agreed restore takes effect (R371), the follower of a channel takes a snapshot over, and on the
source of a channel that wants a copy the snapshot goes first (R383). -/
def Dev.planGop (d : Dev) (n : Nat) : Dev :=
  let c0 := d.channel n
  let m := c0.mt (c0.k0 + c0.outNext)
  let r := d.restorePoint n m
  let d0 := if r.snapReady n m then r.adoptSnapshot n m else r
  let gop := d0.nextGop n
  let c := d0.channel n
  let t := d0.twinCh n
  let idr := gop.any (fun o => o.2 == .key) && !c.craFor (c.keyCarry ++ d0.encDue 4 n m)
  let refs := if idr then [] else d0.memRead c.refArea.1 c.refArea.2
  (if d0.linked n && t.copy && !t.follower && gop.any (fun o => c.copyPoint o.2) then d0.sendSnapshot n m refs else d0).planNext n

/-! ## The ring (R396, R397) -/

/-- Table 13.2, the 32 bytes before a record's payload. -/
def esHeader (total payload mt j slice flags : Nat) : List Byte :=
  toLE 4 total ++ toLE 4 payload ++ toLE 8 mt ++ toLE 4 j ++ toLE 2 slice ++ toLE 2 flags ++ zeros 8

/-- Records that the range [a, a + n) overwrites are lost to egress (R397). -/
def loseRecords (rs : List EsRec) (a n : Nat) : List EsRec :=
  rs.map fun r => if r.at_ < a + n && a < r.at_ + r.len then { r with lost := true } else r

/-- A slice's record is written into the ring and handed to the packager when the channel has a flow (R395, R396). -/
def Dev.putRecord (d : Dev) (n : Nat) (p : Pic) (slice flags : Nat) (nals : List (List Byte)) : Dev :=
  let c := d.channel n
  let payload := (nals.map fun b => b.length + 4).sum
  let total := roundUp (32 + payload) 64
  let wrap := decide (c.esSize < c.esPtr + total)
  let d0 := if wrap && c.esPtr < c.esSize then d.memWrite (c.esAddr + c.esPtr) (esHeader (c.esSize - c.esPtr) 0 p.mt p.j slice 128) else d
  let rs0 := if wrap then loseRecords c.records c.esPtr (c.esSize - c.esPtr) else c.records
  let at_ := if wrap then 0 else c.esPtr
  let body := nals.flatMap fun b => (toLE 4 b.length).reverse ++ b
  let d1 := d0.memWrite (c.esAddr + at_) (esHeader total payload p.mt p.j slice flags ++ body)
  let rs1 := loseRecords rs0 at_ total
  let r : EsRec := { at_ := at_, len := total, mt := p.mt, j := p.j, out := p.out, slice := slice, flags := flags, nals := nals.map List.length,
                     heads := if slice = 0 && !c.isXs then p.heads.length else 0
                     muted := c.muted && decide (c.muteFrom ≤ p.j) }
  let carried := d.carried c.flow == some n
  d1.putChannel n { c with esPtr := at_ + total, records := if carried then rs1 ++ [r] else rs1 }

/-! ## What a released picture holds -/

/-- What slice i depends on beside its rows: its picture, or when the skip path codes all of it R290's list alone. -/
def Chan.sliceCode (c : Chan) (p : Pic) (first : Nat) : Nat :=
  match p.skipFrom with
  | some k => if k ≤ first then c.skipCode p (c.rowCount + 1) else p.code
  | none => p.code

/-- The bytes of slice i: its rows' bits, which fill them (R305), behind its NAL unit header, or in JPEG XS the slice header, before which the codestream header stands
and after whose last one the end of the codestream. A repeat of a JPEG XS picture is its copy source's, byte for byte (R289). -/
def Chan.sliceBytes (c : Chan) (p : Pic) (i : Nat) : List Byte :=
  match c.slices[i]? with
  | none => []
  | some s =>
    let rows := (List.range s.2).map (s.1 + ·)
    let n := ceilDiv (rows.map p.rowCost).sum 8
    let bs := drawBytes (Config.coderState 7 (c.sliceCode p s.1 :: i :: rows.map (c.streamCode p))) 0 n
    if c.isXs then
      let b := stamped ((if i = 0 then c.xsHeader p else []) ++ bigEndian 4 0xFF200004 ++ bigEndian 2 i) bs
      if i + 1 = c.slices.length then b.take (n - 2) ++ bigEndian 2 0xFF11 else b
    else stamped (nalHeader c.codec (c.sliceType p)) bs

/-- The last picture of a channel that stops is followed by an end-of-sequence NAL unit when EOS_ON_STOP is set (R297). -/
def Chan.eos (c : Chan) (p : Pic) : Bool :=
  c.st == .stopping && bitN c.flags 3 && !c.isXs && c.stopAt == some c.outNext && (c.flight.all fun q => q.j ≤ p.j)

/-- The NAL units of slice i's record: before the first slice those that precede the picture, after the last its filler and an end of sequence (R297, R306, R402). -/
def Chan.sliceNals (c : Chan) (p : Pic) (i : Nat) : List (List Byte) :=
  let slice := c.sliceBytes p i
  let last := i + 1 == c.slices.length
  if c.isXs then [slice ++ (if last then zeros (p.filler / 8) else [])]
  else
    (if i = 0 then p.heads.map fun h => c.headBytes p h.1 h.2 else []) ++ [slice] ++
      (if last && p.filler != 0 then [fillerNal c.codec (p.filler / 8)] else []) ++ (if last && c.eos p then [eosNal c.codec] else [])

/-- Flags of slice i's record (Table 13.2). -/
def Chan.sliceFlags (c : Chan) (p : Pic) (i : Nat) : Nat :=
  b2n (i == 0) + fld 1 1 (b2n (i + 1 == c.slices.length)) + fld 2 1 (b2n (p.typ == .key && !p.isRepeat)) + fld 3 1 (b2n p.isRepeat) + fld 4 1 (b2n p.skipped)

/-- Every byte of every NAL unit of the picture in order, and their digest (R373). -/
def Chan.outputBytes (c : Chan) (p : Pic) : List Byte := (List.range c.slices.length).flatMap fun i => (c.sliceNals p i).flatten
def Chan.outputDigest (c : Chan) (p : Pic) : BitVec 64 := crc64 (c.outputBytes p)

/-- The reconstruction of a picture stands in a slot of the reference area, which the spec does not name (log entry 23). -/
def Dev.putReference (d : Dev) (n : Nat) (p : Pic) : Dev :=
  let c := d.channel n
  if c.refSlots = 0 then d
  else d.memWrite (c.refArea.1 + Config.coderSize p.code 1 % c.refSlots * c.refSlotSize) (drawBytes (Config.coderState 8 (p.codes.map (·.2))) 0 c.refSlotSize)

/-- Write the records of slices i to k - 1. -/
def Dev.putSlices (d : Dev) (n : Nat) (p : Pic) (i k : Nat) : Dev :=
  (List.range (k - i)).foldl (fun e s => e.putRecord n p (i + s) ((e.channel n).sliceFlags p (i + s)) ((e.channel n).sliceNals p (i + s))) d

/-! ## Release (R291, R294, R297, R325, R374) -/

/-- Slices of the channel that the first k rows hold whole. -/
def Chan.slicesBelow (c : Chan) (k : Nat) : Nat := (c.slices.takeWhile fun s => s.1 + s.2 ≤ k).length

/-- A stopping channel whose last picture is released is ADMITTED again; what still waits for a picture is aborted (R164, R297). -/
def Dev.checkStopped (d : Dev) (n : Nat) : Dev :=
  let c := d.channel n
  if c.st == .stopping && c.flight.isEmpty && (match c.stopAt with | some s => decide (s ≤ c.outNext) | none => false) then
    let d1 := d.abortPend fun p => p.unit == 4 && p.obj == n && (p.op == 4 || p.op == 5 || p.op == 8 || p.op == 9)
    let d2 := c.keyCarry.foldl (fun e p => e.complete p.d stAborted 0) d1
    { d2 with fab := { d2.fab with shed := d2.fab.shed.filter fun e => e.2 != n } }.putChannel n
      { d2.channel n with st := .admitted, shed := false, shedFrom := 0, keyCarry := [], keyDuty := false, stopAt := none, muted := false, muteFrom := 0 }
  else d

/-- The picture at the head is resolved, its last records are written, and it is counted (R289, R291, R305, R374); its tap sees it (R562). -/
def Dev.finishPic (d : Dev) (n : Nat) (p0 : Pic) (missed : Bool) : Dev :=
  let c := d.channel n
  let p := c.withMessage p0
  let (c1, q) := c.resolve p
  let i := c.slicesBelow p.released
  let eos := if c1.eos q then 8 * (eosNal c.codec).length else 0
  let d1 := ((d.putChannel n { c1 with bits := c1.bits + eos }).putSlices n q i c.slices.length).putReference n q
  let dig := if c.twin = 1 then c1.outputDigest q else 0
  let key := q.typ == .key && !q.isRepeat
  let d2 := d1.modChannel n fun c => { c with
    flight := c.flight.filter (·.j != p.j), pics := (c.pics + 1) % 2 ^ 64, repeats := c.repeats + b2n q.isRepeat, keys := c.keys + b2n key
    misses := c.misses + b2n missed, lateRows := if q.isRepeat || q.skipped then c.lateRows else c.lateRows + p.lateRows, lastMt := q.mt }
  let carried := d2.carried c.flow == some n
  let d3 := if carried then d2 else d2.modFlowAt c.flow fun f => { f with unbound := (f.unbound + 1) % 2 ^ 32 }
  let d4 := if q.isRepeat then d3 else q.keyPends.foldl (fun e k => e.complete k.d k.status q.mt) d3
  let flags := b2n q.isRepeat + fld 1 1 (b2n key) + fld 2 1 (b2n (q.refreshDone && !q.isRepeat)) + fld 3 1 (b2n q.skipped) + fld 4 1 (b2n q.fromSnap) +
    fld 5 1 (b2n (c.muted && decide (c.muteFrom ≤ q.j)))
  ((d4.tapUnit 0 n (some q.mt) (c1.outputBytes q) false).ownRelease n ⟨q.mt, dig.toNat, ceilDiv q.size 8, flags, q.j % 2 ^ 32⟩).checkStopped n

/-- Release what may be released, in coding order (R325): in sub-frame mode slice by slice, else whole pictures. -/
def Dev.releaseLoop (n : Nat) : Nat → Dev → Dev
  | 0, d => d
  | fuel + 1, d =>
    let c := d.channel n
    match c.flight with
    | [] => d
    | p :: rest =>
      let k := match p.limit with | some (l, _) => min l p.contig | none => p.contig
      if k = c.rowCount && p.limit.isNone then
        Dev.releaseLoop n fuel (d.finishPic n p false)
      else if c.latMode = 2 then
        let i := c.slicesBelow p.released
        let e := c.slicesBelow k
        if e ≤ i then d
        else
          let rows := match c.slices[e - 1]? with | some s => s.1 + s.2 | none => p.released
          let q := c.withMessage p
          (d.putSlices n q i e).modChannel n fun c => { c with flight := { q with released := rows } :: rest }
      else d

/-- Release after a change. -/
def Dev.release (d : Dev) (n : Nat) : Dev := Dev.releaseLoop n ((d.channel n).flight.length + 1) d

/-! ## The skip path (R289 to R291, R319) -/

/-- The picture that a repeat shows again: the latest before it in output order that has been coded (R289). -/
def Chan.copySource (c : Chan) (p : Pic) : Option Pic :=
  (c.hist.filter fun q => q.out < p.out).foldl (fun b q => match b with | none => some q | some s => if s.out < q.out then some q else some s) none

/-- A picture with every row from k on coded at floor, at these costs and reconstructions. -/
def Pic.withRows (p : Pic) (k : Nat) (cost : Nat → Nat) (code : Nat → Nat × Nat) : Pic :=
  { p with bands := p.bands.map fun b =>
      let rows := (List.range (b.last + 1 - b.first)).map (b.first + ·)
      { b with
        next := b.last + 1, costs := rows.map fun r => if r < k then p.rowCost r else cost r, codes := rows.map fun r => if r < k then p.rowCode r else code r
        qps := (b.qps.take (k - b.first)) ++ (rows.drop (k - b.first)).map fun _ => none } }

/-- The bits of the rows from k on when row r asks for `want r`, at most `cap` each, and every slice ends at a whole byte. -/
def Chan.rowSizes (c : Chan) (p : Pic) (k cap : Nat) (want : Nat → Nat) : List Nat :=
  (List.range c.rowCount).foldl (fun acc r => acc ++ [if r < k then p.rowCost r else c.alignRow (fun i => acc.getD i 0) r (min (want r) cap) cap]) []

/-- Rows from k on are skip rows from the copy source, at most m bits each, and their reconstruction is the source's (R289 to R291, R319); in JPEG XS they have
their slices' fixed sizes (R322). -/
def Chan.skipRows (c : Chan) (p : Pic) (k : Nat) : Pic :=
  let m := ({ c with rc := p.rc } : Chan).mInter
  let sizes := if c.isXs then (List.range c.rowCount).map fun r => if r < k then p.rowCost r else c.xsRow p r
    else c.rowSizes p k m fun r => Config.coderSize (c.skipCode p r) 0 % (m + 1)
  let src := c.copySource p
  { p.withRows k (fun r => sizes.getD r 0) (fun r => match src with | some s => s.rowCode r | none => (0, c.blackCode)) with skipFrom := some k }

/-- The channel's black key picture in place of a picture (R289, R320): never above Z_K. -/
def Chan.blackRows (c : Chan) (p : Pic) : Pic :=
  let m := ({ c with rc := p.rc } : Chan).mIntra
  let sizes := if c.isXs then (List.range c.rowCount).map (c.xsRow p) else c.rowSizes p 0 m fun r => Config.coderSize c.blackCode r % (m + 1)
  { p.withRows 0 (fun r => sizes.getD r 0) (fun r => (r, Config.coderState 3 [c.blackCode, r])) with
    code := c.blackCode, heads := c.headSizes c.blackCode 1024 ((c.headKinds true false).filter (· != .bufferingPeriod)) }

/-- What a repeat in place of a picture holds (R289): the black key picture when nothing has been coded, in JPEG XS the copy source's codestream, else skip rows in
the channel's slice structure behind a picture's own NAL units. -/
def Chan.repeatOf (c : Chan) (p : Pic) : Pic :=
  match c.copySource p with
  | none => c.blackRows p
  | some s =>
    if c.isXs then { p.withRows 0 (fun r => s.costs.getD r 0) s.rowCode with code := s.code, skipFrom := s.skipFrom, filler := s.filler, copyOf := some (s.copyOf.getD (s.j, s.out)) }
    else { c.skipRows p 0 with code := c.skipCode p c.rowCount, heads := c.headSizes (c.skipCode p c.rowCount) 256 (c.headKinds false false) }

/-- A repeat is released in place of a planned picture; a key picture's duty and KEYPICs pass to the next one (R289). -/
def Dev.releaseRepeat (d : Dev) (n : Nat) (p : Pic) (missed : Bool) : Dev :=
  let c := d.channel n
  let q := c.repeatOf p
  (d.putChannel n { c with keyDuty := c.keyDuty || (p.typ == .key && !c.isXs), keyCarry := c.keyCarry ++ p.keyPends }).finishPic n
    { q with isRepeat := true, released := 0, typ := if p.typ = .key then .p else p.typ, keyPends := [], bp := none } missed

/-- The rest of a picture is coded by the skip path from row k, and it is released whole (R291). -/
def Dev.releaseSkipped (d : Dev) (n : Nat) (p : Pic) (k : Nat) (missed : Bool) : Dev :=
  d.finishPic n { (d.channel n).skipRows p k with skipped := true } missed

end Sys2Proof.Machine
end

