-- ==== Sys2Proof/Machine/Encoder.lean ====
section
/-! DEFINITION. The encoder pipes and channels: the ENC unit, row arbitration, deadlines, containment, and the EP and CH registers (chapter 9). -/

namespace Sys2Proof.Machine

/-! ## LOAD (R279, R280, R284) -/

/-- The channel that a LOAD describes. -/
def Desc.loaded (x : Desc) : Chan := { ctx := x.bytes, rc := (x.bytes.drop 0x100).take 256 }

/-- ENC LOAD (Table 9.4). REF_ADDR 0 with no reference slots names no memory. -/
def encLoadSpec (_ : Dev) (x : Desc) : OpSpec :=
  let c := x.loaded
  let area (a : Nat × Nat) : MemRef := ⟨a.1, a.2, true, true⟩
  { len := 0x800, eff0 := true, rsv := [(0x6C, 148), (0x104, 4), (0x139, 199), (0x200, 1536)], idx := [(x.get 0x20 2, 512)], own := [(0, x.get 0x20 2)],
    mem := [area c.ctxArea] ++ (if c.refArea = (0, 0) then [] else [area c.refArea]) ++ [area c.esArea] }

/-- Two byte ranges overlap. -/
def overlap (a b : Nat × Nat) : Bool := a.1 < b.1 + b.2 && b.1 < a.1 + a.2

/-- Base-2 logarithm of a mini-GOP size. -/
def gopLog (g : Nat) : Nat := match g with | 2 => 1 | 4 => 2 | 8 => 3 | _ => 0

/-- An area breaks R280. -/
def Chan.badAreas (c : Chan) : Bool :=
  c.ctxArea.1 % 4096 != 0 || c.refArea.1 % 4096 != 0 || c.esAddr % 4096 != 0 || c.esSize % 65536 != 0 || c.esSize < 2 ^ 20 ||
    (if c.isXs then c.refArea.1 != 0 else c.get 0x4F 1 < c.refs + 2 + gopLog c.depthG || 16 < c.get 0x4F 1) ||
    overlap c.ctxArea c.esArea || (!c.isXs && (overlap c.ctxArea c.refArea || overlap c.refArea c.esArea))

/-- A field is outside its range in Table 9.4. -/
def Chan.badFields (c : Chan) : Bool :=
  let ctu := c.get 0x27 1
  let sr := c.sliceRows
  !(c.depth == 8 || c.depth == 10) || !(if c.isXs then ctu == 0 else ctu == 16 || ctu == 32 || ctu == 64 || ctu == 128) || c.width % 2 != 0 || c.width < 16 || c.width > 7680 ||
    c.height % 2 != 0 || c.height < 16 || c.height > 4320 || !ratePermitted c.num c.den || c.get 0x34 1 > 3 || c.get 0x35 1 > 15 || c.outIx > 7 ||
    c.get 0x37 1 > 2 || c.cls > 2 || c.get 0x3A 1 > 1 || c.latMode > 2 || sr > 8 || (c.latMode == 2 && sr == 0) ||
    (if c.latMode = 1 then c.refreshPics < 2 || c.refreshPics > 64 else c.refreshPics != 0) || c.gop > 3 ||
    (if c.gop = 2 then !(c.get 0x3F 1 == 2 || c.get 0x3F 1 == 4 || c.get 0x3F 1 == 8) else c.get 0x3F 1 != 1) ||
    (if c.isXs then c.refs != 0 else c.refs = 0 || c.refs > 4) || c.keyType > 1 || c.flags > 15 || c.outDelay > 1000000000 || c.flow > 4095 || c.twin > 1

/-- The values break Tables 9.1 to 9.3, R273, R275, or the limits of gradual refresh (R284 step 3). -/
def Chan.badFormat (c : Chan) : Bool :=
  let pr := c.profile
  let tier := c.get 0x25 1
  let base := match c.codec with
    | 0 => (pr == 1 || pr == 2) && tier == 0
    | 1 => ((pr == 0 && c.depth == 8) || pr == 1 || pr == 2) && tier ≤ 1
    | 2 => (pr == 1 || pr == 2) && tier ≤ 1
    | 3 => pr == 2 && c.depth == 10 && tier == 0 && c.get 0x24 1 == 0 && c.gop == 3 && c.get 0x4F 1 == 0
    | _ => false
  !base || !c.ctuFits || (!c.isXs && (c.limits.isNone || c.gop == 3 || (c.gop == 2 && c.latMode != 0))) || (c.latMode == 1 && c.keyInterval != 0) ||
    (c.keyType == 1 && c.codec != 1 && c.codec != 2) || (c.latMode == 1 && (c.is422 || 3840 * 2160 * 60 * c.den < c.width * c.height * c.num))

/-- The coded size or the luma sample rate passes the level's limits (R284 step 4); sides go up to the square root of eight pictures. -/
def Chan.badGeometry (c : Chan) : Bool :=
  let w := roundUp c.width 8
  let h := roundUp c.height 8
  (match c.limits with
    | some l => l.1 < w * h || 8 * l.1 < w * w || 8 * l.1 < h * h || l.2.1 * c.den < w * h * c.num
    | none => xsRate * c.den < w * h * c.num) || c.rcGeometry

/-- ENC LOAD (R284): the context is replaced, and what counts since START stays. The partner learns the new context (R390). -/
def Dev.encLoad (d : Dev) (x : Desc) : Dev :=
  let n := x.get 0x20 2
  let c := x.loaded
  d.checked x [((d.channel n).held, stBusy), (c.badFields || c.badAreas || c.rcBad true, stBadDesc), (c.badFormat, stFormat), (c.badGeometry, stGeometry)]
    (((d.abortPend fun p => p.unit == 4 && p.obj == n).modChannel n fun o => { o with ctx := c.ctx, rc := c.rc, st := .loaded, esPtr := 0, records := [] }).cutTaps 0 n |>.tellChannel n |>.complete x stOK 0)

/-! ## START and STOP (R285, R297, R385, R390) -/

/-- START, STOP and KEYPIC name their channel alone (R282). -/
def encChanSpec (rsv : List (Nat × Nat)) (d : Dev) (x : Desc) : OpSpec :=
  let n := x.get 0x20 2
  { rsv := rsv, idx := [(n, 512)], own := [(0, n)], obj := n, twin := d.twinnedChannel n }

/-- The scene's output that the channel reads is not there for it (R285 step 2). -/
def Dev.startFormat (d : Dev) (c : Chan) : Bool :=
  let s := d.sceneAt c.sceneIx
  let o := s.out c.outIx
  s.cfg.isEmpty || s.outCount ≤ c.outIx || !outOn o || !s.running || s.num * c.den != c.num * s.den || outHalf o == c.is422 ||
    ((c.isXs || c.latMode == 1) && 1 < c.pipes.length)

/-- OUT_DELAY_NS is below the scene's DELAY_NS + P + 8,000 ns + the row time (R285 step 4). -/
def Dev.startDelay (d : Dev) (c : Chan) : Bool :=
  let s := d.sceneAt c.sceneIx
  let p := c.den * 1000000000
  c.outDelay * c.num * c.height < (s.delay + 8000) * c.num * c.height + p * c.height + p * c.ctu

/-- The checks of R390 for a twinned channel. -/
def Dev.startTwin (d : Dev) (n : Nat) : Option Nat :=
  let t := d.twinCh n
  if (d.channel n).twin != 1 then none
  else if d.twin.st = .unpaired || d.twin.st = .rejected then some stBusy
  else if d.paired && 0 < t.partner && t.partnerDig.any (· != contextDigest (d.channel n).ctx) then some stFormat
  else none

/-- The black key picture is coded into the context area, behind the four save slots (R289, Table 9.5). -/
def Dev.putBlack (d : Dev) (n : Nat) : Dev :=
  let c := d.channel n
  d.memWrite (c.ctxArea.1 + 49152) (drawBytes c.blackCode 0 (ceilDiv (c.wc * c.hc) 128))

/-- ENC START (R285): the channel counts as started from here on. -/
def Dev.encStart (d : Dev) (x : Desc) : Dev :=
  let n := x.get 0x20 2
  let c := d.channel n
  let s := d.sceneAt c.sceneIx
  let o := s.out c.outIx
  let tw := d.startTwin n
  d.checked x [(c.st != .admitted || c.startPend || d.dozing || c.pipes.any (fun p => (d.pipeAt p).parked), stBusy), (d.startFormat c, stFormat),
      (c.width != outW o || c.height != outH o, stGeometry), (d.startDelay c, stBadDesc), (tw.isSome, tw.getD 0)]
    (let d1 := d.holdPend x n (passedBy s.lastPoint) (fun k => s.mt (s.tick + k)) (d.twinnedChannel n)
     if d1.pend.length = d.pend.length then d1 else (d1.putChannel n { c with startPend := true }).putBlack n)

/-- An accepted STOP is held for its eligible point. -/
def Dev.holdStop (d : Dev) (x : Desc) (n : Nat) : Dev :=
  let s := d.sceneAt (d.channel n).sceneIx
  d.holdPend x n (passedBy s.lastPoint) (fun k => s.mt (s.tick + k)) (d.twinnedChannel n)

/-- ENC STOP (R285). -/
def Dev.encStop (d : Dev) (x : Desc) : Dev :=
  let n := x.get 0x20 2
  d.checked x [((d.channel n).st != .running, stBusy)] (d.holdStop x n)

/-- The channel as its first picture finds it (R282, R294, R304, R327). -/
def Chan.fresh (c : Chan) (k : Nat) : Chan :=
  { c with
    st := .running, startPend := false, rc := (c.ctx.drop 0x100).take 256, shed := false, shedFrom := 0, muted := false, muteFrom := 0, pics := 0
    repeats := 0, misses := 0, lateRows := 0, keys := 0, lastMt := 0, k0 := k, j := 0, outNext := 0, lastKey := 0, keyDuty := true, keyCarry := []
    cycle := 0, stopAt := none, flight := [], hist := [], rcBase := 0, full := c.vbvInit, dsum := 0, exhausted := 0, floorRows := 0, filler := 0, bits := 0
    mirrored := [] }

/-- Which half follows (R381, R385): one that starts while its partner runs the channel, else the junior. -/
def Dev.startFollower (d : Dev) (n : Nat) : Dev :=
  let joins := d.paired && (d.twinCh n).partner == 2
  let d1 := d.modTwinCh n fun t => { t with phase := if joins then 2 else 1, follower := joins || !d.ctl.senior, copy := joins, copyMt := 0, snap := none, theirs := [], owed := false }
  if joins then (d1.modChannel n fun c => { c with muted := true, muteFrom := 0 }).wantCopy n else d1

/-- START takes effect at scene tick k (R282, R294, R299, R300). -/
def Dev.encGo (d : Dev) (n k m : Nat) (p : Pend) : Dev :=
  let c := d.channel n
  if c.st != .admitted then (d.putChannel n { c with startPend := false }).complete p.d stAborted 0
  else
    let d1 := d.putChannel n (c.fresh k)
    let d2 := if c.twin = 1 then d1.startFollower n else d1
    let d3 := c.pipes.foldl (fun e q => if (e.pipeAt q).out then e.shedChannel (16 + q) n else if e.ctl.islBusy == some q then e.shedChannel (32 + q) n else e) d2
    (d3.tellChannel n).complete p.d p.status m

/-- STOP takes effect at scene tick k (R297); another STOP that waits is aborted with what waits for later pictures (R164). -/
def Dev.encHalt (d : Dev) (n k m : Nat) (p : Pend) : Dev :=
  let c := d.channel n
  if c.st != .running then d.complete p.d stAborted 0
  else
    let count := k - c.k0
    let last := c.mt (k - 1)
    let d1 := d.abortPend fun q => q.unit == 4 && q.obj == n && (q.op == 3 || ((q.op == 4 || q.op == 5 || q.op == 9) && !(c.outNext < count && q.due last)))
    (((d1.putChannel n { c with st := .stopping, stopAt := some count }).tellChannel n).complete p.d p.status m).checkStopped n

/-- STARTs and STOPs of the channels that read scene s take effect at its tick k, in the order of acceptance (R163). -/
def Dev.encPoint (d : Dev) (s k m : Nat) : Dev :=
  let mine (p : Pend) : Bool := p.unit == 4 && (p.op == 2 || p.op == 3) && (d.channel p.obj).sceneIx == s && p.due m
  (d.pend.filter mine).foldl (fun e p => if p.op = 2 then e.encGo p.obj k m p else e.encHalt p.obj k m p) { d with pend := d.pend.filter fun p => !mine p }

/-- A tick of a scene: what the compositor does at it, and the STARTs and STOPs that wait for it. -/
def Dev.sceneTickAll (d : Dev) (s : Nat) : Dev :=
  let c := d.sceneAt s
  let d1 := d.sceneTick s
  if (d1.sceneAt s).tick = c.tick then d1 else d1.encPoint s c.tick (c.mt c.tick)

/-! ## KEYPIC, RATE, STATS and PARK (R282, R285, R331) -/

/-- Hold an operation for a picture that is not yet planned (R294). -/
def Dev.encHold (d : Dev) (x : Desc) : Dev :=
  let n := x.get 0x20 2
  let c := d.channel n
  d.holdPend x n (passedBy c.lastPlanned) (fun k => c.mt (c.k0 + c.outNext + k)) (d.twinnedChannel n)

/-- ENC KEYPIC: a CRA picture exists for HEVC and VVC only (R275). -/
def Dev.encKeypic (d : Dev) (x : Desc) : Dev :=
  let c := d.channel (x.get 0x20 2)
  d.checked x [(c.st != .running, stBusy), (x.get 0x22 1 > 2, stBadDesc), (x.get 0x22 1 == 2 && c.codec != 1 && c.codec != 2 && !c.isXs, stFormat)] (d.encHold x)

/-- The RATE body (Table 10.5). -/
def encRateSpec (d : Dev) (x : Desc) : OpSpec := { encChanSpec [(0x24, 4), (0x43, 1), (0x48, 56)] d x with len := 0x80 }

/-- ENC RATE (R331). -/
def Dev.encRate (d : Dev) (x : Desc) : Dev :=
  let c := d.channel (x.get 0x20 2)
  let c1 := { c with rc := applyRate c.rc x }
  d.checked x [(c.st != .running, stBusy), (rateFieldsBad x || c1.rcBad false || (c.isXs && x.get 0x22 2 != 1), stBadDesc), (c1.rcGeometry, stGeometry)] (d.encHold x)

/-- ENC STATS (Table 9.7). -/
def encStatsSpec (_ : Dev) (x : Desc) : OpSpec :=
  { eff0 := true, rsv := [(0x22, 6), (0x30, 16)], idx := [(x.get 0x20 2, 512)], own := [(0, x.get 0x20 2)], mem := [⟨x.get 0x28 8, 128, false, true⟩] }
def Dev.encStats (d : Dev) (x : Desc) : Dev :=
  d.checked x [(x.get 0x28 8 % 16 != 0, stBadDesc)] ((d.memWrite (x.get 0x28 8) (d.channel (x.get 0x20 2)).statsRecord).complete x stOK 0)

/-- ENC PARK (R285): an unpark completes later. -/
def encParkSpec (_ : Dev) (x : Desc) : OpSpec := { eff0 := true, pf := true, rsv := [(0x22, 30)], idx := [(x.get 0x20 1, 16)] }
def Dev.encPark (d : Dev) (x : Desc) : Dev :=
  let p := x.get 0x20 1
  let on := x.get 0x21 1
  d.checked x [(on > 1, stBadDesc), (d.dozing || (on == 1 && !(d.sharing p).isEmpty), stBusy)]
    (if on = 1 then (d.modPipeAt p fun q => { q with parked := true }).complete x stOK 0
     else match (d.pipeAt p).unpark with
       | some y => (d.modPipeAt p fun q => { q with unpark := some x }).complete y stOK 0
       | none => d.modPipeAt p fun q => { q with unpark := some x })

/-- An unparked pipe is back in service (R285). -/
def Dev.unparkDone (d : Dev) (p : Nat) : Dev :=
  match (d.pipeAt p).unpark with
  | some x => (d.modPipeAt p fun q => { q with unpark := none, parked := false }).complete x stOK 0
  | none => d

/-! ## Row arbitration (R276, R286, R287) -/

/-- The pipe codes rows. -/
def Dev.pipeServes (d : Dev) (p : Nat) : Bool :=
  let q := d.pipeAt p
  !q.parked && !q.out && d.ctl.islBusy != some p

/-- Member m has a row of the picture to code. -/
def Pic.openFor (m : Nat) (p : Pic) : Bool :=
  match p.bands[m]? with
  | some b => b.next ≤ b.last && (match p.limit with | some (k, _) => decide (b.next < k) | none => true)
  | none => false

/-- What a member would code next: a picture in coding, or the first of the next mini-GOP, which the skip path does not serve (R293); with it its output index, its
references and the row of the member's band. The pictures of a shed channel from its first repeat on are left to the skip path (R78, R287). -/
def Dev.nextRow (d : Dev) (n m : Nat) : Option (Option Pic × Nat × List Nat × Nat) :=
  let c := d.channel n
  match c.flight.find? (Pic.openFor m) with
  | some p => if c.shed && c.shedFrom ≤ p.mt then none else some (some p, p.out, p.refs, match p.bands[m]? with | some b => b.next | none => 0)
  | none =>
    let x := c.mt (c.k0 + c.outNext)
    let ended := match c.stopAt with | some s => decide (s ≤ c.outNext) | none => false
    if ended || d.skipOnly n x || c.mirrored.contains (x, 0) then none
    else match (d.restorePoint n x).nextGop n with
      | (o, t) :: _ => some (none, o, c.refsOf t o, ((bandStarts 0 c.rows).getD m (0, 0)).1)
      | [] => none

/-- Both conditions of R276: the source rows of CTU row r are complete, and every reference is reconstructed far enough. -/
def Dev.rowCanStart (d : Dev) (n out : Nat) (refs : List Nat) (r : Nat) : Bool :=
  let c := d.channel n
  let v := min ((r + 1) * c.ctu) c.height - 1
  d.outRowDone c.sceneIx c.outIx (c.k0 + out) v && (c.flight.filter fun q => refs.contains q.j).all fun q => decide (c.reachOf r ≤ q.contig)

/-- Output tick T of coding index j, as a fraction (R281). -/
def Chan.dueAt (c : Chan) (j : Nat) : Nat × Nat := ((c.mt (c.k0 + j) + c.outDelay) * c.num + (c.depthG - 1) * c.den * 1000000000, c.num)

/-- The lesser of two fractions. -/
def fracLt (a b : Nat × Nat) : Bool := a.1 * b.2 < b.1 * a.2

/-- The deadline of a row (R286). -/
def Dev.rowDeadline (d : Dev) (n j out r : Nat) : Nat × Nat :=
  let c := d.channel n
  let t := c.dueAt j
  if c.latMode = 2 && c.pipes.length = 1 then
    let s := d.sceneAt c.sceneIx
    let w := ((s.work ++ s.past).find? fun w => w.tick == c.k0 + out).getD { tick := c.k0 + out }
    let a := d.outBound s w (w.outs.get (s.out c.outIx) c.outIx) (min ((r + 1) * c.ctu) c.height - 1)
    let b := (a * c.num * c.height + c.den * 1000000000 * c.ctu, c.num * c.height)
    if fracLt b t then b else t
  else t

/-- A candidate of `pick`: class, deadline, channel, member, its picture if planned. -/
structure Cand where
  cls  : Nat
  due  : Nat × Nat
  ch   : Nat
  mem  : Nat
  pic  : Option Pic

/-- The order of `before`. -/
def Cand.before (a b : Cand) : Bool :=
  if a.cls != b.cls then a.cls < b.cls else if fracLt a.due b.due then true else if fracLt b.due a.due then false else a.ch < b.ch

/-- The member that a pipe codes next (R287). -/
def Dev.pick (d : Dev) (p : Nat) : Option Cand :=
  d.chan.foldl (fun best e =>
    if !e.2.active then best
    else e.2.pipes.zipIdx.foldl (fun best q =>
      if q.1 != p then best
      else match d.nextRow e.1 q.2 with
        | none => best
        | some (pic, out, refs, r) =>
          if !d.rowCanStart e.1 out refs r then best
          else
            let j := match pic with | some x => x.j | none => e.2.j
            let c : Cand := ⟨e.2.cls, d.rowDeadline e.1 j out r, e.1, q.2, pic⟩
            match best with
            | none => some c
            | some b => if c.before b then some c else some b) best) none

/-- The next row of a member starts: its picture is planned if it was not, and the row's QP and the state of the band's budget are fixed (R294, R315, R317). -/
def Dev.startRow (d : Dev) (p : Nat) (k : Cand) : Dev :=
  let d1 := if k.pic.isSome then d else d.planGop k.ch
  let c := d1.channel k.ch
  match c.flight.find? (Pic.openFor k.mem) with
  | none => d1
  | some pic =>
    match pic.bands[k.mem]? with
    | none => d1
    | some b =>
      let b1 := c.startBandRow pic b
      let first := b1.exhausted && !pic.exhausted
      let pic1 := { pic with bands := pic.bands.set k.mem b1, exhausted := pic.exhausted || b1.exhausted }
      let q := d1.pipeAt p
      let d2 := (d1.putChannel k.ch { c with flight := c.flight.map (fun f => if f.j = pic.j then pic1 else f), exhausted := c.exhausted + b2n first }).putPipeAt p
        { q with cur := some (k.ch, k.mem, pic.j, b.next), lastCh := k.ch, lastMem := k.mem }
      if first then d2.raise 32 else d2

/-- The row in progress ends (R287): one of a picture that is no longer in coding is discarded. A row counts as a floor row when its budget was exhausted or the
guard turned its tail to floor (R333, log entry 52). -/
def Dev.endRow (d : Dev) (p : Nat) : Dev :=
  let q := d.pipeAt p
  match q.cur with
  | none => d
  | some (n, m, j, r) =>
    let d1 := d.putPipeAt p { q with cur := none, rows := (q.rows + 1) % 2 ^ 32 }
    let c := d1.channel n
    match c.flight.find? (·.j == j) with
    | none => d1
    | some pic =>
      match pic.bands[m]? with
      | none => d1
      | some b =>
        if b.next != r then d1
        else
          let due := d1.rowDeadline n j pic.out r
          let cost := d1.rowCost n pic r b
          let late := c.latMode == 2 && c.pipes.length == 1 && due.1 < d1.cadence * due.2
          let pic1 := { c.endPicRow pic m cost (d1.codeRow n pic r b cost) with lateRows := pic.lateRows + b2n late }
          (d1.putChannel n { c with flight := c.flight.map (fun f => if f.j = j then pic1 else f)
                                    floorRows := c.floorRows + b2n ((b.exhausted || (c.rowBits pic b cost).2) && !c.isXs) }).release n

/-- switch_context of R287: the pipe saves the member's 12 KiB to its save slot and takes up another one's, or none. -/
def Dev.switchContext (d : Dev) (p : Nat) (next : Option (Nat × Nat)) : Dev :=
  let q := d.pipeAt p
  if q.member == next then d
  else
    let d1 := match q.member with
      | some (n, m) =>
        let c := d.channel n
        if c.active then d.memWrite (c.ctxArea.1 + m * 12288) (drawBytes (Config.coderState 9 (m :: c.j :: (codedContext c.ctx).map BitVec.toNat)) 0 12288) else d
      | none => d
    d1.putPipeAt p { q with member := next, switches := (q.switches + 1) % 2 ^ 32 }

/-- A row boundary of a pipe (R287): going idle and coming back are switches too, as `row_boundary` has it. -/
def Dev.rowBoundary (d : Dev) (p : Nat) : Dev :=
  let d1 := d.endRow p
  if !d1.pipeServes p then d1
  else match d1.pick p with
    | some k => (d1.switchContext p (some (k.ch, k.mem))).startRow p k
    | none => d1.switchContext p none

/-! ## Output ticks (R289 to R293, R298, R370) -/

/-- Pipes of the members whose band of a picture is not complete. -/
def Chan.latePipes (c : Chan) (p : Option Pic) : List Nat :=
  match p with
  | none => c.pipes
  | some q => (c.pipes.zipIdx.filter fun e => match q.bands[e.2]? with | some b => b.next ≤ b.last | none => true).map (·.1)

/-- A miss is counted on its pipes, told to the partner, and for a LIVE channel raises EP_TIMEOUT, whose containment sheds the NEAR and BULK channels of those
pipes (R291, R292, R298). -/
def Dev.countMiss (d : Dev) (n : Nat) (p : Option Pic) (mt k : Nat) : Dev :=
  let c := d.channel n
  let ps := c.latePipes p
  let live := c.cls == 0
  let d1 := ps.foldl (fun e q => e.modPipeAt q fun x =>
    if live then { x with missLive := satAdd 16 x.missLive 1 } else { x with missOther := satAdd 16 x.missOther 1 }) d
  let d2 := if d1.linked n then d1.emit (.twin 6 n mt (toLE 2 k)) else d1
  if !live then d2
  else
    let d3 := d2.raise 30
    if !d3.contains 30 then d3
    else ps.foldl (fun e q => e.shedAll 2 ((e.sharing q).filter fun x => (e.channel x).cls != 0)) d3

/-- The picture at the head is due and not complete: a repeat or the skip path resolves it, and it is a miss unless it was limited before. A follower that misses its
copy point goes on by the skip path (R291, R384). -/
def Dev.resolveLate (d : Dev) (n : Nat) (p : Pic) : Dev :=
  let (k, missed, own) : Nat × Bool × Bool := match p.limit with
    | some (l, counts) => (min l p.contig, counts, false)
    | none => (p.released, true, true)
  let d1 := if own then d.countMiss n (some p) p.mt k else d
  let failed := (d1.twinCh n).phase = 3 && (d1.twinCh n).copyMt = p.mt
  let d2 := if failed then d1.modTwinCh n fun t => { t with phase := 2, snap := none } else d1
  let d3 := (if k = 0 then d2.releaseRepeat n p missed else d2.releaseSkipped n p k missed).release n
  if failed then d3.copyFailed n else d3

/-- The pictures of the next mini-GOP are planned for the skip path alone; they are no misses (R293, R381). -/
def Dev.planSkipped (d : Dev) (n : Nat) : Dev :=
  (d.planNext n).modChannel n fun c => { c with flight := c.flight.map fun p => if p.limit.isNone then { p with limit := some (0, false) } else p }

/-- PICTURE_DEADLINE: picture i, which is the next in coding order, is due and not complete (R289, R291, R293, R371, R381). One whose coding has not started is planned first
(R324); the pictures of a channel that the skip path alone serves are no misses. A copy point whose first row has not started from its snapshot is a failed attempt (R384). -/
def Dev.deadline (d0 : Dev) (n i : Nat) : Dev :=
  let c0 := d0.channel n
  let j := match c0.flight with | p :: _ => p.j | [] => c0.j
  let t := c0.dueAt j
  let ended := match c0.stopAt with | some s => decide (s ≤ c0.outNext) | none => false
  if !c0.active || i != j || d0.cadence * t.2 < t.1 || (c0.flight.isEmpty && ended) then d0
  else
    let m := c0.mt (c0.k0 + c0.outNext)
    let e := d0.restorePoint n m
    let d1 := if !c0.flight.isEmpty then d0 else if e.skipOnly n m then e.planSkipped n else if e.snapReady n m then (e.planNext n).copyFailed n else e.planNext n
    match (d1.channel n).flight with
    | [] => d1
    | p :: _ => d1.resolveLate n p

/-! ## Pipe memory errors (R299) -/

/-- An error in a pipe's memories: a single-bit one is corrected and counted, another one is uncorrectable. -/
def Dev.epEcc (d : Dev) (p : Nat) (corrected : Bool) : Dev :=
  if corrected then d.modPipeAt p fun q => { q with corrected := satAdd 16 q.corrected 1 }
  else
  let d1 := (d.modPipeAt p fun q => { q with uncorrected := true }).raise 31
  if !d1.contains 31 then d1 else (d1.modPipeAt p fun q => { q with out := true }).shedAll (16 + p) (d1.sharing p)

/-- The memory test after EP_ECC is cleared. -/
def Dev.epTest (d : Dev) (p : Nat) (pass : Bool) : Dev :=
  if !(d.pipeAt p).out || d.flt.status.getLsbD 31 then d
  else if pass then (d.modPipeAt p fun q => { q with out := false }).restoreAll (16 + p)
  else (d.modPipeAt p fun q => { q with uncorrected := true }).raise 31

/-! ## Registers (Tables 9.10 and 9.15) -/

/-- A read of the block of pipe p. -/
def Dev.readEp (d : Dev) (p off : Nat) : Nat :=
  let q := d.pipeAt p
  match off with
  | 0x00 => (if q.out then 3 else if q.parked then 2 else b2n q.cur.isSome) + fld 8 9 q.lastCh + fld 24 2 q.lastMem
  | 0x04 => q.rows
  | 0x08 => q.switches
  | 0x0C => q.missLive + fld 16 16 q.missOther
  | 0x10 => q.corrected + fld 16 1 (b2n q.uncorrected)
  | _ => 0

def chStateCode : ChState → Nat
  | .free => 0 | .loaded => 1 | .admitted => 2 | .running => 3 | .stopping => 4

/-- The Summary Block's code of a channel (Table 9.8). -/
def Chan.summary (c : Chan) : Nat :=
  match c.st with
  | .free => 0 | .loaded => 0 | .admitted => 1
  | .running => if c.shed then 3 else if c.muted then 4 else 2
  | .stopping => 5

/-- A read of the block of channel n; the mirror reads the loaded context. -/
def Dev.readCh (d : Dev) (n off : Nat) : Nat :=
  let c := d.channel n
  if 0x20 ≤ off then (if c.st = .free then 0 else c.get off 4)
  else match off with
    | 0x00 => chStateCode c.st + fld 3 1 (b2n c.shed) + fld 4 1 (b2n c.muted) + (if c.st = .free then 0 else fld 5 2 c.cls + fld 8 8 c.rank) +
        fld 16 3 c.pipes.length
    | 0x04 => c.pics % 2 ^ 32
    | 0x08 => c.repeats % 2 ^ 32
    | 0x0C => min 65535 c.misses + fld 16 16 (min 65535 c.lateRows)
    | 0x10 => c.keys % 2 ^ 32
    | 0x14 => c.lastMt % 2 ^ 32
    | 0x18 => c.lastMt / 2 ^ 32
    | _ => 0

/-! ## Meanings -/

/-- ENC_LOAD (R284). -/
def execEncLoad (s : State) : Host.Outcome State Fault Refusal := ok s (s.dev.runUnit 4 1 encLoadSpec Dev.encLoad)

/-- ENC_START (R285). -/
def execEncStart (s : State) : Host.Outcome State Fault Refusal := ok s (s.dev.runUnit 4 2 (encChanSpec [(0x22, 30)]) Dev.encStart)

/-- ENC_STOP (R285, R297). -/
def execEncStop (s : State) : Host.Outcome State Fault Refusal := ok s (s.dev.runUnit 4 3 (encChanSpec [(0x22, 30)]) Dev.encStop)

/-- ENC_KEYPIC (R285, R294). -/
def execEncKeypic (s : State) : Host.Outcome State Fault Refusal := ok s (s.dev.runUnit 4 4 (encChanSpec [(0x23, 29)]) Dev.encKeypic)

/-- ENC_RATE (R331). -/
def execEncRate (s : State) : Host.Outcome State Fault Refusal := ok s (s.dev.runUnit 4 5 encRateSpec Dev.encRate)

/-- ENC_STATS (R282, R333). -/
def execEncStats (s : State) : Host.Outcome State Fault Refusal := ok s (s.dev.runUnit 4 6 encStatsSpec Dev.encStats)

/-- ENC_PARK (R285). -/
def execEncPark (s : State) : Host.Outcome State Fault Refusal := ok s (s.dev.runUnit 4 7 encParkSpec Dev.encPark)

/-- SCENE_TICK (R235, R281). -/
def execSceneTick (cl : Fin 4) (sc : Fin 16) (s : State) : Host.Outcome State Fault Refusal := ok s (s.dev.sceneTickAll (cl * 16 + sc))

/-- UNPARK_COMPLETE (R285). -/
def execUnparkComplete (p : Fin 16) (s : State) : Host.Outcome State Fault Refusal := ok s (s.dev.unparkDone p)

/-- CTU_ROW_BOUNDARY (R287). -/
def execCtuRowBoundary (p : Fin 16) (_cost : Unit) (s : State) : Host.Outcome State Fault Refusal := ok s (s.dev.rowBoundary p)

/-- PICTURE_DEADLINE (R291). -/
def execPictureDeadline (ch : Fin 512) (j : Nat) (s : State) : Host.Outcome State Fault Refusal := ok s (s.dev.deadline ch j)

/-- EP_ECC (R299). -/
def execEpEcc (e : PipeEcc 16) (s : State) : Host.Outcome State Fault Refusal := ok s (s.dev.epEcc e.pipe e.corrected)

/-- EP_MEMORY_TEST_DONE (R299). -/
def execEpMemoryTestDone (p : Fin 16) (pass : Bool) (s : State) : Host.Outcome State Fault Refusal := ok s (s.dev.epTest p pass)

end Sys2Proof.Machine
end

