-- ==== Sys2Proof/Machine/FaultUnit.lean ====
section
/-! DEFINITION. The fault collector's commands, ALIVE, the FAULT unit and the FLT registers (chapter 20). -/

namespace Sys2Proof.Machine

/-- The sources whose class is locked (Table 20.1). -/
def lockedSources : List Nat := [0, 1, 11, 48, 49, 52, 53, 55, 63]

/-- The sources that are conditions (Table 20.1, R571); MC0 to MC11 are conditions only while retraining or failed (R548), which their own commands set. -/
def conditionSource (i : Nat) : Bool :=
  [0, 2, 3, 4, 5, 8, 9, 10, 11, 35, 41, 44, 45, 46, 48, 49, 50, 51, 52, 53, 54, 55, 56, 57, 58, 59, 60, 61, 62, 63].contains i

/-- The word of the condition sources. -/
def conditionWord : BitVec 64 := (List.range 64).foldl (fun w i => if conditionSource i then w ||| (1#64 <<< i) else w) 0

/-- Lines rise together (R572, R578): a condition's line goes to 1, one that is at 1 already does not rise; an event drives its line for this cycle. -/
def Dev.riseLines (d : Dev) (srcs : BitVec 64) : Dev :=
  let rising := srcs &&& ~~~(conditionWord &&& d.flt.live)
  { d with flt := { d.flt with live := d.flt.live ||| (rising &&& conditionWord) } }.latch rising

/-- The sticky bits that a W1C clears: those written 1 whose line is at 0 (R580). -/
def Dev.clearable (d : Dev) (mask : BitVec 64) : BitVec 64 := mask &&& d.flt.status &&& ~~~d.flt.live

/-- Clearing EP_ECC or DP_ECC ends what UNCORRECTED of the pipes reports (Tables 9.14 and 11.9). -/
def Dev.clearEcc (d : Dev) (c : BitVec 64) : Dev :=
  { d with pipe := if c.getLsbD 31 then d.pipe.mapAll ({} : Pipe) fun _ q => { q with uncorrected := false } else d.pipe
           decPipe := if c.getLsbD 34 then d.decPipe.mapAll ({} : DecPipe) fun _ q => { q with uncorrected := false } else d.decPipe }

/-- Sticky bits are cleared and their reactions released (R576, R581). The last HALT to go lets the bypass open, and the partner is told;
a partitioned half attempts to pair again (R357). -/
def Dev.releaseFaults (d : Dev) (mask : BitVec 64) : Dev :=
  let c := d.clearable mask
  let d1 := { d with flt := { d.flt with
    status := d.flt.status &&& ~~~c
    latched := d.flt.latched.filter fun p => !c.getLsbD p.1 } }.clearEcc c
  if d.halted && !d1.halted then
    let d2 := d1.updateBypass
    if d2.twin.st = .unpaired then d2 else (d2.emit (.twin 11 0 d2.media [0])).offerPairing
  else d1

/-- A W1C of FLT_STATUS_LO or _HI from the PF or firmware (R586). -/
def Dev.fltW1c (d : Dev) (who : Requester) (hi : Bool) (v : Word) : Dev :=
  if isPfOrFw who then d.releaseFaults (if hi then v.setWidth 64 <<< 32 else v.setWidth 64) else d

/-- The classes after a write of FLT_CLASSk: locked sources keep theirs (R577). -/
def writeClasses (cls : BitVec 128) (k : Nat) (v : Word) : BitVec 128 :=
  (List.range 16).foldl (fun w i =>
    if lockedSources.contains (16 * k + i) then w
    else
      let at0 := 2 * (16 * k + i)
      (w &&& ~~~(3#128 <<< at0)) ||| ((v >>> (2 * i)).setWidth 2).setWidth 128 <<< at0) cls

/-- A write of FLT_CLASSk from the PF or firmware, ignored while CLASS_LOCK is set (R577, R586). -/
def Dev.fltClass (d : Dev) (who : Requester) (k : Nat) (v : Word) : Dev :=
  if isPfOrFw who && !d.flt.lock then { d with flt := { d.flt with cls := writeClasses d.flt.cls k v } } else d

/-- CLASS_LOCK is set (R577). -/
def Dev.fltLock (d : Dev) (who : Requester) : Dev := if isPfOrFw who then { d with flt := { d.flt with lock := true } } else d

/-- A heartbeat (R573, R583, R586): firmware only, and none counts before boot is complete (R634). -/
def Dev.heartbeat (d : Dev) (who : Requester) : Dev :=
  if isFw who && !d.ctl.booting then { d with flt := { d.flt with beat := some d.ctl.ticks, wdtFrom := some d.ctl.ticks } }.setLine 0 false else d

/-- No heartbeat for more than 50 ms (R573); the first one after boot arms the watchdog (R634). -/
def Dev.watchdog (d : Dev) : Dev :=
  match d.flt.wdtFrom with
  | some t => if t + 150000000 < d.ctl.ticks then d.setLine 0 true else d
  | none => d

/-- No heartbeat within the last 10 ms: ALIVE stops (R583). -/
def Dev.beatLapse (d : Dev) : Dev :=
  match d.flt.beat with
  | some t => if t + 30000000 < d.ctl.ticks then { d with flt := { d.flt with beat := none } } else d
  | none => d

/-- The hub firmware has written its heartbeat within the last 10 ms (R583). -/
def Dev.beating (d : Dev) : Bool := match d.flt.beat with | some t => decide (d.ctl.ticks ≤ t + 30000000) | none => false

/-- ALIVE at multiple k of 500,000 ns: it toggles, once for each multiple, while the device is healthy (R583). -/
def Dev.aliveAt (d : Dev) (k : Nat) : Dev :=
  if k = d.flt.aliveK then d
  else
    let d1 := { d with flt := { d.flt with aliveK := k } }
    if d.beating && !d.halted then { d1 with flt := { d1.flt with alive := !d.flt.alive } }.emit (.pin "ALIVE" (!d.flt.alive)) else d1

/-- A whole multiple of 500,000 ns of media time has come. -/
def Dev.aliveTick (d : Dev) : Dev := d.aliveAt (d.media / 500000)

/-- FAULT ASSERT (R584): the body, and the operation. -/
def assertSpec (_ : Dev) (_ : Desc) : OpSpec := { rsv := [(0x22, 0x1E)], eff0 := true, pf := true }
def Dev.faultAssert (d : Dev) (x : Desc) : Dev :=
  let src := x.get 0x20 1
  let lvl := x.get 0x21 1
  d.checked x [(src > 6 || lvl > 1, stBadDesc)] ((d.setLine (56 + src) (lvl == 1)).complete x stOK 0)

/-! ## Registers (Table 20.3) -/

/-- ALIVE has stopped for want of a heartbeat: none within the last 10 ms (R583), counted from reset P, after which ALIVE_STATE reads 0 (Table 20.6). -/
def Dev.silent (d : Dev) : Bool := !d.beating && (d.flt.beat.isSome || decide (30000000 < d.ctl.ticks))

/-- FLT_CTRL. -/
def Dev.fltCtrl (d : Dev) : Nat :=
  fld 0 1 (b2n d.flt.lock) + fld 4 2 d.reaction + fld 8 1 (b2n d.silent) + fld 9 1 (b2n d.halted) + fld 10 1 (b2n d.flt.alive)

/-- A read of the FLT block. -/
def Dev.readFlt (d : Dev) (off : Nat) : Nat :=
  match off with
  | 0x00 => (loW d.flt.status.toNat).toNat
  | 0x04 => (hiW d.flt.status.toNat).toNat
  | 0x08 => (loW d.flt.live.toNat).toNat
  | 0x0C => (hiW d.flt.live.toNat).toNat
  | 0x10 => (loW d.flt.prior.toNat).toNat
  | 0x14 => (hiW d.flt.prior.toNat).toNat
  | 0x20 => bits d.flt.cls.toNat 0 32
  | 0x24 => bits d.flt.cls.toNat 32 32
  | 0x28 => bits d.flt.cls.toNat 64 32
  | 0x2C => bits d.flt.cls.toNat 96 32
  | 0x30 => d.fltCtrl
  | _ => 0

/-- A write of the FLT block. -/
def Dev.writeFlt (d : Dev) (who : Requester) (off : Nat) (v : Word) : Dev :=
  match off with
  | 0x00 => d.fltW1c who false v
  | 0x04 => d.fltW1c who true v
  | 0x20 => d.fltClass who 0 v
  | 0x24 => d.fltClass who 1 v
  | 0x28 => d.fltClass who 2 v
  | 0x2C => d.fltClass who 3 v
  | 0x30 => if v.getLsbD 0 then d.fltLock who else d
  | 0x34 => d.heartbeat who
  | _ => d

/-! ## Meanings -/

/-- FAULT_LINE_RISE (R572). -/
def execFaultLineRise (srcs : BitVec 64) (s : State) : Host.Outcome State Fault Refusal := ok s (s.dev.riseLines srcs)

/-- FAULT_ASSERT (R584). -/
def execFaultAssert (s : State) : Host.Outcome State Fault Refusal := ok s (s.dev.runUnit 15 1 assertSpec Dev.faultAssert)

/-- FLT_STATUS_W1C (R581). -/
def execFltStatusW1c (who : Requester) (hi : Bool) (v : Word) (s : State) : Host.Outcome State Fault Refusal := ok s (s.dev.fltW1c who hi v)

/-- FLT_CLASS_WRITE (R577). -/
def execFltClassWrite (who : Requester) (k : Fin 4) (v : Word) (s : State) : Host.Outcome State Fault Refusal := ok s (s.dev.fltClass who k v)

/-- FLT_CTRL_CLASS_LOCK (R577). -/
def execFltCtrlClassLock (who : Requester) (s : State) : Host.Outcome State Fault Refusal := ok s (s.dev.fltLock who)

/-- FLT_HEARTBEAT_WRITE (R573). The value written means nothing: any write is a heartbeat. -/
def execFltHeartbeatWrite (who : Requester) (_v : Word) (s : State) : Host.Outcome State Fault Refusal := ok s (s.dev.heartbeat who)

/-- HUB_WDT (R573). -/
def execHubWdt (s : State) : Host.Outcome State Fault Refusal := ok s s.dev.watchdog

/-- HEARTBEAT_LAPSE (R583). -/
def execHeartbeatLapse (s : State) : Host.Outcome State Fault Refusal := ok s s.dev.beatLapse

/-- ALIVE_TOGGLE (R583). -/
def execAliveToggle (s : State) : Host.Outcome State Fault Refusal := ok s s.dev.aliveTick

/-- HUB_ECC (R572): an event of class HALT. -/
def execHubEcc (s : State) : Host.Outcome State Fault Refusal := ok s (s.dev.raise 1)

/-- FLT_SELF (R573). -/
def execFltSelf (s : State) : Host.Outcome State Fault Refusal := ok s (s.dev.setLine 63 true)

/-- D2D_LINK (R32). -/
def execD2dLink (s : State) : Host.Outcome State Fault Refusal := ok s (s.dev.setLine 11 true)

end Sys2Proof.Machine
end

