-- ==== Sys2Proof/Machine/Praline.lean ====
section
/-! DEFINITION. The Praline metering island: taps, counting, the log, seals, the mailbox, PRL_UART and supplies (chapter 22). -/

namespace Sys2Proof.Machine

/-! ## Identity (R615, R616, R625) -/

def pralineKey : List Byte := Config.slhPublic Config.pralineSecret

/-- The firmware identity computed at power-up. -/
def pralineIdent : List Byte := shake512 Config.maskRom

/-- A record header (Table 22.2). -/
def recHeader (len typ seq counter mt : Nat) : List Byte := toLE 4 len ++ toLE 2 typ ++ toLE 2 0 ++ toLE 8 seq ++ toLE 8 counter ++ toLE 8 mt

/-- The genesis record. -/
def genesisRecord : List Byte := recHeader 160 0 0 0 0 ++ fit 64 Config.genesisIdent ++ fit 64 pralineKey

/-- The chain value of the last record. -/
def Prl.chainNow (p : Prl) : List Byte := p.chain.getD (shake512 genesisRecord)

/-! ## Status and time -/

/-- Island time in ns. -/
def Prl.ns (p : Prl) : Nat := p.counter * 1000000000 / 32768

/-- Hub time is valid: a TIME message has come within the last 2 s (R615). -/
def Prl.hubValid (p : Prl) : Bool := match p.hubTime with | some (_, at0) => decide (p.ns < at0 + 2000000000) | none => false

/-- Hub media time as the island has it: 0 while none is valid. -/
def Prl.hubNow (p : Prl) : Nat := match p.hubTime with | some (mt, at0) => if p.hubValid then (mt + (p.ns - at0)) % 2 ^ 64 else 0 | none => 0

/-- The status word (Table 22.6). -/
def Prl.status (p : Prl) : Nat :=
  b2n p.tapA + fld 1 1 (b2n p.tapB) + fld 2 1 (b2n p.mainAbsent) + fld 3 1 (b2n p.logFull) + fld 4 1 (b2n p.logStopped) + fld 5 1 (b2n p.timeDis) +
    fld 6 1 (b2n p.selfTest) + fld 7 1 (b2n (!p.staged.isEmpty)) + fld 16 1 (b2n (!p.sealHigh)) + fld 17 1 (b2n p.keyReady) + fld 18 1 (b2n p.hubValid)


/-! ## The log (R615, R616, R619) -/

def logRing : Nat := 8388608
def logReserve : Nat := 262144

/-- Free bytes of the ring: what no unreleased record takes. -/
def Prl.freeBytes (p : Prl) : Nat := logRing - (p.recs.filter fun r => p.released < r.1).foldl (fun n r => n + r.2.2) 0

/-- Bytes of a record with a body, and of the PAD before it. -/
def recLen (body : List Byte) : Nat := 32 + (body.length + 15) / 16 * 16
def Prl.padLen (p : Prl) (n : Nat) : Nat := if logRing < p.wptr + n then logRing - p.wptr else 0

/-- Bytes go into the ring at the write place as one record, over the oldest ones. A PAD too short for a header holds the first part of one. -/
def Prl.putRec (p : Prl) (bs : List Byte) : Prl :=
  let n := bs.length
  { p with ring := writeBytes p.ring p.wptr bs, recs := (p.recs.filter fun r => !(r.2.1 < p.wptr + n && p.wptr < r.2.1 + r.2.2)) ++ [(p.head, p.wptr, n)],
           head := p.head + 1, wptr := (p.wptr + n) % logRing, chain := some (shake512 (p.chainNow ++ bs)) }

/-- The PAD before a record of n bytes, if it would cross the end. -/
def Prl.writePad (p : Prl) (n : Nat) : Prl :=
  let pad := p.padLen n
  if pad = 0 then p else p.putRec ((recHeader pad 9 p.head p.counter p.hubNow ++ zeros (pad - 32)).take pad)

/-- The log takes a record of n bytes, with its PAD. -/
def Prl.takes (p : Prl) (n : Nat) : Bool := !p.logStopped && decide (n + p.padLen n ≤ p.freeBytes)

/-- Write one record: a PAD where it would cross the end; nothing, and LOG_STOPPED, where no space remains; LOG_FULL once less than 256 KiB is free. -/
def Prl.write (p : Prl) (typ : Nat) (body : List Byte) : Prl :=
  let n := recLen body
  if !p.takes n then { p with logStopped := true }
  else
    let p1 := p.writePad n
    let p2 := p1.putRec (recHeader n typ p1.head p1.counter p1.hubNow ++ fit (n - 32) body)
    { p2 with logFull := p2.logFull || p2.freeBytes < logReserve }

/-- An INTERVAL record is written only while 256 KiB stay free. -/
def Prl.writeInterval (p : Prl) (body : List Byte) : Prl :=
  let n := recLen body
  if p.logFull then p else if p.freeBytes < n + p.padLen n + logReserve then { p with logFull := true } else p.write 1 body

/-! ## Counting (R609 to R614) -/

/-- A flow map entry (Table 22.7): contract, bits p, mapped. -/
def Prl.flowEntry (p : Prl) (f : Nat) : Nat := p.map.get 0 f

/-- The contracts that some flow maps to, in order. -/
def Prl.mapped (p : Prl) : List Nat := (List.range 1024).filter fun c => p.map.any fun e => bitN e.2 31 && bits e.2 0 10 == c

def Prl.contract (p : Prl) (c : Nat) : Contract := p.contracts.get ({} : Contract) c
def Prl.modContract (p : Prl) (c : Nat) (f : Contract → Contract) : Prl := { p with contracts := p.contracts.put ({} : Contract) c (f (p.contract c)) }

/-- The map selects an event's copy and kind. -/
def selects (entry : Nat) (e : TapEvent) : Bool := bitN entry 31 && bitN entry (if e.copyB then 11 else 10) && (!e.fec || bitN entry 12)

/-- The open second's packets and octets go into the open interval, which closes early (R624). -/
def Contract.foldOpen (c : Contract) : Contract :=
  { c with ivPkts := c.ivPkts + (c.secPkts - c.earlyPkts), ivOct := c.ivOct + (c.secOct - c.earlyOct), earlyPkts := c.secPkts, earlyOct := c.secOct }

/-- The contracts that a second counts for: the mapped ones, and those with events counted before a remap in this second (R611, R614). -/
def Prl.counted (p : Prl) : List Nat := (List.range 1024).filter fun c => p.mapped.contains c || 0 < (p.contract c).secPkts

/-- A second of one contract ends (R611). -/
def Contract.second (c : Contract) (tapUp : Bool) : Contract :=
  let svc := b2n (tapUp && 0 < c.secPkts && decide (c.minRate ≤ c.secOct * 8))
  let out := b2n (tapUp && c.secPkts == 0)
  { c with secPkts := 0, secOct := 0, earlyPkts := 0, earlyOct := 0, ivPkts := c.ivPkts + (c.secPkts - c.earlyPkts), ivOct := c.ivOct + (c.secOct - c.earlyOct), ivSvc := c.ivSvc + svc, ivOut := c.ivOut + out,
           octets := c.octets + c.secOct, pkts := c.pkts + c.secPkts, svc := c.svc + svc, outage := c.outage + out }

/-- The next second ends: counts, totals and the checkpoint. With SELF_TEST set nothing is counted. -/
def Prl.secondEnd (p : Prl) : Prl :=
  if p.powered && (p.secDone + 1) * 32768 ≤ p.counter then
    let p1 := if p.selfTest then p else p.counted.foldl (fun q c => q.modContract c fun x => x.second (!p.secDown)) p
    { p1 with secDone := p.secDone + 1, checkpoint := (p.secDone + 1) * 32768, secDown := p.tapA || p.tapB,
              ivDown := p1.ivDown || p.tapA || p.tapB, ivAbsent := p1.ivAbsent || p.mainAbsent, ivPresent := p1.ivPresent || !p.mainAbsent }
  else p

/-- A tap event that is on its way arrives and is counted; in the tick of a second boundary it counts in the new second (R609, R611). -/
def Prl.tapEvent (p0 : Prl) (e : TapEvent) : Prl :=
  if !p0.taps.contains e then p0
  else
    let p := { p0.secondEnd with taps := p0.taps.erase e }
    let m := p.flowEntry e.flow
    if p.powered && !p.selfTest && selects m e then p.modContract (bits m 0 10) fun c => { c with secPkts := c.secPkts + 1, secOct := c.secOct + e.octets } else p

/-- A tap is down, or is up again: a second or interval in which either was down for any part is marked. -/
def Prl.setTap (p0 : Prl) (tileB down : Bool) : Prl :=
  let p := p0.secondEnd
  let p1 := if tileB then { p with tapB := down } else { p with tapA := down }
  { p1 with secDown := p1.secDown || down, ivDown := p1.ivDown || down }

/-! ## Records of a boundary (R613, R617, R621) -/

/-- The body of an INTERVAL record. -/
def Prl.intervalBody (p : Prl) (early : Bool) : List Byte :=
  let flags := b2n p.ivDown + 2 * b2n p.ivAbsent + 4 * b2n early + 8 * b2n p.ivParam
  toLE 2 p.mapped.length ++ toLE 1 p.interval ++ zeros 13 ++ p.mapped.flatMap fun k =>
    let c := p.contract k
    toLE 2 k ++ toLE 1 c.ivSvc ++ toLE 1 c.ivOut ++ toLE 5 c.ivPkts ++ toLE 6 c.ivOct ++ toLE 1 flags

/-- A TOTALS entry, and the body of a TOTALS record. -/
def totalsEntry (k : Nat) (c : Contract) : List Byte := toLE 2 k ++ zeros 6 ++ toLE 8 c.octets ++ toLE 8 c.pkts ++ toLE 4 c.svc ++ toLE 4 c.outage
def Prl.totalsBody (p : Prl) : List Byte :=
  let ks := (List.range 1024).filter fun k => p.mapped.contains k || (p.contract k).octets != 0 || (p.contract k).pkts != 0 || (p.contract k).svc != 0 || (p.contract k).outage != 0
  toLE 2 ks.length ++ zeros 14 ++ ks.flatMap fun k => totalsEntry k (p.contract k)

/-- The open interval closes: its INTERVAL record, if any contract is mapped and the main supply was there for a part of it, and its counts go. One that closes
early takes what the open second has counted so far. -/
def Prl.closeInterval (p0 : Prl) (early : Bool) : Prl :=
  let p := if early then { p0 with contracts := p0.contracts.mapAll ({} : Contract) fun _ c => c.foldOpen } else p0
  let p1 := if p.mapped.isEmpty || (!p.ivPresent && p.mainAbsent) then p else p.writeInterval (p.intervalBody early)
  { p1 with contracts := p1.contracts.mapAll ({} : Contract) fun _ c => { c with ivPkts := 0, ivOct := 0, ivSvc := 0, ivOut := 0 },
            ivDown := p.tapA || p.tapB, ivAbsent := p.mainAbsent, ivPresent := false, ivParam := false }

/-- A TOTALS record and a SEAL of some causes (R617); its body is signed even when the log takes no more records (R619). -/
def Prl.seal (p : Prl) (cause : Nat) : Prl :=
  let p0 := p.write 2 p.totalsBody
  let p1 := if p0.takes 160 then p0.writePad 160 else p0
  let body := toLE 2 0x5053 ++ toLE 2 1 ++ toLE 4 p1.status ++ toLE 4 p1.audit ++ toLE 2 cause ++ toLE 2 p1.mapped.length ++ toLE 8 p1.head ++ toLE 8 p1.counter ++
    toLE 8 p1.hubNow ++ fit 24 pralineIdent ++ fit 64 p1.chainNow
  { p1.write 3 body with signing := p1.signing ++ [(body, p1.head)] }

/-- One change of a parameter: 0 flow map, 1 MIN_RATE, 2 INTERVAL_S. -/
def Prl.applyChange (p : Prl) (c : Nat × Nat × Nat) : Prl :=
  match c.1 with
  | 0 => { p with map := p.map.put 0 c.2.1 c.2.2 }
  | 1 => p.modContract c.2.1 fun x => { x with minRate := c.2.2 }
  | _ => { p with interval := c.2.2 }

/-- The committed changes take effect and are recorded (R622). -/
def Prl.applyCommitted (p : Prl) : Prl :=
  if p.committed.isEmpty then p
  else
    let body := toLE 4 (p.audit + 1) ++ toLE 2 p.committed.length ++ zeros 10 ++ p.committed.flatMap fun c => toLE 1 c.1 ++ zeros 1 ++ toLE 2 c.2.1 ++ zeros 4 ++ toLE 8 c.2.2
    let p1 := { p.committed.foldl Prl.applyChange p with audit := p.audit + 1, committed := [], ivParam := true }
    p1.write 4 body

/-- Hub time against island time since the last boundary (R621). -/
def Prl.checkTime (p : Prl) : Prl :=
  let now := if p.hubValid then some (p.hubNow, p.ns) else none
  match now, p.lastTime with
  | some (h, i), some (h0, i0) =>
    let dd : Int := ((h : Int) - h0) - ((i : Int) - i0)
    if 100000000 < dd.natAbs then { p.write 6 (toLE 8 (ofSigned 64 dd) ++ zeros 8) with timeDis := true, lastTime := now } else { p with timeDis := false, lastTime := now }
  | _, _ => { p with timeDis := false, lastTime := now }

/-- An interval boundary, once its second has ended: writing resumes if enough is free; TIME, INTERVAL, PARAM, TOTALS and SEAL in that order. -/
def Prl.boundary (p : Prl) : Prl :=
  if p.powered && p.ivDone < p.secDone && p.secDone % p.interval == 0 then
    let roomy := decide (logReserve ≤ p.freeBytes)
    let p0 := { p with logFull := p.logFull && !roomy, logStopped := p.logStopped && !roomy, ivDone := p.secDone }
    let p1 := (p0.checkTime).closeInterval false
    let p2 := p1.applyCommitted
    let cause := b2n (p.secDone % 600 == 0) + 2 * b2n (!p.committed.isEmpty)
    if cause = 0 then p2 else p2.seal cause
  else p

/-- The oldest signature is complete: the block is replaced (R618). -/
def Prl.signed (p : Prl) : Prl :=
  match p.signing with
  | (body, n) :: rest => if p.keyReady then { p with signing := rest, block := body ++ fit 29792 (Config.slhSign Config.pralineSecret body), sealSeq := n } else p
  | [] => p

/-! ## Mailbox (R608, R619, R621) -/

/-- A TIME message. -/
def Prl.timeRx (p : Prl) (msg : List Byte) : Prl := if p.powered && byteAt msg 0 == 1 then { p with hubTime := some (fieldLE msg 8 8, p.ns) } else p

/-- No TIME for 2 s. -/
def Prl.timeLapse (p : Prl) : Prl :=
  match p.hubTime with
  | some (_, at0) => if at0 + 2000000000 ≤ p.ns then { p with hubTime := none } else p
  | none => p

/-- A RELEASE message: records up to n may be overwritten when a signed seal follows them. -/
def Prl.releaseRx (p : Prl) (msg : List Byte) : Prl :=
  let n := fieldLE msg 8 8
  if p.powered && byteAt msg 0 == 2 && n < p.sealSeq && p.released < n then { p with released := n }.write 8 (toLE 8 n ++ zeros 8) else p

/-- The hub firmware sends TIME at each whole second of media time. -/
def Dev.hubTimeSend (d : Dev) : Dev :=
  if d.prl.hubSec < d.tb.sec && d.ctl.pwrOk && !d.ctl.booting && !d.ctl.bootFailed then
    { d with prl := { d.prl with hubSec := d.tb.sec } }.emit (.mailbox false (toLE 1 1 ++ zeros 7 ++ toLE 8 d.media ++ zeros 48))
  else d

/-- What the hub makes of a status word. -/
def Dev.statusLines (d : Dev) (st : Nat) : Dev := (d.setLine 51 (bits st 0 2 != 0)).setLine 50 (bits st 2 14 != 0)

/-- The island sends its status when it has changed, and every second; the hub hears it while it has power. -/
def Dev.prlStatus (d : Dev) : Dev :=
  let p := d.prl
  if p.powered && (p.status != p.sentStat || p.sentSec < p.secDone) then
    let d1 := { d with prl := { p with sentStat := p.status, sentSec := p.secDone } }.emit (.mailbox true (toLE 4 p.status))
    if d.ctl.pwrOk then { d1 with prl := { d1.prl with hubStat := p.status, hubStatAt := d.ctl.ticks } }.statusLines p.status else d1
  else d

/-- No status message for 3 s. -/
def Dev.prlLink (d : Dev) : Dev := if d.ctl.pwrOk && d.prl.hubStatAt + 9000000000 ≤ d.ctl.ticks then d.setLine 51 true else d

/-! ## The seal input and PRL_UART (R622, R623) -/

def Prl.sealEdge (p : Prl) (high : Bool) : Prl :=
  if !p.powered || p.sealHigh == high then p
  else { p with sealHigh := high, staged := if high then p.staged else [] }.write 5 (toLE 1 (b2n high) ++ zeros 15)

/-- A line of a reply, and its last line with a status. -/
def uartLine (bs : List Byte) : List Byte := bs ++ [13#8, 10#8]
def uartEnd (status : Nat) : List Byte := uartLine (textBytes ['='] ++ hexByte (BitVec.ofNat 8 status))
def hexBytes (bs : List Byte) : List Byte := bs.flatMap hexByte

/-- The island answers while it has power. -/
def Dev.uart (d : Dev) (p : Prl) (reply : List Byte) : Dev := if d.prl.powered then { d with prl := p }.emit (.uart reply) else d

def Dev.uartId (d : Dev) : Dev :=
  d.uart d.prl (uartLine (hexBytes pralineIdent) ++ uartLine (hexBytes pralineKey) ++ uartLine (decimalBytes d.prl.head) ++ uartEnd stOK)
def Dev.uartStatus (d : Dev) : Dev :=
  d.uart d.prl (uartLine (decimalBytes d.prl.status) ++ uartLine (decimalBytes d.prl.audit) ++ uartLine (decimalBytes d.prl.counter) ++ uartEnd stOK)

/-- A record that is held: genesis is 0. -/
def Prl.record (p : Prl) (n : Nat) : Option (List Byte) :=
  if n = 0 then some genesisRecord else (p.recs.find? fun r => r.1 == n).map fun r => readBytes p.ring r.2.1 r.2.2

def Dev.uartRead (d : Dev) (first n : Nat) : Dev :=
  let rs := (List.range n).filterMap fun i => d.prl.record (first + i)
  d.uart d.prl (if n = 0 || 256 < n || rs.length != n then uartEnd stBadDesc else rs.flatMap (fun r => uartLine (hexBytes r)) ++ uartEnd stOK)
def Dev.uartBlock (d : Dev) : Dev := d.uart d.prl (uartLine (hexBytes d.prl.block) ++ uartEnd stOK)

/-- A staging command: out of range, then refused while the seal is fitted, then staged. -/
def Dev.uartStage (d : Dev) (good : Bool) (c : Nat × Nat × Nat) : Dev :=
  if !good then d.uart d.prl (uartEnd stBadDesc)
  else if !d.prl.sealHigh then d.uart d.prl (uartEnd stSealed)
  else d.uart { d.prl with staged := d.prl.staged ++ [c] } (uartEnd stOK)

def Dev.uartMap (d : Dev) (flow : Nat) (contract : Option Nat) (p : Nat) : Dev :=
  match contract with
  | some c => d.uartStage (flow < 4096 && c < 1024 && p < 8) (0, flow, c + p * 1024 + 2 ^ 31)
  | none => d.uartStage (flow < 4096) (0, flow, 0)
def Dev.uartRate (d : Dev) (contract rate : Nat) : Dev := d.uartStage (contract < 1024 && 1 ≤ rate && rate ≤ 1000000000000) (1, contract, rate)
def Dev.uartInterval (d : Dev) (sec : Nat) : Dev := d.uartStage ([10, 15, 20, 30, 60].contains sec) (2, 0, sec)
def Dev.uartCommit (d : Dev) : Dev :=
  if !d.prl.sealHigh then d.uart d.prl (uartEnd stSealed)
  else d.uart { d.prl with committed := d.prl.committed ++ d.prl.staged, staged := [] } (uartEnd stOK)
def Dev.uartDiscard (d : Dev) : Dev := d.uart { d.prl with staged := [] } (uartEnd stOK)

/-! ## Supplies (R620, R624, R625) -/

/-- The island sees PWR_OK low: the open interval closes early, POWER, TOTALS and SEAL. -/
def Dev.mainLoss (d : Dev) : Dev :=
  if d.prl.powered && !d.ctl.pwrOk && !d.prl.mainAbsent then
    let p := d.prl.closeInterval true
    { d with prl := ({ p with mainAbsent := true, ivAbsent := true }.write 7 (zeros 16)).seal 4 }
  else d

/-- The main supplies return. -/
def Dev.mainReturn (d : Dev) : Dev :=
  if d.prl.powered && d.ctl.pwrOk && d.prl.mainAbsent then
    { d with prl := { d.prl with mainAbsent := false, ivPresent := true }.write 7 (toLE 1 1 ++ zeros 15) }
  else d

/-- VDD_PRL returns after a loss: the counter resumes a second after the checkpoint, the counts since it are lost, and the island tests itself. -/
def Dev.prlPowerUp (d : Dev) (keyOk : Bool) : Dev :=
  let good := keyOk && pralineIdent == Config.genesisIdent
  let p := d.prl
  let p1 := { p with
    powered := true, selfTest := !good, keyReady := keyOk, hubTime := none, counter := p.checkpoint + 32768, frac := 0, secDone := (p.checkpoint + 32768) / 32768,
    secDown := p.tapA || p.tapB, lastTime := none, staged := [], beatA := d.ctl.ticks, beatB := d.ctl.ticks,
    contracts := p.contracts.mapAll ({} : Contract) fun _ c => { c with secPkts := 0, secOct := 0, earlyPkts := 0, earlyOct := 0 } }
  { d with prl := p1.write 7 (toLE 1 2 ++ zeros 7 ++ toLE 8 p.checkpoint) }

/-! ## The window (Table 22.7) -/

/-- Words of the window. -/
def Dev.readPrl (d : Dev) (off : Nat) : Nat :=
  let p := d.prl
  if off < 0x40 then
    match off with
    | 0x00 => p.status
    | 0x04 => p.audit
    | 0x08 => p.mapped.length + fld 16 8 p.interval
    | 0x10 => p.head % 2 ^ 32
    | 0x14 => p.head / 2 ^ 32
    | 0x18 => p.released % 2 ^ 32
    | 0x1C => p.released / 2 ^ 32
    | 0x20 => p.wptr
    | 0x28 => p.counter % 2 ^ 32
    | 0x2C => p.counter / 2 ^ 32
    | _ => 0
  else if off < 0x80 then fieldLE (fit 64 pralineIdent) (off - 0x40) 4
  else if 0x8000 ≤ off && off < 0x8000 + 29920 then fieldLE p.block (off - 0x8000) 4
  else if 0x10000 ≤ off && off < 0x20000 then fieldLE p.certs (off - 0x10000) 4
  else if 0x20000 ≤ off && off < 0x28000 then
    let k := (off - 0x20000) / 32
    fieldLE (totalsEntry k (p.contract k)) ((off - 0x20000) % 32) 4
  else if 0x30000 ≤ off && off < 0x34000 then p.flowEntry ((off - 0x30000) / 4)
  else if 0x34000 ≤ off && off < 0x38000 then fieldLE (toLE 8 (p.contract ((off - 0x34000) / 16)).minRate) ((off - 0x34000) % 16) 4
  else if 0x100000 ≤ off && off < 0x900000 then leNat (readBytes p.ring (off - 0x100000) 4)
  else 0

/-- The island changed. -/
def Dev.onPrl (d : Dev) (f : Prl → Prl) : Dev := { d with prl := f d.prl }

/-! ## Meanings -/

/-- TAP_EVENT (R609, R610): acts for an event that is on its way. -/
def execTapEvent (ev : TapEvent) (s : State) : Host.Outcome State Fault Refusal := ok s (s.dev.onPrl fun p => p.tapEvent ev)

/-- TAP_HEARTBEAT_RX (R612). -/
def execTapHeartbeatRx (tileB : Bool) (s : State) : Host.Outcome State Fault Refusal :=
  ok s (s.dev.onPrl fun p => if p.powered then (if tileB then { p with beatB := s.dev.ctl.ticks } else { p with beatA := s.dev.ctl.ticks }).setTap tileB false else p)

/-- TAP_HEARTBEAT_TIMEOUT (R612): no heartbeat of that tile for 10 us. -/
def execTapHeartbeatTimeout (tileB : Bool) (s : State) : Host.Outcome State Fault Refusal :=
  ok s (s.dev.onPrl fun p => if p.powered && (if tileB then p.beatB else p.beatA) + 30000 ≤ s.dev.ctl.ticks then p.setTap tileB true else p)

/-- ISLAND_SECOND_BOUNDARY (R611, R614, R620). -/
def execIslandSecondBoundary (s : State) : Host.Outcome State Fault Refusal := ok s (s.dev.onPrl Prl.secondEnd)

/-- INTERVAL_BOUNDARY (R613, R617, R621, R622). -/
def execIntervalBoundary (s : State) : Host.Outcome State Fault Refusal := ok s (s.dev.onPrl Prl.boundary)

/-- SEAL_SIGNATURE_DONE (R618). -/
def execSealSignatureDone (s : State) : Host.Outcome State Fault Refusal := ok s (s.dev.onPrl Prl.signed)

/-- MAILBOX_TIME_RX (R621). -/
def execMailboxTimeRx (msg : List Byte) (s : State) : Host.Outcome State Fault Refusal := ok s (s.dev.onPrl fun p => p.timeRx msg)

/-- MAILBOX_RELEASE_RX (R619). -/
def execMailboxReleaseRx (msg : List Byte) (s : State) : Host.Outcome State Fault Refusal := ok s (s.dev.onPrl fun p => p.releaseRx msg)

/-- HUB_TIME_SEND (R621). -/
def execHubTimeSend (s : State) : Host.Outcome State Fault Refusal := ok s s.dev.hubTimeSend

/-- PRL_STATUS_SEND (R608). -/
def execPrlStatusSend (s : State) : Host.Outcome State Fault Refusal := ok s s.dev.prlStatus

/-- PRALINE_LINK (R608). -/
def execPralineLink (s : State) : Host.Outcome State Fault Refusal := ok s s.dev.prlLink

/-- PRL_SEAL_N_EDGE (R622). -/
def execPrlSealNEdge (high : Bool) (s : State) : Host.Outcome State Fault Refusal := ok s (s.dev.onPrl fun p => p.sealEdge high)

/-- PRL_UART_ID (R623). -/
def execPrlUartId (s : State) : Host.Outcome State Fault Refusal := ok s s.dev.uartId

/-- PRL_UART_STATUS (R623). -/
def execPrlUartStatus (s : State) : Host.Outcome State Fault Refusal := ok s s.dev.uartStatus

/-- PRL_UART_READ (R623). -/
def execPrlUartRead (first n : Nat) (s : State) : Host.Outcome State Fault Refusal := ok s (s.dev.uartRead first n)

/-- PRL_UART_BLOCK (R623). -/
def execPrlUartBlock (s : State) : Host.Outcome State Fault Refusal := ok s s.dev.uartBlock

/-- PRL_UART_MAP (R622, R623). -/
def execPrlUartMap (flow : Nat) (contract : Option Nat) (bits : Nat) (s : State) : Host.Outcome State Fault Refusal := ok s (s.dev.uartMap flow contract bits)

/-- PRL_UART_RATE (R622, R623). -/
def execPrlUartRate (contract rate : Nat) (s : State) : Host.Outcome State Fault Refusal := ok s (s.dev.uartRate contract rate)

/-- PRL_UART_INTERVAL (R622, R623). -/
def execPrlUartInterval (sec : Nat) (s : State) : Host.Outcome State Fault Refusal := ok s (s.dev.uartInterval sec)

/-- PRL_UART_COMMIT (R622). -/
def execPrlUartCommit (s : State) : Host.Outcome State Fault Refusal := ok s s.dev.uartCommit

/-- PRL_UART_DISCARD (R623). -/
def execPrlUartDiscard (s : State) : Host.Outcome State Fault Refusal := ok s s.dev.uartDiscard

/-- MAIN_SUPPLY_LOSS (R624). -/
def execMainSupplyLoss (s : State) : Host.Outcome State Fault Refusal := ok s s.dev.mainLoss

/-- MAIN_SUPPLY_RETURN (R624). -/
def execMainSupplyReturn (s : State) : Host.Outcome State Fault Refusal := ok s s.dev.mainReturn

/-- VDD_PRL_POWER_UP (R620, R625). -/
def execVddPrlPowerUp (keyOk : Bool) (s : State) : Host.Outcome State Fault Refusal := ok s (s.dev.prlPowerUp keyOk)

/-- HUB_TIME_LAPSE (R615). -/
def execHubTimeLapse (s : State) : Host.Outcome State Fault Refusal := ok s (s.dev.onPrl Prl.timeLapse)

end Sys2Proof.Machine
end

