-- ==== Sys2Proof/Machine/Flags.lean ====
section
/-! DEFINITION. The two bits of a thread's `flags` register: WT and CAS (Table 4.1). -/

namespace Sys2Proof.Machine

/-- The register as a number: WT is bit 0, CAS bit 1; the other bits read 0. -/
def Thread.flagsReg (t : Thread) : DWord := BitVec.ofNat 64 (b2n t.wt + 2 * b2n t.cas)

/-- MTS writes bits 1:0. -/
def Thread.setFlagsReg (t : Thread) (v : DWord) : Thread := { t with wt := v.getLsbD 0, cas := v.getLsbD 1 }

/-- A wait that was satisfied clears WT, one that timed out sets it (R148). -/
def Thread.setWt (t : Thread) (b : Bool) : Thread := { t with wt := b }

/-- An AMO of kind 5 says in CAS whether it stored; the other kinds leave CAS as it is. -/
def Thread.setCas (t : Thread) : Option Bool → Thread
  | some b => { t with cas := b }
  | none => t

end Sys2Proof.Machine
end

