-- ==== Sys2Proof/Machine/Threads.lean ====
section
/-! DEFINITION. The dispatcher's own steps: folding posts, releasing held posters, dispatch, time slices, stalls, and the ends of waits and holds
(chapter 5, R147, R148). -/

namespace Sys2Proof.Machine

/-! ## Folding (R173 to R177) -/

/-- Posts are ORed into a thread's flags, which may end its wait. -/
def Dev.fold (d : Dev) (t : Nat) (mask : Word) : Dev :=
  if (d.thread t).live then (d.modThread t fun x => { x with flags := x.flags ||| mask }).wake t else d

/-- The pending word of the merge path. -/
def Dev.mergeFold (d : Dev) (t : Nat) : Dev :=
  let x := d.thread t
  if x.pending = 0 then d else (d.putThread t { x with pending := 0 }).fold t x.pending

/-- The oldest entry of a core's post queue. -/
def Dev.postFold (d : Dev) (c : Nat) : Dev :=
  match d.postQueue c with
  | (t, m) :: rest => (d.putPostQueue c rest).fold t m
  | [] => d

/-! ## Held posters (R178, R186) -/

/-- A ring's head entry that was held is done: it retires OK and the ring goes on (R101). -/
def Dev.entryReleased (d : Dev) (fn status : Nat) : Dev :=
  match (d.ring fn).wait with
  | .post _ tag sq => (d.modRing fn fun r => { r with wait := .nothing, sqHead := r.sqHead + 1 }).retire fn ⟨status, 2, 0xFFFF, tag, sq, 0, d.upNs⟩ none
  | _ => d

/-- The line of DISPATCH_STALL falls with the last poster that was held too long. -/
def Dev.stallLine (d : Dev) : Dev := if d.dsp.heldPosts.any (·.stalled) then d else d.setLine 5 false

/-- A poster goes on. -/
def Dev.releasePoster (d : Dev) (p : Poster) : Dev :=
  match p with
  | .thread t => if (d.thread t).hold == .post then d.makeReady t else d
  | .entry fn => d.entryReleased fn stOK
  | .unit _ => d

/-- The first held post for a core's queue, with no earlier post of its poster before it. -/
def Dev.firstHeld (d : Dev) (c : Nat) : Option HeldPost := d.dsp.heldPosts.find? fun h => d.heldCore h == c && d.dsp.leads h

/-- An entry of the queue is free: the first held post takes it, or is discarded if its target has ended (R172). -/
def Dev.entryFree (d : Dev) (c : Nat) : Dev :=
  match d.firstHeld c with
  | some h =>
    if (d.postQueue c).length < 64 || (d.postQueue c).any (·.1 == h.target) then
      let d1 := { d with dsp := { d.dsp with heldPosts := d.dsp.heldPosts.erase h } }
      ((if d.heldLive h then d1.enqueuePost h.target h.mask else d1).releasePoster h.poster).stallLine
    else d
  | none => d

/-- The stall limit in ticks (Table 5.8). -/
def Dsp.stallTicks (s : Dsp) : Nat := clampN 1 1000000 s.stallUs * 3000

/-- DSP_STALL_LAST for a held post (Table 5.10). -/
def stallWord (h : HeldPost) : Word :=
  match h.poster with
  | .thread t => BitVec.ofNat 32 (h.target + fld 16 12 t + 2 ^ 31)
  | .entry fn => BitVec.ofNat 32 (h.target + fld 16 6 fn + 2 ^ 30 + 2 ^ 31)
  | .unit _ => 0

/-- A POST or a kind 2 entry has been held for too long. -/
def HeldPost.overdue (h : HeldPost) (now limit : Nat) : Bool :=
  !h.stalled && decide (h.since + limit < now) && (match h.poster with | .unit _ => false | _ => true)

/-- Posters that pass the limit are recorded, each episode once, and the line is at 1 (R186). -/
def Dev.dispatchStall (d : Dev) : Dev :=
  let lim := d.dsp.stallTicks
  match (d.dsp.heldPosts.filter fun h => h.overdue d.ctl.ticks lim).getLast? with
  | some h =>
    { d with dsp := { d.dsp with heldPosts := d.dsp.heldPosts.map (fun (g : HeldPost) => { g with stalled := g.stalled || g.overdue d.ctl.ticks lim }), last := stallWord h } }.setLine 5 true
  | none => d

/-! ## Dispatch (R179 to R181, R672) -/

/-- The idle core that a READY thread takes: the one that holds its slot, else the lowest-numbered of its set. -/
def Dev.idleCore (d : Dev) (t : Nat) : Option Nat :=
  let x := d.thread t
  let idle := x.cores.filter fun c => !d.coreBusy c
  if x.slot.isSome && idle.contains x.home then some x.home else idle.head?

/-- READY threads by priority, then by the time they became READY. -/
def readyLe (a b : Nat × Thread) : Bool := if a.2.prio = b.2.prio then a.2.ready ≤ b.2.ready else a.2.prio < b.2.prio

/-- The READY thread that an idle core runs. -/
def Dev.nextReady (d : Dev) (c : Nat) : Option Nat :=
  (firstBest readyLe (d.thr.filter fun p => p.2.st == .ready && d.idleCore p.1 == some c)).map (·.1)

/-- An idle core takes its thread. -/
def Dev.dispatch (d : Dev) (c : Nat) : Dev :=
  if d.coreBusy c || d.ctl.islBusy == some (26 + c / 64) then d
  else match d.nextReady c with
    | some t => d.runOn t c
    | none => d

/-- The slice in ticks (Table 5.9). -/
def Dsp.sliceTicks (s : Dsp) : Nat := (if s.sliceUs = 0 then 1 else s.sliceUs) * 3000

/-- A thread that has run for its slice goes to the tail when another of its priority waits for that core with no idle core of its own. -/
def Dev.sliceEnd (d : Dev) (c : Nat) : Dev :=
  match d.running c with
  | some v =>
    let x := d.thread v
    if x.runStart + d.dsp.sliceTicks ≤ d.ctl.ticks && d.thr.any (fun p => p.2.st == .ready && p.2.prio == x.prio && p.2.allows c && (d.idleCore p.1).isNone) then d.toTail v
    else d
  | none => d

/-! ## Ends of holds and waits (R139, R147, R148, R155) -/

/-- A load or AMO has its data: the thread goes on, on the core it kept. -/
def Dev.loadReturn (d : Dev) (t : Nat) : Dev :=
  let x := d.thread t
  match x.st, x.hold with
  | .held, .data rd v cas => d.putThread t (({ x with st := .running, hold := .nothing }.setG rd v).setCas cas)
  | _, _ => d

/-- Everything the fence waits for is done. -/
def Dev.fenceDone (d : Dev) (t : Nat) : Dev :=
  let x := d.thread t
  match x.st, x.hold with
  | .held, .fence drain => if drain && x.issued != 0 then d else d.makeReady t
  | _, _ => d

/-- The unit's queue has room for a held descriptor; ISSUE writes 0 to rd. -/
def Dev.issueSpace (d : Dev) (t : Nat) : Dev :=
  let x := d.thread t
  match x.st, x.hold with
  | .held, .issue rd desc => if d.issueFull desc then d else ((d.modRegs t fun y => y.setG rd 0).acceptIssue desc).makeReady t
  | _, _ => d

/-- A wait runs out by the counter (R462): the flags of the mask are returned and kept, and WT is set. -/
def Dev.waitTimeout (d : Dev) (t : Nat) : Dev :=
  let x := d.thread t
  match x.st, x.deadline with
  | .waiting, some limit =>
    if limit ≤ d.nowNs then (d.modRegs t fun y => ({ y with deadline := none }.setWt true).setG x.waitRd ((x.flags &&& x.mask).setWidth 64)).makeReady t else d
  | _, _ => d

/-! ## Meanings -/

/-- DEVICE_LOAD_DATA_RETURN (R147). -/
def execDeviceLoadDataReturn (t : Fin 4096) (s : State) : Host.Outcome State Fault Refusal := ok s (s.dev.loadReturn t)

/-- MFENCE_COMPLETE (R139). -/
def execMfenceComplete (t : Fin 4096) (s : State) : Host.Outcome State Fault Refusal := ok s (s.dev.fenceDone t)

/-- ISSUE_QUEUE_SPACE (R155). -/
def execIssueQueueSpace (t : Fin 4096) (s : State) : Host.Outcome State Fault Refusal := ok s (s.dev.issueSpace t)

/-- WAIT_TIMEOUT (R148). -/
def execWaitTimeout (t : Fin 4096) (s : State) : Host.Outcome State Fault Refusal := ok s (s.dev.waitTimeout t)

/-- MERGE_PATH_FOLD (R175). -/
def execMergePathFold (t : Fin 4096) (s : State) : Host.Outcome State Fault Refusal := ok s (s.dev.mergeFold t)

/-- POST_QUEUE_FOLD (R177). -/
def execPostQueueFold (c : Fin 128) (s : State) : Host.Outcome State Fault Refusal := ok s (s.dev.postFold c)

/-- POST_QUEUE_ENTRY_FREE (R178). -/
def execPostQueueEntryFree (c : Fin 128) (s : State) : Host.Outcome State Fault Refusal := ok s (s.dev.entryFree c)

/-- CORE_DISPATCH (R179). -/
def execCoreDispatch (c : Fin 128) (s : State) : Host.Outcome State Fault Refusal := ok s (s.dev.dispatch c)

/-- TIME_SLICE_EXPIRY (R181). -/
def execTimeSliceExpiry (c : Fin 128) (s : State) : Host.Outcome State Fault Refusal := ok s (s.dev.sliceEnd c)

/-- DISPATCH_STALL (R186). -/
def execDispatchStall (s : State) : Host.Outcome State Fault Refusal := ok s s.dev.dispatchStall

end Sys2Proof.Machine
end

