-- ==== Sys2Proof/Machine/Packager.lean ====
section
/-! DEFINITION. The packager: headers and numbering, RTP and TS packets, cues, FEC, audio pass-through, withheld packets (chapter 13). What RFC 6184, 7798,
9328, 9134, ISO/IEC 13818-1, SCTE 35 and ST 2022-1 fix and the spec only names is log entry 26. -/

namespace Sys2Proof.Machine

/-! ## Flow fields (Table 13.6) -/

def Flow.fec (f : Flow) : Nat := f.get 0x23 1
def Flow.maxPayload (f : Flow) : Nat := f.get 0x2E 2
def Flow.tsRate (f : Flow) : Nat := f.get 0x48 8
def Flow.pidPmt (f : Flow) : Nat := f.get 0x50 2
def Flow.pidVideo (f : Flow) : Nat := f.get 0x52 2
def Flow.program (f : Flow) : Nat := f.get 0x56 2
def Flow.fecL (f : Flow) : Nat := f.get 0x44 1
def Flow.fecD (f : Flow) : Nat := f.get 0x45 1

/-! ## Ethernet, IP and UDP (R398) -/

/-- Big-endian bytes. -/
def be (n v : Nat) : List Byte := (toLE n v).reverse

/-- An address is IPv4-mapped. -/
def isV4 (a : List Byte) : Bool := zeroBytes a 0 10 && fieldLE a 10 2 == 0xFFFF

/-- The sum of a byte string's 16-bit big-endian words. -/
def sum16 : List Byte → Nat
  | a :: b :: r => a.toNat * 256 + b.toNat + sum16 r
  | [a] => a.toNat * 256
  | [] => 0

/-- The Internet checksum of a byte string. -/
def checksum (bs : List Byte) : Nat :=
  let a := sum16 bs
  let b := a % 65536 + a / 65536
  65535 - (b % 65536 + b / 65536)

/-- A UDP datagram; a checksum of 0 is sent as all ones. -/
def udpBytes (src dst : List Byte) (sport dport : Nat) (body : List Byte) : List Byte :=
  let len := 8 + body.length
  let head := be 2 sport ++ be 2 dport ++ be 2 len
  let pseudo := if isV4 src then src.drop 12 ++ dst.drop 12 ++ [0, 17] ++ be 2 len else src ++ dst ++ be 4 len ++ be 4 17
  let c := checksum (pseudo ++ head ++ be 2 0 ++ body)
  head ++ be 2 (if c = 0 then 65535 else c) ++ body

/-- An IP packet. -/
def ipBytes (src dst : List Byte) (dscp hop : Nat) (body : List Byte) : List Byte :=
  if isV4 src then
    let head (c : Nat) : List Byte := [0x45] ++ be 1 (dscp * 4) ++ be 2 (20 + body.length) ++ be 2 0 ++ be 2 0x4000 ++ be 1 hop ++ [17] ++ be 2 c ++ src.drop 12 ++ dst.drop 12
    head (checksum (head 0)) ++ body
  else be 4 (6 * 2 ^ 28 + dscp * 4 * 2 ^ 20) ++ be 2 body.length ++ [17] ++ be 1 hop ++ src ++ dst ++ body

/-- The destination MAC address: the descriptor's, or the one that a multicast group gives (RFC 1112, RFC 2464). -/
def destMac (mac dst : List Byte) : List Byte :=
  if !zeroBytes mac 0 6 then mac
  else if isV4 dst then (if byteAt dst 12 / 16 = 14 then [0x01, 0x00, 0x5E] ++ be 1 (byteAt dst 13 % 128) ++ dst.drop 14 else mac)
  else if byteAt dst 0 = 255 then [0x33, 0x33] ++ dst.drop 12 else mac

/-- The port that an egress queue belongs to (Table 14.3). -/
def Queue.get (q : Queue) (o n : Nat) : Nat := fieldLE q.cfg o n
def Queue.port (q : Queue) : Nat := q.get 0x22 1

/-- The frame of a datagram on one copy, without FCS, padded to the least length (R398, R400). -/
def Flow.frame (f : Flow) (copyB : Bool) (mac dportOff : Nat) (body : List Byte) : List Byte :=
  let field (o n : Nat) : List Byte := (f.cfg.drop o).take n
  let src := field 0x60 16
  let dst := if copyB then field 0x80 16 else field 0x70 16
  let vlan := f.get (if copyB then 0xA6 else 0xA4) 2
  let ip := ipBytes src dst (f.get 0x24 1) (f.get 0x25 1) (udpBytes src dst (f.get 0x90 2) (f.get (if copyB then 0x94 else 0x92) 2 + dportOff) body)
  let tag := if vlan = 0xFFFF then [] else be 2 0x8100 ++ be 2 vlan
  let fr := destMac (field (if copyB then 0x9E else 0x98) 6) dst ++ be 6 mac ++ tag ++ be 2 (if isV4 src then 0x0800 else 0x86DD) ++ ip
  fr ++ zeros (60 - fr.length)

/-! ## Handing packets over (R400, R413) -/

/-- What all packets of one record share: its picture's media time, the picture rate of its channel (R446), whether its PCRs are set at the queue (R406), and why
they are withheld; `opens` and `covers` are those of one packet, and `pad` says that it is padding alone (Table 19.2). -/
structure PktCtx where
  mt    : Nat
  num   : Nat := 0
  den   : Nat := 0
  mode0 : Bool := false
  opens : Option Nat := none
  covers : List Nat := []
  muted : Bool := false
  lost  : Bool := false
  pad   : Bool := false

/-- A packet is built: it goes to its queues, or is withheld and counted once (R413). The flow's tap sees it either way (Table 19.2, log entry 26). -/
def Dev.sendPacket (d0 : Dev) (k : Nat) (x : PktCtx) (fec : Bool) (dportOff : Nat) (body : List Byte) : Dev :=
  let f := d0.flowAt k
  let copies := (false, f.queueA) :: (if f.queueB = 0xFFFF then [] else [(true, f.queueB)])
  let ps : List (Nat × Packet) := copies.map fun e =>
    let fr := f.frame e.1 (Config.portMac (d0.queueAt e.2).port) dportOff body
    (e.2, { flow := k, copyB := e.1, fec := fec, udp := body.length, frame := fr.length + 4, mt := x.mt, num := x.num, den := x.den, idx := f.pktIdx,
            opens := x.opens, covers := x.covers, bytes := fr })
  let need := (ps.map fun e => e.2.frame).sum
  let f1 := { f with pkts := (f.pkts + 1) % 2 ^ 32, pktIdx := f.pktIdx + 1 }
  let fits := f.full != some x.mt && f.buffered + need ≤ f.get 0x40 4
  let d := d0.tapUnit 2 k (some (if x.pad then 0 else x.mt)) body (x.muted || x.lost || !fits)
  if x.muted then d.putFlowAt k { f1 with muted := satAdd 16 f.muted 1 }
  else if x.lost then d.putFlowAt k { f1 with overflow := satAdd 16 f.overflow 1 }
  else if fits then { d with tmIn := d.tmIn ++ ps }.putFlowAt k { f1 with buffered := f.buffered + need }
  else
    let d1 := d.putFlowAt k { f1 with overflow := satAdd 16 f.overflow 1, full := some x.mt }
    if f.full = some x.mt then d1 else d1.raise 37

/-- The 12 bytes of an RTP header. -/
def rtpHeader (pt : Nat) (marker : Bool) (seq ts ssrc : Nat) : List Byte :=
  [0x80] ++ be 1 (pt + fld 7 1 (b2n marker)) ++ be 2 seq ++ be 4 ts ++ be 4 ssrc

/-! ## FEC (R411) -/

/-- A FEC packet over media packets given with their RTP headers; `row` says which, `off` and `na` are its offset and number. -/
def fecPacket (row : Bool) (off na snBase seq ts : Nat) (ms : List (List Byte)) : List Byte :=
  let x (g : List Byte → List Byte) : List Byte := (ms.map g).foldl xorBytes []
  rtpHeader 96 false seq ts (Config.headerField 3) ++
    be 2 snBase ++ x (fun m => be 2 (m.length - 12)) ++ (x fun m => (m.drop 1).take 1).map (fun b => (b &&& 0x7F#8) ||| 0x80#8) ++ be 3 0 ++
    x (fun m => (m.drop 4).take 4) ++ be 1 (fld 6 1 (b2n row)) ++ be 1 off ++ be 1 na ++ be 1 0 ++ x (fun m => m.drop 12)

/-- The media packet with count `n` enters the matrix; the column and the row that it completes are sent. -/
def Dev.feedFec (d : Dev) (k : Nat) (x : PktCtx) (n ts : Nat) (pkt : List Byte) : Dev :=
  let f := d.flowAt k
  let l := f.fecL
  let dd := f.fecD
  let i := n % (l * dd)
  let ms := (if i = 0 then [] else f.media) ++ [pkt]
  let d1 := d.putFlowAt k { f with media := ms }
  let sn := f.get 0x2C 2 + n - i
  let col := i % l
  let xc : PktCtx := { x with pad := false, opens := none, covers := if x.mode0 then (List.range dd).map fun r => n - i + r * l + col else [] }
  let xr : PktCtx := { x with pad := false, opens := none, covers := if x.mode0 then (List.range l).map fun s => n - col + s else [] }
  let d2 :=
    if i / l + 1 = dd then
      let body := fecPacket false l dd (sn + col) f.fecCol ts ((List.range dd).map fun r => ms.getD (r * l + col) [])
      (d1.modFlowAt k fun f => { f with fecCol := f.fecCol + 1 }).sendPacket k xc true 2 body
    else d1
  if f.fec = 2 && col + 1 = l then
    let body := fecPacket true 1 l (sn + i - col) f.fecRow ts ((ms.drop (i - col)).take l)
    (d2.modFlowAt k fun f => { f with fecRow := f.fecRow + 1 }).sendPacket k xr true 4 body
  else d2

/-- A media packet: its count advances, and with FEC the matrix follows (R399, R411). -/
def Dev.sendMedia (d : Dev) (k : Nat) (x : PktCtx) (marker : Bool) (ts : Nat) (body : List Byte) : Dev :=
  let f := d.flowAt k
  let pkt := if f.kind = 2 then body else rtpHeader (f.get 0x26 1) marker (f.get 0x2C 2 + f.count) ts (f.get 0x28 4) ++ body
  let d1 := (d.putFlowAt k { f with count := (f.count + 1) % 2 ^ 64 }).sendPacket k { x with opens := if x.mode0 then some f.count else none } false 0 pkt
  if f.kind = 1 && f.fec != 0 then d1.feedFec k x f.count ts pkt else d1

/-! ## Kind 0: RTP payloads (R401) -/

/-- Cut a byte string into pieces of n bytes. -/
def pieces (n : Nat) : Nat → List Byte → List (List Byte)
  | 0, _ => []
  | fuel + 1, bs => if bs.length ≤ n then [bs] else bs.take n :: pieces n fuel (bs.drop n)

/-- Every piece with whether it is the first and the last. -/
def withEnds (ps : List (List Byte)) : List (List Byte × Bool × Bool) := ps.zipIdx.map fun e => (e.1, e.2 == 0, e.2 + 1 == ps.length)

/-- The packets of one NAL unit (Table 13.3); `final` says that it is the last slice of its picture, which RFC 9328's P bit marks. -/
def nalPackets (codec max : Nat) (final : Bool) (nal : List Byte) : List (List Byte) :=
  let b0 := byteAt nal 0
  let b1 := byteAt nal 1
  if nal.length ≤ max then [nal]
  else if codec = 0 then
    (withEnds (pieces (max - 2) nal.length (nal.drop 1))).map fun e =>
      be 1 (b0 / 32 * 32 + 28) ++ be 1 (fld 7 1 (b2n e.2.1) + fld 6 1 (b2n e.2.2) + b0 % 32) ++ e.1
  else if codec = 1 then
    (withEnds (pieces (max - 3) nal.length (nal.drop 2))).map fun e =>
      be 1 (b0 / 128 * 128 + 98 + b0 % 2) ++ be 1 b1 ++ be 1 (fld 7 1 (b2n e.2.1) + fld 6 1 (b2n e.2.2) + b0 / 2 % 64) ++ e.1
  else
    (withEnds (pieces (max - 3) nal.length (nal.drop 2))).map fun e =>
      be 1 b0 ++ be 1 (29 * 8 + b1 % 8) ++ be 1 (fld 7 1 (b2n e.2.1) + fld 6 1 (b2n e.2.2) + fld 5 1 (b2n (e.2.2 && final)) + b1 / 8) ++ e.1

/-- The packets of a JPEG XS slice, each behind the 4-byte payload header of RFC 9134. -/
def xsPackets (max : Nat) (r : EsRec) (bs : List Byte) : List (List Byte) :=
  (pieces (max - 4) bs.length bs).zipIdx.map fun e =>
    be 4 (fld 31 1 1 + fld 30 1 1 + fld 29 1 (b2n ((e.2 + 1) * (max - 4) ≥ bs.length)) + fld 22 5 r.j + fld 11 11 r.slice + fld 0 11 e.2) ++ e.1

/-- The packets of a record on a kind 0 flow; the marker is on the last packet of the picture. -/
def Dev.packKind0 (d : Dev) (k : Nat) (x : PktCtx) (c : Chan) (r : EsRec) (nals : List (List Byte)) : Dev :=
  let f := d.flowAt k
  let last := bitN r.flags 1
  let ps := if c.codec = 3 then nals.flatMap (xsPackets f.maxPayload r)
            else nals.zipIdx.flatMap fun e => nalPackets c.codec f.maxPayload (last && e.2 == r.heads) e.1
  let ts := f.get 0x30 4 + r.mt * 9 / 100000
  ps.zipIdx.foldl (fun e p => e.sendMedia k x (last && p.2 + 1 == ps.length) ts p.1) d

/-! ## Kinds 1 and 2: the transport stream (R403 to R407) -/

/-- TS time of packet n after M(k0), in ns. -/
def Flow.tsTime (f : Flow) (n : Nat) : Nat := n * 1504000000000 / f.tsRate

/-- Mode 1 is in use (R406). -/
def Flow.mediaPcr (f : Flow) (c : Chan) : Bool := f.get 0x27 1 == 1 || c.twin == 1

/-- The 6 bytes of a PCR: base and extension (R406). -/
def pcrBytes (v : Nat) : List Byte := be 6 (v / 300 * 2 ^ 15 + 63 * 2 ^ 9 + v % 300)

/-- The PCR of mode 0: the counter in 27 MHz units (R406). -/
def Dev.pcrNow (d : Dev) : Nat := d.media * 27 / 1000 % (2 ^ 33 * 300)

/-- A TS packet with the PCR that it carries, if any, set to a value. -/
def setPcr (v : Nat) (pkt : List Byte) : List Byte :=
  if bitN (byteAt pkt 3) 5 && 0 < byteAt pkt 4 && bitN (byteAt pkt 5) 4 then pkt.take 6 ++ pcrBytes v ++ pkt.drop 12 else pkt

/-- The UDP payload of a packet that is not padded. -/
def Packet.body (x : Packet) : List Byte := x.bytes.drop (x.bytes.length - x.udp)

/-- A packet with another UDP payload of the same length, and its checksum (R398): the sum of the old words goes out and that of the new ones comes in. -/
def Packet.withBody (x : Packet) (new : List Byte) : Packet :=
  let head := x.bytes.take (x.bytes.length - x.udp)
  let old := byteAt head (head.length - 2) * 256 + byteAt head (head.length - 1)
  { x with bytes := head.take (head.length - 2) ++ be 2 (65535 - (65535 - old + sum16 new + 65534 * sum16 x.body) % 65535) ++ new }

/-- The first packet handed over enters its queue: where its PCRs are those of mode 0 they are set now, in both its copies, and the FEC packets and the matrix that
protect it follow (R400, R406, R411, log entry 26). -/
def Dev.stampPcr (d : Dev) : Dev :=
  match d.tmIn with
  | [] => d
  | (_, x) :: _ =>
    match x.opens with
    | none => d
    | some cnt =>
      let old := x.body
      let ts := old.length - 1316
      let new := old.take ts ++ (List.range 7).flatMap fun i => setPcr d.pcrNow ((old.drop (ts + 188 * i)).take 188)
      let delta := zeros 28 ++ (xorBytes old new).drop 12
      let follow (e : Nat × Packet) : Nat × Packet :=
        if e.2.flow != x.flow then e
        else if e.2.opens == some cnt && e.2.body == old then (e.1, { e.2 with opens := none }.withBody new)
        else if e.2.covers.contains cnt then (e.1, e.2.withBody (xorBytes e.2.body delta))
        else e
      { d with tmIn := d.tmIn.map follow }.modFlowAt x.flow fun f => { f with media := f.media.map fun m => if m == old then new else m }

/-- A TS packet joins its datagram, which goes out with its seventh (R405, R407). -/
def Dev.putTs (d : Dev) (k : Nat) (x : PktCtx) (c : Chan) (pkt : List Byte) : Dev :=
  let f := d.flowAt k
  let part := f.part ++ pkt
  let d1 := d.putFlowAt k { f with tsN := f.tsN + 1, part := if part.length = 1316 then [] else part }
  if part.length = 1316 then d1.sendMedia k { x with mode0 := !f.mediaPcr c } false ((f.tsBase.getD 0 + f.tsTime (f.tsN - 6)) * 9 / 100000) part
  else d1

/-- The 4-byte header of a TS packet. -/
def tsHeader (pid cc : Nat) (start adapt payload : Bool) : List Byte :=
  [0x47] ++ be 2 (fld 14 1 (b2n start) + pid) ++ be 1 (fld 5 1 (b2n adapt) + fld 4 1 (b2n payload) + cc % 16)

/-- The PCR of packet n in mode 1 (R406); in mode 0 its queue sets it. -/
def Flow.pcrValue (f : Flow) (n : Nat) : Nat := (f.tsBase.getD 0 + f.tsTime n) * 27 / 1000 % (2 ^ 33 * 300)

/-- An adaptation field of n bytes in all, with a PCR or none. -/
def adaptation (n : Nat) (pcr : Option Nat) : List Byte :=
  if n = 0 then []
  else if n = 1 then [0]
  else
    let body := match pcr with
      | some v => [0x10] ++ pcrBytes v
      | none => [0x00]
    be 1 (n - 1) ++ body ++ List.replicate (n - 1 - body.length) 0xFF

/-- The next packet of PID_VIDEO carries a PCR: 35 ms of TS time have passed since the last one. -/
def Flow.pcrDue (f : Flow) : Bool := 35000000 * f.tsRate ≤ (f.tsN - f.lastPcr) * 1504000000000

/-- A padding packet (R405). -/
def Dev.padTs (d : Dev) (k : Nat) (x : PktCtx) (c : Chan) : Dev :=
  let f := d.flowAt k
  let pcr := if f.pcrDue then some (f.pcrValue f.tsN) else none
  let cc := f.cc.get 0 f.pidVideo
  (d.putFlowAt k { f with lastPcr := if f.pcrDue then f.tsN else f.lastPcr }).putTs k x c
    (tsHeader f.pidVideo (cc + 15) false true false ++ adaptation 184 pcr)

def Dev.padTsN (d : Dev) (k : Nat) (x : PktCtx) (c : Chan) (n : Nat) : Dev := (List.range n).foldl (fun e _ => e.padTs k x c) d

/-- A payload-bearing packet advances the continuity counter of its PID. -/
def Flow.bumpCc (f : Flow) (pid : Nat) : Flow := { f with cc := f.cc.put 0 pid ((f.cc.get 0 pid + 1) % 16) }

/-- One section in one TS packet. -/
def Dev.putSection (d : Dev) (k : Nat) (x : PktCtx) (c : Chan) (pid : Nat) (sec : List Byte) : Dev :=
  let f := d.flowAt k
  let body := [0] ++ sec
  (d.putFlowAt k (f.bumpCc pid)).putTs k x c (tsHeader pid (f.cc.get 0 pid) true false true ++ body ++ List.replicate (184 - body.length) 0xFF)

/-- A section with its CRC-32 (ISO/IEC 13818-1). -/
def withCrc (sec : List Byte) : List Byte := sec ++ be 4 (crcFeed 32 0x04C11DB7 false 0xFFFFFFFF sec)

/-- PAT and PMT (R403). -/
def Flow.pat (f : Flow) : List Byte :=
  withCrc ([0x00] ++ be 2 (0xB000 + 13) ++ be 2 (Config.headerField 0) ++ be 1 (0xC1 + Config.headerField 1 % 32 * 2) ++ [0, 0] ++ be 2 f.program ++ be 2 (0xE000 + f.pidPmt))
def Flow.pmt (f : Flow) (c : Chan) : List Byte :=
  let st := match c.codec with | 0 => 0x1B | 1 => 0x24 | 2 => 0x33 | _ => 0x32
  let cuei : List Byte := if f.pidScte = 0 then [] else [0x05, 4, 0x43, 0x55, 0x45, 0x49]
  let es := be 1 st ++ be 2 (0xE000 + f.pidVideo) ++ be 2 0xF000 ++ (if f.pidScte = 0 then [] else [0x86] ++ be 2 (0xE000 + f.pidScte) ++ be 2 0xF000)
  withCrc ([0x02] ++ be 2 (0xB000 + 13 + cuei.length + es.length) ++ be 2 f.program ++ be 1 (0xC1 + Config.headerField 1 % 32 * 2) ++ [0, 0] ++
    be 2 (0xE000 + f.pidVideo) ++ be 2 (0xF000 + cuei.length) ++ cuei ++ es)

/-- A 90 kHz time of a flow from a media time (R404). -/
def Flow.pts (f : Flow) (m : Nat) : Nat := (m + f.get 0x58 4) * 9 / 100000 % 2 ^ 33

/-- The section of a cue (R408): its splice time is the PTS of the first picture at or after the splice media time. -/
def Flow.cueSection (f : Flow) (c : Chan) (q : Cue) : List Byte :=
  let t := f.pts (c.mt (c.pictureFor q.mt + c.depthG - 1))
  let cancel := q.kind == 5
  let rest := if cancel then [] else
    be 1 (fld 7 1 (b2n (q.kind == 1 || q.kind == 2)) + 0x4F) ++ be 5 (0xFE * 2 ^ 32 + t) ++ be 2 f.program ++ [0, 0]
  let cmd := be 4 q.event ++ be 1 (fld 7 1 (b2n cancel) + 0x7F) ++ rest
  withCrc ([0xFC] ++ be 2 (0x3000 + 17 + cmd.length) ++ [0] ++ be 5 0 ++ be 1 (Config.headerField 2) ++ be 3 (0xFFF * 2 ^ 12 + cmd.length) ++ [5] ++ cmd ++ be 2 0)

/-- A PTS or DTS field of a PES header. -/
def ptsField (mark t : Nat) : List Byte := be 1 (mark * 16 + t / 2 ^ 30 * 2 + 1) ++ be 2 (t / 2 ^ 15 % 2 ^ 15 * 2 + 1) ++ be 2 (t % 2 ^ 15 * 2 + 1)

/-- The PES header of a picture (R404). -/
def Flow.pesHeader (f : Flow) (c : Chan) (r : EsRec) : List Byte :=
  let p := f.pts (c.mt (c.k0 + r.out + c.depthG - 1))
  let body := if c.depthG = 1 then [0x80, 5] ++ ptsField 2 p else [0xC0, 10] ++ ptsField 3 p ++ ptsField 1 (f.pts (c.mt (c.k0 + r.j)))
  [0x00, 0x00, 0x01, 0xE0, 0, 0, 0x84] ++ body

/-- The TS packets of a slice's bytes; the first of a PES packet starts it and carries a PCR. -/
def Dev.putPes (k : Nat) (x : PktCtx) (c : Chan) : Nat → Bool → List Byte → Dev → Dev
  | 0, _, _, d => d
  | fuel + 1, start, bs, d =>
    if bs.isEmpty then d
    else
      let f := d.flowAt k
      let hasPcr := start || f.pcrDue
      let pcr := if hasPcr then some (f.pcrValue f.tsN) else none
      let n := min bs.length (184 - (if hasPcr then 8 else 0))
      let pkt := tsHeader f.pidVideo (f.cc.get 0 f.pidVideo) start (n != 184) true ++ adaptation (184 - n) pcr ++ bs.take n
      Dev.putPes k x c fuel false (bs.drop n)
        ((d.putFlowAt k { f.bumpCc f.pidVideo with lastPcr := if hasPcr then f.tsN else f.lastPcr }).putTs k x c pkt)

/-- In coding order the picture for media time t has come by the picture of media time m: it is that picture, or packets of it have been built. -/
def Chan.reached (c : Chan) (t m : Nat) : Bool := m == c.mt (c.pictureFor t) || c.packed t

/-- The cues that go before a PES, those from capture first: new ones whose picture has come, and after a PAT and PMT those sent before (R409). -/
def cuesDue (c : Chan) (cs : List Cue) (m : Nat) (psi : Bool) : List Cue :=
  let due := cs.filter fun q => if q.sent then psi else c.reached q.first m
  (due.filter fun q => !q.own) ++ due.filter (·.own)

/-- The cues after a picture of media time m: one is kept until the picture with its splice time has been sent; a cancel is sent once. -/
def cuesAfter (c : Chan) (cs : List Cue) (m : Nat) : List Cue :=
  (cs.map fun q => if c.reached q.first m then { q with sent := true } else q).filter fun q => !(q.sent && (q.kind == 5 || c.reached q.mt m))

/-- What precedes the PES of a picture (R403, R409). -/
def Dev.startPes (d : Dev) (k : Nat) (x : PktCtx) (c : Chan) (r : EsRec) : Dev :=
  let f := d.flowAt k
  let psi := bitN r.flags 2 || r.j % f.get 0x46 2 == 0
  let d1 := if psi then (d.putSection k x c 0 f.pat).putSection k x c f.pidPmt (f.pmt c) else d
  let cs := cuesDue c f.pending r.mt psi
  let d2 := cs.foldl (fun e q => e.putSection k x c f.pidScte (f.cueSection c q)) d1
  d2.modFlowAt k fun g => { g with cues := (g.cues + cs.length) % 2 ^ 32, pending := cuesAfter c g.pending r.mt }

/-- A record on a kind 1 or 2 flow. A NAL unit goes behind a start code; JPEG XS bytes go as they are. -/
def Dev.packTs (d : Dev) (k : Nat) (x : PktCtx) (c : Chan) (r : EsRec) (nals : List (List Byte)) : Dev :=
  let first := bitN r.flags 0
  let d1 := if first then d.startPes k x c r else d
  let f := d1.flowAt k
  let es := nals.flatMap fun b => (if c.codec = 3 then [] else [0, 0, 0, 1]) ++ b
  let bytes := (if first then f.pesHeader c r else []) ++ es
  let d2 := Dev.putPes k x c bytes.length first bytes d1
  let d3 := d2.padTsN k x c ((7 - (d2.flowAt k).tsN % 7) % 7)
  if bitN r.flags 1 then
    d3.padTsN k { x with pad := true } c (ceilDiv ((c.mt (c.k0 + r.j + 1) - c.mt c.k0) * f.tsRate) 1504000000000 - (d3.flowAt k).tsN)
  else d3

/-! ## Records (R397, R402, R410) -/

/-- The NAL units of a record, read from the ring behind their length prefixes. -/
def Dev.recordNals (d : Dev) (c : Chan) (r : EsRec) : List (List Byte) :=
  (r.nals.foldl (fun (acc : Nat × List (List Byte)) n => (acc.1 + 4 + n, acc.2 ++ [d.memRead (c.esAddr + r.at_ + acc.1 + 4) n])) (32, [])).2

/-- SPLICEs take effect at a picture of which no packet is built yet (R410): the first in coding order whose media time is at or after theirs (log entry 52). -/
def Dev.spliceDue (d : Dev) (k m : Nat) : Dev :=
  d.applyDue 6 3 k m fun e p =>
    e.modFlowAt k fun f => { f with pending := f.pending ++ [{ kind := p.d.get 0x22 1, event := p.d.get 0x24 4, mt := p.d.get 0x28 8, first := m, own := true }] }

/-- A flow as the first packet of a run of its channel finds it (R405). -/
def Flow.rebase (f : Flow) (base : Nat) : Flow :=
  if f.tsBase = some base then f else { f with tsBase := some base, tsN := 0, part := [], lastPcr := 0 }

/-- The oldest record that waits is packetised, and its space is free (R397, R402, R413). -/
def Dev.packetise (d : Dev) (n : Nat) : Dev :=
  let c := d.channel n
  match c.records with
  | [] => d
  | r :: rest =>
    let k := c.flow
    let d0 := d.putChannel n { c with records := rest }
    if !d.bound n k then d0
    else
      let d1 := if r.lost then d0.raise 37 else d0
      let d2 := if bitN r.flags 0 then (d1.spliceDue k r.mt).modFlowAt k fun f => { f with pktIdx := 0 } else d1
      let d3 := d2.modFlowAt k fun f => f.rebase (c.mt c.k0)
      let x : PktCtx := { mt := r.mt, num := c.num, den := c.den, muted := r.muted, lost := r.lost }
      if (d3.flowAt k).kind = 0 then d3.packKind0 k x c r (d3.recordNals c r) else d3.packTs k x c r (d3.recordNals c r)

/-- The first audio packet of a flow is due on the cadence clock (R412, R462). -/
def Dev.forwardAudio (d : Dev) (k : Nat) : Dev :=
  let f := d.flowAt k
  match f.audio with
  | (m, bs) :: rest =>
    if f.kind = 3 && m + f.get 0x5C 4 ≤ d.cadence then
      (d.putFlowAt k { f with audio := rest, count := (f.count + 1) % 2 ^ 64 }).sendPacket k { mt := m } false 0 bs
    else d
  | [] => d

/-! ## The PKG unit (R415, R416) -/

/-- CONFIGURE: it names the flow, if that is configured, its queues, and for kind 3 the port on which it receives (R91). -/
def pkgConfigureSpec (d : Dev) (x : Desc) : OpSpec :=
  { len := 0x100, eff0 := true, rsv := [(0xA9, 7), (0xC0, 64)], idx := [(x.get 0x20 2, 4096), (x.get 0x34 2, 8192)],
    own := (1, x.get 0x34 2) :: (if x.get 0x36 2 < 8192 then [(1, x.get 0x36 2)] else []) ++ d.flowObject (x.get 0x20 2) ++
      (if x.get 0x22 1 = 3 && x.get 0xA8 1 < 128 then [(2, x.get 0xA8 1)] else [])
    mem := [⟨x.get 0x38 8, max 1 (x.get 0x40 4), true, true⟩] }

def pkgReleaseSpec (d : Dev) (x : Desc) : OpSpec := { eff0 := true, rsv := [(0x22, 30)], idx := [(x.get 0x20 2, 4096)], own := d.flowObject (x.get 0x20 2) }

/-- A twinned channel is bound to the flow. -/
def Dev.twinnedFlow (d : Dev) (k : Nat) : Bool := match d.carried k with | some n => d.twinnedChannel n | none => false

def pkgSpliceSpec (d : Dev) (x : Desc) : OpSpec :=
  { rsv := [(0x23, 1), (0x30, 16)], idx := [(x.get 0x20 2, 4096)], own := d.flowObject (x.get 0x20 2), obj := x.get 0x20 2 }

/-- A VLAN field (Table 13.6). -/
def vlanOk (v : Nat) : Bool := v == 0xFFFF || (1 ≤ v % 4096 && v % 4096 ≤ 4094 && !bitN v 12)

/-- A field breaks Table 13.6. -/
def pkgBadField (x : Desc) : Bool :=
  let g := x.get
  let k := g 0x22 1
  let rtp := k == 0 || k == 1
  let ts := k == 1 || k == 2
  let fec := g 0x23 1
  let two := g 0x36 2 != 0xFFFF
  let pid (v : Nat) : Bool := 0x20 ≤ v && v ≤ 0x1FFE
  let src := (x.bytes.drop 0x60).take 16
  let dst (o : Nat) : List Byte := (x.bytes.drop o).take 16
  let unused (used : Bool) (o n : Nat) : Bool := !used && !zeroBytes x.bytes o n
  k > 3 || fec > 2 || (fec != 0 && k != 1) || g 0x24 1 > 63 || g 0x25 1 = 0 ||
    (match k with | 0 => g 0x26 1 < 96 || 127 < g 0x26 1 | 1 => g 0x26 1 != 33 | _ => g 0x26 1 != 0) || g 0x27 1 > 1 || unused ts 0x27 1 ||
    unused rtp 0x28 6 || (if k = 0 then g 0x2E 2 < 256 || 8900 < g 0x2E 2 else g 0x2E 2 != 0) || unused (k == 0) 0x30 4 || (two && 8191 < g 0x36 2) ||
    g 0x38 8 % 4096 != 0 || g 0x40 4 % 65536 != 0 || g 0x40 4 < 262144 || 67108864 < g 0x40 4 ||
    (if fec = 0 then g 0x44 2 != 0 else g 0x44 1 = 0 || 20 < g 0x44 1 || g 0x45 1 < 4 || 20 < g 0x45 1 || 100 < g 0x44 1 * g 0x45 1) ||
    (if ts then g 0x46 2 = 0 || 1000 < g 0x46 2 || g 0x48 8 < 1000000 || 2000000000 < g 0x48 8 || !pid (g 0x50 2) || !pid (g 0x52 2) ||
        !(g 0x54 2 == 0 || pid (g 0x54 2)) || g 0x50 2 == g 0x52 2 || g 0x50 2 == g 0x54 2 || g 0x56 2 = 0 || 1000000000 < g 0x58 4
     else !zeroBytes x.bytes 0x46 22) ||
    (if k = 3 then 1000000000 < g 0x5C 4 || 127 < g 0xA8 1 else g 0x5C 4 != 0 || g 0x96 2 != 0 || g 0xA8 1 != 0 || !zeroBytes x.bytes 0xB0 16) ||
    isV4 src != isV4 (dst 0x70) || (if two then !vlanOk (g 0xA6 2) else !zeroBytes x.bytes 0x80 16) || !vlanOk (g 0xA4 2)

/-- CONFIGURE (R416): counts start at 0. -/
def Dev.pkgConfigure (d : Dev) (x : Desc) : Dev :=
  let k := x.get 0x20 2
  let f := d.flowAt k
  d.checked x [(f.configured, stBusy), (pkgBadField x, stBadDesc), (x.get 0x22 1 == 3 && 256 ≤ (d.flow.filter fun e => e.2.configured && e.2.kind == 3).length, stCapacity)]
    (((d.putFlowAt k { cfg := x.bytes }).cutTaps 2 k).complete x stOK 0)

/-- RELEASE (R416). What the flow's queues hold still leaves. -/
def Dev.pkgRelease (d : Dev) (x : Desc) : Dev :=
  let k := x.get 0x20 2
  d.checked x [(d.chan.any fun e => (e.2.st == .running || e.2.st == .stopping) && e.2.flow == k, stBusy)]
    (((d.abortPend fun p => p.unit == 6 && p.obj == k).putFlowAt k { unbound := (d.flowAt k).unbound }).complete x stOK 0)

/-- SPLICE (R410, R416): its twin checks come after its own. -/
def Dev.pkgSplice (d : Dev) (x : Desc) : Dev :=
  let k := x.get 0x20 2
  let f := d.flowAt k
  let run := match d.carried k with | some n => (d.channel n).st == .running | none => false
  let t := x.get 0x22 1
  let c := d.channel ((d.carried k).getD 0)
  let tw := if d.twinnedFlow k then d.twinCheck x k else none
  d.checked x [(!((f.kind == 1 || f.kind == 2) && f.pidScte != 0 && run), stBusy),
      (!(t == 1 || t == 3 || t == 5) || x.get 0x28 8 < x.eff, stBadDesc), (tw.isSome, tw.getD 0)]
    (d.holdPend x k c.packed c.packAhead (d.twinnedFlow k))

/-! ## Registers (Table 13.7) -/

/-- A read of the PKG block. -/
def Dev.readPkg (d : Dev) (off : Nat) : Nat :=
  let f := d.flowAt d.pkgSel
  match off with
  | 0x00 => d.pkgSel
  | 0x04 =>
    let st := if !f.configured then 0 else if f.kind = 3 then 3 else if (d.carried d.pkgSel).isSome then 2 else 1
    let c := d.channel ((d.carried d.pkgSel).getD 0)
    st + (if f.configured then fld 2 2 f.kind else 0) +
      fld 4 1 (b2n ((f.kind == 1 || f.kind == 2) && (f.get 0x27 1 == 1 || (st == 2 && c.twin == 1)))) + fld 16 9 ((d.carried d.pkgSel).getD 0)
  | 0x08 => f.pkts
  | 0x0C => f.muted + fld 16 16 f.overflow
  | 0x10 => f.cues
  | 0x14 => f.unbound
  | _ => 0

/-- A write of the PKG block (R419). -/
def Dev.writePkg (d : Dev) (who : Requester) (off : Nat) (v : Word) : Dev :=
  if isPf who && off == 0 then { d with pkgSel := bits v.toNat 0 12 } else d

/-! ## Meanings -/

/-- PKG_CONFIGURE (R416). -/
def execPkgConfigure (s : State) : Host.Outcome State Fault Refusal := ok s (s.dev.runUnit 6 1 pkgConfigureSpec Dev.pkgConfigure)

/-- PKG_RELEASE (R416). -/
def execPkgRelease (s : State) : Host.Outcome State Fault Refusal := ok s (s.dev.runUnit 6 2 pkgReleaseSpec Dev.pkgRelease)

/-- PKG_SPLICE (R416). -/
def execPkgSplice (s : State) : Host.Outcome State Fault Refusal := ok s (s.dev.runUnit 6 3 pkgSpliceSpec Dev.pkgSplice)

/-- ES_RECORD_PACKETISE (R402). -/
def execEsRecordPacketise (ch : Fin 512) (s : State) : Host.Outcome State Fault Refusal := ok s (s.dev.packetise ch)

/-- AUDIO_FORWARD_DUE (R412). -/
def execAudioForwardDue (f : Fin 4096) (s : State) : Host.Outcome State Fault Refusal := ok s (s.dev.forwardAudio f)

end Sys2Proof.Machine
end

