-- ==== Sys2Proof/Machine/Traffic.lean ====
section
/-! DEFINITION. Traffic management: policers, egress queues, shapers, fair queueing, class service, gates and pacing (chapter 14). -/

namespace Sys2Proof.Machine

/-! ## Ports and their lane groups (R420, R423, Table 16.2) -/

def Group.get (g : Group) (o n : Nat) : Nat := fieldLE g.cfg o n

/-- The Ethernet group of a port. -/
def Dev.portGroup (d : Dev) (p : Nat) : Option Group := (d.group.find? fun e => e.2.proto == 1 && e.2.get 0x24 1 == p).map (·.2)

/-- A port is up while its lane group is ACTIVE. -/
def Dev.portUp (d : Dev) (p : Nat) : Bool := match d.portGroup p with | some g => g.stage == .active | none => false

/-- The MAC rate of a port in Mb/s. -/
def Dev.portMbps (d : Dev) (p : Nat) : Nat :=
  match d.portGroup p with
  | some g => (match g.get 0x28 4 with | 10312500 => 10000 | 25781250 => 25000 | 53125000 => 50000 | _ => 100000) * g.width
  | none => 0

/-- Time that n bytes take at a port, in ns, rounded up. -/
def wireNs (mbps n : Nat) : Nat := ceilDiv (n * 8000) mbps

/-- A port going down, or HALT, discards what its queues hold (R423). -/
def Dev.discardPort (d : Dev) (p : Nat) : Dev := d.discardQueues fun q => !q.cfg.isEmpty && q.port == p

/-! ## Rates and buckets (R426, R427, R435) -/

/-- A rate field as bit/s, and whether it is a rate that the device takes. -/
def rateOf (v : Nat) : Nat := v % 4096 * 2 ^ bits v 12 6
def rateOk (v : Nat) : Bool := v < 2 ^ 18 && rateOf v ≤ 1000000000000

/-- n bytes in the unit of a bucket, in which a gain is exact: 1 bit/s brings one unit in 1 ns. -/
def tokenBytes (n : Nat) : Int := ((n * 8000000000 : Nat) : Int)

/-- What a rate brings between two moments of the time base, which tokens follow directly, steps included (R427, R462). -/
def tokenGain (rate a t : Nat) : Int := rateOf rate * ((t : Int) - a)

/-- What a bucket holds at a media time. -/
def Bucket.now (b : Bucket) (rate cap t : Nat) : Int := min (tokenBytes cap) (b.level + tokenGain rate b.at_ t)

/-- The bucket with n bytes taken out. -/
def Bucket.take (b : Bucket) (rate cap t n : Nat) : Bucket := ⟨b.now rate cap t - tokenBytes n, t⟩

/-- A full bucket. -/
def fullBucket (cap t : Nat) : Bucket := ⟨tokenBytes cap, t⟩

/-- A shaper change (R437): debt stays, a positive count falls to the new burst, a shaper that was disabled starts full. -/
def reshape (b : Bucket) (rate cap cap' t : Nat) (clear : Bool) : Bucket :=
  if rate = 0 then fullBucket cap' t
  else
    let x := b.now rate cap t
    ⟨if x < 0 then (if clear then 0 else x) else min x (tokenBytes cap'), t⟩

/-! ## Queues and classes -/

def Queue.cls (q : Queue) : Nat := q.get 0x23 1
def Queue.paced (q : Queue) : Bool := q.get 0x26 1 == 1
def Queue.limit (q : Queue) : Nat := q.get 0x30 4
def Queue.bytes (q : Queue) : Nat := (q.pkts.map (·.frame)).sum
def Queue.configured (q : Queue) : Bool := !q.cfg.isEmpty

def TmPort.class_ (p : TmPort) (c : Nat) : PortClass := p.classes.get {} c
def TmPort.putClass (p : TmPort) (c : Nat) (x : PortClass) : TmPort := { p with classes := p.classes.put {} c x }

/-- Counted length of a frame on a port (R424). -/
def TmPort.counted (p : TmPort) (frame : Nat) : Nat := ((frame : Int) + p.overhead).toNat

/-- The finish tag of a head packet (R438). -/
def Queue.finish (q : Queue) (p : TmPort) (s : Nat) (x : Packet) : Nat := (s + p.counted x.frame * 4096 / max q.weight 1) % 2 ^ 64

/-- The pacing slot of a packet (R446). -/
def Queue.slotTime (q : Queue) (x : Packet) : Nat :=
  x.mt + q.get 0x38 4 + (if x.num = 0 then 0 else x.idx * 1000000000 * x.den / (x.num * q.get 0x34 2))

/-- A shaper allows a start (R436). -/
def shaperOpen (b : Bucket) (rate cap t : Nat) : Bool := rate == 0 || 0 ≤ b.now rate cap t

/-- A queue is ready (R438); pacing slots follow the cadence clock (R462). -/
def Dev.queueReady (d : Dev) (q : Queue) : Bool :=
  match q.pkts with
  | x :: _ => shaperOpen q.tok q.rate q.burst d.media && (!q.paced || q.slotTime x ≤ d.cadence)
  | [] => false

/-- The queues of a class of a port that hold a packet. -/
def Dev.busyQueues (d : Dev) (p c : Nat) : List (Nat × Queue) :=
  d.queue.filter fun e => e.2.configured && e.2.port == p && e.2.cls == c && !e.2.pkts.isEmpty

/-- The queue that WF2Q+ serves, with the virtual time that R438 step 1 leaves. -/
def Dev.wf2qPeek (d : Dev) (p c : Nat) : Option (Nat × Queue × Nat) :=
  let v := ((d.portAt p).class_ c).v
  let rs := (d.busyQueues p c).filter fun e => d.queueReady e.2
  match rs with
  | [] => none
  | r :: rest =>
    let low := rest.foldl (fun m e => min m e.2.s) r.2.s
    let v1 := if rs.any fun e => e.2.s ≤ v then v else low
    (rs.filter fun e => e.2.s ≤ v1).foldl (fun (b : Option (Nat × Queue × Nat)) e =>
      match b with
      | some x => if e.2.f < x.2.1.f then some (e.1, e.2, v1) else b
      | none => some (e.1, e.2, v1)) none

/-- The gate of a class is open for a frame until its transmission ends (R443). -/
def Dev.gateOpen (d : Dev) (p c frame : Nat) : Bool :=
  let q := d.portAt p
  bitN (q.maskAt d.media) c && (match q.closesAt c d.media with | some e => decide (d.media + wireNs (d.portMbps p) (frame + 20) ≤ e) | none => true)

/-- The class is eligible, with the queue it would serve (R440). -/
def Dev.classPick (d : Dev) (p c : Nat) : Option (Nat × Queue × Nat) :=
  let k := (d.portAt p).class_ c
  if !shaperOpen k.tok k.rate k.burst d.media then none
  else match d.wf2qPeek p c with
    | some (n, q, v) => match q.pkts with
      | x :: _ => if d.gateOpen p c x.frame then some (n, q, v) else none
      | [] => none
    | none => none

/-- The head of a queue leaves it: the next head takes its tags (R438, R439). -/
def Dev.popQueue (d : Dev) (n : Nat) : Dev :=
  let q := d.queueAt n
  let rest := q.pkts.drop 1
  let p := d.portAt q.port
  d.putQueueAt n { q with pkts := rest, s := q.f, f := match rest with | y :: _ => q.finish p q.f y | [] => q.f }

/-- Heads whose transmission no opening of their class can hold are dropped (R443). -/
def Dev.dropLong (p : Nat) : Nat → Dev → Dev
  | 0, d => d
  | fuel + 1, d =>
    let long (q : Queue) : Bool :=
      match q.pkts, (d.portAt p).oper with
      | x :: _, some g => q.configured && q.port == p && (match g.longest q.cls with | some w => decide (w < wireNs (d.portMbps p) (x.frame + 20)) | none => false)
      | _, _ => false
    match d.queue.find? fun e => long e.2 with
    | some (n, q) => Dev.dropLong p fuel (((d.popQueue n).modQueueAt n fun y => { y with drops := satAdd 32 y.drops 1 }).freePkts (q.pkts.take 1) |>.raise 39)
    | none => d

/-- A packet starts (R436, R438, R446): shapers are charged, tags move, the MAC is busy for its wire time. -/
def Dev.startPacket (d : Dev) (p c n v : Nat) : Dev :=
  let q := d.queueAt n
  match q.pkts with
  | [] => d
  | x :: _ =>
    let t := d.media
    let port := d.portAt p
    let k := port.class_ c
    let len := port.counted x.frame
    let w := ((d.busyQueues p c).map fun e => e.2.weight).sum
    let k1 := { k with v := (v + len * 4096 / max w 1) % 2 ^ 64, tok := if k.rate = 0 then k.tok else k.tok.take k.rate k.burst t len }
    let late := q.paced && q.slotTime x + 1000 < d.cadence
    let d1 := d.putPortAt p { port.putClass c k1 with tx := some (x, t + wireNs (d.portMbps p) (x.frame + 20)) }
    (d1.putQueueAt n { q with tok := if q.rate = 0 then q.tok else q.tok.take q.rate q.burst t len, late := if late then satAdd 16 q.late 1 else q.late }).popQueue n

/-- The deficit round robin of R440 over at most k visits, and the start of the packet that it serves, if any; a class that empties keeps no deficit. -/
def Dev.drr (p : Nat) : Nat → Dev → Dev
  | 0, d => d
  | k + 1, d =>
    let port := d.portAt p
    let c := port.drr
    let cl := port.class_ c
    let go (cl : PortClass) : Dev := d.putPortAt p { port.putClass c cl with drr := (c + 1) % 8, fresh := true }
    match if bitN port.strict c then none else d.classPick p c with
    | none => Dev.drr p k (go (if (d.busyQueues p c).isEmpty then { cl with deficit := 0 } else cl))
    | some (n, q, v) =>
      let def1 := cl.deficit + (if port.fresh then cl.weight * 256 else 0)
      let len := match q.pkts with | x :: _ => port.counted x.frame | [] => 0
      if len ≤ def1 then
        let d1 := (d.putPortAt p { port.putClass c { cl with deficit := def1 - len } with fresh := false }).startPacket p c n v
        if (d1.busyQueues p c).isEmpty then d1.modPortAt p fun k => k.putClass c { k.class_ c with deficit := 0 } else d1
      else Dev.drr p k (go { cl with deficit := def1 })

/-- The highest strict class that is eligible. -/
def Dev.strictPick (d : Dev) (p : Nat) : Option (Nat × Nat × Nat) :=
  ((List.range 8).reverse.filterMap fun c =>
    if bitN (d.portAt p).strict c then (d.classPick p c).map fun e => (c, e.1, e.2.2) else none).head?

/-- One decision of a port whose MAC is free (R440). -/
def Dev.schedule (d : Dev) (p : Nat) : Dev :=
  if (d.portAt p).tx.isSome || !d.portUp p || d.halted then d
  else
    let d1 := Dev.dropLong p (d.queue.map fun e => e.2.pkts.length).sum d
    match d1.strictPick p with
    | some (c, n, v) => d1.startPacket p c n v
    | none => Dev.drr p 8 d1

/-- The packet first handed over enters its queue (R422, R423, R439, R446); a class that was empty, however it emptied, has no deficit (R440). -/
def Dev.enqueue (d : Dev) : Dev :=
  match d.tmIn with
  | [] => d
  | (n, x) :: rest =>
    let d0 := { d with tmIn := rest }
    let q := d0.queueAt n
    let drop : Dev := (d0.putQueueAt n { q with drops := satAdd 32 q.drops 1 }).freePkts [x]
    if !q.configured then drop.raise 39
    else if d0.halted || !d0.portUp q.port then drop
    else if q.limit < q.bytes + x.frame then drop.raise 39
    else
      let p := d0.portAt q.port
      let v := (p.class_ q.cls).v
      let over1 := if q.paced && q.get 0x34 2 ≤ x.idx then satAdd 16 q.over_ 1 else q.over_
      let d1 := if (d0.busyQueues q.port q.cls).isEmpty then d0.putPortAt q.port (p.putClass q.cls { p.class_ q.cls with deficit := 0 }) else d0
      if q.pkts.isEmpty then d1.putQueueAt n { q with pkts := [x], s := v, f := q.finish p v x, over_ := over1 }
      else d0.putQueueAt n { q with pkts := q.pkts ++ [x], over_ := over1 }

/-- Classes and overhead of a PORT descriptor (Table 14.5) take effect; SHAPEs that wait for a class of the port are aborted (R164). -/
def Dev.applyPort (d : Dev) (x : Desc) : Dev :=
  let d1 := d.abortPend fun p => p.unit == 7 && p.op == 2 && p.obj == x.get 0x20 1 && p.d.get 0x20 1 == 1
  (d1.cutTaps 3 (x.get 0x20 1)).modPortAt (x.get 0x20 1) fun p =>
    (List.range 8).foldl (fun (p : TmPort) c =>
      let k := p.class_ c
      let rate := if rateOf (x.get (0x38 + 8 * c) 4) = 0 then 0 else x.get (0x38 + 8 * c) 4
      let burst := x.get (0x3C + 8 * c) 4
      p.putClass c { k with weight := x.get (0x24 + 2 * c) 2, rate := rate, burst := burst, tok := reshape k.tok k.rate k.burst burst d.media false })
      { p with set := true, overhead := toSigned 8 (x.get 0x21 1), strict := x.get 0x22 1 }

/-- The tap event of a frame that a port has sent (R609). -/
def Packet.tap (x : Packet) (p : Nat) : TapEvent := ⟨64 ≤ p, p, x.flow, x.copyB, x.fec, x.udp⟩

/-- A frame ends (R440, R448, R562, R609): its flow's tap event goes out, its buffer space is free, and a PORT that waits takes effect. -/
def Dev.txDone (d : Dev) (p : Nat) : Dev :=
  let port := d.portAt p
  match port.tx with
  | none => d
  | some (x, e) =>
    if d.media < e then d
    else
      let fcs := toLE 4 (crcResult 32 true 0xFFFFFFFF (crcFeed 32 0x04C11DB7 true 0xFFFFFFFF x.bytes))
      let d1 := (((d.putPortAt p { port with tx := none }).freePkts [x]).tapUnit 3 p none x.bytes false).emit (.egress p (x.bytes ++ fcs))
      { d1 with prl := { d1.prl with taps := d1.prl.taps ++ [x.tap p] } }.applyDue 7 3 p 0 fun e q => e.applyPort q.d

/-- A paced packet's slot has come: an idle port serves it (R446). -/
def Dev.paceSlot (d : Dev) (n : Nat) : Dev :=
  let q := d.queueAt n
  match q.pkts with
  | x :: _ => if q.paced && q.slotTime x ≤ d.cadence then d.schedule q.port else d
  | [] => d

/-- A shaper's count has risen to 0: an idle port serves what it held (R436). -/
def Dev.shaperZero (d : Dev) (isClass : Bool) (i c : Nat) : Dev :=
  if isClass then
    let k := (d.portAt i).class_ c
    if k.rate != 0 && 0 ≤ k.tok.now k.rate k.burst d.media then d.schedule i else d
  else
    let q := d.queueAt i
    if q.configured && q.rate != 0 && 0 ≤ q.tok.now q.rate q.burst d.media then d.schedule q.port else d

/-! ## Gates (R441, R444, R445) -/

/-- The administrative list becomes operational. -/
def Dev.gateStart (d : Dev) (p : Nat) : Dev :=
  let port := d.portAt p
  match port.admin with
  | none => d
  | some (g, x) =>
    if d.media < g.start then d
    else
      let d1 := d.putPortAt p { port with oper := some g, admin := none, gateMask := g.maskAt d.media }
      (if g.n = 0 then d1 else d1.raise 40).complete x (if g.n = 0 then stOK else stLate) g.start

/-- The gates follow the list to the present time; an idle port serves what they open. -/
def Dev.gateEntry (d : Dev) (p : Nat) : Dev :=
  let port := d.portAt p
  let m := port.maskAt d.media
  if m = port.gateMask then d else (d.putPortAt p { port with gateMask := m }).schedule p

/-! ## Policers (R428 to R433) -/

def Policer.get (x : Policer) (o n : Nat) : Nat := fieldLE x.cfg o n
def Policer.port (x : Policer) : Nat := x.get 0x22 1

/-- The policer of a frame. -/
def Dev.policerOf (d : Dev) (p : Nat) (f : InFrame) : Option Nat :=
  match d.pol.find? fun e => !e.2.cfg.isEmpty && e.2.port == p && e.2.get 0x2B 1 == 1 && f.isIp && e.2.get 0x40 16 == f.dst && e.2.get 0x2C 2 == f.udp with
  | some e => some e.1
  | none => (d.pol.find? fun e => !e.2.cfg.isEmpty && e.2.port == p && e.2.get 0x2B 1 == 0).map (·.1)

/-- Both buckets of a policer at a time: with MODE 0 tokens go to C until it is full, then to E. -/
def Policer.fill (x : Policer) (t : Nat) : Policer :=
  let cbs := tokenBytes (x.get 0x34 4)
  let ebs := tokenBytes (x.get 0x3C 4)
  let c := x.c.level + tokenGain (x.get 0x30 4) x.c.at_ t
  if x.get 0x23 1 = 0 then { x with c := ⟨min cbs c, t⟩, e := ⟨min ebs (x.e.level + max 0 (c - cbs)), t⟩ }
  else { x with c := ⟨min cbs c, t⟩, e := ⟨min ebs (x.e.level + tokenGain (x.get 0x38 4) x.e.at_ t), t⟩ }

/-- The pre-colour of a frame: 0 green, 1 yellow, 2 red (R431). -/
def Policer.preColour (x : Policer) (f : InFrame) : Nat :=
  if x.get 0x24 1 = 0 || !f.isIp then 0 else min 2 (bits (x.get 0x50 16) (2 * (f.dscp % 64)) 2)

/-- The colour of a frame and the policer after it (R429, R430). -/
def Policer.mark (x : Policer) (pre len : Nat) : Nat × Policer :=
  let b := tokenBytes len
  let subC : Policer := { x with c := { x.c with level := x.c.level - b } }
  let subE : Policer := { x with e := { x.e with level := x.e.level - b } }
  if x.get 0x23 1 = 0 then
    if pre = 2 then (2, x)
    else if pre = 0 && b ≤ x.c.level then (0, subC)
    else if b ≤ x.e.level then (1, subE)
    else (2, x)
  else
    if pre = 2 || x.e.level < b then (2, x)
    else if pre = 1 || x.c.level < b then (1, subE)
    else (0, { subE with c := subC.c })

/-- The IPv4 header checksum after a change of the DSCP (R432). -/
def remark (check old new : Nat) : Nat :=
  let s := 65535 - check + (65535 + 4 * new - 4 * (old % 64))
  let t := s % 65536 + s / 65536
  65535 - (t % 65536 + t / 65536)

/-- The address by which units know a frame; one without an IP header has none. -/
def frameAddr (p : Nat) (f : InFrame) : NetAddr := if f.isIp then ⟨p, f.dst, f.udp⟩ else ⟨p, 0, 0⟩

/-- A frame is received (R428, R432, R481): what becomes of it (0 dropped, 1 passed, 2 passed with a new DSCP) is reported with its DSCP, and
with the new checksum of an IPv4 header. -/
def Dev.ingress (d : Dev) (p : Nat) (f : InFrame) : Dev :=
  if !d.portUp p || !f.fcsOk || 9216 < f.bytes then (d.emit (.notice "INGRESS" p 0 f.dscp)).dropFrame (frameAddr p f)
  else match d.policerOf p f with
    | none => d.emit (.notice "INGRESS" p 1 f.dscp)
    | some n =>
      let x := (d.policer n).fill d.media
      let (col, y) := x.mark (x.preColour f) ((d.portAt p).counted f.bytes)
      let act := y.get (0x25 + col) 1
      let cnt := bitN act 2
      let y1 := if !cnt then y else match col with
        | 0 => { y with green := (y.green + 1) % 2 ^ 32 }
        | 1 => { y with yellow := (y.yellow + 1) % 2 ^ 32 }
        | _ => { y with red := (y.red + 1) % 2 ^ 32 }
      let d1 := d.putPolicer n y1
      match act % 4 with
      | 0 => d1.emit (.notice "INGRESS" p 1 f.dscp)
      | 1 =>
        let dscp := y.get (0x28 + col) 1
        let d2 := d1.emit (.notice "INGRESS" p (if f.isIp then 2 else 1) (if f.isIp then dscp else f.dscp))
        if f.isIp && f.v4 then d2.emit (.notice "INGRESS_CHECKSUM" p (remark f.check f.dscp dscp) dscp) else d2
      | _ => ((if col = 2 then d1.raise 38 else d1).emit (.notice "INGRESS" p 0 f.dscp)).dropFrame (frameAddr p f)

/-! ## The TM unit (R448, R449) -/

def tmQueueSpec (_ : Dev) (x : Desc) : OpSpec :=
  { len := 0x80, eff0 := true, rsv := [(0x27, 1), (0x36, 2), (0x3C, 68)], idx := [(x.get 0x20 2, 8192), (x.get 0x22 1, 128)],
    own := [(1, x.get 0x20 2), (2, x.get 0x22 1)] }
def tmShapeSpec (_ : Dev) (x : Desc) : OpSpec :=
  let cls := x.get 0x20 1 == 1
  { rsv := [(0x25, 1), (0x30, 16)], idx := [(x.get 0x22 2, if cls then 128 else 8192)], own := [(if cls then 2 else 1, x.get 0x22 2)] }
def tmPortSpec (_ : Dev) (x : Desc) : OpSpec :=
  { len := 0x80, eff0 := true, rsv := [(0x23, 1), (0x34, 4), (0x78, 8)], idx := [(x.get 0x20 1, 128)], own := [(2, x.get 0x20 1)] }
def tmGateSpec (_ : Dev) (x : Desc) : OpSpec :=
  { eff0 := true, rsv := [(0x21, 1), (0x24, 4), (0x34, 4)], idx := [(x.get 0x20 1, 128)], own := [(2, x.get 0x20 1)],
    mem := if x.get 0x22 2 = 0 then optArea (x.get 0x38 8) 1 true false else [⟨x.get 0x38 8, x.get 0x22 2 * 8, true, false⟩] }
/-- A policer belongs to its port's owner; one that is configured already, to that of the port it has. -/
def Dev.policerOwner (d : Dev) (n : Nat) : List (Nat × Nat) := if (d.policer n).cfg.isEmpty then [] else [(2, (d.policer n).port)]
def tmPolicerSpec (d : Dev) (x : Desc) : OpSpec :=
  { len := 0x80, eff0 := true, rsv := [(0x2F, 1), (0x60, 32)], idx := [(x.get 0x20 2, 4096), (x.get 0x22 1, 128)],
    own := (2, x.get 0x22 1) :: d.policerOwner (x.get 0x20 2) }
def tmReleaseSpec (d : Dev) (x : Desc) : OpSpec :=
  let pol := x.get 0x20 1 == 1
  { eff0 := true, rsv := [(0x21, 1), (0x24, 28)], idx := [(x.get 0x22 2, if pol then 4096 else 8192)],
    own := if pol then d.policerOwner (x.get 0x22 2) else [(1, x.get 0x22 2)] }

/-- A shaper's rate and burst are within Table 14.3. -/
def shaperOk (rate burst : Nat) : Bool := rateOk rate && (if rateOf rate = 0 then burst == 0 else 1536 ≤ burst && burst ≤ 16777216)

/-- QUEUE: a queue's shaper starts full, and what waits for it is aborted (R164, R449). -/
def Dev.tmQueue (d : Dev) (x : Desc) : Dev :=
  let n := x.get 0x20 2
  let q := d.queueAt n
  let paced := x.get 0x26 1 == 1
  let bad := x.get 0x23 1 > 7 || x.get 0x24 2 = 0 || x.get 0x24 2 > 4096 || x.get 0x26 1 > 1 || !shaperOk (x.get 0x28 4) (x.get 0x2C 4) ||
    x.get 0x30 4 < 16384 || x.get 0x30 4 > 67108864 || (if paced then x.get 0x34 2 = 0 || x.get 0x38 4 > 1000000000 else x.get 0x34 2 != 0 || x.get 0x38 4 != 0)
  let rate := if rateOf (x.get 0x28 4) = 0 then 0 else x.get 0x28 4
  d.checked x [(!q.pkts.isEmpty, stBusy), (bad, stBadDesc)]
    (((d.abortPend fun p => p.unit == 7 && p.op == 2 && p.obj == n && p.d.get 0x20 1 == 0).putQueueAt n
      { q with cfg := x.bytes, rate := rate, burst := x.get 0x2C 4, weight := x.get 0x24 2, tok := fullBucket (x.get 0x2C 4) d.media, s := 0, f := 0 }).complete x stOK 0)

/-- SHAPE waits for a microsecond boundary (R448). -/
def Dev.tmShape (d : Dev) (x : Desc) : Dev :=
  let i := x.get 0x22 2
  let cls := x.get 0x20 1 == 1
  let unset := if cls then !(d.portAt i).set else !(d.queueAt i).configured
  let bad := x.get 0x20 1 > 1 || x.get 0x21 1 > 1 || (if cls then x.get 0x24 1 > 7 || x.get 0x26 2 != 0 else x.get 0x24 1 != 0 || x.get 0x26 2 > 4096) ||
    !shaperOk (x.get 0x28 4) (x.get 0x2C 4)
  let late := x.eff != 0 && decide (x.eff < d.media)
  let at_ := if x.eff = 0 || late then (d.media / 1000 + 1) * 1000 else ceilDiv x.eff 1000 * 1000
  d.checked x [(unset, stBusy), (bad, stBadDesc), (late && x.strict, stTimeout)]
    { d with pend := d.pend ++ [{ d := x, unit := 7, op := 2, obj := i, t := at_, late := late, since := d.ctl.ticks }] }

/-- A SHAPE takes effect (R437, R439). -/
def Dev.applyShape (d : Dev) (p : Pend) : Dev :=
  let rate := if rateOf (p.d.get 0x28 4) = 0 then 0 else p.d.get 0x28 4
  let burst := p.d.get 0x2C 4
  let clear := p.d.get 0x21 1 == 1
  if p.d.get 0x20 1 = 1 then
    d.modPortAt p.obj fun q =>
      let c := p.d.get 0x24 1
      let k := q.class_ c
      q.putClass c { k with rate := rate, burst := burst, tok := reshape k.tok k.rate k.burst burst p.t clear }
  else
    d.modQueueAt p.obj fun q =>
      { q with rate := rate, burst := burst, tok := reshape q.tok q.rate q.burst burst p.t clear, weight := if p.d.get 0x26 2 = 0 then q.weight else p.d.get 0x26 2 }

/-- The SHAPEs whose boundary has come, in the order of acceptance (R163, R437). -/
def Dev.shapeDue (d : Dev) : Dev :=
  let mine (p : Pend) : Bool := p.unit == 7 && p.op == 2 && decide (p.t ≤ d.media)
  (d.pend.filter mine).foldl (fun e p => (e.applyShape p).complete p.d p.status p.t) { d with pend := d.pend.filter fun p => !mine p }

/-- PORT takes effect at the next frame boundary: at once while the MAC is idle (R448). -/
def Dev.tmPort (d : Dev) (x : Desc) : Dev :=
  let p := x.get 0x20 1
  let o := toSigned 8 (x.get 0x21 1)
  let bad := o < -32 || 63 < o || (List.range 8).any fun c =>
    let w := x.get (0x24 + 2 * c) 2
    (if bitN (x.get 0x22 1) c then w != 0 else w = 0 || 4096 < w) || !shaperOk (x.get (0x38 + 8 * c) 4) (x.get (0x3C + 8 * c) 4)
  d.checked x [(bad, stBadDesc)]
    (if (d.portAt p).tx.isSome then { d with pend := d.pend ++ [{ d := x, unit := 7, op := 3, obj := p, since := d.ctl.ticks }] }
     else (d.applyPort x).complete x stOK 0)

/-- The entries of a gate list in memory: mask, reserved bytes, interval (Table 14.6). -/
def Dev.gateEntries (d : Dev) (x : Desc) : List (Nat × Nat × Nat) :=
  (List.range (x.get 0x22 2)).map fun i =>
    let b := d.memRead (x.get 0x38 8 + 8 * i) 8
    (fieldLE b 0 1, fieldLE b 1 3, fieldLE b 4 4)

/-- GATE (R444, R445): a start with n = 0, a later one, or with STRICT_TIME none. A list that still waited is aborted. -/
def Dev.tmGate (d : Dev) (x : Desc) : Dev :=
  let p := x.get 0x20 1
  let port := d.portAt p
  let es := d.gateEntries x
  let b := x.get 0x28 8
  let cyc := x.get 0x30 4
  let n := if d.media + 2000 ≤ b then 0 else ceilDiv (d.media + 2000 - b) (max cyc 1)
  let bad := x.get 0x22 2 > 1024 || cyc < 1000 || cyc > 1000000000 || x.get 0x38 8 % 8 != 0 || (x.get 0x22 2 = 0 && x.get 0x38 8 != 0) ||
    es.any fun e => e.2.1 != 0 || e.2.2 < 64 || e.2.2 > 1000000000
  let g : GateList := { base := b, cycle := cyc, entries := es.map fun e => (e.1, e.2.2), start := b + n * cyc, n := n }
  d.checked x [(d.poisoned (x.get 0x38 8) (x.get 0x22 2 * 8), stBusy), (bad, stBadDesc)]
    (let d1 := match port.admin with | some (_, y) => (d.complete y stAborted 0).modPortAt p fun q => { q with admin := none } | none => d
     if n != 0 && x.strict then (d1.raise 40).complete x stTimeout 0 else d1.modPortAt p fun q => { q with admin := some (g, x) })

/-- POLICER (R428, R433). -/
def Dev.tmPolicer (d : Dev) (x : Desc) : Dev :=
  let n := x.get 0x20 2
  let y := d.policer n
  let mode := x.get 0x23 1
  let m := x.get 0x2B 1
  let big (o : Nat) : Bool := x.get o 4 > 16777216
  let clash := d.pol.any fun e => e.1 != n && !e.2.cfg.isEmpty && e.2.port == x.get 0x22 1 && e.2.get 0x2B 1 == m &&
    (m == 0 || (e.2.get 0x40 16 == x.get 0x40 16 && e.2.get 0x2C 2 == x.get 0x2C 2))
  let bad := mode > 1 || x.get 0x24 1 > 1 || x.get 0x28 1 > 63 || x.get 0x29 1 > 63 || x.get 0x2A 1 > 63 || m > 1 || (m == 0 && (x.get 0x2C 2 != 0 || !zeroBytes x.bytes 0x40 16)) ||
    x.get 0x2E 1 > 1 || !rateOk (x.get 0x30 4) || x.get 0x34 4 < 1536 || big 0x34 || big 0x3C || !rateOk (x.get 0x38 4) ||
    (if mode = 0 then x.get 0x38 4 != 0 else rateOf (x.get 0x38 4) < rateOf (x.get 0x30 4) || x.get 0x3C 4 < x.get 0x34 4) ||
    (x.get 0x24 1 == 0 && !zeroBytes x.bytes 0x50 16)
  let fresh := y.cfg.isEmpty || x.get 0x2E 1 == 1
  let old := if y.cfg.isEmpty then y else y.fill d.media
  let keep (b : Bucket) (cap : Nat) : Bucket := if fresh then fullBucket cap d.media else ⟨min b.level (tokenBytes cap), d.media⟩
  d.checked x [(bad || clash, stBadDesc)]
    ((d.putPolicer n { old with cfg := x.bytes, c := keep old.c (x.get 0x34 4), e := keep old.e (x.get 0x3C 4) }).complete x stOK 0)

/-- RELEASE (R449). -/
def Dev.tmRelease (d : Dev) (x : Desc) : Dev :=
  let i := x.get 0x22 2
  let isQ := x.get 0x20 1 == 0
  let used := d.flow.any fun e => e.2.configured && (e.2.queueA == i || e.2.queueB == i)
  d.checked x [(isQ && (used || !(d.queueAt i).pkts.isEmpty), stBusy), (x.get 0x20 1 > 1, stBadDesc)]
    ((if isQ then (d.abortPend fun p => p.unit == 7 && p.op == 2 && p.obj == i && p.d.get 0x20 1 == 0).putQueueAt i {} else d.putPolicer i {}).complete x stOK 0)

/-- Reset I of island 28 or 29 (R450): that tile's packets, counts, virtual times, deficits and buckets. TM_Q_DROPS does not count these packets (Table 14.16). -/
def Dev.tmIslandReset (d : Dev) (tileB : Bool) : Dev :=
  let mine (p : Nat) : Bool := (64 ≤ p) == tileB
  let t := d.media
  let lost (q : Queue) : Bool := q.configured && mine q.port
  let d1 := d.freePkts ((d.queue.filter fun e => lost e.2).flatMap fun e => e.2.pkts)
  { d1 with
    queue := d1.queue.mapAll ({} : Queue) fun _ q => if lost q then { q with pkts := [], tok := fullBucket q.burst t, s := 0, f := 0 } else q
    port := d1.port.mapAll ({} : TmPort) fun k p =>
      if mine k then { p with classes := p.classes.mapAll ({} : PortClass) fun _ c => { c with tok := fullBucket c.burst t, v := 0, deficit := 0 } } else p
    pol := d1.pol.mapAll ({} : Policer) fun _ y =>
      if !y.cfg.isEmpty && mine y.port then { y with c := fullBucket (y.get 0x34 4) t, e := fullBucket (y.get 0x3C 4) t } else y }

/-! ## Registers (Table 14.8) -/

/-- A read of the TM block. -/
def Dev.readTm (d : Dev) (off : Nat) : Nat :=
  let p := d.portAt d.portSel
  let q := d.queueAt d.qSel
  let y := d.policer d.polSel
  let start := match p.oper with | some g => g.start | none => 0
  match off with
  | 0x00 => d.portSel
  | 0x04 => ofSigned 8 p.overhead
  | 0x08 => b2n p.oper.isSome + fld 1 1 (b2n p.admin.isSome) + (match p.oper with | some g => fld 2 1 (b2n (g.n != 0)) + fld 8 24 (min g.n (2 ^ 24 - 1)) | none => 0)
  | 0x0C => start % 2 ^ 32
  | 0x10 => start / 2 ^ 32
  | 0x40 => d.qSel
  | 0x44 => if !q.configured then 0 else
      (if !d.portUp q.port then 3 else if q.pkts.isEmpty then 1 else 2) + fld 8 7 q.port + fld 16 3 q.cls + fld 19 1 (b2n q.paced)
  | 0x48 => q.bytes
  | 0x4C => ofSigned 32 ((if q.rate = 0 then q.tok.level else q.tok.now q.rate q.burst d.media) / tokenBytes 1)
  | 0x50 => q.drops
  | 0x54 => q.over_ + fld 16 16 q.late
  | 0x80 => d.polSel
  | 0x84 => y.green
  | 0x88 => y.yellow
  | 0x8C => y.red
  | _ => 0

/-- A write of the TM block (R451). -/
def Dev.writeTm (d : Dev) (who : Requester) (off : Nat) (v : Word) : Dev :=
  if !isPf who then d
  else match off with
    | 0x00 => { d with portSel := bits v.toNat 0 7 }
    | 0x40 => { d with qSel := bits v.toNat 0 13 }
    | 0x80 => { d with polSel := bits v.toNat 0 12 }
    | _ => d

/-! ## Meanings -/

/-- TM_QUEUE (R449). -/
def execTmQueue (s : State) : Host.Outcome State Fault Refusal := ok s (s.dev.runUnit 7 1 tmQueueSpec Dev.tmQueue)

/-- TM_SHAPE (R448, R449). -/
def execTmShape (s : State) : Host.Outcome State Fault Refusal := ok s (s.dev.runUnit 7 2 tmShapeSpec Dev.tmShape)

/-- SHAPE_TAKES_EFFECT (R437). -/
def execShapeTakesEffect (s : State) : Host.Outcome State Fault Refusal := ok s s.dev.shapeDue

/-- TM_PORT (R449). -/
def execTmPort (s : State) : Host.Outcome State Fault Refusal := ok s (s.dev.runUnit 7 3 tmPortSpec Dev.tmPort)

/-- TM_GATE (R444). -/
def execTmGate (s : State) : Host.Outcome State Fault Refusal := ok s (s.dev.runUnit 7 4 tmGateSpec Dev.tmGate)

/-- GATE_LIST_OPERATIONAL (R445). -/
def execGateListOperational (p : Fin 128) (s : State) : Host.Outcome State Fault Refusal := ok s (s.dev.gateStart p)

/-- GATE_ENTRY_CHANGE (R441). -/
def execGateEntryChange (p : Fin 128) (s : State) : Host.Outcome State Fault Refusal := ok s (s.dev.gateEntry p)

/-- TM_POLICER (R449). -/
def execTmPolicer (s : State) : Host.Outcome State Fault Refusal := ok s (s.dev.runUnit 7 5 tmPolicerSpec Dev.tmPolicer)

/-- TM_RELEASE (R449). -/
def execTmRelease (s : State) : Host.Outcome State Fault Refusal := ok s (s.dev.runUnit 7 6 tmReleaseSpec Dev.tmRelease)

/-- INGRESS_FRAME_RX (R428). -/
def execIngressFrameRx (p : Fin 128) (fr : InFrame) (s : State) : Host.Outcome State Fault Refusal := ok s (s.dev.ingress p fr)

/-- PACKET_ENQUEUE (R422). -/
def execPacketEnqueue (s : State) : Host.Outcome State Fault Refusal := ok s s.dev.stampPcr.enqueue

/-- PORT_SCHEDULE (R440). -/
def execPortSchedule (p : Fin 128) (s : State) : Host.Outcome State Fault Refusal := ok s (s.dev.schedule p)

/-- PACE_SLOT (R446). -/
def execPaceSlot (q : Fin 8192) (s : State) : Host.Outcome State Fault Refusal := ok s (s.dev.paceSlot q)

/-- FRAME_TX_DONE (R440, R609). -/
def execFrameTxDone (p : Fin 128) (s : State) : Host.Outcome State Fault Refusal := ok s (s.dev.txDone p)

/-- SHAPER_COUNT_REACHES_ZERO (R436). -/
def execShaperCountReachesZero (isClass : Bool) (idx : Fin 8192) (cls : Fin 8) (s : State) : Host.Outcome State Fault Refusal :=
  ok s (s.dev.shaperZero isClass idx cls)

end Sys2Proof.Machine
end

