-- ==== Sys2Proof/Machine/Twin.lean ====
section
/-! DEFINITION. The twin pair: pairing, input reconciliation, matching, mirroring, partition and repair (chapter 12). -/

namespace Sys2Proof.Machine

/-! ## Configuration and the link -/

def Twin.get (t : Twin) (o n : Nat) : Nat := fieldLE t.cfg o n
def Twin.firstLane (t : Twin) : Nat := t.get 0x20 2
def Twin.deadUs (t : Twin) : Nat := t.get 0x22 2
def Twin.matchUs (t : Twin) : Nat := t.get 0x24 2

/-- Every frame of the partner shows that its link lives and that what was sent has arrived (R378). The round trip that it gives is a free value of at most 2 us (R386, log
entry 19). -/
def Dev.heard (d : Dev) : Dev := { d with twin := { d.twin with lastFrame := d.ctl.ticks, rtt := d.freeVal % 2001, unheard := [] } }.nextFree

/-- A frame of the partner's arrives: nothing does without a configuration, or while the link's island is in reset (R391). -/
def Dev.fromPartner (d : Dev) (f : Dev → Dev) : Dev := if d.twin.cfg.isEmpty || d.ctl.islBusy == some 30 then d else f d.heard

/-- The pair enters a state; TWIN_PARTITION lasts while it is PARTITIONED or REJECTED (Table 20.1). -/
def Dev.setPair (d : Dev) (st : PairState) : Dev :=
  { d with twin := { d.twin with st := st } }.setLine 35 (st == PairState.partitioned || st == PairState.rejected)

/-- Media time of the earliest picture of a channel that is not released. -/
def Chan.nextRelease (c : Chan) : Nat := (c.flight.map (·.mt)).foldl min (c.mt (c.k0 + c.outNext))

/-- The split point of a channel (R378): the earliest picture whose record the partner has not received, be it sent since the partner was last heard or not released yet. -/
def Dev.splitPoint (d : Dev) (n : Nat) : Nat := ((d.twin.unheard.filter fun e => e.1 == n).map (·.2)).foldl min (d.channel n).nextRelease

/-- A START that ends without effect gives back what it booked at its acceptance (R219, R339), unless another START of the object is still pending. -/
def Dev.releaseFor (d : Dev) (p : Pend) : Dev :=
  if d.pend.any fun q => q.unit == p.unit && q.op == 2 && q.obj == p.obj then d
  else match p.unit, p.op with
    | 2, 2 => if (d.sceneAt p.obj).running then d else (d.bookScene p.obj 0).modSceneAt p.obj fun c => { c with starting := false }
    | 4, 2 => d.modChannel p.obj fun c => { c with startPend := false }
    | 5, 2 => if (d.stream p.obj).active then d else d.modStream p.obj fun s => { s with starting := false, booked := 0 }
    | _, _ => d

/-- Descriptors that no match met leave the pending list with a status, and without effect. -/
def Dev.endUnmatched (d : Dev) (ps : List Pend) (status : Nat) : Dev := ps.foldl (fun e p => (e.releaseFor p).complete p.d status 0) d

/-- Commands that still waited for a match at a partition end REFUSED_TWIN_SPLIT (R368); a restore that waited takes effect alone. -/
def Dev.splitWaiting (d : Dev) : Dev :=
  let waits (p : Pend) : Bool := match p.twin with | .waiting _ => true | _ => false
  let d1 := { d with pend := d.pend.filter fun p => !waits p }
  ((d.pend.filter fun p => waits p && p.internal && p.op == 8).foldl (fun e p => e.unshed p.obj) d1).endUnmatched
    (d.pend.filter fun p => waits p && !p.internal) stTwinSplit

/-- Inputs and streams that waited for the senior are judged alone from now on (R364). -/
def Dev.judgeAlone (d : Dev) : Dev :=
  let d1 := (List.range 192).foldl (fun e i =>
    let c := e.capIn i
    if c.ancWait.isEmpty then e else c.ancWait.foldl (fun e p => e.readAnc i p) (e.putCapIn i { c with ancWait := [] })) d
  (List.range 16).foldl (fun e k => e.flushWaiting k) d1

/-- The link is declared down (R378): each twinned channel that runs notes its split point; one that starts later notes its first picture (`Dev.ownRelease`). -/
def Dev.partition (d : Dev) : Dev :=
  if !d.paired then d
  else
    let d1 := { d with twin := { d.twin with partMt := d.media, proposals := [], digests := [], unheard := [], chs := d.twin.chs.mapAll ({} : TwinCh) fun _ t => { t with split := if t.owed then t.split else 0 } } }
    let d2 := (d.chan.filter fun e => e.2.twin == 1 && e.2.active).foldl (fun e q => e.modTwinCh q.1 fun t => { t with split := if t.owed then t.split else d.splitPoint q.1 }) d1
    ((d2.setPair .partitioned).splitWaiting).judgeAlone

/-- What the pair is with one lane more or less (R378, R387). -/
def Dev.setTwinLanes (d : Dev) (ls : List Nat) : Dev :=
  let d1 := { d with twin := { d.twin with lanesUp := ls } }
  if ls.isEmpty then d1.partition else d1

/-! ## Pairing (R356, R357, R380) -/

/-- The first of the causes of Table 12.6 that holds, in its order. -/
def Dev.rejectCause (d : Dev) (r : PairingRecord) : Nat :=
  if r.senior == d.ctl.senior then 1 else if r.revision != 0xB0 then 2
  else if r.meas0 != d.meas 0 || r.meas1 != d.meas 1 || r.meas2 != d.meas 2 then 3 else 0

/-- After a partition the records from the split point on go to the partner in coding order; when older ones are gone, the oldest kept is the first mismatch
(R380), also when a reset I of island 30 has cleared the split point. -/
def Dev.rejoin (d : Dev) (n : Nat) : Dev :=
  let c := d.channel n
  let t := d.twinCh n
  if !t.owed then d
  else if c.pics = 0 then d.putTwinCh n { t with owed := false }
  else
    let first := c.pics - 1024
    let rs := (List.range (c.pics - first)).map fun i => d.histRead n (first + i)
    let since := rs.filter fun r => t.split ≤ r.mt
    let d1 := (since.foldl (fun e r => e.emit (.twin 8 n r.mt (histBytes r))) (d.putTwinCh n { t with owed := false }))
    match rs with
    | r :: _ => if 0 < first && t.split < r.mt then d1.diverge n r.mt else d1
    | [] => d1

/-- The CAPS stage of the twin group is done, and its lanes serve (R355). -/
def Dev.capsDone (d : Dev) (l : Nat) (lanes : List Nat) : Dev :=
  let d0 := d.putGroupAt l { d.groupAt l with stage := .active, passed := [], been := true }
  let d1 := { d0 with twin := { d0.twin with lanesUp := lanes } }
  lanes.foldl (fun e k => e.modLaneAt k fun y => { y with inSvc := true, retrain := none, relock := none }) d1

/-- The pair is accepted (R356): each half tells the other how its twinned channels stand. A channel that has records since a split point owes them (R380), and a copy that was
wanted is wanted again (R382). -/
def Dev.pairAccepted (d : Dev) (r : PairingRecord) (rejoins : Bool) : Dev :=
  let t := d.twin
  let d1 := { d with twin := { t with cause := 0, meas0 := r.meas0, pairedAt := d.ctl.ticks, unheard := []
                                      chs := t.chs.mapAll ({} : TwinCh) fun _ x => { x with partner := 0, partnerDig := none, owed := x.owed || (rejoins && x.split != 0) } } }
  let d2 := (d1.extend 6 r.meas0).setPair .paired
  (d2.chan.filter fun e => e.2.twin == 1).foldl (fun e q => if q.2.active && (e.twinCh q.1).copy then (e.tellChannel q.1).wantCopy q.1 else e.tellChannel q.1) d2

/-- A pairing record is judged (R356): it ends the CAPS stage of the twin group, and the pair is accepted or rejected. The half answers it with its own record, so that both
halves judge the attempt. -/
def Dev.judgePairing (d : Dev) (r : PairingRecord) : Dev :=
  let t := d.twin
  let l := t.firstLane
  let g := d.groupAt l
  if !(t.st == .linking || t.st == .partitioned) || !(g.proto == 3 && (g.stage == .caps || g.stage == .active)) || g.retryAt.isSome || t.halt || d.halted then d
  else
    let lanes := if g.stage == .caps then (List.range 4).map (l + ·) else t.lanesUp
    if lanes.isEmpty then d
    else
      let d2 := (d.capsDone l lanes).sendPairing
      let cause := d.rejectCause r
      if cause != 0 then { d2 with twin := { d2.twin with cause := cause } }.setPair .rejected
      else d2.pairAccepted r (t.st == .partitioned)

/-- The partner's pairing record (R355, R356). One that comes to a PAIRED half when DEAD_US has passed since the acceptance says that the partner has declared the link down,
as this half does now (R378). -/
def Dev.pairing (d : Dev) (r : PairingRecord) : Dev :=
  (if d.paired && d.twin.pairedAt + d.twin.deadUs * 3000 ≤ d.ctl.ticks then d.partition else d).judgePairing r

/-- The partner says how a channel stands on it (R385, R390). When both halves run it again, the records since the split point go out (R380). -/
def Dev.channelState (d : Dev) (n code : Nat) (dig : BitVec 64) : Dev :=
  if !d.paired then d
  else
    let d1 := d.modTwinCh n fun t => { t with partner := code, partnerDig := if code = 0 then none else some dig }
    if 2 ≤ code && d1.linked n && (d1.channel n).active then d1.rejoin n else d1.modTwinCh n fun t => { t with owed := false }

/-! ## Input reconciliation (R359 to R363) -/

/-- The slot of the SDI raster that began to arrive at media time t on the partner: the one that began within half a raster of it here (log entry 53). -/
def Cap.sdiNear (c : Cap) (t : Nat) : Option Nat :=
  (List.range 4).find? fun s => (c.slotAt s).stamp.isSome && 2 * ((((c.slotAt s).arrived : Int) - t).natAbs) * c.inNum < c.inDen * 1000000000

/-- This half holds item `k` of an input: a sequence number, or a line of an SDI raster (`sdiKey`). -/
def Cap.holds (c : Cap) (k : Nat) : Bool :=
  if c.kind = 1 then (match c.sdiNear (k / 8192) with | some s => (c.slotAt s).lines.contains (k % 8192) | none => false) else c.seenAt.get 0 k != 0

/-- The slot for a fetched line of an SDI raster: that of the raster, or on a half that follows nobody a new one with the stamp of R193. -/
def Dev.sdiFetchSlot (d : Dev) (i : Nat) (c : Cap) (t : Nat) : Option Nat × Cap :=
  match c.sdiNear t with
  | some s => (some s, c)
  | none =>
    if d.follows i then (none, c)
    else match c.slotFor (gridNearest c.inNum c.inDen t) (d.ctl.ticks + 1) with
      | (some s, c1) => (some s, { c1 with slots := c1.slots.put {} s { c1.slotAt s with arrived := t } })
      | r => r

/-- The stream that feeds an input. -/
def Dev.streamOf (d : Dev) (i : Nat) : Option Nat := (d.dec.find? fun e => e.2.st != .unconfigured && e.2.input == i).map (·.1)

/-- The partner's map of a stream's packets: what this half lacks is fetched, and nothing that it names is lost (R362). -/
def Dev.streamMap (d : Dev) (i : Nat) (held : List Nat) : Dev :=
  match d.streamOf i with
  | some k =>
    let s := d.stream k
    ((held.filter fun q => s.seenAt.get 0 q == 0).foldl (fun e q => e.emit (.twin 5 i q [2])) d).putStream k
      { s with theirs := s.theirs ++ held.filter fun q => !s.theirs.contains q
               theirAt := held.foldl (fun t q => if t.get 0 q = 0 then t.put 0 q (d.ctl.ticks + 1) else t) s.theirAt }
  | none => d

/-- The partner's completeness map (R359, R361, R362): what this half lacks is fetched, and ancillary packets that the senior holds count as received. -/
def Dev.mapRx (d : Dev) (i : Nat) (held anc : List Nat) : Dev :=
  if !d.paired || !d.twinnedInput i then d
  else if (d.capIn i).kind = 2 then d.streamMap i held
  else
    let c := d.capIn i
    let lacks := held.filter fun k => !c.holds k
    let d1 := lacks.foldl (fun e k => e.emit (.twin 5 i k [])) d
    let d2 := (anc.filter fun k => !c.ancSeen.contains k).foldl (fun e k => e.emit (.twin 5 i k [1])) d1
    let ready := c.ancWait.filter fun p => anc.contains p.seq
    let d3 := d2.putCapIn i { c with mapV := (c.mapV.filter fun k => !c.holds k && !lacks.contains k) ++ lacks, theirs := c.theirs ++ anc.filter (fun k => !c.theirs.contains k), ancWait := c.ancWait.filter fun p => !anc.contains p.seq }
    ready.foldl (fun e p => e.readAnc i p) d3

/-- An item has come from the partner: it is counted. -/
def Dev.countFetch (d : Dev) : Dev := { d with twin := { d.twin with items := satAdd 24 d.twin.items 1 } }

/-- A fetched packet or line of video is written exactly as a received one (R359). -/
def Dev.fetchVideo (d : Dev) (i : Nat) (p : VideoPkt) : Dev :=
  let c := d.capIn i
  if !c.rx || c.kind = 2 || c.holds p.seq then d
  else if c.kind = 1 then
    let (slot, c1) := d.sdiFetchSlot i c (p.seq / 8192)
    let d1 := d.countFetch.putCapIn i c1
    match slot with
    | some s => if p.fmtOk then p.segs.foldl (fun e g => e.placeSeg i s g) d1 else d1
    | none => d1
  else (d.countFetch.putCapIn i { c with seenAt := c.seenAt.put 0 p.seq (d.ctl.ticks + 1) }).placeVideo i p

/-- A fetched ancillary packet (R359, R361): on the senior half it counts when it has come in time, and the junior half learns that the senior holds it; the junior half has
asked for one that the senior holds. -/
def Dev.fetchAnc (d : Dev) (i : Nat) (p : AncPkt) : Dev :=
  let c := d.capIn i
  if !c.rx || c.kind != 0 || c.get 0x74 2 = 0 || c.ancSeen.contains p.seq then d
  else
    let d1 := d.countFetch.putCapIn i { c with ancSeen := c.ancSeen ++ [p.seq] }
    if d1.follows i then d1.readAnc i p
    else if d1.ancLate c p then d1
    else (d1.sendMap i p.seq [1#8]).readAnc i p

/-- A fetched packet of a stream enters it as a received one. -/
def Dev.fetchDec (d : Dev) (i : Nat) (p : DecPkt) : Dev :=
  match d.streamOf i with
  | some k => if (d.stream k).active && (d.stream k).seenAt.get 0 p.key == 0 then d.countFetch.decArrive k p else d
  | none => d

/-- What the partner sends on a request (R359, R362). -/
def Dev.fetchRx (d : Dev) (i : Nat) (x : FetchItem) : Dev :=
  if !d.paired || !d.twinnedInput i then d
  else match x with
    | .video p => d.fetchVideo i p
    | .anc p => d.fetchAnc i p
    | .dec p => d.fetchDec i p

/-- The slot of the SDI raster that the senior stamped: of those that have yet to get a stamp of the senior's, the one that began to arrive nearest to that stamp, if it is
within one raster of it (R360, log entry 53). -/
def Cap.nearestSlot (c : Cap) (stamp : Nat) : Option Nat :=
  let off (s : Nat) : Nat := (((c.slotAt s).arrived : Int) - stamp).natAbs
  ((List.range 4).filter fun s => (c.slotAt s).stamp.isSome && !(c.slotAt s).fixed && off s * c.inNum < c.inDen * 1000000000).foldl
    (fun b s => match b with | some t => if off s < off t then some s else b | none => some s) none

/-- The senior's raster has this stamp: on an SDI input the raster gets it and its messages are read with it, and a half that holds nothing of the raster makes room for what
it fetches (R360). -/
def Dev.seniorStamp (d : Dev) (i stamp : Nat) : Dev :=
  let c := d.capIn i
  match if c.kind = 1 then c.nearestSlot stamp else c.holding stamp with
  | some s =>
    if c.kind = 1 then (d.putCapIn i { c with slots := c.slots.put {} s { c.slotAt s with stamp := some stamp, fixed := true } }).readSdi i s stamp else d
  | none =>
    match c.take stamp 0 with
    | (some s, c1) => d.putCapIn i { c1 with slots := c1.slots.put {} s { c1.slotAt s with fixed := true, fresh := true, arrived := stamp } }
    | (none, _) => d

/-- The senior's verdict on a line (R360): with that on a present line 0 the raster gets the senior's stamp; what this half lacks of a present line is fetched, by line from an
SDI input, and by the sequence numbers that the senior's map names from another one. -/
def Dev.verdictRx (d : Dev) (i line : Nat) (present : Bool) (stamp : Nat) : Dev :=
  if !d.follows i then d
  else
    let d1 := if line = 0 && present then d.seniorStamp i stamp else d
    let c := d1.capIn i
    let d2 := d1.putCapIn i { c with verdicts := c.verdicts ++ [(line, present)] }
    match if line = 0 then c.holding stamp else c.candidate c.tick with
    | none => d2
    | some s =>
      if !present || (c.slotAt s).lines.contains line then d2
      else if c.kind = 1 then d2.emit (.twin 5 i (sdiKey (c.slotAt s).arrived line) [])
      else (c.mapV.filter fun k => !c.holds k).foldl (fun e k => e.emit (.twin 5 i k [])) d2

/-- The partner's digest of a raster (R363). -/
def Dev.digestRx (d : Dev) (i mt : Nat) (dig : BitVec 64) : Dev :=
  if !d.paired || !d.twinnedInput i then d
  else
    match d.twin.digests.find? fun q => q.1 == i && q.2.1 == mt with
    | some q =>
      let d2 := { d with twin := { d.twin with digests := d.twin.digests.erase q } }
      if q.2.2 == dig then d2 else { d2 with twin := { d2.twin with inMis := satAdd 8 d2.twin.inMis 1 } }.raise 36
    | none => { d with twin := { d.twin with digests := d.twin.digests ++ [(i, mt, dig)] } }

/-! ## Matching (R366) -/

/-- A media time has passed for a bitstream-changing operation (R37, R162). -/
def Dev.pointPassed (d : Dev) (unit op obj : Nat) : Nat → Bool :=
  let c := d.channel obj
  match unit, op with
  | 1, _ => passedBy (d.capIn obj).lastPoint
  | 2, 4 => passedBy (d.sceneAt (obj / 8)).lastPoint
  | 2, 5 => passedBy (d.sceneAt (obj / 8)).lastPoint
  | 2, _ => passedBy (d.sceneAt obj).lastPoint
  | 4, 2 => passedBy (d.sceneAt c.sceneIx).lastPoint
  | 4, 3 => passedBy (d.sceneAt c.sceneIx).lastPoint
  | 5, _ => passedBy (d.capIn (d.stream obj).input).lastPoint
  | 6, _ => (d.channel ((d.carried obj).getD 0)).packed
  | _, _ => passedBy c.lastPlanned

/-- A command that the partner raised itself meets this half's own: the restore of a channel that this half shed on the partner's notice (R371), or the KEYPIC of a copy point
(R382). -/
def Dev.answerInternal (d : Dev) (unit op obj user : Nat) : Dev :=
  if unit != 4 || user != 0 then d
  else if op = 8 && d.fab.shed.contains (3, obj) then d.restoreChannel 3 obj
  else if op = 9 && d.linked obj && (d.channel obj).active then d.wantCopy obj
  else d

/-- The partner's proposal arrives: the agreed point is the later of the two (R366). With a START it says what context the partner holds (R390). -/
def Dev.proposalRx (d : Dev) (unit op obj user mt : Nat) (ctx : BitVec 64) : Dev :=
  if !d.paired then d
  else
    let d1 := if unit = 4 && op = 2 then d.modTwinCh obj fun t => { t with partner := max 1 t.partner, partnerDig := some ctx } else d
    let mine (p : Pend) : Bool := p.unit == unit && p.op == op && p.obj == obj && p.d.user == user && (match p.twin with | .waiting _ => true | _ => false)
    if d1.pend.any mine then
      { d1 with pend := d1.pend.map fun p =>
          match p.twin with
          | .waiting own =>
            if mine p then
              let a := max own mt
              { p with twin := .agreed a, late := d.pointPassed unit op obj a }
            else p
          | _ => p }
    else
      { d1 with twin := { d1.twin with proposals := d1.twin.proposals ++ [(⟨unit, op, obj, user, mt, d.ctl.ticks⟩ : Proposal)] } }.answerInternal unit op obj user

/-- Descriptors that found no match within MATCH_US complete TIMEOUT (R366); proposals that no descriptor met are forgotten. Commands that a half raised itself have no
such limit: they wait for the other half's. -/
def Dev.matchTimeout (d : Dev) : Dev :=
  let lim := d.twin.matchUs * 3000
  let gone (p : Pend) : Bool := !p.internal && (match p.twin with | .waiting _ => decide (p.since + lim ≤ d.ctl.ticks) | _ => false)
  { d with pend := d.pend.filter (fun p => !gone p), twin := { d.twin with proposals := d.twin.proposals.filter fun q => q.internal || decide (d.ctl.ticks ≤ q.since + lim) } }.endUnmatched
    (d.pend.filter gone) stTimeout

/-! ## Misses and sheds (R370, R371) -/

/-- The partner missed a picture after k rows: this half mirrors it if it has released no more (R370). -/
def Dev.missRx (d : Dev) (n mt k : Nat) : Dev :=
  let c := d.channel n
  if !d.linked n || !c.active then d
  else
    if c.flight.any fun p => p.mt == mt then
      d.modChannel n fun c => { c with flight := c.flight.map fun p => if p.mt = mt && p.released ≤ k && p.limit.isNone then { p with limit := some (k, true) } else p }
    else if c.mt (c.k0 + c.outNext) ≤ mt then d.modChannel n fun c => { c with mirrored := c.mirrored ++ [(mt, k)] }
    else d

/-- The partner shed a channel from a media time on (R371). -/
def Dev.shedRx (d : Dev) (n mt : Nat) : Dev :=
  let c := d.channel n
  if !d.linked n || !c.active || d.fab.shed.contains (3, n) then d
  else
    let d1 := { d with fab := { d.fab with shed := d.fab.shed ++ [(3, n)] } }
    d1.putChannel n { c with
      shed := true, shedFrom := if c.shed then min c.shedFrom mt else mt
      flight := c.flight.map fun p => if mt ≤ p.mt && p.released = 0 && p.limit.isNone then { p with limit := some (0, false) } else p }

/-! ## Copying (R384) -/

/-- A snapshot arrives: a complete one is kept until the copy point is planned, if that is still ahead; else the attempt has failed. -/
def Dev.snapshotRx (d : Dev) (n mt : Nat) (complete : Bool) (snap : Chan) (numbering : Flow) (refs : List Byte) : Dev :=
  let c := d.channel n
  let t := d.twinCh n
  if !d.linked n || !c.active || !t.follower || t.phase != 2 then d
  else if complete && c.mt (c.k0 + c.outNext) ≤ mt then d.putTwinCh n { t with snap := some (mt, snap, numbering, refs) }
  else d.copyFailed n

/-! ## The link (R378) -/

/-- No lane in service, no frame for DEAD_US, or on the half that reported it a latched HALT reaction of its own. A half that is PARTITIONED already, with lanes in service,
attempts to pair again (R357). -/
def Dev.linkDead (d : Dev) : Dev :=
  if d.twin.st == .partitioned then (if d.twin.lanesUp.isEmpty then d else d.offerPairing)
  else if d.halted || d.twin.lanesUp.isEmpty || d.twin.lastFrame + d.twin.deadUs * 3000 ≤ d.ctl.ticks then d.partition else d

/-- The partner reports a latched HALT, or its end (R378, R357). -/
def Dev.partnerHalt (d : Dev) (halt : Bool) : Dev :=
  let d1 := { d with twin := { d.twin with halt := halt } }
  if halt then d1.partition else d1.offerPairing

/-- A notice about a channel (R371, R389). -/
def Dev.channelNotice (d : Dev) (n : Nat) : ChanNotice → Dev
  | .shed mt => d.shedRx n mt
  | .state code dig => d.channelState n code dig
  | .resync mt => if d.linked n && (d.channel n).active then d.diverge n mt else d

/-! ## The TWIN unit (R388, R389) -/

def twinConfigureSpec (_ : Dev) (x : Desc) : OpSpec :=
  { eff0 := true, pf := true, rsv := [(0x27, 1), (0x30, 16)], mem := [⟨x.get 0x28 8, 16777216, true, true⟩] }
def twinUnpairSpec (_ : Dev) (_ : Desc) : OpSpec := { eff0 := true, pf := true, rsv := [(0x20, 32)] }
def twinResyncSpec (_ : Dev) (x : Desc) : OpSpec :=
  { eff0 := true, rsv := [(0x22, 30)], idx := [(x.get 0x20 2, 512)], own := [(0, x.get 0x20 2)] }

/-- CONFIGURE (R389, R642): the four lanes become the twin group and start bring-up. An octet whose other lanes run at two other rates has none for it (R478). -/
def Dev.twinConfigure (d : Dev) (x : Desc) : Dev :=
  let l := x.get 0x20 2
  let bad := l % 4 != 0 || l > 252 || x.get 0x22 2 < 10 || x.get 0x22 2 > 10000 || x.get 0x24 2 < 100 || x.get 0x26 1 = 0 || x.get 0x26 1 > 8 || x.get 0x28 8 % 4096 != 0
  let free := d.unbindGroup d.twin.firstLane
  let mine := if d.twin.st == .rejected then free else d
  d.checked x [(!(d.twin.st == .unpaired || d.twin.st == .rejected) || d.dozing, stBusy), (bad, stBadDesc), ((List.range 4).any (fun i => (mine.groupOf (l + i)).isSome) || mine.octetFull (l / 8) 112500000, stCapacity)]
    (let d1 := { mine with twin := { mine.twin with cfg := x.bytes, cause := 0, lanesUp := [], halt := false } }
     ((d1.bindGroup l 4 3 []).setPair .linking).complete x stOK 0)

/-- UNPAIR (R389): the link stops and its lanes are unbound. -/
def Dev.twinStop (d : Dev) : Dev :=
  let d1 := if d.paired then d.splitWaiting.judgeAlone else d
  let d2 := if d1.twin.cfg.isEmpty then d1 else d1.unbindGroup d1.twin.firstLane
  { d2 with twin := { d2.twin with cfg := [], lanesUp := [], halt := false, proposals := [], digests := [], unheard := [] } }.setPair .unpaired
def Dev.twinUnpair (d : Dev) (x : Desc) : Dev :=
  d.checked x [(d.chan.any fun e => e.2.twin == 1 && e.2.active, stBusy)] (d.twinStop.complete x stOK 0)

/-- RESYNC (R389): the channel diverges, on the half that follows whichever it is: the partner is told. -/
def Dev.twinResync (d : Dev) (x : Desc) : Dev :=
  let n := x.get 0x20 2
  let c := d.channel n
  d.checked x [(!(d.paired && c.st == .running && c.twin == 1), stBusy)]
    (((d.emit (.twin 16 n c.nextRelease [])).diverge n c.nextRelease).complete x stOK 0)

/-! ## Registers (Table 12.5) -/

def pairCode : PairState → Nat
  | .unpaired => 0 | .linking => 1 | .paired => 2 | .partitioned => 3 | .rejected => 4

/-- A read of the TWIN block. -/
def Dev.readTwin (d : Dev) (off : Nat) : Nat :=
  let t := d.twin
  let c := d.twinCh t.sel
  match off with
  | 0x00 => pairCode t.st + fld 3 1 (b2n d.ctl.senior) + fld 4 3 t.lanesUp.length + fld 7 1 (b2n t.halt) + fld 8 4 t.cause
  | 0x04 => min 65535 t.rtt
  | 0x08 => t.items + fld 24 8 t.inMis
  | 0x0C => t.partMt % 2 ^ 32
  | 0x10 => t.partMt / 2 ^ 32
  | 0x20 => t.sel
  | 0x24 => c.phase + fld 2 1 (b2n c.follower) + fld 16 16 c.episodes
  | 0x28 => c.split % 2 ^ 32
  | 0x2C => c.split / 2 ^ 32
  | 0x30 => c.bad % 2 ^ 32
  | 0x34 => c.bad / 2 ^ 32
  | _ => 0

/-- A write of the TWIN block (R392). -/
def Dev.writeTwin (d : Dev) (who : Requester) (off : Nat) (v : Word) : Dev :=
  if isPf who && off == 0x20 then { d with twin := { d.twin with sel := bits v.toNat 0 9 } } else d

/-! ## Meanings -/

/-- TWIN_CONFIGURE (R389). -/
def execTwinConfigure (s : State) : Host.Outcome State Fault Refusal := ok s (s.dev.runUnit 11 1 twinConfigureSpec Dev.twinConfigure)

/-- TWIN_UNPAIR (R389). -/
def execTwinUnpair (s : State) : Host.Outcome State Fault Refusal := ok s (s.dev.runUnit 11 2 twinUnpairSpec Dev.twinUnpair)

/-- TWIN_RESYNC (R389). -/
def execTwinResync (s : State) : Host.Outcome State Fault Refusal := ok s (s.dev.runUnit 11 3 twinResyncSpec Dev.twinResync)

/-- PAIRING_RECORD_RX (R356). -/
def execPairingRecordRx (r : PairingRecord) (s : State) : Host.Outcome State Fault Refusal := ok s (s.dev.fromPartner fun d => d.pairing r)

/-- COMPLETENESS_MAP_RX (R359). -/
def execCompletenessMapRx (i : Fin 192) (held : HeldMap) (s : State) : Host.Outcome State Fault Refusal := ok s (s.dev.fromPartner fun d => d.mapRx i held.items held.anc)

/-- TWIN_FETCH_DATA_RX (R359). -/
def execTwinFetchDataRx (i : Fin 192) (item : FetchItem) (s : State) : Host.Outcome State Fault Refusal := ok s (s.dev.fromPartner fun d => d.fetchRx i item)

/-- PRESENCE_VERDICT_RX (R360). -/
def execPresenceVerdictRx (i : Fin 192) (line : Nat) (present : Bool) (stamp : Nat) (s : State) : Host.Outcome State Fault Refusal :=
  ok s (s.dev.fromPartner fun d => d.verdictRx i line present stamp)

/-- INPUT_DIGEST_RX (R363). -/
def execInputDigestRx (i : Fin 192) (mt : Nat) (digest : BitVec 64) (s : State) : Host.Outcome State Fault Refusal := ok s (s.dev.fromPartner fun d => d.digestRx i mt digest)

/-- PACKET_DECLARATION_RX (R362). -/
def execPacketDeclarationRx (st : Fin 16) (seq : Nat) (received : Bool) (s : State) : Host.Outcome State Fault Refusal :=
  ok s (s.dev.fromPartner fun d => d.declaration st seq received)

/-- MATCH_PROPOSAL_RX (R366). -/
def execMatchProposalRx (unit op obj user mt : Nat) (ctx : BitVec 64) (s : State) : Host.Outcome State Fault Refusal :=
  ok s (s.dev.fromPartner fun d => d.proposalRx unit op obj user mt ctx)

/-- MATCH_TIMEOUT (R366). -/
def execMatchTimeout (s : State) : Host.Outcome State Fault Refusal := ok s s.dev.matchTimeout

/-- MISS_NOTICE_RX (R370). -/
def execMissNoticeRx (ch : Fin 512) (mt rows : Nat) (s : State) : Host.Outcome State Fault Refusal := ok s (s.dev.fromPartner fun d => d.missRx ch mt rows)

/-- SHED_NOTICE_RX (R371, R385, R389, R390). -/
def execShedNoticeRx (ch : Fin 512) (x : ChanNotice) (s : State) : Host.Outcome State Fault Refusal := ok s (s.dev.fromPartner fun d => d.channelNotice ch x)

/-- HISTORY_RECORD_RX (R375). -/
def execHistoryRecordRx (ch : Fin 512) (r : HistRecord) (s : State) : Host.Outcome State Fault Refusal :=
  ok s (s.dev.fromPartner fun d => if d.linked ch then d.theirRecord ch r else d)

/-- SNAPSHOT_RX (R384). -/
def execSnapshotRx (ch : Fin 512) (mt : Nat) (complete : Bool) (snap : Chan) (rest : SnapRest) (s : State) :
    Host.Outcome State Fault Refusal := ok s (s.dev.fromPartner fun d => d.snapshotRx ch mt complete snap rest.numbering rest.refs)

/-- TWIN_LINK_DEAD (R378). -/
def execTwinLinkDead (s : State) : Host.Outcome State Fault Refusal := ok s s.dev.linkDead

/-- PARTNER_HALT_REPORT_RX (R378). -/
def execPartnerHaltReportRx (halt : Bool) (s : State) : Host.Outcome State Fault Refusal := ok s (s.dev.fromPartner fun d => d.partnerHalt halt)

end Sys2Proof.Machine
end

