-- ==== Sys2Proof/Machine/HostIf.lean ====
section
/-! DEFINITION. The host interface: rings and doorbells, the start of programs, ownership, the Summary Block, the device-memory aperture and the core windows
(chapter 3, R650, R673). -/

namespace Sys2Proof.Machine

/-! ## Functions -/

/-- A function exists: the PF, and the VFs up to NumVFs while VF Enable is set (R89). -/
def Dev.fnOn (d : Dev) (fn : Nat) : Bool := fn ≤ d.hub.numVfs

/-- The PF reaches every slice, a VF its own (R106). -/
def Dev.reaches (d : Dev) (who : Requester) (fn : Nat) : Bool :=
  match who with
  | .pf => true
  | .vf n => n.val == fn && n.val != 0 && d.fnOn fn
  | .firmware => false

/-! ## Ring state (R94, R107, R108) -/

/-- RING_SUBMIT holds while a ring is in ERROR. -/
def Dev.submitLine (d : Dev) : Dev := d.setLine 4 (d.rings.any fun e => e.2.st == .error)

/-- The tail runs ahead of the head by no more than the ring's entries. -/
def Ring.overrun (r : Ring) : Bool := decide (2 ^ clampLog r.sqLog < (r.sqTail - r.sqHead).toNat)

/-- A ring whose tail has been written too far ahead goes to ERROR, whatever its state was. -/
def Dev.checkTail (d : Dev) (fn : Nat) : Dev :=
  let r := d.ring fn
  if r.st != .error && r.overrun then ((d.putRing fn { r with st := .error }).raiseVector fn 3).submitLine else d

/-- The submission doorbell. -/
def Dev.sqTail (d : Dev) (who : Requester) (fn : Nat) (v : Word) : Dev :=
  if d.reaches who fn then (d.modRing fn fun r => { r with sqTail := v }).checkTail fn else d

/-- The completion doorbell: vector 2 is no longer pending, and there may be room (R103, R105). -/
def Dev.cqHead (d : Dev) (who : Requester) (fn : Nat) (v : Word) : Dev :=
  if d.reaches who fn then (d.modRing fn fun r => { r with cqHead := v, v2pending := false }).pumpAll fn else d

/-- COALESCE_US has passed since the first entry (R105). -/
def Dev.coalesceEnd (d : Dev) (fn : Nat) : Dev :=
  match (d.ring fn).v2due with
  | some t => if t ≤ d.ctl.ticks then (d.modRing fn fun r => { r with v2due := none, v2pending := true }).raiseVector fn 2 else d
  | none => d

/-- ENABLE from 0 to 1: held completions are delivered first, then the ring is served. -/
def Dev.ringOn (d : Dev) (who : Requester) (fn : Nat) : Dev :=
  if d.reaches who fn && !(d.ring fn).enable then ((d.modRing fn fun r => { r with enable := true, st := .active }).pumpAll fn).submitLine else d

/-- An entry that waits for its image goes back to the ring. -/
def RingWait.dropImage : RingWait → RingWait
  | .program _ => .nothing
  | w => w

/-- ENABLE is cleared: fetching stops. An entry whose image has not been fetched is fetched again later. -/
def Dev.ringOff (d : Dev) (who : Requester) (fn : Nat) : Dev :=
  if d.reaches who fn && (d.ring fn).enable then
    (d.modRing fn fun (r : Ring) => { r with enable := false, st := .disabled, wait := r.wait.dropImage }).submitLine
  else d

/-! ## Submission entries (R95 to R101) -/

/-- The hub may fetch for the ring: it is in service, and its held completions have been delivered (R108). -/
def Dev.mayFetch (d : Dev) (fn : Nat) : Bool :=
  (d.ring fn).enable && (d.ring fn).st == .active && (d.ring fn).held.isEmpty && d.hub.linkUp && !d.ctl.booting && d.fnOn fn

/-- The ring has an entry that the hub may take now. -/
def Dev.fetchable (d : Dev) (fn : Nat) : Bool := d.mayFetch fn && (d.ring fn).wait == .nothing && (d.ring fn).sqHead != (d.ring fn).sqTail

/-- The function whose ring is served next: round-robin from the one served last. DESIGN CHOICE (log entry 50): one entry a turn. -/
def Dev.nextServed (d : Dev) : Option Nat := ((List.range 64).map fun i => (d.hub.turn + 1 + i) % 64).find? d.fetchable

/-- Host address of the slot of the entry at the head of a submission ring (R92, R93). -/
def Ring.headAddr (r : Ring) : Nat := r.sqBaseLo.toNat + r.sqBaseHi.toNat * 2 ^ 32 + r.sqHead.toNat % 2 ^ clampLog r.sqLog * 64

/-- R97. -/
def badProgram (e : List Byte) : Bool :=
  let len := fieldLE e 0x10 4
  let entry := fieldLE e 0x14 4
  let addr := fieldLE e 8 8
  len % 4 != 0 || len < 4 || 65536 < len || entry % 4 != 0 || len ≤ entry || addr % 4 != 0 || 2 ^ 64 ≤ addr + len || fieldLE e 0x18 8 == 0 || 63 < byteAt e 1

/-- The entry at the head has been acted on: the head advances and the entry retires with no thread. -/
def Dev.entryDone (d : Dev) (fn kind tag status : Nat) : Dev :=
  let sq := (d.ring fn).sqHead.toNat
  (d.modRing fn fun r => { r with wait := .nothing, sqHead := r.sqHead + 1 }).retire fn ⟨status, kind, 0xFFFF, tag, sq, 0, d.upNs⟩ none

/-- A kind 2 entry (R100, R172, R178). -/
def Dev.postEntry (d : Dev) (fn tag target : Nat) (mask : Word) : Dev :=
  let t := d.thread target
  if 4095 < target || t.st == .free || t.fn != fn then d.entryDone fn 2 tag stNotOwner
  else if !t.live then d.entryDone fn 2 tag stOK
  else if d.postRoom target then (d.enqueuePost target mask).entryDone fn 2 tag stOK
  else (d.holdPost (.entry fn) target mask).modRing fn fun (r : Ring) => { r with wait := .post target tag r.sqHead.toNat }

/-- What the hub does with an entry that it has fetched, by its kind. -/
def Dev.takeEntry (d : Dev) (fn : Nat) (e : List Byte) : Dev :=
  let kind := byteAt e 0
  let tag := fieldLE e 4 4
  match kind with
    | 0 => d.entryDone fn 0 tag stOK
    | 1 => if badProgram e then d.entryDone fn 1 tag stBadDesc else d.modRing fn fun (r : Ring) => { r with wait := .program e }
    | 2 => d.postEntry fn tag (fieldLE e 8 2) (BitVec.ofNat 32 (fieldLE e 0x10 4))
    | _ => d.entryDone fn kind tag stBadDesc

/-- The hub reads the slot at the head of the ring whose turn it is; `entry` is what host memory gives it. -/
def Dev.fetchEntry (d : Dev) (fn : Nat) (entry : List Byte) : Dev :=
  if d.nextServed = some fn then ({ d with hub := { d.hub with turn := fn } }.emit (.hostRead (d.ring fn).headAddr 64)).takeEntry fn (fit 64 entry) else d

/-- The lowest-numbered free thread for programs (R167). -/
def Dev.freeProgram (d : Dev) : Option Nat := ((List.range 3840).map (· + 256)).find? fun t => (d.thread t).st == .free

/-- Bytes of a table in a range become those of an image, and 0 after it. -/
def loadImage (m : Tab Byte) (base : Nat) (image : List Byte) : Tab Byte :=
  writeBytes (m.filter fun p => !(base ≤ p.1 && p.1 < base + 65536)) base image

/-- Where R672 puts an image: a core with a free slot, or the spill record with the lowest core as home. -/
def Dev.placeFor (d : Dev) (x : Thread) : Nat × Option Nat :=
  let free := x.cores.filter fun c => (d.freeSlot c).isSome
  match (free.filter fun c => !d.coreBusy c).head?.orElse fun _ => free.head? with
  | some c => (c, d.freeSlot c)
  | none => (x.cores.headD 0, none)

/-- A thread that starts from an entry (R98, R126, R167, R169). -/
def newThread (fn sq inc : Nat) (e : List Byte) : Thread :=
  let x : Thread := { st := .ready, inc := inc, fn := fn, prio := byteAt e 1, tileB := bitN (fieldLE e 2 2) 0, affinity := BitVec.ofNat 64 (fieldLE e 0x18 8),
                      pc := BitVec.ofNat 64 (fieldLE e 0x14 4), origin := some (fn, fieldLE e 4 4, sq) }
  (List.range 4).foldl (fun t i => t.setG (i + 1) (BitVec.ofNat 64 (fieldLE e (0x20 + 8 * i) 8))) x

/-- The image is loaded into its slot, or into the spill record (R129, R672). -/
def Dev.loadThread (d : Dev) (t : Nat) (x : Thread) (image : List Byte) : Dev :=
  let (home, slot) := d.placeFor x
  let y := { x with home := home, slot := slot, resAge := d.dsp.age }
  let d1 := { d with dsp := { d.dsp with age := d.dsp.age + 1 } }.putThread t y
  if slot.isSome then
    { d1 with loc := loadImage d1.loc y.segBase image, locErr := d.locErr.filter fun w => !(y.segBase ≤ w * 8 && w * 8 < y.segBase + 65536) }
  else
    let recd := d.spillBase + t * spillRecord
    { d1 with mem := if d.memEra = 0 then loadImage d.mem recd image else d.memPut recd (fit 65536 image), poison := clearPoison d.poison recd 65536, spillErr := d.spillErr.filter fun w => w.1 != t }.spillRegs t

/-- The hub reads the image of an entry from host memory (Table 3.4). -/
def Dev.readImage (d : Dev) (e : List Byte) : Dev := d.emit (.hostRead (fieldLE e 8 8) (fieldLE e 0x10 4))

/-- A thread is free for the entry that waits at the head; its image has been fetched in full (R98, R99). -/
def Dev.startProgram (d : Dev) (fn : Nat) (image : List Byte) : Dev :=
  match (d.ring fn).wait, d.freeProgram with
  | .program e, some t =>
    if d.mayFetch fn then
      (({ d with dsp := { d.dsp with starts := d.dsp.starts + 1 } }.readImage e).modRing fn fun r => { r with wait := .nothing, sqHead := r.sqHead + 1 }).loadThread t
        (newThread fn (d.ring fn).sqHead.toNat (d.dsp.starts + 1) e) (fit (fieldLE e 0x10 4) image) |>.makeReady t
    else d
  | _, _ => d

/-- The bit of the Uncorrectable Error Status register that reports a failed read. PRESUMED from PCI Express (log entry 14). -/
def aerBit : ImageFail → Nat
  | .timeout => 14
  | .unsupported => 20
  | .abort => 15
  | .poisoned => 12

/-- An error is reported through AER on a function. -/
def Dev.aerReport (d : Dev) (fn bit : Nat) : Dev := { d with hub := { d.hub with aer := d.hub.aer.put 0 fn (d.hub.aer.get 0 fn ||| (1#32 <<< bit)) } }

/-- A read of the image failed (R99); the read happens once a thread is free. -/
def Dev.imageFail (d : Dev) (fn : Nat) (f : ImageFail) : Dev :=
  match (d.ring fn).wait, d.freeProgram with
  | .program e, some _ =>
    if d.mayFetch fn then ((d.readImage e).aerReport 0 (aerBit f)).entryDone fn 1 (fieldLE e 4 4) (if f == .timeout then stTimeout else stBadDesc) else d
  | _, _ => d

/-! ## Ownership (R89) -/

/-- A queue that an admitted channel's packager binding uses. -/
def Dev.queueBound (d : Dev) (q : Nat) : Bool :=
  d.chan.any fun e => e.2.held && d.bound e.1 e.2.flow && ((d.flowAt e.2.flow).queueA == q || (d.flowAt e.2.flow).queueB == q)

/-- The change of an owner is refused. No packager binding uses a layer. DESIGN CHOICE (log entry 50): a channel or layer above 511 or a port above 127, which Table 3.3 does
not have, is refused as well. -/
def Dev.ownRefused (d : Dev) (kind index fn : Nat) : Bool :=
  (match kind with
    | 0 => 511 < index || (d.channel index).held
    | 1 => d.queueBound index
    | 2 => 127 < index || d.queue.any fun e => e.2.port == index && !e.2.cfg.isEmpty && d.queueBound e.1
    | _ => 511 < index) || !d.fnOn fn

/-- A write of HUB_OWN_FN. -/
def Dev.setOwner (d : Dev) (who : Requester) (v : Word) : Dev :=
  let fn := v.toNat % 64
  if !isPf who then d
  else if d.ownRefused d.hub.ownKind d.hub.ownIdx fn then { d with hub := { d.hub with ownErr := true } }
  else { d with hub := { d.hub with owner := d.hub.owner.put 0 (d.hub.ownKind * 8192 + d.hub.ownIdx) fn } }

/-! ## The Summary Block (R113 to R119) -/

/-- A write of 1 to REQ. -/
def Dev.resyncReq (d : Dev) (who : Requester) : Dev := if isPf who then { d with hub := { d.hub with req := true } } else d

/-- Byte of lane-up or port-up bits. -/
def bitBytes (n : Nat) (f : Nat → Bool) : List Byte := (List.range n).map fun i => BitVec.ofNat 8 (((List.range 8).map fun b => fld b 1 (b2n (f (8 * i + b)))).sum)

/-- A ring state's code (Table 3.11). -/
def ringCode : RingState → Nat
  | .disabled => 0 | .active => 1 | .held => 2 | .error => 3

/-- Ring record of function f. -/
def Dev.ringRecord (d : Dev) (f : Nat) : List Byte :=
  let r := d.ring f
  let w := r.st == .held
  toLE 4 (if w then r.recTail else r.sqTail).toNat ++ toLE 4 (if w then r.recHead else r.sqHead).toNat ++ toLE 4 (if w then r.recCq else r.cqTail).toNat ++
    toLE 1 (if d.fnOn f then f else 0xFF) ++ toLE 1 (ringCode r.st) ++ toLE 2 r.held.length

/-- Hub media time of the last seal record: bytes 32-39 of its body. -/
def Prl.sealTime (p : Prl) : Nat := fieldLE (match p.signing.getLast? with | some b => b.1 | none => p.block) 32 8

/-- The word of an island. -/
def Dev.islandWord (d : Dev) (n : Nat) : Nat :=
  let booked := if n < 16 then d.booked n true else if n < 20 then d.decBooked (n - 16) else if n < 24 then d.mfBooked (n - 20) else 0
  fld 0 14 (ceilDiv booked 1000) + fld 14 1 (b2n (decide (20 ≤ n ∧ n < 24))) + fld 15 17 (min (2 ^ 17 - 1) (d.cadMean n * 65536 / floorOf n))

/-- Header, measurements and fault words: what the boot ROM writes when no hub firmware runs (R590). -/
def Dev.summaryHead (d : Dev) : List Byte :=
  toLE 2 0x4B47 ++ toLE 2 1 ++ toLE 1 d.state ++ toLE 1 0xB0 ++ zeros 2 ++ toLE 4 d.trust.bootCount ++ toLE 4 d.hub.seq ++ toLE 8 d.upNs ++ toLE 8 d.media ++ zeros 32 ++
    (List.range 8).flatMap fun s => (d.meas s).take 32
def Dev.summaryFaults (d : Dev) : List Byte := toLE 8 d.flt.live.toNat ++ toLE 8 d.flt.status.toNat ++ toLE 8 d.flt.prior.toNat

/-- The rest, from 0x140. -/
def Dev.summaryTime (d : Dev) : List Byte :=
  toLE 1 d.tb.servo ++ zeros 7 ++ toLE 4 d.tb.offLo.toNat ++ toLE 4 d.tb.offHi.toNat ++ toLE 8 d.tb.lastChg ++ zeros 40
def Dev.summaryTwin (d : Dev) : List Byte :=
  let n := d.twin.lanesUp.length
  let split := d.twin.st == .partitioned
  toLE 1 (if d.twin.st == .unpaired then 0 else if d.ctl.senior then 1 else 2) ++ toLE 1 (if n = 0 then 0 else if n = 4 then 1 else 2) ++ toLE 1 n ++
    toLE 1 (b2n split + 2 * b2n (d.flt.status.getLsbD 36)) ++ zeros 4 ++ toLE 8 (if split then d.twin.partMt else 0) ++ zeros 48
def Dev.summaryNet (d : Dev) : List Byte :=
  bitBytes 32 (fun l => match d.groupOf l with | some (_, g) => g.stage == .active && (d.laneAt l).inSvc | none => false) ++ bitBytes 16 d.portUp ++
    toLE 2 d.casc.addr ++ toLE 1 (ringState d.casc.a d.casc.b) ++ toLE 1 (ringState d.casc.b d.casc.a) ++ toLE 2 d.cascSeen ++ toLE 1 (b2n d.casc.closed) ++ zeros 73
def Dev.summaryPraline (d : Dev) : List Byte :=
  toLE 4 d.prl.status ++ toLE 4 d.prl.audit ++ toLE 8 d.prl.sealTime ++ toLE 4 d.prl.mapped.length ++ zeros 44
def Dev.summaryThreads (d : Dev) (f : Nat) : List Byte :=
  let mine := d.thr.filter fun e => e.2.fn == f && e.2.st != .free
  toLE 4 (mine.length + fld 16 13 (mine.filter fun e => e.2.st == .ready || e.2.st == .running).length)
def LogEntry.bytes (l : LogEntry) : List Byte := toLE 8 l.uptime ++ toLE 2 l.code ++ toLE 2 l.source ++ toLE 4 l.arg
def Dev.channelNibbles (d : Dev) : List Byte := (List.range 256).map fun i => BitVec.ofNat 8 ((d.channel (2 * i)).summary + 16 * (d.channel (2 * i + 1)).summary)

/-- The block of Table 3.14. -/
def Dev.summaryBlock (d : Dev) : List Byte :=
  if !d.trust.done.contains 0 then d.summaryHead ++ zeros 64 ++ d.summaryFaults ++ zeros 3688
  else
    d.summaryHead ++ d.summaryTime ++ d.summaryFaults ++ zeros 40 ++ d.summaryTwin ++ (List.range 64).flatMap d.ringRecord ++ d.channelNibbles ++ d.summaryNet ++
      ((List.range 32).flatMap fun n => toLE 4 (d.islandWord n)) ++ d.summaryPraline ++ (List.range 64).flatMap d.summaryThreads ++ zeros 704 ++
      fit 1024 (d.hub.log.flatMap LogEntry.bytes)

/-- A function's Bus Master Enable: bit 2 of its Command register. PRESUMED from PCI Express (log entry 14). -/
def Dev.busMaster (d : Dev) (fn : Nat) : Bool := (d.hub.cmd.get 0 fn).getLsbD 2

/-- The hub serves the request: with the link up and the PF's Bus Master Enable set, outside a reset, and not while HUB_WDT is active. -/
def Dev.serveResync (d : Dev) (good : Bool) : Dev :=
  if d.hub.req && d.hub.linkUp && d.busMaster 0 && d.ctl.pwrOk && d.ctl.perstN && !d.flt.live.getLsbD 0 then
    let d1 := { d with hub := { d.hub with seq := (d.hub.seq + 1) % 65536, req := false } }
    if good then
      ({ d1 with hub := { d1.hub with done := true } }.emit (.host (d.hub.addrLo.toNat + d.hub.addrHi.toNat * 2 ^ 32) d1.summaryBlock)).raiseVector 0 0
    else { d1 with hub := { d1.hub with err := true } }
  else d

/-! ## BAR4 and the core windows (R86, R650, R673) -/

/-- Some controller's memory failed its training: no access to device memory is possible (R551). -/
def Dev.memDead (d : Dev) : Bool := (List.range 12).any fun m => (d.mcAt m).st == 5

/-- One byte of an aperture write. -/
def Dev.bar4Byte (d : Dev) (a : Nat) (b : Byte) : Dev := if a < d.capacity then { d with mem := d.memPut a [b] } else d

/-- The bytes whose enables are set, each with its address. -/
def enabledBytes (addr : Nat) (data : List Byte) (en : List Bool) : List (Nat × Byte) :=
  ((data.zip en).zipIdx.filter fun e => e.1.2).map fun e => (addr + e.2, e.1.1)

/-- An atom every byte of which is written is no longer poisoned (R547). -/
def Dev.unpoison (d : Dev) (as : List Nat) : Dev :=
  { d with poison := d.poison.filter fun p => !(List.range 64).all fun i => as.contains (p * 64 + i) }

/-- A request to BAR4. -/
def Dev.bar4 (d : Dev) (write : Bool) (addr : Nat) (data : List Byte) (en : List Bool) : Dev :=
  if write then
    if d.memDead then d
    else
      let bs := enabledBytes addr data en
      (bs.foldl (fun (e : Dev) (p : Nat × Byte) => e.bar4Byte p.1 p.2) d).unpoison (bs.map (·.1))
  else d.emit (.readData (if d.memDead then zeros data.length else (List.range data.length).map fun i => if addr + i < d.capacity then d.memByte (addr + i) else 0))

/-- A 32-bit read of a core window; a double-bit error of its word raises DILET_ECC. -/
def Dev.coreWindow (d : Dev) (c off : Nat) : Nat × Dev :=
  let a := c * 262144 + off / 4 * 4
  (leNat (readBytes d.loc a 4), if d.locErr.contains (a / 8) then d.raise 7 else d)

/-! ## Meanings -/

/-- RING_SQ_TAIL_WRITE (R94). -/
def execRingSqTailWrite (who : Requester) (fn : Fin 64) (v : BitVec 32) (s : State) : Host.Outcome State Fault Refusal := ok s (s.dev.sqTail who fn v)

/-- SQ_ENTRY_FETCH (R95 to R101). -/
def execSqEntryFetch (fn : Fin 64) (entry : List Byte) (s : State) : Host.Outcome State Fault Refusal := ok s (s.dev.fetchEntry fn entry)

/-- PROGRAM_START (R98, R672). -/
def execProgramStart (fn : Fin 64) (image : List Byte) (s : State) : Host.Outcome State Fault Refusal := ok s (s.dev.startProgram fn image)

/-- PROGRAM_IMAGE_READ_FAIL (R99). -/
def execProgramImageReadFail (fn : Fin 64) (f : ImageFail) (s : State) : Host.Outcome State Fault Refusal := ok s (s.dev.imageFail fn f)

/-- RING_CQ_HEAD_WRITE (R103, R105). -/
def execRingCqHeadWrite (who : Requester) (fn : Fin 64) (v : BitVec 32) (s : State) : Host.Outcome State Fault Refusal := ok s (s.dev.cqHead who fn v)

/-- VECTOR2_COALESCE_EXPIRY (R105). -/
def execVector2CoalesceExpiry (fn : Fin 64) (s : State) : Host.Outcome State Fault Refusal := ok s (s.dev.coalesceEnd fn)

/-- RING_ENABLE_SET (R108). -/
def execRingEnableSet (who : Requester) (fn : Fin 64) (s : State) : Host.Outcome State Fault Refusal := ok s (s.dev.ringOn who fn)

/-- RING_ENABLE_CLEAR (R108). -/
def execRingEnableClear (who : Requester) (fn : Fin 64) (s : State) : Host.Outcome State Fault Refusal := ok s (s.dev.ringOff who fn)

/-- HUB_RESYNC_REQ_WRITE (R113, R115). -/
def execHubResyncReqWrite (who : Requester) (s : State) : Host.Outcome State Fault Refusal := ok s (s.dev.resyncReq who)

/-- SUMMARY_BLOCK_WRITE (R114, R116): whether the write to the host completed without an error. -/
def execSummaryBlockWrite (good : Bool) (s : State) : Host.Outcome State Fault Refusal := ok s (s.dev.serveResync good)

/-- HUB_OWN_FN_WRITE (R89). -/
def execHubOwnFnWrite (who : Requester) (v : BitVec 32) (s : State) : Host.Outcome State Fault Refusal := ok s (s.dev.setOwner who v)

/-- HOST_BAR4_ACCESS (R86, R673): a read returns as many bytes as `data` has. -/
def execHostBar4Access (write : Bool) (addr : BitVec 36) (data : List Byte) (en : List Bool) (s : State) : Host.Outcome State Fault Refusal :=
  ok s (s.dev.bar4 write addr.toNat data en)

/-- CORE_WINDOW_READ (R650). -/
def execCoreWindowRead (c : Fin 128) (off : BitVec 18) (s : State) : Host.Outcome State Fault Refusal :=
  ok s ((s.dev.coreWindow c off.toNat).2.emit (.readData (toLE 4 (s.dev.coreWindow c off.toNat).1)))

end Sys2Proof.Machine
end

