-- ==== Sys2Proof/Machine/Lanes.lean ====
section
/-! DEFINITION. Serial lanes: groups, bring-up, equaliser caches, electrical idle, losses of lock, raw and test groups, and the time-stamps of PTP messages
on Ethernet ports (chapters 15 and 16). -/

namespace Sys2Proof.Machine

/-! ## Groups -/

def Group.an (g : Group) : Bool := g.proto == 1 && g.get 0x26 1 == 1
def Group.lt (g : Group) : Bool := g.get 0x27 1 == 1
def Group.fixedCtle (g : Group) : Bool := g.get 0x2D 1 == 1
/-- The group was made by LANE CONFIGURE. -/
def Group.own (g : Group) : Bool := g.proto == 1 || g.proto == 4 || g.proto == 5

/-- LANE_PORT_DOWN lasts while a port is down after a loss (Table 20.1). -/
def Dev.portLine (d : Dev) : Dev := d.setLine 44 (d.group.any fun e => e.2.down)

/-- The SDI rates of Table 16.1 in ascending order, in kb/s. -/
def sdiKbps : Nat → Nat
  | 1 => 1483516 | 2 => 1485000 | 3 => 2967033 | 4 => 2970000 | 5 => 5934066 | 6 => 5940000 | 7 => 11868132 | 8 => 11880000 | _ => 0

/-- The line rate at which a lane runs. An SDI lane has the rate that LOCK found; before that it trains at the SDI rate in its cache, or at the highest, which LOCK tries first.
DESIGN CHOICE (log entry 60). -/
def Lane.rate (y : Lane) (g : Group) : Nat :=
  if g.proto != 2 then g.kbps
  else if y.sdiRate != 0 then sdiKbps y.sdiRate
  else if y.cache && (List.range 9).any (fun k => k != 0 && sdiKbps k == y.cRate) then y.cRate else sdiKbps 8

/-- A valid cache of the lane's rate (R486). -/
def Lane.hot (y : Lane) (g : Group) : Bool := y.cache && y.cRate == y.rate g

/-- The equaliser as the cache has it, where that is valid and of the rate (R486). -/
def Lane.fromCache (y : Lane) (g : Group) : Lane := if y.hot g then { y with ctle := y.cCtle, dfe := y.cDfe, tx := y.cTx } else y

/-- TRAIN starts from a valid cache of its rate (R486), or with the CTLE fixed and the transmit taps of the descriptor (R484, R485). -/
def Dev.enterTrain (d : Dev) (first : Nat) : Dev :=
  let g := d.groupAt first
  let d1 := d.putGroupAt first { g with warm := (groupLanes first g).all fun l => (d.laneAt l).hot g }
  (groupLanes first g).foldl (fun e l => e.modLaneAt l fun y =>
    let y1 := y.fromCache g
    let y2 := if g.own && g.fixedCtle then { y1 with ctle := g.get 0x2E 1 } else y1
    if g.own && !g.lt then { y2 with tx := BitVec.ofNat 32 (g.get 0x32 4) } else y2) d1

/-- The limit of a group's stage in ticks (Table 16.3); link training and Clause 73 have timers of their own. -/
def Group.limit (g : Group) : Option Nat :=
  match g.stage with
  | .train => if g.lt || g.proto == 3 then none else some (if g.warm then 150000000 else 1500000000)
  | .lock => some (if g.proto == 2 then 96000000 else 30000000)
  | .caps => if g.proto == 3 then some 30000000 else none
  | _ => none

/-- The stage has exceeded its limit. -/
def Group.overdue (g : Group) (now : Nat) : Bool := match g.limit with | some n => decide (g.since + n < now) | none => false

/-- The SDI rate that LOCK tries, 4 ms each, from the highest to the lowest (Table 16.3). -/
def Group.tries (g : Group) (now : Nat) : Nat := 8 - min 7 ((now - g.since) / 12000000)

/-- The stage after another (R482). -/
def Group.nextStage (g : Group) : Stage :=
  match g.stage with
  | .detect => if g.an then .caps else .train
  | .train => .lock
  | .lock => if g.an then .active else .caps
  | .caps => if g.an then .train else .active
  | s => s

/-- The group enters a stage. CAPS passes at once unless it is an exchange with the partner or under AN; ACTIVE carries traffic. -/
def Dev.enterStage (d : Dev) (first : Nat) (st : Stage) : Dev :=
  let g := d.groupAt first
  let st := if st == .caps && !g.an && g.proto != 3 then .active else st
  let d1 := d.putGroupAt first { g with stage := st, passed := [], since := d.ctl.ticks, retryAt := none, down := g.down && st != .active, been := g.been || st == .active }
  match st with
  | .train => d1.enterTrain first
  | .caps => if g.proto = 3 then d1.offerPairing else d1
  | .active => ((groupLanes first g).foldl (fun e l => e.modLaneAt l fun y => { y with inSvc := true }) d1).portLine
  | _ => d1

/-- The octet of a lane has its reference clock (R662). -/
def Dev.octetRuns (d : Dev) (l : Nat) : Bool := d.ctl.octClk.getLsbD (l / 8)

/-- A lane has passed its group's stage; the group moves on when every lane has. -/
def Dev.passStage (d : Dev) (l first : Nat) : Dev :=
  let g := d.groupAt first
  let passed := if g.passed.contains l then g.passed else g.passed ++ [l]
  let d1 := d.putGroupAt first { g with passed := passed }
  if (groupLanes first g).all passed.contains then d1.enterStage first g.nextStage else d1

/-- A stage fails (R483): the group returns to DETECT 10 ms later. -/
def Dev.failStage (d : Dev) (first : Nat) : Dev :=
  let g := d.groupAt first
  (groupLanes first g).foldl (fun e l => e.modLaneAt l fun y => { y with retries := satAdd 16 y.retries 1 })
    (d.putGroupAt first { g with passed := [], retryAt := some (d.ctl.ticks + 30000000) })

/-! ## Bring-up events -/

/-- What Table 16.3 asks of a lane in DETECT: termination, or with DETECT_MODE 1 and on SDI lanes 1 ms of signal energy. -/
def Group.detects (g : Group) (f : DetectFacts) : Bool := if g.proto == 2 || g.get 0x2C 1 == 1 then decide (3000000 ≤ f.energy) else f.term

/-- A poll of DETECT, 1 ms after the last one (R482): it finds whether the octet has its clock, without which no lane passes (R662), and what Table 16.3 asks of the
lane. -/
def Dev.detectPoll (d : Dev) (l : Nat) (f : DetectFacts) : Dev :=
  match d.groupOf l with
  | some (first, g) =>
    if g.stage != .detect || (match (d.laneAt l).polled with | some t => decide (d.ctl.ticks < t + 3000000) | none => false) then d
    else
      let oct := if f.clk then d.ctl.octClk ||| (1#32 <<< (l / 8)) else d.ctl.octClk &&& ~~~(1#32 <<< (l / 8))
      let d1 := { d with ctl := { d.ctl with octClk := oct } }.modLaneAt l fun y => { y with polled := some d.ctl.ticks }
      if g.detects f && f.clk then d1.passStage l first
      else d1.putGroupAt first { g with passed := g.passed.filter (· != l) }
  | none => d

/-- What a lane's equaliser has found (R485): the DFE is 0 at NRZ rates, and a fixed CTLE stays. -/
def Lane.adapted (y : Lane) (g : Group) (f : LaneFacts) : Lane :=
  { y with ctle := if g.own && g.fixedCtle then y.ctle else min 48 f.ctle, dfe := if g.pam4 then f.dfe else 0 }

/-- What a lane has found when it passes TRAIN: with LT 1, and on a twin lane, link training has set the transmit equaliser too (R484). -/
def Lane.trained (y : Lane) (g : Group) (f : LaneFacts) : Lane := { y.adapted g f with tx := if g.lt || g.proto == 3 then f.tx else y.tx }

/-- The lane writes its cache (R486). -/
def Lane.cached (y : Lane) (g : Group) (now : Nat) : Lane :=
  { y with cache := true, cRate := y.rate g, cCtle := y.ctle, cDfe := y.dfe, cTx := y.tx, cacheAt := now }

/-- A lane passes TRAIN, LOCK or CAPS (R482, R486); the twin's CAPS passes by the pairing record alone. Beyond the stage's limit it fails (R483). An SDI lane locks at the
rate that is being tried. A lane that retrains alone has lock again (R492). -/
def Dev.stagePass (d : Dev) (l : Nat) (f : LaneFacts) : Dev :=
  match d.groupOf l with
  | some (first, g) =>
    if g.retryAt.isSome || g.passed.contains l || !d.octetRuns l then d
    else if g.overdue d.ctl.ticks then d.failStage first
    else match g.stage with
      | .train => (d.modLaneAt l fun y => (y.trained g f).cached g d.ctl.ticks).passStage l first
      | .lock =>
        if g.proto = 2 then (if f.sdiRate = g.tries d.ctl.ticks then (d.modLaneAt l fun y => { y with sdiRate := f.sdiRate }).passStage l first else d)
        else d.passStage l first
      | .caps => if g.proto = 3 then d else d.passStage l first
      | .active =>
        if (d.laneAt l).retrain.isSome && (d.laneAt l).relock.isNone then d.modLaneAt l fun y => { (y.trained g f).cached g d.ctl.ticks with relock := some d.ctl.ticks } else d
      | _ => d
  | none => d

/-- A stage exceeds its limit; one without a limit in Table 16.3 fails by its standard's timers (R483). -/
def Dev.stageTimeout (d : Dev) (l : Nat) : Dev :=
  match d.groupOf l with
  | some (first, g) =>
    if g.retryAt.isNone && (g.stage == .train || g.stage == .lock || g.stage == .caps) && (g.limit.isNone || g.overdue d.ctl.ticks) then d.failStage first else d
  | none => d

/-- 10 ms after a failure the group returns to DETECT (R483). -/
def Dev.bringupRetry (d : Dev) (l : Nat) : Dev :=
  match d.groupOf l with
  | some (first, g) =>
    match g.retryAt with
    | some t => if t ≤ d.ctl.ticks then d.enterStage first .detect else d
    | none => d
  | none => d

/-! ## Losing lock (R491, R492) -/

/-- An Ethernet port goes down (R492): its queues discard, and the group trains again while there is energy on every lane. -/
def Dev.portLoss (d : Dev) (first : Nat) (energy : Bool) : Dev :=
  let g := d.groupAt first
  let d1 := d.putGroupAt first { g with down := true }
  let d2 := (groupLanes first g).foldl (fun e l => e.modLaneAt l fun y => { y with inSvc := false }) d1
  ((d2.enterStage first (if energy && !g.an then .train else .detect)).discardPort (g.get 0x24 1)).portLine

/-- A lane loses lock (R491): the loss is counted and raises LANE_LOCK. -/
def Dev.countLoss (d : Dev) (l : Nat) : Dev :=
  (d.modLaneAt l fun y => { y with losses := satAdd 16 y.losses 1, chkLock := false, lostAt := some d.ctl.ticks }).raise 43

/-- The operation that released, idled or changed the loopback of a lane's group is of this instant (R493). -/
def Dev.completing (d : Dev) (l : Nat) : Bool :=
  (match d.groupOf l with
   | some (_, g) => (g.stage == .idle && g.idleAt == d.ctl.ticks) || g.testAt == some d.ctl.ticks
   | none => (d.laneAt l).idleAt == some d.ctl.ticks && (d.laneAt l).freed == some d.ctl.ticks) && (d.laneAt l).lostAt != some d.ctl.ticks

/-- LANE_LOCK_LOSS (R491, R492). Another lane of a port that has just gone down lost its lock in the same instant and counts too; so does a loss while the group is
completing an operation, which goes on as though the lane had been locked (R493). -/
def Dev.lockLoss (d : Dev) (l : Nat) (energy : Bool) : Dev :=
  if d.completing l then d.countLoss l
  else match d.groupOf l with
  | some (first, g) =>
    if g.stage == .lock || g.stage == .caps then (if g.retryAt.isNone then d.failStage first else d)
    else if g.stage != .active then
      (if g.proto = 1 && g.down && g.since = d.ctl.ticks && (d.laneAt l).lostAt != some d.ctl.ticks then d.countLoss l else d)
    else
      let d1 := d.countLoss l
      match g.proto with
      | 1 => d1.portLoss first energy
      | 3 => (d1.modLaneAt l fun y => { y.fromCache g with inSvc := false, retrain := some d.ctl.ticks, relock := none }).setTwinLanes (d.twin.lanesUp.filter (· != l))
      | _ => (d1.modLaneAt l fun y => { y with inSvc := false, sdiRate := 0 }).enterStage first .lock
  | none => d

/-- A twin lane is in service again 1 ms after it gained lock again, when neither a loss nor a block error came between (R492); a partitioned half offers its pairing record
again (R357). -/
def Dev.laneReadmit (d : Dev) (l : Nat) (blockErr : Bool) : Dev :=
  match d.groupOf l, (d.laneAt l).relock with
  | some (_, g), some t =>
    if blockErr then d.modLaneAt l fun y => { y with relock := some d.ctl.ticks }
    else if g.proto = 3 && g.stage == .active && t + 3000000 ≤ d.ctl.ticks then
      let d1 := (d.modLaneAt l fun y => { y with inSvc := true, retrain := none, relock := none }).setTwinLanes (d.twin.lanesUp.filter (· < l) ++ [l] ++ d.twin.lanesUp.filter (l < ·))
      if d1.twin.st == .partitioned then d1.offerPairing else d1
    else d
  | _, _ => d

/-! ## Equaliser caches (R486, R487) -/

/-- In ACTIVE the equaliser keeps adapting (R485), and every 100 ms it goes into the cache (R486). -/
def Dev.eqCacheWrite (d : Dev) (l : Nat) (f : LaneFacts) : Dev :=
  match d.groupOf l with
  | some (_, g) =>
    if g.stage == .active && (d.laneAt l).retrain.isNone then
      d.modLaneAt l fun y => if y.cacheAt + 300000000 ≤ d.ctl.ticks then (y.adapted g f).cached g d.ctl.ticks else y.adapted g f
    else d
  | none => d

/-- The hold limit of an idle lane passes: its cache is invalid. -/
def Dev.eqCacheDrop (d : Dev) (l : Nat) : Dev := if (d.laneAt l).stale d.ctl.ticks then d.putLaneAt l (d.laneAt l).plain else d

/-! ## Raw and test groups (R494 to R499) -/

/-- The bits of a byte string, in the order in which they cross a lane: bit 0 of the first byte first. -/
def bitsOf (bs : List Byte) : List Bool := bs.flatMap fun b => (List.range 8).map b.getLsbD

/-- The bytes of a bit string. -/
def bytesOf (n : Nat) (bs : List Bool) : List Byte :=
  (List.range n).map fun i => BitVec.ofNat 8 ((List.range 8).map fun k => if bs.getD (8 * i + k) false then 2 ^ k else 0).sum

/-- The symbols of a bit string: at PAM4 rates two bits each, Gray-coded, the first bit in time the more significant (R477, R497). -/
def symbols (pam4 : Bool) : List Bool → List Nat
  | a :: b :: r => if pam4 then (match a, b with | false, false => 0 | false, true => 1 | true, true => 2 | true, false => 3) :: symbols pam4 r else b2n a :: symbols pam4 (b :: r)
  | [a] => if pam4 then [] else [b2n a]
  | [] => []

/-- Bits behind a polarity setting of the group's one lane (Table 16.7). -/
def Group.rxInv (g : Group) (bs : List Bool) : List Bool := bs.map fun b => b != bitN (g.get 0x30 1) 0
def Group.txInv (g : Group) (bs : List Bool) : List Bool := bs.map fun b => b != bitN (g.get 0x31 1) 0

/-- What a raw group transmits of its buffer: with FRAMING 1 every 64-bit word behind sync header 0b01 (R494). -/
def Group.rawBits (g : Group) (bs : List Byte) : List Bool :=
  if g.get 0x2F 1 = 0 then bitsOf bs else (List.range (bs.length / 8)).flatMap fun i => [false, true] ++ bitsOf ((bs.drop (8 * i)).take 8)

/-- The payload bits of a stream of 66-bit blocks, whose sync headers are cut out (R494). -/
def payloads : Nat → List Bool → List Bool
  | 0, _ => []
  | n + 1, bs => (bs.drop 2).take 64 ++ payloads n (bs.drop 66)

/-- The bits of an atom that arrive on a raw lane: 64 bytes, or with FRAMING 1 eight blocks of 66 bits without their headers. -/
def Group.rawRx (g : Group) (bs : List Byte) : List Bool :=
  if g.get 0x2F 1 = 0 then g.rxInv (bitsOf ((bs ++ zeros 64).take 64)) else payloads 8 (g.rxInv (bitsOf ((bs ++ zeros 66).take 66)))

/-- The time of an atom passes on a raw lane (R494, R495, log entry 55): from its first ACTIVE until release the next 64 bytes of the transmit buffer leave, save in
electrical idle (R488), and in ACTIVE an atom arrives. The slips that wait take their bits out of the received stream, and every 64 bytes of what remains are written into
the ring. -/
def Dev.rawAtom (d : Dev) (l : Nat) (bs : List Byte) : Dev :=
  match d.groupOf l with
  | some (_, g) =>
    if g.proto = 4 && g.been && g.stage != .idle then
      let y := d.laneAt l
      let sent := d.memRead (g.get 0x48 8 + y.txPtr) 64
      let ui := if g.pam4 then 2 else 1
      let all := y.rxBits ++ g.rawRx bs
      let rx := all.drop (y.slips * ui)
      let y0 := { y with txPtr := (y.txPtr + 64) % max 1 (g.get 0x44 4) }
      let y1 := { y0 with slips := (y.slips * ui - all.length) / ui, rxBits := rx }
      let d1 := d.emit (.laneTx l (symbols g.pam4 (g.txInv (g.rawBits sent))))
      if g.stage != .active then d1.putLaneAt l y0
      else if rx.length < 512 then d1.putLaneAt l y1
      else (d1.memWrite (g.get 0x38 8 + y.rawPtr) (bytesOf 64 rx)).putLaneAt l
        { y1 with rxBits := rx.drop 512, rawPtr := (y.rawPtr + 64) % max 1 (g.get 0x40 4) }
    else d
  | none => d

/-- A write of 1 to SLIP (R495). -/
def Dev.slip (d : Dev) (who : Requester) (l : Nat) (v : Word) : Dev :=
  match d.groupOf l with
  | some (_, g) => if isPf who && v.getLsbD 0 && g.proto = 4 && g.get 0x2F 1 = 0 then d.modLaneAt l fun y => { y with slips := y.slips + 1 } else d
  | none => d

/-- The two taps of a pattern (Table 16.5). -/
def prbsTaps : Nat → Nat × Nat
  | 7 => (7, 6) | 9 => (9, 5) | 15 => (15, 14) | 23 => (23, 18) | _ => (31, 28)

/-- The bit that follows the last 31, the latest lowest, and the bits after it. -/
def prbsNext (pattern bits : Nat) : Bool := bitN bits ((prbsTaps pattern).1 - 1) != bitN bits ((prbsTaps pattern).2 - 1)
def prbsShift (bits : Nat) (b : Bool) : Nat := (bits * 2 + b2n b) % 2 ^ 31

/-- n bits of the generator, and its state after them (R497). -/
def prbsRun (pattern : Nat) : Nat → Nat → List Bool × Nat
  | 0, g => ([], g)
  | n + 1, g =>
    let b := prbsNext pattern g
    let r := prbsRun pattern n (prbsShift g b)
    (b :: r.1, r.2)

/-- One bit reaches the checker (R498): unlocked it follows the received bits until 64 in a row are right; locked it runs on its own, counts, and loses lock when 512
of the last 1,024 bits were wrong. -/
def Lane.checkBit (pattern : Nat) (y : Lane) (b : Bool) : Lane :=
  let want := prbsNext pattern y.chk
  let wrong := b != want
  if y.chkLock then
    let win := (wrong :: y.win).take 1024
    let counts := decide (y.prbsBits < 2 ^ 48 - 1) && decide (y.prbsErr < 2 ^ 48 - 1)
    { y with
      chk := prbsShift y.chk want, win := win, run := 0, chkLock := decide ((win.filter id).length < 512)
      prbsBits := if counts then y.prbsBits + 1 else y.prbsBits, prbsErr := if counts then y.prbsErr + b2n wrong else y.prbsErr }
  else
    let run := if wrong then 0 else y.run + 1
    { y with chk := prbsShift y.chk b, win := [], run := run, chkLock := decide (64 ≤ run) }

/-- The time of some bits passes on the lane of a test group (R496 to R498): what the generator sends, what the loopback makes of it and of the received bits, and the
checker, which needs bit lock. The generator drives in every stage but electrical idle, and its state moves on while it does (log entry 55). -/
def Dev.prbsBits (d : Dev) (l : Nat) (rx : List Bool) : Dev :=
  match d.groupOf l with
  | some (_, g) =>
    if g.proto = 5 && g.stage != .idle then
      let y := d.laneAt l
      let drives := g.pattern != 0
      let (sent, gen) := prbsRun g.pattern rx.length y.gen
      let seen := match g.loopback with | 1 => g.rxInv (g.txInv sent) | 2 => sent | _ => g.rxInv rx
      let pins := match g.loopback with | 2 => [] | 3 => (if g.stage == Stage.active then rx else []) | _ => if drives then g.txInv sent else []
      let y1 := if drives then { y with gen := gen } else y
      let y2 := if g.check && drives && g.stage == .active then seen.foldl (Lane.checkBit g.pattern) y1 else y1
      (if pins.isEmpty then d else d.emit (.laneTx l (symbols g.pam4 pins))).putLaneAt l y2
    else d
  | none => d

/-! ## The LANE unit (R500, R501) -/

def laneConfigureSpec (_ : Dev) (x : Desc) : OpSpec :=
  let eth := x.get 0x23 1 == 1
  let raw := x.get 0x23 1 == 4
  { len := 0x80, eff0 := true, rsv := [(0x36, 2), (0x50, 48)], idx := if eth then [(x.get 0x24 1, 128)] else [],
    own := if eth then [(2, x.get 0x24 1)] else [], pf := !eth,
    mem := if raw then [⟨x.get 0x38 8, max 1 (x.get 0x40 4), false, true⟩, ⟨x.get 0x48 8, max 1 (x.get 0x44 4), true, false⟩] else [] }

/-- RELEASE, IDLE and TEST: an Ethernet group belongs to its port's owner, any other to the PF. -/
def laneGroupSpec (rsv : List (Nat × Nat)) (d : Dev) (x : Desc) : OpSpec :=
  let g := d.groupAt (x.get 0x20 2)
  { eff0 := true, rsv := rsv, own := if g.proto = 1 then [(2, g.get 0x24 1)] else [], pf := g.proto != 1 }

/-- The combinations of Table 16.2: width, rate, FEC. -/
def etherOk (w r fec : Nat) : Bool :=
  (w == 1 && r == 10312500 && fec == 0) || (w == 1 && r == 25781250 && fec ≤ 1) || (w == 4 && r == 25781250 && fec == 1) ||
    (r == 53125000 && (w == 1 || w == 4 || w == 8) && fec == 2) || (r == 106250000 && (w == 1 || w == 2 || w == 4 || w == 8) && fec == 2)

/-- A field breaks Table 16.7, or the group breaks R480. -/
def laneBadField (x : Desc) : Bool :=
  let g := x.get
  let l := g 0x20 2
  let w := g 0x22 1
  let proto := g 0x23 1
  let eth := proto == 1
  let raw := proto == 4
  let s (o : Nat) : Int := toSigned 8 (g o 1)
  !(w == 1 || w == 2 || w == 4 || w == 8) || !(eth || raw || proto == 5) || (!eth && (g 0x24 1 != 0 || g 0x25 1 != 0 || g 0x26 1 != 0 || w != 1)) ||
    g 0x25 1 > 2 || g 0x26 1 > 1 || g 0x27 1 > 1 || g 0x2C 1 > 1 || g 0x2D 1 > 1 || g 0x2E 1 > 48 || (g 0x2D 1 = 0 && g 0x2E 1 != 0) ||
    g 0x2F 1 > 1 || (!raw && g 0x2F 1 != 0) || s 0x34 < 32 || 64 < (s 0x32).natAbs + (s 0x33).natAbs + (s 0x34).natAbs + (s 0x35).natAbs ||
    (if raw then g 0x38 8 % 4096 != 0 || g 0x40 4 % 4096 != 0 || g 0x40 4 < 65536 || g 0x40 4 > 2 ^ 28 || g 0x44 4 % 64 != 0 || g 0x44 4 < 64 ||
        g 0x44 4 > 2 ^ 28 || g 0x48 8 % 64 != 0
     else !zeroBytes x.bytes 0x38 24) ||
    l > 255 || l % w != 0 || (eth && (g 0x24 1 < 64) != (l < 128))

/-- A rate breaks R477, or an Ethernet combination is not in Table 16.2. -/
def laneBadFormat (x : Desc) : Bool :=
  let r := x.get 0x28 4
  if x.get 0x23 1 = 1 then !etherOk (x.get 0x22 1) r (x.get 0x25 1)
  else !((1250000 ≤ r && r ≤ 28125000) || (53125000 ≤ r && r ≤ 112500000))

/-- CONFIGURE (R501, R642). -/
def Dev.laneConfigure (d : Dev) (x : Desc) : Dev :=
  let l := x.get 0x20 2
  let w := x.get 0x22 1
  let busy := (List.range w).any (fun i => (d.groupOf (l + i)).isSome) || (x.get 0x23 1 == 1 && (d.portGroup (x.get 0x24 1)).isSome)
  d.checked x [(busy || d.dozing, stBusy), (laneBadField x, stBadDesc), (laneBadFormat x, stFormat), (d.octetFull (l / 8) (x.get 0x28 4), stCapacity)]
    (((d.bindGroup l w (x.get 0x23 1) x.bytes).modLaneAt l fun y => if x.get 0x23 1 = 4 then { y with rawPtr := 0, txPtr := 0, slips := 0, rxBits := [] } else y).complete x stOK 0)

/-- A group that is no longer there: a port without lanes discards (R423). -/
def Dev.dropGroup (d : Dev) (first : Nat) : Dev :=
  let g := d.groupAt first
  let d1 := (d.unbindGroup first).portLine
  if g.proto = 1 then d1.discardPort (g.get 0x24 1) else d1

/-- RELEASE (R501). -/
def Dev.laneRelease (d : Dev) (x : Desc) : Dev :=
  let l := x.get 0x20 2
  d.checked x [(!(d.groupAt l).own, stBusy)] ((d.dropGroup l).complete x stOK 0)

/-- A group enters electrical idle (R488, R490): bring-up is given up, an Ethernet port is down without a fault. A loss of this same instant changes nothing of it (R493). -/
def Dev.groupIdle (d : Dev) (first : Nat) (dormant : Bool) : Dev :=
  let g := d.groupAt first
  if g.stage == .idle then d
  else
    let d1 := d.putGroupAt first { g with
      stage := .idle, passed := [], retryAt := none, down := false, idleAt := d.ctl.ticks, dormant := dormant,
      midway := g.stage != .active && !(groupLanes first g).any fun l => (d.laneAt l).lostAt == some d.ctl.ticks }
    let d2 := ((groupLanes first g).foldl (fun e l => e.modLaneAt l fun y => { y with inSvc := false, chkLock := false, idleAt := some d.ctl.ticks }) d1).portLine
    if g.proto = 1 then d2.discardPort (g.get 0x24 1) else d2

/-- A group leaves electrical idle (R489, R490): every lane sends its 128 ns burst, and the group goes to LOCK while the idle was no longer than every lane's hold, unless
it had not been ACTIVE, the standard's exchange must run or its octet has no clock (R662); else to DETECT. -/
def Dev.groupWake (d : Dev) (first : Nat) : Dev :=
  let g := d.groupAt first
  if g.stage != .idle then d
  else
    let ls := groupLanes first g
    let quick := ls.all (fun l => d.ctl.ticks ≤ g.idleAt + (d.laneAt l).holdTicks && (d.laneAt l).cache) && !g.an && !(g.proto == 1 && g.lt) && !g.midway && d.octetRuns first
    (ls.foldl (fun e l => (e.modLaneAt l fun y => y.wake d.ctl.ticks).emit (.notice "LANE_BURST" l 128 0)) (d.putGroupAt first { g with dormant := false })).enterStage first (if quick then .lock else .detect)

/-- IDLE (R488 to R490, R642). -/
def Dev.laneIdle (d : Dev) (x : Desc) : Dev :=
  let l := x.get 0x20 2
  let on := x.get 0x22 1
  d.checked x [(!(d.groupAt l).own || d.dozing, stBusy), (on > 1, stBadDesc)]
    ((if on = 1 then d.groupIdle l false else d.groupWake l).complete x stOK 0)

/-- TEST (R496 to R499): one change; the checker loses lock. After a loss of this same instant it goes on as though the lane had been locked (R493). -/
def Dev.laneTest (d : Dev) (x : Desc) : Dev :=
  let l := x.get 0x20 2
  let g := d.groupAt l
  let p := x.get 0x22 1
  let bad := !(p == 0 || p == 7 || p == 9 || p == 15 || p == 23 || p == 31) || x.get 0x23 1 > 1 || x.get 0x24 1 > 3 || x.get 0x25 1 > 1
  d.checked x [(g.proto != 5, stBusy), (bad, stBadDesc)]
    (((d.putGroupAt l { g with
        pattern := p, check := x.get 0x23 1 == 1, loopback := x.get 0x24 1, testAt := some d.ctl.ticks,
        stage := if g.stage == .lock && (d.laneAt l).lostAt == some d.ctl.ticks then .active else g.stage }).modLaneAt l fun y =>
      { y with chkLock := false, run := 0, win := [], prbsErr := if x.get 0x25 1 = 1 then 0 else y.prbsErr, prbsBits := if x.get 0x25 1 = 1 then 0 else y.prbsBits }).complete x stOK 0)

/-! ## PTP time-stamps (R466, R469) -/

/-- TX and RX constants of Table 15.3 in tenths of a nanosecond. -/
def ptpConstants (g : Group) : Nat × Nat :=
  match g.width, g.get 0x28 4 with
  | 1, 10312500 => (184, 279)
  | 1, 25781250 => if g.get 0x25 1 = 0 then (116, 192) else (627, 1183)
  | 1, 53125000 => (582, 1316)
  | 4, 25781250 => (453, 968)
  | 1, 106250000 => (409, 1245)
  | 4, 53125000 => (386, 1170)
  | 2, 106250000 => (386, 1170)
  | 8, 53125000 => (361, 1124)
  | 4, 106250000 => (361, 1124)
  | _, _ => (348, 1097)

/-- The counter to 1/3 ns, in units of 1/30 ns. -/
def TimeBase.stamp30 (t : TimeBase) : Nat := ((t.sec * 1000000000 + t.ns) * 3 + t.frac * 3 / 2 ^ 32) * 10

/-- PTP is enabled on a port that is up. -/
def Dev.ptpPort (d : Dev) (p : Nat) : Option Group := if d.ptpOn p && d.portUp p then d.portGroup p else none

/-- A message is received: its stamp goes to the stack. -/
def Dev.ptpRx (d : Dev) (p : Nat) (m : PtpMsg) : Dev :=
  match d.ptpPort p with
  | some g => d.emit (.notice "PTP_RX" p (d.tb.stamp30 - (ptpConstants g).2 * 3) (b2n m.sync))
  | none => d

/-- The ones' complement sum of a message's 16-bit words. -/
def onesSum : List Byte → Nat
  | a :: b :: r => let s := a.toNat * 256 + b.toNat + onesSum r; if s < 65536 then s else s - 65535
  | [a] => a.toNat * 256
  | [] => 0

/-- A Sync with its egress stamp of t/30 ns (R469): the originTimestamp, at byte 34, and the part below 1 ns in correctionField, at byte 8, in 2^-16 ns. Over IPv6 the trailer
keeps the sum of the message, so that the UDP checksum stays valid. The places are those of IEEE 1588 (PRESUMED, log entry 61). -/
def ptpStamped (m : PtpMsg) (t : Nat) : List Byte :=
  let be (n v : Nat) : List Byte := (toLE n v).reverse
  let bs := overlay (overlay m.bytes 8 (be 8 (t % 30 * 65536 / 30))) 34 (be 6 (t / 30000000000) ++ be 4 (t / 30 % 1000000000))
  if m.via = .udp6 then
    let body := bs.take (bs.length - 2)
    body ++ be 2 ((onesSum m.bytes + (65535 - onesSum body)) % 65535)
  else bs

/-- A message is sent: its stamp goes to the stack, and into a Sync in one-step mode, whose UDP checksum over IPv4 is 0. -/
def Dev.ptpTx (d : Dev) (p : Nat) (m : PtpMsg) : Dev :=
  match d.ptpPort p with
  | some g =>
    let t := d.tb.stamp30 + (ptpConstants g).1 * 3
    let d1 := d.emit (.notice "PTP_TX" p t (b2n m.sync))
    if m.sync && byteAt (d.tb.ptp.get [] p) 5 == 1 then d1.emit (.ptpSync p (ptpStamped m t) (m.via == .udp4)) else d1
  | none => d

/-! ## Registers (Table 16.8) -/

def stageCode : Stage → Nat
  | .unbound => 0 | .detect => 1 | .train => 2 | .lock => 3 | .caps => 4 | .active => 5 | .idle => 6

/-- A read of lane l's window. -/
def Dev.readLane (d : Dev) (l off : Nat) : Nat :=
  let y := d.laneAt l
  match off with
  | 0x00 => (match d.groupOf l with
    | some (first, g) => stageCode g.stage + fld 3 3 g.proto + fld 6 1 (b2n g.pam4) + fld 7 1 (b2n y.inSvc) + fld 8 2 g.loopback + fld 10 1 (b2n y.chkLock) +
        fld 12 4 y.sdiRate + fld 16 8 first + fld 24 4 g.width
    | none => 0)
  | 0x04 => y.ctle + fld 6 1 (b2n y.cache)
  | 0x08 => y.dfe.toNat
  | 0x0C => y.eqHold
  | 0x14 => y.losses + fld 16 16 y.retries
  | 0x18 => y.prbsErr % 2 ^ 32
  | 0x1C => y.prbsErr / 2 ^ 32
  | 0x20 => y.prbsBits % 2 ^ 32
  | 0x24 => y.prbsBits / 2 ^ 32
  | 0x28 => y.rawPtr
  | _ => 0

/-- A write of lane l's window (R503). -/
def Dev.writeLane (d : Dev) (who : Requester) (l off : Nat) (v : Word) : Dev :=
  match off with
  | 0x0C => if isPf who then d.modLaneAt l fun y => { y with eqHold := bits v.toNat 0 20 } else d
  | 0x10 => d.slip who l v
  | _ => d

/-! ## Meanings -/

/-- LANE_CONFIGURE (R501). -/
def execLaneConfigure (s : State) : Host.Outcome State Fault Refusal := ok s (s.dev.runUnit 12 1 laneConfigureSpec Dev.laneConfigure)

/-- LANE_RELEASE (R501). -/
def execLaneRelease (s : State) : Host.Outcome State Fault Refusal := ok s (s.dev.runUnit 12 2 (laneGroupSpec [(0x22, 30)]) Dev.laneRelease)

/-- LANE_IDLE (R490). -/
def execLaneIdle (s : State) : Host.Outcome State Fault Refusal := ok s (s.dev.runUnit 12 3 (laneGroupSpec [(0x23, 29)]) Dev.laneIdle)

/-- LANE_TEST (R499). -/
def execLaneTest (s : State) : Host.Outcome State Fault Refusal := ok s (s.dev.runUnit 12 4 (laneGroupSpec [(0x26, 26)]) Dev.laneTest)

/-- DETECT_POLL (R482). -/
def execDetectPoll (l : LaneRef) (found : DetectFacts) (s : State) : Host.Outcome State Fault Refusal :=
  ok s (match l with | .general k => s.dev.detectPoll k found | .cascade b => s.dev.cascDetect b found.term)

/-- BRINGUP_STAGE_PASS (R482). -/
def execBringupStagePass (l : LaneRef) (facts : LaneFacts) (s : State) : Host.Outcome State Fault Refusal :=
  ok s (match l with | .general k => s.dev.stagePass k facts | .cascade b => s.dev.cascPass b)

/-- BRINGUP_STAGE_TIMEOUT (R483). -/
def execBringupStageTimeout (l : LaneRef) (s : State) : Host.Outcome State Fault Refusal :=
  ok s (match l with | .general k => s.dev.stageTimeout k | .cascade b => s.dev.cascTimeout b)

/-- BRINGUP_RETRY (R483). -/
def execBringupRetry (l : LaneRef) (s : State) : Host.Outcome State Fault Refusal :=
  ok s (match l with | .general k => s.dev.bringupRetry k | .cascade b => s.dev.cascRetry b)

/-- LANE_LOCK_LOSS (R491, R492). -/
def execLaneLockLoss (l : LaneRef) (energy : Bool) (s : State) : Host.Outcome State Fault Refusal :=
  ok s (match l with | .general k => s.dev.lockLoss k energy | .cascade b => s.dev.cascLoss b)

/-- LANE_READMIT (R492). -/
def execLaneReadmit (x : CleanLock) (s : State) : Host.Outcome State Fault Refusal :=
  ok s (match x.lane with | .general k => s.dev.laneReadmit k x.blockErr | .cascade b => s.dev.cascReadmit b x.blockErr)

/-- EQ_CACHE_WRITE (R486). -/
def execEqCacheWrite (l : Fin 256) (facts : LaneFacts) (s : State) : Host.Outcome State Fault Refusal := ok s (s.dev.eqCacheWrite l facts)

/-- EQ_CACHE_INVALIDATE (R487). -/
def execEqCacheInvalidate (l : Fin 256) (s : State) : Host.Outcome State Fault Refusal := ok s (s.dev.eqCacheDrop l)

/-- LANEN_SLIP_WRITE (R495). -/
def execLanenSlipWrite (who : Requester) (l : Fin 256) (v : Word) (s : State) : Host.Outcome State Fault Refusal := ok s (s.dev.slip who l v)

/-- RAW_ATOM_WRITE (R494). -/
def execRawAtomWrite (l : Fin 256) (data : List Byte) (s : State) : Host.Outcome State Fault Refusal := ok s (s.dev.rawAtom l data)

/-- PRBS_CHECKER_LOCK (R498). -/
def execPrbsCheckerLock (l : Fin 256) (rx : List Bool) (s : State) : Host.Outcome State Fault Refusal := ok s (s.dev.prbsBits l rx)

/-- PTP_MESSAGE_RX (R434, R466): a dropped PTP message is a dropped frame without an IP header, or one for a UDP port of PTP event messages. -/
def execPtpMessageRx (p : Fin 128) (m : PtpMsg) (s : State) : Host.Outcome State Fault Refusal := 
  ok s (s.dev.unlessDropped (fun a => a.port == p && (if m.via = .ether then a.dst == 0 && a.udp == 0 else a.udp == 319)) fun d => d.ptpRx p m)

/-- PTP_MESSAGE_TX (R469). -/
def execPtpMessageTx (p : Fin 128) (m : PtpMsg) (s : State) : Host.Outcome State Fault Refusal := ok s (s.dev.ptpTx p m)

end Sys2Proof.Machine
end

