-- ==== Sys2Proof/Machine/MemCtl.lean ====
section
/-! DEFINITION. The memory controllers: arbitration, refresh, self-refresh, ECC, link CRC, scrub and training, and the MEM unit (chapter 18). -/

namespace Sys2Proof

/-! ## Requests (R531, R535) -/

/-- A burst of a real-time master (Table 18.2). -/
def Burst.rt (b : Burst) : Bool := b.src.rt

/-- The atoms of a request's first burst: at most 32 of a real-time master and 16 of another source, and no more than its granule holds (R535). -/
def Burst.head (b : Burst) : Nat := min b.atoms (min (if b.rt then 32 else 16) (32 - b.addr / 64 % 32))

/-- What ECC finds at atom n of a burst. -/
def Burst.errAt (b : Burst) (n : Nat) : AtomErr := ((b.errs.find? fun e => e.1 == n).map (·.2)).getD .clean

/-- The first burst of a request, and what is left of the request. -/
def Burst.first (b : Burst) : Burst := { b with atoms := b.head, crcBad := b.crcBad.take 1 }
def Burst.rest (b : Burst) : Burst :=
  { b with addr := b.addr + b.head * 64, atoms := b.atoms - b.head, crcBad := b.crcBad.drop 1
           errs := b.errs.filterMap fun e => if b.head ≤ e.1 then some (e.1 - b.head, e.2) else none }

/-- A request cut into bursts (R535), at most n of them. -/
def Burst.cut : Nat → Burst → List Burst
  | 0, _ => []
  | n + 1, b => if b.atoms = 0 then [] else b.first :: Burst.cut n b.rest

end Sys2Proof

namespace Sys2Proof.Machine

/-! ## Addresses (Table 18.1) -/

/-- Bank of the atom at a device address, in its half of the memory. -/
def Dev.bankOf (d : Dev) (a : Nat) : Nat :=
  let o := a % (d.capacity / 2)
  let i := o / 64 % 32
  4 * (i % 4) + i / 4 % 2 + 2 * (o / 2048 / 24 % 2)

/-- Address of atom p of controller m: atoms in order within a granule, then channels a to d, then granules. -/
def Dev.atomAddr (d : Dev) (m p : Nat) : Nat :=
  let c := m % 6 + 6 * (p / 32 % 4)
  (if m < 6 then 0 else d.capacity / 2) + (p / 128 * 24 + c) * 2048 + p % 32 * 64

/-- Atoms of one controller. -/
def Dev.atoms (d : Dev) : Nat := d.capacity / 768

/-! ## Errors (R545 to R548) -/

/-- An uncorrectable atom: recorded, reported, and poisoned while the containment of its source is in force. -/
def Dev.poisonAtom (d : Dev) (m a : Nat) : Dev :=
  let d1 := (d.modMcAt m fun c => { c with uncorr := satAdd 8 c.uncorr 1, eccAddr := a / 64 * 64 }).raise (12 + m)
  if d1.contains (12 + m) && !d1.poison.contains (a / 64) then { d1 with poison := d1.poison ++ [a / 64] } else d1

/-- What ECC finds on an access of an atom; every read of a poisoned atom reports it as uncorrectable. -/
def Dev.eccResult (d : Dev) (m a : Nat) (write scrub : Bool) (e : AtomErr) : Dev :=
  if e == .uncorrectable || (!write && d.poison.contains (a / 64)) then d.poisonAtom m a
  else if e == .corrected then
    let d1 := d.modMcAt m fun c => { c with corr := satAdd 24 c.corr 1 }
    if scrub then d1.raise 24 else d1
  else d

/-- Channel k of a controller, and the same changed. -/
def Mc.chan (c : Mc) (k : Nat) : McChan := c.chans.get ({} : McChan) k
def Mc.modChan (c : Mc) (k : Nat) (f : McChan → McChan) : Mc := { c with chans := c.chans.put ({} : McChan) k (f (c.chan k)) }

/-- A transfer failed its CRC n times: up to three retries; the fourth failure raises the source and the channel retrains (R548). -/
def Dev.crcResult (d : Dev) (m k n : Nat) : Dev :=
  let d1 := d.modMcAt m fun c => { c with retries := satAdd 24 c.retries (min n 3) }
  if n < 4 then d1
  else
    let d2 := d1.raise (12 + m)
    if d2.contains (12 + m) then
      (d2.modMcAt m fun c => { c.modChan k fun h => { h with retrain := true, inBurst := false } with st := 4, retrains := satAdd 8 c.retrains 1 }).setLine (12 + m) true
    else d2

/-- A channel's retraining has ended. -/
def Dev.retrainDone (d : Dev) (m k : Nat) : Dev :=
  let c := d.mcAt m
  if !(c.chan k).retrain then d
  else
    let c1 := c.modChan k fun h => { h with retrain := false }
    if c1.chans.any fun e => e.2.retrain then d.putMcAt m c1 else (d.putMcAt m { c1 with st := 2 }).setLine (12 + m) false

/-! ## Refresh (R538 to R541) -/

/-- tREFIpb, and the interval between refreshes of a channel, in eighths of a tick. -/
def Mc.tREFI (c : Mc) : Nat := if c.hot then 1425 else 2850
def Mc.interval (c : Mc) : Nat := if c.refPb then c.tREFI else 16 * c.tREFI

/-- L of R540: the register's limit, or what the device reports less 3. -/
def Mc.applied (c : Mc) : Nat := min (if c.limit = 0 then 1 else c.limit) (c.devLimit - 3)

/-- A refresh falls due; an all-bank refresh is kept as bank 16. -/
def Dev.refreshDue (d : Dev) (m k : Nat) : Dev :=
  let c := d.mcAt m
  let h := c.chan k
  if (c.st == 2 || c.st == 4) && h.due ≤ d.ctl.ticks * 8 then
    d.putMcAt m (c.modChan k fun h => { h with owed := h.owed ++ [(if c.refPb then h.next else 16, h.due)], next := (h.next + 1) % 16, due := h.due + c.interval })
  else d

/-- A refresh is issued on the channel. -/
def Dev.issueRefresh (d : Dev) (m k bank : Nat) : Dev :=
  (d.modMcAt m fun c => c.modChan k fun h => { h with owed := h.owed.eraseP fun o => o.1 == bank }).emit (.notice "REFRESH" m k bank)

/-- A refresh that has waited as long as it may is issued, once in a burst. -/
def Dev.forcedRefresh (d : Dev) (m k : Nat) : Dev :=
  let c := d.mcAt m
  match (c.chan k).owed with
  | (b, t) :: _ =>
    if t + c.applied * c.interval ≤ d.ctl.ticks * 8 && !((c.chan k).inBurst && (c.chan k).forcedNow) then
      (d.issueRefresh m k b).modMcAt m fun c => { c.modChan k fun h => { h with forcedNow := h.inBurst } with forced := satAdd 24 c.forced 1 }
    else d
  | [] => d

/-! ## Bursts (R535 to R537) -/

/-- The source served next in the round robin: the first after the last one. -/
def rrNext (rr : Nat) (l : List Burst) : Option Burst :=
  l.foldl (fun best b =>
    match best with
    | none => some b
    | some x => if (b.src.id + 64 - rr - 1) % 64 < (x.src.id + 64 - rr - 1) % 64 then some b else best) none

/-- The controller and channel of a device address (Table 18.1). -/
def Dev.channelOf (d : Dev) (a : Nat) : Nat × Nat :=
  let c := a % (d.capacity / 2) / 2048 % 24
  ((if a < d.capacity / 2 then 0 else 6) + c % 6, c / 6)

/-- Requests that reach a channel: their bursts there wait behind the older ones. -/
def Dev.arrivals (d : Dev) (m k : Nat) (reqs : List Burst) : List Burst :=
  (reqs.flatMap fun b => Burst.cut b.atoms { b with addr := b.addr / 64 * 64 }).filter fun b => d.channelOf b.addr == (m, k)

/-- Two bursts that share an atom. -/
def sharesAtom (a b : Burst) : Bool := a.addr < b.addr + b.atoms * 64 && b.addr < a.addr + a.atoms * 64

/-- The burst that must go first where b is chosen: the oldest that shares an atom with it, and so on (R533); the number bounds the search. -/
def oldestFirst (waiting : List Burst) : Nat → Burst → Burst
  | 0, b => b
  | n + 1, b => match waiting.find? (sharesAtom b) with
    | some x => if x = b then b else oldestFirst waiting n x
    | none => b

/-- The burst that the arbitration of R536 chooses, of those that wait in order of arrival. -/
def McChan.turn (h : McChan) (waiting : List Burst) : Option Burst :=
  match waiting.find? (·.rt), rrNext h.rr (waiting.filter fun b => !b.rt) with
  | some r, some n => if 15 ≤ h.rtRun then some n else some r
  | some r, none => some r
  | none, o => o

/-- The burst that starts: the chosen one, or an older one that shares an atom with it. -/
def McChan.pick (h : McChan) (waiting : List Burst) : Option Burst := (h.turn waiting).map (oldestFirst waiting waiting.length)

/-- The banks that a burst uses. -/
def Dev.burstBanks (d : Dev) (b : Burst) : List Nat := (List.range b.atoms).map fun i => d.bankOf (b.addr + i * 64)

/-- What ECC finds on the atoms of a burst, in order. -/
def Dev.eccBurst (d : Dev) (m : Nat) (b : Burst) : Dev :=
  (List.range b.atoms).foldl (fun e i => e.eccResult m (b.addr + i * 64) b.write false (b.errAt i)) d

/-- A request is at the controller: it restarts the idle count and gives up an entry that drains (Table 18.5). -/
def Mc.request (c : Mc) (now : Nat) : Mc := { c with lastReq := now, drain := false, abandoned := if c.drain then satAdd 16 c.abandoned 1 else c.abandoned }

/-- Channel k chooses among the bursts that wait: the oldest owed refresh that the next burst leaves free, then that burst with what ECC and CRC find. -/
def Dev.startBurst (d : Dev) (m k : Nat) (waiting : List Burst) : Dev :=
  let h := (d.mcAt m).chan k
  let next := h.pick waiting
  let busy := match next with | some b => d.burstBanks b | none => []
  let ready := h.owed.find? fun o => if o.1 = 16 then !waiting.any (·.rt) else !busy.contains o.1
  let d1 := match ready with | some o => d.issueRefresh m k o.1 | none => d
  let d2 := d1.modMcAt m fun c => c.modChan k fun h => { h with inBurst := next.isSome, forcedNow := false, queue := match next with | some b => waiting.erase b | none => waiting }
  match next with
  | none => d2
  | some b =>
    let others := waiting.any fun x => !x.rt
    let d3 := d2.modMcAt m fun c => (c.request d.ctl.ticks).modChan k fun h =>
      { h with rtRun := if b.rt && others then h.rtRun + 1 else 0, rr := if b.rt then h.rr else b.src.id }
    ((d3.emit (.notice "BURST" (m * 4 + k) b.src.id b.addr)).eccBurst m b).crcResult m k (b.crcBad.headD 0)

/-- A burst boundary of channel k, with the requests that have reached it since the last one; they wait while it retrains or its controller does not serve. -/
def Dev.burstBoundary (d : Dev) (m k : Nat) (reqs : List Burst) : Dev :=
  let c := d.mcAt m
  let h := c.chan k
  let waiting := h.queue ++ d.arrivals m k reqs
  if !(c.st == 2 || c.st == 4) || h.retrain then d.modMcAt m fun c => c.modChan k fun h => { h with queue := waiting }
  else d.startBurst m k waiting

/-! ## Self-refresh (R542 to R544) -/

/-- No burst waits at any channel. -/
def Mc.quiet (c : Mc) : Bool := c.chans.all fun e => e.2.queue.isEmpty

/-- The idle count ends. -/
def Dev.srIdle (d : Dev) (m : Nat) : Dev :=
  let c := d.mcAt m
  if c.st = 2 && c.quiet && !c.drain && (!c.inhibit || d.dozing) && c.lastReq + (if c.srIdle = 0 then 1 else c.srIdle) * 3000 ≤ d.ctl.ticks then d.putMcAt m { c with drain := true } else d

/-- Every owed refresh of a controller is issued (R541). -/
def Dev.flushRefreshes (d : Dev) (m : Nat) : Dev :=
  (List.range 4).foldl (fun e k => (((e.mcAt m).chan k).owed).foldl (fun f o => f.issueRefresh m k o.1) e) d

/-- The drain is done, and the device refreshes itself. -/
def Dev.srEnter (d : Dev) (m : Nat) : Dev :=
  if (d.mcAt m).drain && (d.mcAt m).quiet then (d.flushRefreshes m).modMcAt m fun c => { c with drain := false, st := 3, entries := satAdd 16 c.entries 1 } else d

/-- A request finds the controller in self-refresh or on its way there. A channel's next refresh falls due one interval after the exit. -/
def Dev.srExit (d : Dev) (m : Nat) : Dev :=
  let c := d.mcAt m
  if c.st = 3 then
    d.putMcAt m ((List.range 4).foldl (fun e k => e.modChan k fun h => { h with due := d.ctl.ticks * 8 + c.interval }) { c with st := 2, lastReq := d.ctl.ticks })
  else if c.drain then d.putMcAt m (c.request d.ctl.ticks)
  else d

/-! ## Scrub (R549) -/

/-- No burst waits at the channel of the atom that scrub reads next: scrub has the lowest priority (R536, R549). -/
def Mc.scrubFree (c : Mc) : Bool := (c.chan (c.scrubPos / 32 % 4)).queue.isEmpty

/-- Scrub reads the next atom; a pass is done when it has read them all. -/
def Dev.scrubAtom (d : Dev) (m : Nat) (e : AtomErr) : Dev :=
  let c := d.mcAt m
  if c.st = 2 && !c.passDone && c.scrubFree then
    let d1 := d.eccResult m (d.atomAddr m c.scrubPos) false true e
    if c.scrubPos + 1 < d.atoms then d1.modMcAt m fun c => { c with scrubPos := c.scrubPos + 1 }
    else d1.modMcAt m fun c => { c with scrubPos := 0, passDone := true, passes := (c.passes + 1) % 65536 }
  else d

/-- Scrub period in ticks. -/
def Mc.periodTicks (c : Mc) : Nat := (if c.periodH = 0 then 1 else c.periodH) * 10800000000000

/-- A period ends: an unfinished pass is late and goes on, a finished one begins again. -/
def Dev.scrubPeriod (d : Dev) (m : Nat) : Dev :=
  let c := d.mcAt m
  if c.passAt + c.periodTicks ≤ d.ctl.ticks then
    d.putMcAt m { c with passAt := c.passAt + c.periodTicks, late := c.late || !c.passDone, passDone := false }
  else d

/-! ## Training (R550, R551) -/

/-- A controller has failed: its line stays, and boot fails. -/
def Dev.trainFail (d : Dev) (m : Nat) : Dev :=
  let d1 := d.modMcAt m fun c => { c with st := 5 }
  ({ d1 with ctl := { d1.ctl with bootFailed := true } }).setLine (12 + m) true

/-- Training ends. The device's own postponement limit, at least 4 in a device that trains, is a free value (log entry 12). -/
def Dev.trainDone (d : Dev) (m : Nat) (ok_ perBank : Bool) (density : Nat) : Dev :=
  let c := d.mcAt m
  if c.st != 1 then d
  else if !ok_ || (List.range 12).any (fun n => 2 ≤ (d.mcAt n).st && (d.mcAt n).st ≤ 4 && (d.mcAt n).density != density) then d.trainFail m
  else
    let c1 := { c with st := 2, density := density, refPb := perBank, cache := true, devLimit := 4 + d.freeVal, lastReq := d.ctl.ticks, passAt := d.ctl.ticks }
    d.nextFree.putMcAt m ((List.range 4).foldl (fun e k => e.modChan k fun h => { h with due := d.ctl.ticks * 8 + c1.interval }) c1)

/-- The device reports a high temperature, or no longer does (R538). -/
def Dev.deviceHot (d : Dev) (m : Nat) (hot : Bool) : Dev := d.modMcAt m fun c => { c with hot := hot }

/-! ## The MEM unit (R553, R554) -/

/-- Multiples of 64 and a length in range. -/
def memBad (x : Desc) (copy : Bool) : Bool :=
  x.get 0x28 8 % 64 != 0 || x.get 0x20 8 % 64 != 0 || x.get 0x30 8 % 64 != 0 || x.get 0x30 8 < 64 || 2 ^ 36 < x.get 0x30 8 ||
    (if copy then x.get 0x38 8 != 0 else x.get 0x20 8 != 0)

def memCopySpec (_ : Dev) (x : Desc) : OpSpec :=
  { eff0 := true, mem := [⟨x.get 0x20 8, x.get 0x30 8, true, false⟩, ⟨x.get 0x28 8, x.get 0x30 8, false, true⟩] }
def memFillSpec (_ : Dev) (x : Desc) : OpSpec := { eff0 := true, mem := [⟨x.get 0x28 8, x.get 0x30 8, false, true⟩] }

/-- The descriptor that engine e runs next: the oldest of its threads' descriptors (R553), if it names the operation; it leaves the queue. -/
def Dev.memTake (d : Dev) (e op : Nat) : Option (Desc × Dev) :=
  match (d.unitQueue 10).find? fun x => x.tid % 4 == e with
  | some x => if x.op = op then some (x, d.putUnitQueue 10 ((d.unitQueue 10).eraseP fun x => x.tid % 4 == e)) else none
  | none => none

/-- Engine e completes with UNSUPPORTED what comes next in its order and names neither COPY nor FILL (R157 step 1). -/
def Dev.memSkip (e : Nat) : Nat → Dev → Dev
  | 0, d => d
  | n + 1, d =>
    match (d.unitQueue 10).find? fun x => x.tid % 4 == e with
    | some x =>
      if x.opKnown then d
      else Dev.memSkip e n ((d.putUnitQueue 10 ((d.unitQueue 10).eraseP fun x => x.tid % 4 == e)).complete x stUnsupported 0)
    | none => d

/-- COPY: bytes and poison move; a poisoned source is reported. -/
def Dev.memCopy (d : Dev) (x : Desc) : Dev :=
  let s := x.get 0x20 8
  let t := x.get 0x28 8
  let n := x.get 0x30 8
  let hit := d.poison.filter fun p => s ≤ p * 64 && p * 64 < s + n
  let stay := d.poison.filter fun p => !(t ≤ p * 64 && p * 64 < t + n)
  d.checked x [(memBad x true, stBadDesc), (decide (s < t + n ∧ t < s + n), stGeometry)]
    ({ d with mem := if d.memEra = 0 then moveRange d.mem d.mem s t n else d.memPut t (d.memRead s n), poison := stay ++ hit.map fun p => p - s / 64 + t / 64 }.complete x (if hit.isEmpty then stOK else stInternal) 0)

/-- FILL: the pattern, repeated. -/
def Dev.memFill (d : Dev) (x : Desc) : Dev :=
  let p := toLE 8 (x.get 0x38 8)
  d.checked x [(memBad x false, stBadDesc)]
    ((d.memWrite (x.get 0x28 8) ((List.replicate (x.get 0x30 8 / 8) p).flatten)).complete x stOK 0)

/-- An engine runs its next descriptor. -/
def Dev.memRun (d0 : Dev) (e op : Nat) (sp : Dev → Desc → OpSpec) (run : Dev → Desc → Dev) : Dev :=
  let d := Dev.memSkip e (d0.unitQueue 10).length d0
  match d.memTake e op with
  | none => d
  | some (x, d1) =>
    match d1.check157 x (sp d1 x) with
    | some st => d1.complete x st 0
    | none => run d1 x

/-! ## Registers (Table 18.7) -/

/-- Refreshes owed on all channels. -/
def Mc.owedAll (c : Mc) : Nat := c.chans.foldl (fun n e => n + e.2.owed.length) 0

/-- A read of controller m's block; what training finds reads 0 before it. -/
def Dev.readMc (d : Dev) (m off : Nat) : Nat :=
  let c := d.mcAt m
  let known := 2 ≤ c.st
  match off with
  | 0x00 => c.st + (if known then fld 4 2 c.density + fld 6 2 c.rate + fld 8 1 (b2n c.refPb) + fld 9 1 (b2n c.cache) + fld 10 1 (b2n c.hot) else 0)
  | 0x04 => c.srIdle
  | 0x08 => b2n c.inhibit
  | 0x0C => c.limit + fld 4 4 (if known then c.applied else 4)
  | 0x10 => fld 0 8 c.owedAll + fld 8 24 c.forced
  | 0x14 => c.corr + fld 24 8 c.uncorr
  | 0x18 => c.eccAddr % 2 ^ 32
  | 0x1C => c.eccAddr / 2 ^ 32 % 65536
  | 0x20 => c.periodH + fld 8 1 (b2n c.late) + fld 16 16 c.passes
  | 0x24 => c.retries + fld 24 8 c.retrains
  | 0x28 => c.entries + fld 16 16 c.abandoned
  | _ => 0

/-- A write of controller m's block (R555). -/
def Dev.writeMc (d : Dev) (who : Requester) (m off : Nat) (v : Word) : Dev :=
  if !isPf who then d
  else match off with
  | 0x04 => d.modMcAt m fun c => { c with srIdle := bits v.toNat 0 16 }
  | 0x08 => d.modMcAt m fun c => { c with inhibit := v.getLsbD 0 }
  | 0x0C => d.modMcAt m fun c => { c with limit := bits v.toNat 0 4 }
  | 0x20 => d.modMcAt m fun c => { c with periodH := bits v.toNat 0 8, late := c.late && !v.getLsbD 8 }
  | _ => d

/-! ## Meanings -/

/-- MC_BURST_BOUNDARY (R536). -/
def execMcBurstBoundary (m : Fin 12) (k : Fin 4) (waiting : List Burst) (s : State) : Host.Outcome State Fault Refusal := ok s (s.dev.burstBoundary m k waiting)

/-- MC_RETRAIN_DONE (R548). -/
def execMcRetrainDone (m : Fin 12) (k : Fin 4) (s : State) : Host.Outcome State Fault Refusal := ok s (s.dev.retrainDone m k)

/-- REFRESH_DUE (R539). -/
def execRefreshDue (m : Fin 12) (k : Fin 4) (s : State) : Host.Outcome State Fault Refusal := ok s (s.dev.refreshDue m k)

/-- FORCED_REFRESH (R540). -/
def execForcedRefresh (m : Fin 12) (k : Fin 4) (s : State) : Host.Outcome State Fault Refusal := ok s (s.dev.forcedRefresh m k)

/-- SR_IDLE_EXPIRY (R542). -/
def execSrIdleExpiry (m : Fin 12) (s : State) : Host.Outcome State Fault Refusal := ok s (s.dev.srIdle m)

/-- SR_DRAIN_DONE (R541, R542). -/
def execSrDrainDone (m : Fin 12) (s : State) : Host.Outcome State Fault Refusal := ok s (s.dev.srEnter m)

/-- SR_EXIT_REQUEST (R544). -/
def execSrExitRequest (m : Fin 12) (s : State) : Host.Outcome State Fault Refusal := ok s (s.dev.srExit m)

/-- SCRUB_ATOM (R549). -/
def execScrubAtom (m : Fin 12) (err : AtomErr) (s : State) : Host.Outcome State Fault Refusal := ok s (s.dev.scrubAtom m err)

/-- SCRUB_PERIOD_END (R549). -/
def execScrubPeriodEnd (m : Fin 12) (s : State) : Host.Outcome State Fault Refusal := ok s (s.dev.scrubPeriod m)

/-- MEM_COPY (R553, R554). -/
def execMemCopy (e : Fin 4) (s : State) : Host.Outcome State Fault Refusal := ok s (s.dev.memRun e 1 memCopySpec Dev.memCopy)

/-- MEM_FILL (R553, R554). -/
def execMemFill (e : Fin 4) (s : State) : Host.Outcome State Fault Refusal := ok s (s.dev.memRun e 2 memFillSpec Dev.memFill)

/-- MC_TRAINING_DONE (R550, R551). -/
def execMcTrainingDone (m : Fin 12) (ok_ perBank : Bool) (density : Fin 3) (s : State) : Host.Outcome State Fault Refusal :=
  ok s (s.dev.trainDone m ok_ perBank density)

/-- DEVICE_HIGH_TEMPERATURE (R538). -/
def execDeviceHighTemperature (m : Fin 12) (hot : Bool) (s : State) : Host.Outcome State Fault Refusal := ok s (s.dev.deviceHot m hot)

end Sys2Proof.Machine
end

