-- ==== Sys2Proof/Machine/Resets.lean ====
section
/-! DEFINITION. Resets, boot, the low-power state DORMANT, and the supply and clock monitors (chapters 23 and 25). -/

namespace Sys2Proof.Machine

/-! ## Boot (R627, R628, R633, R634) -/

/-- The lines that are at 1 latch anew when the device leaves a reset (R582). -/
def Dev.relatch (d : Dev) : Dev := d.latch d.flt.live

/-- Boot starts: the count rises, and a controller whose device has no training yet trains it (R550). With one that has failed, boot has failed again (R551). -/
def Dev.startBoot (d : Dev) : Dev :=
  let failed := (List.range 12).any fun m => (d.mcAt m).st == 5
  let d1 := { d with trust := { d.trust with bootCount := (d.trust.bootCount + 1) % 2 ^ 32 }, ctl := { d.ctl with bootFailed := failed } }
  ((List.range 12).foldl (fun e m => e.modMcAt m fun c => { c with st := if c.st = 0 then 1 else c.st }) d1).relatch

/-- The spill area lies where hub firmware puts it, anywhere in the installed memory: a free value (R184, log entry 15). -/
def Dev.placeSpill (d : Dev) : Dev :=
  let base := d.freeVal % (d.capacity - spillSize + 1)
  { d with dsp := { d.dsp with spillLo := loW base, spillHi := hiW base } }.nextFree

/-- What boot waits for: the required images are accepted and every controller's memory is ready. -/
def Dev.bootReady (d : Dev) : Bool :=
  d.ctl.booting && d.ctl.pwrOk && d.ctl.perstN && !d.ctl.bootFailed && [0, 1, 2, 3].all d.trust.done.contains &&
    (List.range 12).all fun m => (d.mcAt m).st == 2 || (d.mcAt m).st == 3

/-- Boot is complete. -/
def Dev.bootDone (d : Dev) : Dev :=
  if d.bootReady then
    let d1 := (List.range 12).foldl Dev.srExit d
    let d2 := { d1 with ctl := { d1.ctl with booting := false }, trust := { d1.trust with boot := 2 } }.placeSpill
    (d2.putWindow 0 { resetWindow with len := d2.capacity }).bypassFollow
  else d

/-! ## Resets P, E and S (Tables 23.1 and 23.2) -/

/-- A controller enters self-refresh after its owed refreshes, whatever it is doing (R541, R552, R641). -/
def Dev.srForce (d : Dev) (m : Nat) : Dev :=
  if (d.mcAt m).st == 2 || (d.mcAt m).st == 4 then
    (d.flushRefreshes m).modMcAt m fun c => { c with st := 3, drain := false, entries := satAdd 16 c.entries 1,
                                                     chans := c.chans.mapAll ({} : McChan) fun _ h => { h with retrain := false, inBurst := false, forcedNow := false } }
  else d

/-- A controller's settings at their defaults, and HOT, which survives no reset E or S (Table 18.8); what it has counted stays. -/
def Mc.defaults (c : Mc) : Mc := { c with hot := false, srIdle := 20, inhibit := false, limit := 4, periodH := 24, drain := false, chans := c.chans.mapAll ({} : McChan) fun _ h => { h with queue := [] } }

/-- Lines of conditions that a reset E or S does not end. -/
def Dev.lastingLines (d : Dev) : BitVec 64 :=
  let keep (i : Nat) : Bool := [3, 8, 9, 10, 11, 41, 44, 50, 51, 52, 53, 54, 55, 63].contains i || (i == 49 && d.trust.sensors != 0) ||
    (12 ≤ i && i < 24 && (d.mcAt (i - 12)).st == 5)
  (List.range 64).foldl (fun w i => if keep i && d.flt.live.getLsbD i then w ||| (1#64 <<< i) else w) 0

/-- SDI and twin groups are unbound; the groups of LANE CONFIGURE stay, those that DORMANT idled wake (R502, R644). -/
def Dev.resetLanes (d : Dev) : Dev :=
  let d1 := (d.group.filter fun e => e.2.proto == 2 || e.2.proto == 3).foldl (fun e g => e.unbindGroup g.1) d
  (d1.group.filter fun e => e.2.dormant).foldl (fun e g => e.groupWake g.1) d1

/-- The fault collector through a reset E or S: the sticky word and latched HALTs stay. -/
def Dev.resetFlt (d : Dev) : Flt :=
  { status := d.flt.status, prior := d.flt.status, live := d.lastingLines, latched := d.flt.latched.filter fun p => p.2 == 4, cls := Flt.reset.cls
    alive := d.flt.alive, aliveK := d.flt.aliveK }

/-- What the PCI Express side keeps (Table 23.2): at E nothing, at S all but GEN, WIDTH and FLIT of HUB_LINK, which survive no reset (R10, Table 3.22). -/
def Hub.through (h : Hub) (soft : Bool) : Hub :=
  if soft then { downCount := h.downCount, linkUp := h.linkUp, numVfs := h.numVfs, msix := h.msix, pba := h.pba,
                   cmd := h.cmd, aer := h.aer } else {}

/-- What the time base keeps: all but the settings of PTP_PORT and OUTPUTS (R475). -/
def TimeBase.through (t : TimeBase) : TimeBase :=
  { t with outs := [], ptp := [], ppsOut := false, ppsFall := none, todSec := none, ppsEdge := none, ppsGap := false }

/-- What the trust engine keeps. -/
def Trust.through (t : Trust) : Trust := { fused := t.fused, bootCount := t.bootCount, sensors := t.sensors, tamper := t.tamper, certs := t.certs, keyHash := t.keyHash, revoked := t.revoked }

/-- What the cascade keeps (Table 23.2): configuration and map, what it has seen and counted. Messages that wait are given up. -/
def Casc.through (c : Casc) : Casc := { c with force := false, out := [], rxHold := [] }

/-- Steps 1 to 5 of Table 23.1. Local memory keeps its contents (log entry 11). -/
def Dev.resetES (d : Dev) (soft : Bool) (code : Nat) : Dev :=
  let d1 := ((List.range 12).foldl Dev.srForce d).resetLanes
  let d2 := if d1.tb.ppsOut then d1.emit (.pin "PPS_OUT" false) else d1
  let d3 : Dev :=
    { flt := d2.resetFlt, win := [(0, { resetWindow with len := d2.capacity })]
      ctl := { pwrOk := d2.ctl.pwrOk, perstN := d2.ctl.perstN, lastReset := code, ticks := d2.ctl.ticks, senior := d2.ctl.senior }
      tb := d2.tb.through, hub := d2.hub.through soft, loc := d2.loc, locErr := d2.locErr, fab := { d2.fab with shed := [] }, group := d2.group, lane := d2.lane
      casc := d2.casc.through, mc := d2.mc.mapAll ({} : Mc) fun _ c => c.defaults, trust := d2.trust.through, prl := d2.prl, mem := d2.mem, memEra := d2.memEra
      poison := d2.poison, out := d2.out, freeCtr := d2.freeCtr }
  ({ d3 with flt := { d3.flt with live := if d3.hub.linkUp then d3.flt.live else d3.flt.live ||| (1#64 <<< 3) } }).bypassFollow

/-- Reset P: everything but the Praline island, the stored counts and fuses, and the pins' own levels; memory will be zeroed (R550). -/
def Dev.resetP (d : Dev) : Dev :=
  let d1 := if d.flt.live.getLsbD 53 then d.emit (.pin "THERM_TRIP_N" true) else d
  let d2 := if d1.flt.alive then d1.emit (.pin "ALIVE" false) else d1
  let d3 := if d2.tb.ppsOut then d2.emit (.pin "PPS_OUT" false) else d2
  { Dev.reset with
    ctl := { pwrOk := false, perstN := d3.ctl.perstN, ticks := d3.ctl.ticks }, tb := { refTb := d3.tb.refTb, refPcie := d3.tb.refPcie }
    trust := { bootCount := d3.trust.bootCount, fused := d3.trust.fused, sensors := d3.trust.sensors, tamper := d3.trust.tamper, certs := d3.trust.certs, keyHash := d3.trust.keyHash, revoked := d3.trust.revoked }
    prl := d3.prl, out := d3.out, freeCtr := d3.freeCtr }

/-- Lines of conditions that hold as the device leaves reset P: the link is down, and the clocks may be. -/
def Dev.powerLines (d : Dev) : BitVec 64 :=
  (if d.hub.linkUp then 0#64 else 1#64 <<< 3) ||| (if d.tb.refTb && d.tb.refPcie then 0#64 else 1#64 <<< 54) ||| (if d.trust.sensors = 0 then 0#64 else 1#64 <<< 49)

/-- PWR_OK rises: uptime counts from here, and the counter from 0 (R475). The device boots unless PERST_N is low. -/
def Dev.powerRise (d : Dev) (senior : Bool) : Dev :=
  if d.ctl.pwrOk then d
  else
    let d1 := { d with ctl := { d.ctl with pwrOk := true, ticks := 0, senior := senior }, flt := { d.flt with live := d.powerLines },
                       tb := { refTb := d.tb.refTb, refPcie := d.tb.refPcie }, prl := { d.prl with beatA := 0, beatB := 0, hubStatAt := 0 } }
    if d.ctl.perstN then d1.startBoot else d1

/-- PERST_N falls (R628). Under reset P there is nothing more to reset. -/
def Dev.perstFall (d : Dev) : Dev :=
  if !d.ctl.perstN then d
  else
    let d1 := { d with ctl := { d.ctl with perstN := false } }
    if d.ctl.pwrOk then d1.resetES false 2 else d1

/-- PERST_N rises: the device boots. -/
def Dev.perstRise (d : Dev) (senior : Bool) : Dev :=
  if d.ctl.perstN then d
  else
    let d1 := { d with ctl := { d.ctl with perstN := true, senior := senior } }
    if d.ctl.pwrOk then d1.bypassFollow.startBoot else d1

/-- A write of 1 to SOFT (R631). -/
def Dev.softReset (d : Dev) (who : Requester) : Dev :=
  if isPf who && d.ctl.pwrOk && d.ctl.perstN then (d.resetES true 3).startBoot else d

/-! ## Threads at resets (Table 5.2) -/

/-- Posts held for or by threads that end, and their posters. -/
def Dev.dropHeld (d : Dev) (sel : HeldPost → Bool) (f : Dev → Poster → Dev) : Dev :=
  ((d.dsp.heldPosts.filter sel).foldl (fun e h => f e h.poster) { d with dsp := { d.dsp with heldPosts := d.dsp.heldPosts.filter fun h => !sel h } }).stallLine

/-- Threads of a selection that have not ended. -/
def Dev.threadsOf (d : Dev) (sel : Thread → Bool) : List Nat := (d.thr.filter fun e => e.2.live && e.2.hold != .retire && sel e.2).map (·.1)

/-- The threads end, and their programs retire ABORTED (R638). -/
def Dev.endThreads (d : Dev) (sel : Thread → Bool) : Dev :=
  let ts := d.threadsOf sel
  let d1 := d.dropHeld (fun h => match h.poster with | .thread t => ts.contains t | _ => false) fun e _ => e
  ts.foldl (fun e t => e.endThread t stAborted ((e.withRegs t).gpr 1).toNat) d1

/-! ## Reset H (R109, R629) -/

/-- A ring at reset H: its indexes are recorded, its registers return to their reset values, what waited for room is held. -/
def Ring.hold (r : Ring) : Ring :=
  { st := .held, held := r.held, retq := r.retq, recTail := r.sqTail, recHead := r.sqHead, recCq := r.cqTail }

/-- A ring pair moves to HELD, and vector 3 says so if it was not there. A held kind 2 entry counts as never fetched. -/
def Dev.holdRing (d : Dev) (fn : Nat) : Dev :=
  let r := d.ring fn
  let d1 := ((d.putRing fn r.hold).dropHeld (fun h => h.poster == .entry fn) fun e _ => e).pumpAll fn
  (if r.st == .held then d1 else d1.raiseVector fn 3).submitLine

/-- TRUST_RECOVER_LO and TRUST_RECOVER_HI survive no reset (Table 21.8). -/
def Trust.clearRecover (t : Trust) : Trust := { t with recLo := 0, recHi := 0, recGo := false }

/-- Reset H: the configuration space is reset, and the link is down if that was the cause. -/
def Dev.resetH (d : Dev) (linkDown : Bool) : Dev :=
  if !d.ctl.pwrOk || !d.ctl.perstN then d
  else
    let h := d.hub
    let d1 := { d with ctl := { d.ctl with lastReset := 4 },
                       trust := d.trust.clearRecover,
                       hub := { h with numVfs := 0, msix := [], pba := [], cmd := [], aer := [], linkUp := h.linkUp && !linkDown, gen := 0, width := 0, flit := false,
                                       downCount := if linkDown && h.linkUp then (h.downCount + 1) % 65536 else h.downCount } }
    let d2 := if d.ctl.booting then d1 else (List.range 64).foldl Dev.holdRing d1
    if linkDown then d2.blitAbortAll.setLine 3 true else d2.blitAbortAll

/-- D3hot: the function's ring behaves as after reset H (R84). -/
def Dev.d3hot (d : Dev) (fn : Nat) : Dev := if d.fnOn fn && !d.ctl.booting then d.holdRing fn else d

/-! ## Reset F (R111, R630) -/

/-- A STOP as the device accepts it for a channel of a function that is reset (R300): no thread issued it, and nothing is notified. -/
def flrStop (n : Nat) : Desc := { tid := 4096, bytes := toLE 1 4 ++ toLE 1 3 ++ toLE 2 64 ++ zeros 12 ++ toLE 2 0xFFFF ++ zeros 14 ++ toLE 2 n ++ zeros 30 }

/-- The function's threads end with no completion; posts to them are discarded, and posters go on. -/
def Dev.endFn (d : Dev) (fn : Nat) : Dev :=
  let ts := (d.thr.filter fun e => e.2.fn == fn && e.2.st != .free && e.2.st != .draining).map (·.1)
  let mine (h : HeldPost) : Bool := h.poster == .entry fn || (match h.poster with | .thread t => ts.contains t | _ => false)
  let d1 := d.dropHeld mine fun e _ => e
  let d2 := d1.dropHeld (fun h => ts.contains h.target) Dev.releasePoster
  let d3 := { d2 with dsp := { d2.dsp with postQ := d2.dsp.postQ.mapAll ([] : List (Nat × Word)) fun _ q => q.filter fun e => !ts.contains e.1 } }
  ts.foldl (fun e t => (e.dropIssue t).freeThread t) d3

/-- One function takes reset F. -/
def Dev.fnReset (d : Dev) (fn : Nat) : Dev :=
  let d1 := (({ d with ctl := { d.ctl with lastReset := 5 } }.endFn fn).putRing fn {}).submitLine
  let other (e : Nat × Word) : Bool := e.1 != fn
  let d2 := { d1 with trust := d1.trust.clearRecover
                      hub := { d1.hub with gen := 0, width := 0, flit := false, msix := d1.hub.msix.filter (fun e => e.1 / 128 != fn), pba := d1.hub.pba.filter other
                                           cmd := d1.hub.cmd.filter other, aer := d1.hub.aer.filter other } }
  ((d2.chan.filter fun e => e.2.st == .running && e.2.stopOnFlr && d2.ownerOf 0 e.1 == fn).map (·.1)).foldl (fun e n => e.holdStop (flrStop n) n) d2

/-- VFs above a number cease to exist: reset F, and what they owned becomes the PF's (R89). -/
def Dev.dropVfs (d : Dev) (keep : Nat) : Dev :=
  let gone := (List.range 64).filter fun f => keep < f && f ≤ d.hub.numVfs
  let d1 := gone.foldl Dev.fnReset d
  { d1 with hub := { d1.hub with numVfs := min d.hub.numVfs keep, owner := d1.hub.owner.filter fun e => !gone.contains e.2 } }

/-- A function-level reset. That of the PF clears VF Enable. -/
def Dev.resetF (d : Dev) (fn : Nat) : Dev :=
  if !d.fnOn fn || !d.ctl.pwrOk || !d.ctl.perstN then d
  else
    let d1 := d.fnReset fn
    (if fn = 0 then d1.dropVfs 0 else d1).blitAbortAll

/-- A write of VF Enable and NumVFs. -/
def Dev.setVfs (d : Dev) (n : Nat) : Dev :=
  if !d.ctl.pwrOk || !d.ctl.perstN then d
  else
    let d1 := if n < d.hub.numVfs then (d.dropVfs n).blitAbortAll else d
    { d1 with hub := { d1.hub with numVfs := n } }

/-! ## Reset I (R632, R638) -/

/-- The entry whose post was held is given up. -/
def Dev.abortPoster (d : Dev) (p : Poster) : Dev := match p with | .entry fn => d.entryReleased fn stAborted | _ => d

/-- The port of a tile: 64 ports each (R32). -/
def portOn (tileB : Bool) (p : Nat) : Bool := (64 ≤ p) == tileB

/-- The tile of a check object (R566): engines 0-3 and snoop channels 0-23 are on tile A. -/
def chkTile (k : Nat) : Nat := if k < 8 then k / 4 else (k - 8) / 24

/-- Register fields of an island that have no I in their Kept column return to their reset values (R11): CADENCE and SHORT of every island (Table 2.8), the counters and error
bits of a decode pipe and its streams (Tables 11.7 to 11.9), LAYER_SEL (Table 7.13) and SCANROW (Table 7.9), a blit engine's counts (Table 8.7), the counters of a tile's flows
(Tables 13.10, 13.11) and the fields of its check objects (Table 19.6), and of island 30 the DSP settings (Tables 5.5, 5.8 to 5.10) and the recovery address (Table 21.8); the
twin unit's are in `Dev.twinIsland`. A flow belongs to the tile of its QUEUE_A's port (log entry 52). DESIGN CHOICE (log entry 52): the selectors of a block that spans several
islands are held in the first of them: DP_SEL in island 16, and PKG_SEL, TM_PORT_SEL, TM_Q_SEL, TM_POL_SEL and CHK_CS_SEL in island 28. -/
def Dev.islandFields (d0 : Dev) (n : Nat) : Dev :=
  let d := { d0 with fab := { d0.fab with windows := d0.fab.windows.put [] n [], shortRun := d0.fab.shortRun.put 0 n 0 } }.cadLine
  if n < 16 then d
  else if n < 20 then
    { d.putDecPipeAt (n - 16) {} with
      decSel := if n = 16 then 0 else d.decSel
      dec := d.dec.mapAll ({} : Dec) fun _ s =>
        if s.pipe == n - 16 then { s with pics := 0, concealed := 0, discard := 0, syntaxErr := 0, missing := 0, lost := 0, recovered := 0 } else s }
  else if n < 24 then
    { d.modClusterAt (n - 20) fun c => { c with layerSel := 0 } with
      scene := d.scene.mapAll ({} : Scene) fun k s => if k / 16 == n - 20 then { s with ticks := 0 } else s }
  else if n < 26 then [2 * (n - 24), 2 * (n - 24) + 1].foldl (fun f e => f.modEngine e fun b => { b with jobs := 0, aborts := 0 }) d
  else if n < 28 then d
  else if n < 30 then
    let d := if n = 28 then { d with pkgSel := 0, portSel := 0, qSel := 0, polSel := 0, chkSel := 0 } else d
    { d with
      chk := d.chk.mapAll ({} : Chk) fun k c => if chkTile k == n - 28 then {} else c
      chkMode := if n = 28 then d.chkMode / 16 * 16 else d.chkMode % 16
      flow := d.flow.mapAll ({} : Flow) fun _ f =>
        if portOn (n == 29) (d.queueAt f.queueA).port then { f with pkts := 0, muted := 0, overflow := 0, cues := 0, unbound := 0 } else f }
  else
    { d with dsp := { d.dsp with sel := 0, stallUs := 100, sliceUs := 200, last := 0 }, trust := d.trust.clearRecover }

/-- Reset I of island 30 for the twin unit (R11, R391): register fields that have no I in their Kept column (Tables 12.6 to 12.11) are 0, the link drops, and the group of a pair
that is not REJECTED comes up again with its configuration. A split point that the registers lose is still owed (`Dev.rejoin`). -/
def Dev.twinIsland (d : Dev) : Dev :=
  let t := d.twin
  let split := t.st == .partitioned
  let d1 := { d with twin := { t with
    rtt := 0, items := 0, inMis := 0, sel := 0, cause := 0, halt := false, partMt := 0
    chs := t.chs.mapAll ({} : TwinCh) fun _ x => { x with episodes := 0, bad := 0, split := 0, owed := x.owed || (split && x.split != 0) } } }.setTwinLanes []
  if t.cfg.isEmpty || t.st == .rejected then d1
  else
    let l := t.firstLane
    (List.range 4).foldl (fun e i => e.modLaneAt (l + i) fun y => { y with inSvc := false, retrain := none, relock := none })
      (d1.putGroupAt l { d1.groupAt l with stage := if (d1.groupAt l).stage == .idle then .idle else .detect, passed := [], retryAt := none, since := d.ctl.ticks, been := false })

/-- What an island's reset does at once. -/
def Dev.islandActs (d : Dev) (n : Nat) : Dev :=
  if n < 16 then (d.modPipeAt n fun q => { q with cur := none, member := none }).shedAll (32 + n) (d.sharing n)
  else if n < 20 then d.decSeekAll (n - 16)
  else if n < 24 then
    { d with scene := d.scene.mapAll ({} : Scene) fun k s => if k / 16 == n - 20 then { s with work := s.work.map fun w => { w with dead := true } } else s }
  else if n < 26 then d.blitAbort [2 * (n - 24), 2 * (n - 24) + 1]
  else if n < 28 then d.endThreads fun t => t.home / 64 == n - 26
  else if n < 30 then
    d.tmIslandReset (n == 29)
  else
    let d1 := d.dropHeld (fun h => match h.poster with | .thread _ => false | _ => true) Dev.abortPoster
    let d2 := d1.endThreads fun _ => true
    { d2 with dsp := { d2.dsp with postQ := [] }, thr := d2.thr.mapAll ({} : Thread) fun _ t => { t with pending := 0 } }.twinIsland

/-- Reset I of an island: what its chapters say, and its register fields. -/
def Dev.islandStart (d : Dev) (n : Nat) : Dev := (d.islandActs n).islandFields n

/-- A write of 1 to ISL_GO. -/
def Dev.islandGo (d : Dev) (who : Requester) : Dev :=
  let n := d.ctl.island
  if !isPf who then d
  else if n = 31 || d.ctl.islBusy.isSome || d.unpowered n then { d with ctl := { d.ctl with islErr := true } }
  else ({ d with ctl := { d.ctl with islBusy := some n, lastReset := 6 } }).islandStart n

/-- The island is back in service. -/
def Dev.islandDone (d : Dev) : Dev :=
  match d.ctl.islBusy with
  | some n =>
    let d1 := { d with ctl := { d.ctl with islBusy := none } }
    if n < 16 then d1.restoreAll (32 + n)
    else if n = 30 && !d1.twin.cfg.isEmpty && (d1.groupAt d1.twin.firstLane).stage == .caps then d1.offerPairing
    else d1
  | none => d

/-! ## DORMANT (R640 to R644) -/

/-- A write of 1 to DORMANT in a settled state. -/
def Dev.enterDormant (d : Dev) : Dev :=
  if d.anyStarted || d.ctl.power != 0 then { d with ctl := { d.ctl with dormantErr := true } }
  else
    let d1 := { d with ctl := { d.ctl with power := 1, dormant := true } }
    ((d1.group.map (·.1)).foldl (fun e g => e.groupIdle g true) d1).setTwinLanes []

/-- A write of 0 in a settled state: the controllers leave self-refresh. -/
def Dev.leaveDormant (d : Dev) : Dev :=
  let d1 := { d with ctl := { d.ctl with dormant := false } }
  if d.ctl.power = 2 then (List.range 12).foldl Dev.srExit { d1 with ctl := { d1.ctl with power := 3 } } else d1

/-- A write of DORMANT; during a transition it waits for its end. -/
def Dev.writeDormant (d : Dev) (who : Requester) (b : Bool) : Dev :=
  if !isPf who then d
  else if d.ctl.power == 1 || d.ctl.power == 3 then { d with ctl := { d.ctl with dormantReq := some b } }
  else if b then d.enterDormant else d.leaveDormant

/-- The transition has ended: a write that waited takes effect. -/
def Dev.pendingDormant (d : Dev) : Dev :=
  match d.ctl.dormantReq with
  | some b =>
    let d1 := { d with ctl := { d.ctl with dormantReq := none } }
    if b then d1.enterDormant else d1.leaveDormant
  | none => d

/-- Lanes are idle, islands 0-23 off: memory enters self-refresh and POWER reads DORMANT. -/
def Dev.dormantEntered (d : Dev) : Dev :=
  if d.ctl.power = 1 then
    let d1 := (List.range 12).foldl Dev.srForce d
    { d1 with ctl := { d1.ctl with power := 2 } }.pendingDormant
  else d

/-- Every island is at or above 1.03 times its floor. -/
def Dev.allFast (d : Dev) : Bool := (List.range 32).all fun n => decide (103 * floorOf n ≤ d.cadMean n * 100)

/-- POWER reads ACTIVE; the groups that DORMANT idled leave idle, and failed memory tests are reported. -/
def Dev.dormantLeft (d : Dev) (epFail dpFail : Nat) : Dev :=
  if d.ctl.power = 3 && decide (800 ≤ d.fab.setMv) && d.allFast then
    let d1 := { d with ctl := { d.ctl with power := 0 } }
    let d2 := ((d1.group.filter fun e => e.2.dormant).map (·.1)).foldl Dev.groupWake d1
    let d3 := ((List.range 16).filter fun p => bitN epFail p).foldl (fun e p => e.epEcc p false) d2
    (((List.range 4).filter fun p => bitN dpFail p).foldl (fun e p => e.dpEcc p false) d3).pendingDormant
  else d

/-! ## Supplies and clocks (R655, R661, R668) -/

/-- A main rail out of its range, or back in it. -/
def Dev.pwrMon (d : Dev) (out : Bool) : Dev := if d.ctl.pwrOk then d.setLine 52 out else d

/-- A sensor above the trip temperature: the pin stays low until reset P. -/
def Dev.thermTrip (d : Dev) : Dev :=
  if !d.ctl.pwrOk || d.flt.live.getLsbD 53 then d else (d.setLine 53 true).emit (.pin "THERM_TRIP_N" false)

/-- Memory contents become undefined (R661). -/
def Dev.loseMemory (d : Dev) : Dev := { d with mem := [], memEra := d.memEra + 1 }

/-- A reference clock is absent or out of range. -/
def Dev.clockLost (d : Dev) (tb : Bool) : Dev :=
  let d1 := if tb then { d.loseMemory with tb := { d.tb with refTb := false } } else { d with tb := { d.tb with refPcie := false } }
  if d.ctl.pwrOk then d1.setLine 54 true else d1

/-- CLK_REF falls once both clocks are there. -/
def Dev.clockLine (d : Dev) : Dev := if d.tb.refTb && d.tb.refPcie then d.setLine 54 false else d

/-- REFCLK_TB returns; what was written to memory without it is undefined too. -/
def Dev.clockBack (d : Dev) : Dev :=
  if d.tb.refTb then d else { d.loseMemory with tb := { d.tb with refTb := true } }.clockLine

/-- The width at which the link trains with a partner's (Table 3.1): a partner of only x2 trains at x1; any other width has no link. -/
def linkWidth (w : Nat) : Option Nat := if w = 2 then some 1 else if [1, 4, 8, 16].contains w then some w else none

/-- The link trains, at one of the rates Gen1 to Gen6 and one of the widths of Table 3.1: its clock is there. FLIT mode is always used at 64 GT/s. -/
def Dev.linkTrained (d : Dev) (gen width : Nat) (flit : Bool) : Dev :=
  if !d.ctl.pwrOk || !d.ctl.perstN || gen = 0 then d
  else match linkWidth width with
  | none => d
  | some w => ({ d with hub := { d.hub with linkUp := true, gen := gen, width := w, flit := flit || gen == 6 }, tb := { d.tb with refPcie := true } }.clockLine).setLine 3 false

/-! ## Meanings -/

/-- RESET_P (R627). -/
def execResetP (s : State) : Host.Outcome State Fault Refusal := ok s s.dev.resetP

/-- PERST_N_FALL (R628). -/
def execPerstNFall (s : State) : Host.Outcome State Fault Refusal := ok s s.dev.perstFall

/-- PERST_N_RISE (R628). -/
def execPerstNRise (senior : Bool) (s : State) : Host.Outcome State Fault Refusal := ok s (s.dev.perstRise senior)

/-- DEV_CTRL_SOFT (R631). -/
def execDevCtrlSoft (who : Requester) (s : State) : Host.Outcome State Fault Refusal := ok s (s.dev.softReset who)

/-- RESET_H (R629). -/
def execResetH (linkDown : Bool) (s : State) : Host.Outcome State Fault Refusal := ok s (s.dev.resetH linkDown)

/-- RESET_F (R630). -/
def execResetF (fn : Fin 64) (s : State) : Host.Outcome State Fault Refusal := ok s (s.dev.resetF fn)

/-- VF_DISABLE (R89). -/
def execVfDisable (enable : Bool) (numVfs : Fin 64) (s : State) : Host.Outcome State Fault Refusal := ok s (s.dev.setVfs (if enable then numVfs else 0))

/-- D3HOT_ENTRY (R84). -/
def execD3hotEntry (fn : Fin 64) (s : State) : Host.Outcome State Fault Refusal := ok s (s.dev.d3hot fn)

/-- DEV_CTRL_ISL_GO (R632). -/
def execDevCtrlIslGo (who : Requester) (s : State) : Host.Outcome State Fault Refusal := ok s (s.dev.islandGo who)

/-- ISLAND_RESET_DONE (R632). -/
def execIslandResetDone (s : State) : Host.Outcome State Fault Refusal := ok s s.dev.islandDone

/-- BOOT_COMPLETE (R634). -/
def execBootComplete (s : State) : Host.Outcome State Fault Refusal := ok s s.dev.bootDone

/-- DEV_CTRL_DORMANT_SET (R640). -/
def execDevCtrlDormantSet (who : Requester) (s : State) : Host.Outcome State Fault Refusal := ok s (s.dev.writeDormant who true)

/-- DORMANT_ENTERED (R641). -/
def execDormantEntered (s : State) : Host.Outcome State Fault Refusal := ok s s.dev.dormantEntered

/-- DEV_CTRL_DORMANT_CLEAR (R643). -/
def execDevCtrlDormantClear (who : Requester) (s : State) : Host.Outcome State Fault Refusal := ok s (s.dev.writeDormant who false)

/-- DORMANT_LEFT (R643): the pipes whose memory tests fail. -/
def execDormantLeft (epFail : BitVec 16) (dpFail : BitVec 4) (s : State) : Host.Outcome State Fault Refusal := ok s (s.dev.dormantLeft epFail.toNat dpFail.toNat)

/-- PWR_MON (R655). -/
def execPwrMon (out : Bool) (s : State) : Host.Outcome State Fault Refusal := ok s (s.dev.pwrMon out)

/-- THERM_TRIP (R668). -/
def execThermTrip (s : State) : Host.Outcome State Fault Refusal := ok s s.dev.thermTrip

/-- CLK_REF (R661). -/
def execClkRef (tb : Bool) (s : State) : Host.Outcome State Fault Refusal := ok s (s.dev.clockLost tb)

/-- PWR_OK_RISE (R627). -/
def execPwrOkRise (senior : Bool) (s : State) : Host.Outcome State Fault Refusal := ok s (s.dev.powerRise senior)

/-- PCIE_LINK_UP (R82). -/
def execPcieLinkUp (gen : Fin 7) (width : Fin 32) (flit : Bool) (s : State) : Host.Outcome State Fault Refusal := ok s (s.dev.linkTrained gen width flit)

/-- REFCLK_TB_RETURN (R661). -/
def execRefclkTbReturn (s : State) : Host.Outcome State Fault Refusal := ok s s.dev.clockBack

end Sys2Proof.Machine
end

