-- ==== Sys2Proof/Machine/RegMap.lean ====
section
/-! DEFINITION. The register map: the HUB, TB and DSP blocks, the ring slices with their MSI-X tables, and the routing of an access to its block
(chapter 24, Tables 3.16, 5.4 and 15.5). -/

namespace Sys2Proof.Machine

/-! ## TB (Tables 15.5 to 15.13) -/

/-- TB_CAD_LAG: whole ns, saturating. -/
def TimeBase.lagNs (t : TimeBase) : Nat := ofSigned 32 (max (-(2 ^ 31)) (min (2 ^ 31 - 1) (t.lag / 4294967296)))

/-- A read of the TB block; a read of TB_NOW_NS latches (R456). -/
def Dev.readTb (d : Dev) (off : Nat) : Nat :=
  let t := d.tb
  match off with
  | 0x00 => t.ns
  | 0x04 => t.latLo.toNat
  | 0x08 => t.latHi.toNat % 2 ^ 16
  | 0x0C => t.latFrac.toNat
  | 0x10 => t.incr % 2 ^ 32
  | 0x14 => t.incr / 2 ^ 32
  | 0x18 => t.offLo.toNat
  | 0x1C => t.offHi.toNat
  | 0x20 => t.stepUs
  | 0x24 => t.servo + fld 2 6 t.kp + fld 8 6 t.ki + fld 14 10 t.lockNs + fld 24 8 t.hold
  | 0x28 => ofSigned 20 ((t.y * 1000000000 + 2 ^ 86) / 2 ^ 87) + fld 20 1 (b2n t.setIgn) + fld 21 1 (b2n t.overrun) + fld 22 10 t.steps
  | 0x2C => t.lagNs
  | 0x30 => t.ppsNs + fld 31 1 (b2n t.ppsValid)
  | 0x34 => t.ppsSec
  | _ => 0

/-- The time base after a write of one of its plain registers. -/
def TimeBase.write (t : TimeBase) (off : Nat) (v : Word) : TimeBase :=
  let n := v.toNat
  match off with
  | 0x04 => { t with wrLo := some v }
  | 0x10 => { t with incr := t.incr / 2 ^ 32 * 2 ^ 32 + n }
  | 0x14 => { t with incr := n % 16 * 2 ^ 32 + t.incr % 2 ^ 32 }
  | 0x18 => { t with offLo := v }
  | 0x20 => { t with stepUs := bits n 0 20 }
  | 0x24 => { t with kp := bits n 2 6, ki := bits n 8 6, lockNs := bits n 14 10, hold := bits n 24 8 }
  | 0x28 => { t with setIgn := t.setIgn && !bitN n 20, overrun := t.overrun && !bitN n 21 }
  | 0x30 => { t with ppsValid := t.ppsValid && !bitN n 31 }
  | _ => t

/-- A write of the TB block: firmware only (R476). -/
def Dev.writeTb (d : Dev) (who : Requester) (off : Nat) (v : Word) : Dev :=
  if !isFw who then d
  else if off = 0x08 then d.tbCoarseSet v
  else if off = 0x1C then d.tbOffsetHi v
  else { d with tb := d.tb.write off v }

/-! ## HUB (Tables 3.16 to 3.22, 23.5) -/

/-- DEV_CTRL. -/
def DevCtl.reg (c : DevCtl) : Nat :=
  fld 1 1 (b2n c.dormant) + fld 2 1 (b2n c.dormantErr) + fld 4 2 c.power + fld 8 5 c.island + fld 13 1 (b2n c.islBusy.isSome) + fld 14 1 (b2n c.islErr) + fld 16 3 c.lastReset

/-- A read of the HUB block. -/
def Dev.readHub (d : Dev) (off : Nat) : Nat :=
  let h := d.hub
  match off with
  | 0x00 => 0x095100B0
  | 0x10 => b2n h.req + fld 1 1 (b2n h.done) + fld 2 1 (b2n h.err) + fld 16 16 h.seq
  | 0x14 => h.addrLo.toNat
  | 0x18 => h.addrHi.toNat
  | 0x20 => h.ownIdx + fld 16 2 h.ownKind + fld 31 1 (b2n h.ownErr)
  | 0x24 => d.ownerOf h.ownKind h.ownIdx
  | 0x30 => h.gen + fld 3 5 h.width + fld 8 1 (b2n h.flit) + fld 16 16 h.downCount
  | 0x40 => d.ctl.reg
  | _ => 0

/-- A write of HUB_RESYNC: DONE and ERR are cleared by 1, REQ is set by 1 (R113). -/
def Dev.writeResync (d : Dev) (who : Requester) (v : Word) : Dev :=
  let d1 := { d with hub := { d.hub with done := d.hub.done && !v.getLsbD 1, err := d.hub.err && !v.getLsbD 2 } }
  if v.getLsbD 0 then d1.resyncReq who else d1

/-- A write of DEV_CTRL: the error bits, the island, DORMANT, and then what the write starts. -/
def Dev.writeDevCtrl (d : Dev) (who : Requester) (v : Word) : Dev :=
  let d1 := { d with ctl := { d.ctl with dormantErr := d.ctl.dormantErr && !v.getLsbD 2, islErr := d.ctl.islErr && !v.getLsbD 14, island := bits v.toNat 8 5 } }
  let d2 := d1.writeDormant who (v.getLsbD 1)
  let d3 := if v.getLsbD 13 then d2.islandGo who else d2
  if v.getLsbD 0 then d3.softReset who else d3

/-- A write of the HUB block: the PF only (R121). Addresses keep while REQ reads 1 (R115). -/
def Dev.writeHub (d : Dev) (who : Requester) (off : Nat) (v : Word) : Dev :=
  if !isPf who then d
  else match off with
    | 0x10 => d.writeResync who v
    | 0x14 => if d.hub.req then d else { d with hub := { d.hub with addrLo := v &&& 0xFFFFF000#32 } }
    | 0x18 => if d.hub.req then d else { d with hub := { d.hub with addrHi := v } }
    | 0x20 => { d with hub := { d.hub with ownIdx := bits v.toNat 0 13, ownKind := bits v.toNat 16 2, ownErr := d.hub.ownErr && !v.getLsbD 31 } }
    | 0x24 => d.setOwner who v
    | 0x40 => d.writeDevCtrl who v
    | _ => d

/-! ## DSP (Tables 5.4 to 5.12) -/

/-- State codes (Table 5.1). -/
def threadCode : ThState → Nat
  | .free => 0 | .ready => 1 | .running => 2 | .waiting => 3 | .held => 4 | .draining => 5

/-- DSP_THREAD_STATE of a thread; a free one reads 0. -/
def Thread.reg (t : Thread) : Nat :=
  if t.st == .free then 0
  else threadCode t.st + fld 3 1 (b2n t.waitAll) + fld 8 6 t.prio + fld 16 7 t.fn + fld 24 7 t.home + fld 31 1 (b2n t.slot.isSome)

/-- DSP_HELD: posters and units held now. -/
def Dsp.heldReg (s : Dsp) : Nat :=
  let units := s.heldPosts.filterMap fun h => match h.poster with | .unit u => some u | _ => none
  (s.heldPosts.length - units.length) + fld 16 5 units.dedup.length

/-- A read of the DSP block. -/
def Dev.readDsp (d : Dev) (off : Nat) : Nat :=
  let t := d.thread d.dsp.sel
  match off with
  | 0x00 => d.dsp.sel
  | 0x04 => t.reg
  | 0x08 => t.flags.toNat
  | 0x0C => t.mask.toNat
  | 0x10 => d.dsp.stallUs
  | 0x14 => d.dsp.sliceUs
  | 0x18 => d.dsp.last.toNat
  | 0x1C => d.dsp.heldReg
  | 0x30 => d.dsp.spillLo.toNat
  | 0x34 => d.dsp.spillHi.toNat % 2 ^ 16
  | _ => 0

/-- A write of the DSP block: the PF only (R188). -/
def Dev.writeDsp (d : Dev) (who : Requester) (off : Nat) (v : Word) : Dev :=
  if !isPf who then d
  else match off with
    | 0x00 => { d with dsp := { d.dsp with sel := bits v.toNat 0 12 } }
    | 0x10 => { d with dsp := { d.dsp with stallUs := bits v.toNat 0 20 } }
    | 0x14 => { d with dsp := { d.dsp with sliceUs := bits v.toNat 0 16 } }
    | 0x18 => if v.getLsbD 31 then { d with dsp := { d.dsp with last := d.dsp.last &&& 0x7FFFFFFF#32 } } else d
    | _ => d

/-! ## BAR0 (Tables 24.1 and 24.2) -/

/-- The value that a 32-bit read of a BAR0 offset returns, outside the core windows. -/
def Dev.readBlock (d : Dev) (a : Nat) : Nat :=
  if a < 0x100000 then d.readHub a
  else if a < 0x200000 then d.readFlt (a - 0x100000)
  else if a < 0x300000 then d.readTb (a - 0x200000)
  else if a < 0x400000 then d.readTrust (a - 0x300000)
  else if a < 0x500000 then d.readDsp (a - 0x400000)
  else if a < 0x600000 then d.readChk (a - 0x500000)
  else if a < 0x6C0000 then d.readMc ((a - 0x600000) / 0x10000) ((a - 0x600000) % 0x10000)
  else if a < 0x800000 then 0
  else if a < 0x900000 then d.readLane ((a - 0x800000) / 0x1000) ((a - 0x800000) % 0x1000)
  else if a < 0xA00000 then d.readCasc (a - 0x900000)
  else if a < 0xB00000 then d.readTwin (a - 0xA00000)
  else if a < 0xF00000 then d.readTm (a - 0xB00000)
  else if a < 0x1000000 then d.readCap (a - 0xF00000)
  else if a < 0x1100000 then d.readMf ((a - 0x1000000) / 0x40000) ((a - 0x1000000) % 0x40000)
  else if a < 0x1200000 then d.readBlit (a - 0x1100000)
  else if a < 0x1300000 then d.readEp ((a - 0x1200000) / 0x10000) ((a - 0x1200000) % 0x10000)
  else if a < 0x1400000 then d.readCh ((a - 0x1300000) / 0x800) ((a - 0x1300000) % 0x800)
  else if a < 0x1500000 then d.readDp (a - 0x1400000)
  else if a < 0x1600000 then d.readPkg (a - 0x1500000)
  else if a < 0x1700000 then d.readFab (a - 0x1600000)
  else if a < 0x2000000 then d.readPrl (a - 0x1700000)
  else 0

/-- A 32-bit read of BAR0, with its side effects: the latch of TB_NOW_NS, and the report of a double-bit error in a core window (R647, R650). -/
def Dev.readReg (d : Dev) (off : Nat) : Nat × Dev :=
  let a := off / 4 * 4
  if 0x2000000 ≤ a then d.coreWindow ((a - 0x2000000) / 0x40000 % 128) (a % 0x40000)
  else (d.readBlock a, if a = 0x200000 then d.tbReadNow else d)

/-- A 32-bit write of BAR0 (R646). A VF does not reach it (R87). -/
def Dev.writeReg (d : Dev) (who : Requester) (off : Nat) (v : Word) : Dev :=
  let a := off / 4 * 4
  if !isPfOrFw who then d
  else if a < 0x100000 then d.writeHub who a v
  else if a < 0x200000 then d.writeFlt who (a - 0x100000) v
  else if a < 0x300000 then d.writeTb who (a - 0x200000) v
  else if a < 0x400000 then d.writeTrust who (a - 0x300000) v
  else if a < 0x500000 then d.writeDsp who (a - 0x400000) v
  else if a < 0x600000 then d.writeChk who (a - 0x500000) v
  else if a < 0x6C0000 then d.writeMc who ((a - 0x600000) / 0x10000) ((a - 0x600000) % 0x10000) v
  else if a < 0x800000 then d
  else if a < 0x900000 then d.writeLane who ((a - 0x800000) / 0x1000) ((a - 0x800000) % 0x1000) v
  else if a < 0xA00000 then d.writeCasc who (a - 0x900000) v
  else if a < 0xB00000 then d.writeTwin who (a - 0xA00000) v
  else if a < 0xF00000 then d.writeTm who (a - 0xB00000) v
  else if a < 0x1000000 then d.writeCap who (a - 0xF00000) v
  else if a < 0x1100000 then d.writeMf who ((a - 0x1000000) / 0x40000) ((a - 0x1000000) % 0x40000) v
  else if 0x1400000 ≤ a && a < 0x1500000 then d.writeDp who (a - 0x1400000) v
  else if 0x1500000 ≤ a && a < 0x1600000 then d.writePkg who (a - 0x1500000) v
  else d

/-! ## Ring slices (Tables 3.7 to 3.13, 24.3) -/

/-- What a word of an MSI-X table holds at reset: an entry is masked (log entry 14). -/
def msixDefault (k : Nat) : Word := if k % 4 = 3 then 1 else 0

/-- Word k of the MSI-X tables: function x 128 + entry x 4 + word. -/
def Dev.msixWord (d : Dev) (k : Nat) : Word := d.hub.msix.get (msixDefault k) k

/-- A write of a word of a function's MSI-X table; an entry that is unmasked sends its pending message. -/
def Dev.writeMsix (d : Dev) (fn k : Nat) (v : Word) : Dev :=
  let i := fn * 128 + k
  let w := if k % 4 = 0 then v &&& 0xFFFFFFFC#32 else if k % 4 = 3 then v &&& 1 else v
  let d1 := { d with hub := { d.hub with msix := d.hub.msix.put (msixDefault i) i w } }
  if k % 4 = 3 && !w.getLsbD 0 && (d.hub.pba.get 0 fn).getLsbD (k / 4) then
    { d1 with hub := { d1.hub with pba := d1.hub.pba.put 0 fn (d1.hub.pba.get 0 fn &&& ~~~(1#32 <<< (k / 4))) } }.raiseVector fn (k / 4)
  else d1

/-- The number of a requester that is a function. -/
def numberOf : Requester → Option Nat
  | .pf => some 0
  | .vf n => some n
  | .firmware => none

/-- A read of a ring slice. -/
def Dev.readSlice (d : Dev) (who : Requester) (fn o : Nat) : Nat :=
  let r := d.ring fn
  if !d.reaches who fn then 0
  else if 0x2000 ≤ o && o < 0x2200 then (if numberOf who = some fn then (d.msixWord (fn * 128 + (o - 0x2000) / 4)).toNat else 0)
  else if o = 0x3000 then (if numberOf who = some fn then (d.hub.pba.get 0 fn).toNat else 0)
  else match o with
    | 0x00 => r.sqBaseLo.toNat
    | 0x04 => r.sqBaseHi.toNat
    | 0x08 => r.cqBaseLo.toNat
    | 0x0C => r.cqBaseHi.toNat
    | 0x10 => r.sqLog + fld 4 4 r.cqLog + fld 16 10 r.coalesce
    | 0x14 => b2n r.enable + fld 8 3 (ringCode r.st)
    | 0x18 => r.sqTail.toNat
    | 0x1C => r.sqHead.toNat
    | 0x20 => r.cqHead.toNat
    | 0x24 => r.cqTail.toNat
    | 0x28 => r.held.length
    | _ => 0

/-- Base and configuration registers; they are ignored while ENABLE is 1 (R107). -/
def Ring.config (r : Ring) (o : Nat) (v : Word) : Ring :=
  if r.enable then r
  else match o with
    | 0x00 => { r with sqBaseLo := v &&& 0xFFFFF000#32 }
    | 0x04 => { r with sqBaseHi := v }
    | 0x08 => { r with cqBaseLo := v &&& 0xFFFFF000#32 }
    | 0x0C => { r with cqBaseHi := v }
    | 0x10 => { r with sqLog := clampLog (bits v.toNat 0 4), cqLog := clampLog (bits v.toNat 4 4), coalesce := bits v.toNat 16 10 }
    | _ => r

/-- A write of a ring slice (R106, R651). -/
def Dev.writeSlice (d : Dev) (who : Requester) (fn o : Nat) (v : Word) : Dev :=
  if !d.reaches who fn then d
  else if 0x2000 ≤ o && o < 0x2200 then (if numberOf who = some fn then d.writeMsix fn ((o - 0x2000) / 4) v else d)
  else match o with
    | 0x14 => if v.getLsbD 0 then d.ringOn who fn else d.ringOff who fn
    | 0x18 => d.sqTail who fn v
    | 0x20 => d.cqHead who fn v
    | _ => d.modRing fn fun r => r.config o v

/-! ## Configuration space (R82, R83, R89, R114)

PRESUMED from PCI Express (log entry 14): the places of the vendor and device identity, of the Command register and of the AER status in a function's
configuration space; the spec names what they hold and gives them no offset. -/

/-- A doubleword of a function's configuration space: device ID 0x9512 for the PF and 0x9513 for a VF under the company's vendor ID, the Command register, the
AER status. Other registers of PCI Express read 0 here. -/
def Dev.readConfig (d : Dev) (fn off : Nat) : Nat :=
  if !d.fnOn fn then 0xFFFFFFFF
  else match off / 4 * 4 with
    | 0x00 => Config.vendorId % 2 ^ 16 + fld 16 16 (if fn = 0 then 0x9512 else 0x9513)
    | 0x04 => (d.hub.cmd.get 0 fn).toNat
    | 0x104 => (d.hub.aer.get 0 fn).toNat
    | _ => 0

/-- A write to a function's configuration space: Memory Space Enable and Bus Master Enable are set as written; a status bit written 1 is cleared. -/
def Dev.writeConfig (d : Dev) (fn off : Nat) (v : Word) : Dev :=
  if !d.fnOn fn then d
  else match off / 4 * 4 with
    | 0x04 => { d with hub := { d.hub with cmd := d.hub.cmd.put 0 fn (v &&& 6) } }
    | 0x104 => { d with hub := { d.hub with aer := d.hub.aer.put 0 fn (d.hub.aer.get 0 fn &&& ~~~v) } }
    | _ => d

/-- One doubleword of a host write: ignored unless all its byte enables are set (R647, R673). The PF sees slice f at f x 0x4000, a VF its own at 0. -/
def Dev.hostWrite (d : Dev) (who : Requester) (sp : RegSpace) (off : Nat) (v : Word) (be : BitVec 4) : Dev :=
  let a := off / 4 * 4
  if be != 15#4 then d
  else match sp, who with
    | .bar0, _ => d.writeReg who off v
    | .bar2, .pf => if a < 0x100000 then d.writeSlice .pf (a / 0x4000) (a % 0x4000) v else d
    | .bar2, .vf n => if a < 0x4000 then d.writeSlice (.vf n) n a v else d
    | .bar2, .firmware => d
    | .config, .pf => d.writeConfig 0 off v
    | .config, .vf n => d.writeConfig n off v
    | .config, .firmware => d

/-! ## Meaning -/

/-- REGISTER_WRITE (R646, R647, R673). -/
def execRegisterWrite (who : Requester) (sp : RegSpace) (off : BitVec 26) (v : BitVec 32) (be : BitVec 4) (s : State) : Host.Outcome State Fault Refusal :=
  ok s (s.dev.hostWrite who sp off.toNat v be)

end Sys2Proof.Machine
end

