-- ==== Sys2Proof/Machine/Operands.lean ====
section
/-! DEFINITION. The operand forms of the Svetu formats (Table 4.3): immediates, offsets, shift amounts, access sizes and addresses. -/

namespace Sys2Proof.Machine

/-- An immediate of any width, sign-extended or zero-extended to 64 bits (R146). -/
def sext {w : Nat} (v : BitVec w) : DWord := v.signExtend 64
def zext {w : Nat} (v : BitVec w) : DWord := v.setWidth 64

/-- A shift amount is bits 5:0 (R127). -/
def shiftAmount (v : DWord) : Nat := v.toNat % 64

/-- Bytes of an access of a size code: 1, 2, 4 or 8. -/
def sizeBytes (size : BitVec 2) : Nat := 2 ^ size.toNat

/-- The address of a format M access: base and signed offset. -/
def Thread.effAddr (t : Thread) (ra : Nat) (off : BitVec 12) : Nat := (t.gpr ra + sext off).toNat

/-- Target of a format B or JAL branch: pc and four times the signed word offset. -/
def Thread.branchTarget (t : Thread) (off : BitVec 16) : DWord := t.pc + sext off * 4

/-- A loaded value of n bytes, sign-extended or not. -/
def extendTo (n v : Nat) (signed : Bool) : DWord :=
  match n, signed with
  | 1, true => sext (BitVec.ofNat 8 v)
  | 2, true => sext (BitVec.ofNat 16 v)
  | 4, true => sext (BitVec.ofNat 32 v)
  | _, _ => BitVec.ofNat 64 v

/-- The result of a shift by SHI: bits 7:6 choose left, right logical or right arithmetic; none for 3. -/
def shiftBy (kind : Nat) (v : DWord) (n : Nat) : Option DWord :=
  match kind with
  | 0 => some (v <<< n)
  | 1 => some (v >>> n)
  | 2 => some (v.sshiftRight n)
  | _ => none

end Sys2Proof.Machine
end

