-- ==== Sys2Proof/Machine/Svetu.lean ====
section
/-! DEFINITION. What every Svetu instruction shares: the thread that runs on a core, the program counter, and traps (R142, R150 to R152). -/

namespace Sys2Proof.Machine

/-- Trap causes (Table 4.6), in the order in which they are taken (R150). -/
def cIllegal := 1
def cPriv := 2
def cAlign := 3
def cBounds := 4
def cOwner := 5
def cEcc := 6
def cSwtrap := 7

/-- The trap record of R151. -/
def trapRecord (cause code : Nat) (pc : DWord) : Nat := cause + code * 2 ^ 8 + pc.toNat % 2 ^ 32 * 2 ^ 32

/-- A record joins the hub firmware log, which keeps the last 64. -/
def Dev.logPut (d : Dev) (l : LogEntry) : Dev := { d with hub := { d.hub with log := lastN 64 (d.hub.log ++ [l]) } }

/-- The trap record of a firmware thread (R152): the code of the entry is the release's own, a free value that is not 0; bits 15:0 and 63:32 of the record
are its source and argument (log entry 3). -/
def Dev.logTrap (d : Dev) (recd : Nat) : Dev :=
  d.nextFree.logPut { uptime := d.upNs, code := d.freeVal % 65535 + 1, source := recd % 2 ^ 16, arg := recd / 2 ^ 32 }

/-- A thread traps: it ends, and the instruction has no effect (R151, R152). ECC is reported whatever the mode (R136). -/
def Dev.trap (d : Dev) (t cause code : Nat) : Dev :=
  let x := d.thread t
  let recd := trapRecord cause code x.pc
  let d1 := if x.firmware then ((d.logTrap recd).endThread t stAborted recd).raise 6
    else (d.putThread t (x.setG 1 (BitVec.ofNat 64 recd))).endThread t stAborted recd
  if cause = cEcc then d1.raise 7 else d1

/-- The thread goes on behind the instruction. -/
def Thread.next (x : Thread) (len : Nat) : Thread := { x with pc := x.pc + BitVec.ofNat 64 len }

/-- A program's fetch of `len` bytes from its pc on leaves the segment (Table 4.6). -/
def Thread.beyond (x : Thread) (len : Nat) : Bool := !x.firmware && decide (0x10000 < x.pc.toNat + len)

/-- The word that a thread fetches from local memory, `off` bytes behind its pc (R142). -/
def Dev.fetchAt (d : Dev) (x : Thread) (off : Nat) : Word := BitVec.ofNat 32 (leNat (readBytes d.loc (x.segBase + x.pc.toNat + off) 4))

/-- The command that the instruction at a thread's pc spells. -/
def Dev.fetched (d : Dev) (c : Fin 128) (x : Thread) : Option Instr := decodeSvetu c (d.fetchAt x 0) (d.fetchAt x 4)

/-- One instruction on a core: nothing without a thread that runs there; BOUNDS where its first word lies beyond a program's segment (Table 4.6); ILLEGAL where
the word there has an undefined major opcode or func (R144); the command's own effect where that word spells it (R142 to R146), and nothing where it spells another
one (log entry 3). -/
def Dev.svetu (d : Dev) (i : Instr) (c : Fin 128) (run : Nat → Thread → Dev) : Dev :=
  match d.running c with
  | none => d
  | some t =>
    let x := d.thread t
    if x.beyond 4 then d.trap t cBounds 0
    else match d.fetched c x with
      | none => d.trap t cIllegal 0
      | some j => if j = i then run t x else d

/-- The first cause that holds. -/
def firstTrap : List (Bool × Nat) → Option Nat
  | [] => none
  | (b, cause) :: r => if b then some cause else firstTrap r

/-- Go on unless a cause holds. -/
def Dev.orTrap (d : Dev) (t : Nat) (cs : List (Bool × Nat)) (k : Dev) : Dev :=
  match firstTrap cs with
  | some cause => d.trap t cause 0
  | none => k

/-- An instruction that only writes a register. -/
def Dev.alu (d : Dev) (i : Instr) (c : Fin 128) (rd : Nat) (f : Thread → DWord) : Dev := d.svetu i c fun t x => d.putThread t ((x.setG rd (f x)).next 4)

/-- The same where some encodings are illegal. -/
def Dev.aluChecked (d : Dev) (i : Instr) (c : Fin 128) (rd : Nat) (bad : Bool) (f : Thread → DWord) : Dev :=
  d.svetu i c fun t x => d.orTrap t [(bad, cIllegal)] (d.putThread t ((x.setG rd (f x)).next 4))

/-- A truth value as a register value. -/
def bit64 (b : Bool) : DWord := if b then 1 else 0

end Sys2Proof.Machine
end

