-- ==== Sys2Proof/Machine/SvetuAlu.lean ====
section
/-! DEFINITION. The arithmetic instructions: the A-format group, the immediates, LI and LIH (Tables 4.4 and 4.5). -/

namespace Sys2Proof.Machine

/-! ## A format (R145) -/

/-- Quotient and remainder of R145. -/
def divU (a b : DWord) : DWord := if b = 0 then BitVec.allOnes 64 else a / b
def remU (a b : DWord) : DWord := if b = 0 then a else a % b

/-- The high 64 bits of the unsigned product. -/
def mulHigh (a b : DWord) : DWord := BitVec.ofNat 64 (a.toNat * b.toNat / 2 ^ 64)

/-- ADD (R145). -/
def execAddR (c : Fin 128) (rd ra rb : Fin 32) (s : State) : Host.Outcome State Fault Refusal :=
  ok s (s.dev.alu (.addR c rd ra rb) c rd fun x => let a := x.gpr ra; let b := x.gpr rb; a + b)

/-- SUB (R145). -/
def execSubR (c : Fin 128) (rd ra rb : Fin 32) (s : State) : Host.Outcome State Fault Refusal :=
  ok s (s.dev.alu (.subR c rd ra rb) c rd fun x => let a := x.gpr ra; let b := x.gpr rb; a - b)

/-- AND (R145). -/
def execAndR (c : Fin 128) (rd ra rb : Fin 32) (s : State) : Host.Outcome State Fault Refusal :=
  ok s (s.dev.alu (.andR c rd ra rb) c rd fun x => let a := x.gpr ra; let b := x.gpr rb; a &&& b)

/-- OR (R145). -/
def execOrR (c : Fin 128) (rd ra rb : Fin 32) (s : State) : Host.Outcome State Fault Refusal :=
  ok s (s.dev.alu (.orR c rd ra rb) c rd fun x => let a := x.gpr ra; let b := x.gpr rb; a ||| b)

/-- XOR (R145). -/
def execXorR (c : Fin 128) (rd ra rb : Fin 32) (s : State) : Host.Outcome State Fault Refusal :=
  ok s (s.dev.alu (.xorR c rd ra rb) c rd fun x => let a := x.gpr ra; let b := x.gpr rb; a ^^^ b)

/-- SLL (R145). -/
def execSll (c : Fin 128) (rd ra rb : Fin 32) (s : State) : Host.Outcome State Fault Refusal :=
  ok s (s.dev.alu (.sll c rd ra rb) c rd fun x => let a := x.gpr ra; let b := x.gpr rb; a <<< shiftAmount b)

/-- SRL (R145). -/
def execSrl (c : Fin 128) (rd ra rb : Fin 32) (s : State) : Host.Outcome State Fault Refusal :=
  ok s (s.dev.alu (.srl c rd ra rb) c rd fun x => let a := x.gpr ra; let b := x.gpr rb; a >>> shiftAmount b)

/-- SRA (R145). -/
def execSra (c : Fin 128) (rd ra rb : Fin 32) (s : State) : Host.Outcome State Fault Refusal :=
  ok s (s.dev.alu (.sra c rd ra rb) c rd fun x => let a := x.gpr ra; let b := x.gpr rb; a.sshiftRight (shiftAmount b))

/-- SLT (R145). -/
def execSlt (c : Fin 128) (rd ra rb : Fin 32) (s : State) : Host.Outcome State Fault Refusal :=
  ok s (s.dev.alu (.slt c rd ra rb) c rd fun x => let a := x.gpr ra; let b := x.gpr rb; bit64 (a.slt b))

/-- SLTU (R145). -/
def execSltu (c : Fin 128) (rd ra rb : Fin 32) (s : State) : Host.Outcome State Fault Refusal :=
  ok s (s.dev.alu (.sltu c rd ra rb) c rd fun x => let a := x.gpr ra; let b := x.gpr rb; bit64 (a.ult b))

/-- MIN (R145). -/
def execMinS (c : Fin 128) (rd ra rb : Fin 32) (s : State) : Host.Outcome State Fault Refusal :=
  ok s (s.dev.alu (.minS c rd ra rb) c rd fun x => let a := x.gpr ra; let b := x.gpr rb; if a.slt b then a else b)

/-- MAX (R145). -/
def execMaxS (c : Fin 128) (rd ra rb : Fin 32) (s : State) : Host.Outcome State Fault Refusal :=
  ok s (s.dev.alu (.maxS c rd ra rb) c rd fun x => let a := x.gpr ra; let b := x.gpr rb; if a.slt b then b else a)

/-- MINU (R145). -/
def execMinu (c : Fin 128) (rd ra rb : Fin 32) (s : State) : Host.Outcome State Fault Refusal :=
  ok s (s.dev.alu (.minu c rd ra rb) c rd fun x => let a := x.gpr ra; let b := x.gpr rb; if a.ult b then a else b)

/-- MAXU (R145). -/
def execMaxu (c : Fin 128) (rd ra rb : Fin 32) (s : State) : Host.Outcome State Fault Refusal :=
  ok s (s.dev.alu (.maxu c rd ra rb) c rd fun x => let a := x.gpr ra; let b := x.gpr rb; if a.ult b then b else a)

/-- MUL (R145). -/
def execMulR (c : Fin 128) (rd ra rb : Fin 32) (s : State) : Host.Outcome State Fault Refusal :=
  ok s (s.dev.alu (.mulR c rd ra rb) c rd fun x => let a := x.gpr ra; let b := x.gpr rb; a * b)

/-- MULHU (R145). -/
def execMulhu (c : Fin 128) (rd ra rb : Fin 32) (s : State) : Host.Outcome State Fault Refusal :=
  ok s (s.dev.alu (.mulhu c rd ra rb) c rd fun x => let a := x.gpr ra; let b := x.gpr rb; mulHigh a b)

/-- DIVU (R145). -/
def execDivu (c : Fin 128) (rd ra rb : Fin 32) (s : State) : Host.Outcome State Fault Refusal :=
  ok s (s.dev.alu (.divu c rd ra rb) c rd fun x => let a := x.gpr ra; let b := x.gpr rb; divU a b)

/-- REMU (R145). -/
def execRemu (c : Fin 128) (rd ra rb : Fin 32) (s : State) : Host.Outcome State Fault Refusal :=
  ok s (s.dev.alu (.remu c rd ra rb) c rd fun x => let a := x.gpr ra; let b := x.gpr rb; remU a b)

/-! ## I format (R146) -/

/-- ADDI (R146). -/
def execAddi (c : Fin 128) (rd ra : Fin 32) (imm : BitVec 16) (s : State) : Host.Outcome State Fault Refusal :=
  ok s (s.dev.alu (.addi c rd ra imm) c rd fun x => x.gpr ra + sext imm)

/-- ANDI (R146). -/
def execAndi (c : Fin 128) (rd ra : Fin 32) (imm : BitVec 16) (s : State) : Host.Outcome State Fault Refusal :=
  ok s (s.dev.alu (.andi c rd ra imm) c rd fun x => x.gpr ra &&& zext imm)

/-- ORI (R146). -/
def execOri (c : Fin 128) (rd ra : Fin 32) (imm : BitVec 16) (s : State) : Host.Outcome State Fault Refusal :=
  ok s (s.dev.alu (.ori c rd ra imm) c rd fun x => x.gpr ra ||| zext imm)

/-- XORI (R146). -/
def execXori (c : Fin 128) (rd ra : Fin 32) (imm : BitVec 16) (s : State) : Host.Outcome State Fault Refusal :=
  ok s (s.dev.alu (.xori c rd ra imm) c rd fun x => x.gpr ra ^^^ zext imm)

/-- SHI (R146): bits 15:8 are 0 and bits 7:6 name a kind. -/
def execShi (c : Fin 128) (rd ra : Fin 32) (imm : BitVec 16) (s : State) : Host.Outcome State Fault Refusal :=
  let v := imm.toNat
  ok s (s.dev.aluChecked (.shi c rd ra imm) c rd (256 ≤ v || bits v 6 2 == 3) fun x => (shiftBy (bits v 6 2) (x.gpr ra) (v % 64)).getD 0)

/-- SLTI (R146). -/
def execSlti (c : Fin 128) (rd ra : Fin 32) (imm : BitVec 16) (s : State) : Host.Outcome State Fault Refusal :=
  ok s (s.dev.alu (.slti c rd ra imm) c rd fun x => bit64 ((x.gpr ra).slt (sext imm)))

/-- SLTUI (R146). -/
def execSltui (c : Fin 128) (rd ra : Fin 32) (imm : BitVec 16) (s : State) : Host.Outcome State Fault Refusal :=
  ok s (s.dev.alu (.sltui c rd ra imm) c rd fun x => bit64 ((x.gpr ra).ult (sext imm)))

/-! ## X format (R142, R146) -/

/-- What LI and LIH check: the unused bits, then that the extension word lies in the segment (R150). -/
def Thread.extTraps (x : Thread) (z : BitVec 21) : List (Bool × Nat) := [(z != 0, cIllegal), (x.beyond 8, cBounds)]

/-- LI (R146). -/
def execLi (c : Fin 128) (rd : Fin 32) (z : BitVec 21) (ext : BitVec 32) (s : State) : Host.Outcome State Fault Refusal :=
  ok s (s.dev.svetu (.li c rd z ext) c fun t x => s.dev.orTrap t (x.extTraps z) (s.dev.putThread t ((x.setG rd (sext ext)).next 8)))

/-- LIH (R146). -/
def execLih (c : Fin 128) (rd : Fin 32) (z : BitVec 21) (ext : BitVec 32) (s : State) : Host.Outcome State Fault Refusal :=
  ok s (s.dev.svetu (.lih c rd z ext) c fun t x => s.dev.orTrap t (x.extTraps z) (s.dev.putThread t ((x.setG rd (ext ++ (x.gpr rd).setWidth 32)).next 8)))

end Sys2Proof.Machine
end

