-- ==== Sys2Proof/Machine/SvetuMem.lean ====
section
/-! DEFINITION. The memory instructions: LD, LDU, ST, AMO, MFENCE and WIN (R128 to R141, R146). -/

namespace Sys2Proof.Machine

/-! ## The three spaces (Table 4.2) -/

/-- The size of the local memory that a thread addresses: its segment, or the core's whole memory. -/
def Thread.localSize (x : Thread) : Nat := if x.firmware then 0x40000 else 0x10000

/-- The bytes from `a` up lie in the local memory that the thread addresses (R130). -/
def Thread.inLocal (x : Thread) (a n : Nat) : Bool := decide (a + n ≤ x.localSize)

/-- A word of the range in the table of local memories holds a double-bit error (R136). -/
def Dev.localBad (d : Dev) (k n : Nat) : Bool := d.locErr.any fun w => k / 8 ≤ w && w ≤ (k + n - 1) / 8

/-- Bytes of the thread's local memory. -/
def Dev.localRead (d : Dev) (x : Thread) (a n : Nat) : List Byte := readBytes d.loc (x.segBase + a) n

/-- Bytes are stored in the thread's local memory; a store of a whole word removes its error (R136). -/
def Dev.localWrite (d : Dev) (x : Thread) (a : Nat) (bs : List Byte) : Dev :=
  { d with loc := writeBytes d.loc (x.segBase + a) bs,
           locErr := if bs.length = 8 then d.locErr.filter (· != (x.segBase + a) / 8) else d.locErr }

/-- A thread may access device memory (R130, R131): below the installed capacity, and in program mode where its function's windows permit it. -/
def Dev.deviceOk (d : Dev) (x : Thread) (a n : Nat) (r w : Bool) : Bool :=
  decide (a + n ≤ d.capacity) && (x.firmware || (decide (a < 2 ^ 48) && d.granted x.fn a n r w))

/-- What LD, LDU and ST check before they access a space, in the order of R150. ECC is met by a load, and by a store that is not of a whole word. -/
def Dev.accessTraps (d : Dev) (x : Thread) (space : BitVec 2) (a n : Nat) (store : Bool) : List (Bool × Nat) :=
  [ (space == 3 || (space == 2 && x.firmware && n != 4), cIllegal),
    (space == 2 && !x.firmware, cPriv),
    (a % n != 0, cAlign),
    ((space == 0 && !x.inLocal a n) || (space == 1 && !d.deviceOk x a n (!store) store) || (space == 2 && decide (0x4000000 < a + n)), cBounds),
    (space == 0 && !(store && n == 8) && d.localBad (x.segBase + a) n, cEcc) ]

/-! ## Loads and stores -/

/-- A thread is held on its core until its data returns (R147); the access is made now. -/
def Thread.await (x : Thread) (rd : Nat) (v : DWord) (cas : Option Bool) : Thread :=
  { x.next 4 with st := .held, hold := .data rd v cas }

/-- The access of LD and LDU. -/
def Dev.doLoad (d : Dev) (t : Nat) (x : Thread) (rd n : Nat) (space : BitVec 2) (a : Nat) (signed : Bool) : Dev :=
  if space = 0 then d.putThread t ((x.setG rd (extendTo n (leNat (d.localRead x a n)) signed)).next 4)
  else if space = 1 then d.putThread t (x.await rd (extendTo n (leNat (d.memRead a n)) signed) none)
  else (d.readReg a).2.modThread t fun y => (y.setG rd (extendTo 4 (d.readReg a).1 signed)).next 4

/-- LD and LDU. -/
def Dev.load (d : Dev) (i : Instr) (c : Fin 128) (rd ra : Nat) (size space : BitVec 2) (off : BitVec 12) (signed : Bool) : Dev :=
  d.svetu i c fun t x =>
    let a := x.effAddr ra off
    let n := sizeBytes size
    d.orTrap t (d.accessTraps x space a n false) (d.doLoad t x rd n space a signed)

/-- The access of ST. -/
def Dev.doStore (d : Dev) (t : Nat) (x : Thread) (rd n : Nat) (space : BitVec 2) (a : Nat) : Dev :=
  let v := (x.gpr rd).toNat
  let d1 := d.putThread t (x.next 4)
  if space = 0 then d1.localWrite x a (toLE n v)
  else if space = 1 then d1.memWrite a (toLE n v)
  else d1.writeReg .firmware a (BitVec.ofNat 32 v)

/-- ST. -/
def Dev.store (d : Dev) (i : Instr) (c : Fin 128) (rd ra : Nat) (size space : BitVec 2) (off : BitVec 12) : Dev :=
  d.svetu i c fun t x =>
    let a := x.effAddr ra off
    let n := sizeBytes size
    d.orTrap t (d.accessTraps x space a n true) (d.doStore t x rd n space a)

/-! ## AMO (R140) -/

/-- What kinds 0 to 4 store: swap, add, and, or, unsigned maximum. -/
def amoValue (kind : BitVec 3) (old b : Nat) : Nat :=
  match kind.toNat with
  | 0 => b
  | 1 => old + b
  | 2 => old &&& b
  | 3 => old ||| b
  | _ => max old b

/-- AMO's access: `n` bytes at the device address, `rd` then awaits the old value. DESIGN CHOICE (log entry 51): a 32-bit compare-and-swap compares the old word with the
low 32 bits of `rd`. -/
def Dev.doAmo (d : Dev) (t : Nat) (x : Thread) (rd rb n : Nat) (kind : BitVec 3) (a : Nat) : Dev :=
  let old := leNat (d.memRead a n)
  let b := (x.gpr rb).toNat % 256 ^ n
  if kind = 5 then
    let hit := old == (x.gpr rd).toNat % 256 ^ n
    (if hit then d.memWrite a (toLE n b) else d).putThread t (x.await rd (BitVec.ofNat 64 old) (some hit))
  else (d.memWrite a (toLE n (amoValue kind old b))).putThread t (x.await rd (BitVec.ofNat 64 old) none)

/-- AMO. -/
def Dev.amo (d : Dev) (i : Instr) (c : Fin 128) (rd ra rb : Nat) (kind : BitVec 3) (wide : Bool) (z : BitVec 7) : Dev :=
  d.svetu i c fun t x =>
    let a := (x.gpr ra).toNat
    let n := if wide then 8 else 4
    d.orTrap t [(z != 0 || 6 ≤ kind.toNat, cIllegal), (a % n != 0, cAlign), (!d.deviceOk x a n true true, cBounds)] (d.doAmo t x rd rb n kind a)

/-! ## MFENCE (R139) -/

/-- MFENCE: accesses of this model are complete when they are made, so only descriptors hold the thread, which leaves its core. -/
def Dev.mfence (d : Dev) (i : Instr) (c : Fin 128) (z : BitVec 18) (imm : BitVec 8) : Dev :=
  d.svetu i c fun t x =>
    d.orTrap t [(z != 0 || 2 ≤ imm.toNat, cIllegal)]
      (if imm.getLsbD 0 && x.issued != 0 then d.putThread t { x.next 4 with st := .held, hold := .fence true, core := none }
       else d.putThread t (x.next 4))

/-! ## WIN (R133) -/

/-- The record is refused. -/
def winBad (b : List Byte) : Bool :=
  let base := fieldLE b 8 8
  let len := fieldLE b 0x10 8
  63 < byteAt b 0 || 7 < byteAt b 1 || base % 4096 != 0 || len % 4096 != 0 || 2 ^ 48 < base + len || 4 ≤ byteAt b 2 ||
    !zeroBytes b 3 5 || !zeroBytes b 0x18 8

/-- The window that a record sets; a length of 0 disables it. -/
def winOf (b : List Byte) : Window :=
  if fieldLE b 0x10 8 = 0 then {}
  else { base := fieldLE b 8 8, len := fieldLE b 0x10 8, r := bitN (byteAt b 2) 0, w := bitN (byteAt b 2) 1 }

/-- WIN on a record of 32 bytes. -/
def Dev.doWin (d : Dev) (t : Nat) (x : Thread) (rd : Nat) (b : List Byte) : Dev :=
  if winBad b then d.putThread t ((x.setG rd 4).next 4)
  else (d.putWindow (byteAt b 0 * 8 + byteAt b 1) (winOf b)).putThread t ((x.setG rd 0).next 4)

/-- WIN. -/
def Dev.setWin (d : Dev) (i : Instr) (c : Fin 128) (rd ra : Nat) (z : BitVec 16) : Dev :=
  d.svetu i c fun t x =>
    let a := (x.gpr ra).toNat
    d.orTrap t [(z != 0, cIllegal), (!x.firmware && x.fn != 0, cPriv), (!x.inLocal a 32, cBounds), (d.localBad (x.segBase + a) 32, cEcc)]
      (d.doWin t x rd (d.localRead x a 32))

/-! ## Meanings -/

/-- LD (R146). -/
def execLd (c : Fin 128) (rd ra : Fin 32) (size space : BitVec 2) (off : BitVec 12) (s : State) : Host.Outcome State Fault Refusal :=
  ok s (s.dev.load (.ld c rd ra size space off) c rd ra size space off true)

/-- LDU (R146). -/
def execLdu (c : Fin 128) (rd ra : Fin 32) (size space : BitVec 2) (off : BitVec 12) (s : State) : Host.Outcome State Fault Refusal :=
  ok s (s.dev.load (.ldu c rd ra size space off) c rd ra size space off false)

/-- ST (R146). -/
def execSt (c : Fin 128) (rd ra : Fin 32) (size space : BitVec 2) (off : BitVec 12) (s : State) : Host.Outcome State Fault Refusal :=
  ok s (s.dev.store (.st c rd ra size space off) c rd ra size space off)

/-- AMO (R140, R146). -/
def execAmo (c : Fin 128) (rd ra rb : Fin 32) (kind : BitVec 3) (wide : Bool) (z : BitVec 7) (s : State) : Host.Outcome State Fault Refusal :=
  ok s (s.dev.amo (.amo c rd ra rb kind wide z) c rd ra rb kind wide z)

/-- MFENCE (R139). -/
def execMfence (c : Fin 128) (z : BitVec 18) (imm : BitVec 8) (s : State) : Host.Outcome State Fault Refusal := ok s (s.dev.mfence (.mfence c z imm) c z imm)

/-- WIN (R133). -/
def execWin (c : Fin 128) (rd ra : Fin 32) (z : BitVec 16) (s : State) : Host.Outcome State Fault Refusal := ok s (s.dev.setWin (.win c rd ra z) c rd ra z)

end Sys2Proof.Machine
end

