-- ==== Sys2Proof/Machine/SvetuCtl.lean ====
section
/-! DEFINITION. Branches, ISSUE, WAIT, POST and the instructions on a thread itself (R146 to R155). -/

namespace Sys2Proof.Machine

/-! ## Branches and jumps -/

/-- The thread goes to a target whose bits 1:0 are 0 (Table 4.6). -/
def Dev.goto (d : Dev) (t : Nat) (x : Thread) (target : DWord) : Dev :=
  d.orTrap t [(target.toNat % 4 != 0, cAlign)] (d.putThread t { x with pc := target })

/-- A conditional branch. -/
def Dev.branch (d : Dev) (i : Instr) (c : Fin 128) (ra rb : Nat) (off : BitVec 16) (taken : DWord → DWord → Bool) : Dev :=
  d.svetu i c fun t x => if taken (x.gpr ra) (x.gpr rb) then d.goto t x (x.branchTarget off) else d.putThread t (x.next 4)

/-- The link address. -/
def Thread.link (x : Thread) (rd : Nat) : Thread := x.setG rd (x.pc + 4)

/-- JAL. -/
def Dev.jal (d : Dev) (i : Instr) (c : Fin 128) (rd : Nat) (z : BitVec 5) (imm : BitVec 16) : Dev :=
  d.svetu i c fun t x => d.orTrap t [(z != 0, cIllegal)] (d.goto t (x.link rd) (x.branchTarget imm))

/-- JALR. -/
def Dev.jalr (d : Dev) (i : Instr) (c : Fin 128) (rd ra : Nat) (imm : BitVec 16) : Dev :=
  d.svetu i c fun t x =>
    let target := x.gpr ra + sext imm
    d.orTrap t [(target.toNat % 4 != 0, cAlign)] (d.putThread t { x.link rd with pc := target })

/-! ## ISSUE (R154, R155) -/

/-- The length that the descriptor at a local address names. -/
def Dev.descLen (d : Dev) (x : Thread) (a : Nat) : Nat := leNat (d.localRead x (a + 2) 2)

/-- The descriptor that the thread issues from a local address. -/
def Dev.descAt (d : Dev) (t : Nat) (x : Thread) (a : Nat) : Desc :=
  { fn := x.fn, fw := x.firmware, tid := t, inc := x.inc, bytes := d.localRead x a (d.descLen x a) }

/-- The status word may be written (step 4 of R154, R131). -/
def Dev.statusOk (d : Dev) (x : Thread) (y : Desc) : Bool := y.statusAddr == 0 || d.deviceOk x y.statusAddr 16 false true

/-- The notify thread is none, or a thread of the issuing function (step 5 of R154). -/
def Dev.notifyOk (d : Dev) (x : Thread) (y : Desc) : Bool :=
  y.notify == 0xFFFF || ((d.thread y.notify).live && (d.thread y.notify).fn == x.fn)

/-- The checks of ISSUE, in their order. -/
def Dev.issueTraps (d : Dev) (t : Nat) (x : Thread) (a : Nat) : List (Bool × Nat) :=
  let n := d.descLen x a
  let y := d.descAt t x a
  [ (a % 32 != 0, cAlign),
    (!x.inLocal a 4 || n % 32 != 0 || n < 32 || 4096 < n || !x.inLocal a n, cBounds),
    (y.statusAddr % 16 != 0, cAlign),
    (!d.statusOk x y, cBounds),
    (!d.notifyOk x y, cOwner),
    (d.localBad (x.segBase + a) n, cEcc) ]

/-- A checked descriptor goes to its unit's queue; a full queue holds the thread, or answers 1 with NOWAIT. Either way, but for NOWAIT's, the descriptor names its
notify thread from now (R153). -/
def Dev.doIssue (d : Dev) (t : Nat) (x : Thread) (rd : Nat) (y : Desc) (nowait : Bool) : Dev :=
  if d.issueFull y then
    if nowait then d.putThread t ((x.setG rd 1).next 4)
    else (d.putThread t { x.next 4 with st := .held, hold := .issue rd y, core := none }).nameNotify y
  else ((d.putThread t ((x.setG rd 0).next 4)).nameNotify y).acceptIssue y

/-- ISSUE. -/
def Dev.issue (d : Dev) (i : Instr) (c : Fin 128) (rd ra : Nat) (z : BitVec 8) (imm : BitVec 8) : Dev :=
  d.svetu i c fun t x =>
    let a := (x.gpr ra).toNat
    d.orTrap t ((z != 0 || 2 ≤ imm.toNat, cIllegal) :: d.issueTraps t x a) (d.doIssue t x rd (d.descAt t x a) (imm.getLsbD 0))

/-! ## WAIT and POST (R148, R149) -/

/-- What WAIT sets before it looks at the flags. -/
def Thread.waitFor (x : Thread) (rd : Nat) (mask : Word) (all : Bool) : Thread := { x.next 4 with mask := mask, waitAll := all, waitRd := rd }

/-- A satisfied wait takes its flags. -/
def Thread.takeFlags (x : Thread) : Thread := ({ x with flags := x.flags &&& ~~~x.mask }.setWt false).setG x.waitRd ((x.flags &&& x.mask).setWidth 64)

/-- A wait that is not satisfied leaves the core, with its limit on the counter in ns (R148, R462). -/
def Thread.sleep (x : Thread) (now ns : Nat) : Thread :=
  { x with st := .waiting, core := none, deadline := if ns = 0 then none else some (now + ns) }

/-- WAIT. -/
def Dev.waitInstr (d : Dev) (i : Instr) (c : Fin 128) (rd ra rb : Nat) (sub : BitVec 3) (z : BitVec 8) : Dev :=
  d.svetu i c fun t x =>
    let mask : Word := (x.gpr ra).setWidth 32
    let ns := (x.gpr rb).toNat % 2 ^ 32
    let y := x.waitFor rd mask (sub == 1)
    d.orTrap t [(z != 0 || 1 < sub.toNat || (mask == 0 && sub == 0 && ns == 0), cIllegal)]
      (d.putThread t (if y.satisfied then y.takeFlags else y.sleep d.nowNs ns))

/-- POST to a thread that exists: into its core's queue, or the poster is held (R177, R178). -/
def Dev.doPost (d : Dev) (t : Nat) (x : Thread) (rd target : Nat) (mask : Word) : Dev :=
  let y := (x.setG rd 0).next 4
  if d.postRoom target then (d.putThread t y).enqueuePost target mask
  else (d.putThread t { y with st := .held, hold := .post, core := none }).holdPost (.thread t) target mask

/-- POST. -/
def Dev.postInstr (d : Dev) (i : Instr) (c : Fin 128) (rd ra rb : Nat) (z : BitVec 11) : Dev :=
  d.svetu i c fun t x =>
    let u := (x.gpr ra).toNat % 4096
    let exists_ := (d.thread u).live
    d.orTrap t [(z != 0, cIllegal), (!x.firmware && exists_ && (d.thread u).fn != x.fn, cOwner)]
      (if exists_ then d.doPost t x rd u ((x.gpr rb).setWidth 32) else d.putThread t ((x.setG rd 1).next 4))

/-! ## The thread itself -/

/-- The special register of a selector (Table 4.5). -/
def Thread.special (x : Thread) (t : Nat) : Nat → DWord
  | 0 => x.pc
  | 1 => BitVec.ofNat 64 t
  | 2 => BitVec.ofNat 64 x.fn
  | 3 => bit64 x.firmware
  | _ => x.flagsReg

/-! ## Meanings -/

/-- BEQ (R146). -/
def execBeq (c : Fin 128) (ra rb : Fin 32) (off : BitVec 16) (s : State) : Host.Outcome State Fault Refusal :=
  ok s (s.dev.branch (.beq c ra rb off) c ra rb off fun a b => a == b)

/-- BNE (R146). -/
def execBne (c : Fin 128) (ra rb : Fin 32) (off : BitVec 16) (s : State) : Host.Outcome State Fault Refusal :=
  ok s (s.dev.branch (.bne c ra rb off) c ra rb off fun a b => a != b)

/-- BLT (R146). -/
def execBlt (c : Fin 128) (ra rb : Fin 32) (off : BitVec 16) (s : State) : Host.Outcome State Fault Refusal :=
  ok s (s.dev.branch (.blt c ra rb off) c ra rb off fun a b => a.slt b)

/-- BGE (R146). -/
def execBge (c : Fin 128) (ra rb : Fin 32) (off : BitVec 16) (s : State) : Host.Outcome State Fault Refusal :=
  ok s (s.dev.branch (.bge c ra rb off) c ra rb off fun a b => !a.slt b)

/-- BLTU (R146). -/
def execBltu (c : Fin 128) (ra rb : Fin 32) (off : BitVec 16) (s : State) : Host.Outcome State Fault Refusal :=
  ok s (s.dev.branch (.bltu c ra rb off) c ra rb off fun a b => a.ult b)

/-- BGEU (R146). -/
def execBgeu (c : Fin 128) (ra rb : Fin 32) (off : BitVec 16) (s : State) : Host.Outcome State Fault Refusal :=
  ok s (s.dev.branch (.bgeu c ra rb off) c ra rb off fun a b => !a.ult b)

/-- JAL (R146). -/
def execJal (c : Fin 128) (rd : Fin 32) (z : BitVec 5) (imm : BitVec 16) (s : State) : Host.Outcome State Fault Refusal := ok s (s.dev.jal (.jal c rd z imm) c rd z imm)

/-- JALR (R146). -/
def execJalr (c : Fin 128) (rd ra : Fin 32) (imm : BitVec 16) (s : State) : Host.Outcome State Fault Refusal := ok s (s.dev.jalr (.jalr c rd ra imm) c rd ra imm)

/-- ISSUE (R154, R155). -/
def execIssue (c : Fin 128) (rd ra : Fin 32) (z : BitVec 8) (imm : BitVec 8) (s : State) : Host.Outcome State Fault Refusal :=
  ok s (s.dev.issue (.issue c rd ra z imm) c rd ra z imm)

/-- WAIT (R148). -/
def execWait (c : Fin 128) (rd ra rb : Fin 32) (sub : BitVec 3) (z : BitVec 8) (s : State) : Host.Outcome State Fault Refusal :=
  ok s (s.dev.waitInstr (.wait c rd ra rb sub z) c rd ra rb sub z)

/-- POST (R149). -/
def execPost (c : Fin 128) (rd ra rb : Fin 32) (z : BitVec 11) (s : State) : Host.Outcome State Fault Refusal := ok s (s.dev.postInstr (.post c rd ra rb z) c rd ra rb z)

/-- YIELD (R146, R182). -/
def execYieldCore (c : Fin 128) (z : BitVec 26) (s : State) : Host.Outcome State Fault Refusal :=
  ok s (s.dev.svetu (.yieldCore c z) c fun t x => s.dev.orTrap t [(z != 0, cIllegal)] ((s.dev.putThread t (x.next 4)).toTail t))

/-- END (R101, R146). -/
def execEndThread (c : Fin 128) (z : BitVec 26) (s : State) : Host.Outcome State Fault Refusal :=
  ok s (s.dev.svetu (.endThread c z) c fun t x => s.dev.orTrap t [(z != 0, cIllegal)] (s.dev.endThread t stOK (x.gpr 1).toNat))

/-- TIME (R146, R453). -/
def execTimeRd (c : Fin 128) (rd : Fin 32) (z : BitVec 21) (s : State) : Host.Outcome State Fault Refusal :=
  ok s (s.dev.aluChecked (.timeRd c rd z) c rd (z != 0) fun _ => BitVec.ofNat 64 s.dev.media)

/-- MFS (R146). -/
def execMfs (c : Fin 128) (rd : Fin 32) (z : BitVec 13) (sel : BitVec 8) (s : State) : Host.Outcome State Fault Refusal :=
  ok s (s.dev.svetu (.mfs c rd z sel) c fun t x => s.dev.orTrap t [(z != 0 || 4 < sel.toNat, cIllegal)] (s.dev.putThread t ((x.setG rd (x.special t sel.toNat)).next 4)))

/-- MTS (R146). -/
def execMts (c : Fin 128) (ra : Fin 32) (z : BitVec 13) (sel : BitVec 8) (s : State) : Host.Outcome State Fault Refusal :=
  ok s (s.dev.svetu (.mts c ra z sel) c fun t x => s.dev.orTrap t [(z != 0 || sel != 4, cIllegal)] (s.dev.putThread t ((x.setFlagsReg (x.gpr ra)).next 4)))

/-- TRAP (R146, R151, R152). -/
def execTrap (c : Fin 128) (z : BitVec 18) (imm : BitVec 8) (s : State) : Host.Outcome State Fault Refusal :=
  ok s (s.dev.svetu (.trap c z imm) c fun t _ => s.dev.orTrap t [(z != 0, cIllegal)] (s.dev.trap t cSwtrap imm.toNat))

end Sys2Proof.Machine
end

