-- ==== Sys2Proof/Machine/Dispatch.lean ====
section
/-! DEFINITION. What each command does: one arm for each constructor of Instr, each a direct call of its meaning. -/

namespace Sys2Proof.Machine

def exec (i : Instr) (s : State) : Host.Outcome State Fault Refusal :=
  match i with
  | .addR c rd ra rb => Sys2Proof.Machine.execAddR c rd ra rb s
  | .subR c rd ra rb => Sys2Proof.Machine.execSubR c rd ra rb s
  | .andR c rd ra rb => Sys2Proof.Machine.execAndR c rd ra rb s
  | .orR c rd ra rb => Sys2Proof.Machine.execOrR c rd ra rb s
  | .xorR c rd ra rb => Sys2Proof.Machine.execXorR c rd ra rb s
  | .sll c rd ra rb => Sys2Proof.Machine.execSll c rd ra rb s
  | .srl c rd ra rb => Sys2Proof.Machine.execSrl c rd ra rb s
  | .sra c rd ra rb => Sys2Proof.Machine.execSra c rd ra rb s
  | .slt c rd ra rb => Sys2Proof.Machine.execSlt c rd ra rb s
  | .sltu c rd ra rb => Sys2Proof.Machine.execSltu c rd ra rb s
  | .minS c rd ra rb => Sys2Proof.Machine.execMinS c rd ra rb s
  | .maxS c rd ra rb => Sys2Proof.Machine.execMaxS c rd ra rb s
  | .minu c rd ra rb => Sys2Proof.Machine.execMinu c rd ra rb s
  | .maxu c rd ra rb => Sys2Proof.Machine.execMaxu c rd ra rb s
  | .mulR c rd ra rb => Sys2Proof.Machine.execMulR c rd ra rb s
  | .mulhu c rd ra rb => Sys2Proof.Machine.execMulhu c rd ra rb s
  | .divu c rd ra rb => Sys2Proof.Machine.execDivu c rd ra rb s
  | .remu c rd ra rb => Sys2Proof.Machine.execRemu c rd ra rb s
  | .addi c rd ra imm => Sys2Proof.Machine.execAddi c rd ra imm s
  | .andi c rd ra imm => Sys2Proof.Machine.execAndi c rd ra imm s
  | .ori c rd ra imm => Sys2Proof.Machine.execOri c rd ra imm s
  | .xori c rd ra imm => Sys2Proof.Machine.execXori c rd ra imm s
  | .shi c rd ra imm => Sys2Proof.Machine.execShi c rd ra imm s
  | .slti c rd ra imm => Sys2Proof.Machine.execSlti c rd ra imm s
  | .sltui c rd ra imm => Sys2Proof.Machine.execSltui c rd ra imm s
  | .ld c rd ra size space off => Sys2Proof.Machine.execLd c rd ra size space off s
  | .ldu c rd ra size space off => Sys2Proof.Machine.execLdu c rd ra size space off s
  | .st c rd ra size space off => Sys2Proof.Machine.execSt c rd ra size space off s
  | .amo c rd ra rb kind wide z => Sys2Proof.Machine.execAmo c rd ra rb kind wide z s
  | .beq c ra rb off => Sys2Proof.Machine.execBeq c ra rb off s
  | .bne c ra rb off => Sys2Proof.Machine.execBne c ra rb off s
  | .blt c ra rb off => Sys2Proof.Machine.execBlt c ra rb off s
  | .bge c ra rb off => Sys2Proof.Machine.execBge c ra rb off s
  | .bltu c ra rb off => Sys2Proof.Machine.execBltu c ra rb off s
  | .bgeu c ra rb off => Sys2Proof.Machine.execBgeu c ra rb off s
  | .jal c rd z imm => Sys2Proof.Machine.execJal c rd z imm s
  | .jalr c rd ra imm => Sys2Proof.Machine.execJalr c rd ra imm s
  | .issue c rd ra z imm => Sys2Proof.Machine.execIssue c rd ra z imm s
  | .wait c rd ra rb sub z => Sys2Proof.Machine.execWait c rd ra rb sub z s
  | .post c rd ra rb z => Sys2Proof.Machine.execPost c rd ra rb z s
  | .yieldCore c z => Sys2Proof.Machine.execYieldCore c z s
  | .endThread c z => Sys2Proof.Machine.execEndThread c z s
  | .timeRd c rd z => Sys2Proof.Machine.execTimeRd c rd z s
  | .mfs c rd z sel => Sys2Proof.Machine.execMfs c rd z sel s
  | .mts c ra z sel => Sys2Proof.Machine.execMts c ra z sel s
  | .mfence c z imm => Sys2Proof.Machine.execMfence c z imm s
  | .win c rd ra z => Sys2Proof.Machine.execWin c rd ra z s
  | .trap c z imm => Sys2Proof.Machine.execTrap c z imm s
  | .li c rd z ext => Sys2Proof.Machine.execLi c rd z ext s
  | .lih c rd z ext => Sys2Proof.Machine.execLih c rd z ext s
  | .deviceLoadDataReturn t => Sys2Proof.Machine.execDeviceLoadDataReturn t s
  | .mfenceComplete t => Sys2Proof.Machine.execMfenceComplete t s
  | .issueQueueSpace t => Sys2Proof.Machine.execIssueQueueSpace t s
  | .waitTimeout t => Sys2Proof.Machine.execWaitTimeout t s
  | .mergePathFold t => Sys2Proof.Machine.execMergePathFold t s
  | .postQueueFold c => Sys2Proof.Machine.execPostQueueFold c s
  | .postQueueEntryFree c => Sys2Proof.Machine.execPostQueueEntryFree c s
  | .coreDispatch c => Sys2Proof.Machine.execCoreDispatch c s
  | .timeSliceExpiry c => Sys2Proof.Machine.execTimeSliceExpiry c s
  | .dispatchStall => Sys2Proof.Machine.execDispatchStall s
  | .ringSqTailWrite who fn v => Sys2Proof.Machine.execRingSqTailWrite who fn v s
  | .sqEntryFetch fn entry => Sys2Proof.Machine.execSqEntryFetch fn entry s
  | .programStart fn image => Sys2Proof.Machine.execProgramStart fn image s
  | .programImageReadFail fn f => Sys2Proof.Machine.execProgramImageReadFail fn f s
  | .ringCqHeadWrite who fn v => Sys2Proof.Machine.execRingCqHeadWrite who fn v s
  | .vector2CoalesceExpiry fn => Sys2Proof.Machine.execVector2CoalesceExpiry fn s
  | .ringEnableSet who fn => Sys2Proof.Machine.execRingEnableSet who fn s
  | .ringEnableClear who fn => Sys2Proof.Machine.execRingEnableClear who fn s
  | .hubResyncReqWrite who => Sys2Proof.Machine.execHubResyncReqWrite who s
  | .summaryBlockWrite ok => Sys2Proof.Machine.execSummaryBlockWrite ok s
  | .hubOwnFnWrite who v => Sys2Proof.Machine.execHubOwnFnWrite who v s
  | .vfDisable enable numVfs => Sys2Proof.Machine.execVfDisable enable numVfs s
  | .d3hotEntry fn => Sys2Proof.Machine.execD3hotEntry fn s
  | .registerWrite who sp off v be => Sys2Proof.Machine.execRegisterWrite who sp off v be s
  | .hostBar4Access write addr data en => Sys2Proof.Machine.execHostBar4Access write addr data en s
  | .coreWindowRead c off => Sys2Proof.Machine.execCoreWindowRead c off s
  | .fabricAdmit => Sys2Proof.Machine.execFabricAdmit s
  | .fabricRelease => Sys2Proof.Machine.execFabricRelease s
  | .fabricQuery => Sys2Proof.Machine.execFabricQuery s
  | .cadenceWindow counts => Sys2Proof.Machine.execCadenceWindow counts s
  | .cadenceControlCycle temps avs => Sys2Proof.Machine.execCadenceControlCycle temps avs s
  | .shedRestore ch => Sys2Proof.Machine.execShedRestore ch s
  | .captureConfigure => Sys2Proof.Machine.execCaptureConfigure s
  | .captureStart => Sys2Proof.Machine.execCaptureStart s
  | .captureStop => Sys2Proof.Machine.execCaptureStop s
  | .captureSubst => Sys2Proof.Machine.execCaptureSubst s
  | .st2110PacketRx inp pathB pkt => Sys2Proof.Machine.execSt2110PacketRx inp pathB pkt s
  | .sdiLineRx inp ln => Sys2Proof.Machine.execSdiLineRx inp ln s
  | .pathDownTimeout inp pathB => Sys2Proof.Machine.execPathDownTimeout inp pathB s
  | .ancPacketRx inp pkt => Sys2Proof.Machine.execAncPacketRx inp pkt s
  | .audioPacketRx pkt => Sys2Proof.Machine.execAudioPacketRx pkt s
  | .lineDue inp => Sys2Proof.Machine.execLineDue inp s
  | .captureOutputTick inp => Sys2Proof.Machine.execCaptureOutputTick inp s
  | .mfSceneConfigure => Sys2Proof.Machine.execMfSceneConfigure s
  | .mfSceneStart => Sys2Proof.Machine.execMfSceneStart s
  | .mfSceneStop => Sys2Proof.Machine.execMfSceneStop s
  | .mfLayerCommit => Sys2Proof.Machine.execMfLayerCommit s
  | .mfOutputCommit => Sys2Proof.Machine.execMfOutputCommit s
  | .sceneTick cl sc => Sys2Proof.Machine.execSceneTick cl sc s
  | .sceneRowComplete cl sc => Sys2Proof.Machine.execSceneRowComplete cl sc s
  | .outputRowUnderrun cl sc o row => Sys2Proof.Machine.execOutputRowUnderrun cl sc o row s
  | .blitFill => Sys2Proof.Machine.execBlitFill s
  | .blitCopy => Sys2Proof.Machine.execBlitCopy s
  | .blitConvert => Sys2Proof.Machine.execBlitConvert s
  | .blitChunk e => Sys2Proof.Machine.execBlitChunk e s
  | .burstGapExpiry e => Sys2Proof.Machine.execBurstGapExpiry e s
  | .encLoad => Sys2Proof.Machine.execEncLoad s
  | .encStart => Sys2Proof.Machine.execEncStart s
  | .encStop => Sys2Proof.Machine.execEncStop s
  | .encKeypic => Sys2Proof.Machine.execEncKeypic s
  | .encRate => Sys2Proof.Machine.execEncRate s
  | .encStats => Sys2Proof.Machine.execEncStats s
  | .encPark => Sys2Proof.Machine.execEncPark s
  | .unparkComplete p => Sys2Proof.Machine.execUnparkComplete p s
  | .ctuRowBoundary p cost => Sys2Proof.Machine.execCtuRowBoundary p cost s
  | .pictureDeadline ch j => Sys2Proof.Machine.execPictureDeadline ch j s
  | .epEcc e => Sys2Proof.Machine.execEpEcc e s
  | .epMemoryTestDone p pass => Sys2Proof.Machine.execEpMemoryTestDone p pass s
  | .decConfigure => Sys2Proof.Machine.execDecConfigure s
  | .decStart => Sys2Proof.Machine.execDecStart s
  | .decStop => Sys2Proof.Machine.execDecStop s
  | .decPacketRx st pathB pkt => Sys2Proof.Machine.execDecPacketRx st pathB pkt s
  | .decPictureDecoded st pic => Sys2Proof.Machine.execDecPictureDecoded st pic s
  | .dpEcc e => Sys2Proof.Machine.execDpEcc e s
  | .dpMemoryTestDone d pass => Sys2Proof.Machine.execDpMemoryTestDone d pass s
  | .twinConfigure => Sys2Proof.Machine.execTwinConfigure s
  | .twinUnpair => Sys2Proof.Machine.execTwinUnpair s
  | .twinResync => Sys2Proof.Machine.execTwinResync s
  | .pairingRecordRx r => Sys2Proof.Machine.execPairingRecordRx r s
  | .completenessMapRx inp held => Sys2Proof.Machine.execCompletenessMapRx inp held s
  | .twinFetchDataRx inp item => Sys2Proof.Machine.execTwinFetchDataRx inp item s
  | .presenceVerdictRx inp line present stamp => Sys2Proof.Machine.execPresenceVerdictRx inp line present stamp s
  | .packetDeclarationRx st seq received => Sys2Proof.Machine.execPacketDeclarationRx st seq received s
  | .inputDigestRx inp mt digest => Sys2Proof.Machine.execInputDigestRx inp mt digest s
  | .matchProposalRx unit op obj user mt ctx => Sys2Proof.Machine.execMatchProposalRx unit op obj user mt ctx s
  | .matchTimeout => Sys2Proof.Machine.execMatchTimeout s
  | .missNoticeRx ch mt rows => Sys2Proof.Machine.execMissNoticeRx ch mt rows s
  | .shedNoticeRx ch x => Sys2Proof.Machine.execShedNoticeRx ch x s
  | .historyRecordRx ch r => Sys2Proof.Machine.execHistoryRecordRx ch r s
  | .snapshotRx ch mt complete snap rest => Sys2Proof.Machine.execSnapshotRx ch mt complete snap rest s
  | .twinLinkDead => Sys2Proof.Machine.execTwinLinkDead s
  | .pkgConfigure => Sys2Proof.Machine.execPkgConfigure s
  | .pkgRelease => Sys2Proof.Machine.execPkgRelease s
  | .pkgSplice => Sys2Proof.Machine.execPkgSplice s
  | .esRecordPacketise ch => Sys2Proof.Machine.execEsRecordPacketise ch s
  | .audioForwardDue f => Sys2Proof.Machine.execAudioForwardDue f s
  | .tmQueue => Sys2Proof.Machine.execTmQueue s
  | .tmShape => Sys2Proof.Machine.execTmShape s
  | .shapeTakesEffect => Sys2Proof.Machine.execShapeTakesEffect s
  | .tmPort => Sys2Proof.Machine.execTmPort s
  | .tmGate => Sys2Proof.Machine.execTmGate s
  | .gateListOperational p => Sys2Proof.Machine.execGateListOperational p s
  | .gateEntryChange p => Sys2Proof.Machine.execGateEntryChange p s
  | .tmPolicer => Sys2Proof.Machine.execTmPolicer s
  | .tmRelease => Sys2Proof.Machine.execTmRelease s
  | .ingressFrameRx p fr => Sys2Proof.Machine.execIngressFrameRx p fr s
  | .packetEnqueue => Sys2Proof.Machine.execPacketEnqueue s
  | .portSchedule p => Sys2Proof.Machine.execPortSchedule p s
  | .paceSlot q => Sys2Proof.Machine.execPaceSlot q s
  | .frameTxDone p => Sys2Proof.Machine.execFrameTxDone p s
  | .timePtpPort => Sys2Proof.Machine.execTimePtpPort s
  | .timeOutputs => Sys2Proof.Machine.execTimeOutputs s
  | .tbOffsetHiWrite v => Sys2Proof.Machine.execTbOffsetHiWrite v s
  | .servoSample => Sys2Proof.Machine.execServoSample s
  | .holdoverTimeout => Sys2Proof.Machine.execHoldoverTimeout s
  | .tbNowNsRead => Sys2Proof.Machine.execTbNowNsRead s
  | .tbNowSecHiWrite v => Sys2Proof.Machine.execTbNowSecHiWrite v s
  | .ppsInEdge => Sys2Proof.Machine.execPpsInEdge s
  | .timePps => Sys2Proof.Machine.execTimePps s
  | .ppsOutEdge => Sys2Proof.Machine.execPpsOutEdge s
  | .ppsOutFall => Sys2Proof.Machine.execPpsOutFall s
  | .todLineStart utcOffset => Sys2Proof.Machine.execTodLineStart utcOffset s
  | .ptpMessageRx p m => Sys2Proof.Machine.execPtpMessageRx p m s
  | .ptpMessageTx p m => Sys2Proof.Machine.execPtpMessageTx p m s
  | .laneConfigure => Sys2Proof.Machine.execLaneConfigure s
  | .laneRelease => Sys2Proof.Machine.execLaneRelease s
  | .laneIdle => Sys2Proof.Machine.execLaneIdle s
  | .laneTest => Sys2Proof.Machine.execLaneTest s
  | .detectPoll l found => Sys2Proof.Machine.execDetectPoll l found s
  | .bringupStagePass l facts => Sys2Proof.Machine.execBringupStagePass l facts s
  | .bringupStageTimeout l => Sys2Proof.Machine.execBringupStageTimeout l s
  | .bringupRetry l => Sys2Proof.Machine.execBringupRetry l s
  | .laneLockLoss l energy => Sys2Proof.Machine.execLaneLockLoss l energy s
  | .laneReadmit x => Sys2Proof.Machine.execLaneReadmit x s
  | .eqCacheWrite l facts => Sys2Proof.Machine.execEqCacheWrite l facts s
  | .eqCacheInvalidate l => Sys2Proof.Machine.execEqCacheInvalidate l s
  | .lanenSlipWrite who l v => Sys2Proof.Machine.execLanenSlipWrite who l v s
  | .rawAtomWrite l data => Sys2Proof.Machine.execRawAtomWrite l data s
  | .cascConfigure => Sys2Proof.Machine.execCascConfigure s
  | .cascSend => Sys2Proof.Machine.execCascSend s
  | .cascBypass => Sys2Proof.Machine.execCascBypass s
  | .cascBypassForceWrite who v => Sys2Proof.Machine.execCascBypassForceWrite who v s
  | .cascFrameRx ringB fr => Sys2Proof.Machine.execCascFrameRx ringB fr s
  | .cascHelloRx ringB h => Sys2Proof.Machine.execCascHelloRx ringB h s
  | .controlAckTimeout => Sys2Proof.Machine.execControlAckTimeout s
  | .faultBroadcastPeriod => Sys2Proof.Machine.execFaultBroadcastPeriod s
  | .timeComparisonPeriod => Sys2Proof.Machine.execTimeComparisonPeriod s
  | .hopFrameTimeout ringB => Sys2Proof.Machine.execHopFrameTimeout ringB s
  | .breakNoticeRx ringB => Sys2Proof.Machine.execBreakNoticeRx ringB s
  | .clearNoticeRx ringB => Sys2Proof.Machine.execClearNoticeRx ringB s
  | .bypassConditionChange => Sys2Proof.Machine.execBypassConditionChange s
  | .mcBurstBoundary m k waiting => Sys2Proof.Machine.execMcBurstBoundary m k waiting s
  | .mcRetrainDone m k => Sys2Proof.Machine.execMcRetrainDone m k s
  | .refreshDue m k => Sys2Proof.Machine.execRefreshDue m k s
  | .forcedRefresh m k => Sys2Proof.Machine.execForcedRefresh m k s
  | .srIdleExpiry m => Sys2Proof.Machine.execSrIdleExpiry m s
  | .srDrainDone m => Sys2Proof.Machine.execSrDrainDone m s
  | .srExitRequest m => Sys2Proof.Machine.execSrExitRequest m s
  | .scrubAtom m err => Sys2Proof.Machine.execScrubAtom m err s
  | .scrubPeriodEnd m => Sys2Proof.Machine.execScrubPeriodEnd m s
  | .memCopy e => Sys2Proof.Machine.execMemCopy e s
  | .memFill e => Sys2Proof.Machine.execMemFill e s
  | .checkConfigure => Sys2Proof.Machine.execCheckConfigure s
  | .checkFeed => Sys2Proof.Machine.execCheckFeed s
  | .checkStoreValue => Sys2Proof.Machine.execCheckStoreValue s
  | .checkLoadValue => Sys2Proof.Machine.execCheckLoadValue s
  | .checkRelease => Sys2Proof.Machine.execCheckRelease s
  | .chkDataWrite who e form v => Sys2Proof.Machine.execChkDataWrite who e form v s
  | .chkValueHiWrite who e v => Sys2Proof.Machine.execChkValueHiWrite who e v s
  | .chkCtrlCompare who e => Sys2Proof.Machine.execChkCtrlCompare who e s
  | .chkCtrlRestart who e => Sys2Proof.Machine.execChkCtrlRestart who e s
  | .chkModeWrite who v => Sys2Proof.Machine.execChkModeWrite who v s
  | .snoopUnitEnd k mt unit withheld full => Sys2Proof.Machine.execSnoopUnitEnd k mt unit withheld full s
  | .faultLineRise srcs => Sys2Proof.Machine.execFaultLineRise srcs s
  | .faultAssert => Sys2Proof.Machine.execFaultAssert s
  | .fltStatusW1c who hi v => Sys2Proof.Machine.execFltStatusW1c who hi v s
  | .fltClassWrite who k v => Sys2Proof.Machine.execFltClassWrite who k v s
  | .fltCtrlClassLock who => Sys2Proof.Machine.execFltCtrlClassLock who s
  | .fltHeartbeatWrite who v => Sys2Proof.Machine.execFltHeartbeatWrite who v s
  | .hubWdt => Sys2Proof.Machine.execHubWdt s
  | .heartbeatLapse => Sys2Proof.Machine.execHeartbeatLapse s
  | .aliveToggle => Sys2Proof.Machine.execAliveToggle s
  | .trustAttest => Sys2Proof.Machine.execTrustAttest s
  | .trustCerts => Sys2Proof.Machine.execTrustCerts s
  | .trustMeasure => Sys2Proof.Machine.execTrustMeasure s
  | .trustCommitSvn => Sys2Proof.Machine.execTrustCommitSvn s
  | .quoteServiceStart => Sys2Proof.Machine.execQuoteServiceStart s
  | .pralineBlockTimeout => Sys2Proof.Machine.execPralineBlockTimeout s
  | .quoteSigned => Sys2Proof.Machine.execQuoteSigned s
  | .trustTamper sensors => Sys2Proof.Machine.execTrustTamper sensors s
  | .trustRecoverGo who v => Sys2Proof.Machine.execTrustRecoverGo who v s
  | .bootImageLoad copyB img => Sys2Proof.Machine.execBootImageLoad copyB img s
  | .tapEvent ev => Sys2Proof.Machine.execTapEvent ev s
  | .tapHeartbeatRx tileB => Sys2Proof.Machine.execTapHeartbeatRx tileB s
  | .tapHeartbeatTimeout tileB => Sys2Proof.Machine.execTapHeartbeatTimeout tileB s
  | .islandSecondBoundary => Sys2Proof.Machine.execIslandSecondBoundary s
  | .intervalBoundary => Sys2Proof.Machine.execIntervalBoundary s
  | .sealSignatureDone => Sys2Proof.Machine.execSealSignatureDone s
  | .mailboxTimeRx msg => Sys2Proof.Machine.execMailboxTimeRx msg s
  | .mailboxReleaseRx msg => Sys2Proof.Machine.execMailboxReleaseRx msg s
  | .hubTimeSend => Sys2Proof.Machine.execHubTimeSend s
  | .prlStatusSend => Sys2Proof.Machine.execPrlStatusSend s
  | .pralineLink => Sys2Proof.Machine.execPralineLink s
  | .prlSealNEdge high => Sys2Proof.Machine.execPrlSealNEdge high s
  | .prlUartId => Sys2Proof.Machine.execPrlUartId s
  | .prlUartStatus => Sys2Proof.Machine.execPrlUartStatus s
  | .prlUartRead first n => Sys2Proof.Machine.execPrlUartRead first n s
  | .prlUartBlock => Sys2Proof.Machine.execPrlUartBlock s
  | .prlUartMap flow contract bits => Sys2Proof.Machine.execPrlUartMap flow contract bits s
  | .prlUartRate contract rate => Sys2Proof.Machine.execPrlUartRate contract rate s
  | .prlUartInterval sec => Sys2Proof.Machine.execPrlUartInterval sec s
  | .prlUartCommit => Sys2Proof.Machine.execPrlUartCommit s
  | .prlUartDiscard => Sys2Proof.Machine.execPrlUartDiscard s
  | .mainSupplyLoss => Sys2Proof.Machine.execMainSupplyLoss s
  | .mainSupplyReturn => Sys2Proof.Machine.execMainSupplyReturn s
  | .vddPrlPowerUp keyOk => Sys2Proof.Machine.execVddPrlPowerUp keyOk s
  | .resetP => Sys2Proof.Machine.execResetP s
  | .perstNFall => Sys2Proof.Machine.execPerstNFall s
  | .perstNRise senior => Sys2Proof.Machine.execPerstNRise senior s
  | .devCtrlSoft who => Sys2Proof.Machine.execDevCtrlSoft who s
  | .resetH linkDown => Sys2Proof.Machine.execResetH linkDown s
  | .resetF fn => Sys2Proof.Machine.execResetF fn s
  | .devCtrlIslGo who => Sys2Proof.Machine.execDevCtrlIslGo who s
  | .islandResetDone => Sys2Proof.Machine.execIslandResetDone s
  | .bootComplete => Sys2Proof.Machine.execBootComplete s
  | .mcTrainingDone m ok perBank density => Sys2Proof.Machine.execMcTrainingDone m ok perBank density s
  | .devCtrlDormantSet who => Sys2Proof.Machine.execDevCtrlDormantSet who s
  | .dormantEntered => Sys2Proof.Machine.execDormantEntered s
  | .devCtrlDormantClear who => Sys2Proof.Machine.execDevCtrlDormantClear who s
  | .dormantLeft epFail dpFail => Sys2Proof.Machine.execDormantLeft epFail dpFail s
  | .pwrMon out => Sys2Proof.Machine.execPwrMon out s
  | .thermTrip => Sys2Proof.Machine.execThermTrip s
  | .clkRef tb => Sys2Proof.Machine.execClkRef tb s
  | .pwrOkRise senior => Sys2Proof.Machine.execPwrOkRise senior s
  | .pcieLinkUp gen width flit => Sys2Proof.Machine.execPcieLinkUp gen width flit s
  | .d2dLink => Sys2Proof.Machine.execD2dLink s
  | .hubEcc => Sys2Proof.Machine.execHubEcc s
  | .fltSelf => Sys2Proof.Machine.execFltSelf s
  | .attestTimeout => Sys2Proof.Machine.execAttestTimeout s
  | .shaperCountReachesZero isClass idx cls => Sys2Proof.Machine.execShaperCountReachesZero isClass idx cls s
  | .prbsCheckerLock l rx => Sys2Proof.Machine.execPrbsCheckerLock l rx s
  | .packetDeclaredLost st seq => Sys2Proof.Machine.execPacketDeclaredLost st seq s
  | .partnerHaltReportRx halt => Sys2Proof.Machine.execPartnerHaltReportRx halt s
  | .twinQuoteRequestRx nonce => Sys2Proof.Machine.execTwinQuoteRequestRx nonce s
  | .twinQuoteRx bytes => Sys2Proof.Machine.execTwinQuoteRx bytes s
  | .refclkTbReturn => Sys2Proof.Machine.execRefclkTbReturn s
  | .deviceHighTemperature m hot => Sys2Proof.Machine.execDeviceHighTemperature m hot s
  | .hubTimeLapse => Sys2Proof.Machine.execHubTimeLapse s

end Sys2Proof.Machine
end

