-- ==== Sys2Proof/Safety.lean ====
section
/-! DEFINITION. What counts as a safe step, and what the device keeps whatever is commanded. -/

namespace Sys2Proof.Machine

/-- The step of a state answers a next state. -/
def State.stepsOn (s : State) : Prop := ∃ t, step s = .next t

/-- The command answers a next state, with the queue as it was and a device of which `P` holds. -/
def Completes (i : Instr) (s : State) (P : Dev → Prop) : Prop := ∃ d, exec i s = .next { s with dev := d } ∧ P d

/-- Thread `t` executes on core `c`, the `len` bytes that it fetches lie in its segment (Table 4.6), and the word at its pc spells the instruction `i` (R142). -/
def Dev.Runs (d : Dev) (i : Instr) (c : Fin 128) (t len : Nat) : Prop :=
  d.running c = some t ∧ (d.thread t).st = .running ∧ ((d.thread t).firmware = true ∨ (d.thread t).pc.toNat + len ≤ 0x10000) ∧ d.fetched c (d.thread t) = some i

/-- Unit `u` finds descriptor `x`, of operation `op` and with no check of R157 failing, at the head of its queue, behind none of an operation that the unit does not
have (R157 step 1); `e` is the device without it and without those. -/
def Dev.Takes (d : Dev) (u op : Nat) (sp : Dev → Desc → OpSpec) (x : Desc) (e : Dev) : Prop :=
  (d.unitHead u).takeHead u op = some (x, e) ∧ e.check157 x (sp e x) = none

/-- No thread's registers, flags or priority differ in `d` and `e`, wherever its registers stand (R183 to R185); bits 1:0 of a `pc` are 0. -/
def Dev.SameRegs (e d : Dev) : Prop :=
  ∀ k, (∀ r, r < 32 → (d.withRegs k).gpr r = (e.withRegs k).gpr r) ∧ ((e.withRegs k).pc.toNat % 4 = 0 → (d.withRegs k).pc = (e.withRegs k).pc) ∧
    (d.withRegs k).wt = (e.withRegs k).wt ∧ (d.withRegs k).cas = (e.withRegs k).cas ∧ (d.thread k).flags = (e.thread k).flags ∧ (d.thread k).prio = (e.thread k).prio

/-- Thread `t` of `e` is READY in `d`, or runs because it took a core at once (R174, R180); no register, flag or priority of any thread has changed, and of the
rest only what a spill and a restore touch (R183 to R185). -/
def Dev.Readied (e d : Dev) (t : Nat) : Prop :=
  (d.thread t).hold = .nothing ∧ ((d.thread t).st = .ready ∧ (d.thread t).core = none ∨ (d.thread t).st = .running ∧ (d.thread t).core ≠ none) ∧ Dev.SameRegs e d ∧
  d.dsp.postQ = e.dsp.postQ ∧ d.dsp.heldPosts = e.dsp.heldPosts ∧
  d = { e with dsp := d.dsp, thr := d.thr, loc := d.loc, locErr := d.locErr, spillErr := d.spillErr, mem := d.mem, poison := d.poison }

/-- A window as R132 has it: base and length are multiples of 4 KiB. -/
def Window.ok (w : Window) : Bool := w.base % 4096 == 0 && w.len % 4096 == 0

/-- What `Dev.Sound` asks of the fields that it names: device memory and the local memories in their canonical form, every window as R132 has
it, and POWER one of its four codes (Table 24.3). -/
def SoundF (mem : List Host.Cell) (loc : Tab Byte) (win : Tab Window) (power : Nat) : Prop :=
  Tab.wf 0 mem ∧ Tab.wf 0 loc ∧ (∀ p ∈ win, p.2.ok = true) ∧ power ≤ 3

/-- The device is sound. -/
def Dev.Sound (d : Dev) : Prop := SoundF d.mem d.loc d.win d.ctl.power

end Sys2Proof.Machine
end

