-- ==== Sys2Proof/WellFormed.lean ====
section
/-! DEFINITION. Which commands are well formed. Object numbers are Fin and fields are BitVec, so only the lists that a command hands over
can have a wrong length. -/

namespace Sys2Proof

/-- A submission entry has 64 bytes (Table 3.4), a cadence window 32 counts and a control cycle 32 temperatures (Table 1.3), a mailbox message
64 bytes (R608), a BAR4 access one enable for each byte it writes (R673); every other operand is bounded by its type. -/
def Instr.wf : Instr → Bool
  | .sqEntryFetch _ e => e.length == 64
  | .cadenceWindow c => c.length == 32
  | .cadenceControlCycle t _ => t.length == 32
  | .mailboxTimeRx m => m.length == 64
  | .mailboxReleaseRx m => m.length == 64
  | .hostBar4Access _ _ b e => b.length == e.length
  | _ => true

end Sys2Proof
end

