-- ==== Sys2Proof/Certificates/Slice0/Obligations.lean ====
section
/-! DEFINITION. The statements for the provers. -/

open Sys2Proof Sys2Proof.Machine

/-! ## The queue and the whole machine -/

/-- A step with a command at the front of the queue is that command's meaning on the state with the rest of the queue. -/
def Obligations.StepRunsTheFront : Prop :=
  ∀ (s : State) (c : Instr) (rest : List Instr), s.pending = c :: rest → step s = exec c { s with pending := rest }

/-- A meaning leaves the queue alone: only `step` takes from it, and only the sender puts into it. -/
def Obligations.ExecLeavesTheQueue : Prop :=
  ∀ (i : Instr) (s t : State), exec i s = .next t → t.pending = s.pending

/-- Every well-formed command answers a next state in every state: nothing is refused, and nothing faults. -/
def Obligations.EveryCommandRuns : Prop :=
  ∀ (i : Instr) (s : State), i.wf = true → ∃ t, exec i s = .next t

/-- Whatever is commanded, and whatever tick passes, a sound device stays sound: device memory and the local memories keep their canonical form, the base and
length of every window stay multiples of 4 KiB (R132), and POWER stays one of its four codes. -/
def Obligations.StepKeepsSound : Prop :=
  ∀ s t : State, s.dev.Sound → step s = .next t → t.dev.Sound

/-- Right after reset the device is sound, no command waits, its registers read the values of their tables, every other table of the device is empty (so that
each object is at its default), and nothing has been driven out. While no command waits, a step is one tick of the time base: uptime counts, the counter
goes on by the effective increment while REFCLK_TB and power are present, each link to the partner and on the rings sends the most urgent of the messages that wait for it, and
nothing but these, the time base and the island's crystal changes. The idle tick, reset P as the state after reset, memory of zeros, the installed density and the island's values are the model's choices (log entries 1, 2, 9, 10 and 11). -/
def Obligations.AfterReset : Prop :=
  (let d := State.reset.dev;
   d.Sound ∧ State.reset.pending = [] ∧
   (∀ p ∈ [ (0x000000, 0x095100B0), (0x000010, 0), (0x000030, 0), (0x000040, 0x00010000), (0x100000, 0), (0x100004, 0), (0x100008, 0), (0x10000C, 0),
            (0x100020, 0xAAEAA46F), (0x100024, 0xA110AAAA),
            (0x100028, 0x55444560), (0x10002C, 0xC000EF5F), (0x100030, 0), (0x200000, 0), (0x200004, 0), (0x200010, 0x55555555), (0x200014, 0), (0x200020, 1000), (0x200024, 0x14192070),
            (0x200028, 0), (0x300000, 0), (0x400004, 0), (0x400010, 100), (0x400014, 200), (0x400018, 0), (0x600000, 0), (0x600004, 20),
            (0x60000C, 0x44), (0x600014, 0), (0x600020, 24), (0x800000, 0), (0x800004, 16), (0x80000C, 1000), (0x900000, 0x8010), (0xA00000, 0),
            (0xB00004, 20), (0xB00044, 0), (0xF00004, 0), (0x1000040, 0), (0x1100000, 0), (0x1200000, 0), (0x1300000, 0), (0x1400004, 0),
            (0x1500004, 0), (0x1600000, 0), (0x1600100, 0x320), (0x1700008, 60 * 65536), (0x1700010, 1) ],
      d.readReg p.1 = (p.2, if p.1 = 0x200000 then d.tbReadNow else d)) ∧
   (∀ f : Nat, f < 64 → d.readSlice .pf f 0x10 = 0x44 ∧ d.readSlice .pf f 0x14 = 0 ∧ d.readSlice .pf f 0x28 = 0) ∧
   (∀ t : Nat, t < 4096 → (d.thread t).st = .free ∧ (d.thread t).flags = 0) ∧
   d.window 0 = { base := 0, len := 36 * 2 ^ 30, r := true, w := true } ∧ (∀ k : Nat, 0 < k → (d.window k).len = 0) ∧
   d.ctl.booting = true ∧ d.ctl.power = 0 ∧ d.out = [] ∧ (∀ a, d.memByte a = 0)) ∧
  (∀ s : State, s.pending = [] → ∃ f, step s = .next { s with dev := f } ∧ f.ctl = { s.dev.ctl with ticks := s.dev.ctl.ticks + 1 } ∧
     (s.dev.tb.refTb = false ∨ s.dev.ctl.pwrOk = false → f.tb = s.dev.tb) ∧
     (s.dev.tb.refTb = true → s.dev.ctl.pwrOk = true → f.tb.total = (s.dev.tb.total + s.dev.tb.step) % (2 ^ 48 * 1000000000 * 2 ^ 32) ∧
       { f.tb with sec := 0, ns := 0, frac := 0, lag := 0 } = { s.dev.tb with sec := 0, ns := 0, frac := 0, lag := 0 } ∧ f.tb.lag.natAbs ≤ s.dev.tb.lag.natAbs) ∧
     (s.dev.waiting = [] → f.waiting = [] ∧ f.out = s.dev.out) ∧
     (∀ a : OutEv, s.dev.waiting = [a] → a.link ≠ 0 → f.waiting = [] ∧ f.out = if a.link = 3 ∧ s.dev.twin.lanesUp = [] then s.dev.out else s.dev.out ++ [a]) ∧
     (∀ a b : OutEv, s.dev.waiting = [a, b] → a.link ≠ 0 → b.link = a.link → (a.link = 3 → s.dev.twin.lanesUp ≠ []) → a ≠ b →
       (b.urgency < a.urgency → f.waiting = [a] ∧ f.out = s.dev.out ++ [b]) ∧ (a.urgency ≤ b.urgency → f.waiting = [b] ∧ f.out = s.dev.out ++ [a])) ∧
     f = { s.dev with ctl := f.ctl, tb := f.tb, prl := f.prl, waiting := f.waiting, out := f.out })

/-! ## Svetu instructions (chapter 4) -/

/-- The A-format group (Table 4.4, R127): the result goes to rd, the pc to the next word, and nothing else changes. -/
def Obligations.RegisterArithmetic : Prop :=
  ∀ (s : State) (c : Fin 128) (rd ra rb : Fin 32) (t : Nat),
    let x := s.dev.thread t
    let a := x.gpr ra
    let b := x.gpr rb
    let n := b.toNat % 64
    ∀ p ∈ [ (Instr.addR c rd ra rb, BitVec.ofNat 64 (a.toNat + b.toNat)),
            (Instr.subR c rd ra rb, BitVec.ofInt 64 (a.toInt - b.toInt)),
            (Instr.andR c rd ra rb, a &&& b),
            (Instr.orR c rd ra rb, a ||| b),
            (Instr.xorR c rd ra rb, a ^^^ b),
            (Instr.sll c rd ra rb, BitVec.ofNat 64 (a.toNat * 2 ^ n)),
            (Instr.srl c rd ra rb, BitVec.ofNat 64 (a.toNat / 2 ^ n)),
            (Instr.sra c rd ra rb, BitVec.ofInt 64 (a.toInt / (2 : Int) ^ n)),
            (Instr.slt c rd ra rb, if a.toInt < b.toInt then 1 else 0),
            (Instr.sltu c rd ra rb, if a.toNat < b.toNat then 1 else 0),
            (Instr.minS c rd ra rb, BitVec.ofInt 64 (min a.toInt b.toInt)),
            (Instr.maxS c rd ra rb, BitVec.ofInt 64 (max a.toInt b.toInt)),
            (Instr.minu c rd ra rb, BitVec.ofNat 64 (min a.toNat b.toNat)),
            (Instr.maxu c rd ra rb, BitVec.ofNat 64 (max a.toNat b.toNat)),
            (Instr.mulR c rd ra rb, BitVec.ofNat 64 (a.toNat * b.toNat)),
            (Instr.mulhu c rd ra rb, BitVec.ofNat 64 (a.toNat * b.toNat / 2 ^ 64)),
            (Instr.divu c rd ra rb, if b.toNat = 0 then BitVec.ofNat 64 (2 ^ 64 - 1) else BitVec.ofNat 64 (a.toNat / b.toNat)),
            (Instr.remu c rd ra rb, if b.toNat = 0 then a else BitVec.ofNat 64 (a.toNat % b.toNat)) ],
      s.dev.Runs p.1 c t 4 → exec p.1 s = .next { s with dev := s.dev.putThread t ((x.setG rd p.2).next 4) }

/-- The immediates, LI, LIH, TIME and MFS (Table 4.5): the result goes to rd, the pc behind the instruction, and nothing else changes; MTS writes the two flag bits. -/
def Obligations.ImmediatesAndSpecials : Prop :=
  ∀ (s : State) (c : Fin 128) (rd ra : Fin 32) (imm : BitVec 16) (ext : BitVec 32) (t : Nat),
    let x := s.dev.thread t
    let a := x.gpr ra
    let n := imm.toNat % 64
    (∀ p ∈ [ (Instr.addi c rd ra imm, BitVec.ofInt 64 (a.toInt + imm.toInt)),
             (Instr.andi c rd ra imm, a &&& BitVec.ofNat 64 imm.toNat),
             (Instr.ori c rd ra imm, a ||| BitVec.ofNat 64 imm.toNat),
             (Instr.xori c rd ra imm, a ^^^ BitVec.ofNat 64 imm.toNat),
             (Instr.slti c rd ra imm, if a.toInt < imm.toInt then 1 else 0),
             (Instr.sltui c rd ra imm, if a.toNat < (BitVec.ofInt 64 imm.toInt).toNat then 1 else 0),
             (Instr.timeRd c rd 0, BitVec.ofNat 64 s.dev.media),
             (Instr.mfs c rd 0 0, x.pc),
             (Instr.mfs c rd 0 1, BitVec.ofNat 64 t),
             (Instr.mfs c rd 0 2, BitVec.ofNat 64 x.fn),
             (Instr.mfs c rd 0 3, if x.firmware then 1 else 0),
             (Instr.mfs c rd 0 4, (if x.wt then 1 else 0) + (if x.cas then 2 else 0)) ],
      s.dev.Runs p.1 c t 4 → exec p.1 s = .next { s with dev := s.dev.putThread t ((x.setG rd p.2).next 4) }) ∧
    (s.dev.Runs (.shi c rd ra imm) c t 4 → imm.toNat < 192 →
      exec (.shi c rd ra imm) s = .next { s with dev := s.dev.putThread t ((x.setG rd
        (if imm.toNat < 64 then BitVec.ofNat 64 (a.toNat * 2 ^ n)
         else if imm.toNat < 128 then BitVec.ofNat 64 (a.toNat / 2 ^ n)
         else BitVec.ofInt 64 (a.toInt / (2 : Int) ^ n))).next 4) }) ∧
    (s.dev.Runs (.mts c ra 0 4) c t 4 → exec (.mts c ra 0 4) s = .next { s with dev := s.dev.putThread t ({ x with wt := a.getLsbD 0, cas := a.getLsbD 1 }.next 4) }) ∧
    (s.dev.Runs (.li c rd 0 ext) c t 8 → exec (.li c rd 0 ext) s = .next { s with dev := s.dev.putThread t ((x.setG rd (BitVec.ofInt 64 ext.toInt)).next 8) }) ∧
    (s.dev.Runs (.lih c rd 0 ext) c t 8 → exec (.lih c rd 0 ext) s = .next { s with dev := s.dev.putThread t ((x.setG rd (BitVec.ofNat 64 (ext.toNat * 2 ^ 32 + (x.gpr rd).toNat % 2 ^ 32))).next 8) })

/-- The frame of the instructions that only write a general register: every other register, the flags, every other thread, every other field of the device and
every byte of memory are as before, and g0 still reads 0. -/
def Obligations.RegisterInstructionsFrame : Prop :=
  ∀ (s u : State) (c : Fin 128) (rd ra rb : Fin 32) (imm : BitVec 16) (sel : Fin 5) (t : Nat),
    ∀ i ∈ [ Instr.addR c rd ra rb, .subR c rd ra rb, .andR c rd ra rb, .orR c rd ra rb, .xorR c rd ra rb, .sll c rd ra rb, .srl c rd ra rb, .sra c rd ra rb,
            .slt c rd ra rb, .sltu c rd ra rb, .minS c rd ra rb, .maxS c rd ra rb, .minu c rd ra rb, .maxu c rd ra rb, .mulR c rd ra rb, .mulhu c rd ra rb,
            .divu c rd ra rb, .remu c rd ra rb, .addi c rd ra imm, .andi c rd ra imm, .ori c rd ra imm, .xori c rd ra imm, .slti c rd ra imm,
            .sltui c rd ra imm, .timeRd c rd 0, .mfs c rd 0 (BitVec.ofNat 8 sel) ],
      s.dev.Runs i c t 4 → exec i s = .next u →
        (∀ r : Nat, r ≠ rd → (u.dev.thread t).gpr r = (s.dev.thread t).gpr r) ∧ (u.dev.thread t).gpr 0 = 0 ∧
        (u.dev.thread t).wt = (s.dev.thread t).wt ∧ (u.dev.thread t).cas = (s.dev.thread t).cas ∧ (u.dev.thread t).flags = (s.dev.thread t).flags ∧
        (u.dev.thread t).pc = (s.dev.thread t).pc + 4 ∧ (∀ k : Nat, k ≠ t → u.dev.thread k = s.dev.thread k) ∧
        u.dev = { s.dev with thr := u.dev.thr } ∧ ∀ a, u.dev.memByte a = s.dev.memByte a

/-- LD and LDU (R128 to R131, R136, R146): an aligned load from the thread's local memory, from device memory, where the thread is then held with its data on
the way, and from register space. -/
def Obligations.Loads : Prop :=
  ∀ (s : State) (c : Fin 128) (rd ra : Fin 32) (size : BitVec 2) (off : BitVec 12) (t : Nat),
    let x := s.dev.thread t
    let a := x.effAddr ra off
    let n := 2 ^ size.toNat
    let signed (v : Nat) : DWord := (BitVec.ofNat (8 * n) v).signExtend 64
    a % n = 0 →
      ((a + n ≤ x.localSize → s.dev.localBad (x.segBase + a) n = false →
        let v := leNat (readBytes s.dev.loc (x.segBase + a) n)
        (s.dev.Runs (.ld c rd ra size 0 off) c t 4 → exec (.ld c rd ra size 0 off) s = .next { s with dev := s.dev.putThread t ((x.setG rd (signed v)).next 4) }) ∧
        (s.dev.Runs (.ldu c rd ra size 0 off) c t 4 → exec (.ldu c rd ra size 0 off) s = .next { s with dev := s.dev.putThread t ((x.setG rd (BitVec.ofNat 64 v)).next 4) })) ∧
      (s.dev.deviceOk x a n true false = true →
        let v := leNat ((List.range n).map fun i => s.dev.memByte (a + i))
        (s.dev.Runs (.ld c rd ra size 1 off) c t 4 → exec (.ld c rd ra size 1 off) s =
          .next { s with dev := s.dev.putThread t { x.next 4 with st := .held, hold := .data rd (signed v) none } }) ∧
        (s.dev.Runs (.ldu c rd ra size 1 off) c t 4 → exec (.ldu c rd ra size 1 off) s =
          .next { s with dev := s.dev.putThread t { x.next 4 with st := .held, hold := .data rd (BitVec.ofNat 64 v) none } })) ∧
      (x.firmware = true → size = 2 → a + 4 ≤ 0x4000000 →
        let r := s.dev.readReg a
        (s.dev.Runs (.ld c rd ra size 2 off) c t 4 → exec (.ld c rd ra size 2 off) s = .next { s with dev := r.2.modThread t fun y => (y.setG rd (signed r.1)).next 4 }) ∧
        (s.dev.Runs (.ldu c rd ra size 2 off) c t 4 → exec (.ldu c rd ra size 2 off) s = .next { s with dev := r.2.modThread t fun y => (y.setG rd (BitVec.ofNat 64 r.1)).next 4 })))

/-- ST (R128 to R131, R136): the low bytes of rd go to the computed address, least significant first; every byte outside them, every register and every other
thread stays. A whole-word local store is made even over a double-bit error, which it removes. -/
def Obligations.Stores : Prop :=
  ∀ (s : State) (c : Fin 128) (rd ra : Fin 32) (size : BitVec 2) (off : BitVec 12) (t : Nat),
    let x := s.dev.thread t
    let a := x.effAddr ra off
    let n := 2 ^ size.toNat
    let byte (i : Nat) : Byte := BitVec.ofNat 8 ((x.gpr rd).toNat / 256 ^ i)
    a % n = 0 →
      ((a + n ≤ x.localSize → (n = 8 ∨ s.dev.localBad (x.segBase + a) n = false) →
        s.dev.Runs (.st c rd ra size 0 off) c t 4 → Completes (.st c rd ra size 0 off) s fun d =>
          (∀ i, i < n → Tab.get 0 d.loc (x.segBase + a + i) = byte i) ∧
          (∀ j, j < x.segBase + a ∨ x.segBase + a + n ≤ j → Tab.get 0 d.loc j = Tab.get 0 s.dev.loc j) ∧
          (n = 8 → (x.segBase + a) / 8 ∉ d.locErr) ∧ d.thread t = x.next 4 ∧ (∀ k, k ≠ t → d.thread k = s.dev.thread k) ∧
          d = { s.dev with thr := d.thr, loc := d.loc, locErr := d.locErr }) ∧
      (s.dev.deviceOk x a n false true = true →
        s.dev.Runs (.st c rd ra size 1 off) c t 4 → Completes (.st c rd ra size 1 off) s fun d =>
          (∀ i, i < n → d.memByte (a + i) = byte i) ∧ (∀ j, j < a ∨ a + n ≤ j → d.memByte j = s.dev.memByte j) ∧
          d.thread t = x.next 4 ∧ (∀ k, k ≠ t → d.thread k = s.dev.thread k) ∧
          d = { s.dev with thr := d.thr, mem := d.mem, poison := d.poison }) ∧
      (x.firmware = true → size = 2 → a + 4 ≤ 0x4000000 →
        s.dev.Runs (.st c rd ra size 2 off) c t 4 → exec (.st c rd ra size 2 off) s =
          .next { s with dev := (s.dev.putThread t (x.next 4)).writeReg .firmware a (BitVec.ofNat 32 (x.gpr rd).toNat) }))

/-- The atomic group and FENCE (R142, R143, R147): the word in memory is replaced under the operation and its old value goes to rd; a fence with nothing outstanding
goes on, and one that must wait holds the thread. -/
def Obligations.AtomicsAndFence : Prop :=
  (∀ (s : State) (c : Fin 128) (rd ra rb : Fin 32) (kind : BitVec 3) (wide : Bool) (t : Nat), s.dev.Runs (.amo c rd ra rb kind wide 0) c t 4 →
     let x := s.dev.thread t
     let a := (x.gpr ra).toNat
     let n := if wide then 8 else 4
     let old := leNat ((List.range n).map fun i => s.dev.memByte (a + i))
     let b := (x.gpr rb).toNat % 256 ^ n
     let hit := old = (x.gpr rd).toNat % 256 ^ n
     let new := if kind = 0 then b else if kind = 1 then (old + b) % 256 ^ n else if kind = 2 then old &&& b else if kind = 3 then old ||| b
       else if kind = 4 then max old b else if hit then b else old
     kind.toNat < 6 → a % n = 0 → s.dev.deviceOk x a n true true = true →
       Completes (.amo c rd ra rb kind wide 0) s fun d =>
         (∀ i, i < n → d.memByte (a + i) = BitVec.ofNat 8 (new / 256 ^ i)) ∧ (∀ j, j < a ∨ a + n ≤ j → d.memByte j = s.dev.memByte j) ∧
         d.thread t = { x.next 4 with st := .held, hold := .data rd (BitVec.ofNat 64 old) (if kind = 5 then some (decide hit) else none) } ∧
         (∀ k, k ≠ t → d.thread k = s.dev.thread k) ∧ d = { s.dev with thr := d.thr, mem := d.mem, poison := d.poison }) ∧
  (∀ (s : State) (c : Fin 128) (imm : BitVec 8) (t : Nat), s.dev.Runs (.mfence c 0 imm) c t 4 → imm.toNat < 2 →
     let x := s.dev.thread t
     let y : Thread := if imm = 1 ∧ x.issued ≠ 0 then { x.next 4 with st := .held, hold := .fence true, core := none } else x.next 4
     exec (.mfence c 0 imm) s = .next { s with dev := s.dev.putThread t y })

/-- WIN (R133): rd reads 0 and the named window is set, or disabled by a length of 0; a record that breaks one of the rule's bounds gives 4 and changes nothing. -/
def Obligations.SetWindow : Prop :=
  ∀ (s : State) (c : Fin 128) (rd ra : Fin 32) (t : Nat), s.dev.Runs (.win c rd ra 0) c t 4 →
    let x := s.dev.thread t
    let a := (x.gpr ra).toNat
    let b := readBytes s.dev.loc (x.segBase + a) 32
    let fn := byteAt b 0
    let ix := byteAt b 1
    let base := fieldLE b 8 8
    let len := fieldLE b 0x10 8
    (x.firmware = true ∨ x.fn = 0) → a + 32 ≤ x.localSize → s.dev.localBad (x.segBase + a) 32 = false →
      Completes (.win c rd ra 0) s fun d =>
        if 63 < fn ∨ 7 < ix ∨ base % 4096 ≠ 0 ∨ len % 4096 ≠ 0 ∨ 2 ^ 48 < base + len ∨ byteAt b 2 / 4 ≠ 0 ∨ fieldLE b 3 5 ≠ 0 ∨ fieldLE b 0x18 8 ≠ 0 then
          d = s.dev.putThread t ((x.setG rd 4).next 4)
        else
          d.thread t = (x.setG rd 0).next 4 ∧
          d.window (fn * 8 + ix) =
            (if len = 0 then {} else { base := base, len := len, r := decide (byteAt b 2 % 2 = 1), w := decide (byteAt b 2 / 2 % 2 = 1) }) ∧
          (∀ k, k ≠ fn * 8 + ix → d.window k = s.dev.window k) ∧ (∀ k, k ≠ t → d.thread k = s.dev.thread k) ∧
          d = { s.dev with thr := d.thr, win := d.win }

/-- Branches and jumps (Table 4.5): the pc goes to the target when the condition holds, else to the next word; JAL and JALR write the return address to rd. -/
def Obligations.BranchesAndJumps : Prop :=
  ∀ (s : State) (c : Fin 128) (rd ra rb : Fin 32) (off : BitVec 16) (t : Nat),
    let x := s.dev.thread t
    let a := x.gpr ra
    let b := x.gpr rb
    let target : DWord := x.pc + BitVec.ofInt 64 (4 * off.toInt)
    let jump : DWord := a + BitVec.ofInt 64 off.toInt
    (x.pc.toNat % 4 = 0 →
      (∀ p ∈ [ (Instr.beq c ra rb off, decide (a = b)), (.bne c ra rb off, decide (a ≠ b)), (.blt c ra rb off, decide (a.toInt < b.toInt)),
               (.bge c ra rb off, decide (b.toInt ≤ a.toInt)), (.bltu c ra rb off, decide (a.toNat < b.toNat)),
               (.bgeu c ra rb off, decide (b.toNat ≤ a.toNat)) ],
        s.dev.Runs p.1 c t 4 → exec p.1 s = .next { s with dev := s.dev.putThread t { x with pc := if p.2 then target else x.pc + 4 } }) ∧
      (s.dev.Runs (.jal c rd 0 off) c t 4 → exec (.jal c rd 0 off) s = .next { s with dev := s.dev.putThread t { x.setG rd (x.pc + 4) with pc := target } })) ∧
    (s.dev.Runs (.jalr c rd ra off) c t 4 → exec (.jalr c rd ra off) s =
      if jump.toNat % 4 = 0 then .next { s with dev := s.dev.putThread t { x.setG rd (x.pc + 4) with pc := jump } }
      else .next { s with dev := s.dev.trap t 3 0 })

/-- ISSUE makes the checks of R154 in their order: with the immediate legal, the first that fails decides the trap. -/
def Obligations.IssueChecks : Prop :=
  ∀ (s : State) (c : Fin 128) (rd ra : Fin 32) (imm : BitVec 8) (t : Nat), s.dev.Runs (.issue c rd ra 0 imm) c t 4 →
    let d := s.dev
    let x := d.thread t
    let a := (x.gpr ra).toNat
    let n := leNat (readBytes d.loc (x.segBase + (a + 2)) 2)
    let b := readBytes d.loc (x.segBase + a) n
    let status := fieldLE b 0x18 8
    let notify := fieldLE b 0x10 2
    let trapped (cause : Nat) : Prop := exec (.issue c rd ra 0 imm) s = .next { s with dev := d.trap t cause 0 }
    (2 ≤ imm.toNat → trapped 1) ∧
    (imm.toNat < 2 → a % 32 ≠ 0 → trapped 3) ∧
    (imm.toNat < 2 → a % 32 = 0 → (n % 32 ≠ 0 ∨ n < 32 ∨ 4096 < n ∨ x.localSize < a + n) → trapped 4) ∧
    (imm.toNat < 2 → a % 32 = 0 → n % 32 = 0 → 32 ≤ n → n ≤ 4096 → a + n ≤ x.localSize →
      if status % 16 ≠ 0 then trapped 3
      else if status ≠ 0 ∧ d.deviceOk x status 16 false true = false then trapped 4
      else if notify ≠ 0xFFFF ∧ ((d.thread notify).live = false ∨ (d.thread notify).fn ≠ x.fn) then trapped 5
      else d.localBad (x.segBase + a) n = true → trapped 6)

/-- ISSUE of a checked descriptor (R153, R155): it joins its unit's queue, rd reads 0, and its thread and its notify thread each count one descriptor more; with the queue
full, NOWAIT gives 1, and without it the thread is held, and its notify thread counts the descriptor already. -/
def Obligations.IssueHandsOver : Prop :=
  ∀ (s : State) (c : Fin 128) (rd ra : Fin 32) (imm : BitVec 8) (t : Nat), s.dev.Runs (.issue c rd ra 0 imm) c t 4 → imm.toNat < 2 →
    let x := s.dev.thread t
    let a := (x.gpr ra).toNat
    let y := s.dev.descAt t x a
    firstTrap (s.dev.issueTraps t x a) = none →
      (s.dev.issueFull y = false → y.known = true →
        Completes (.issue c rd ra 0 imm) s fun d =>
          d.unitQueue y.unit = s.dev.unitQueue y.unit ++ [y] ∧ (∀ k, k ≠ y.unit → d.unitQueue k = s.dev.unitQueue k) ∧
          (∀ r : Nat, r ≠ rd → (d.thread t).gpr r = x.gpr r) ∧ (d.thread t).gpr rd = 0 ∧ (d.thread t).pc = x.pc + 4 ∧ (d.thread t).issued = x.issued + 1 ∧
          (∀ u, u ≠ 0xFFFF → (d.thread u).outst = (s.dev.thread u).outst + if y.notify = u then 1 else 0) ∧ (∀ u, u ≠ t → u ≠ y.notify → d.thread u = s.dev.thread u) ∧
          d = { s.dev with thr := d.thr, unitQ := d.unitQ }) ∧
      (s.dev.issueFull y = true →
        (imm = 1 → exec (.issue c rd ra 0 imm) s = .next { s with dev := s.dev.putThread t ((x.setG rd 1).next 4) }) ∧
        (imm = 0 → exec (.issue c rd ra 0 imm) s =
          .next { s with dev := (s.dev.putThread t { x.next 4 with st := .held, hold := .issue rd y, core := none }).nameNotify y }))

/-- WAIT (R148): in mode any with no mask and no limit, or with a sub above 1, it traps ILLEGAL. Satisfied at once, in mode any by a shared bit and in mode all by
every bit of the mask, it goes on: rd holds flags & mask, those flags are clear and WT is 0. Else the thread waits, off its core, until a post or its limit. -/
def Obligations.WaitForFlags : Prop :=
  ∀ (s : State) (c : Fin 128) (rd ra rb : Fin 32) (sub : BitVec 3) (t : Nat), s.dev.Runs (.wait c rd ra rb sub 0) c t 4 →
    let x := s.dev.thread t
    let mask : Word := BitVec.ofNat 32 (x.gpr ra).toNat
    let ns := (x.gpr rb).toNat % 2 ^ 32
    let y : Thread := { x.next 4 with mask := mask, waitAll := decide (sub = 1), waitRd := rd };
    (1 < sub.toNat ∨ (sub = 0 ∧ mask = 0 ∧ ns = 0) → exec (.wait c rd ra rb sub 0) s = .next { s with dev := s.dev.trap t 1 0 }) ∧
    (sub = 0 → x.flags &&& mask ≠ 0 → exec (.wait c rd ra rb sub 0) s =
      .next { s with dev := s.dev.putThread t ({ y with flags := x.flags &&& ~~~mask, wt := false }.setG rd (BitVec.ofNat 64 (x.flags &&& mask).toNat)) }) ∧
    (sub = 1 → x.flags &&& mask = mask → exec (.wait c rd ra rb sub 0) s =
      .next { s with dev := s.dev.putThread t ({ y with flags := x.flags &&& ~~~mask, wt := false }.setG rd (BitVec.ofNat 64 (x.flags &&& mask).toNat)) }) ∧
    ((sub = 0 ∧ x.flags &&& mask = 0 ∧ (mask ≠ 0 ∨ ns ≠ 0)) ∨ (sub = 1 ∧ x.flags &&& mask ≠ mask) → exec (.wait c rd ra rb sub 0) s =
      .next { s with dev := s.dev.putThread t { y with st := .waiting, core := none, deadline := if ns = 0 then none else some (s.dev.nowNs + ns) } })

/-- POST (R149, R177, R178): 1 in rd when the target does not exist; a program's post to another function's thread traps OWNER; else 0, and the post joins the
queue of the target's home core, or, with no room there, the poster is held. -/
def Obligations.PostToThread : Prop :=
  ∀ (s : State) (c : Fin 128) (rd ra rb : Fin 32) (t : Nat), s.dev.Runs (.post c rd ra rb 0) c t 4 →
    let d := s.dev
    let x := d.thread t
    let u := (x.gpr ra).toNat % 4096
    let mask : Word := BitVec.ofNat 32 (x.gpr rb).toNat
    let home := (d.thread u).home
    ((d.thread u).live = false → exec (.post c rd ra rb 0) s = .next { s with dev := d.putThread t ((x.setG rd 1).next 4) }) ∧
    ((d.thread u).live = true → x.firmware = false → (d.thread u).fn ≠ x.fn → exec (.post c rd ra rb 0) s = .next { s with dev := d.trap t 5 0 }) ∧
    ((d.thread u).live = true → (x.firmware = true ∨ (d.thread u).fn = x.fn) → d.postRoom u = true →
      Completes (.post c rd ra rb 0) s fun e =>
        e.thread t = (x.setG rd 0).next 4 ∧ (∀ k, k ≠ t → e.thread k = d.thread k) ∧ (∀ k, k ≠ home → e.postQueue k = d.postQueue k) ∧
        e.postQueue home = (if (d.postQueue home).any (·.1 == u) then (d.postQueue home).map fun p => if p.1 == u then (u, p.2 ||| mask) else p
          else d.postQueue home ++ [(u, mask)]) ∧ e = { d with thr := e.thr, dsp := e.dsp }) ∧
    ((d.thread u).live = true → (x.firmware = true ∨ (d.thread u).fn = x.fn) → d.postRoom u = false →
      Completes (.post c rd ra rb 0) s fun e =>
        e.thread t = { (x.setG rd 0).next 4 with st := .held, hold := .post, core := none } ∧
        e.dsp.heldPosts = d.dsp.heldPosts ++ [{ poster := .thread t, target := u, inc := (d.thread u).inc, core := home, mask := mask, since := d.ctl.ticks }] ∧
        e = { d with thr := e.thr, dsp := e.dsp })

/-- YIELD, END and TRAP (R101, R146, R151): the core is given up and the thread is READY behind its priority's others; the thread ends and its entry retires OK with
g1, or ABORTED with the trap record, which g1 holds. -/
def Obligations.YieldEndTrap : Prop :=
  ∀ (s : State) (c : Fin 128) (imm : BitVec 8) (t : Nat),
    let d := s.dev
    let x := d.thread t
    let ended (y : Thread) : Thread := { y with st := .held, hold := .retire, core := none, deadline := none, pending := 0, slot := none }
    let recd := 7 + imm.toNat * 2 ^ 8 + x.pc.toNat % 2 ^ 32 * 2 ^ 32
    (d.Runs (.yieldCore c 0) c t 4 → Completes (.yieldCore c 0) s fun e =>
      e.thread t = { x.next 4 with st := .ready, core := none, hold := .nothing, ready := d.dsp.tail + 1 } ∧ (∀ k, k ≠ t → e.thread k = d.thread k) ∧
      e = { d with thr := e.thr, dsp := { d.dsp with tail := d.dsp.tail + 1 } }) ∧
    (∀ fn tag sq, x.origin = some (fn, tag, sq) →
      (d.Runs (.endThread c 0) c t 4 → exec (.endThread c 0) s = .next { s with dev := (d.putThread t (ended x)).retire fn ⟨0x00, 1, t, tag, sq, (x.gpr 1).toNat, d.upNs⟩ (some t) }) ∧
      (d.Runs (.trap c 0 imm) c t 4 → x.firmware = false → exec (.trap c 0 imm) s =
        .next { s with dev := (d.putThread t (ended (x.setG 1 (BitVec.ofNat 64 recd)))).retire fn ⟨0x0B, 1, t, tag, sq, recd, d.upNs⟩ (some t) }))

/-- What traps, and as what (R130, R131, R144, R150, Table 4.6): the first cause in the order ILLEGAL, PRIV, ALIGN, BOUNDS, ECC, BOUNDS for a fetch beyond
the segment, and ILLEGAL for a word of no defined opcode. -/
def Obligations.TrapOrder : Prop :=
  ∀ (s : State) (c : Fin 128) (rd ra rb : Fin 32) (size space : BitVec 2) (off : BitVec 12) (t : Nat),
    let d := s.dev
    let x := d.thread t
    let a := x.effAddr ra off
    let n := 2 ^ size.toNat
    (∀ i ∈ [ Instr.ld c rd ra size space off, .ldu c rd ra size space off, .st c rd ra size space off ], d.Runs i c t 4 →
      (space = 3 → exec i s = .next { s with dev := d.trap t 1 0 }) ∧
      (space = 2 → x.firmware = false → exec i s = .next { s with dev := d.trap t 2 0 }) ∧
      (space.toNat < 2 → a % n ≠ 0 → exec i s = .next { s with dev := d.trap t 3 0 }) ∧
      (space = 0 → a % n = 0 → x.localSize < a + n → exec i s = .next { s with dev := d.trap t 4 0 }) ∧
      (space = 1 → a % n = 0 → (2 ^ 48 ≤ a ∧ x.firmware = false ∨ d.capacity < a + n) → exec i s = .next { s with dev := d.trap t 4 0 }) ∧
      (space = 0 → a % n = 0 → a + n ≤ x.localSize → d.localBad (x.segBase + a) n = true → (n < 8 ∨ i ≠ .st c rd ra size space off) →
        exec i s = .next { s with dev := d.trap t 6 0 })) ∧
    (d.running c = some t → x.firmware = false → 0x10000 < x.pc.toNat + 4 → exec (.addR c rd ra rb) s = .next { s with dev := d.trap t 4 0 }) ∧
    (d.running c = some t → (x.firmware = true ∨ x.pc.toNat + 4 ≤ 0x10000) → d.fetched c x = none → exec (.addR c rd ra rb) s = .next { s with dev := d.trap t 1 0 })

/-! ## The dispatcher (chapter 5) -/

/-- Holds and waits end (R139, R147, R148, R155), and cores are given to threads (R179 to R182, R186): a load's data reaches its register; a fence, an ISSUE that found
room and a wait that ran out make the thread READY; an idle core takes the READY thread of highest priority that has been READY longest; a slice ends; a POST
held for too long is recorded and raises line 5. -/
def Obligations.HoldsEndAndCoresAreGiven : Prop :=
  (∀ (s : State) (t : Fin 4096),
     let d := s.dev
     let x := d.thread t
     (∀ rd v cas, x.st = .held → x.hold = .data rd v cas →
       Completes (.deviceLoadDataReturn t) s fun e =>
         e.thread t = { x.setG rd v with st := .running, hold := .nothing, cas := cas.getD x.cas } ∧ (∀ k, k ≠ t.val → e.thread k = d.thread k) ∧
         e = { d with thr := e.thr }) ∧
     (∀ drain, x.st = .held → x.hold = .fence drain → (drain = true → x.issued = 0) → Completes (.mfenceComplete t) s fun e => Dev.Readied d e t) ∧
     (∀ rd y, x.st = .held → x.hold = .issue rd y → d.issueFull y = false → y.known = true →
       Completes (.issueQueueSpace t) s fun e =>
         (e.withRegs t).gpr rd = 0 ∧ (∀ r : Nat, r < 32 → r ≠ rd → (e.withRegs t).gpr r = (d.withRegs t).gpr r) ∧ e.unitQueue y.unit = d.unitQueue y.unit ++ [y] ∧
         (∀ k, k ≠ y.unit → e.unitQueue k = d.unitQueue k) ∧ (e.thread t).hold = .nothing ∧
         ((e.thread t).st = .ready ∨ (e.thread t).st = .running)) ∧
     (∀ limit, x.st = .waiting → x.deadline = some limit → limit ≤ d.nowNs →
       Completes (.waitTimeout t) s fun e =>
         Dev.Readied (d.modRegs t fun y => { y with wt := true, deadline := none }.setG x.waitRd (BitVec.ofNat 64 (x.flags &&& x.mask).toNat)) e t)) ∧
  (∀ (s : State) (c : Fin 128),
     let d := s.dev
     (∀ t, d.coreBusy c = false → d.ctl.islBusy ≠ some (26 + c.val / 64) → (t, d.thread t) ∈ d.thr → (d.thread t).st = .ready → d.idleCore t = some c.val →
       (∀ p ∈ d.thr, p.1 ≠ t → p.2.st = .ready → d.idleCore p.1 = some c.val →
         (d.thread t).prio < p.2.prio ∨ (d.thread t).prio = p.2.prio ∧ (d.thread t).ready < p.2.ready) →
       Completes (.coreDispatch c) s fun e =>
         (e.thread t).st = .running ∧ (e.thread t).core = some c.val ∧ (e.thread t).home = c ∧ (e.thread t).runStart = d.ctl.ticks ∧
         Dev.SameRegs d e ∧
         e = { d with dsp := e.dsp, thr := e.thr, loc := e.loc, locErr := e.locErr, spillErr := e.spillErr, mem := e.mem, poison := e.poison }) ∧
     (∀ v, d.running c = some v → (d.thread v).runStart + (if d.dsp.sliceUs = 0 then 1 else d.dsp.sliceUs) * 3000 ≤ d.ctl.ticks →
       (∃ p ∈ d.thr, p.2.st = .ready ∧ p.2.prio = (d.thread v).prio ∧ p.2.allows c = true ∧ d.idleCore p.1 = none) →
       Completes (.timeSliceExpiry c) s fun e =>
         e.thread v = { d.thread v with st := .ready, core := none, hold := .nothing, ready := d.dsp.tail + 1 } ∧ (∀ k, k ≠ v → e.thread k = d.thread k) ∧
         e = { d with thr := e.thr, dsp := { d.dsp with tail := d.dsp.tail + 1 } }) ∧
     (∀ l u target n core mask since, d.dsp.heldPosts = l ++ [⟨.thread u, target, n, core, mask, since, false⟩] →
       since + max 1 (min 1000000 d.dsp.stallUs) * 3000 < d.ctl.ticks →
       Completes .dispatchStall s fun e =>
         e.flt.live.getLsbD 5 = true ∧ e.dsp.last = BitVec.ofNat 32 (target + u % 4096 * 2 ^ 16 + 2 ^ 31) ∧
         e.dsp.heldPosts.getLast? = some ⟨.thread u, target, n, core, mask, since, true⟩ ∧ ∀ k, e.thread k = d.thread k))

/-- Posts reach threads (R173 to R178): the merge path's pending word and the oldest entry of a core's queue are ORed into the flags, which wakes a thread
whose condition then holds; a free entry goes to the first held post, and its poster goes on; the post of a target that has ended is discarded then. -/
def Obligations.PostsReachThreads : Prop :=
  ∀ (s : State) (c : Fin 128) (t : Fin 4096),
    let d := s.dev
    let x := d.thread t
    let woken (u : Nat) (y : Thread) (e f : Dev) : Prop :=
      if y.st = .waiting ∧ y.satisfied = true then
        Dev.Readied ((e.putThread u y).modRegs u fun z => { z with flags := y.flags &&& ~~~y.mask, wt := false, deadline := none }.setG y.waitRd
          (BitVec.ofNat 64 (y.flags &&& y.mask).toNat)) f u
      else f = e.putThread u y
    (x.live = true → x.pending ≠ 0 →
      Completes (.mergePathFold t) s fun e => woken t { x with pending := 0, flags := x.flags ||| x.pending } d e) ∧
    (∀ u mask rest, d.postQueue c = (u, mask) :: rest → (d.thread u).live = true →
      Completes (.postQueueFold c) s fun e => woken u { d.thread u with flags := (d.thread u).flags ||| mask } (d.putPostQueue c rest) e) ∧
    (∀ h rest, d.dsp.heldPosts = h :: rest → (d.thread h.target).home = c → (d.thread h.target).live = true → (d.thread h.target).inc = h.inc → (d.postQueue c).length < 64 →
      (d.postQueue c).any (·.1 == h.target) = false →
      (∀ u, h.poster = .unit u → Completes (.postQueueEntryFree c) s fun e =>
        e.postQueue c = d.postQueue c ++ [(h.target, h.mask)] ∧ e.dsp.heldPosts = rest ∧ (rest.any (·.stalled) = false → e.flt.live.getLsbD 5 = false) ∧
        e = { d with dsp := e.dsp, flt := e.flt }) ∧
      (∀ u, h.poster = .thread u → (d.thread u).hold = .post → Completes (.postQueueEntryFree c) s fun e =>
        e.postQueue c = d.postQueue c ++ [(h.target, h.mask)] ∧ e.dsp.heldPosts = rest ∧ (e.thread u).hold = .nothing ∧
        ((e.thread u).st = .ready ∨ (e.thread u).st = .running) ∧ (((d.thread u).live = true) → Dev.SameRegs d e))) ∧
    (∀ h rest u, d.dsp.heldPosts = h :: rest → h.core = c → h.poster = .thread u → (d.thread u).hold = .post → (d.thread h.target).live = false → (d.postQueue c).length < 64 →
      Completes (.postQueueEntryFree c) s fun e =>
        e.dsp.postQ = d.dsp.postQ ∧ e.dsp.heldPosts = rest ∧ (e.thread u).hold = .nothing ∧ ((e.thread u).st = .ready ∨ (e.thread u).st = .running))


/-- A firmware thread's TRAP (R152): the record joins the hub firmware log (as log entry 3 has it, the model's choice), source 6 latches, and the thread, which
stands for no ring entry, is free at once. A program's double-bit error in local memory latches source 7 as well as ending it (R136). -/
def Obligations.TrapsAreReported : Prop :=
  ∀ (s : State) (c : Fin 128) (rd ra : Fin 32) (imm : BitVec 8) (off : BitVec 12) (t : Nat),
    let d := s.dev
    let x := d.thread t
    let a := x.effAddr ra off
    (d.Runs (.trap c 0 imm) c t 4 → x.firmware = true → x.origin = none → x.outst = 0 → d.flt.latched.get 0 6 = 0 →
      Completes (.trap c 0 imm) s fun e =>
        (∃ l, e.hub.log.getLast? = some l ∧ l.uptime = d.upNs ∧ 0 < l.code ∧ l.source = 7 + imm.toNat * 2 ^ 8 ∧ l.arg = x.pc.toNat % 2 ^ 32) ∧
        e.hub.log.length ≤ 64 ∧ e.flt.status.getLsbD 6 = true ∧ e.flt.latched.get 0 6 = d.flt.classOf 6 + 1 ∧
        e.thread t = {} ∧ (∀ k, k ≠ t → e.thread k = d.thread k) ∧ ∀ j, e.memByte j = d.memByte j) ∧
    (d.Runs (.ld c rd ra 3 0 off) c t 4 → x.firmware = false → a % 8 = 0 → a + 8 ≤ x.localSize → d.localBad (x.segBase + a) 8 = true → d.flt.latched.get 0 7 = 0 →
      Completes (.ld c rd ra 3 0 off) s fun e => e.flt.status.getLsbD 7 = true ∧ ∀ j, e.memByte j = d.memByte j)

/-! ## Descriptors (chapter 4) -/

/-- A descriptor that fails a check of R157 up to step 3, or a twin check of R366 and R367, is completed with that status and has no other effect: the status
word is written as Table 4.9 lays it out, and of memory only that; the unit's state and every other unit's are as before. -/
def Obligations.RefusedDescriptors : Prop :=
  ∀ (s : State) (x : Desc) (e : Dev) (st : Nat),
    ∀ p ∈ [ (Instr.captureConfigure, 1, 1, capConfigureSpec), (.captureStart, 1, 2, capStartSpec), (.captureStop, 1, 3, capStartSpec),
            (.captureSubst, 1, 4, capSubstSpec), (.mfSceneConfigure, 2, 1, mfConfigureSpec), (.mfSceneStart, 2, 2, mfStartSpec),
            (.mfSceneStop, 2, 3, mfStartSpec), (.mfLayerCommit, 2, 4, mfLayerSpec), (.mfOutputCommit, 2, 5, mfOutputSpec), (.blitFill, 3, 1, blitSpec),
            (.blitCopy, 3, 2, blitSpec), (.blitConvert, 3, 3, blitSpec), (.encLoad, 4, 1, encLoadSpec), (.encStart, 4, 2, encChanSpec [(0x22, 30)]),
            (.encStop, 4, 3, encChanSpec [(0x22, 30)]), (.encKeypic, 4, 4, encChanSpec [(0x23, 29)]), (.encRate, 4, 5, encRateSpec),
            (.encStats, 4, 6, encStatsSpec), (.encPark, 4, 7, encParkSpec), (.decConfigure, 5, 1, decConfigureSpec), (.decStart, 5, 2, decStreamSpec),
            (.decStop, 5, 3, decStreamSpec), (.pkgConfigure, 6, 1, pkgConfigureSpec), (.pkgRelease, 6, 2, pkgReleaseSpec),
            (.pkgSplice, 6, 3, pkgSpliceSpec), (.tmQueue, 7, 1, tmQueueSpec), (.tmShape, 7, 2, tmShapeSpec), (.tmPort, 7, 3, tmPortSpec),
            (.tmGate, 7, 4, tmGateSpec), (.tmPolicer, 7, 5, tmPolicerSpec), (.tmRelease, 7, 6, tmReleaseSpec), (.timePtpPort, 8, 1, ptpPortSpec),
            (.timeOutputs, 8, 2, outputsSpec), (.checkConfigure, 9, 1, checkConfigureSpec), (.checkFeed, 9, 2, checkFeedSpec),
            (.checkStoreValue, 9, 3, checkStoreSpec), (.checkLoadValue, 9, 4, checkLoadSpec), (.checkRelease, 9, 5, checkReleaseSpec),
            (.twinConfigure, 11, 1, twinConfigureSpec), (.twinUnpair, 11, 2, twinUnpairSpec), (.twinResync, 11, 3, twinResyncSpec),
            (.laneConfigure, 12, 1, laneConfigureSpec), (.laneRelease, 12, 2, laneGroupSpec [(0x22, 30)]),
            (.laneIdle, 12, 3, laneGroupSpec [(0x23, 29)]), (.laneTest, 12, 4, laneGroupSpec [(0x26, 26)]),
            (.cascConfigure, 13, 1, cascConfigureSpec), (.cascSend, 13, 2, cascSendSpec),
            (.cascBypass, 13, 3, cascBypassSpec), (.trustAttest, 14, 1, attestSpec), (.trustCerts, 14, 2, certsSpec), (.trustMeasure, 14, 3, measureSpec),
            (.trustCommitSvn, 14, 4, commitSpec), (.faultAssert, 15, 1, assertSpec), (.fabricAdmit, 16, 1, admitSpec), (.fabricRelease, 16, 2, releaseSpec),
            (.fabricQuery, 16, 3, querySpec) ],
      s.dev.takeHead p.2.1 p.2.2.1 = some (x, e) → e.check157 x (p.2.2.2 e x) = some st → x.statusAddr ≠ 0 → x.statusAddr + 16 ≤ s.dev.capacity →
        let sa := x.statusAddr
        Completes p.1 s fun d =>
          (d.memByte sa).toNat = st ∧ (d.memByte (sa + 1)).toNat = x.unit ∧ (d.memByte (sa + 2)).toNat = x.op ∧ d.memByte (sa + 3) = 1 ∧
          (∀ i, i < 4 → (d.memByte (sa + 4 + i)).toNat = x.user / 256 ^ i % 256) ∧ (∀ i, i < 8 → d.memByte (sa + 8 + i) = 0) ∧
          (∀ a, a < sa ∨ sa + 16 ≤ a → d.memByte a = s.dev.memByte a) ∧ d = { e with thr := d.thr, dsp := d.dsp, mem := d.mem, poison := d.poison } ∧
          (x.bytes.length ≠ (p.2.2.2 e x).len → st = 4) ∧ (st = 3 ∨ st = 4 ∨ st = 5 ∨ st = 6)

/-- A completion's notification (R158, R159): the named flag of the notify thread is posted, at once for the units of the merge path; NOTIFY_ERR keeps it back on OK
and LATE. Here for a descriptor that CAPTURE, MF, ENC or DEC completes with any status. The issuing thread counts one descriptor less, if it is still the same thread. -/
def Obligations.CompletionNotifies : Prop :=
  ∀ (d : Dev) (x : Desc) (st mt : Nat), x.bytes ≠ [] → (x.unit = 1 ∨ x.unit = 2 ∨ x.unit = 4 ∨ x.unit = 5) →
    x.notify ≠ 0xFFFF → x.flag < 32 → (d.thread x.notify).live = true →
    let e := d.complete x st mt
    (x.notifyErr = false ∨ 2 ≤ st → (e.thread x.notify).pending = (d.thread x.notify).pending ||| (1#32 <<< x.flag)) ∧
    (x.notifyErr = true → st < 2 → (e.thread x.notify).pending = (d.thread x.notify).pending) ∧
    (e.thread x.notify).outst = (d.thread x.notify).outst - 1 ∧
    (e.thread x.tid).issued = (if (d.thread x.tid).inc = x.inc then (d.thread x.tid).issued - 1 else (d.thread x.tid).issued) ∧
    e.dsp = d.dsp ∧ ∀ k, k ≠ x.tid → k ≠ x.notify → e.thread k = d.thread k

/-! ## Rings, the hub and the apertures (chapter 3) -/

/-- The ring registers that drive the rings (R94, R103, R105, R107, R108). A tail within the ring's entries is taken; one too far ahead puts the ring into
ERROR and drives line 4; ENABLE starts and stops the ring; a new head makes room for what is held, which is delivered; vector 2 follows its delay. -/
def Obligations.RingRegisters : Prop :=
  ∀ (s : State) (who : Requester) (fn : Fin 64) (v : BitVec 32),
    let d := s.dev
    let r := d.ring fn
    let m := max 4 (min 12 r.cqLog)
    let base := r.cqBaseLo.toNat + r.cqBaseHi.toNat * 2 ^ 32
    (d.reaches who fn = false → exec (.ringSqTailWrite who fn v) s = .next s ∧ exec (.ringCqHeadWrite who fn v) s = .next s ∧
      exec (.ringEnableSet who fn) s = .next s ∧ exec (.ringEnableClear who fn) s = .next s) ∧
    (d.reaches who fn = true →
      (r.st = .error ∨ (v - r.sqHead).toNat ≤ 2 ^ max 4 (min 12 r.sqLog) →
        exec (.ringSqTailWrite who fn v) s = .next { s with dev := d.putRing fn { r with sqTail := v } }) ∧
      (r.st ≠ .error → 2 ^ max 4 (min 12 r.sqLog) < (v - r.sqHead).toNat →
        Completes (.ringSqTailWrite who fn v) s fun e =>
          e.ring fn = { r with sqTail := v, st := .error } ∧ (∀ k, k ≠ fn.val → e.ring k = d.ring k) ∧ e.flt.live.getLsbD 4 = true ∧ ∀ j, e.memByte j = d.memByte j) ∧
      (r.enable = false → r.held = [] → r.retq = [] → d.rings.any (·.2.st == .error) = false →
        Completes (.ringEnableSet who fn) s fun e =>
          e.ring fn = { r with enable := true, st := .active } ∧ (∀ k, k ≠ fn.val → e.ring k = d.ring k) ∧ e.flt.live.getLsbD 4 = false ∧
          e = { d with rings := e.rings, flt := e.flt }) ∧
      (r.enable = true → r.wait = .nothing →
        Completes (.ringEnableClear who fn) s fun e =>
          e.ring fn = { r with enable := false, st := .disabled } ∧ (∀ k, k ≠ fn.val → e.ring k = d.ring k) ∧ ∀ j, e.memByte j = d.memByte j) ∧
      (r.held = [] → r.retq = [] →
        exec (.ringCqHeadWrite who fn v) s = .next { s with dev := d.putRing fn { r with cqHead := v, v2pending := false } }) ∧
      (∀ c, r.held = [c] → r.retq = [] → r.enable = true → r.st = .active → r.v2due = none → r.coalesce = 0 → (r.cqTail - v).toNat < 2 ^ m →
        Completes (.ringCqHeadWrite who fn v) s fun e =>
          e.ring fn = { r with cqHead := v, held := [], cqTail := r.cqTail + 1, v2pending := true } ∧
          (∃ l, e.out = d.out ++ OutEv.host (base + r.cqTail.toNat % 2 ^ m * 32) (c.bytes r.cqTail.toNat m) :: l) ∧ ∀ j, e.memByte j = d.memByte j)) ∧
    (∀ due, r.v2due = some due → due ≤ d.ctl.ticks → d.hub.linkUp = true → (d.hub.msix.get 1 (fn.val * 128 + 11)).getLsbD 0 = false →
      exec (.vector2CoalesceExpiry fn) s =
        .next { s with dev := { d.putRing fn { r with v2due := none, v2pending := true } with out := d.out ++ [.msix fn 2] } })

/-- The entries of a ring (R93, R95 to R101): the slot at the head is read for the ring whose turn it is; a no-operation, a post and an unknown kind retire at once,
with their completion entry in the completion ring; a program waits for its image, and a failed read of that retires it and is reported through AER on the PF. The
turn of one entry, and the AER bits, are the model's choices (log entries 50 and 14). -/
def Obligations.SubmissionEntries : Prop :=
  ∀ (s : State) (fn : Fin 64) (b : List Byte), b.length = 64 →
    let d := s.dev
    let r := d.ring fn
    let m := max 4 (min 12 r.cqLog)
    let base := r.cqBaseLo.toNat + r.cqBaseHi.toNat * 2 ^ 32
    let slot : OutEv := .hostRead (r.sqBaseLo.toNat + r.sqBaseHi.toNat * 2 ^ 32 + r.sqHead.toNat % 2 ^ max 4 (min 12 r.sqLog) * 64) 64
    let done (read : OutEv) (kind status : Nat) (e : Dev) : Prop :=
      let c : Comp := ⟨status, kind, 0xFFFF, fieldLE b 4 4, r.sqHead.toNat, 0, d.upNs⟩
      (e.ring fn).sqHead = r.sqHead + 1 ∧ (e.ring fn).wait = .nothing ∧ (e.ring fn).cqTail = r.cqTail + 1 ∧
      (∃ l, e.out = d.out ++ read :: OutEv.host (base + r.cqTail.toNat % 2 ^ m * 32) (c.bytes r.cqTail.toNat m) :: l) ∧
      (∀ k, k ≠ fn.val → e.ring k = d.ring k) ∧ (∀ k, e.thread k = d.thread k) ∧ ∀ j, e.memByte j = d.memByte j
    let room := r.held = [] ∧ r.retq = [] ∧ (r.cqTail - r.cqHead).toNat < 2 ^ m
    (d.nextServed ≠ some fn.val → exec (.sqEntryFetch fn b) s = .next s) ∧
    (d.nextServed = some fn.val → room →
      (byteAt b 0 = 0 → Completes (.sqEntryFetch fn b) s fun e => done slot 0 0x00 e ∧ e.hub.turn = fn) ∧
      (2 < byteAt b 0 → Completes (.sqEntryFetch fn b) s (done slot (byteAt b 0) 0x04)) ∧
      (byteAt b 0 = 1 → badProgram b = true → Completes (.sqEntryFetch fn b) s (done slot 1 0x04)) ∧
      (byteAt b 0 = 1 → badProgram b = false → exec (.sqEntryFetch fn b) s =
        .next { s with dev := { d with hub := { d.hub with turn := fn }, out := d.out ++ [slot] }.putRing fn { r with wait := .program b } }) ∧
      (byteAt b 0 = 2 →
        let u := fieldLE b 8 2
        (4095 < u ∨ (d.thread u).st = .free ∨ (d.thread u).fn ≠ fn → Completes (.sqEntryFetch fn b) s (done slot 2 0x05)) ∧
        (u ≤ 4095 → (d.thread u).st = .draining → (d.thread u).fn = fn → Completes (.sqEntryFetch fn b) s (done slot 2 0x00)) ∧
        (u ≤ 4095 → (d.thread u).live = true → (d.thread u).fn = fn → d.postRoom u = true →
          Completes (.sqEntryFetch fn b) s fun e => done slot 2 0x00 e ∧ e.dsp = (d.enqueuePost u (BitVec.ofNat 32 (fieldLE b 0x10 4))).dsp))) ∧
    (r.wait = .program b → d.mayFetch fn = true → room → d.freeProgram ≠ none → ∀ f : ImageFail,
      Completes (.programImageReadFail fn f) s fun e => done (.hostRead (fieldLE b 8 8) (fieldLE b 0x10 4)) 1 (if f = .timeout then 0x0A else 0x04) e ∧
        (e.hub.aer.get 0 0).getLsbD (aerBit f) = true)

/-- A program starts (R98, R126, R129, R167, R169, R672): the lowest free thread of those for programs takes the entry's parameters, and is READY or runs. With a
core of its set idle and with a free slot, its image stands there, followed by zeros, and the rest of every local memory is as before. -/
def Obligations.ProgramStarts : Prop :=
  ∀ (s : State) (fn : Fin 64) (b image : List Byte) (t : Nat),
    let d := s.dev
    let r := d.ring fn
    let x := newThread fn r.sqHead.toNat (d.dsp.starts + 1) b
    let n := fieldLE b 0x10 4
    r.wait = .program b → d.mayFetch fn = true → badProgram b = false → 256 ≤ t → t < 4096 → (d.thread t).st = .free →
      (∀ k, 256 ≤ k → k < t → (d.thread k).st ≠ .free) →
      (Completes (.programStart fn image) s fun e =>
        let y := e.thread t
        (∀ i, i < 4 → y.gpr (i + 1) = BitVec.ofNat 64 (fieldLE b (0x20 + 8 * i) 8)) ∧ (∀ k, 4 < k → y.gpr k = 0) ∧ y.pc = BitVec.ofNat 64 (fieldLE b 0x14 4) ∧
        y.fn = fn ∧ y.firmware = false ∧ y.prio = byteAt b 1 ∧ y.flags = 0 ∧ y.wt = false ∧ y.cas = false ∧ y.hold = .nothing ∧ (y.st = .ready ∨ y.st = .running) ∧
        y.affinity = BitVec.ofNat 64 (fieldLE b 0x18 8) ∧ y.tileB = decide (fieldLE b 2 2 % 2 = 1) ∧
        y.origin = some (fn.val, fieldLE b 4 4, r.sqHead.toNat) ∧
        e.ring fn = { r with wait := .nothing, sqHead := r.sqHead + 1 } ∧ (∀ k, k ≠ fn.val → e.ring k = d.ring k) ∧
        e.out = d.out ++ [.hostRead (fieldLE b 8 8) n]) ∧
      (∀ c slot, x.allows c = true → (∀ k, k < c → x.allows k = false) → d.coreBusy c = false → d.freeSlot c = some slot →
        Completes (.programStart fn image) s fun e =>
          let seg := c * 0x40000 + (slot + 1) * 0x10000
          (e.thread t).st = .ready ∧ (e.thread t).home = c ∧ (e.thread t).slot = some slot ∧
          (∀ i, i < 0x10000 → Tab.get 0 e.loc (seg + i) = if i < n then image.getD i 0 else 0) ∧
          (∀ j, j < seg ∨ seg + 0x10000 ≤ j → Tab.get 0 e.loc j = Tab.get 0 d.loc j) ∧ (∀ k, k ≠ t → e.thread k = d.thread k) ∧
          e = { d with thr := e.thr, rings := e.rings, loc := e.loc, locErr := e.locErr, dsp := e.dsp, out := e.out })

/-- The hub's requests (R89, R113 to R116): REQ is the PF's to set; with the link up and the PF's Bus Master Enable set (bit 2 of its Command register, the model's choice:
log entry 14), the block goes to the address given, with the count one higher; an owner is set unless the
object is in use, does not exist, or the function does not. -/
def Obligations.HubRequests : Prop :=
  ∀ (s : State) (who : Requester) (v : BitVec 32),
    let d := s.dev
    let h := d.hub
    let fn := v.toNat % 64
    (exec (.hubResyncReqWrite .pf) s = .next { s with dev := { d with hub := { h with req := true } } }) ∧
    (who ≠ .pf → exec (.hubResyncReqWrite who) s = .next s ∧ exec (.hubOwnFnWrite who v) s = .next s) ∧
    (h.req = true → h.linkUp = true → (h.cmd.get 0 0).getLsbD 2 = true → d.ctl.pwrOk = true → d.ctl.perstN = true → d.flt.live.getLsbD 0 = false →
      (Completes (.summaryBlockWrite true) s fun e =>
        (∃ rest l, e.out = d.out ++ OutEv.host (h.addrLo.toNat + h.addrHi.toNat * 2 ^ 32) (toLE 2 0x4B47 ++ toLE 2 1 ++ toLE 1 d.state ++ toLE 1 0xB0 ++ zeros 2 ++
          toLE 4 d.trust.bootCount ++ toLE 4 ((h.seq + 1) % 65536) ++ toLE 8 d.upNs ++ toLE 8 d.media ++ rest) :: l) ∧
        e.hub = { h with seq := (h.seq + 1) % 65536, req := false, done := true, pba := e.hub.pba } ∧ e = { d with hub := e.hub, out := e.out }) ∧
      exec (.summaryBlockWrite false) s = .next { s with dev := { d with hub := { h with seq := (h.seq + 1) % 65536, req := false, err := true } } }) ∧
    (h.ownKind = 3 → h.ownIdx ≤ 511 → fn ≤ h.numVfs →
      Completes (.hubOwnFnWrite .pf v) s fun e =>
        e.ownerOf 3 h.ownIdx = fn ∧ (∀ k, k ≠ 3 * 8192 + h.ownIdx → e.hub.owner.get 0 k = h.owner.get 0 k) ∧ e = { d with hub := { h with owner := e.hub.owner } }) ∧
    (h.numVfs < fn ∨ (h.ownKind = 0 ∧ (d.channel h.ownIdx).held = true) ∨ (h.ownKind = 0 ∧ 511 < h.ownIdx) ∨ (h.ownKind = 2 ∧ 127 < h.ownIdx) ∨ (h.ownKind = 3 ∧ 511 < h.ownIdx) →
      exec (.hubOwnFnWrite .pf v) s = .next { s with dev := { d with hub := { h with ownErr := true } } })

/-- Host accesses (R86, R87, R106, R107, R646, R647, R650, R673): a register write without all byte enables, or to BAR0 by a VF, does nothing; one to a ring slice is
that slice's own command; a configuration register of a ring keeps its value while ENABLE is 1; BAR4 reaches device memory byte by byte; a core
window shows a word of local memory. -/
def Obligations.HostAccesses : Prop :=
  ∀ (s : State) (fn : Fin 64) (n : Fin 64) (off : BitVec 26) (v : BitVec 32) (be : BitVec 4) (sp : RegSpace) (addr : BitVec 36) (data : List Byte)
    (en : List Bool) (c : Fin 128) (o : BitVec 18),
    let d := s.dev
    let h := d.hub
    let slice (k : Nat) : BitVec 26 := BitVec.ofNat 26 (fn * 0x4000 + k)
    let word := c.val * 0x40000 + o.toNat / 4 * 4
    (be ≠ 15 → exec (.registerWrite .pf sp off v be) s = .next s) ∧ (exec (.registerWrite (.vf n) .bar0 off v 15) s = .next s) ∧
    (exec (.registerWrite .pf .bar2 (slice 0x18) v 15) s = exec (.ringSqTailWrite .pf fn v) s) ∧
    (exec (.registerWrite .pf .bar2 (slice 0x20) v 15) s = exec (.ringCqHeadWrite .pf fn v) s) ∧
    (v.getLsbD 0 = true → exec (.registerWrite .pf .bar2 (slice 0x14) v 15) s = exec (.ringEnableSet .pf fn) s) ∧
    (v.getLsbD 0 = false → exec (.registerWrite .pf .bar2 (slice 0x14) v 15) s = exec (.ringEnableClear .pf fn) s) ∧
    ((d.ring fn).enable = true → ∀ k ∈ [0x00, 0x04, 0x08, 0x0C, 0x10],
      Completes (.registerWrite .pf .bar2 (slice k) v 15) s fun e => (∀ q, e.ring q = d.ring q) ∧ e = { d with rings := e.rings }) ∧
    ((d.ring fn).enable = false → Completes (.registerWrite .pf .bar2 (slice 0x00) v 15) s fun e =>
      e.ring fn = { d.ring fn with sqBaseLo := BitVec.ofNat 32 (v.toNat / 4096 * 4096) } ∧ (∀ k, k ≠ fn.val → e.ring k = d.ring k) ∧ e = { d with rings := e.rings }) ∧
    (h.req = false → exec (.registerWrite .pf .bar0 0x18 v 15) s = .next { s with dev := { d with hub := { h with addrHi := v } } }) ∧
    (h.req = true → exec (.registerWrite .pf .bar0 0x18 v 15) s = .next s) ∧
    (exec (.registerWrite .pf .bar0 0x400014 v 15) s = .next { s with dev := { d with dsp := { d.dsp with sliceUs := v.toNat % 65536 } } }) ∧
    (d.memDead = false → data.length = en.length → addr.toNat + data.length ≤ d.capacity →
      (Completes (.hostBar4Access true addr data en) s fun e =>
        (∀ i, i < data.length → e.memByte (addr.toNat + i) = if en.getD i false then data.getD i 0 else d.memByte (addr.toNat + i)) ∧
        (∀ j, j < addr.toNat ∨ addr.toNat + data.length ≤ j → e.memByte j = d.memByte j) ∧ e = { d with mem := e.mem, poison := e.poison }) ∧
      exec (.hostBar4Access false addr data en) s =
        .next { s with dev := { d with out := d.out ++ [.readData ((List.range data.length).map fun i => d.memByte (addr.toNat + i))] } }) ∧
    (word / 8 ∉ d.locErr →
      exec (.coreWindowRead c o) s = .next { s with dev := { d with out := d.out ++ [.readData ((List.range 4).map fun i => Tab.get 0 d.loc (word + i))] } })

/-! ## Fabric, capacity and cadence (chapter 2) -/

/-- Admission and the capacity query (R63 to R72, Table 2.6): ADMIT books a loaded channel on its pipes or refuses it, RELEASE gives the booking back, and QUERY writes the
record of the bookings where RESULT_ADDR says, with no booking changed. -/
def Obligations.AdmissionAndQuery : Prop :=
  (∀ (s : State) (x : Desc) (e : Dev),
     let n := x.get 0x20 2
     let c := e.channel n
     let ps := (List.range (x.get 0x24 1)).map fun i => x.get (0x28 + i) 1
     let k := ps.length
     let r := c.rowCount
     let q := c.cost
     let rows := (List.range k).map fun m => r / k + if m < r % k then 1 else 0
     let shares := rows.map fun m => ceilDiv (q.1 * m) (q.2 * r)
     let over_ := 12000000 * q.2 < q.1 ∨ ∃ z ∈ shares, 3000000 < z
     let full := x.get 0x22 1 = 0 ∧ ((∃ z ∈ ps.zip shares, 3000000 < e.booked z.1 true + z.2) ∨ ∃ p ∈ ps, e.pipeShed p = true)
     (s.dev.Takes 16 1 admitSpec x e →
       (c.st ≠ .loaded → exec .fabricAdmit s = .next { s with dev := e.complete x 0x06 0 }) ∧
       (c.st = .loaded → badAdmit x = true → exec .fabricAdmit s = .next { s with dev := e.complete x 0x04 0 }) ∧
       (c.st = .loaded → badAdmit x = false → over_ ∨ full → exec .fabricAdmit s = .next { s with dev := e.complete x 0x02 0 }) ∧
       (c.st = .loaded → badAdmit x = false → ¬ over_ → ¬ full →
         Completes .fabricAdmit s fun d =>
           (d.channel n).st = .admitted ∧ (d.channel n).pipes = ps ∧ (d.channel n).rows = rows ∧ (d.channel n).shares = shares ∧
           (∀ j, j ≠ n → d.channel j = e.channel j) ∧ d = { e with chan := d.chan, thr := d.thr, dsp := d.dsp, mem := d.mem, poison := d.poison })) ∧
     (s.dev.Takes 16 2 releaseSpec x e →
       (c.started = true → exec .fabricRelease s = .next { s with dev := e.complete x 0x06 0 }) ∧
       (c.st = .admitted → c.startPend = false →
         exec .fabricRelease s = .next { s with dev := (e.putChannel n { c with st := .loaded, pipes := [], rows := [], shares := [] }).complete x 0x00 0 }))) ∧
  (∀ (s : State) (x : Desc) (e : Dev), s.dev.Takes 16 3 querySpec x e →
     let a := x.get 0x30 8
     (a = 0 → exec .fabricQuery s = .next { s with dev := e.complete x 0x00 0 }) ∧
     (a ≠ 0 → (x.statusAddr + 16 ≤ a ∨ a + 0x120 ≤ x.statusAddr) →
       Completes .fabricQuery s fun d =>
         (∀ p i, p < 16 → i < 4 →
           d.memByte (a + 16 * p + i) = BitVec.ofNat 8 (e.booked p true / 256 ^ i) ∧ d.memByte (a + 16 * p + 4 + i) = BitVec.ofNat 8 (e.booked p false / 256 ^ i) ∧
           d.memByte (a + 16 * p + 8 + i) = BitVec.ofNat 8 (e.fab.surplus.get 0 p / 256 ^ i)) ∧
         (∀ p i, p < 4 → i < 4 → d.memByte (a + 0x100 + 4 * p + i) = BitVec.ofNat 8 (e.decBooked p / 256 ^ i) ∧
           d.memByte (a + 0x110 + 4 * p + i) = BitVec.ofNat 8 (e.mfBooked p / 256 ^ i)) ∧
         (∀ j, (j < a ∨ a + 0x120 ≤ j) → (j < x.statusAddr ∨ x.statusAddr + 16 ≤ j) → d.memByte j = e.memByte j) ∧
         d = { e with thr := d.thr, dsp := d.dsp, mem := d.mem, poison := d.poison }))

/-- A cadence window (R51, R75): each powered island's count joins its last 64 windows, its run of short windows grows or ends, and line 8 says whether an island
is short. An island that is powered down has no window (R641). -/
def Obligations.CadenceWindows : Prop :=
  ∀ (s : State) (counts : List Nat), counts.length = 32 →
    let d := s.dev
    Completes (.cadenceWindow counts) s fun e =>
      (∀ n, n < 32 → d.unpowered n = false →
        e.fab.windows.get [] n = (counts.getD n 0 :: d.fab.windows.get [] n).take 64 ∧
        e.fab.shortRun.get 0 n = if counts.getD n 0 < floorOf n then d.fab.shortRun.get 0 n + 1 else 0) ∧
      (∀ n, n < 32 → d.unpowered n = true → e.fab.windows.get [] n = [] ∧ e.fab.shortRun.get 0 n = 0) ∧
      (e.flt.live.getLsbD 8 = true ↔ ∃ n, n < 32 ∧ 16 ≤ e.fab.shortRun.get 0 n) ∧
      e.fab.setMv = d.fab.setMv ∧ (∀ k, e.thread k = d.thread k) ∧ (∀ k, e.channel k = d.channel k) ∧ ∀ j, e.memByte j = d.memByte j

/-- A control cycle that is due (R53 to R60, Table 2.1), with temperatures in range, the bus acknowledged, no island short and power on: the set-point goes up by 5 mV, to 850 at
most, after a thermal event, below the bound or while an island is slow; down by 5 mV when every island is fast and the bound leaves room; the surplus
is computed; a change is written to the regulator. An island's channel that was shed for lack of cadence comes back (R79). The means that are compared, and the read-back after the write, are the model's choices (log entry 49). -/
def Obligations.CadenceControl : Prop :=
  ∀ (s : State) (temps : List Int) (avs : AvsReply) (ch : Fin 512),
    let d := s.dev
    let v := d.fab.setMv
    let b := (temps.map fun t : Int => if t < -20 then 720 else if t < 20 then 670 else if t ≤ 85 then 620 else 650).foldl max 0
    let slow := ∃ n, n < 32 ∧ d.cadMean n * 100 < 103 * floorOf n
    let fast := ∀ n, n < 32 → 106 * floorOf n ≤ d.cadMean n * 100
    (∀ z, temps.length = 32 → d.fab.lastCycle = some z → d.ctl.ticks < z + 30000 → exec (.cadenceControlCycle temps avs) s = .next s) ∧
    (temps.length = 32 → (∀ z, d.fab.lastCycle = some z → z + 30000 ≤ d.ctl.ticks) → (∀ t ∈ temps, -55 ≤ t ∧ t ≤ 125) → d.ctl.power = 0 → d.flt.live.getLsbD 10 = false → d.fab.nackRun = 0 → v ≤ 850 →
      avs.writeAck = true → avs.readAck = true → (∀ n, n < 32 → d.fab.shortRun.get 0 n < 16) →
      ∀ w, ((d.flt.status.getLsbD 9 = true ∨ v < b ∨ slow) → w = min 850 (v + 5)) →
        (d.flt.status.getLsbD 9 = false → b ≤ v → fast → ¬ slow → w = if b + 5 ≤ v ∧ 605 ≤ v then v - 5 else v) →
        (d.flt.status.getLsbD 9 = false → b ≤ v → ¬ fast → ¬ slow → w = v) → ((avs.readMv : Int) - w).natAbs ≤ 15 →
        Completes (.cadenceControlCycle temps avs) s fun e =>
          e.fab.setMv = w ∧ e.fab.lastCycle = some d.ctl.ticks ∧ e.out = (if w = v then d.out else d.out ++ [.avs w]) ∧ (∀ n, n < 32 → e.fab.temps.get 0 n = temps.getD n 0) ∧
          (∀ p, p < 16 → e.fab.surplus.get 0 p = min 1100 (3000 * d.cadMean p / floorOf p - 3000)) ∧ e.flt.live.getLsbD 9 = false ∧
          e = { d with fab := e.fab, flt := e.flt, out := e.out }) ∧
    (let c := d.channel ch;
      d.fab.shed = [(1, ch.val)] → d.flt.status.getLsbD 8 = false → (∀ p ∈ c.pipes, 103 * floorOf p ≤ d.cadMean p * 100) → d.linked ch = false →
        exec (.shedRestore ch) s =
          .next { s with dev := ({ d with fab := { d.fab with shed := [] } } : Dev).putChannel ch { c with shed := false, shedFrom := 0, keyDuty := true } })

/-! ## Capture (chapter 6) -/

/-- CAPTURE CONFIGURE (R205, R212): BUSY for an input that runs, then BAD_DESCRIPTOR, FORMAT, GEOMETRY and CAPACITY in that order, the field ranges of Table 6.4
among the first; else the input is STOPPED with an empty store and the descriptor as its configuration, and snoop objects on it have no input any more (R567). -/
def Obligations.CaptureConfiguration : Prop :=
  ∀ (s : State) (x : Desc) (e : Dev), s.dev.Takes 1 1 capConfigureSpec x e →
    let i := x.get 0x20 2
    let c := e.capIn i
    let idle := c.st = .unconfigured ∨ c.st = .stopped
    let ends (st : Nat) : Prop := exec .captureConfigure s = .next { s with dev := e.complete x st 0 }
    (¬ idle → ends 0x06) ∧
    (idle → (2 < x.get 0x22 1 ∨ 1 < x.get 0x23 1 ∨ x.get 0x28 2 % 2 ≠ 0 ∨ x.get 0x28 2 < 16 ∨ 7680 < x.get 0x28 2 ∨ x.get 0x2A 2 < 16 ∨ 4320 < x.get 0x2A 2 ∨
      x.get 0x3C 4 < 50000 ∨ 100000000 < x.get 0x3C 4 ∨ x.get 0x40 8 % 4096 ≠ 0 ∨ 10000 < x.get 0x7A 2) → ends 0x04) ∧
    (idle → capBadField x = false → capBadFormat x = true → ends 0x09) ∧
    (idle → capBadField x = false → capBadFormat x = false → capBadGeometry x = true → ends 0x08) ∧
    (idle → capBadField x = false → capBadFormat x = false → capBadGeometry x = false → e.capFull x = true → ends 0x02) ∧
    (idle → capBadField x = false → capBadFormat x = false → capBadGeometry x = false → e.capFull x = false → c.sdiLanes = [] → x.get 0x22 1 ≠ 1 →
      (∀ p ∈ e.pend, ¬ (p.unit = 1 ∧ p.obj = i)) →
      Completes .captureConfigure s fun d =>
        (d.capIn i).st = .stopped ∧ (d.capIn i).cfg = x.bytes ∧ (d.capIn i).rx = true ∧ (d.capIn i).slots = [] ∧ (d.capIn i).good = none ∧
        (d.capIn i).src = .slate ∧ (d.capIn i).subst = x.get 0x26 1 ∧ (d.capIn i).freeze = x.get 0x7C 4 ∧ (d.capIn i).slateAdr = x.get 0x48 8 ∧
        (d.capIn i).rasters = c.rasters ∧ (d.capIn i).lines = c.lines ∧ (∀ k, k ≠ i → d.capIn k = e.capIn k) ∧
        d = { e.cutTaps 1 i with cap := d.cap, thr := d.thr, dsp := d.dsp, mem := d.mem, poison := d.poison })

/-- CAPTURE START, STOP and SUBST (R161, R162, R210, R212, R642): BUSY for an unconfigured input and for a START while the device is dozing; else the descriptor waits
for an output tick, marked late when its time has passed, unless it is STRICT, which ends it with TIMEOUT. -/
def Obligations.CaptureStartStopSubst : Prop :=
  ∀ (s : State) (x : Desc) (e : Dev),
    ∀ p ∈ [ (Instr.captureStart, 2, capStartSpec), (.captureStop, 3, capStartSpec), (.captureSubst, 4, capSubstSpec) ], s.dev.Takes 1 p.2.1 p.2.2 x e →
      let i := x.get 0x20 2
      let c := e.capIn i
      let past := c.nextTick ≠ 0 ∧ x.eff ≤ c.mt (c.nextTick - 1)
      let may := c.st ≠ .unconfigured ∧ (p.2.1 = 2 → e.dozing = false) ∧ (p.2.1 = 4 → x.get 0x26 1 ≤ 1)
      let waits (late : Bool) : Prop := exec p.1 s = .next { s with dev := { e with pend := e.pend ++
        [{ d := x, unit := x.unit, op := x.op, obj := i, t := x.eff, late := late, since := e.ctl.ticks }] } }
      (c.st = .unconfigured ∨ (p.2.1 = 2 ∧ e.dozing = true) → exec p.1 s = .next { s with dev := e.complete x 0x06 0 }) ∧
      (c.st ≠ .unconfigured → p.2.1 = 4 → 1 < x.get 0x26 1 → exec p.1 s = .next { s with dev := e.complete x 0x04 0 }) ∧
      (may → x.eff ≠ 0 → past → x.strict = true → exec p.1 s = .next { s with dev := e.complete x 0x0A 0 }) ∧
      (may → x.eff ≠ 0 → past → x.strict = false → waits true) ∧ (may → x.eff ≠ 0 → ¬ past → waits false) ∧
      (may → x.eff = 0 → e.twinnedInput i = false → waits false)

/-- Reception (R190 to R193, R203, R204, R208, R209, R412): the first copy of a packet puts its samples into the slot of its stamp, in the store's 12 bits, and so does
an SDI line that every link carried well; a line is present once the runs that came cover it; a later copy is dropped, and counted beyond the skew; a packet that is not
addressed to its path changes nothing; a silent path goes down after 10 ms; a damaged or foreign ancillary message is counted, and a splice request becomes a key
picture; audio waits in its flow. -/
def Obligations.CaptureReception : Prop :=
  ∀ (s : State) (i : Fin 192) (g : LineSeg) (sl : Nat), s.dev.paired = false → s.dev.absent = [] →
    let d := s.dev
    let c := d.capIn i
    let a := c.storeAddr + sl * c.geom.slotSize + g.line * c.geom.pitch 0 + 2 * g.x
    let sample (j : Nat) : Nat := (g.y.getD j 0 % 2 ^ c.depth * 2 ^ (12 - c.depth)) % 4096
    let fits := g.cb = [] ∧ g.cr = [] ∧ g.line < c.height ∧ g.x + g.y.length ≤ c.width ∧ a + 2 * g.y.length ≤ d.capacity ∧ g.line ∉ (c.slotAt sl).lines
    let runs := (g.x, g.y.length) :: (c.slotAt sl).groups.get [] g.line
    let covered := (List.range c.width).all fun p => runs.any fun r => decide (r.1 ≤ p ∧ p < r.1 + r.2)
    let stored (e : Dev) : Prop :=
      (∀ j, j < g.y.length → e.memByte (a + 2 * j) = BitVec.ofNat 8 (sample j) ∧ e.memByte (a + 2 * j + 1) = BitVec.ofNat 8 (sample j / 256)) ∧
      (∀ k, k < a ∨ a + 2 * g.y.length ≤ k → e.memByte k = d.memByte k) ∧
      ((e.capIn i).slotAt sl).lines =
        (if covered then (c.slotAt sl).lines ++ [g.line] else (c.slotAt sl).lines) ∧
      (∀ k, k ≠ i.val → e.capIn k = d.capIn k) ∧ e = { d with cap := e.cap, mem := e.mem, poison := e.poison }
    (∀ pkt : VideoPkt, c.rx = true → c.kind = 0 → pkt.segs = [g] → pkt.fmtOk = true →
      (pkt.addr = c.pathAddr false → pkt.ts ∉ c.lastBad → c.seenAt.get 0 pkt.seq = 0 → c.holding (d.rtpStamp c pkt.ts) = some sl → (c.slotAt sl).key = pkt.ts → fits →
        Completes (.st2110PacketRx i false pkt) s fun e =>
          stored e ∧ (e.capIn i).seenAt.get 0 pkt.seq = d.ctl.ticks + 1 ∧ (e.capIn i).upA = true ∧ (e.capIn i).lastA = d.ctl.ticks ∧ (e.capIn i).upB = c.upB) ∧
      (∀ t, pkt.addr = c.pathAddr true → c.seenAt.get 0 pkt.seq = t + 1 → c.links = 2 →
        let late := if t + c.skewUs * 3000 < d.ctl.ticks then min 65535 (c.late + 1) else c.late
        exec (.st2110PacketRx i true pkt) s = .next { s with dev := d.putCapIn i { c with upB := true, lastB := d.ctl.ticks, late := late } }) ∧
      (∀ b : Bool, pkt.addr ≠ c.pathAddr b → exec (.st2110PacketRx i b pkt) s = .next s)) ∧
    (∀ ln : SdiLine, c.rx = true → c.kind = 1 → ln.first = false → ln.fmtOk = true → ln.seg = g → ln.crcOk = List.replicate c.links true →
      (∀ k ∈ c.sdiLanes, (d.groupAt k).stage = .active) → c.sdiSlot = some sl → fits → Completes (.sdiLineRx i ln) s stored) ∧
    (c.lastB + 30000000 ≤ d.ctl.ticks → exec (.pathDownTimeout i true) s = .next { s with dev := d.putCapIn i { c with upB := false } }) ∧
    (∀ pkt : AncPkt, c.rx = true → c.kind = 0 → c.get 0x74 2 ≠ 0 → c.hearsAnc pkt.addr = true → pkt.seq ∉ c.ancSeen → pkt.scte = true →
      (pkt.sumOk = false →
        exec (.ancPacketRx i pkt) s = .next { s with dev := d.putCapIn i { c with ancSeen := c.ancSeen ++ [pkt.seq], bad := min 65535 (c.bad + 1) } }) ∧
      (∀ o, pkt.sumOk = true → pkt.ops = [o] → o.opId ≠ 0x0101 →
        exec (.ancPacketRx i pkt) s = .next { s with dev := d.putCapIn i { c with ancSeen := c.ancSeen ++ [pkt.seq], ignored := min 65535 (c.ignored + 1) } }) ∧
      (∀ o n, pkt.sumOk = true → pkt.ops = [o] → o.opId = 0x0101 → o.kind = 1 → d.fedBy i = [n] → (d.channel n).spliceKey = true →
        (d.channel n).st = .running → d.carried (d.channel n).flow = none →
        Completes (.ancPacketRx i pkt) s fun e =>
          e.pend = d.pend ++ [{ unit := 4, op := 4, obj := n, t := d.rtpStamp c pkt.ts + o.preRoll * 1000000, internal := true, event := o.eventId, since := d.ctl.ticks }] ∧
          e.capIn i = { c with ancSeen := c.ancSeen ++ [pkt.seq] } ∧ e = { d with cap := e.cap, pend := e.pend })) ∧
    (∀ (pkt : AudioPkt) (k : Nat), d.audioFlows pkt = [k] →
      exec (.audioPacketRx pkt) s = .next { s with dev := d.modFlowAt k fun f => { f with audio := f.audio ++ [(d.audioTime pkt.ts, pkt.bytes)] } })

/-- Output ticks (R197, R200, R201, R203, R207): line 0 falls due and the tick opens with its candidate, or, with none, as a substitute that is counted; a missing
later line is concealed and counted; rows that show the slate are read once, when their line falls due (R202); the tick ends with the digest of what it presented, and
the next one is up. -/
def Obligations.CaptureTicks : Prop :=
  ∀ (s : State) (i : Fin 192), s.dev.paired = false → s.dev.pend = [] →
    let d := s.dev
    let c := d.capIn i
    (c.opened = false → c.st ≠ .unconfigured → c.st ≠ .stopped → 0 < c.height → c.dueTime c.tick 0 ≤ d.cadence →
      (∀ sl, c.candidate c.tick = some sl → 0 ∈ (c.slotAt sl).lines → (c.slotAt sl).bad = false →
        Completes (.lineDue i) s fun e =>
          (e.capIn i).st = .normal ∧ (e.capIn i).src = .slot sl ∧ (e.capIn i).opened = true ∧ (e.capIn i).nextLine = 1 ∧ (e.capIn i).run = 0 ∧
          (e.capIn i).cand = true ∧ (e.capIn i).rasters = c.rasters ∧ (∀ k, k ≠ i.val → e.capIn k = d.capIn k) ∧ e = { d with cap := e.cap }) ∧
      (c.candidate c.tick = none → c.everSeen = true → d.flt.latched.get 0 25 = 0 →
        Completes (.lineDue i) s fun e =>
          (e.capIn i).src = c.substitute ∧ ((e.capIn i).st = .freeze ∨ (e.capIn i).st = .slate) ∧ (e.capIn i).run = c.run + 1 ∧
          (e.capIn i).rasters = min (2 ^ 24 - 1) (c.rasters + 1) ∧ (e.capIn i).opened = true ∧ e.flt.status.getLsbD 25 = true ∧
          (∀ k, k ≠ i.val → e.capIn k = d.capIn k) ∧ ∀ j, e.memByte j = d.memByte j) ∧
      (c.candidate c.tick = none → c.everSeen = false →
        Completes (.lineDue i) s fun e => (e.capIn i).st = .waiting ∧ (e.capIn i).src = .slate ∧ (e.capIn i).rasters = c.rasters ∧ e = { d with cap := e.cap })) ∧
    (∀ sl, c.opened = true → c.st ≠ .unconfigured → c.cand = true → c.nextLine < c.height → c.dueTime c.tick c.nextLine ≤ d.cadence →
      c.candidate c.tick = some sl → c.nextLine ∉ (c.slotAt sl).lines → c.conceal ≠ [] →
        let y : Cap := { c with nextLine := c.nextLine + 1, conceal := c.conceal ++ [c.nextLine], lines := min (2 ^ 32 - 1) (c.lines + 1) }
        Completes (.lineDue i) s fun e =>
          { e.capIn i with slateRows := c.slateRows } = y ∧ (∀ k, k ≠ i.val → e.capIn k = d.capIn k) ∧ e = { d with cap := e.cap }) ∧
    (c.opened = true → c.st ≠ .unconfigured → (c.cand = true → c.height ≤ c.nextLine) →
      Completes (.captureOutputTick i) s fun e =>
        (e.capIn i).tick = c.tick + 1 ∧ (e.capIn i).opened = false ∧ (e.capIn i).nextLine = 0 ∧ (e.capIn i).digest = crc64 ((d.fixAll i).presentBytes i) ∧
        (∀ sl, c.src = .slot sl → (e.capIn i).slot = sl) ∧ (c.src = .slate → (e.capIn i).slot = c.slot) ∧
        (∀ k, k ≠ i.val → e.capIn k = d.capIn k) ∧
        e = { d with cap := e.cap, chk := (d.tapUnit 1 i (some (c.mt c.tick)) ((d.fixAll i).presentBytes i) false).chk })

/-! ## The compositor (chapter 7) -/

/-- The compositor's descriptors (R219, R235, R243 to R245, R642): the checks in their order, and what an accepted one leaves. SCENE_CONFIGURE gives the scene its
configuration and outputs; SCENE_START books the scene's cost; the others wait for a tick. -/
def Obligations.CompositorCommands : Prop :=
  ∀ (s : State) (x : Desc) (e : Dev),
    let q := x.sceneIx
    let c := e.sceneAt q
    let n := x.get 0x3A 1
    let cost := sceneCost c.width c.height c.num c.den
    let ended (i : Instr) (st : Nat) : Prop := exec i s = .next { s with dev := e.complete x st 0 }
    let held (i : Instr) (obj : Nat) : Prop :=
      exec i s = .next { s with dev := { e with pend := e.pend ++ [{ d := x, unit := x.unit, op := x.op, obj := obj, t := 0, since := e.ctl.ticks }] } }
    (s.dev.Takes 2 1 mfConfigureSpec x e →
      (c.running = true ∨ c.starting = true → ended .mfSceneConfigure 0x06) ∧
      (c.running = false → c.starting = false → (2 < x.get 0x23 1 ∨ x.get 0x24 2 % 2 ≠ 0 ∨ x.get 0x24 2 < 16 ∨ 7680 < x.get 0x24 2 ∨ n = 0 ∨ 8 < n ∨
        100000000 < x.get 0x30 4) → ended .mfSceneConfigure 0x04) ∧
      (c.running = false → c.starting = false → mfBadScene x = false → e.sceneRateBad q (x.get 0x28 4) (x.get 0x2C 4) = true → ended .mfSceneConfigure 0x09) ∧
      (c.running = false → c.starting = false → mfBadScene x = false → e.sceneRateBad q (x.get 0x28 4) (x.get 0x2C 4) = false →
        (∃ j, j < n ∧ badOutput (x.get 0x24 2) (x.get 0x26 2) (x.entry j) = true) → ended .mfSceneConfigure 0x08) ∧
      (c.running = false → c.starting = false → mfBadScene x = false → e.sceneRateBad q (x.get 0x28 4) (x.get 0x2C 4) = false →
        (∀ j, j < n → badOutput (x.get 0x24 2) (x.get 0x26 2) (x.entry j) = false) → (∀ p ∈ e.pend, p.unit ≠ 2) →
        Completes .mfSceneConfigure s fun d =>
          (d.sceneAt q).cfg = x.bytes ∧ (d.sceneAt q).running = false ∧ (∀ j, j < n → (d.sceneAt q).out j = x.entry j) ∧
          (∀ j, n ≤ j → (d.sceneAt q).out j = []) ∧ (d.sceneAt q).work = [] ∧ (∀ k, k ≠ q → d.sceneAt k = e.sceneAt k) ∧
          d = { e with scene := d.scene, thr := d.thr, dsp := d.dsp, mem := d.mem, poison := d.poison })) ∧
    (s.dev.Takes 2 2 mfStartSpec x e →
      (c.cfg = [] ∨ c.running = true ∨ c.starting = true ∨ e.dozing = true → ended .mfSceneStart 0x06) ∧
      (c.cfg ≠ [] → c.running = false → c.starting = false → e.dozing = false →
        (8000000 < e.mfBooked (q / 16) + cost → ended .mfSceneStart 0x02) ∧
        (e.mfBooked (q / 16) + cost ≤ 8000000 → x.eff = 0 → e.twinnedScene q = false →
          Completes .mfSceneStart s fun d =>
            d.pend = e.pend ++ [{ d := x, unit := x.unit, op := x.op, obj := q, t := 0, since := e.ctl.ticks }] ∧ d.sceneAt q = { c with starting := true } ∧
            (d.clusterAt (q / 16)).booked.get 0 q = cost ∧ (∀ k, k ≠ q → d.sceneAt k = e.sceneAt k) ∧ (∀ k, k ≠ q / 16 → d.clusterAt k = e.clusterAt k) ∧
            d = { e with pend := d.pend, scene := d.scene, cluster := d.cluster }))) ∧
    (s.dev.Takes 2 3 mfStartSpec x e →
      (c.cfg = [] ∨ e.outputRead q none = true → ended .mfSceneStop 0x06) ∧
      (c.cfg ≠ [] → e.outputRead q none = false → x.eff = 0 → e.twinnedScene q = false → held .mfSceneStop q)) ∧
    (s.dev.Takes 2 4 mfLayerSpec x e →
      let l := x.layerIx
      let y := e.sceneAt (l / 8)
      (y.cfg = [] ∨ 8 ≤ (e.pend.filter fun p => p.unit == 2 && p.op == 4 && p.obj == l).length → ended .mfLayerCommit 0x06) ∧
      (y.cfg ≠ [] → (e.pend.filter fun p => p.unit == 2 && p.op == 4 && p.obj == l).length < 8 →
        (1 < x.get 0x23 1 → ended .mfLayerCommit 0x04) ∧
        (x.get 0x23 1 = 1 → (1 < x.get 0x24 1 ∨ 7 < x.get 0x25 1 ∨ 1023 < x.get 0x44 2 ∨ 4 < x.get 0x46 1) → ended .mfLayerCommit 0x04) ∧
        (x.get 0x23 1 = 0 → x.eff = 0 → e.twinnedScene (l / 8) = false → held .mfLayerCommit l))) ∧
    (s.dev.Takes 2 5 mfOutputSpec x e →
      let j := x.get 0x23 1
      (c.cfg = [] ∨ e.outputRead q (some j) = true → ended .mfOutputCommit 0x06) ∧
      (c.cfg ≠ [] → e.outputRead q (some j) = false →
        (c.outCount ≤ j → ended .mfOutputCommit 0x04) ∧
        (j < c.outCount → badEntry (x.entry 0) = false → badOutput c.width c.height (x.entry 0) = true → ended .mfOutputCommit 0x08) ∧
        (j < c.outCount → badEntry (x.entry 0) = false → badOutput c.width c.height (x.entry 0) = false → x.eff = 0 → e.twinnedScene q = false →
          held .mfOutputCommit (q * 8 + j))))

/-- Composition (R228, R235, R236, R238 to R242): once its time has come a tick applies the SCENE_START that waits for it, and begins a raster of a running scene, which is lost if it begins while the island is in reset; a
row with no enabled layer is the background, and goes to an output of the scene's size as it is; a row that is 50 us late is taken from the slot
before, and counted. -/
def Obligations.Composition : Prop :=
  ∀ (s : State) (cl : Fin 4) (sc : Fin 16),
    let d := s.dev
    let q := cl.val * 16 + sc.val
    let c := d.sceneAt q
    (c.cfg ≠ [] → c.mt c.tick ≤ d.cadence →
      (d.pend = [] → c.running = true →
        Completes (.sceneTick cl sc) s fun e =>
          (e.sceneAt q).tick = c.tick + 1 ∧ (e.sceneAt q).ticks = c.ticks + 1 ∧
          (e.sceneAt q).work = (c.work.filter fun w => d.rasterOpen c w) ++
            [{ tick := c.tick, layers := (List.range 8).map fun l => d.layerAt (q * 8 + l), outs := c.outs, dead := d.ctl.islBusy == some (20 + cl.val) }] ∧
          (∀ k, k ≠ q → e.sceneAt k = d.sceneAt k) ∧ e = { d with scene := e.scene }) ∧
      (∀ p, d.pend = [p] → p.unit = 2 → p.op = 2 → p.obj = q → p.due (c.mt c.tick) = true → c.running = false → d.scalersUsed cl + c.outScalers ≤ 32 →
        Completes (.sceneTick cl sc) s fun e =>
          (e.sceneAt q).running = true ∧ (e.sceneAt q).starting = false ∧ (e.sceneAt q).tick = c.tick + 1 ∧ (e.sceneAt q).ticks = 1 ∧ e.pend = [] ∧
          (e.sceneAt q).current.tick = c.tick ∧ (∀ k, k ≠ q → e.sceneAt k = d.sceneAt k) ∧
          e = { d with scene := e.scene, pend := [], thr := e.thr, dsp := e.dsp, mem := e.mem, poison := e.poison })) ∧
    (∀ w o, c.work = [w] → w.dead = false → w.rows.length < c.height → d.ctl.islBusy ≠ some (20 + cl.val) → (∀ l ∈ w.layers, l.enabled = false) → c.outCount = 1 →
      w.outs.get [] 0 = o → outOn o = true → outW o = c.width → outH o = c.height → outHalf o = false → (0, w.rows.length) ∉ w.lost →
      c.get 0x3C 2 = 0xFFFF →
      let y := w.rows.length
      let a := outSlot o w.tick + y * (outGeom o).pitch 0
      a + 2 * c.width ≤ d.capacity →
        Completes (.sceneRowComplete cl sc) s fun e =>
          (e.sceneAt q).work = [{ w with rows := w.rows ++ [List.replicate c.width (c.get 0x34 2, c.get 0x36 2, c.get 0x38 2)] }] ∧
          (∀ x, x < c.width → e.memByte (a + 2 * x) = BitVec.ofNat 8 (c.get 0x34 2 % 4096) ∧ e.memByte (a + 2 * x + 1) = BitVec.ofNat 8 (c.get 0x34 2 % 4096 / 256)) ∧
          (∀ k, k ≠ q → e.sceneAt k = d.sceneAt k) ∧ e = { d with scene := e.scene, mem := e.mem, poison := e.poison }) ∧
    (∀ (w : Raster) (o : List Byte) (j : Fin 8) (v : Fin 4320), c.work = [w] → w.outs.get [] j = o → outOn o = true → w.rows.length ≤ c.outLast o v →
      (j.val, v.val) ∉ w.lost → v.val < outH o → outHalf o = false → d.outBound c w o v + 50000 ≤ d.cadence → d.flt.latched.get 0 28 = 0 →
      let g := outGeom o
      outSlot o w.tick + v.val * g.pitch 0 + 2 * outW o ≤ d.capacity →
        Completes (.outputRowUnderrun cl sc j v) s fun e =>
          (e.sceneAt q).work = [{ w with lost := w.lost ++ [(j.val, v.val)] }] ∧ (e.clusterAt cl).underrun = min (2 ^ 32 - 1) ((d.clusterAt cl).underrun + 1) ∧
          e.flt.status.getLsbD 28 = true ∧ e.storeRow (outSlot o w.tick) g 0 v = d.storeRow (outSlot o (w.tick + 3)) g 0 v)

/-! ## Encoder pipes and channels (chapters 9 and 10) -/

/-- The ENC unit's descriptors (R279, R282, R284, R285, R331, R333): the checks in their order, and what an accepted one leaves: LOAD a LOADED channel with a new context, START
a started one with its black key picture in memory, START, STOP, KEYPIC and RATE a descriptor that waits for its picture or tick, STATS its record, PARK a parked pipe, or one that will be back. -/
def Obligations.EncoderCommands : Prop :=
  ∀ (s : State) (x : Desc) (e : Dev),
    let n := x.get 0x20 2
    let c := e.channel n
    let ended (i : Instr) (st : Nat) : Prop := exec i s = .next { s with dev := e.complete x st 0 }
    let waiting : Pend := { d := x, unit := x.unit, op := x.op, obj := n, t := 0, since := e.ctl.ticks }
    (s.dev.Takes 4 1 encLoadSpec x e →
      let y := x.loaded
      (c.held = true → ended .encLoad 0x06) ∧
      (c.held = false → y.badFields || y.badAreas || y.rcBad true → ended .encLoad 0x04) ∧
      (c.held = false → (y.badFields || y.badAreas || y.rcBad true) = false →
        (y.badFormat = true → ended .encLoad 0x09) ∧ (y.badFormat = false → y.badGeometry = true → ended .encLoad 0x08) ∧
        (y.badFormat = false → y.badGeometry = false → (∀ p ∈ e.pend, ¬ (p.unit = 4 ∧ p.obj = n)) → Completes .encLoad s fun d =>
          d.channel n = { c with st := .loaded, ctx := x.bytes, rc := (x.bytes.drop 0x100).take 256, esPtr := 0, records := [] } ∧
          (∀ k, k ≠ n → d.channel k = e.channel k) ∧ d = { e.cutTaps 0 n with chan := d.chan, thr := d.thr, dsp := d.dsp, mem := d.mem, poison := d.poison }))) ∧
    (s.dev.Takes 4 2 (encChanSpec [(0x22, 30)]) x e →
      let q := e.sceneAt c.sceneIx
      let o := q.out c.outIx
      let parked := ∃ p ∈ c.pipes, (e.pipeAt p).parked = true
      (c.st ≠ .admitted ∨ c.startPend = true ∨ e.dozing = true ∨ parked → ended .encStart 0x06) ∧
      (c.st = .admitted → c.startPend = false → e.dozing = false → ¬ parked →
        (q.cfg = [] ∨ q.running = false ∨ outOn o = false ∨ q.num * c.den ≠ c.num * q.den → ended .encStart 0x09) ∧
        (e.startFormat c = false →
          (c.width ≠ outW o ∨ c.height ≠ outH o → ended .encStart 0x08) ∧
          (c.width = outW o → c.height = outH o → e.startDelay c = true → ended .encStart 0x04) ∧
          (c.width = outW o → c.height = outH o → e.startDelay c = false → c.twin = 0 → x.eff = 0 →
            exec .encStart s = .next { s with dev := (({ e with pend := e.pend ++ [waiting] } : Dev).putChannel n { c with startPend := true }).putBlack n })))) ∧
    (s.dev.Takes 4 3 (encChanSpec [(0x22, 30)]) x e →
      (c.st ≠ .running → ended .encStop 0x06) ∧
      (c.st = .running → c.twin = 0 → x.eff = 0 → exec .encStop s = .next { s with dev := { e with pend := e.pend ++ [waiting] } })) ∧
    (s.dev.Takes 4 4 (encChanSpec [(0x23, 29)]) x e →
      (c.st ≠ .running → ended .encKeypic 0x06) ∧ (c.st = .running → 2 < x.get 0x22 1 → ended .encKeypic 0x04) ∧
      (c.st = .running → x.get 0x22 1 = 2 → c.codec = 0 → ended .encKeypic 0x09) ∧
      (c.st = .running → x.get 0x22 1 < 2 → c.twin = 0 → x.eff = 0 → exec .encKeypic s = .next { s with dev := { e with pend := e.pend ++ [waiting] } })) ∧
    (s.dev.Takes 4 5 encRateSpec x e →
      (c.st ≠ .running → ended .encRate 0x06) ∧
      (c.st = .running → (x.get 0x22 2 = 0 ∨ 7 < x.get 0x22 2) → ended .encRate 0x04) ∧
      (c.st = .running → rateFieldsBad x = false → ({ c with rc := applyRate c.rc x } : Chan).rcBad false = false → c.isXs = false →
        ({ c with rc := applyRate c.rc x } : Chan).rcGeometry = false → c.twin = 0 → x.eff = 0 →
        exec .encRate s = .next { s with dev := { e with pend := e.pend ++ [waiting] } })) ∧
    (s.dev.Takes 4 6 encStatsSpec x e →
      let a := x.get 0x28 8
      (a % 16 ≠ 0 → ended .encStats 0x04) ∧
      (a % 16 = 0 → (x.statusAddr + 16 ≤ a ∨ a + 128 ≤ x.statusAddr) → Completes .encStats s fun d =>
        (∀ i, i < 8 → d.memByte (a + i) = BitVec.ofNat 8 (c.pics / 256 ^ i) ∧ d.memByte (a + 8 + i) = BitVec.ofNat 8 (c.repeats / 256 ^ i) ∧
          d.memByte (a + 16 + i) = BitVec.ofNat 8 (c.misses / 256 ^ i) ∧ d.memByte (a + 24 + i) = BitVec.ofNat 8 (c.keys / 256 ^ i)) ∧
        (∀ j, (j < a ∨ a + 128 ≤ j) → (j < x.statusAddr ∨ x.statusAddr + 16 ≤ j) → d.memByte j = e.memByte j) ∧
        d = { e with thr := d.thr, dsp := d.dsp, mem := d.mem, poison := d.poison })) ∧
    (s.dev.Takes 4 7 encParkSpec x e →
      let p := x.get 0x20 1
      let on := x.get 0x21 1
      (1 < on → ended .encPark 0x04) ∧ (on = 1 → e.sharing p ≠ [] → ended .encPark 0x06) ∧ (on ≤ 1 → e.dozing = true → ended .encPark 0x06) ∧
      (on = 1 → e.dozing = false → e.sharing p = [] →
        exec .encPark s = .next { s with dev := (e.putPipeAt p { e.pipeAt p with parked := true }).complete x 0x00 0 }) ∧
      (on = 0 → e.dozing = false → (e.pipeAt p).unpark = none →
        exec .encPark s = .next { s with dev := e.putPipeAt p { e.pipeAt p with unpark := some x } }) ∧
      (∀ y, on = 0 → e.dozing = false → (e.pipeAt p).unpark = some y →
        exec .encPark s = .next { s with dev := (e.putPipeAt p { e.pipeAt p with unpark := some x }).complete y 0x00 0 })) ∧
    (∀ p : Fin 16, (s.dev.pipeAt p).unpark = some x →
      exec (.unparkComplete p) s = .next { s with dev := (s.dev.putPipeAt p { s.dev.pipeAt p with unpark := none, parked := false }).complete x 0x00 0 })

/-- Pictures (R276, R287 to R293, R299): a pipe counts each row it ends, and one that is out of service starts none; a picture that is not planned when it is due is
planned then, with its mini-GOP, and replaced by a repeat, which counts as a miss unless the channel is shed; a corrected memory error is counted, and an uncorrectable
one takes its pipe out of service until a test passes. -/
def Obligations.PipesAndDeadlines : Prop :=
  ∀ (s : State) (p : Fin 16) (ch : Fin 512),
    let d := s.dev
    let q := d.pipeAt p
    let c := d.channel ch
    (∀ cur, q.cur = some cur → Completes (.ctuRowBoundary p ()) s fun e => (e.pipeAt p).rows = (q.rows + 1) % 2 ^ 32) ∧
    (∀ n j r pic b, q.cur = some (n, 0, j, r) → d.pipeServes p = false → (d.channel n).flight = [pic] → pic.j = j → pic.bands = [b] → b.next = r → b.first = 0 →
      b.last + 1 = (d.channel n).rowCount → r < b.last → (d.channel n).latMode = 0 → pic.limit = none →
      Completes (.ctuRowBoundary p ()) s fun e =>
        (e.channel n).flight.map (fun z => z.bands.map (·.next)) = [[r + 1]] ∧ (e.pipeAt p).cur = none ∧ (∀ k, k ≠ n → e.channel k = d.channel k) ∧
        e = { d with chan := e.chan, pipe := e.pipe }) ∧
    (∀ k pic b, q.cur = none → d.pipeServes p = true → d.pick p = some k → k.pic.isSome = true → (d.channel k.ch).flight.find? (Pic.openFor k.mem) = some pic →
      pic.bands[k.mem]? = some b →
      Completes (.ctuRowBoundary p ()) s fun e =>
        (e.pipeAt p).cur = some (k.ch, k.mem, pic.j, b.next) ∧ (e.pipeAt p).lastCh = k.ch ∧ (e.pipeAt p).lastMem = k.mem ∧ (e.pipeAt p).rows = q.rows) ∧
    (d.cadence * (c.dueAt c.j).2 < (c.dueAt c.j).1 → c.flight = [] → ∀ j, exec (.pictureDeadline ch j) s = .next s) ∧
    (c.flight = [] → ∀ j, j ≠ c.j → exec (.pictureDeadline ch j) s = .next s) ∧
    (c.active = true → c.flight = [] → c.stopAt = none → d.paired = false → d.pend = [] → (c.dueAt c.j).1 ≤ d.cadence * (c.dueAt c.j).2 →
      Completes (.pictureDeadline ch c.j) s fun e =>
        (e.channel ch).j = c.j + (d.nextGop ch).length ∧ (e.channel ch).outNext = c.outNext + (d.nextGop ch).length) ∧
    (c.active = true → c.flight = [] → c.stopAt = none → d.paired = false → d.pend = [] → c.twin = 0 → c.cls ≠ 0 → c.depthG = 1 → c.mirrored = [] →
      (d.twinCh ch).phase ≠ 2 → c.shedFrom = 0 → (c.dueAt c.j).1 ≤ d.cadence * (c.dueAt c.j).2 →
      Completes (.pictureDeadline ch c.j) s fun e =>
        (e.channel ch).pics = (c.pics + 1) % 2 ^ 64 ∧ (e.channel ch).repeats = c.repeats + 1 ∧ (e.channel ch).misses = (if c.shed then c.misses else c.misses + 1) ∧
        (e.channel ch).j = c.j + 1 ∧ (e.channel ch).outNext = c.outNext + 1 ∧ (e.channel ch).lastMt = c.mt (c.k0 + c.outNext) ∧
        (e.channel ch).keys = c.keys ∧ (∀ k, k ≠ ch.val → e.channel k = d.channel k)) ∧
    (d.flt.latched.get 0 31 = 0 → d.flt.classOf 31 = 2 → d.fab.shed = [] →
      Completes (.epEcc ⟨p, false⟩) s fun e =>
        (e.pipeAt p).uncorrected = true ∧ (e.pipeAt p).out = true ∧ e.flt.status.getLsbD 31 = true ∧
        (∀ n, n ∈ d.sharing p → (d.channel n).active = true → (e.channel n).shed = true) ∧ ∀ j, e.memByte j = d.memByte j) ∧
    (exec (.epEcc ⟨p, true⟩) s = .next { s with dev := d.putPipeAt p { q with corrected := min 65535 (q.corrected + 1) } }) ∧
    (q.out = true → d.flt.status.getLsbD 31 = false →
      (d.fab.shed = [] → exec (.epMemoryTestDone p true) s = .next { s with dev := d.putPipeAt p { q with out := false } }) ∧
      (d.flt.latched.get 0 31 = 0 → Completes (.epMemoryTestDone p false) s fun e =>
        (e.pipeAt p).out = true ∧ (e.pipeAt p).uncorrected = true ∧ e.flt.status.getLsbD 31 = true))

/-! ## Blit engines (chapter 8) -/

/-- The blit engines (R249, R252 to R266, Table 8.3): BAD_DESCRIPTOR, FORMAT and GEOMETRY in that order, else the job joins its engine, which starts it at once when idle;
a job advances by chunks, and a gap ends. -/
def Obligations.BlitEngines : Prop :=
  (∀ (s : State) (x : Desc) (e : Dev), ∀ p ∈ [ (Instr.blitFill, 1), (.blitCopy, 2), (.blitConvert, 3) ], s.dev.Takes 3 p.2 blitSpec x e →
     let i := x.get 0x20 1
     let b := e.engine i
     let src := x.get 0x23 1
     let dst := x.get 0x24 1
     let ends (st : Nat) : Prop := exec p.1 s = .next { s with dev := e.complete x st 0 }
     ((3 < i ∨ 1 < x.get 0x21 1 ∨ 1 < x.get 0x22 1 ∨ dst = 0 ∨ 7 < dst ∨ x.get 0x28 2 = 0 ∨ 32767 < x.get 0x28 2 ∨ x.get 0x2A 2 = 0 ∨ 32767 < x.get 0x2A 2 ∨
       x.get 0x2A 2 < x.get 0x2C 2) → ends 0x04) ∧
     (blitBad x = false →
       ((p.2 = 2 ∧ src ≠ dst) ∨ (p.2 = 3 ∧ dst ≠ 7 ∧ ¬ (src ≤ 3 ∧ dst ≤ 3) ∧ ¬ (4 ≤ src ∧ src ≤ 6 ∧ 4 ≤ dst ∧ dst ≤ 6)) → ends 0x09) ∧
       (blitFormat x = false → blitGeometry x = true → ends 0x08) ∧
       (blitFormat x = false → blitGeometry x = false →
         (b.job = none → b.queue = [] →
           exec p.1 s = .next { s with dev := e.putEngine i { b with job := some x, row := 0, chunk := 0, moved := 0, gapEnd := none, rows := 0 } }) ∧
         (b.job ≠ none → exec p.1 s = .next { s with dev := e.putEngine i { b with queue := b.queue ++ [x] } })))) ∧
  (∀ (s : State) (i : Fin 4) (x : Desc),
     let d := s.dev
     let b := d.engine i
     let cs := x.chunks b.row
     let goes := b.job = some x ∧ b.gapEnd = none ∧ d.ctl.islBusy ≠ some (24 + i.val / 2)
     let gap := if (b.moved + 1) % 16 = 0 ∧ x.get 0x2E 2 ≠ 0 then some (d.ctl.ticks + 3 * x.get 0x2E 2) else none
     (∀ c, goes → cs[b.chunk]? = some c →
       let a := x.bDst.rowAddr c.plane c.row + c.off
       let from_ := x.bSrc.rowAddr c.plane c.row + c.off
       (b.chunk + 1 < cs.length → a + c.len ≤ d.capacity →
         (x.op = 1 → x.get 0x24 1 = 7 →
           Completes (.blitChunk i) s fun e =>
             (∀ j, j < c.len → e.memByte (a + j) = BitVec.ofNat 8 (x.get 0x58 8)) ∧ (∀ j, j < a ∨ a + c.len ≤ j → e.memByte j = d.memByte j) ∧
             e.engine i = { b with moved := b.moved + 1, chunk := b.chunk + 1, gapEnd := gap } ∧ (∀ k, k ≠ i.val → e.engine k = d.engine k) ∧
             e = { d with blit := e.blit, mem := e.mem, poison := e.poison }) ∧
         (x.op = 2 → d.poisoned from_ c.len = false →
           Completes (.blitChunk i) s fun e =>
             (∀ j, j < c.len → e.memByte (a + j) = d.memByte (from_ + j)) ∧ (∀ j, j < a ∨ a + c.len ≤ j → e.memByte j = d.memByte j) ∧
             e.engine i = { b with moved := b.moved + 1, chunk := b.chunk + 1, gapEnd := gap } ∧ e = { d with blit := e.blit, mem := e.mem, poison := e.poison })) ∧
       (b.chunk + 1 = cs.length → x.op = 1 → x.get 0x2C 2 = 0 →
         (b.row + 1 < x.get 0x2A 2 → Completes (.blitChunk i) s fun e =>
           e.engine i = { b with moved := b.moved + 1, chunk := 0, row := b.row + 1, rows := b.row + 1, gapEnd := gap } ∧
           e = { d with blit := e.blit, mem := e.mem, poison := e.poison }) ∧
         (x.get 0x2A 2 ≤ b.row + 1 → b.queue = [] → Completes (.blitChunk i) s fun e =>
           (e.engine i).job = none ∧ (e.engine i).jobs = (b.jobs + 1) % 2 ^ 32 ∧ (e.engine i).rows = b.row + 1 ∧ (e.engine i).aborts = b.aborts ∧
           e = { d with blit := e.blit, thr := e.thr, dsp := e.dsp, mem := e.mem, poison := e.poison })) ∧
       (x.op = 2 → d.poisoned from_ c.len = true → b.queue = [] → d.flt.latched.get 0 29 = 0 → Completes (.blitChunk i) s fun e =>
         (e.engine i).job = none ∧ (e.engine i).aborts = (b.aborts + 1) % 2 ^ 32 ∧ (e.engine i).jobs = b.jobs ∧ e.flt.status.getLsbD 29 = true ∧
         ∀ j, j < x.statusAddr ∨ x.statusAddr + 16 ≤ j → e.memByte j = d.memByte j)) ∧
     (∀ t, b.gapEnd = some t →
       exec (.burstGapExpiry i) s = .next { s with dev := if t ≤ d.ctl.ticks then d.putEngine i { b with gapEnd := none } else d }))

/-! ## The contribution decoder (chapter 11) -/

/-- The DEC unit's descriptors (R339, R347, R348, R350, R642): the checks in their order, and what an accepted one leaves. -/
def Obligations.DecoderCommands : Prop :=
  ∀ (s : State) (x : Desc) (e : Dev),
    let k := x.get 0x20 2
    let y := e.stream k
    let cost := (e.capIn y.input).decCost
    let ended (i : Instr) (st : Nat) : Prop := exec i s = .next { s with dev := e.complete x st 0 }
    let waiting : Pend := { d := x, unit := x.unit, op := x.op, obj := k, t := 0, since := e.ctl.ticks }
    (s.dev.Takes 5 1 decConfigureSpec x e →
      (y.active = true → ended .decConfigure 0x06) ∧
      (y.active = false → (3 < x.get 0x22 1 ∨ 3 < x.get 0x23 1 ∨ 2 < x.get 0x24 1 ∨ x.get 0x3C 4 % 65536 ≠ 0 ∨ x.get 0x3C 4 < 2 ^ 20 ∨ 2 ^ 28 < x.get 0x3C 4) →
        ended .decConfigure 0x04) ∧
      (y.active = false → e.decBadField x = false → e.decBadFormat x = true → ended .decConfigure 0x09) ∧
      (y.active = false → e.decBadField x = false → e.decBadFormat x = false → e.decBadGeometry x = true → ended .decConfigure 0x08) ∧
      (y.active = false → e.decBadField x = false → e.decBadFormat x = false → e.decBadGeometry x = false → (∀ p ∈ e.pend, p.unit ≠ 5) →
        Completes .decConfigure s fun d =>
          (d.stream k).st = .stopped ∧ (d.stream k).cfg = x.bytes ∧ (d.stream k).booked = 0 ∧ (d.stream k).pics = y.pics ∧
          (∀ j, j ≠ k → d.stream j = e.stream j) ∧ d = { e with dec := d.dec, thr := d.thr, dsp := d.dsp, mem := d.mem, poison := d.poison })) ∧
    (s.dev.Takes 5 2 decStreamSpec x e →
      (y.st ≠ .stopped ∨ e.dozing = true → ended .decStart 0x06) ∧
      (y.st = .stopped → e.dozing = false →
        (3000000 < e.decBooked y.pipe - y.booked + cost → ended .decStart 0x02) ∧
        (e.decBooked y.pipe - y.booked + cost ≤ 3000000 → x.eff = 0 → e.decTwinned k = false →
          exec .decStart s = .next { s with dev := ({ e with pend := e.pend ++ [waiting] } : Dev).putStream k { y with starting := true, booked := cost } }))) ∧
    (s.dev.Takes 5 3 decStreamSpec x e →
      (y.st = .unconfigured → ended .decStop 0x06) ∧
      (y.st ≠ .unconfigured → x.eff = 0 → e.decTwinned k = false → exec .decStop s = .next { s with dev := { e with pend := e.pend ++ [waiting] } }))

/-- What a stream receives and decodes (R335 to R337, R340 to R346, R351): a packet of the stream enters the bitstream buffer, or empties it when it does not fit, and
marks its path up; a FEC packet restores the one packet of its that is missing, which is counted; a picture is counted and takes its slot when it is output, or is discarded while the stream seeks; a corrected memory error is counted, and an
uncorrectable one takes its decode pipe out of service until a test passes. The buffer's layout and the path bits are the model's choices (log entry 54). -/
def Obligations.DecoderReception : Prop :=
  ∀ (s : State) (k : Fin 16) (p : Fin 4) (pkt : DecPkt) (pic : DecPic), s.dev.paired = false → s.dev.absent = [] →
    let d := s.dev
    let y := d.stream k
    let q := d.decPipeAt p
    let got := y.carried pkt.bytes pkt.pics
    let n := got.1.length
    let hit := y.badOf pic ≠ [] ∨ y.missRefs pic ≠ []
    ((y.active = false ∨ y.hears false pkt = false) → exec (.decPacketRx k false pkt) s = .next s) ∧
    (y.active = true → y.hears false pkt = true → pkt.fec = none → y.seenAt.get 0 pkt.seq = 0 → y.declared = [] → y.fecs = [] → n ≤ y.bsSize →
      (y.fill + n ≤ y.bsSize → pkt.contLost = 0 → y.bsPtr < y.bsSize → y.bsAddr + y.bsSize ≤ d.capacity →
        Completes (.decPacketRx k false pkt) s fun e =>
          e.stream k = { y with seenAt := y.seenAt.put 0 pkt.seq (d.ctl.ticks + 1), lost := min 65535 y.lost
                                media := if y.repairs then y.media.put [] pkt.seq pkt.bytes else y.media
                                fill := y.fill + n, bufPics := y.bufPics + got.2, bsPtr := (y.bsPtr + n) % y.bsSize } ∧
          (∀ i, i < n → e.memByte (y.bsAddr + (y.bsPtr + i) % y.bsSize) = got.1.getD i 0) ∧
          (∀ j, j < y.bsAddr ∨ y.bsAddr + y.bsSize ≤ j → e.memByte j = d.memByte j) ∧
          e.capIn y.input = { d.capIn y.input with upA := true, lastA := d.ctl.ticks } ∧ (∀ j, j ≠ k.val → e.stream j = d.stream j) ∧
          e = { d with dec := e.dec, cap := e.cap, mem := e.mem, poison := e.poison }) ∧
      (y.bsSize < y.fill + n → d.flt.latched.get 0 33 = 0 →
        Completes (.decPacketRx k false pkt) s fun e =>
          (e.stream k).st = .seeking ∧ (e.stream k).fill = n ∧ (e.stream k).bufPics = got.2 ∧ (e.stream k).discard = (y.discard + y.bufPics) % 2 ^ 32 ∧
          (e.stream k).mark = false ∧ e.flt.status.getLsbD 33 = true ∧ (∀ j, j ≠ k.val → e.stream j = d.stream j) ∧
          ∀ j, j < y.bsAddr ∨ y.bsAddr + y.bsSize ≤ j → e.memByte j = d.memByte j)) ∧
    (∀ (h : FecHdr) (m : Nat), y.active = true → y.hears false pkt = true → pkt.fec = some h → y.seenAt.get 0 pkt.key = 0 → y.declared = [] → y.fecs = [] → pkt.contLost = 0 →
      h.covers.filter (fun r => (y.media.get [] r).isEmpty) = [m] → m ≠ pkt.key →
      let bytes := (h.covers.filter (· != m)).foldl (fun b r => xorBytes b (y.media.get [] r)) pkt.bytes
      y.fill + (y.carried bytes 0).1.length ≤ y.bsSize →
      Completes (.decPacketRx k false pkt) s fun e =>
        (e.stream k).recovered = min 65535 (y.recovered + 1) ∧ (e.stream k).media = y.media.put [] m bytes ∧ (e.stream k).fill = y.fill + (y.carried bytes 0).1.length ∧
        (∀ j, j ≠ k.val → e.stream j = d.stream j)) ∧
    (y.active = true → d.decServes y.pipe = true → pic.cont = false →
      (y.st = .seeking → y.codec ≠ 3 → pic.irap = false → pic.recStart = false →
        exec (.decPictureDecoded k pic) s = .next { s with dev := d.putStream k { y with fill := y.fill - pic.nbytes, bufPics := y.bufPics - 1, discard := (y.discard + 1) % 2 ^ 32 } }) ∧
      (y.st = .decoding → y.decodable pic = false →
        exec (.decPictureDecoded k pic) s = .next { s with dev := d.putStream k { y with fill := y.fill - pic.nbytes, bufPics := y.bufPics - 1 } }) ∧
      (y.st = .decoding ∨ (y.codec ≠ 3 ∧ pic.irap = true) → y.decodable pic = true →
        Completes (.decPictureDecoded k pic) s fun e =>
          (e.stream k).st = .decoding ∧ (e.stream k).pics = (y.pics + 1) % 2 ^ 32 ∧ (e.stream k).fill = y.fill - pic.nbytes ∧
          (e.stream k).missing = min 65535 (y.missing + (y.missRefs pic).length) ∧ (y.codec = 3 → (e.stream k).mark = decide hit) ∧
          (y.codec ≠ 3 → pic.rasl = false → hit → (e.stream k).mark = true) ∧ (∀ j, j ≠ k.val → e.stream j = d.stream j)) ∧
      (∀ n, y.st = .decoding → y.codec = 3 → y.decodable pic = true → pic.immediate = true → pic.releases = 0 → d.decStamp y pic.ts ∉ y.stamps →
        (d.capIn y.input).rx = true → (d.capIn y.input).kind = 2 → (y.pics + 1) % 2 ^ 32 ∉ (d.capIn y.input).lastBad →
        (d.capIn y.input).holding (d.decStamp y pic.ts) = none → (d.capIn y.input).tooEarly (d.decStamp y pic.ts) = false → (d.capIn y.input).victim = some n → (d.capIn y.input).decFits pic = true →
        Completes (.decPictureDecoded k pic) s fun e =>
          ((e.capIn y.input).slotAt n).stamp = some (d.decStamp y pic.ts) ∧ ((e.capIn y.input).slotAt n).marked = decide hit ∧
          (e.stream k).concealed = if hit then (y.concealed + 1) % 2 ^ 32 else y.concealed)) ∧
    (exec (.dpEcc ⟨p, true⟩) s = .next { s with dev := d.putDecPipeAt p { q with corrected := min 65535 (q.corrected + 1) } }) ∧
    (d.flt.latched.get 0 34 = 0 → d.flt.classOf 34 = 2 →
      Completes (.dpEcc ⟨p, false⟩) s fun e =>
        e.decPipeAt p = { q with uncorrected := true, out := true } ∧ e.flt.status.getLsbD 34 = true ∧ (∀ j, e.stream j = d.stream j) ∧
        ∀ j, e.memByte j = d.memByte j) ∧
    (q.out = true → d.flt.status.getLsbD 34 = false →
      (d.dec = [(k.val, y)] → y.active = true → y.pipe = p →
        Completes (.dpMemoryTestDone p true) s fun e =>
          (e.decPipeAt p).out = false ∧ (e.stream k).st = .seeking ∧ (e.stream k).mark = false ∧ e = { d with dec := e.dec, decPipe := e.decPipe }) ∧
      (d.flt.latched.get 0 34 = 0 →
        Completes (.dpMemoryTestDone p false) s fun e => e.decPipeAt p = { q with uncorrected := true } ∧ e.flt.status.getLsbD 34 = true))

/-! ## The twin pair (chapter 12) -/

/-- The pair is made and ended (R355 to R358, R364, R368, R378, R389, R642, Table 12.6): CONFIGURE binds four lanes and the link comes up; a pairing record that
agrees makes the pair PAIRED, one that does not is REJECTED with its first cause; a dead link or the partner's HALT partitions it, and a partitioned half attempts to pair
again; without a configuration, or while island 30 is in reset, no record does anything; UNPAIR ends it; RESYNC
marks the channel's next picture as the first mismatch. TWIN_PARTITION stands while the pair is PARTITIONED or REJECTED. -/
def Obligations.PairingAndPartition : Prop :=
  ∀ (s : State) (x : Desc) (e : Dev) (r : PairingRecord),
    let d := s.dev
    let l := x.get 0x20 2
    let n := x.get 0x20 2
    let t := e.twinCh n
    let ended (i : Instr) (st : Nat) : Prop := exec i s = .next { s with dev := e.complete x st 0 }
    (d.Takes 11 1 twinConfigureSpec x e →
      ((e.twin.st = .linking ∨ e.twin.st = .paired ∨ e.twin.st = .partitioned ∨ e.dozing = true) → ended .twinConfigure 0x06) ∧
      (e.twin.st = .unpaired → e.dozing = false →
        let bad := l % 4 ≠ 0 ∨ 252 < l ∨ x.get 0x22 2 < 10 ∨ 10000 < x.get 0x22 2 ∨ x.get 0x24 2 < 100 ∨ x.get 0x26 1 = 0 ∨ 8 < x.get 0x26 1 ∨ x.get 0x28 8 % 4096 ≠ 0
        (bad → ended .twinConfigure 0x04) ∧ (¬ bad → ((∃ i, i < 4 ∧ e.groupOf (l + i) ≠ none) ∨ e.octetFull (l / 8) 112500000 = true) → ended .twinConfigure 0x02) ∧
        (¬ bad → (∀ i, i < 4 → e.groupOf (l + i) = none) → e.octetFull (l / 8) 112500000 = false → Completes .twinConfigure s fun f =>
          f.twin.st = .linking ∧ f.twin.cfg = x.bytes ∧ f.twin.cause = 0 ∧ f.groupAt l = { proto := 3, width := 4, stage := .detect, since := e.ctl.ticks } ∧
          (∀ k, k ≠ l → f.groupAt k = e.groupAt k) ∧ f.flt.live.getLsbD 35 = false))) ∧
    (d.Takes 11 2 twinUnpairSpec x e →
      (e.chan.any (fun q => q.2.twin == 1 && q.2.active) = true → ended .twinUnpair 0x06) ∧
      (e.chan.any (fun q => q.2.twin == 1 && q.2.active) = false → Completes .twinUnpair s fun f =>
        f.twin.st = .unpaired ∧ f.twin.cfg = [] ∧ f.twin.lanesUp = [] ∧ f.flt.live.getLsbD 35 = false)) ∧
    (d.Takes 11 3 twinResyncSpec x e →
      (¬ (e.twin.st = .paired ∧ (e.channel n).st = .running ∧ (e.channel n).twin = 1) → ended .twinResync 0x06) ∧
      (e.twin.st = .paired → (e.channel n).st = .running → (e.channel n).twin = 1 → Completes .twinResync s fun f =>
        (f.twinCh n).bad = (e.channel n).nextRelease ∧ (f.twinCh n).episodes = min 65535 (t.episodes + 1) ∧ (f.twinCh n).copy = true ∧
        (f.twinCh n).phase = (if t.follower then 2 else t.phase) ∧ ∀ k, k ≠ n → f.twinCh k = e.twinCh k)) ∧
    (let g := d.groupAt d.twin.firstLane;
      d.twin.cfg ≠ [] → d.ctl.islBusy ≠ some 30 → d.twin.st = .linking → g.proto = 3 → g.stage = .caps → g.retryAt = none → d.twin.halt = false → d.halted = false →
        let cause := if r.senior = d.ctl.senior then 1 else if r.revision ≠ 0xB0 then 2
          else if r.meas0 ≠ d.meas 0 ∨ r.meas1 ≠ d.meas 1 ∨ r.meas2 ≠ d.meas 2 then 3 else 0
        Completes (.pairingRecordRx r) s fun f =>
          f.twin.cause = cause ∧ f.twin.st = (if cause = 0 then .paired else .rejected) ∧ f.flt.live.getLsbD 35 = decide (cause ≠ 0) ∧
          (f.groupAt d.twin.firstLane).stage = .active ∧ f.twin.lanesUp = (List.range 4).map (d.twin.firstLane + ·) ∧
          (cause = 0 → f.twin.meas0 = r.meas0 ∧ f.trust.meas.get [] 6 = Config.shake256 (d.meas 6 ++ r.meas0) 64)) ∧
    ((d.twin.cfg = [] ∨ d.ctl.islBusy = some 30) → exec (.pairingRecordRx r) s = .next s) ∧
    (d.twin.st = .paired → (d.twin.lanesUp = [] ∨ d.twin.lastFrame + d.twin.deadUs * 3000 ≤ d.ctl.ticks) →
      Completes .twinLinkDead s fun f => f.twin.st = .partitioned ∧ f.twin.partMt = d.media ∧ f.flt.live.getLsbD 35 = true) ∧
    (d.twin.st = .partitioned → d.twin.lanesUp ≠ [] → d.halted = false → d.ctl.islBusy ≠ some 30 → exec .twinLinkDead s = .next { s with dev := d.sendPairing }) ∧
    (d.twin.cfg ≠ [] → d.ctl.islBusy ≠ some 30 → d.twin.st = .paired → Completes (.partnerHaltReportRx true) s fun f =>
      f.twin.halt = true ∧ f.twin.st = .partitioned ∧ f.twin.partMt = d.media ∧ f.flt.live.getLsbD 35 = true)

/-- What the halves tell one another about inputs and streams (R359 to R363, R386): what the partner holds and this half lacks is fetched, and written as if received; the
junior keeps the senior's verdicts and declarations; digests that differ are counted and latch source 36. Every frame of the partner shows that its link lives; the round
trip that it gives is a free value (log entry 19). -/
def Obligations.InputReconciliation : Prop :=
  ∀ (s : State) (i : Fin 192) (k : Fin 16), s.dev.twin.cfg ≠ [] → s.dev.ctl.islBusy ≠ some 30 →
    let d := s.dev
    let c := d.capIn i
    let y := d.stream k
    let h : Dev := ({ d with twin := { d.twin with lastFrame := d.ctl.ticks, rtt := d.freeVal % 2001, unheard := [] } } : Dev).nextFree
    let counted : Twin := { h.twin with items := min (2 ^ 24 - 1) (d.twin.items + 1) }
    (d.paired = true → d.twinnedInput i = true →
      (∀ held anc : List Nat, c.kind ≠ 2 → c.ancWait = [] →
        let lacks := held.filter fun z => !c.holds z
        Completes (.completenessMapRx i ⟨held, anc⟩) s fun e =>
          e.waiting = d.waiting ++ lacks.map (fun z => .twin 5 i z []) ++ (anc.filter fun z => !c.ancSeen.contains z).map (fun z => .twin 5 i z [1]) ∧
          e.capIn i = { c with mapV := (c.mapV.filter fun z => !c.holds z && !lacks.contains z) ++ lacks, theirs := c.theirs ++ anc.filter fun z => !c.theirs.contains z } ∧
          (∀ j, j ≠ i.val → e.capIn j = d.capIn j) ∧ e = { h with cap := e.cap, waiting := e.waiting }) ∧
      (∀ held anc : List Nat, c.kind = 2 → d.streamOf i = some k.val →
        Completes (.completenessMapRx i ⟨held, anc⟩) s fun e =>
          e.waiting = d.waiting ++ (held.filter fun z => y.seenAt.get 0 z == 0).map (fun z => .twin 5 i z [2]) ∧
          { e.stream k with theirAt := y.theirAt } = { y with theirs := y.theirs ++ held.filter fun z => !y.theirs.contains z } ∧
          (∀ j, j ≠ k.val → e.stream j = d.stream j) ∧ e = { h with dec := e.dec, waiting := e.waiting }) ∧
      (∀ (pkt : VideoPkt) (g : LineSeg) (sl : Nat), c.rx = true → c.kind = 0 → c.holds pkt.seq = false → pkt.fmtOk = true → pkt.ts ∉ c.lastBad → pkt.segs = [g] → g.cb = [] → g.cr = [] →
        c.holding (d.rtpStamp c pkt.ts) = some sl → (c.slotAt sl).key = pkt.ts → g.line < c.height → g.x + g.y.length ≤ c.width →
        let a := c.storeAddr + sl * c.geom.slotSize + g.line * c.geom.pitch 0 + 2 * g.x
        a + 2 * g.y.length ≤ d.capacity →
        Completes (.twinFetchDataRx i (.video pkt)) s fun e =>
          (∀ j, j < g.y.length → e.memByte (a + 2 * j) = BitVec.ofNat 8 ((g.y.getD j 0 % 2 ^ c.depth * 2 ^ (12 - c.depth)) % 4096)) ∧
          (∀ j, j < a ∨ a + 2 * g.y.length ≤ j → e.memByte j = d.memByte j) ∧ (e.capIn i).seenAt.get 0 pkt.seq = d.ctl.ticks + 1 ∧
          e.twin = counted ∧ e = { h with cap := e.cap, mem := e.mem, poison := e.poison, twin := e.twin }) ∧
      (∀ pkt : AncPkt, c.rx = true → c.kind = 0 → c.get 0x74 2 ≠ 0 → pkt.seq ∉ c.ancSeen → pkt.scte = false → d.ctl.senior = false →
        exec (.twinFetchDataRx i (.anc pkt)) s = .next { s with dev := ({ h with twin := counted } : Dev).putCapIn i { c with ancSeen := c.ancSeen ++ [pkt.seq] } }) ∧
      (∀ pkt : DecPkt, d.streamOf i = some k.val → y.input = i → y.active = true → d.ctl.senior = false → y.declared = [] → y.seenAt.get 0 pkt.key = 0 →
        Completes (.twinFetchDataRx i (.dec pkt)) s fun e =>
          e.stream k = { y with seenAt := y.seenAt.put 0 pkt.key (d.ctl.ticks + 1), waiting := y.waiting ++ [pkt] } ∧ (∀ j, j ≠ k.val → e.stream j = d.stream j) ∧
          e.twin = counted ∧ e = { h with dec := e.dec, waiting := e.waiting, twin := e.twin }) ∧
      (∀ (mt : Nat) (dig : BitVec 64),
        (∀ q, d.twin.digests.find? (fun q => q.1 == i.val && q.2.1 == mt) = some q →
          (q.2.2 = dig → exec (.inputDigestRx i mt dig) s = .next { s with dev := { h with twin := { h.twin with digests := d.twin.digests.erase q } } }) ∧
          (q.2.2 ≠ dig → d.flt.latched.get 0 36 = 0 → Completes (.inputDigestRx i mt dig) s fun e =>
            e.twin = { h.twin with digests := d.twin.digests.erase q, inMis := min 255 (d.twin.inMis + 1) } ∧ e.flt.status.getLsbD 36 = true)) ∧
        (d.twin.digests.find? (fun q => q.1 == i.val && q.2.1 == mt) = none →
          exec (.inputDigestRx i mt dig) s = .next { s with dev := { h with twin := { h.twin with digests := d.twin.digests ++ [(i.val, mt, dig)] } } }))) ∧
    (d.follows i = true → ∀ (line stamp : Nat) (present : Bool),
      (c.kind = 0 → (present = true → line ≠ 0) → Completes (.presenceVerdictRx i line present stamp) s fun e =>
        e.capIn i = { c with verdicts := c.verdicts ++ [(line, present)] } ∧ (∀ j, j ≠ i.val → e.capIn j = d.capIn j) ∧
        (present = false ∨ c.candidate c.tick = none → e.waiting = d.waiting) ∧
        (∀ sl, present = true → c.candidate c.tick = some sl → line ∉ (c.slotAt sl).lines →
          e.waiting = d.waiting ++ (c.mapV.filter fun z => !c.holds z).map (fun z => .twin 5 i z [])) ∧
        e = { h with cap := e.cap, waiting := e.waiting }) ∧
      (∀ sl, c.kind = 1 → c.sdiWait = [] → c.nearestSlot stamp = some sl → Completes (.presenceVerdictRx i 0 true stamp) s fun e =>
        (e.capIn i).slotAt sl = { c.slotAt sl with stamp := some stamp, fixed := true } ∧ (e.capIn i).verdicts = c.verdicts ++ [(0, true)] ∧
        (∀ j, j ≠ i.val → e.capIn j = d.capIn j) ∧ e = { h with cap := e.cap, waiting := e.waiting })) ∧
    (∀ (seq : Nat) (p : DecPkt), y.active = true → d.decFollows k = true → y.declared = [] → y.waiting = [p] → p.key = seq →
      (exec (.packetDeclarationRx k seq false) s = .next { s with dev := h.putStream k { y with declared := [(seq, false)], waiting := [] } }) ∧
      (let got := y.carried p.bytes p.pics;
        p.fec = none → y.repairs = false → p.contLost = 0 → y.fill + got.1.length ≤ y.bsSize → y.bsPtr < y.bsSize → y.lost ≤ 65535 →
        Completes (.packetDeclarationRx k seq true) s fun e =>
          e.stream k = { y with declared := [(seq, true)], waiting := [], fill := y.fill + got.1.length, bufPics := y.bufPics + got.2
                                bsPtr := (y.bsPtr + got.1.length) % y.bsSize } ∧
          (∀ j, j ≠ k.val → e.stream j = d.stream j) ∧ (∀ j, j < y.bsAddr ∨ y.bsAddr + y.bsSize ≤ j → e.memByte j = d.memByte j) ∧
          e = { h with dec := e.dec, mem := e.mem, poison := e.poison })) ∧
    (∀ (seq later : Nat), y.active = true → d.paired = true → d.ctl.senior = true → d.decTwinned k = true → y.seenAt.get 0 seq = 0 → seq ∉ y.theirs → (seq, false) ∉ y.declared →
      y.laterArrival seq = some later → later + y.skewUs * 3000 ≤ d.ctl.ticks + 1 →
      Completes (.packetDeclaredLost k seq) s fun e =>
        e.stream k = { y with declared := y.declared ++ [(seq, false)] } ∧ e.waiting = d.waiting ++ [.twin 10 k seq [0]] ∧
        e = { d with dec := e.dec, waiting := e.waiting })

/-- What the halves tell one another about channels (R366, R370, R371, R375, R381, R384, R385, R389, R390): a proposal that a waiting descriptor meets agrees on the later
point, and one that none meets is kept; a match that does not come in time ends the descriptor with TIMEOUT, and what a START of a scene, a channel or a stream held goes back; a miss or a
shed of the partner is mirrored, and its RESYNC is a first mismatch here too; records of one picture that differ start an episode; a complete snapshot is kept by the half that follows. -/
def Obligations.ChannelReconciliation : Prop :=
  ∀ (s : State) (ch : Fin 512) (p : Pend), s.dev.twin.cfg ≠ [] → s.dev.ctl.islBusy ≠ some 30 →
    let d := s.dev
    let c := d.channel ch
    let t := d.twinCh ch
    let h : Dev := ({ d with twin := { d.twin with lastFrame := d.ctl.ticks, rtt := d.freeVal % 2001, unheard := [] } } : Dev).nextFree
    (d.paired = true → ∀ (unit op obj user mt own : Nat) (ctx : BitVec 64), ¬ (unit = 4 ∧ op = 2) →
      (d.pend = [p] → p.unit = unit → p.op = op → p.obj = obj → p.d.user = user → p.twin = .waiting own →
        Completes (.matchProposalRx unit op obj user mt ctx) s fun e =>
          e.pend.map (·.twin) = [.agreed (max own mt)] ∧ e.pend.map (·.d) = [p.d] ∧ e = { h with pend := e.pend }) ∧
      (d.pend = [] → ¬ (unit = 4 ∧ (op = 8 ∨ op = 9)) → exec (.matchProposalRx unit op obj user mt ctx) s =
        .next { s with dev := { h with twin := { h.twin with proposals := d.twin.proposals ++ [⟨unit, op, obj, user, mt, d.ctl.ticks⟩] } } })) ∧
    (d.paired = true → d.pend = [] → ∀ (obj user mt : Nat) (ctx : BitVec 64), Completes (.matchProposalRx 4 2 obj user mt ctx) s fun e =>
      e.twinCh obj = { d.twinCh obj with partner := max 1 (d.twinCh obj).partner, partnerDig := some ctx } ∧
      e.twin.proposals = d.twin.proposals ++ [⟨4, 2, obj, user, mt, d.ctl.ticks⟩] ∧ e = { h with twin := e.twin }) ∧
    (∀ own, d.pend = [p] → p.internal = false → p.twin = .waiting own → d.twin.proposals = [] →
      (p.since + d.twin.matchUs * 3000 ≤ d.ctl.ticks →
        let left : Dev := { d with pend := [] }
        (p.op ≠ 2 → exec .matchTimeout s = .next { s with dev := left.complete p.d 0x0A 0 }) ∧
        (p.op = 2 → p.unit = 4 → exec .matchTimeout s =
          .next { s with dev := (left.modChannel p.obj fun c => { c with startPend := false }).complete p.d 0x0A 0 }) ∧
        (p.op = 2 → p.unit = 2 → (d.sceneAt p.obj).running = false → exec .matchTimeout s =
          .next { s with dev := ((left.bookScene p.obj 0).modSceneAt p.obj fun c => { c with starting := false }).complete p.d 0x0A 0 }) ∧
        (p.op = 2 → p.unit = 5 → (d.stream p.obj).active = false → exec .matchTimeout s =
          .next { s with dev := (left.modStream p.obj fun c => { c with starting := false, booked := 0 }).complete p.d 0x0A 0 })) ∧
      (d.ctl.ticks < p.since + d.twin.matchUs * 3000 → exec .matchTimeout s = .next s)) ∧
    (d.linked ch = true → c.active = true →
      (∀ (q : Pic) (mt rows : Nat), c.flight = [q] → q.mt = mt → q.released ≤ rows → q.limit = none →
        exec (.missNoticeRx ch mt rows) s = .next { s with dev := h.putChannel ch { c with flight := [{ q with limit := some (rows, true) }] } }) ∧
      (∀ mt, (3, ch.val) ∉ d.fab.shed → Completes (.shedNoticeRx ch (.shed mt)) s fun e =>
        (e.channel ch).shed = true ∧ (e.channel ch).shedFrom = (if c.shed then min c.shedFrom mt else mt) ∧ e.fab.shed = d.fab.shed ++ [(3, ch.val)] ∧
        (∀ k, k ≠ ch.val → e.channel k = d.channel k) ∧ e = { h with chan := e.chan, fab := e.fab }) ∧
      (∀ mt, Completes (.shedNoticeRx ch (.resync mt)) s fun e =>
        (e.twinCh ch).bad = mt ∧ (e.twinCh ch).episodes = min 65535 (t.episodes + 1) ∧ (e.twinCh ch).copy = true ∧ ∀ k, k ≠ ch.val → e.twinCh k = d.twinCh k) ∧
      (∀ (mt : Nat) (snap : Chan) (num : Flow) (refs : List Byte), t.follower = true → t.phase = 2 → c.mt (c.k0 + c.outNext) ≤ mt →
        exec (.snapshotRx ch mt true snap ⟨num, refs⟩) s = .next { s with dev := h.putTwinCh ch { t with snap := some (mt, snap, num, refs) } })) ∧
    (d.paired = true → ∀ (code : Nat) (dig : BitVec 64), code < 2 → exec (.shedNoticeRx ch (.state code dig)) s =
      .next { s with dev := h.putTwinCh ch { t with partner := code, partnerDig := if code = 0 then none else some dig, owed := false } }) ∧
    (d.linked ch = true → ∀ r : HistRecord,
      (d.ownRecord ch r.mt = none → Completes (.historyRecordRx ch r) s fun e =>
        e.twinCh ch = { t with follower := t.follower && !(bitN r.flags 5 && !c.muted), theirs := lastN 1024 (t.theirs ++ [r]) } ∧ e = { h with twin := e.twin }) ∧
      (∀ own, d.ownRecord ch r.mt = some own → t.phase ≠ 3 → t.copy = false →
        (histAgrees own r = true → Completes (.historyRecordRx ch r) s fun e => (e.twinCh ch).episodes = t.episodes ∧ e = { h with twin := e.twin }) ∧
        (histAgrees own r = false → Completes (.historyRecordRx ch r) s fun e =>
          (e.twinCh ch).bad = own.mt ∧ (e.twinCh ch).episodes = min 65535 (t.episodes + 1) ∧ (e.twinCh ch).copy = true)))

/-! ## The packager (chapter 13) -/

/-- The packager (R395, R399, R400 to R402, R410, R412, R413, R415, R416): CONFIGURE, RELEASE and SPLICE check and take effect; the oldest record of a channel is taken
off the ring, and one NAL unit of it that fits becomes one RTP packet with its sequence number and timestamp for the flow's queue, or is withheld and counted
when its picture is muted; a due audio packet is forwarded. -/
def Obligations.Packaging : Prop :=
  ∀ (s : State) (x : Desc) (e : Dev),
    let d := s.dev
    let k := x.get 0x20 2
    let f := e.flowAt k
    let ended (i : Instr) (st : Nat) : Prop := exec i s = .next { s with dev := e.complete x st 0 }
    (d.Takes 6 1 pkgConfigureSpec x e →
      (f.configured = true → ended .pkgConfigure 0x06) ∧
      (f.configured = false →
        ((3 < x.get 0x22 1 ∨ 2 < x.get 0x23 1 ∨ 63 < x.get 0x24 1 ∨ x.get 0x25 1 = 0 ∨ (x.get 0x22 1 = 1 ∧ x.get 0x26 1 ≠ 33) ∨ x.get 0x38 8 % 4096 ≠ 0 ∨
          x.get 0x40 4 % 65536 ≠ 0 ∨ x.get 0x40 4 < 262144) → ended .pkgConfigure 0x04) ∧
        (pkgBadField x = false →
          (x.get 0x22 1 ≠ 3 ∨ (e.flow.filter fun q => q.2.configured && q.2.kind == 3).length < 256 →
            exec .pkgConfigure s = .next { s with dev := ((e.putFlowAt k { cfg := x.bytes }).cutTaps 2 k).complete x 0 0 }) ∧
          (x.get 0x22 1 = 3 → 256 ≤ (e.flow.filter fun q => q.2.configured && q.2.kind == 3).length → ended .pkgConfigure 0x02)))) ∧
    (d.Takes 6 2 pkgReleaseSpec x e →
      ((∃ q ∈ e.chan, (q.2.st = .running ∨ q.2.st = .stopping) ∧ q.2.flow = k) → ended .pkgRelease 0x06) ∧
      ((∀ q ∈ e.chan, q.2.flow = k → q.2.st ≠ .running ∧ q.2.st ≠ .stopping) → (∀ p ∈ e.pend, p.unit ≠ 6) →
        exec .pkgRelease s = .next { s with dev := (e.putFlowAt k { unbound := f.unbound }).complete x 0 0 })) ∧
    (d.Takes 6 3 pkgSpliceSpec x e →
      let t := x.get 0x22 1
      let held (late : Bool) : Pend := { d := x, unit := x.unit, op := x.op, obj := k, t := x.eff, since := e.ctl.ticks, late := late }
      let kept (late : Bool) : Prop := exec .pkgSplice s = .next { s with dev := { e with pend := e.pend ++ [held late] } };
      ((f.kind = 0 ∨ f.kind = 3 ∨ f.pidScte = 0 ∨ e.carried k = none) → ended .pkgSplice 0x06) ∧
      (∀ n, (f.kind = 1 ∨ f.kind = 2) → f.pidScte ≠ 0 → e.carried k = some n → (e.channel n).st = .running →
        (((t ≠ 1 ∧ t ≠ 3 ∧ t ≠ 5) ∨ x.get 0x28 8 < x.eff) → ended .pkgSplice 0x04) ∧
        ((t = 1 ∨ t = 3 ∨ t = 5) → x.eff ≤ x.get 0x28 8 →
          let passed := (e.channel n).packed x.eff
          (x.eff = 0 → e.twinnedChannel n = true → e.twin.st = .partitioned → ended .pkgSplice 0x03) ∧
          (x.eff = 0 → (e.twinnedChannel n = false ∨ (e.twin.st ≠ .partitioned ∧ e.twin.st ≠ .paired)) → kept false) ∧
          (x.eff ≠ 0 → passed = false → kept false) ∧
          (x.eff ≠ 0 → passed = true → (x.strict = true → ended .pkgSplice 0x0A) ∧ (x.strict = false → kept true))))) ∧
    (∀ (n : Fin 512) (r : EsRec) (rest : List EsRec),
      let c := d.channel n
      let w := d.flowAt c.flow
      c.records = r :: rest →
      (d.bound n c.flow = false → exec (.esRecordPacketise n) s = .next { s with dev := d.putChannel n { c with records := rest } }) ∧
      (∀ len, d.bound n c.flow = true → r.lost = false → bitN r.flags 0 = false → w.tsBase = some (c.mt c.k0) → w.kind = 0 → c.codec ≠ 3 → r.nals = [len] →
        len ≤ w.maxPayload → w.queueB = 0xFFFF →
        let body := rtpHeader (w.get 0x26 1) (bitN r.flags 1) (w.get 0x2C 2 + w.count) (w.get 0x30 4 + r.mt * 9 / 100000) (w.get 0x28 4) ++
          d.memRead (c.esAddr + r.at_ + 36) len
        let fr := w.frame false (Config.portMac (d.queueAt w.queueA).port) 0 body
        let sent : Packet := { flow := c.flow, copyB := false, fec := false, udp := body.length, frame := fr.length + 4, mt := r.mt, num := c.num, den := c.den, idx := w.pktIdx, bytes := fr }
        let w1 : Flow := { w with count := (w.count + 1) % 2 ^ 64, pkts := (w.pkts + 1) % 2 ^ 32, pktIdx := w.pktIdx + 1 }
        (r.muted = true → Completes (.esRecordPacketise n) s fun g =>
          g.tmIn = d.tmIn ∧ g.flowAt c.flow = { w1 with muted := min 65535 (w.muted + 1) } ∧ (∀ j, j ≠ c.flow → g.flowAt j = d.flowAt j) ∧
          g.channel n = { c with records := rest } ∧ g = { d with chan := g.chan, flow := g.flow, chk := (d.tapUnit 2 c.flow (some r.mt) body true).chk }) ∧
        (r.muted = false → w.full ≠ some r.mt → w.buffered + sent.frame ≤ w.get 0x40 4 → Completes (.esRecordPacketise n) s fun g =>
          g.tmIn = d.tmIn ++ [(w.queueA, sent)] ∧ g.flowAt c.flow = { w1 with buffered := w.buffered + sent.frame } ∧
          (∀ j, j ≠ c.flow → g.flowAt j = d.flowAt j) ∧ g.channel n = { c with records := rest } ∧
          g = { d with chan := g.chan, flow := g.flow, tmIn := g.tmIn, chk := (d.tapUnit 2 c.flow (some r.mt) body false).chk }))) ∧
    (∀ (k : Fin 4096) (m : Nat) (bs : List Byte) (rest : List (Nat × List Byte)),
      let w := d.flowAt k
      w.audio = (m, bs) :: rest → w.kind = 3 → w.queueB = 0xFFFF →
      (d.cadence < m + w.get 0x5C 4 → exec (.audioForwardDue k) s = .next s) ∧
      (let fr := w.frame false (Config.portMac (d.queueAt w.queueA).port) 0 bs;
        m + w.get 0x5C 4 ≤ d.cadence → w.full ≠ some m → w.buffered + fr.length + 4 ≤ w.get 0x40 4 → Completes (.audioForwardDue k) s fun g =>
          g.tmIn = d.tmIn ++ [(w.queueA, { flow := k, copyB := false, fec := false, udp := bs.length, frame := fr.length + 4, mt := m, idx := w.pktIdx, bytes := fr })] ∧
          g.flowAt k = { w with audio := rest, count := (w.count + 1) % 2 ^ 64, pkts := (w.pkts + 1) % 2 ^ 32, pktIdx := w.pktIdx + 1, buffered := w.buffered + fr.length + 4 } ∧
          (∀ j, j ≠ k.val → g.flowAt j = d.flowAt j) ∧ g = { d with flow := g.flow, tmIn := g.tmIn, chk := (d.tapUnit 2 k (some m) bs false).chk }))

/-! ## Traffic management (chapter 14) -/

/-- The TM unit's descriptors (R164, R428, R437, R444, R445, R448, R449): the checks in their order, and what an accepted one leaves: a queue or a policer with full
buckets, a SHAPE that waits for its microsecond boundary, a PORT at once or at the end of the frame, a gate list with its start, or nothing after RELEASE. -/
def Obligations.TrafficCommands : Prop :=
  ∀ (s : State) (x : Desc) (e : Dev),
    let d := s.dev
    let ended (i : Instr) (st : Nat) : Prop := exec i s = .next { s with dev := e.complete x st 0 }
    let idle : Prop := ∀ p ∈ e.pend, p.unit ≠ 7
    (d.Takes 7 1 tmQueueSpec x e →
      let n := x.get 0x20 2
      let q := e.queueAt n
      let good := x.get 0x23 1 ≤ 7 ∧ 1 ≤ x.get 0x24 2 ∧ x.get 0x24 2 ≤ 4096 ∧ shaperOk (x.get 0x28 4) (x.get 0x2C 4) = true ∧ 16384 ≤ x.get 0x30 4 ∧ x.get 0x30 4 ≤ 67108864 ∧
        ((x.get 0x26 1 = 0 ∧ x.get 0x34 2 = 0 ∧ x.get 0x38 4 = 0) ∨ (x.get 0x26 1 = 1 ∧ x.get 0x34 2 ≠ 0 ∧ x.get 0x38 4 ≤ 1000000000))
      let q1 : Queue := { q with cfg := x.bytes, rate := if rateOf (x.get 0x28 4) = 0 then 0 else x.get 0x28 4, burst := x.get 0x2C 4, weight := x.get 0x24 2, tok := ⟨(x.get 0x2C 4 * 8000000000 : Nat), e.media⟩, s := 0, f := 0 };
      (q.pkts ≠ [] → ended .tmQueue 0x06) ∧ (q.pkts = [] → ¬ good → ended .tmQueue 0x04) ∧
      (q.pkts = [] → good → idle → exec .tmQueue s = .next { s with dev := (e.putQueueAt n q1).complete x 0 0 })) ∧
    (d.Takes 7 2 tmShapeSpec x e →
      let i := x.get 0x22 2
      let kind := x.get 0x20 1
      let unset := (kind = 1 ∧ (e.portAt i).set = false) ∨ (kind ≠ 1 ∧ (e.queueAt i).cfg = [])
      let good := x.get 0x21 1 ≤ 1 ∧ shaperOk (x.get 0x28 4) (x.get 0x2C 4) = true ∧
        ((kind = 1 ∧ x.get 0x24 1 ≤ 7 ∧ x.get 0x26 2 = 0) ∨ (kind = 0 ∧ x.get 0x24 1 = 0 ∧ x.get 0x26 2 ≤ 4096))
      let waits (t : Nat) (late : Bool) : Prop := exec .tmShape s =
        .next { s with dev := { e with pend := e.pend ++ [{ d := x, unit := 7, op := 2, obj := i, t := t, late := late, since := e.ctl.ticks }] } };
      (unset → ended .tmShape 0x06) ∧ (¬ unset → ¬ good → ended .tmShape 0x04) ∧
      (¬ unset → good →
        (x.eff = 0 → waits ((e.media / 1000 + 1) * 1000) false) ∧
        (x.eff ≠ 0 → e.media ≤ x.eff → waits (ceilDiv x.eff 1000 * 1000) false) ∧
        (x.eff ≠ 0 → x.eff < e.media → x.strict = false → waits ((e.media / 1000 + 1) * 1000) true) ∧
        (x.eff ≠ 0 → x.eff < e.media → x.strict = true → ended .tmShape 0x0A))) ∧
    (d.Takes 7 3 tmPortSpec x e →
      let p := x.get 0x20 1
      let k := e.portAt p
      let o := toSigned 8 (x.get 0x21 1)
      let good := -32 ≤ o ∧ o ≤ 63 ∧ ∀ c, c < 8 → shaperOk (x.get (0x38 + 8 * c) 4) (x.get (0x3C + 8 * c) 4) = true ∧
        (bitN (x.get 0x22 1) c = true → x.get (0x24 + 2 * c) 2 = 0) ∧ (bitN (x.get 0x22 1) c = false → 1 ≤ x.get (0x24 + 2 * c) 2 ∧ x.get (0x24 + 2 * c) 2 ≤ 4096)
      (¬ good → ended .tmPort 0x04) ∧
      (good → k.tx ≠ none → exec .tmPort s = .next { s with dev := { e with pend := e.pend ++ [{ d := x, unit := 7, op := 3, obj := p, since := e.ctl.ticks }] } }) ∧
      (good → k.tx = none → idle → Completes .tmPort s fun f =>
        (f.portAt p).set = true ∧ (f.portAt p).overhead = o ∧ (f.portAt p).strict = x.get 0x22 1 ∧ (f.portAt p).oper = k.oper ∧ (f.portAt p).admin = k.admin ∧
        (f.portAt p).gateMask = k.gateMask ∧ (f.portAt p).tx = none ∧
        (∀ c, c < 8 → (f.portAt p).class_ c = { k.class_ c with
          weight := x.get (0x24 + 2 * c) 2, rate := if rateOf (x.get (0x38 + 8 * c) 4) = 0 then 0 else x.get (0x38 + 8 * c) 4, burst := x.get (0x3C + 8 * c) 4,
          tok := reshape (k.class_ c).tok (k.class_ c).rate (k.class_ c).burst (x.get (0x3C + 8 * c) 4) e.media false }) ∧
        (∀ j, j ≠ p → f.portAt j = e.portAt j) ∧ f = { e with port := f.port, chk := (e.cutTaps 3 p).chk, thr := f.thr, dsp := f.dsp, mem := f.mem, poison := f.poison })) ∧
    (d.Takes 7 4 tmGateSpec x e →
      let p := x.get 0x20 1
      let k := e.portAt p
      let b := x.get 0x28 8
      let cyc := x.get 0x30 4
      let n := if e.media + 2000 ≤ b then 0 else ceilDiv (e.media + 2000 - b) cyc
      let es := e.gateEntries x
      let good := x.get 0x22 2 ≤ 1024 ∧ 1000 ≤ cyc ∧ cyc ≤ 1000000000 ∧ x.get 0x38 8 % 8 = 0 ∧ (x.get 0x22 2 = 0 → x.get 0x38 8 = 0) ∧
        ∀ q ∈ es, q.2.1 = 0 ∧ 64 ≤ q.2.2 ∧ q.2.2 ≤ 1000000000
      let g : GateList := { base := b, cycle := cyc, entries := es.map fun q => (q.1, q.2.2), start := b + n * cyc, n := n };
      (e.poisoned (x.get 0x38 8) (x.get 0x22 2 * 8) = true → ended .tmGate 0x06) ∧
      (e.poisoned (x.get 0x38 8) (x.get 0x22 2 * 8) = false →
        (¬ good → ended .tmGate 0x04) ∧
        (good → n ≠ 0 → x.strict = true → k.admin = none → exec .tmGate s = .next { s with dev := (e.raise 40).complete x 0x0A 0 }) ∧
        (∀ g0 y, good → n ≠ 0 → x.strict = true → k.admin = some (g0, y) →
          exec .tmGate s = .next { s with dev := (((e.complete y 0x0B 0).putPortAt p { k with admin := none }).raise 40).complete x 0x0A 0 }) ∧
        (good → (n = 0 ∨ x.strict = false) → k.admin = none → exec .tmGate s = .next { s with dev := e.putPortAt p { k with admin := some (g, x) } }) ∧
        (∀ g0 y, good → (n = 0 ∨ x.strict = false) → k.admin = some (g0, y) →
          exec .tmGate s = .next { s with dev := (e.complete y 0x0B 0).putPortAt p { k with admin := some (g, x) } }))) ∧
    (d.Takes 7 5 tmPolicerSpec x e →
      let n := x.get 0x20 2
      let y := e.policer n
      let m := x.get 0x2B 1
      let r := x.get 0x30 4
      let r2 := x.get 0x38 4
      let cbs := x.get 0x34 4
      let ebs := x.get 0x3C 4
      let clash := ∃ q ∈ e.pol, q.1 ≠ n ∧ q.2.cfg ≠ [] ∧ q.2.port = x.get 0x22 1 ∧ q.2.get 0x2B 1 = m ∧
        (m = 0 ∨ (q.2.get 0x40 16 = x.get 0x40 16 ∧ q.2.get 0x2C 2 = x.get 0x2C 2))
      let good := x.get 0x23 1 ≤ 1 ∧ x.get 0x24 1 ≤ 1 ∧ x.get 0x28 1 ≤ 63 ∧ x.get 0x29 1 ≤ 63 ∧ x.get 0x2A 1 ≤ 63 ∧ m ≤ 1 ∧
        (m = 0 → x.get 0x2C 2 = 0 ∧ zeroBytes x.bytes 0x40 16 = true) ∧ x.get 0x2E 1 ≤ 1 ∧ rateOk r = true ∧ rateOk r2 = true ∧ 1536 ≤ cbs ∧ cbs ≤ 16777216 ∧
        ebs ≤ 16777216 ∧ (x.get 0x23 1 = 0 → r2 = 0) ∧ (x.get 0x23 1 = 1 → rateOf r ≤ rateOf r2 ∧ cbs ≤ ebs) ∧ (x.get 0x24 1 = 0 → zeroBytes x.bytes 0x50 16 = true)
      let full (cap : Nat) : Bucket := ⟨(cap * 8000000000 : Nat), e.media⟩
      let cut (z : Bucket) (cap : Nat) : Bucket := ⟨min z.level (cap * 8000000000 : Nat), e.media⟩
      ((¬ good ∨ clash) → ended .tmPolicer 0x04) ∧
      (good → ¬ clash → (y.cfg = [] ∨ x.get 0x2E 1 = 1) →
        exec .tmPolicer s = .next { s with dev := (e.putPolicer n { y with cfg := x.bytes, c := full cbs, e := full ebs }).complete x 0 0 }) ∧
      (good → ¬ clash → y.cfg ≠ [] → x.get 0x2E 1 = 0 →
        exec .tmPolicer s = .next { s with dev := (e.putPolicer n { y with cfg := x.bytes, c := cut (y.fill e.media).c cbs, e := cut (y.fill e.media).e ebs }).complete x 0 0 })) ∧
    (d.Takes 7 6 tmReleaseSpec x e →
      let i := x.get 0x22 2
      let kind := x.get 0x20 1
      let used := ∃ q ∈ e.flow, q.2.configured = true ∧ (q.2.queueA = i ∨ q.2.queueB = i)
      (kind = 0 → (used ∨ (e.queueAt i).pkts ≠ []) → ended .tmRelease 0x06) ∧ (1 < kind → ended .tmRelease 0x04) ∧
      (kind = 0 → ¬ used → (e.queueAt i).pkts = [] → idle → exec .tmRelease s = .next { s with dev := (e.putQueueAt i {}).complete x 0 0 }) ∧
      (kind = 1 → exec .tmRelease s = .next { s with dev := (e.putPolicer i {}).complete x 0 0 })) ∧
    (∀ p, d.pend = [p] → p.unit = 7 → p.op = 2 →
      let q := d.queueAt p.obj
      let g : Dev := { d with pend := [] }
      let rate := if rateOf (p.d.get 0x28 4) = 0 then 0 else p.d.get 0x28 4
      let burst := p.d.get 0x2C 4
      let st := if p.late then 1 else 0;
      (d.media < p.t → exec .shapeTakesEffect s = .next s) ∧
      (p.t ≤ d.media → p.d.get 0x20 1 = 0 →
        let q1 : Queue := { q with rate := rate, burst := burst, weight := if p.d.get 0x26 2 = 0 then q.weight else p.d.get 0x26 2, tok := reshape q.tok q.rate q.burst burst p.t (p.d.get 0x21 1 == 1) }
        exec .shapeTakesEffect s = .next { s with dev := (g.putQueueAt p.obj q1).complete p.d st p.t }) ∧
      (p.t ≤ d.media → p.d.get 0x20 1 = 1 →
        let c := p.d.get 0x24 1
        let k := (d.portAt p.obj).class_ c
        let k1 : PortClass := { k with rate := rate, burst := burst, tok := reshape k.tok k.rate k.burst burst p.t (p.d.get 0x21 1 == 1) }
        exec .shapeTakesEffect s = .next { s with dev := (g.putPortAt p.obj ((d.portAt p.obj).putClass c k1)).complete p.d st p.t }))

/-- Frames in and out (R422 to R424, R428 to R432, R436, R438 to R441, R443, R445, R446, R448, R481, R609): a frame received is coloured, counted and passed, remarked or
dropped; a packet handed over enters its queue or is dropped and counted; a port whose MAC is free starts the packet of the strict class that holds one; the
frame that ends frees the port; a list becomes operational at its start, and the gates follow it. -/
def Obligations.TrafficFlow : Prop :=
  ∀ (s : State) (p : Fin 128),
    let d := s.dev
    let k := d.portAt p
    (∀ f : InFrame,
      let notice (act dscp : Nat) : OutEv := .notice "INGRESS" p act dscp
      let leaves (e : Dev) : Prop := exec (.ingressFrameRx p f) s = .next { s with dev := e }
      let from_ : NetAddr := if f.isIp then ⟨p, f.dst, f.udp⟩ else ⟨p, 0, 0⟩
      ((d.portUp p = false ∨ f.fcsOk = false ∨ 9216 < f.bytes) → leaves ((d.emit (notice 0 f.dscp)).dropFrame from_)) ∧
      (d.portUp p = true → f.fcsOk = true → f.bytes ≤ 9216 →
        (d.policerOf p f = none → leaves (d.emit (notice 1 f.dscp))) ∧
        (∀ n, d.policerOf p f = some n →
          let z := (d.policer n).fill d.media
          let b : Int := (k.counted f.bytes * 8000000000 : Nat)
          let c1 : Bucket := { z.c with level := z.c.level - b }
          let e1 : Bucket := { z.e with level := z.e.level - b }
          let two := z.get 0x23 1 ≠ 0
          let acts (col : Nat) (y : Policer) : Prop :=
            let act := z.get (0x25 + col) 1
            (act % 4 = 0 → leaves ((d.putPolicer n y).emit (notice 1 f.dscp))) ∧
            (act % 4 = 1 → f.isIp = false → leaves ((d.putPolicer n y).emit (notice 1 f.dscp))) ∧
            (act % 4 = 1 → f.isIp = true → f.v4 = false → leaves ((d.putPolicer n y).emit (notice 2 (z.get (0x28 + col) 1)))) ∧
            (act % 4 = 1 → f.isIp = true → f.v4 = true → leaves (((d.putPolicer n y).emit (notice 2 (z.get (0x28 + col) 1))).emit
              (.notice "INGRESS_CHECKSUM" p (remark f.check f.dscp (z.get (0x28 + col) 1)) (z.get (0x28 + col) 1)))) ∧
            (2 ≤ act % 4 → leaves (((if col = 2 then (d.putPolicer n y).raise 38 else d.putPolicer n y).emit (notice 0 f.dscp)).dropFrame from_))
          let cnt (col : Nat) : Nat := if bitN (z.get (0x25 + col) 1) 2 then 1 else 0
          (z.preColour f = 0 → b ≤ z.c.level → (two → b ≤ z.e.level) → (z.green < 2 ^ 32 - 1 →
            acts 0 { z with c := c1, e := if z.get 0x23 1 = 0 then z.e else e1, green := z.green + cnt 0 })) ∧
          (z.preColour f ≠ 2 → b ≤ z.e.level → (z.c.level < b ∨ z.preColour f = 1) → z.yellow < 2 ^ 32 - 1 →
            acts 1 { z with e := e1, yellow := z.yellow + cnt 1 }) ∧
          ((z.preColour f = 2 ∨ (z.e.level < b ∧ (two ∨ z.c.level < b ∨ z.preColour f = 1))) → z.red < 2 ^ 32 - 1 → acts 2 { z with red := z.red + cnt 2 })))) ∧
    (∀ (n : Nat) (x : Packet) (rest : List (Nat × Packet)), d.tmIn = (n, x) :: rest → x.opens = none →
      let g : Dev := { d with tmIn := rest }
      let q := d.queueAt n
      let drop : Dev := (g.putQueueAt n { q with drops := min (2 ^ 32 - 1) (q.drops + 1) }).freePkts [x]
      let leaves (e : Dev) : Prop := exec .packetEnqueue s = .next { s with dev := e }
      let ov := if q.paced && decide (q.get 0x34 2 ≤ x.idx) then min 65535 (q.over_ + 1) else q.over_
      (q.cfg = [] → leaves (drop.raise 39)) ∧
      (q.cfg ≠ [] → (d.halted = true ∨ d.portUp q.port = false) → leaves drop) ∧
      (q.cfg ≠ [] → d.halted = false → d.portUp q.port = true →
        (q.limit < q.bytes + x.frame → leaves (drop.raise 39)) ∧
        (q.bytes + x.frame ≤ q.limit → q.pkts ≠ [] → leaves (g.putQueueAt n { q with pkts := q.pkts ++ [x], over_ := ov })) ∧
        (q.bytes + x.frame ≤ q.limit → q.pkts = [] →
          let y := (d.portAt q.port).class_ q.cls
          let f := (y.v + (d.portAt q.port).counted x.frame * 4096 / max q.weight 1) % 2 ^ 64
          let g1 := if (g.busyQueues q.port q.cls).isEmpty then g.putPortAt q.port ((d.portAt q.port).putClass q.cls { y with deficit := 0 }) else g
          leaves (g1.putQueueAt n { q with pkts := [x], s := y.v, f := f, over_ := ov })))) ∧
    (∀ (n c : Nat) (x : Packet), d.tmIn = [(n, x)] → x.opens = some c → x.udp ≤ x.bytes.length → 1316 ≤ x.udp → (d.queueAt n).cfg ≠ [] → d.halted = false → d.portUp (d.queueAt n).port = true →
      (d.queueAt n).pkts = [] → x.frame ≤ (d.queueAt n).limit → (d.queueAt n).paced = false →
      Completes .packetEnqueue s fun e => ∃ z : Packet, (e.queueAt n).pkts = [z] ∧ z.bytes.length = x.bytes.length ∧ z = { x with opens := none, bytes := z.bytes } ∧
        ∀ i, i < 7 → (z.body.drop (x.udp - 1316 + 188 * i)).take 188 = setPcr d.pcrNow ((x.body.drop (x.udp - 1316 + 188 * i)).take 188)) ∧
    (k.tx ≠ none ∨ d.portUp p = false ∨ d.halted = true → exec (.portSchedule p) s = .next s) ∧
    (∀ (n : Fin 8192) (q : Queue) (x : Packet) (rest : List Packet) (c : Fin 8),
      let y := k.class_ c
      let t := d.media
      let len := k.counted x.frame
      let starts (i : Instr) : Prop :=
        let v1 := if q.s ≤ y.v then y.v else q.s
        let y1 : PortClass := { y with v := (v1 + len * 4096 / max q.weight 1) % 2 ^ 64, tok := if y.rate = 0 then y.tok else y.tok.take y.rate y.burst t len }
        let f1 := match rest with | z :: _ => (q.f + k.counted z.frame * 4096 / max q.weight 1) % 2 ^ 64 | [] => q.f
        Completes i s fun e =>
          (e.portAt p).tx = some (x, t + wireNs (d.portMbps p) (x.frame + 20)) ∧ (e.portAt p).class_ c = y1 ∧
          (∀ j, j ≠ c.val → (e.portAt p).class_ j = k.class_ j) ∧
          e.queueAt n = { q with pkts := rest, s := q.f, f := f1, tok := if q.rate = 0 then q.tok else q.tok.take q.rate q.burst t len, late := if q.paced && decide (q.slotTime x + 1000 < d.cadence) then min 65535 (q.late + 1) else q.late } ∧
          e = { d with port := e.port, queue := e.queue }
      d.queue = [(n.val, q)] → q.cfg ≠ [] → q.port = p → q.cls = c → q.pkts = x :: rest → k.tx = none → d.portUp p = true → d.halted = false → bitN k.strict c = true →
      k.oper = none → k.admin = none → bitN k.gateMask c = true → (q.rate = 0 ∨ 0 ≤ q.tok.now q.rate q.burst t) → (y.rate = 0 ∨ 0 ≤ y.tok.now y.rate y.burst t) →
      (q.paced = true → q.slotTime x ≤ d.cadence) →
      starts (.portSchedule p) ∧ (q.paced = true → starts (.paceSlot n)) ∧ (q.rate ≠ 0 → starts (.shaperCountReachesZero false n c)) ∧
      (y.rate ≠ 0 → starts (.shaperCountReachesZero true ⟨p.val, Nat.lt_trans p.isLt (by decide)⟩ c))) ∧
    (∀ (x : Packet) (t : Nat), k.tx = some (x, t) →
      let fcs := toLE 4 (crcResult 32 true 0xFFFFFFFF (crcFeed 32 0x04C11DB7 true 0xFFFFFFFF x.bytes))
      let sent (g : Dev) : Dev :=
        { (((g.putPortAt p { k with tx := none }).freePkts [x]).tapUnit 3 p none x.bytes false).emit (.egress p (x.bytes ++ fcs)) with prl := { g.prl with taps := g.prl.taps ++ [⟨64 ≤ p.val, p, x.flow, x.copyB, x.fec, x.udp⟩] } }
      (d.media < t → exec (.frameTxDone p) s = .next s) ∧
      (t ≤ d.media → (∀ q ∈ d.pend, q.unit ≠ 7) → exec (.frameTxDone p) s = .next { s with dev := sent d }) ∧
      (∀ q, t ≤ d.media → d.pend = [q] → q.unit = 7 → q.op = 3 → q.obj = p → q.t = 0 → q.twin = .none → q.late = false →
        exec (.frameTxDone p) s = .next { s with dev := ((sent { d with pend := [] }).applyPort q.d).complete q.d 0 0 })) ∧
    (∀ (g : GateList) (x : Desc), k.admin = some (g, x) →
      let live := d.putPortAt p { k with oper := some g, admin := none, gateMask := g.maskAt d.media }
      (d.media < g.start → exec (.gateListOperational p) s = .next s) ∧
      (g.start ≤ d.media → g.n = 0 → exec (.gateListOperational p) s = .next { s with dev := live.complete x 0 g.start }) ∧
      (g.start ≤ d.media → g.n ≠ 0 → exec (.gateListOperational p) s = .next { s with dev := (live.raise 40).complete x 1 g.start })) ∧
    (k.maskAt d.media = k.gateMask → exec (.gateEntryChange p) s = .next s) ∧
    (k.maskAt d.media ≠ k.gateMask → (k.tx ≠ none ∨ d.portUp p = false ∨ d.halted = true) →
      exec (.gateEntryChange p) s = .next { s with dev := d.putPortAt p { k with gateMask := k.maskAt d.media } })

/-! ## The time base (chapter 15) -/

/-- The time base (R453, R456 to R461, R463, R466, R469 to R472, R474, Tables 15.1, 15.3, 15.4, 15.9, 15.10): samples are committed and move the servo by its integrator and
its table of states, or step the counter; holdover; reading and setting the counter; PPS in and out, time of day, and PTP time-stamps. -/
def Obligations.TimeKeeping : Prop :=
  ∀ (s : State) (x : Desc) (e : Dev) (v : Word) (p : Fin 128) (m : PtpMsg) (utc : Nat),
    let d := s.dev
    let t := d.tb
    let tbIs (i : Instr) (t1 : TimeBase) : Prop := exec i s = .next { s with dev := { d with tb := t1 } }
    let ended (i : Instr) (st : Nat) : Prop := exec i s = .next { s with dev := e.complete x st 0 }
    let within (lo hi v : Int) : Prop := lo ≤ v ∧ v ≤ hi
    (d.Takes 8 1 ptpPortSpec x e →
      let q := x.get 0x20 1
      let good := x.get 0x21 1 ≤ 1 ∧ x.get 0x22 1 ≤ 127 ∧ x.get 0x23 1 ≤ 1 ∧ x.get 0x24 1 ≤ 2 ∧ x.get 0x25 1 ≤ 1 ∧ within (-7) 0 (toSigned 8 (x.get 0x26 1)) ∧
        within (-3) 1 (toSigned 8 (x.get 0x27 1)) ∧ within (-7) 0 (toSigned 8 (x.get 0x28 1)) ∧ 2 ≤ x.get 0x29 1 ∧ x.get 0x29 1 ≤ 10 ∧
        within (-10000000) 10000000 (toSigned 64 (x.get 0x30 8))
      let full := x.get 0x21 1 = 1 ∧ e.ptpOn q = false ∧ 4 ≤ (e.tb.ptp.filter fun z => byteAt z.2 1 == 1).length;
      (¬ good → ended .timePtpPort 0x04) ∧ (good → full → ended .timePtpPort 0x02) ∧
      (good → ¬ full → exec .timePtpPort s =
        .next { s with dev := ({ e with tb := { e.tb with ptp := e.tb.ptp.put [] q (x.bytes.drop 0x20) } } : Dev).complete x 0 0 })) ∧
    (d.Takes 8 2 outputsSpec x e →
      let good := x.get 0x20 1 ≤ 2 ∧ x.get 0x21 1 ≤ 1 ∧ x.get 0x22 2 ≠ 0 ∧ x.get 0x24 1 ≤ 2 ∧ x.get 0x25 1 ≤ 1 ∧ within (-1000000) 1000000 (toSigned 32 (x.get 0x28 4))
      let stay := e.tb.ppsInOn && x.get 0x25 1 == 1
      let low := x.get 0x21 1 == 0
      let tod := if x.get 0x24 1 = 0 then none else e.tb.todSec
      let t1 : TimeBase := { e.tb with outs := x.bytes.drop 0x20, ppsEdge := if stay then e.tb.ppsEdge else none, ppsGap := stay && e.tb.ppsGap, ppsOut := e.tb.ppsOut && !low, ppsFall := if low then none else e.tb.ppsFall, todSec := tod }
      let out1 := if e.tb.ppsOut && low then e.out ++ [.pin "PPS_OUT" false] else e.out;
      (¬ good → ended .timeOutputs 0x04) ∧
      (good → exec .timeOutputs s = .next { s with dev := ({ e with tb := t1, out := out1 } : Dev).complete x 0 0 })) ∧
    (t.source ≠ 0 → exec (.tbOffsetHiWrite v) s = .next s) ∧
    (t.source = 0 → tbIs (.tbOffsetHiWrite v) { t with offHi := v, sample := some (toSigned 64 (t.offLo.toNat + v.toNat * 2 ^ 32)), overrun := t.overrun || t.sample.isSome }) ∧
    (t.sample = none → exec .servoSample s = .next s) ∧
    (∀ z, t.sample = some z →
      let t0 : TimeBase := { t with sample := none, lastSmp := some d.ctl.ticks }
      let lost (f : Dev) : Prop := if t.servo = 2 then f.flt.live.getLsbD 41 = true else f.flt = d.flt
      (t.stepLimit * 1000 * 2 ^ 24 < z.natAbs → Completes .servoSample s fun f =>
        (f.tb.total : Int) = ((t.total : Int) - z * 256) % (2 ^ 48 * 1000000000 * 2 ^ 32) ∧ f.tb.servo = 1 ∧ f.tb.run = 0 ∧ f.tb.sample = none ∧
        f.tb.steps = min 1023 (t.steps + 1) ∧ f.tb.lag = (if d.anyStarted then t.lag - z * 256 else t.lag) ∧ f.tb.y = t.y ∧ f.tb.integ = t.integ ∧ lost f) ∧
      (z.natAbs ≤ t.stepLimit * 1000 * 2 ^ 24 →
        let integ := clampPpm (t.integ + z * 2 ^ (63 - t.ki))
        let y := clampPpm (integ + z * 2 ^ (63 - t.kp))
        let fine := z.natAbs ≤ t.lockLimit * 2 ^ 24
        let stays (run : Nat) : Prop := tbIs .servoSample { t0 with integ := integ, y := y, run := run }
        let goes (st : Nat) (ok : Dev → Prop) : Prop := Completes .servoSample s fun f =>
          f.tb = { t0 with integ := integ, y := y, run := 0, servo := st, lastChg := d.media } ∧ ok f
        (t.servo = 1 → fine → t.run + 1 < 16 → stays (t.run + 1)) ∧ (t.servo = 1 → fine → 16 ≤ t.run + 1 → goes 2 fun f => f.flt.live.getLsbD 41 = false) ∧
        (t.servo = 1 → ¬ fine → stays 0) ∧ (t.servo = 2 → z.natAbs ≤ 4 * t.lockLimit * 2 ^ 24 → stays 0) ∧
        (t.servo = 2 → 4 * t.lockLimit * 2 ^ 24 < z.natAbs → goes 1 lost) ∧ (t.servo = 0 ∨ t.servo = 3 → goes 1 lost))) ∧
    (∀ k, t.lastSmp = some k →
      (d.ctl.ticks < k + t.holdTicks ∨ t.servo = 0 ∨ t.servo = 3 → exec .holdoverTimeout s = .next s) ∧
      (k + t.holdTicks ≤ d.ctl.ticks → t.servo = 1 → tbIs .holdoverTimeout { t with y := t.integ, run := 0, servo := 3, lastChg := d.media }) ∧
      (k + t.holdTicks ≤ d.ctl.ticks → t.servo = 2 → Completes .holdoverTimeout s fun f =>
        f.tb = { t with y := t.integ, run := 0, servo := 3, lastChg := d.media } ∧ f.flt.live.getLsbD 41 = true)) ∧
    (let t1 : TimeBase := { t with latLo := BitVec.ofNat 32 t.sec, latHi := BitVec.ofNat 32 (t.sec / 2 ^ 32), latFrac := BitVec.ofNat 32 t.frac };
      exec .tbNowNsRead s = .next { s with dev := { d with tb := t1, out := d.out ++ [.readData (toLE 4 t.ns)] } }) ∧
    (d.anyStarted = true → tbIs (.tbNowSecHiWrite v) { t with setIgn := true }) ∧
    (d.anyStarted = false →
      let sec := (v.toNat % 2 ^ 16) * 2 ^ 32 + (t.wrLo.getD 0).toNat
      let t1 : TimeBase := { t with sec := sec, lastSec := sec, steps := min 1023 (t.steps + 1) }
      exec (.tbNowSecHiWrite v) s = .next { s with dev := ({ d with tb := t1 } : Dev).recomputeGates }) ∧
    (t.ppsInOn = false → exec .ppsInEdge s = .next s) ∧
    (t.ppsInOn = true →
      let t1 : TimeBase := { t with ppsNs := t.ns, ppsSec := t.sec % 2 ^ 32, ppsValid := true, ppsEdge := some d.ctl.ticks, ppsGap := false }
      let off : Int := (t.ns : Int) - t.ppsDelay
      let z : Int := if 500000000 ≤ off then off - 1000000000 else off
      let t2 : TimeBase := if t.source = 1 then { t1 with offLo := loW (ofSigned 64 (z * 2 ^ 24)), offHi := hiW (ofSigned 64 (z * 2 ^ 24)), sample := some (z * 2 ^ 24), overrun := t.overrun || t.sample.isSome } else t1;
      (min t.ns (1000000000 - t.ns) ≤ t.stepLimit * 1000 → tbIs .ppsInEdge t2) ∧
      (t.stepLimit * 1000 < min t.ns (1000000000 - t.ns) → d.flt.latched.get 0 42 = 0 → Completes .ppsInEdge s fun f => f.tb = t2 ∧ f.flt.status.getLsbD 42 = true)) ∧
    (∀ k, t.ppsEdge = some k →
      (d.ctl.ticks < k + 3300000000 ∨ t.ppsInOn = false ∨ t.ppsGap = true → exec .timePps s = .next s) ∧
      (k + 3300000000 ≤ d.ctl.ticks → t.ppsInOn = true → t.ppsGap = false → d.flt.latched.get 0 42 = 0 → Completes .timePps s fun f =>
        f.tb = { t with ppsGap := true } ∧ f.flt.status.getLsbD 42 = true)) ∧
    (let now := t.sec * 1000000000
      let t1 : TimeBase := { t with lastSec := t.sec, todSec := if t.tod = 0 then none else some t.sec };
      (t.sec ≤ t.lastSec → exec .ppsOutEdge s = .next s) ∧
      (t.lastSec < t.sec → t.ppsOutOn = false → tbIs .ppsOutEdge t1) ∧
      (t.lastSec < t.sec → t.ppsOutOn = true →
        let t2 : TimeBase := { t1 with ppsOut := true, ppsFall := some (now + t.ppsWidth * 1000) }
        exec .ppsOutEdge s = .next { s with dev := { d with tb := t2, out := d.out ++ [.pin "PPS_OUT" true] } }) ∧
      (∀ k, t.ppsFall = some k → k ≤ now + t.ns →
        let t2 : TimeBase := { t with ppsOut := false, ppsFall := none }
        exec .ppsOutFall s = .next { s with dev := { d with tb := t2, out := d.out ++ [.pin "PPS_OUT" false] } }) ∧
      (∀ k, t.ppsFall = some k → now + t.ns < k → exec .ppsOutFall s = .next s) ∧
      (∀ k, t.todSec = some k → t.tod ≠ 0 → k * 1000000000 + 10000000 ≤ now + t.ns →
        exec (.todLineStart utc) s = .next { s with dev := { d with tb := { t with todSec := none }, out := d.out ++ [.tod (if t.tod = 1 then 9600 else 115200) (todLine k utc t.servo)] } })) ∧
    ((d.ptpOn p = false ∨ d.portUp p = false) → (d.absent = [] → exec (.ptpMessageRx p m) s = .next s) ∧ exec (.ptpMessageTx p m) s = .next s) ∧
    (∀ g, d.ptpOn p = true → d.portUp p = true → d.portGroup p = some g →
      let sync := b2n m.sync
      let stamp := t.stamp30 + (ptpConstants g).1 * 3
      let one := m.sync && byteAt (t.ptp.get [] p) 5 == 1
      (d.absent = [] → exec (.ptpMessageRx p m) s = .next { s with dev := d.emit (.notice "PTP_RX" p (t.stamp30 - (ptpConstants g).2 * 3) sync) }) ∧
      (one = false → exec (.ptpMessageTx p m) s = .next { s with dev := d.emit (.notice "PTP_TX" p stamp sync) }) ∧
      (one = true → exec (.ptpMessageTx p m) s = .next { s with dev := (d.emit (.notice "PTP_TX" p stamp sync)).emit (.ptpSync p (ptpStamped m stamp) (m.via == .udp4)) }))

/-! ## Serial lanes (chapter 16) -/

/-- Lanes (R423, R478, R480, R482 to R492, R494 to R499, R501, R642): the LANE unit's descriptors; a lane of its own group through DETECT, TRAIN, LOCK and ACTIVE, failing and
trying again; a loss of lock by protocol and the return of a twin lane; the equaliser caches; raw atoms, slips, and the PRBS generator and checker, whose bits come with the
commands (log entry 55). No lane passes a stage while its octet has no reference clock (R662). -/
def Obligations.SerialLanes : Prop :=
  ∀ (s : State) (x : Desc) (e : Dev) (l : Fin 256) (first : Nat) (g : Group),
    let d := s.dev
    let y := d.laneAt l
    let now := d.ctl.ticks
    let n := x.get 0x20 2
    let h := e.groupAt n
    let ended (i : Instr) (st : Nat) : Prop := exec i s = .next { s with dev := e.complete x st 0 }
    let leaves (i : Instr) (f : Dev) : Prop := exec i s = .next { s with dev := f }
    let other (f : Dev) : Prop := ∀ k, k ≠ n → f.groupAt k = e.groupAt k
    (d.Takes 12 1 laneConfigureSpec x e →
      let w := x.get 0x22 1
      let proto := x.get 0x23 1
      let busy := (∃ i, i < w ∧ e.groupOf (n + i) ≠ none) ∨ (proto = 1 ∧ e.portGroup (x.get 0x24 1) ≠ none) ∨ e.dozing = true;
      (busy → ended .laneConfigure 0x06) ∧
      (¬ busy → ((w ≠ 1 ∧ w ≠ 2 ∧ w ≠ 4 ∧ w ≠ 8) ∨ (proto ≠ 1 ∧ proto ≠ 4 ∧ proto ≠ 5) ∨ (proto ≠ 1 ∧ w ≠ 1) ∨ 255 < n ∨ n % w ≠ 0 ∨ 48 < x.get 0x2E 1) → ended .laneConfigure 0x04) ∧
      (¬ busy → laneBadField x = false →
        (laneBadFormat x = true → ended .laneConfigure 0x09) ∧ (laneBadFormat x = false → e.octetFull (n / 8) (x.get 0x28 4) = true → ended .laneConfigure 0x02) ∧
        (laneBadFormat x = false → e.octetFull (n / 8) (x.get 0x28 4) = false → Completes .laneConfigure s fun f =>
          let g1 : Group := { proto := proto, width := w, cfg := x.bytes, stage := .detect, since := e.ctl.ticks }
          f.groupAt n = g1 ∧ other f ∧
          (∀ i, i < w →
            let z := e.laneAt (n + i)
            let z1 : Lane := { z.wake e.ctl.ticks with dfe := if g1.pam4 then (z.wake e.ctl.ticks).dfe else 0, inSvc := false, chkLock := false, sdiRate := 0, retrain := none, relock := none }
            f.laneAt (n + i) = if proto = 4 then { z1 with rawPtr := 0, txPtr := 0, slips := 0, rxBits := [] } else z1) ∧
          (∀ k, k < n ∨ n + w ≤ k → f.laneAt k = e.laneAt k) ∧
          f = { e with group := f.group, lane := f.lane, dsp := f.dsp, thr := f.thr, mem := f.mem, poison := f.poison }))) ∧
    (d.Takes 12 2 (laneGroupSpec [(0x22, 30)]) x e →
      (h.own = false → ended .laneRelease 0x06) ∧
      (h.own = true → Completes .laneRelease s fun f =>
        f.groupAt n = {} ∧ other f ∧
        (∀ i, i < h.width →
          let z := e.laneAt (n + i)
          f.laneAt (n + i) = { z with inSvc := false, chkLock := false, sdiRate := 0, idleAt := some (z.idleAt.getD e.ctl.ticks), retrain := none, relock := none, freed := some e.ctl.ticks }) ∧
        (∀ k, k < n ∨ n + h.width ≤ k → f.laneAt k = e.laneAt k))) ∧
    (d.Takes 12 3 (laneGroupSpec [(0x23, 29)]) x e →
      let on := x.get 0x22 1
      let quick := (∀ i, i < h.width → e.ctl.ticks ≤ h.idleAt + (e.laneAt (n + i)).holdTicks ∧ (e.laneAt (n + i)).cache = true) ∧ h.an = false ∧ ¬ (h.proto = 1 ∧ h.lt = true) ∧
        h.midway = false ∧ e.octetRuns n = true;
      ((h.own = false ∨ e.dozing = true) → ended .laneIdle 0x06) ∧
      (h.own = true → e.dozing = false →
        (1 < on → ended .laneIdle 0x04) ∧ ((on = 1 ∧ h.stage = .idle) ∨ (on = 0 ∧ h.stage ≠ .idle) → ended .laneIdle 0) ∧
        (on = 1 → h.stage ≠ .idle → Completes .laneIdle s fun f =>
          f.groupAt n = { h with stage := .idle, passed := [], retryAt := none, down := false, idleAt := e.ctl.ticks, dormant := false, midway := h.stage != .active && !(List.range h.width).any fun i => (e.laneAt (n + i)).lostAt == some e.ctl.ticks } ∧ other f ∧
          (∀ i, i < h.width → f.laneAt (n + i) = { e.laneAt (n + i) with inSvc := false, chkLock := false, idleAt := some e.ctl.ticks })) ∧
        (on = 0 → h.stage = .idle → Completes .laneIdle s fun f =>
          ((f.groupAt n).stage = .lock ∨ (f.groupAt n).stage = .detect) ∧ ((f.groupAt n).stage = .lock ↔ quick) ∧ (f.groupAt n).since = e.ctl.ticks ∧ other f ∧
          (∀ i, i < h.width → f.laneAt (n + i) = (e.laneAt (n + i)).wake e.ctl.ticks ∧
            (∀ t, (e.laneAt (n + i)).idleAt = some t → e.ctl.ticks ≤ t + (e.laneAt (n + i)).holdTicks → f.laneAt (n + i) = { e.laneAt (n + i) with idleAt := none, polled := none }) ∧
            (∀ t, (e.laneAt (n + i)).idleAt = some t → t + (e.laneAt (n + i)).holdTicks < e.ctl.ticks →
              (f.laneAt (n + i)).cache = false ∧ (f.laneAt (n + i)).ctle = 16 ∧ (f.laneAt (n + i)).dfe = 0 ∧ (f.laneAt (n + i)).tx = 0x400000#32)) ∧
          f.out = e.out ++ (List.range h.width).map fun i => .notice "LANE_BURST" (n + i) 128 0))) ∧
    (d.Takes 12 4 (laneGroupSpec [(0x26, 26)]) x e →
      let p := x.get 0x22 1
      let clear := x.get 0x25 1
      let good := (p = 0 ∨ p = 7 ∨ p = 9 ∨ p = 15 ∨ p = 23 ∨ p = 31) ∧ x.get 0x23 1 ≤ 1 ∧ x.get 0x24 1 ≤ 3 ∧ clear ≤ 1
      let z := e.laneAt n
      let z1 : Lane := { z with chkLock := false, run := 0, win := [], prbsErr := if clear = 1 then 0 else z.prbsErr, prbsBits := if clear = 1 then 0 else z.prbsBits };
      (h.proto ≠ 5 → ended .laneTest 0x06) ∧ (h.proto = 5 → ¬ good → ended .laneTest 0x04) ∧
      (h.proto = 5 → good →
        leaves .laneTest (((e.putGroupAt n { h with pattern := p, check := x.get 0x23 1 == 1, loopback := x.get 0x24 1, testAt := some e.ctl.ticks, stage := if h.stage == .lock && z.lostAt == some e.ctl.ticks then .active else h.stage }).putLaneAt n z1).complete x 0 0))) ∧
    (d.groupOf l = none → ∀ (b : Bool) (fd : DetectFacts) (fa : LaneFacts), leaves (.detectPoll (.general l) fd) d ∧ leaves (.bringupStagePass (.general l) fa) d ∧
      (y.freed ≠ some now → leaves (.laneLockLoss (.general l) b) d)) ∧
    (d.groupOf l = some (l.val, g) → d.groupAt l = g → g.width = 1 → ∀ (fa : LaneFacts) (fd : DetectFacts) (energy : Bool),
      let enters (i : Instr) (st : Stage) (down : Bool) (P : Lane → Prop) : Prop := Completes i s fun f =>
        f.groupAt l = { g with stage := st, passed := [], since := now, retryAt := none, down := down, been := g.been || st == .active, warm := (f.groupAt l).warm } ∧ (∀ k, k ≠ l.val → f.groupAt k = d.groupAt k) ∧
        P (f.laneAt l) ∧ (∀ k, k ≠ l.val → f.laneAt k = d.laneAt k) ∧
        f = { d with group := f.group, lane := f.lane, flt := f.flt, hub := f.hub, flow := f.flow, queue := f.queue, casc := f.casc, waiting := f.waiting, out := f.out, ctl := { d.ctl with octClk := f.ctl.octClk } }
      let found : Prop := fd.clk = true ∧ if g.proto = 2 ∨ g.get 0x2C 1 = 1 then 3000000 ≤ fd.energy else fd.term = true
      let failed : Dev := (d.putGroupAt l { g with passed := [], retryAt := some (now + 30000000) }).putLaneAt l { y with retries := min 65535 (y.retries + 1) };
      (g.stage = .detect → g.an = false → (∀ t, y.polled = some t → t + 3000000 ≤ now) → found → enters (.detectPoll (.general l) fd) .train g.down fun z =>
        (y.cache = true → g.proto ≠ 2 → y.cRate = g.kbps → g.fixedCtle = false → g.lt = true → z = { y with polled := some now, ctle := y.cCtle, dfe := y.cDfe, tx := y.cTx }) ∧
        (y.cache = false → (g.own = false ∨ (g.fixedCtle = false ∧ g.lt = true)) → z = { y with polled := some now })) ∧
      (g.stage = .detect → (∀ t, y.polled = some t → t + 3000000 ≤ now) → ¬ found → Completes (.detectPoll (.general l) fd) s fun f =>
        f.groupAt l = { g with passed := g.passed.filter (· != l.val) } ∧ (∀ k, k ≠ l.val → f.groupAt k = d.groupAt k) ∧
        f.laneAt l = { y with polled := some now } ∧ (∀ k, k ≠ l.val → f.laneAt k = d.laneAt k) ∧ f.octetRuns l = fd.clk ∧
        f = { d with group := f.group, lane := f.lane, ctl := { d.ctl with octClk := f.ctl.octClk } }) ∧
      (∀ t, y.polled = some t → now < t + 3000000 → leaves (.detectPoll (.general l) fd) d) ∧
      (g.retryAt = none → d.octetRuns l = false → leaves (.bringupStagePass (.general l) fa) d) ∧
      (g.retryAt = none → g.passed = [] → d.octetRuns l = true → (∀ k, g.limit = some k → now ≤ g.since + k) →
        (g.stage = .train → enters (.bringupStagePass (.general l) fa) .lock g.down fun z =>
          z = (({ y.adapted g fa with tx := if g.lt = true ∨ g.proto = 3 then fa.tx else y.tx } : Lane).cached g now)) ∧
        (g.stage = .lock → g.an = false → g.proto ≠ 3 → g.proto ≠ 2 → enters (.bringupStagePass (.general l) fa) .active false fun z => z = { y with inSvc := true }) ∧
        (g.stage = .lock → g.proto = 2 →
          let rate := 8 - min 7 ((now - g.since) / 12000000)
          (fa.sdiRate = rate → enters (.bringupStagePass (.general l) fa) .active false fun z => z = { y with inSvc := true, sdiRate := rate }) ∧
          (fa.sdiRate ≠ rate → leaves (.bringupStagePass (.general l) fa) d)) ∧
        (g.limit ≠ none → leaves (.bringupStageTimeout (.general l)) d)) ∧
      (g.retryAt = none → g.stage = .train ∨ g.stage = .lock ∨ g.stage = .caps →
        (g.limit = none → leaves (.bringupStageTimeout (.general l)) failed) ∧
        (∀ k, g.limit = some k → g.since + k < now → leaves (.bringupStageTimeout (.general l)) failed ∧
          (g.passed = [] → d.octetRuns l = true → leaves (.bringupStagePass (.general l) fa) failed))) ∧
      (∀ t, g.retryAt = some t → (now < t → leaves (.bringupRetry (.general l)) d) ∧ (t ≤ now → enters (.bringupRetry (.general l)) .detect g.down fun z => z = y)) ∧
      (g.stage = .active → g.testAt ≠ some now → (g.proto = 2 ∨ g.proto = 4 ∨ g.proto = 5) → enters (.laneLockLoss (.general l) energy) .lock g.down fun z =>
        z = { y with losses := min 65535 (y.losses + 1), chkLock := false, lostAt := some now, inSvc := false, sdiRate := 0 }) ∧
      (g.stage = .active → g.testAt = some now → y.lostAt ≠ some now → Completes (.laneLockLoss (.general l) energy) s fun f =>
        f.groupAt l = g ∧ f.laneAt l = { y with losses := min 65535 (y.losses + 1), chkLock := false, lostAt := some now } ∧ (d.flt.latched.get 0 43 = 0 → f.flt.status.getLsbD 43 = true)) ∧
      (g.stage = .active → g.testAt ≠ some now → g.proto = 1 → enters (.laneLockLoss (.general l) energy) (if energy && !g.an then .train else .detect) true fun z =>
        z.losses = min 65535 (y.losses + 1) ∧ z.inSvc = false ∧ z.chkLock = false)) ∧
    (d.groupOf l = some (first, g) → g.stage = .active → ∀ (fa : LaneFacts) (who : Requester) (v : Word) (bs : List Byte) (b : Bool) (rx : List Bool),
      (g.testAt ≠ some now → g.proto = 1 → d.groupAt first = g → Completes (.laneLockLoss (.general l) b) s fun f => f.flt.live.getLsbD 44 = true ∧ (d.flt.latched.get 0 43 = 0 → f.flt.status.getLsbD 43 = true)) ∧
      (g.testAt ≠ some now → g.proto = 3 → d.twin.lanesUp.filter (· != l.val) ≠ [] → d.flt.latched.get 0 43 = 0 → Completes (.laneLockLoss (.general l) b) s fun f =>
        f.laneAt l = { y with losses := min 65535 (y.losses + 1), chkLock := false, lostAt := some now, inSvc := false, retrain := some now, relock := none
                              ctle := if y.cache && y.cRate == 112500000 then y.cCtle else y.ctle, dfe := if y.cache && y.cRate == 112500000 then y.cDfe else y.dfe
                              tx := if y.cache && y.cRate == 112500000 then y.cTx else y.tx } ∧
        f.twin = { d.twin with lanesUp := d.twin.lanesUp.filter (· != l.val) } ∧ f.flt.status.getLsbD 43 = true) ∧
      (∀ t, y.retrain = some t → y.relock = none → g.retryAt = none → l.val ∉ g.passed → d.octetRuns l = true →
        leaves (.bringupStagePass (.general l) fa) (d.putLaneAt l { (y.trained g fa).cached g now with relock := some now })) ∧
      (∀ t, g.proto = 3 → y.relock = some t →
        let back := { d with twin := { d.twin with lanesUp := d.twin.lanesUp.filter (· < l.val) ++ [l.val] ++ d.twin.lanesUp.filter (l.val < ·) } }.putLaneAt l { y with inSvc := true, retrain := none, relock := none }
        (now < t + 3000000 → leaves (.laneReadmit ⟨.general l, false⟩) d) ∧ leaves (.laneReadmit ⟨.general l, true⟩) (d.putLaneAt l { y with relock := some now }) ∧
        (t + 3000000 ≤ now → d.twin.st ≠ .partitioned → leaves (.laneReadmit ⟨.general l, false⟩) back) ∧
        (t + 3000000 ≤ now → d.twin.st = .partitioned → d.halted = false → d.ctl.islBusy ≠ some 30 → leaves (.laneReadmit ⟨.general l, false⟩) back.sendPairing)) ∧
      (y.retrain = none → leaves (.eqCacheWrite l fa) (d.putLaneAt l
        (if y.cacheAt + 300000000 ≤ now then (y.adapted g fa).cached g now else y.adapted g fa))) ∧
      (g.proto = 4 → g.get 0x2F 1 = 0 → isPf who = true →
        (v.getLsbD 0 = true → leaves (.lanenSlipWrite who l v) (d.putLaneAt l { y with slips := y.slips + 1 })) ∧ (v.getLsbD 0 = false → leaves (.lanenSlipWrite who l v) d)) ∧
      (let a := g.get 0x38 8 + y.rawPtr
        let ui := if g.pam4 then 2 else 1
        let came := y.rxBits ++ if g.get 0x2F 1 = 0 then g.rxInv (bitsOf ((bs ++ zeros 64).take 64)) else payloads 8 (g.rxInv (bitsOf ((bs ++ zeros 66).take 66)))
        let left := came.drop (y.slips * ui)
        let sent : OutEv := .laneTx l (symbols g.pam4 (g.txInv (g.rawBits (d.memRead (g.get 0x48 8 + y.txPtr) 64))))
        let y1 : Lane := { y with txPtr := (y.txPtr + 64) % g.get 0x44 4, slips := 0 };
        g.proto = 4 → g.been = true → g.get 0x40 4 ≠ 0 → g.get 0x44 4 ≠ 0 → y.slips * ui ≤ came.length →
        (left.length < 512 → leaves (.rawAtomWrite l bs) ((d.emit sent).putLaneAt l { y1 with rxBits := left })) ∧
        (512 ≤ left.length → a + 64 ≤ d.capacity → Completes (.rawAtomWrite l bs) s fun f =>
          (∀ j k, j < 64 → k < 8 → (f.memByte (a + j)).getLsbD k = left.getD (8 * j + k) false) ∧ (∀ j, j < a ∨ a + 64 ≤ j → f.memByte j = d.memByte j) ∧
          f.laneAt l = { y1 with rxBits := left.drop 512, rawPtr := (y.rawPtr + 64) % g.get 0x40 4 } ∧ (∀ k, k ≠ l.val → f.laneAt k = d.laneAt k) ∧
          f.out = d.out ++ [sent] ∧ f = { d with lane := f.lane, mem := f.mem, poison := f.poison, out := f.out })) ∧
      (let gen := prbsRun g.pattern rx.length y.gen;
        g.proto = 5 → g.check = true → g.pattern ≠ 0 → g.loopback = 0 → rx ≠ [] →
          leaves (.prbsCheckerLock l rx) ((d.emit (.laneTx l (symbols g.pam4 (g.txInv gen.1)))).putLaneAt l
            ((g.rxInv rx).foldl (Lane.checkBit g.pattern) { y with gen := gen.2 }))) ∧
      (let want := prbsNext g.pattern y.chk
        let next := prbsNext g.pattern y.gen
        let wrong := b != want
        let z : Lane := { y with gen := prbsShift y.gen next }
        let win := (wrong :: y.win).take 1024
        let run := if wrong then 0 else y.run + 1;
        g.proto = 5 → g.check = true → g.pattern ≠ 0 → g.loopback = 0 → g.pam4 = false → bitN (g.get 0x30 1) 0 = false → bitN (g.get 0x31 1) 0 = false →
        (y.chkLock = false → leaves (.prbsCheckerLock l [b]) ((d.emit (.laneTx l [b2n next])).putLaneAt l
          { z with chk := prbsShift y.chk b, win := [], run := run, chkLock := decide (64 ≤ run) })) ∧
        (y.chkLock = true → y.prbsBits < 2 ^ 48 - 1 → y.prbsErr < 2 ^ 48 - 1 → leaves (.prbsCheckerLock l [b]) ((d.emit (.laneTx l [b2n next])).putLaneAt l
          { z with chk := prbsShift y.chk want, win := win, run := 0, chkLock := decide ((win.filter id).length < 512), prbsBits := y.prbsBits + 1
                   prbsErr := y.prbsErr + if wrong then 1 else 0 })))) ∧
    (∀ t, y.idleAt = some t →
      (t + y.holdTicks < now → leaves (.eqCacheInvalidate l) (d.putLaneAt l { y with cache := false, ctle := 16, dfe := 0, tx := 0x400000#32, cRate := 0, cCtle := 16, cDfe := 0, cTx := 0x400000#32 })) ∧
      (now ≤ t + y.holdTicks → leaves (.eqCacheInvalidate l) d))

/-! ## The cascade (chapter 17) -/

/-- The cascade ring (R491, R492, R504, R507 to R513, R515 to R518, R520 to R523, R525): CONFIGURE, SEND and BYPASS; the bypass follows its conditions, and the cascade lanes come
up once it is open; frames of each class are kept, forwarded, recorded, acknowledged and delivered once; a hop is open without a lane or frames, or with too many bypassed devices, and is
cleared when its conditions are over; a lane that loses lock retrains alone; messages without an acknowledgement are sent again, then given up; the periodic frames go out, and every frame of
this device waits for its turn on its ring, or on the other one where that ring is wrapped. The offset of R511 has a free value for the link delay, and the hub's periodic status is one
(log entry 12); which ring an own message takes, and when the status is sent, are the model's choices (log entry 56). -/
def Obligations.CascadeRing : Prop :=
  ∀ (s : State) (x : Desc) (e : Dev) (ringB : Bool) (fr : CascFrame) (h : CascHello) (who : Requester) (v : Word),
    let d := s.dev
    let c := d.casc
    let now := d.ctl.ticks
    let ended (i : Instr) (st : Nat) : Prop := exec i s = .next { s with dev := e.complete x st 0 }
    let leaves (i : Instr) (f : Dev) : Prop := exec i s = .next { s with dev := f }
    let shut (g : Dev) : Prop := g.ctl.perstN = false ∨ g.halted = true ∨ g.casc.force = true ∨ g.casc.cfg = [] ∨ g.ctl.booting = true ∨ g.ctl.pwrOk = false
    let whole (g : Dev) : Prop := g.casc.a.openHop = false ∧ g.casc.b.openHop = false
    let lines (f : Dev) : Prop := f.flt.live.getLsbD 45 = false ∧ f.flt.live.getLsbD 46 = false
    let opening (g f : Dev) : Prop := f.casc.breaks = min 65535 (g.casc.breaks + 2) ∧ f.flt.live.getLsbD 45 = true ∧ ∀ b, (f.side b).stage = .detect ∧
      (f.side b).since = g.ctl.ticks ∧ (f.side b).brk = true ∧ (f.side b).limit = false ∧ (f.side b).noticed = false ∧ OutEv.notice "CASC_BREAK" (b2n b) (g.side b).upstream 0 ∈ f.out
    let ringless (f : Dev) : Prop := ∀ o ∈ f.waiting, o.link ≠ 1 ∧ o.link ≠ 2
    let follows (g f : Dev) : Prop := (f.casc.closed = true ↔ shut g) ∧ (shut g → lines f) ∧ (¬ shut g → g.casc.closed = true → opening g f) ∧ (shut g → g.casc.closed = false → ringless f) ∧
      (¬ shut g → g.casc.closed = false → whole g → lines f)
    let put (g : Casc) (o : List OutEv) (b : Bool) (f : CascFrame) : List OutEv :=
      if g.closed then o else if g.wraps b = false then o ++ [.casc b f] else if g.wraps (!b) = false then o ++ [.casc (!b) f] else o
    let r := d.side ringB
    let other (f : Dev) : Prop := f.side (!ringB) = d.side (!ringB)
    let heard (g : Casc) : Casc := if ringB then { g with b := { r with lastFrame := now } } else { g with a := { r with lastFrame := now } }
    (d.Takes 13 1 cascConfigureSpec x e →
      ((0x3FF < x.get 0x20 2 ∨ x.get 0x22 2 = 0 ∨ 1024 < x.get 0x22 2 ∨ x.get 0x24 2 < 2 ∨ 1000 < x.get 0x24 2 ∨ 31 < x.get 0x40 1 ∨ ¬ (e.cascMap x).Nodup ∨ x.get 0x20 2 ∉ e.cascMap x ∨
          (∃ z, z ∈ e.cascMap x ∧ 0x3FF < z) ∨
          (x.get 0x26 2 ≠ 0xFFFF ∧ (4096 ≤ x.get 0x26 2 ∨ (e.thread (x.get 0x26 2)).live = false ∨ (e.thread (x.get 0x26 2)).fn ≠ 0))) →
        ended .cascConfigure 0x04) ∧
      (e.cascBad x = false → e.flt.classOf 45 ≠ 3 → Completes .cascConfigure s fun f =>
        let g : Dev := { e with casc := { e.casc with cfg := x.bytes, map := e.cascMap x, dup := false, rxIdx := 0, closed := true } };
        f.casc.cfg = x.bytes ∧ f.casc.map = e.cascMap x ∧ f.casc.dup = false ∧ f.casc.rxIdx = 0 ∧ follows g f ∧ (shut g → ringless f))) ∧
    (d.Takes 13 2 cascSendSpec x e →
      let cls := x.get 0x22 1
      let all := x.get 0x23 1
      let n := x.get 0x24 1
      let dest := x.get 0x20 2
      let bs := e.memRead (x.get 0x28 8) n
      let good := (cls = 0 ∨ cls = 3) ∧ all ≤ 1 ∧ (all = 1 → cls = 3) ∧ 1 ≤ n ∧ n ≤ 240 ∧ (all = 0 → dest ≤ 0x3FF)
      (e.casc.cfg = [] → ended .cascSend 0x06) ∧ (e.casc.cfg ≠ [] → ¬ good → ended .cascSend 0x04) ∧
      (e.casc.cfg ≠ [] → good → e.poisoned (x.get 0x28 8) n = true → ended .cascSend 0x0F) ∧
      (e.casc.cfg ≠ [] → good → e.poisoned (x.get 0x28 8) n = false →
        (cls = 3 → leaves .cascSend (({ e with waiting := put e.casc e.waiting false (e.ownFrame 3 (if all = 1 then none else some dest) 0 .data bs) } : Dev).complete x 0 0)) ∧
        (cls = 0 →
          let q := e.casc.seq.get 0 (dest * 8)
          let m : CascMsg := { d := x, cls := 0, dest := dest, seq := q, at_ := e.ctl.ticks, bytes := bs }
          leaves .cascSend { e with waiting := put e.casc e.waiting false (e.ownFrame 0 (some dest) q .data bs), casc := { e.casc with seq := e.casc.seq.put 0 (dest * 8) (q + 1), out := e.casc.out ++ [m] } }))) ∧
    (d.Takes 13 3 cascBypassSpec x e →
      (1 < x.get 0x20 1 → ended .cascBypass 0x04) ∧
      (x.get 0x20 1 ≤ 1 → e.casc.dup = false → e.flt.classOf 45 ≠ 3 → Completes .cascBypass s fun f =>
        f.casc.force = (x.get 0x20 1 == 1) ∧ follows { e with casc := { e.casc with force := x.get 0x20 1 == 1 } } f)) ∧
    (isFw who = false → leaves (.cascBypassForceWrite who v) d) ∧
    (isFw who = true → c.dup = false → d.flt.classOf 45 ≠ 3 → Completes (.cascBypassForceWrite who v) s fun f =>
      f.casc.force = v.getLsbD 0 ∧ follows { d with casc := { c with force := v.getLsbD 0 } } f) ∧
    (c.dup = false → d.flt.classOf 45 ≠ 3 → Completes .bypassConditionChange s fun f => follows d f) ∧
    ((c.closed = true ∨ c.cfg = []) → leaves (.cascFrameRx ringB fr) d) ∧
    (r.stage ≠ .active ∨ (r.lost = true ∧ r.relock = none) → leaves (.cascFrameRx ringB fr) d) ∧
    (c.closed = false → c.cfg ≠ [] → r.stage = .active → r.lost = false → c.breakTicks ≠ 0 →
      ((fr.src = c.addr ∨ 1024 ≤ fr.src) → r.openHop = true → r.skipped ≤ 3 → (d.side (!ringB)).openHop = false → c.dup = false → Completes (.cascFrameRx ringB fr) s fun f =>
        f.side ringB = { r with lastFrame := now, brk := false, limit := false } ∧ other f ∧ lines f ∧
        f.out = d.out ++ [.notice "CASC_CLEAR" (b2n ringB) r.upstream 0] ∧ f = { d with casc := f.casc, flt := f.flt, out := f.out }) ∧
      (r.openHop = false → (fr.src = c.addr ∨ 1024 ≤ fr.src) → leaves (.cascFrameRx ringB fr) { d with casc := heard c }) ∧
      (r.openHop = false → fr.src ≠ c.addr → fr.src < 1024 →
        let goesOn : List OutEv := put c d.waiting ringB fr
        let acks : List OutEv := put c d.waiting false { d.ownFrame fr.cls (some fr.src) fr.seq .data [] with ack := true }
        let a := c.rxAddr + c.rxIdx * 256
        let bs := toLE 2 fr.src ++ toLE 1 fr.cls ++ toLE 1 fr.payload.length ++ toLE 4 fr.seq ++ toLE 8 d.media ++ fr.payload
        let p := c.peerAddr + fr.src * 32
        let kept (f : Dev) : Prop := f.memRead a bs.length = bs ∧ (∀ j, j < a ∨ a + bs.length ≤ j → f.memByte j = d.memByte j)
        let fits := a + bs.length ≤ d.capacity
        let key := fr.src * 8 + fr.cls
        (fr.cls = 1 → fr.src ≠ r.upstream → leaves (.cascFrameRx ringB fr) { d with casc := heard c }) ∧
        (fr.cls = 1 → fr.src = r.upstream → p + 0x12 ≤ d.capacity → Completes (.cascFrameRx ringB fr) s fun f =>
          let off : Int := max (-2147483648) (min 2147483647 ((fr.time : Int) + Config.freeValue d.freeCtr - d.media))
          f.memByte (p + 0x11) = BitVec.ofNat 8 fr.servo ∧ (∀ j, j ≠ p + 0x11 → f.memByte j = d.memByte j) ∧
          f = { d with casc := if ringB then heard c else { heard c with timeOff := off }, freeCtr := if ringB then d.freeCtr else d.freeCtr + 1, mem := f.mem, poison := f.poison }) ∧
        (fr.cls = 2 → c.rxThread = 0xFFFF → Completes (.cascFrameRx ringB fr) s fun f =>
          f.casc = { heard c with seen := c.seen.put 0 fr.src (now + 1) } ∧ f.waiting = goesOn ∧
          (p + 17 ≤ d.capacity → f.memRead p 17 = toLE 8 fr.status.toNat ++ toLE 8 fr.live.toNat ++ toLE 1 fr.dev) ∧
          f = { d with casc := f.casc, waiting := f.waiting, mem := f.mem, poison := f.poison }) ∧
        (fr.cls = 3 → fr.dest = some c.addr → fits → Completes (.cascFrameRx ringB fr) s fun f =>
          kept f ∧ f.casc = { heard c with rxIdx := (c.rxIdx + 1) % 256 } ∧ f = { d with casc := f.casc, mem := f.mem, poison := f.poison }) ∧
        (fr.cls = 3 → fr.dest = none → fits → Completes (.cascFrameRx ringB fr) s fun f =>
          kept f ∧ f.casc = { heard c with rxIdx := (c.rxIdx + 1) % 256 } ∧ f.waiting = goesOn) ∧
        ((fr.cls = 0 ∨ fr.cls = 3 ∨ fr.cls = 4) → (∃ t, fr.dest = some t ∧ t ≠ c.addr) → leaves (.cascFrameRx ringB fr) { d with casc := heard c, waiting := goesOn }) ∧
        (fr.cls = 0 → fr.dest = some c.addr → c.dup = true → fr.ack = false → leaves (.cascFrameRx ringB fr) { d with casc := heard c }) ∧
        (fr.cls = 0 → fr.dest = some c.addr → c.dup = false → fr.ack = false →
          (fr.seq < c.rxSeq.get 0 key → leaves (.cascFrameRx ringB fr) { d with casc := heard c, waiting := acks }) ∧
          (c.rxSeq.get 0 key < fr.seq → c.rxHold = [] →
            leaves (.cascFrameRx ringB fr) { d with casc := { heard c with rxHold := [{ fr with time := d.media }] }, waiting := acks }) ∧
          (fr.seq = c.rxSeq.get 0 key → c.rxHold = [] → fr.role = .data → fits → Completes (.cascFrameRx ringB fr) s fun f =>
            kept f ∧ f.casc = { heard c with rxIdx := (c.rxIdx + 1) % 256, rxSeq := c.rxSeq.put 0 key (fr.seq + 1) } ∧ f.waiting = acks)) ∧
        (∀ m : CascMsg, (fr.cls = 0 ∨ fr.cls = 4) → fr.dest = some c.addr → fr.ack = true → c.out = [m] → m.dest = fr.src → m.cls = fr.cls → m.seq = fr.seq →
          leaves (.cascFrameRx ringB fr) (({ d with casc := { heard c with out := [] } } : Dev).complete m.d 0 0)))) ∧
    (c.closed = true → leaves (.cascHelloRx ringB h) d ∧ leaves (.hopFrameTimeout ringB) d ∧ leaves (.breakNoticeRx ringB) d ∧ leaves (.clearNoticeRx ringB) d) ∧
    (c.closed = false →
      let k := c.skippedFrom ringB h.addr
      let otherWhole := (d.side (!ringB)).openHop = false
      let r1 : RingSide := { r with lastFrame := now, stage := .active, retryAt := none, upstream := h.addr, skipped := min 7 k, valid := true }
      let p := c.peerAddr + h.addr * 32 + 0x18
      let mine (b : Bool) : OutEv := .cascHello b ⟨c.addr, d.trust.bootCount, d.meas 0⟩
      let note (b : Bool) : Dev := { d with casc := if ringB then { c with a := { c.a with noticed := b } } else { c with b := { c.b with noticed := b } } };
      (1024 ≤ h.addr ∨ (r.stage ≠ .caps ∧ (r.stage ≠ .active ∨ (r.lost = true ∧ r.relock = none))) → leaves (.cascHelloRx ringB h) d) ∧
      leaves (.breakNoticeRx ringB) (note true) ∧ leaves (.clearNoticeRx ringB) (note false) ∧
      (otherWhole → c.dup = false → h.addr ≠ c.addr → h.addr < 1024 → r.lost = false → c.breakTicks ≠ 0 →
        (k ≤ 3 → r.stage = .active → r.openHop = false → Completes (.cascHelloRx ringB h) s fun f =>
          f.side ringB = r1 ∧ other f ∧ f.casc.seen = c.seen.put 0 h.addr (now + 1) ∧ lines f ∧ f.out = d.out ∧
          (p + 8 ≤ d.capacity → f.memRead p 8 = toLE 8 d.media) ∧ ∀ j, j < p ∨ p + 8 ≤ j → f.memByte j = d.memByte j) ∧
        (k ≤ 3 → r.stage = .caps → r.openHop = true → d.flt.live.getLsbD 45 = true → Completes (.cascHelloRx ringB h) s fun f =>
          f.side ringB = { r1 with brk := false, limit := false } ∧ other f ∧ f.casc.seen = c.seen.put 0 h.addr (now + 1) ∧ lines f ∧
          f.out = d.out ++ [mine false, mine true, .notice "CASC_CLEAR" (b2n ringB) h.addr 0]) ∧
        (3 < k → r.stage = .active → r.openHop = false → d.flt.classOf 46 ≠ 3 → Completes (.cascHelloRx ringB h) s fun f =>
          f.side ringB = { r1 with limit := true } ∧ other f ∧ f.casc.breaks = min 65535 (c.breaks + 1) ∧
          f.flt.live.getLsbD 46 = true ∧ OutEv.notice "CASC_BREAK" (b2n ringB) h.addr 0 ∈ f.out)) ∧
      ((r.brk = true ∨ (r.stage = .active ∧ r.lost = false ∧ now < r.lastFrame + c.breakTicks)) → leaves (.hopFrameTimeout ringB) d) ∧
      (r.openHop = false → (r.stage ≠ .active ∨ r.lost = true ∨ r.lastFrame + c.breakTicks ≤ now) → otherWhole → d.flt.classOf 45 ≠ 3 → Completes (.hopFrameTimeout ringB) s fun f =>
        f.side ringB = { r with brk := true } ∧ other f ∧ f.casc.breaks = min 65535 (c.breaks + 1) ∧
        f.flt.live.getLsbD 45 = true ∧ OutEv.notice "CASC_BREAK" (b2n ringB) r.upstream 0 ∈ f.out) ∧
      (∀ (fd : DetectFacts) (fa : LaneFacts) (b : Bool),
        let sideIs (z : RingSide) : Dev := { d with casc := if ringB then { c with b := z } else { c with a := z } }
        let enters (st : Stage) : RingSide := { r with stage := st, since := now, retryAt := none }
        let fails : RingSide := { r with retryAt := some (now + 30000000) }
        (r.stage = .detect → r.since + 3000000 ≤ now →
          leaves (.detectPoll (.cascade ringB) fd) (sideIs (if fd.term then enters .train else { r with since := now }))) ∧
        (r.stage ≠ .detect ∨ now < r.since + 3000000 → leaves (.detectPoll (.cascade ringB) fd) d) ∧
        (r.stage = .train → r.retryAt = none → now ≤ r.since + 1500000000 → leaves (.bringupStagePass (.cascade ringB) fa) (sideIs (enters .lock))) ∧
        (r.stage = .lock → r.retryAt = none → now ≤ r.since + 30000000 →
          leaves (.bringupStagePass (.cascade ringB) fa) { sideIs (enters .caps) with out := d.out ++ [mine false, mine true] }) ∧
        (r.stage = .active → r.retryAt = none → r.lost = true → r.relock = none → leaves (.bringupStagePass (.cascade ringB) fa) (sideIs { r with relock := some now })) ∧
        ((r.stage = .train ∧ r.since + 1500000000 < now) ∨ (r.stage = .lock ∧ r.since + 30000000 < now) → r.retryAt = none →
          leaves (.bringupStagePass (.cascade ringB) fa) (sideIs fails) ∧ leaves (.bringupStageTimeout (.cascade ringB)) (sideIs fails)) ∧
        (∀ t, r.retryAt = some t → leaves (.bringupRetry (.cascade ringB)) (if t ≤ now then sideIs (enters .detect) else d)) ∧
        (r.stage = .lock ∨ r.stage = .caps → r.retryAt = none → leaves (.laneLockLoss (.cascade ringB) b) (sideIs fails)) ∧
        (r.stage = .active → r.openHop = false → otherWhole → d.flt.classOf 43 ≠ 3 → d.flt.classOf 45 ≠ 3 → d.flt.latched.get 0 43 = 0 → Completes (.laneLockLoss (.cascade ringB) b) s fun f =>
          f.side ringB = { r with lost := true, relock := none, brk := true } ∧ other f ∧ f.casc.breaks = min 65535 (c.breaks + 1) ∧
          f.flt.status.getLsbD 43 = true ∧ f.flt.live.getLsbD 45 = true) ∧
        (∀ t, r.relock = some t →
          leaves (.laneReadmit ⟨.cascade ringB, true⟩) (sideIs { r with relock := some now }) ∧
          (now < t + 3000000 → leaves (.laneReadmit ⟨.cascade ringB, false⟩) d) ∧
          (t + 3000000 ≤ now → r.stage = .active → r.brk = true → r.limit = false → now < r.lastFrame + c.breakTicks → otherWhole → c.dup = false → d.flt.live.getLsbD 45 = true →
            Completes (.laneReadmit ⟨.cascade ringB, false⟩) s fun f =>
              f.side ringB = { r with lost := false, relock := none, brk := false } ∧ other f ∧ lines f ∧
              f.out = d.out ++ [.notice "CASC_CLEAR" (b2n ringB) r.upstream 0])))) ∧
    (∀ m : CascMsg, c.out = [m] →
      let again : Casc := { c with retries := min 65535 (c.retries + 1), out := [{ m with tries := m.tries + 1, at_ := now }] };
      (now < m.at_ + c.ackTicks → leaves .controlAckTimeout d) ∧
      (m.at_ + c.ackTicks ≤ now → m.tries < 3 → leaves .controlAckTimeout { d with casc := again, waiting := put c d.waiting false (d.ownFrame m.cls (some m.dest) m.seq m.role m.bytes) }) ∧
      (m.at_ + c.ackTicks ≤ now → 3 ≤ m.tries → leaves .controlAckTimeout (({ d with casc := { c with out := [] } } : Dev).complete m.d 0x0A 0))) ∧
    (d.upNs < c.lastBc + 100000000 → leaves .faultBroadcastPeriod d) ∧
    (c.lastBc + 100000000 ≤ d.upNs →
      let fr2 := d.ownFrame 2 none 0 .data []
      ∃ bs : List Byte, 0 < bs.length ∧ bs.length ≤ 240 ∧
        leaves .faultBroadcastPeriod { d with casc := { c with lastBc := d.upNs }, freeCtr := d.freeCtr + 241,
                                              waiting := put c (put c (put c d.waiting false fr2) true fr2) false (d.ownFrame 3 none 0 .data bs) }) ∧
    (d.upNs < c.lastCmp + 125000000 → leaves .timeComparisonPeriod d) ∧
    (c.lastCmp + 125000000 ≤ d.upNs →
      let sent := put c (put c d.waiting false (d.ownFrame 1 (some c.b.upstream) 0 .data [])) true (d.ownFrame 1 (some c.a.upstream) 0 .data [])
      leaves .timeComparisonPeriod { d with casc := { c with lastCmp := d.upNs }, waiting := sent })

/-! ## Device memory (chapter 18) -/

/-- The memory controllers (R533, R535 to R551, R553, R554): requests are cut into bursts of one granule that wait at their channel; a burst boundary refreshes, chooses real-time bursts before others, but not more than 15 in a row while others wait nor past an older one that shares an atom,
and takes what ECC and CRC find; owed refreshes; self-refresh in and out; scrub; training; and the MEM unit's COPY and FILL with poison carried along. -/
def Obligations.MemoryControllers : Prop :=
  ∀ (s : State) (m : Fin 12) (k : Fin 4),
    let d := s.dev
    let c := d.mcAt m
    let h := c.chan k
    let now := d.ctl.ticks
    let src := 12 + m.val
    let leaves (i : Instr) (f : Dev) : Prop := exec i s = .next { s with dev := f }
    let others (f : Dev) : Prop := ∀ j, j ≠ m.val → f.mcAt j = d.mcAt j
    let fits (b : Burst) : Prop := b.addr % 64 = 0 ∧ 1 ≤ b.atoms ∧ b.atoms ≤ (if b.rt then 32 else 16) ∧ b.addr / 64 % 32 + b.atoms ≤ 32 ∧ d.channelOf b.addr = (m.val, k.val)
    let quiet := ∀ q ∈ c.chans, q.2.queue = []
    (∀ w : List Burst,
      (((c.st ≠ 2 ∧ c.st ≠ 4) ∨ h.retrain = true) → leaves (.mcBurstBoundary m k w) (d.putMcAt m (c.modChan k fun z => { z with queue := z.queue ++ d.arrivals m k w }))) ∧
      (∀ b ∈ d.arrivals m k w, fits b) ∧ ∀ b ∈ w, ((Burst.cut b.atoms b).map (·.atoms)).sum = b.atoms) ∧
    ((c.st = 2 ∨ c.st = 4) → h.retrain = false →
      (∀ t rest, h.queue = [] → h.owed = (16, t) :: rest → Completes (.mcBurstBoundary m k []) s fun f =>
        (f.mcAt m).chan k = { h with owed := rest, inBurst := false, forcedNow := false } ∧ f.out = d.out ++ [.notice "REFRESH" m k 16] ∧ others f ∧ f = { d with mc := f.mc, out := f.out }) ∧
      (∀ a b : Burst, h.queue = [] → h.owed = [] → fits a → fits b → a.rt = true → b.rt = false → a.errs = [] → b.errs = [] → a.crcBad = [] → b.crcBad = [] → d.poison = [] →
        let takes (q other : Burst) (run rr : Nat) : Prop := Completes (.mcBurstBoundary m k [b, a]) s fun f =>
          (f.mcAt m).chan k = { h with queue := [other], inBurst := true, forcedNow := false, rtRun := run, rr := rr } ∧ (f.mcAt m).lastReq = now ∧ (f.mcAt m).drain = false ∧
          f.out = d.out ++ [.notice "BURST" (m * 4 + k) q.src.id q.addr] ∧ others f ∧ f = { d with mc := f.mc, out := f.out }
        let apart := ∀ i, i < a.atoms → ∀ j, j < b.atoms → a.addr / 64 + i ≠ b.addr / 64 + j
        (apart → h.rtRun < 15 → takes a b (h.rtRun + 1) h.rr) ∧ (¬ apart ∨ 15 ≤ h.rtRun → takes b a 0 b.src.id)) ∧
      (∀ b : Burst, h.queue = [] → h.owed = [] → b.addr % 64 = 0 → d.channelOf b.addr = (m.val, k.val) → b.rt = false → 16 < b.atoms → b.addr / 64 % 32 + b.atoms ≤ 32 →
        b.errs = [] → b.crcBad = [] → d.poison = [] → Completes (.mcBurstBoundary m k [b]) s fun f =>
          (f.mcAt m).chan k = { h with queue := [{ b with addr := b.addr + 1024, atoms := b.atoms - 16 }], inBurst := true, forcedNow := false, rtRun := 0, rr := b.src.id } ∧
          f.out = d.out ++ [.notice "BURST" (m * 4 + k) b.src.id b.addr] ∧ others f ∧ f = { d with mc := f.mc, out := f.out }) ∧
      (∀ b : Burst, h.queue = [] → h.owed = [] → d.poison = [] → fits b → b.atoms = 1 → b.crcBad.length ≤ 1 →
        (b.errs = [(0, .uncorrectable)] → b.crcBad = [] → 2 ≤ d.flt.classOf src → d.flt.latched.get 0 src = 0 → Completes (.mcBurstBoundary m k [b]) s fun f =>
          f.poison = [b.addr / 64] ∧ (f.mcAt m).uncorr = min 255 (c.uncorr + 1) ∧ (f.mcAt m).eccAddr = b.addr / 64 * 64 ∧ f.flt.status.getLsbD src = true ∧ f.mem = d.mem) ∧
        (b.errs = [(0, .corrected)] → b.crcBad.headD 0 ≤ 3 → Completes (.mcBurstBoundary m k [b]) s fun f =>
          (f.mcAt m).corr = min (2 ^ 24 - 1) (c.corr + 1) ∧ (f.mcAt m).retries = min (2 ^ 24 - 1) (c.retries + b.crcBad.headD 0) ∧ f.flt = d.flt ∧ f.poison = []) ∧
        (b.errs = [] → 4 ≤ b.crcBad.headD 0 → 2 ≤ d.flt.classOf src → d.flt.latched.get 0 src = 0 → Completes (.mcBurstBoundary m k [b]) s fun f =>
          (f.mcAt m).st = 4 ∧ ((f.mcAt m).chan k).retrain = true ∧ ((f.mcAt m).chan k).inBurst = false ∧ (f.mcAt m).retrains = min 255 (c.retrains + 1) ∧
          (f.mcAt m).retries = min (2 ^ 24 - 1) (c.retries + 3) ∧ f.flt.live.getLsbD src = true))) ∧
    (h.retrain = false → leaves (.mcRetrainDone m k) d) ∧
    (h.retrain = true →
      ((∀ q ∈ c.chans, q.1 ≠ k.val → q.2.retrain = false) → Completes (.mcRetrainDone m k) s fun f =>
        (f.mcAt m).st = 2 ∧ (f.mcAt m).chan k = { h with retrain := false } ∧ f.flt = { d.flt with live := f.flt.live } ∧ (∀ i, f.flt.live.getLsbD i = (d.flt.live.getLsbD i && i != src))) ∧
      ((∃ q ∈ c.chans, q.1 ≠ k.val ∧ q.2.retrain = true) → leaves (.mcRetrainDone m k) (d.putMcAt m (c.modChan k fun z => { z with retrain := false })))) ∧
    (let step := if c.refPb then (if c.hot then 1425 else 2850) else 16 * (if c.hot then 1425 else 2850)
      let due := (c.st = 2 ∨ c.st = 4) ∧ h.due ≤ now * 8
      let more : McChan := { h with owed := h.owed ++ [(if c.refPb then h.next else 16, h.due)], next := (h.next + 1) % 16, due := h.due + step };
      (¬ due → leaves (.refreshDue m k) d) ∧ (due → leaves (.refreshDue m k) (d.putMcAt m (c.modChan k fun _ => more))) ∧
      (h.owed = [] → leaves (.forcedRefresh m k) d) ∧
      (∀ b t rest, h.owed = (b, t) :: rest →
        (now * 8 < t + c.applied * step → leaves (.forcedRefresh m k) d) ∧
        (t + c.applied * step ≤ now * 8 → (h.inBurst = false ∨ h.forcedNow = false) → Completes (.forcedRefresh m k) s fun f =>
          (f.mcAt m).chan k = { h with owed := rest, forcedNow := h.inBurst } ∧ (f.mcAt m).forced = min (2 ^ 24 - 1) (c.forced + 1) ∧
          f.out = d.out ++ [.notice "REFRESH" m k b] ∧ others f ∧ f = { d with mc := f.mc, out := f.out }))) ∧
    (let idle := c.st = 2 ∧ quiet ∧ c.drain = false ∧ (c.inhibit = false ∨ d.dozing = true) ∧ c.lastReq + (if c.srIdle = 0 then 1 else c.srIdle) * 3000 ≤ now;
      (¬ idle → leaves (.srIdleExpiry m) d) ∧ (idle → leaves (.srIdleExpiry m) (d.putMcAt m { c with drain := true })) ∧
      (c.drain = false ∨ ¬ quiet → leaves (.srDrainDone m) d) ∧
      (c.drain = true → quiet → Completes (.srDrainDone m) s fun f =>
        (f.mcAt m).st = 3 ∧ (f.mcAt m).drain = false ∧ (f.mcAt m).entries = min 65535 (c.entries + 1) ∧ (∀ j, j < 4 → ((f.mcAt m).chan j).owed = []) ∧ others f) ∧
      (c.st = 3 → Completes (.srExitRequest m) s fun f =>
        (f.mcAt m).st = 2 ∧ (f.mcAt m).lastReq = now ∧ (∀ j, j < 4 → (f.mcAt m).chan j = { c.chan j with due := now * 8 + c.interval }) ∧ others f ∧ f = { d with mc := f.mc }) ∧
      (c.st ≠ 3 → c.drain = true → leaves (.srExitRequest m) (d.putMcAt m { c with lastReq := now, drain := false, abandoned := min 65535 (c.abandoned + 1) })) ∧
      (c.st ≠ 3 → c.drain = false → leaves (.srExitRequest m) d)) ∧
    (let a := d.atomAddr m c.scrubPos
      let next : Mc := if c.scrubPos + 1 < d.capacity / 768 then { c with scrubPos := c.scrubPos + 1 } else { c with scrubPos := 0, passDone := true, passes := (c.passes + 1) % 65536 }
      let ends := c.passAt + c.periodTicks ≤ now;
      ((c.st ≠ 2 ∨ c.passDone = true ∨ (c.chan (c.scrubPos / 32 % 4)).queue ≠ []) → leaves (.scrubAtom m .clean) d) ∧
      (c.st = 2 → c.passDone = false → (c.chan (c.scrubPos / 32 % 4)).queue = [] → a / 64 ∉ d.poison →
        leaves (.scrubAtom m .clean) (d.putMcAt m next) ∧
        (d.flt.latched.get 0 24 = 0 → Completes (.scrubAtom m .corrected) s fun f =>
          f.mcAt m = { next with corr := min (2 ^ 24 - 1) (c.corr + 1) } ∧ f.flt.status.getLsbD 24 = true)) ∧
      (¬ ends → leaves (.scrubPeriodEnd m) d) ∧
      (ends → leaves (.scrubPeriodEnd m) (d.putMcAt m { c with passAt := c.passAt + c.periodTicks, late := c.late || !c.passDone, passDone := false }))) ∧
    (∀ (good pb hot : Bool) (den : Fin 3),
      let agrees := ∀ j, j < 12 → 2 ≤ (d.mcAt j).st → (d.mcAt j).st ≤ 4 → (d.mcAt j).density = den.val
      leaves (.deviceHighTemperature m hot) (d.putMcAt m { c with hot := hot }) ∧
      (c.st ≠ 1 → leaves (.mcTrainingDone m good pb den) d) ∧
      (c.st = 1 → (good = false ∨ ¬ agrees) → Completes (.mcTrainingDone m good pb den) s fun f =>
        f.mcAt m = { c with st := 5 } ∧ f.ctl = { d.ctl with bootFailed := true } ∧ f.flt.live.getLsbD src = true ∧ others f) ∧
      (c.st = 1 → good = true → agrees → Completes (.mcTrainingDone m good pb den) s fun f =>
        let g := f.mcAt m;
        g.st = 2 ∧ g.density = den ∧ g.refPb = pb ∧ g.cache = true ∧ g.devLimit = 4 + Config.freeValue d.freeCtr ∧ g.lastReq = now ∧ g.passAt = now ∧
        (∀ j, j < 4 → g.chan j = { c.chan j with due := now * 8 + g.interval }) ∧ f.freeCtr = d.freeCtr + 1 ∧ others f ∧ f = { d with mc := f.mc, freeCtr := f.freeCtr })) ∧
    (∀ (en : Fin 4) (x : Desc) (e : Dev),
      let a := x.get 0x20 8
      let t := x.get 0x28 8
      let n := x.get 0x30 8
      let ended (i : Instr) (st : Nat) : Prop := exec i s = .next { s with dev := e.complete x st 0 }
      let ok := t % 64 = 0 ∧ a % 64 = 0 ∧ n % 64 = 0 ∧ 64 ≤ n ∧ n ≤ 2 ^ 36
      let hit (p : Nat) : Prop := p ∈ e.poison ∧ a ≤ p * 64 ∧ p * 64 < a + n
      let stay (p : Nat) : Prop := p ∈ e.poison ∧ ¬ (t ≤ p * 64 ∧ p * 64 < t + n);
      (d.memTake en 1 = some (x, e) → e.check157 x (memCopySpec e x) = none →
        (¬ ok ∨ x.get 0x38 8 ≠ 0 → ended (.memCopy en) 0x04) ∧
        (ok → x.get 0x38 8 = 0 → (a < t + n ∧ t < a + n) → ended (.memCopy en) 0x08) ∧
        (ok → x.get 0x38 8 = 0 → ¬ (a < t + n ∧ t < a + n) → Tab.wf 0 e.mem → ∃ (g : Dev) (st : Nat), leaves (.memCopy en) (g.complete x st 0) ∧
          (∀ j, j < n → g.memByte (t + j) = e.memByte (a + j)) ∧ (∀ j, j < t ∨ t + n ≤ j → g.memByte j = e.memByte j) ∧
          (∀ p, p ∈ g.poison ↔ stay p ∨ ∃ q, hit q ∧ p = q - a / 64 + t / 64) ∧ (st = 0 ∨ st = 0x0F) ∧ (st = 0x0F ↔ ∃ p, hit p) ∧
          g = { e with mem := g.mem, poison := g.poison })) ∧
      (d.memTake en 2 = some (x, e) → e.check157 x (memFillSpec e x) = none →
        (¬ (t % 64 = 0 ∧ n % 64 = 0 ∧ 64 ≤ n ∧ n ≤ 2 ^ 36) ∨ a ≠ 0 → ended (.memFill en) 0x04) ∧
        (t % 64 = 0 → n % 64 = 0 → 64 ≤ n → n ≤ 2 ^ 36 → a = 0 → ∃ g : Dev, leaves (.memFill en) (g.complete x 0 0) ∧
          (∀ j, j < n → g.memByte (t + j) = BitVec.ofNat 8 (x.get 0x38 8 / 256 ^ (j % 8))) ∧ (∀ j, j < t ∨ t + n ≤ j → g.memByte j = e.memByte j) ∧
          g = { e with mem := g.mem, poison := g.poison })))

/-! ## The check units (chapter 19) -/

/-- The check units (R547, R557, R558, R560 to R567, R569): the CHECK unit's descriptors with their checks in order; write-fed engines by register; CHK_MODE; and a snooped
unit, which its tap has let through and which is the oldest not yet judged: one that had begun before the binding only ends it, a whole one is fed, logged and compared, its mismatch raising source 47 and posting to its thread. -/
def Obligations.CheckUnits : Prop :=
  ∀ (s : State) (x : Desc) (e : Dev) (who : Requester) (i : Fin 8) (v : Word) (form : Fin 3),
    let d := s.dev
    let ended (j : Instr) (st : Nat) : Prop := exec j s = .next { s with dev := e.complete x st 0 }
    let leaves (j : Instr) (f : Dev) : Prop := exec j s = .next { s with dev := f }
    let n := x.get 0x20 1
    let c := e.check n
    let differs (z : Chk) : Prop := z.compare = 1 ∧ z.now.toNat ≠ z.get 0x48 8
    let missed (z : Chk) : Chk := { z with mis := true, misses := min 65535 (z.misses + 1) }
    let told (f : Dev) (z : Chk) : Dev := if z.get 0x44 2 = 0xFFFF then f.raise 47 else (f.raise 47).unitPost 9 (z.get 0x44 2) (flagMask (z.get 0x43 1));
    (d.Takes 9 1 checkConfigureSpec x e →
      let k := if n = 1 then 8 + x.get 0x21 1 else x.get 0x21 1
      let fed := n = 0 ∧ e.snoopMode (x.get 0x21 1) = false
      let z := e.check k
      let z1 : Chk := { z with cfg := x.bytes, bound := false, overrun := false, lost := false, due := [], units := 0, wptr := 0 }
      let known := (n = 0 ∧ x.get 0x21 1 < 8) ∨ (n = 1 ∧ x.get 0x21 1 < 48);
      (¬ known → ended .checkConfigure 0x04) ∧ (known → z.cfg ≠ [] → ended .checkConfigure 0x06) ∧
      (known → z.cfg = [] →
        ((4 < x.get 0x22 1 ∨ (x.get 0x22 1 = 0 ∧ (x.get 0x23 1 = 0 ∨ 64 < x.get 0x23 1)) ∨ 2 < x.get 0x42 1 ∨ 31 < x.get 0x43 1) →
          ended .checkConfigure 0x04) ∧
        (e.checkBad x = false → ¬ fed → e.tapSet (x.get 0x26 1) (x.get 0x40 2) = false → ended .checkConfigure 0x09) ∧
        (e.checkBad x = false → (fed ∨ e.tapSet (x.get 0x26 1) (x.get 0x40 2) = true) →
          leaves .checkConfigure ((e.putCheck k { z1 with v := BitVec.ofNat 64 z1.model.init }).complete x 0 0)))) ∧
    (d.Takes 9 2 checkFeedSpec x e →
      let len := x.get 0x30 8
      let good := n ≤ 7 ∧ 1 ≤ len ∧ len ≤ 2 ^ 32
      (¬ good → ended .checkFeed 0x04) ∧ (good → e.writeFed n = false → ended .checkFeed 0x06) ∧
      (good → e.writeFed n = true → leaves .checkFeed
        ((e.putCheck n { c with v := c.feed c.v (e.memRead (x.get 0x28 8) len) }).complete x (if e.poisoned (x.get 0x28 8) len then 0x0F else 0) 0))) ∧
    (d.Takes 9 3 checkStoreSpec x e →
      let a := x.get 0x28 8
      let good := n ≤ 7 ∧ x.get 0x21 1 ≤ 1 ∧ a % 16 = 0
      let stored := e.memWrite a (toLE 8 c.v.toNat ++ toLE 8 c.now.toNat)
      (¬ good → ended .checkStoreValue 0x04) ∧ (good → e.writeFed n = false → ended .checkStoreValue 0x06) ∧
      (good → e.writeFed n = true → (x.get 0x21 1 = 0 ∨ ¬ differs c) → leaves .checkStoreValue (stored.complete x 0 0)) ∧
      (good → e.writeFed n = true → x.get 0x21 1 = 1 → differs c → leaves .checkStoreValue ((told (stored.putCheck n (missed c)) c).complete x 0 0)) ∧
      (good → e.writeFed n = true → x.get 0x28 8 + 16 ≤ e.capacity → stored.memRead a 16 = toLE 8 c.v.toNat ++ toLE 8 c.now.toNat)) ∧
    (d.Takes 9 4 checkLoadSpec x e →
      (7 < n → ended .checkLoadValue 0x04) ∧ (n ≤ 7 → e.writeFed n = false → ended .checkLoadValue 0x06) ∧
      (n ≤ 7 → e.writeFed n = true → leaves .checkLoadValue
        ((e.putCheck n { c with v := BitVec.ofNat 64 ((BitVec.ofNat 64 (x.get 0x28 8)).toNat % 2 ^ c.model.w) }).complete x 0 0))) ∧
    (d.Takes 9 5 checkReleaseSpec x e →
      let k := if n = 1 then 8 + x.get 0x21 1 else x.get 0x21 1
      let good := (n = 0 ∧ x.get 0x21 1 < 8) ∨ (n = 1 ∧ x.get 0x21 1 < 48)
      (¬ good → ended .checkRelease 0x04) ∧
      (good → leaves .checkRelease ((e.putCheck k { e.check k with cfg := [], bound := false, overrun := false, lost := false, due := [] }).complete x 0 0))) ∧
    (let z := d.check i
      let m := v.toNat % 256
      (isPfOrFw who = false →
        leaves (.chkDataWrite who i form v) d ∧ leaves (.chkValueHiWrite who i v) d ∧ leaves (.chkCtrlCompare who i) d ∧ leaves (.chkCtrlRestart who i) d ∧ leaves (.chkModeWrite who v) d) ∧
      (isPfOrFw who = true →
        (d.writeFed i = true → leaves (.chkDataWrite who i form v) (d.putCheck i { z with v := z.feed z.v (toLE (2 ^ form.val) v.toNat) })) ∧
        (d.writeFed i = false → leaves (.chkDataWrite who i form v) (d.putCheck i { z with ignored := true })) ∧
        (z.cfg ≠ [] → leaves (.chkValueHiWrite who i v) (d.putCheck i { z with v := BitVec.ofNat 64 ((v.toNat * 2 ^ 32 + z.valLo.toNat) % 2 ^ z.model.w) })) ∧
        (z.cfg = [] → leaves (.chkValueHiWrite who i v) (d.putCheck i { z with v := v ++ z.valLo }) ∧ leaves (.chkCtrlCompare who i) d ∧ leaves (.chkCtrlRestart who i) d) ∧
        (z.cfg ≠ [] → leaves (.chkCtrlRestart who i) (d.putCheck i { z with v := BitVec.ofNat 64 z.model.init })) ∧
        (z.cfg ≠ [] → ¬ differs z → leaves (.chkCtrlCompare who i) d) ∧
        (z.cfg ≠ [] → differs z → leaves (.chkCtrlCompare who i) (told (d.putCheck i (missed z)) z)) ∧
        Completes (.chkModeWrite who v) s fun f => f.chkMode = m ∧ (∀ j, 8 ≤ j → f.check j = d.check j) ∧ f = { d with chk := f.chk, chkMode := f.chkMode } ∧
          ∀ j, j < 8 → f.check j = if bitN m j ≠ bitN d.chkMode j ∧ (d.check j).cfg ≠ [] then { d.check j with cfg := [], bound := false, overrun := false, lost := false, due := [] } else d.check j)) ∧
    (∀ (kind tap : Nat) (u : Option Nat × List Byte × Bool), Tab.wf {} d.chk → ∀ j,
      let z := d.check j
      let on := z.cfg ≠ [] ∧ (j < 8 → d.snoopMode j = true) ∧ z.get 0x26 1 = kind ∧ z.get 0x40 2 = tap ∧ z.lost = false ∧ z.overrun = false;
      (on → (d.tapUnit kind tap u.1 u.2.1 u.2.2).check j = { z with due := z.due ++ [u] }) ∧ (¬ on → (d.tapUnit kind tap u.1 u.2.1 u.2.2).check j = z)) ∧
    (∀ (k : Fin 56) (mt : Nat) (bs : List Byte) (withheld full whole : Bool) (m : Option Nat) (rest : List (Option Nat × List Byte × Bool)),
      let z0 := d.check k
      let z : Chk := { z0 with due := rest }
      let island := if k.val < 4 ∨ (8 ≤ k.val ∧ k.val < 32) then 28 else 29
      let v := z.feed (if z.segment then BitVec.ofNat 64 z.model.init else z.v) bs
      let z1 : Chk := { z with v := v, bound := true }
      let want := if z.compare = 2 then leNat (d.memRead (z.get 0x50 8 + z.units % z.get 0x46 2 * 8) 8) else z.get 0x48 8
      let diff : Bool := (z.compare == 1 || z.compare == 2) && z1.now.toNat != want
      let row := toLE 8 mt ++ toLE 8 z1.now.toNat ++ toLE 8 bs.length ++ toLE 4 z.units ++ toLE 4 (b2n diff + 2 * b2n withheld)
      let z2 : Chk := { z1 with result := z1.now, units := z.units + 1, wptr := if z.logAddr = 0 then z.wptr else (z.wptr + 32) % z.logSize }
      let logged := if z.logAddr = 0 then d.putCheck k z2 else (d.putCheck k z2).memWrite (z.logAddr + z.wptr) row
      let taps := z.cfg ≠ [] ∧ (k.val < 8 → d.snoopMode k = true) ∧ z.overrun = false ∧ z.lost = false ∧ d.tapSet (z.get 0x26 1) (z.get 0x40 2) = true
      let below := (d.fab.windows.get [] island).headD 0 < floorOf island
      let go (j : Dev) : Prop := exec (.snoopUnitEnd k mt ⟨bs, whole⟩ withheld full) s = .next { s with dev := j };
      (z0.due = [] → go d) ∧ (∀ t b w, z0.due = (t, b, w) :: rest → ((∃ x, t = some x ∧ x ≠ mt) ∨ b ≠ bs ∨ w ≠ withheld) → go d) ∧ (¬ taps → go d) ∧
      (z0.due = (m, bs, withheld) :: rest → (m = none ∨ m = some mt) → taps → z.bound = false → whole = false → go (d.putCheck k { z with bound := true })) ∧
      (z0.due = (m, bs, withheld) :: rest → (m = none ∨ m = some mt) → taps → (z.bound = true ∨ whole = true) →
        (full = true → below → go (d.putCheck k { z with overrun := true })) ∧
        ((full = false ∨ ¬ below) →
          (diff = false → go logged) ∧ (diff = true → go (told (logged.putCheck k (missed z2)) z)) ∧
          (diff = true → z.get 0x44 2 = 0xFFFF → Completes (.snoopUnitEnd k mt ⟨bs, whole⟩ withheld full) s fun f =>
            f.check k = missed z2 ∧ (∀ j, j ≠ k.val → f.check j = d.check j) ∧ (d.flt.latched.get 0 47 = 0 → f.flt.status.getLsbD 47 = true)))))

/-! ## Faults (chapter 20) -/

/-- The fault collector (R571 to R573, R575 to R584, R586): lines that rise in one cycle latch the classes of their sources together, raise one message, and HALT closes the bypass;
ASSERT drives a firmware line; W1C clears what is not live and releases it; classes, their lock, the heartbeat, the watchdog and ALIVE. -/
def Obligations.FaultCollector : Prop :=
  ∀ (s : State) (x : Desc) (e : Dev) (who : Requester) (k : Fin 4) (v : Word) (srcs : BitVec 64) (hi : Bool),
    let d := s.dev
    let t := d.flt
    let now := d.ctl.ticks
    let ended (j : Instr) (st : Nat) : Prop := exec j s = .next { s with dev := e.complete x st 0 }
    let leaves (j : Instr) (f : Dev) : Prop := exec j s = .next { s with dev := f }
    let collector (f : Dev) : Prop := f = { d with flt := f.flt, hub := f.hub, flow := f.flow, queue := f.queue, casc := f.casc, waiting := f.waiting, out := f.out }
    let rising := srcs &&& ~~~(conditionWord &&& t.live)
    let anew (i : Nat) : Prop := i < 64 ∧ rising.getLsbD i = true ∧ t.latched.get 0 i = 0
    (Completes (.faultLineRise srcs) s fun f =>
      collector f ∧
      (∀ i, anew i → f.flt.status.getLsbD i = true ∧ f.flt.latched.get 0 i = t.classOf i + 1) ∧
      (∀ i, rising.getLsbD i = false → f.flt.status.getLsbD i = t.status.getLsbD i ∧ f.flt.latched.get 0 i = t.latched.get 0 i) ∧
      (∀ i, i ≠ 45 → i ≠ 46 → f.flt.live.getLsbD i = (t.live.getLsbD i || (rising.getLsbD i && conditionWord.getLsbD i))) ∧
      ((∃ i, anew i ∧ 1 ≤ t.classOf i) → d.hub.linkUp = true → (d.hub.msix.get 1 7).getLsbD 0 = false → OutEv.msix 0 1 ∈ f.out) ∧
      ((∀ i, anew i → t.classOf i = 0) → f.out = d.out ∧ f.waiting = d.waiting ∧ f.casc = d.casc) ∧
      ((∃ i, anew i ∧ t.classOf i = 3) → f.halted = true ∧ (d.halted = false → f.casc.closed = true))) ∧
    (d.Takes 15 1 assertSpec x e →
      let src := x.get 0x20 1
      let lvl := x.get 0x21 1
      ((6 < src ∨ 1 < lvl) → ended .faultAssert 0x04) ∧
      (src ≤ 6 → lvl = 0 → leaves .faultAssert (({ e with flt := { e.flt with live := e.flt.live &&& ~~~(1#64 <<< (56 + src)) } } : Dev).complete x 0 0)) ∧
      (src ≤ 6 → lvl = 1 → e.flt.live.getLsbD (56 + src) = true → ended .faultAssert 0) ∧
      (src ≤ 6 → lvl = 1 → e.flt.live.getLsbD (56 + src) = false → Completes .faultAssert s fun f =>
        f.flt.live.getLsbD (56 + src) = true ∧ (e.flt.latched.get 0 (56 + src) = 0 → f.flt.status.getLsbD (56 + src) = true ∧ f.flt.latched.get 0 (56 + src) = e.flt.classOf (56 + src) + 1))) ∧
    (isPfOrFw who = false → leaves (.fltStatusW1c who hi v) d ∧ leaves (.fltClassWrite who k v) d ∧ leaves (.fltCtrlClassLock who) d) ∧
    (isPfOrFw who = true →
      let word : BitVec 64 := if hi then v.setWidth 64 <<< 32 else v.setWidth 64
      let c := word &&& t.status &&& ~~~t.live;
      (Completes (.fltStatusW1c who hi v) s fun f =>
        f.flt.status = t.status &&& ~~~c ∧ (∀ i, f.flt.latched.get 0 i = if c.getLsbD i then 0 else t.latched.get 0 i) ∧ f.flt.cls = t.cls ∧
        (d.halted = false → f.flt.live = t.live ∧ f.out = d.out ∧ f.waiting = d.waiting ∧ f.casc = d.casc) ∧
        (d.halted = true → f.halted = false → d.twin.st ≠ .unpaired → OutEv.twin 11 0 d.media [0] ∈ f.waiting)) ∧
      (t.lock = true → leaves (.fltClassWrite who k v) d) ∧
      (t.lock = false → Completes (.fltClassWrite who k v) s fun f =>
        (∀ i, i < 16 → f.flt.classOf (16 * k + i) =
          if lockedSources.contains (16 * k.val + i) then t.classOf (16 * k + i) else v.toNat / 4 ^ i % 4) ∧
        (∀ j, j < 16 * k.val ∨ (16 * k.val + 16 ≤ j ∧ j < 64) → f.flt.classOf j = t.classOf j) ∧ f = { d with flt := { t with cls := f.flt.cls } }) ∧
      leaves (.fltCtrlClassLock who) { d with flt := { t with lock := true } }) ∧
    ((isFw who = false ∨ d.ctl.booting = true) → leaves (.fltHeartbeatWrite who v) d) ∧
    (isFw who = true → d.ctl.booting = false → leaves (.fltHeartbeatWrite who v) { d with flt := { t with beat := some now, wdtFrom := some now, live := t.live &&& ~~~(1#64 <<< 0) } }) ∧
    (∀ b, t.wdtFrom = some b →
      (now ≤ b + 150000000 → leaves .hubWdt d) ∧
      (b + 150000000 < now → Completes .hubWdt s fun f =>
        collector f ∧ f.flt.live.getLsbD 0 = true ∧ (t.live.getLsbD 0 = false → t.latched.get 0 0 = 0 → f.flt.status.getLsbD 0 = true))) ∧
    (∀ b, t.beat = some b →
      (now ≤ b + 30000000 → leaves .heartbeatLapse d) ∧ (b + 30000000 < now → leaves .heartbeatLapse { d with flt := { t with beat := none } })) ∧
    (let m := d.media / 500000
      let healthy := (∃ b, t.beat = some b ∧ now ≤ b + 30000000) ∧ d.halted = false;
      (m = t.aliveK → leaves .aliveToggle d) ∧ (m ≠ t.aliveK → ¬ healthy → leaves .aliveToggle { d with flt := { t with aliveK := m } }) ∧
      (m ≠ t.aliveK → healthy → leaves .aliveToggle { d with flt := { t with aliveK := m, alive := !t.alive }, out := d.out ++ [.pin "ALIVE" (!t.alive)] })) ∧
    (Completes .hubEcc s fun f => collector f ∧ (t.latched.get 0 1 = 0 → f.flt.status.getLsbD 1 = true ∧ f.flt.latched.get 0 1 = t.classOf 1 + 1)) ∧
    (Completes .fltSelf s fun f => collector f ∧ f.flt.live.getLsbD 63 = true) ∧
    (Completes .d2dLink s fun f => collector f ∧ f.flt.live.getLsbD 11 = true)

/-! ## Trust (chapter 21) -/

/-- The trust engine (R527, R547, R589 to R592, R596, R598 to R606): the TRUST unit's descriptors; images accepted and measured, or refused; quotes asked for, served, signed and
delivered, within their time; tamper and recovery. SHAKE256 and SLH-DSA are opaque functions (log entry 7); what the verifier finds of an image's signature comes with the command, the rate that a policy image sets is a
free value, and a quote whose key was erased meanwhile is refused (log entry 57). -/
def Obligations.TrustEngine : Prop :=
  ∀ (s : State) (x : Desc) (e : Dev) (who : Requester) (v : Word) (img : BootImage) (bytes : List Byte) (sensors : BitVec 3),
    let d := s.dev
    let t := d.trust
    let now := d.ctl.ticks
    let ended (j : Instr) (st : Nat) : Prop := exec j s = .next { s with dev := e.complete x st 0 }
    let leaves (j : Instr) (f : Dev) : Prop := exec j s = .next { s with dev := f }
    let nonce := (x.bytes.drop 0x40).take 32
    (d.Takes 14 1 attestSpec x e →
      let k := x.get 0x20 1
      let good := k ≤ 2 ∧ (k = 2 → x.get 0x22 2 ≤ 0x3FF) ∧ (k ≠ 2 → x.get 0x22 2 = 0) ∧ 300 ≤ x.get 0x24 2 ∧ x.get 0x24 2 ≤ 60000 ∧ x.get 0x28 8 % 64 = 0 ∧ 80416 ≤ x.get 0x30 4
      let busy := (k = 0 ∧ 8 ≤ e.trust.queue.length) ∨ (k = 1 ∧ e.twin.st ≠ .paired) ∨ (k = 2 ∧ e.casc.cfg = [])
      let t1 : Trust := { e.trust with attests := e.trust.attests ++ [(x, e.ctl.ticks, [])] };
      (¬ good → ended .trustAttest 0x04) ∧ (good → busy → ended .trustAttest 0x06) ∧
      (good → ¬ busy →
        (k = 0 → leaves .trustAttest { e with trust := { t1 with queue := e.trust.queue ++ [.self x] } }) ∧
        (k = 1 → leaves .trustAttest { e with trust := t1, waiting := e.waiting ++ [.twin 13 0 e.media nonce] }) ∧
        (k = 2 → leaves .trustAttest (({ e with trust := t1 } : Dev).sendControl {} 0 (x.get 0x22 2) .quoteRequest nonce)))) ∧
    (d.Takes 14 2 certsSpec x e →
      let good := x.get 0x20 8 % 64 = 0 ∧ 131072 ≤ x.get 0x28 4
      (¬ good → ended .trustCerts 0x04) ∧
      (good → leaves .trustCerts ((e.memWrite (x.get 0x20 8) ((e.trust.certs ++ zeros 131072).take 131072)).complete x 0 0))) ∧
    (d.Takes 14 3 measureSpec x e →
      let a := x.get 0x20 8
      let n := x.get 0x28 8
      let good := n % 64 = 0 ∧ 64 ≤ n ∧ n ≤ 2 ^ 32
      (¬ good → ended .trustMeasure 0x04) ∧ (good → e.poisoned a n = true → ended .trustMeasure 0x0F) ∧
      (good → e.poisoned a n = false → Completes .trustMeasure s fun f =>
        f.trust.meas.get [] 5 = Config.shake256 (e.meas 5 ++ Config.shake256 (e.memRead a n) 64) 64 ∧ (∀ j, j ≠ 5 → f.trust.meas.get [] j = e.trust.meas.get [] j) ∧
        f.trust.versions = e.trust.versions ∧ f.trust.fused = e.trust.fused ∧ f.flt = e.flt)) ∧
    (d.Takes 14 4 commitSpec x e →
      leaves .trustCommitSvn (({ e with trust := { e.trust with fused := max e.trust.fused e.runningVersion } } : Dev).complete x 0 0)) ∧
    (let live := t.serving = true ∨ d.flt.live.getLsbD 0 = true ∨ t.queue = []
      let absent := d.flt.live.getLsbD 51 || !d.prl.powered
      (live → leaves .quoteServiceStart d) ∧
      (∀ q rest, ¬ live → t.queue = q :: rest →
        (t.keyReady = true → leaves .quoteServiceStart { d with trust := { t with serving := true, snap := d.quoteBody q.nonce (if absent then none else some d.prl.block), blockDue := if absent then none else some (now + 30000000) } }) ∧
        (∀ y, t.keyReady = false → q = .self y → leaves .quoteServiceStart
          (({ d with trust := { t with queue := rest, attests := t.attests.filter fun a => a.1 != y } } : Dev).complete y 0x0F 0)) ∧
        (∀ n, t.keyReady = false → q = .partner n → leaves .quoteServiceStart { d with trust := { t with queue := rest }, waiting := d.waiting ++ [.twin 14 0 d.media [0x0F]] }) ∧
        (∀ a n, t.keyReady = false → q = .casc a n → leaves .quoteServiceStart (({ d with trust := { t with queue := rest } } : Dev).sendControl {} 0 a .quoteRefused [0x0F]))) ∧
      (∀ q rest y since got, t.serving = true → t.queue = q :: rest →
        let t1 : Trust := { t with serving := false, queue := rest, snap := [], blockDue := none }
        (t.keyReady = true → q = .self y → t.attests = [(y, since, got)] → leaves .quoteSigned
          ((({ d with trust := { t1 with attests := [] } } : Dev).memWrite (y.get 0x28 8) d.quoteBytes).complete y 0 0)) ∧
        (t.keyReady = false → q = .self y → leaves .quoteSigned (({ d with trust := { t1 with attests := t.attests.filter fun a => a.1 != y } } : Dev).complete y 0x0F 0)) ∧
        (∀ n, q = .partner n → leaves .quoteSigned { d with trust := t1, waiting := d.waiting ++ [.twin 14 0 d.media (if t.keyReady then d.quoteBytes else [0x0F])] }) ∧
        (∀ a n, q = .casc a n → t.keyReady = true →
          leaves .quoteSigned ((quoteParts d.quoteBytes).foldl (fun g part => g.sendControl {} 0 a .quotePart part) { d with trust := t1 }))) ∧
      ((t.serving = false ∨ t.queue = []) → leaves .quoteSigned d)) ∧
    (∀ due, t.blockDue = some due →
      let snap := overlay (overlay t.snap 8 (toLE 1 (byteAt t.snap 8 ||| 1))) 0x280 (zeros 29920)
      ((t.serving = false ∨ now < due) → leaves .pralineBlockTimeout d) ∧
      (t.serving = true → due ≤ now → leaves .pralineBlockTimeout { d with trust := { t with blockDue := none, snap := snap } })) ∧
    (let trips := ∃ i, i < 3 ∧ sensors.getLsbD i = true ∧ bitN t.sensors i = false
      let n := sensors.toNat
      (d.ctl.pwrOk = false → leaves (.trustTamper sensors) d) ∧
      (d.ctl.pwrOk = true → trips → Completes (.trustTamper sensors) s fun f =>
        f.trust = { t with sensors := n, tamper := min 65535 (t.tamper + 1), keyReady := false } ∧ f.flt.live.getLsbD 49 = true) ∧
      (d.ctl.pwrOk = true → ¬ trips → Completes (.trustTamper sensors) s fun f => f.trust = { t with sensors := n } ∧ (f.flt.live.getLsbD 49 = true ↔ n ≠ 0))) ∧
    (let t1 : Trust := { t with recHi := v &&& 0xFFFF#32 }
      let go := v.getLsbD 31 = true ∧ d.ctl.bootFailed = true ∧ ∀ m, m < 12 → (d.mcAt m).st ≠ 5
      (isPf who = false → leaves (.trustRecoverGo who v) d) ∧ (isPf who = true → ¬ go → leaves (.trustRecoverGo who v) { d with trust := t1 }) ∧
      (isPf who = true → go →
        let t2 : Trust := { t1 with recGo := true, recovery := true, boot := 0, copyB := false, done := [], failed := t.failed.filter (· != 0) }
        leaves (.trustRecoverGo who v) { d with trust := t2, ctl := { d.ctl with bootFailed := false, booting := true } })) ∧
    (∀ copyB : Bool,
      let k := img.typ
      let h (o n : Nat) : Nat := fieldLE img.signed o n
      let ok := img.present = true ∧ h 0 4 = 0x4B475349 ∧ h 4 1 = k ∧ (h 5 1 ≤ 3 ∨ (h 5 1 = 4 ∧ k = 4)) ∧ h 6 2 = 0 ∧ zeroBytes img.signed 0x50 48 = true ∧ h 8 4 ≤ 64 ∧
        h 0x0C 4 % 64 = 0 ∧ h 0x0C 4 ≤ 2 ^ 24 ∧ img.signed.length = 128 + h 0x0C 4 ∧ Config.shake256 ((img.signed.drop 0x10).take 64) 64 = t.keyHash.get (Config.keyHash (h 5 1)) (h 5 1) ∧ t.revoked.get (Config.keyRevoked (h 5 1)) (h 5 1) = false ∧ img.sigOk = true ∧ t.fused ≤ h 8 4
      let meas (f : Dev) : Prop := f.trust.meas.get [] k = Config.shake256 (d.meas k ++ Config.shake256 img.signed 64) 64 ∧ f.trust.versions.get 0 k = h 8 4 ∧ f.trust.done = t.done ++ [k]
      (d.ctl.booting = false ∨ 4 < k ∨ k ∈ t.done → leaves (.bootImageLoad copyB img) d) ∧
      (d.ctl.booting = true → d.ctl.pwrOk = true → d.ctl.perstN = true → k ∉ t.done →
        (k = 0 → t.boot = 0 → copyB = false → t.failed = [] → t.keyDone = true →
          (ok → Completes (.bootImageLoad copyB img) s fun f => meas f ∧ f.trust.boot = 1 ∧ f.trust.copyB = false ∧ f.flt.live.getLsbD 2 = false) ∧
          (¬ ok → Completes (.bootImageLoad copyB img) s fun f => f.trust = { t with failed := [0] } ∧ f.ctl = d.ctl ∧ f.flt.live.getLsbD 2 = true)) ∧
        (1 ≤ k → k ≤ 3 → t.boot ≠ 0 → copyB = t.copyB → 0 ∈ t.done →
          (ok → t.failed = [] → Completes (.bootImageLoad copyB img) s fun f => meas f ∧ f.trust.boot = t.boot ∧ f.ctl = d.ctl ∧ f.flt.live.getLsbD 2 = false) ∧
          (¬ ok → Completes (.bootImageLoad copyB img) s fun f =>
            k ∈ f.trust.failed ∧ f.trust.boot = 3 ∧ f.ctl = { d.ctl with bootFailed := true } ∧ f.trust.done = t.done ∧ f.flt.live.getLsbD 2 = true)) ∧
        (k = 4 → t.boot ≠ 0 → copyB = t.copyB → 0 ∈ t.done →
          (¬ ok → leaves (.bootImageLoad copyB img) d) ∧
          (ok → t.failed = [] → Completes (.bootImageLoad copyB img) s fun f =>
            meas f ∧ ∀ m, m < 12 → f.mcAt m = { d.mcAt m with rate := Config.freeValue d.freeCtr % 4 })))) ∧
    (∀ y since got, t.attests = [(y, since, got)] →
      let late := since + y.get 0x24 2 * 3000000 ≤ now
      let none_ : Trust := { t with attests := [] };
      (¬ late → t.queue = [] → leaves .attestTimeout d) ∧
      (late → t.queue = [] → leaves .attestTimeout (({ d with trust := none_ } : Dev).complete y 0x0A 0)) ∧
      (late → t.serving = false → t.queue = [.self y] → leaves .attestTimeout (({ d with trust := { none_ with queue := [] } } : Dev).complete y 0x0A 0)) ∧
      (y.get 0x20 1 ≠ 1 → leaves (.twinQuoteRx bytes) d) ∧
      (y.get 0x20 1 = 1 →
        (∀ b, bytes = [b] → leaves (.twinQuoteRx bytes) (({ d with trust := none_ } : Dev).complete y b.toNat 0)) ∧
        (bytes.length ≠ 1 → (got ++ bytes).length < 80416 → leaves (.twinQuoteRx bytes) { d with trust := { t with attests := [(y, since, got ++ bytes)] } }) ∧
        (bytes.length ≠ 1 → 80416 ≤ (got ++ bytes).length →
          leaves (.twinQuoteRx bytes) ((({ d with trust := none_ } : Dev).memWrite (y.get 0x28 8) ((got ++ bytes).take 80416)).complete y 0 0)))) ∧
    (d.twin.st ≠ .paired → leaves (.twinQuoteRequestRx bytes) d) ∧
    (d.twin.st = .paired →
      (t.queue.length < 8 → leaves (.twinQuoteRequestRx bytes) { d with trust := { t with queue := t.queue ++ [.partner bytes] } }) ∧
      (8 ≤ t.queue.length → leaves (.twinQuoteRequestRx bytes) { d with waiting := d.waiting ++ [.twin 14 0 d.media [6]] }))

/-! ## The Praline island (chapter 22) -/

/-- Metering and the log (R609 to R625): tap events, which a frame that a MAC has sent puts on their way, and heartbeats; a second and an interval of the island's clock end, with their counts and records; committed parameters
take effect; a signature replaces the block; the seal input; the supplies. A record is 32 bytes of header and its body in units of 16 bytes, and the chain covers it. -/
def Obligations.PralineMetering : Prop :=
  ∀ (s : State) (ev : TapEvent) (tileB high keyOk : Bool),
    let d := s.dev
    let p := d.prl
    let now := d.ctl.ticks
    let prlIs (i : Instr) (q : Prl) : Prop := exec i s = .next { s with dev := { d with prl := q } }
    let same (i : Instr) : Prop := exec i s = .next s
    let still := p.powered = false ∨ p.counter < (p.secDone + 1) * 32768
    let size (body : List Byte) : Nat := 32 + (body.length + 15) / 16 * 16
    let fits (q : Prl) (n : Nat) : Prop := q.logStopped = false ∧ q.wptr + n ≤ logRing ∧ n ≤ q.freeBytes
    let put (q : Prl) (typ : Nat) (body : List Byte) : Prl :=
      let n := size body
      let bs := toLE 4 n ++ toLE 2 typ ++ toLE 2 0 ++ toLE 8 q.head ++ toLE 8 q.counter ++ toLE 8 q.hubNow ++ (body ++ zeros (n - 32)).take (n - 32)
      let live := q.recs.filter fun r => !(r.2.1 < q.wptr + n && q.wptr < r.2.1 + r.2.2)
      let q1 : Prl := { q with ring := writeBytes q.ring q.wptr bs, recs := live ++ [(q.head, q.wptr, n)], head := q.head + 1, wptr := (q.wptr + n) % logRing, chain := some (Config.shake256 (q.chainNow ++ bs) 64) }
      { q1 with logFull := q.logFull || q1.freeBytes < logReserve }
    (let m := p.map.get 0 ev.flow
      let counts := p.powered = true ∧ p.selfTest = false ∧ bitN m 31 = true ∧ bitN m (if ev.copyB then 11 else 10) = true ∧ (ev.fec = true → bitN m 12 = true)
      let c := p.contract (bits m 0 10);
      (ev ∉ p.taps → same (.tapEvent ev)) ∧
      (ev ∈ p.taps → p.powered = true → (p.secDone + 1) * 32768 ≤ p.counter → p.counter < (p.secDone + 2) * 32768 →
        ∀ f, exec .islandSecondBoundary s = .next f → exec (.tapEvent ev) s = exec (.tapEvent ev) f) ∧
      (ev ∈ p.taps → still → ¬ counts → prlIs (.tapEvent ev) { p with taps := p.taps.erase ev }) ∧
      (ev ∈ p.taps → still → counts → prlIs (.tapEvent ev) { p with taps := p.taps.erase ev, contracts := p.contracts.put {} (bits m 0 10) { c with secPkts := c.secPkts + 1, secOct := c.secOct + ev.octets } })) ∧
    (p.powered = false → same (.tapHeartbeatRx tileB) ∧ same (.tapHeartbeatTimeout tileB) ∧ same .islandSecondBoundary ∧ same .intervalBoundary ∧ same (.prlSealNEdge high) ∧
      same .mainSupplyLoss ∧ same .mainSupplyReturn) ∧
    (p.powered = true →
      (still → prlIs (.tapHeartbeatRx tileB) (if tileB then { p with beatB := now, tapB := false } else { p with beatA := now, tapA := false })) ∧
      (now < (if tileB then p.beatB else p.beatA) + 30000 → same (.tapHeartbeatTimeout tileB)) ∧
      (still → (if tileB then p.beatB else p.beatA) + 30000 ≤ now →
        prlIs (.tapHeartbeatTimeout tileB) (if tileB then { p with tapB := true, secDown := true, ivDown := true } else { p with tapA := true, secDown := true, ivDown := true })) ∧
      (p.counter < (p.secDone + 1) * 32768 → same .islandSecondBoundary) ∧
      ((p.secDone + 1) * 32768 ≤ p.counter → p.selfTest = false → Completes .islandSecondBoundary s fun f =>
        f.prl.secDone = p.secDone + 1 ∧ f.prl.checkpoint = (p.secDone + 1) * 32768 ∧ f.prl.secDown = (p.tapA || p.tapB) ∧
        (∀ k, k < 1024 → k ∉ p.mapped → (p.contract k).secPkts = 0 → f.prl.contract k = p.contract k) ∧
        (∀ k, k < 1024 → k ∈ p.mapped ∨ 0 < (p.contract k).secPkts →
          let c := p.contract k
          let g := f.prl.contract k
          let svc := if p.secDown = false ∧ 0 < c.secPkts ∧ c.minRate ≤ c.secOct * 8 then 1 else 0
          let out := if p.secDown = false ∧ c.secPkts = 0 then 1 else 0;
          g.secPkts = 0 ∧ g.secOct = 0 ∧ g.ivPkts = c.ivPkts + (c.secPkts - c.earlyPkts) ∧ g.ivOct = c.ivOct + (c.secOct - c.earlyOct) ∧ g.pkts = c.pkts + c.secPkts ∧ g.octets = c.octets + c.secOct ∧
          g.ivSvc = c.ivSvc + svc ∧ g.svc = c.svc + svc ∧ g.ivOut = c.ivOut + out ∧ g.outage = c.outage + out)) ∧
      (let due := p.ivDone < p.secDone ∧ p.secDone % p.interval = 0
        let quiet := p.hubTime = none ∧ p.committed = [] ∧ p.secDone % 600 ≠ 0 ∧ logReserve ≤ p.freeBytes
        let closed : Prl := { p with logFull := false, logStopped := false, ivDone := p.secDone, timeDis := false, lastTime := none, ivDown := p.tapA || p.tapB, ivAbsent := p.mainAbsent, ivPresent := false, ivParam := false };
        (¬ due → same .intervalBoundary) ∧
        (due → quiet → p.mapped = [] → p.contracts = [] → prlIs .intervalBoundary closed) ∧
        (∀ k c, due → quiet → p.mapped = [k] → p.contracts = [(k, c)] → p.ivPresent = true → p.wptr + 64 ≤ logRing → 64 + logReserve ≤ p.freeBytes → Completes .intervalBoundary s fun f =>
          f.prl.head = p.head + 1 ∧ f.prl.wptr = (p.wptr + 64) % logRing ∧ (p.head, p.wptr, 64) ∈ f.prl.recs ∧
          readBytes f.prl.ring (p.wptr + 32) 32 = toLE 2 1 ++ toLE 1 p.interval ++ zeros 13 ++ toLE 2 k ++ toLE 1 c.ivSvc ++ toLE 1 c.ivOut ++ toLE 5 c.ivPkts ++ toLE 6 c.ivOct ++
            toLE 1 (b2n p.ivDown + 2 * b2n p.ivAbsent + 8 * b2n p.ivParam) ∧
          f.prl.contract k = { c with ivPkts := 0, ivOct := 0, ivSvc := 0, ivOut := 0 }) ∧
        (∀ fl en, due → p.committed = [(0, fl, en)] → Completes .intervalBoundary s fun f =>
          f.prl.map = p.map.put 0 fl en ∧ f.prl.audit = p.audit + 1 ∧ f.prl.committed = [] ∧ f.prl.signing.length = p.signing.length + 1 ∧ f.prl.ivDone = p.secDone) ∧
        (∀ sec, due → p.committed = [(2, 0, sec)] → Completes .intervalBoundary s fun f => f.prl.interval = sec ∧ f.prl.audit = p.audit + 1)) ∧
      (p.sealHigh = high → same (.prlSealNEdge high)) ∧
      (p.sealHigh ≠ high → fits p 48 → prlIs (.prlSealNEdge high) (put { p with sealHigh := high, staged := if high then p.staged else [] } 5 (toLE 1 (b2n high) ++ zeros 15))) ∧
      (d.ctl.pwrOk = false → p.mainAbsent = false → p.mapped = [] → p.contracts = [] → fits p 256 → Completes .mainSupplyLoss s fun f =>
        f.prl.mainAbsent = true ∧ f.prl.ivAbsent = true ∧ f.prl.head = p.head + 3 ∧ f.prl.wptr = (p.wptr + 256) % logRing ∧
        (∃ body, f.prl.signing = p.signing ++ [(body, p.head + 2)] ∧ body.take 4 = toLE 2 0x5053 ++ toLE 2 1) ∧ f = { d with prl := f.prl }) ∧
      ((d.ctl.pwrOk = true ∨ p.mainAbsent = true) → same .mainSupplyLoss) ∧ ((d.ctl.pwrOk = false ∨ p.mainAbsent = false) → same .mainSupplyReturn) ∧
      (d.ctl.pwrOk = true → p.mainAbsent = true → fits p 48 → prlIs .mainSupplyReturn (put { p with mainAbsent := false, ivPresent := true } 7 (toLE 1 1 ++ zeros 15)))) ∧
    (p.signing = [] ∨ p.keyReady = false → same .sealSignatureDone) ∧
    (∀ body n rest, p.signing = (body, n) :: rest → p.keyReady = true →
      prlIs .sealSignatureDone { p with signing := rest, block := body ++ (Config.slhSign Config.pralineSecret body ++ zeros 29792).take 29792, sealSeq := n }) ∧
    (p.contracts = [] → fits p 48 →
      let good := keyOk && pralineIdent == Config.genesisIdent
      let up : Prl := { p with powered := true, selfTest := !good, keyReady := keyOk, hubTime := none, counter := p.checkpoint + 32768, frac := 0, secDone := (p.checkpoint + 32768) / 32768, secDown := p.tapA || p.tapB, lastTime := none, staged := [], beatA := now, beatB := now }
      prlIs (.vddPrlPowerUp keyOk) (put up 7 (toLE 1 2 ++ zeros 7 ++ toLE 8 p.checkpoint)))

/-- What the island exchanges (R608, R615, R619, R621 to R623): TIME, RELEASE and status messages with the hub, the lines that a status drives, and the commands of PRL_UART
with their replies: a change is staged only while the seal is open. -/
def Obligations.PralineExchange : Prop :=
  ∀ (s : State) (msg : List Byte) (first n flow rate sec k w : Nat),
    let d := s.dev
    let p := d.prl
    let now := d.ctl.ticks
    let prlIs (i : Instr) (q : Prl) : Prop := exec i s = .next { s with dev := { d with prl := q } }
    let same (i : Instr) : Prop := exec i s = .next s
    let replies (i : Instr) (q : Prl) (bs : List Byte) : Prop := exec i s = .next { s with dev := { d with prl := q, out := d.out ++ [.uart bs] } }
    let uart : List Instr := [.prlUartId, .prlUartStatus, .prlUartRead first n, .prlUartBlock, .prlUartMap flow none 0, .prlUartRate k rate, .prlUartInterval sec, .prlUartCommit, .prlUartDiscard]
    let stages (i : Instr) (good : Prop) (c : Nat × Nat × Nat) : Prop :=
      (¬ good → replies i p (uartEnd 0x04)) ∧ (good → p.sealHigh = false → replies i p (uartEnd 0x0D)) ∧
      (good → p.sealHigh = true → replies i { p with staged := p.staged ++ [c] } (uartEnd 0))
    (p.powered = true → byteAt msg 0 = 1 → prlIs (.mailboxTimeRx msg) { p with hubTime := some (fieldLE msg 8 8, p.ns) }) ∧
    (p.powered = false ∨ byteAt msg 0 ≠ 1 → same (.mailboxTimeRx msg)) ∧
    (∀ mt t0, p.hubTime = some (mt, t0) → (p.ns < t0 + 2000000000 → same .hubTimeLapse) ∧ (t0 + 2000000000 ≤ p.ns → prlIs .hubTimeLapse { p with hubTime := none })) ∧
    (let r := fieldLE msg 8 8
      let takes := p.powered = true ∧ byteAt msg 0 = 2 ∧ r < p.sealSeq ∧ p.released < r;
      (¬ takes → same (.mailboxReleaseRx msg)) ∧
      (takes → Completes (.mailboxReleaseRx msg) s fun f =>
        f.prl.released = r ∧ f = { d with prl := f.prl } ∧
        (p.logStopped = false → p.wptr + 48 ≤ logRing → 48 ≤ p.freeBytes → f.prl.head = p.head + 1 ∧ readBytes f.prl.ring (p.wptr + 32) 16 = toLE 8 r ++ zeros 8))) ∧
    (let sends := p.hubSec < d.tb.sec ∧ d.ctl.pwrOk = true ∧ d.ctl.booting = false ∧ d.ctl.bootFailed = false;
      (¬ sends → same .hubTimeSend) ∧
      (sends → exec .hubTimeSend s =
        .next { s with dev := { d with prl := { p with hubSec := d.tb.sec }, out := d.out ++ [.mailbox false (toLE 1 1 ++ zeros 7 ++ toLE 8 d.media ++ zeros 48)] } })) ∧
    (let changed := p.powered = true ∧ (p.status ≠ p.sentStat ∨ p.sentSec < p.secDone)
      let st := p.status
      let sent : Prl := { p with sentStat := st, sentSec := p.secDone };
      (¬ changed → same .prlStatusSend) ∧
      (changed → d.ctl.pwrOk = false → exec .prlStatusSend s = .next { s with dev := { d with prl := sent, out := d.out ++ [.mailbox true (toLE 4 st)] } }) ∧
      (changed → d.ctl.pwrOk = true → Completes .prlStatusSend s fun f =>
        f.prl = { sent with hubStat := st, hubStatAt := now } ∧ OutEv.mailbox true (toLE 4 st) ∈ f.out ∧
        (f.flt.live.getLsbD 51 = true ↔ bits st 0 2 ≠ 0) ∧ (f.flt.live.getLsbD 50 = true ↔ bits st 2 14 ≠ 0))) ∧
    (d.ctl.pwrOk = false ∨ now < p.hubStatAt + 9000000000 → same .pralineLink) ∧
    (d.ctl.pwrOk = true → p.hubStatAt + 9000000000 ≤ now → Completes .pralineLink s fun f => f.flt.live.getLsbD 51 = true ∧ f.prl = p) ∧
    (p.powered = false → ∀ i ∈ uart, same i) ∧
    (p.powered = true →
      replies .prlUartId p (uartLine (hexBytes pralineIdent) ++ uartLine (hexBytes pralineKey) ++ uartLine (decimalBytes p.head) ++ uartEnd 0) ∧
      replies .prlUartStatus p (uartLine (decimalBytes p.status) ++ uartLine (decimalBytes p.audit) ++ uartLine (decimalBytes p.counter) ++ uartEnd 0) ∧
      replies .prlUartBlock p (uartLine (hexBytes p.block) ++ uartEnd 0) ∧
      (n = 0 ∨ 256 < n → replies (.prlUartRead first n) p (uartEnd 0x04)) ∧
      (p.record first = none → replies (.prlUartRead first 1) p (uartEnd 0x04)) ∧
      (∀ r, p.record first = some r → replies (.prlUartRead first 1) p (uartLine (hexBytes r) ++ uartEnd 0)) ∧
      stages (.prlUartMap flow none w) (flow < 4096) (0, flow, 0) ∧
      stages (.prlUartMap flow (some k) w) (flow < 4096 ∧ k < 1024 ∧ w < 8) (0, flow, k + w * 1024 + 2 ^ 31) ∧
      stages (.prlUartRate k rate) (k < 1024 ∧ 1 ≤ rate ∧ rate ≤ 1000000000000) (1, k, rate) ∧
      stages (.prlUartInterval sec) (sec = 10 ∨ sec = 15 ∨ sec = 20 ∨ sec = 30 ∨ sec = 60) (2, 0, sec) ∧
      (p.sealHigh = false → replies .prlUartCommit p (uartEnd 0x0D)) ∧
      (p.sealHigh = true → replies .prlUartCommit { p with committed := p.committed ++ p.staged, staged := [] } (uartEnd 0)) ∧
      replies .prlUartDiscard { p with staged := [] } (uartEnd 0))

/-! ## Resets, boot and DORMANT (chapters 23 and 25) -/

/-- Resets and boot (R84, R89, R109, R111, R582, R627 to R634, R638, Tables 23.1 and 23.2): reset P leaves the reset state but for what is stored, fused or the island's;
resets E and S keep memory in self-refresh, the sticky faults and the island; H holds every ring; F frees one function; I one island; boot starts, counts and ends. -/
def Obligations.Resets : Prop :=
  ∀ (s : State) (who : Requester) (b : Bool) (fn num : Fin 64),
    let d := s.dev
    let same (i : Instr) : Prop := exec i s = .next s
    let leaves (i : Instr) (f : Dev) : Prop := exec i s = .next { s with dev := f }
    let on := d.ctl.pwrOk = true ∧ d.ctl.perstN = true
    let emptied (f : Dev) : Prop := f.rings = [] ∧ f.thr = [] ∧ f.unitQ = [] ∧ f.pend = [] ∧ f.cap = [] ∧ f.scene = [] ∧ f.layer = [] ∧ f.chan = [] ∧ f.pipe = [] ∧ f.dec = [] ∧ f.blit = [] ∧
      f.flow = [] ∧ f.queue = [] ∧ f.port = [] ∧ f.pol = [] ∧ f.chk = [] ∧ f.twin = {} ∧ f.dsp = {}
    let kept (f : Dev) (code : Nat) : Prop :=
      emptied f ∧ f.ctl.lastReset = code ∧ f.ctl.booting = true ∧ f.ctl.power = 0 ∧ f.ctl.ticks = d.ctl.ticks ∧ f.mem = d.mem ∧ f.memEra = d.memEra ∧ f.poison = d.poison ∧
      f.loc = d.loc ∧ f.prl = d.prl ∧ f.trust.fused = d.trust.fused ∧ f.trust.tamper = d.trust.tamper ∧ f.trust.done = [] ∧ f.trust.queue = [] ∧ f.trust.meas = [] ∧
      f.casc.cfg = d.casc.cfg ∧ f.casc.map = d.casc.map ∧ f.tb.sec = d.tb.sec ∧ f.tb.ns = d.tb.ns ∧ f.tb.incr = d.tb.incr ∧ f.tb.servo = d.tb.servo ∧ f.tb.outs = [] ∧ f.tb.ptp = []
    let broken : Bool := (List.range 12).any fun m => (d.mcAt m).st == 5
    let memories (f : Dev) (boots : Bool) : Prop := Tab.wf {} d.mc → f.ctl.bootFailed = (boots && broken) ∧ ∀ m, m < 12 →
      (f.mcAt m).st = (if (d.mcAt m).st = 2 ∨ (d.mcAt m).st = 4 then 3 else if boots ∧ (d.mcAt m).st = 0 then 1 else (d.mcAt m).st) ∧
      (f.mcAt m).srIdle = 20 ∧ (f.mcAt m).inhibit = false ∧ (f.mcAt m).limit = 4 ∧ (f.mcAt m).periodH = 24
    let boots (f : Dev) : Prop := f.trust.bootCount = (d.trust.bootCount + 1) % 2 ^ 32 ∧ (∀ i, i < 64 → i ≠ 45 → i ≠ 46 → f.flt.live.getLsbD i = true → f.flt.latched.get 0 i ≠ 0)
    let heldAs (r q : Ring) : Prop := q.st = .held ∧ q.recTail = r.sqTail ∧ q.recHead = r.sqHead ∧ q.recCq = r.cqTail ∧ q.enable = false
    (Completes .resetP s fun f =>
      f = { Dev.reset with
        ctl := { pwrOk := false, perstN := d.ctl.perstN, ticks := d.ctl.ticks }
        tb := { refTb := d.tb.refTb, refPcie := d.tb.refPcie }
        trust := { bootCount := d.trust.bootCount, fused := d.trust.fused, sensors := d.trust.sensors, tamper := d.trust.tamper, certs := d.trust.certs, keyHash := d.trust.keyHash, revoked := d.trust.revoked }
        prl := d.prl
        out := f.out
        freeCtr := d.freeCtr } ∧
      (d.flt.live.getLsbD 53 = true → OutEv.pin "THERM_TRIP_N" true ∈ f.out)) ∧
    (d.ctl.perstN = false → same .perstNFall) ∧ (d.ctl.perstN = true → same (.perstNRise b)) ∧ (d.ctl.pwrOk = true → same (.pwrOkRise b)) ∧
    (d.ctl.pwrOk = false →
      (d.ctl.perstN = true → leaves .perstNFall { d with ctl := { d.ctl with perstN := false } }) ∧
      (d.ctl.perstN = false → leaves (.perstNRise b) { d with ctl := { d.ctl with perstN := true, senior := b } }) ∧
      (d.ctl.perstN = false → Completes (.pwrOkRise b) s fun f => f.ctl = { d.ctl with pwrOk := true, ticks := 0, senior := b } ∧ f.trust = d.trust ∧ f.mc = d.mc) ∧
      (d.ctl.perstN = true → Completes (.pwrOkRise b) s fun f => f.ctl = { d.ctl with pwrOk := true, ticks := 0, senior := b, bootFailed := broken } ∧ boots f ∧
        ∀ m, m < 12 → f.mcAt m = { d.mcAt m with st := if (d.mcAt m).st = 0 then 1 else (d.mcAt m).st })) ∧
    (on → d.casc.dup = false → Completes .perstNFall s fun f =>
      kept f 2 ∧ memories f false ∧ f.ctl.perstN = false ∧ f.hub = {} ∧ f.flt.status = d.flt.status ∧ f.flt.prior = d.flt.status ∧ f.flt.cls = Flt.reset.cls ∧
      f.flt.live.getLsbD 3 = true ∧ (∀ i, f.flt.latched.get 0 i = 0 ∨ f.flt.latched.get 0 i = 4) ∧ f.trust.bootCount = d.trust.bootCount ∧ f.casc.closed = true) ∧
    (d.ctl.pwrOk = true → d.ctl.perstN = false → Completes (.perstNRise b) s fun f =>
      f.ctl = { d.ctl with perstN := true, senior := b, bootFailed := broken } ∧ boots f ∧ ∀ m, m < 12 → f.mcAt m = { d.mcAt m with st := if (d.mcAt m).st = 0 then 1 else (d.mcAt m).st }) ∧
    ((isPf who = false ∨ ¬ on) → same (.devCtrlSoft who)) ∧
    (isPf who = true → on → d.casc.dup = false → Completes (.devCtrlSoft who) s fun f =>
      kept f 3 ∧ memories f true ∧ boots f ∧ f.hub.numVfs = d.hub.numVfs ∧ f.hub.linkUp = d.hub.linkUp ∧ f.hub.msix = d.hub.msix ∧ f.ctl.perstN = true) ∧
    (d.bootReady = false → same .bootComplete) ∧
    (d.bootReady = true → (d.mcAt 0).density ≤ 3 → Completes .bootComplete s fun f =>
      f.ctl = { d.ctl with booting := false } ∧ f.trust = { d.trust with boot := 2 } ∧ f.window 0 = { resetWindow with len := d.capacity } ∧ (∀ m, m < 12 → (f.mcAt m).st = 2) ∧
      f.spillBase + spillSize ≤ d.capacity ∧ f.freeCtr = d.freeCtr + 1) ∧
    (¬ on → same (.resetH b) ∧ same (.resetF fn) ∧ same (.vfDisable b num)) ∧
    (on → Completes (.resetH b) s fun f =>
      f.ctl = { d.ctl with lastReset := 4 } ∧ f.hub.numVfs = 0 ∧ f.hub.msix = [] ∧ f.hub.owner = d.hub.owner ∧ f.hub.linkUp = (d.hub.linkUp && !b) ∧
      (b = true → f.flt.live.getLsbD 3 = true ∧ (d.hub.linkUp = true → f.hub.downCount = (d.hub.downCount + 1) % 65536)) ∧
      (d.ctl.booting = false → ∀ k, k < 64 → heldAs (d.ring k) (f.ring k))) ∧
    (on → d.hub.numVfs < fn → same (.resetF fn)) ∧
    (on → fn ≤ d.hub.numVfs → Completes (.resetF fn) s fun f => f.ctl.lastReset = 5 ∧ f.ring fn = {} ∧ (fn = 0 → f.hub.numVfs = 0 ∧ ∀ k, k ≤ d.hub.numVfs → k < 64 → f.ring k = {})) ∧
    (∀ k th, on → 1 ≤ fn.val → fn ≤ d.hub.numVfs → d.thr = [(k, th)] → th.fn = fn → (th.st = .ready ∨ th.st = .running ∨ th.st = .waiting) → th.outst = 0 → d.chan = [] → d.dsp.heldPosts = [] →
      d.unitQueue 3 = [] → (∀ i, i < 4 → (d.engine i).job = none) → Completes (.resetF fn) s fun f => f.thr = []) ∧
    (let n := if b then num.val else 0;
      on → (d.hub.numVfs ≤ n → leaves (.vfDisable b num) { d with hub := { d.hub with numVfs := n } }) ∧
      (n < d.hub.numVfs → Completes (.vfDisable b num) s fun f => f.hub.numVfs = n ∧ (∀ k, n < k → k ≤ d.hub.numVfs → k < 64 → f.ring k = {}) ∧
        (Tab.wf 0 d.hub.owner → ∀ key, f.hub.owner.get 0 key = if n < d.hub.owner.get 0 key ∧ d.hub.owner.get 0 key ≤ d.hub.numVfs ∧ d.hub.owner.get 0 key < 64 then 0 else d.hub.owner.get 0 key))) ∧
    ((d.hub.numVfs < fn ∨ d.ctl.booting = true) → same (.d3hotEntry fn)) ∧
    (fn ≤ d.hub.numVfs → d.ctl.booting = false → Completes (.d3hotEntry fn) s fun f =>
      heldAs (d.ring fn) (f.ring fn) ∧ (∀ k, k ≠ fn.val → f.ring k = d.ring k) ∧ f.ctl = d.ctl ∧ f.mem = d.mem) ∧
    (let n := d.ctl.island
      let cannot := n = 31 ∨ d.ctl.islBusy ≠ none ∨ d.unpowered n = true
      let busy : DevCtl := { d.ctl with islBusy := some n, lastReset := 6 };
      (isPf who = false → same (.devCtrlIslGo who)) ∧ (isPf who = true → cannot → leaves (.devCtrlIslGo who) { d with ctl := { d.ctl with islErr := true } }) ∧
      (isPf who = true → ¬ cannot → Completes (.devCtrlIslGo who) s fun f =>
        f.ctl = busy ∧ (n < 16 → (f.pipeAt n).cur = none ∧ ∀ k, k ≠ n → f.pipeAt k = d.pipeAt k) ∧
        (16 ≤ n → n < 20 → f.decPipeAt (n - 16) = {}) ∧
        (24 ≤ n → n < 26 → ∀ k, k < 4 → if k / 2 = n - 24 then (f.engine k).jobs = 0 ∧ (f.engine k).aborts = 0 else f.engine k = d.engine k) ∧
        (n = 30 → f.dsp.sel = 0 ∧ f.dsp.stallUs = 100 ∧ f.dsp.sliceUs = 200 ∧ f.dsp.last = 0)) ∧
      (isPf who = true → ¬ cannot → 20 ≤ n → n < 24 →
        let scenes := d.scene.mapAll ({} : Scene) fun k z => if k / 16 = n - 20 then { z with work := z.work.map fun w => { w with dead := true } } else z
        leaves (.devCtrlIslGo who) (({ d with ctl := busy, scene := scenes } : Dev).modClusterAt (n - 20) fun z => { z with layerSel := 0 }))) ∧
    (d.ctl.islBusy = none → same .islandResetDone) ∧
    (∀ n, d.ctl.islBusy = some n →
      (16 ≤ n → n ≠ 30 → leaves .islandResetDone { d with ctl := { d.ctl with islBusy := none } }) ∧
      (n < 16 → d.twin.st ≠ .paired → Completes .islandResetDone s fun f => f.ctl = { d.ctl with islBusy := none } ∧ ∀ c, (32 + n, c) ∉ f.fab.shed) ∧
      (n = 30 → d.twin.st ≠ .partitioned → leaves .islandResetDone { d with ctl := { d.ctl with islBusy := none } }))

/-- DORMANT, supplies and clocks (R82, R640 to R644, R655, R661, R668): DORMANT entered only while nothing is started, its steps out and in, with memory in self-refresh and lanes
idle; the monitors' lines and pin; memory whose clock was lost reads free values; the link. -/
def Obligations.PowerAndClocks : Prop :=
  ∀ (s : State) (who : Requester) (b : Bool) (ep : BitVec 16) (dp : BitVec 4) (gen : Fin 7) (width : Fin 32),
    let d := s.dev
    let c := d.ctl
    let same (i : Instr) : Prop := exec i s = .next s
    let leaves (i : Instr) (f : Dev) : Prop := exec i s = .next { s with dev := f }
    let moving := c.power = 1 ∨ c.power = 3
    let lost : Dev := { d with mem := [], memEra := d.memEra + 1 }
    (isPf who = false → same (.devCtrlDormantSet who) ∧ same (.devCtrlDormantClear who)) ∧
    (isPf who = true →
      (moving → leaves (.devCtrlDormantSet who) { d with ctl := { c with dormantReq := some true } } ∧ leaves (.devCtrlDormantClear who) { d with ctl := { c with dormantReq := some false } }) ∧
      ((c.power = 2 ∨ (c.power = 0 ∧ d.anyStarted = true)) → leaves (.devCtrlDormantSet who) { d with ctl := { c with dormantErr := true } }) ∧
      (c.power = 0 → d.anyStarted = false → Completes (.devCtrlDormantSet who) s fun f =>
        f.ctl = { c with power := 1, dormant := true } ∧ f.twin.lanesUp = [] ∧
        ∀ l g, d.group = [(l, g)] → g.stage ≠ .idle →
          f.groupAt l = { g with stage := .idle, passed := [], retryAt := none, down := false, idleAt := c.ticks, dormant := true, midway := g.stage != .active }) ∧
      (c.power = 0 → leaves (.devCtrlDormantClear who) { d with ctl := { c with dormant := false } }) ∧
      (c.power = 2 → Completes (.devCtrlDormantClear who) s fun f =>
        f.ctl = { c with power := 3, dormant := false } ∧ (∀ m, m < 12 → (d.mcAt m).st = 3 → (f.mcAt m).st = 2 ∧ (f.mcAt m).lastReq = c.ticks) ∧ f = { d with ctl := f.ctl, mc := f.mc })) ∧
    (c.power ≠ 1 → same .dormantEntered) ∧
    (c.power = 1 →
      (c.dormantReq = none → Completes .dormantEntered s fun f =>
        f.ctl = { c with power := 2 } ∧ (∀ m, m < 12 → ((d.mcAt m).st = 2 ∨ (d.mcAt m).st = 4) → (f.mcAt m).st = 3 ∧ (f.mcAt m).entries = min 65535 ((d.mcAt m).entries + 1)) ∧
        f.mem = d.mem ∧ f.flt = d.flt) ∧
      (c.dormantReq = some false → Completes .dormantEntered s fun f => f.ctl = { c with power := 3, dormant := false, dormantReq := none } ∧ f.mem = d.mem)) ∧
    (let ready := c.power = 3 ∧ 800 ≤ d.fab.setMv ∧ d.allFast = true;
      (¬ ready → same (.dormantLeft ep dp)) ∧
      (ready → c.dormantReq = none → (d.group = [] → ep = 0 → dp = 0 → leaves (.dormantLeft ep dp) { d with ctl := { c with power := 0 } }) ∧
        Completes (.dormantLeft ep dp) s fun f => f.ctl = { c with power := 0 } ∧ (ep ≠ 0 → d.flt.latched.get 0 31 = 0 → f.flt.status.getLsbD 31 = true) ∧
          (dp ≠ 0 → d.flt.latched.get 0 34 = 0 → f.flt.status.getLsbD 34 = true) ∧ ∀ k, k < 16 → ep.getLsbD k = true → (f.pipeAt k).uncorrected = true)) ∧
    (c.pwrOk = false → same (.pwrMon b) ∧ same .thermTrip) ∧
    (c.pwrOk = true →
      leaves (.pwrMon false) { d with flt := { d.flt with live := d.flt.live &&& ~~~(1#64 <<< 52) } } ∧
      (Completes (.pwrMon true) s fun f => f.flt.live.getLsbD 52 = true ∧ (d.flt.live.getLsbD 52 = false → d.flt.latched.get 0 52 = 0 → f.flt.status.getLsbD 52 = true)) ∧
      (d.flt.live.getLsbD 53 = true → same .thermTrip) ∧
      (d.flt.live.getLsbD 53 = false → Completes .thermTrip s fun f => f.flt.live.getLsbD 53 = true ∧ OutEv.pin "THERM_TRIP_N" false ∈ f.out)) ∧
    (c.pwrOk = false → leaves (.clkRef true) { lost with tb := { d.tb with refTb := false } } ∧ leaves (.clkRef false) { d with tb := { d.tb with refPcie := false } }) ∧
    (c.pwrOk = true →
      (Completes (.clkRef true) s fun f => f.flt.live.getLsbD 54 = true ∧ f.tb = { d.tb with refTb := false } ∧ f.mem = [] ∧ f.memEra = d.memEra + 1 ∧ ∀ a, f.memByte a = Config.lostByte (d.memEra + 1) a) ∧
      (Completes (.clkRef false) s fun f => f.flt.live.getLsbD 54 = true ∧ f.tb = { d.tb with refPcie := false } ∧ f.mem = d.mem)) ∧
    (d.tb.refTb = true → same .refclkTbReturn) ∧
    (d.tb.refTb = false → Completes .refclkTbReturn s fun f =>
      f.tb = { d.tb with refTb := true } ∧ f.memEra = d.memEra + 1 ∧ f.mem = [] ∧ f.flt.live.getLsbD 54 = (d.flt.live.getLsbD 54 && !d.tb.refPcie)) ∧
    (let trains := gen.val ≠ 0 ∧ (width.val = 1 ∨ width.val = 2 ∨ width.val = 4 ∨ width.val = 8 ∨ width.val = 16);
    ((c.pwrOk = false ∨ c.perstN = false ∨ ¬ trains) → same (.pcieLinkUp gen width b)) ∧
    (c.pwrOk = true → c.perstN = true → trains → Completes (.pcieLinkUp gen width b) s fun f =>
      f.hub = { d.hub with linkUp := true, gen := gen, width := if width.val = 2 then 1 else width, flit := b || gen.val == 6 } ∧ f.tb = { d.tb with refPcie := true } ∧ f.flt.live.getLsbD 3 = false ∧
      f.flt.live.getLsbD 54 = (d.flt.live.getLsbD 54 && !d.tb.refTb)))
end

