-- ==== Sys2Proof/Laws/Tab.lean ====
section
/-! SUPPORT. The laws of sparse tables: reading after writing, and the canonical form. -/

namespace Sys2Proof.Machine

variable {α : Type} {d v : α} {m : Tab α} {j k : Nat}

theorem Tab.get_erase_same (d : α) (m : Tab α) (k : Nat) : Tab.get d (Tab.erase m k) k = d := by
  induction m with
  | nil => rfl
  | cons p m ih => by_cases h : p.1 = k <;> simp [Tab.erase, Tab.get, h, ih]

theorem Tab.get_erase_other (d : α) (m : Tab α) (h : j ≠ k) : Tab.get d (Tab.erase m k) j = Tab.get d m j := by
  induction m with
  | nil => rfl
  | cons p m ih =>
    by_cases e : p.1 = k
    · simp [Tab.erase, Tab.get, e, ih, Ne.symm h]
    · by_cases g : p.1 = j <;> simp [Tab.erase, Tab.get, e, g, ih, h]

theorem Tab.not_mem_erase (m : Tab α) (k : Nat) : ∀ p ∈ Tab.erase m k, p.1 ≠ k := by
  induction m with
  | nil => simp [Tab.erase]
  | cons p m ih =>
    by_cases e : p.1 = k
    · simpa [Tab.erase, e] using ih
    · simpa [Tab.erase, e] using ih

theorem Tab.get_insert_same (d : α) (k : Nat) (v : α) (m : Tab α) (h : ∀ p ∈ m, p.1 ≠ k) : Tab.get d (Tab.insert k v m) k = v := by
  induction m with
  | nil => simp [Tab.insert, Tab.get]
  | cons p m ih =>
    have hp := h p (by simp)
    have hm := ih fun q hq => h q (by simp [hq])
    by_cases e : k < p.1 <;> simp [Tab.insert, Tab.get, e, hp, hm]

theorem Tab.get_insert_other (d : α) (v : α) (m : Tab α) (h : j ≠ k) : Tab.get d (Tab.insert k v m) j = Tab.get d m j := by
  induction m with
  | nil => simp [Tab.insert, Tab.get, Ne.symm h]
  | cons p m ih => by_cases e : k < p.1 <;> simp [Tab.insert, Tab.get, e, ih, Ne.symm h]

theorem Tab.mem_erase {p : Nat × α} (h : p ∈ Tab.erase m k) : p ∈ m := by
  induction m with
  | nil => simp [Tab.erase] at h
  | cons q m ih =>
    by_cases e : q.1 = k
    · simp [Tab.erase, e] at h; exact List.mem_cons_of_mem _ (ih h)
    · simp [Tab.erase, e] at h
      rcases h with rfl | h
      · simp
      · exact List.mem_cons_of_mem _ (ih h)

theorem Tab.mem_insert {p : Nat × α} (h : p ∈ Tab.insert k v m) : p = (k, v) ∨ p ∈ m := by
  induction m with
  | nil => simpa [Tab.insert] using h
  | cons q m ih =>
    by_cases e : k < q.1
    · simpa [Tab.insert, e] using h
    · simp only [Tab.insert, if_neg e, List.mem_cons] at h ⊢
      rcases h with rfl | h
      · simp
      · rcases ih h with h | h <;> simp [h]

theorem Tab.erase_sorted (h : List.Pairwise (fun a b => a.1 < b.1) m) : List.Pairwise (fun a b => a.1 < b.1) (Tab.erase m k) := by
  induction m with
  | nil => simp [Tab.erase]
  | cons p m ih =>
    rw [List.pairwise_cons] at h
    by_cases e : p.1 = k
    · simpa [Tab.erase, e] using ih h.2
    · simp only [Tab.erase, e, if_false, List.pairwise_cons]
      exact ⟨fun q hq => h.1 q (Tab.mem_erase hq), ih h.2⟩

theorem Tab.insert_sorted (h : List.Pairwise (fun a b => a.1 < b.1) m) (hk : ∀ p ∈ m, p.1 ≠ k) :
    List.Pairwise (fun a b => a.1 < b.1) (Tab.insert k v m) := by
  induction m with
  | nil => simp [Tab.insert]
  | cons p m ih =>
    have hp := hk p (by simp)
    have h' := List.pairwise_cons.mp h
    by_cases e : k < p.1
    · simp only [Tab.insert, e, if_true, List.pairwise_cons, List.mem_cons]
      refine ⟨?_, h'.1, h'.2⟩
      rintro q (rfl | hq)
      · exact e
      · exact Nat.lt_trans e (h'.1 q hq)
    · simp only [Tab.insert, e, if_false, List.pairwise_cons]
      refine ⟨?_, ih h'.2 fun q hq => hk q (by simp [hq])⟩
      intro q hq
      rcases Tab.mem_insert hq with rfl | hq
      · show p.1 < k; omega
      · exact h'.1 q hq

theorem Tab.erase_of_not_mem (h : ∀ p ∈ m, p.1 ≠ k) : Tab.erase m k = m := by
  induction m with
  | nil => rfl
  | cons p m ih => simp [Tab.erase, h p (by simp), ih fun q hq => h q (by simp [hq])]

theorem Tab.erase_insert (h : ∀ p ∈ m, p.1 ≠ k) : Tab.erase (Tab.insert k v m) k = m := by
  induction m with
  | nil => simp [Tab.insert, Tab.erase]
  | cons p m ih =>
    have hp := h p (by simp)
    have hm : ∀ q ∈ m, q.1 ≠ k := fun q hq => h q (by simp [hq])
    by_cases e : k < p.1
    · simp [Tab.insert, e, Tab.erase, hp, Tab.erase_of_not_mem hm]
    · simp [Tab.insert, e, Tab.erase, hp, ih hm]

variable [DecidableEq α]

/-- What a key reads as after it was written. -/
@[simp] theorem Tab.get_put_same (d : α) (m : Tab α) (k : Nat) (v : α) : Tab.get d (Tab.put d m k v) k = v := by
  unfold Tab.put
  split
  · next h => rw [Tab.get_erase_same, h]
  · exact Tab.get_insert_same d k v _ (Tab.not_mem_erase m k)

/-- Every other key reads as before. -/
theorem Tab.get_put_other (d : α) (m : Tab α) (v : α) (h : j ≠ k) : Tab.get d (Tab.put d m k v) j = Tab.get d m j := by
  unfold Tab.put
  split
  · exact Tab.get_erase_other d m h
  · rw [Tab.get_insert_other d v _ h, Tab.get_erase_other d m h]

/-- The last write of a key is the one that counts. -/
@[simp] theorem Tab.put_put (d : α) (m : Tab α) (k : Nat) (v w : α) : Tab.put d (Tab.put d m k v) k w = Tab.put d m k w := by
  have e : Tab.erase (Tab.put d m k v) k = Tab.erase m k := by
    unfold Tab.put
    split
    · exact Tab.erase_of_not_mem (Tab.not_mem_erase m k)
    · exact Tab.erase_insert (Tab.not_mem_erase m k)
  unfold Tab.put at e ⊢
  rw [e]

/-- Writing keeps the canonical form. -/
theorem Tab.wf_put (h : Tab.wf d m) (k : Nat) (v : α) : Tab.wf d (Tab.put d m k v) := by
  unfold Tab.put
  split
  · exact ⟨Tab.erase_sorted h.1, fun p hp => h.2 p (Tab.mem_erase hp)⟩
  · next hv =>
    refine ⟨Tab.insert_sorted (Tab.erase_sorted h.1) (Tab.not_mem_erase m k), fun p hp => ?_⟩
    rcases Tab.mem_insert hp with rfl | hp
    · exact hv
    · exact h.2 p (Tab.mem_erase hp)

theorem Tab.wf_nil (d : α) : Tab.wf d ([] : Tab α) := ⟨List.Pairwise.nil, by simp⟩

/-- Leaving entries out keeps the canonical form. -/
theorem Tab.wf_filter (h : Tab.wf d m) (f : Nat × α → Bool) : Tab.wf d (m.filter f : Tab α) :=
  ⟨h.1.sublist List.filter_sublist, fun p hp => h.2 p (List.mem_filter.mp hp).1⟩

/-- Writing what a foldl names keeps the canonical form. -/
theorem Tab.wf_foldl_put {β : Type} (key : β → Nat) (val : β → α) (l : List β) :
    ∀ m : Tab α, Tab.wf d m → Tab.wf d (l.foldl (fun t b => Tab.put d t (key b) (val b)) m) := by
  induction l with
  | nil => exact fun _ h => h
  | cons b l ih => exact fun m h => ih _ (Tab.wf_put h _ _)

end Sys2Proof.Machine
end

