-- ==== Sys2Proof/Laws/Bytes.lean ====
section
/-! SUPPORT. The laws of byte memories: what a write of bytes leaves, and that it keeps the canonical form. -/

namespace Sys2Proof.Machine

/-- A byte outside the range reads as before. -/
theorem writeBytes_other (bs : List Byte) : ∀ (m : Tab Byte) (a j : Nat), j < a ∨ a + bs.length ≤ j → Tab.get 0 (writeBytes m a bs) j = Tab.get 0 m j := by
  induction bs with
  | nil => intros; rfl
  | cons b bs ih =>
    intro m a j h
    simp only [List.length_cons] at h
    rw [writeBytes, ih _ _ _ (by omega), Tab.get_put_other _ _ _ (by omega)]

/-- A byte inside the range reads as what was written. -/
theorem writeBytes_inside (bs : List Byte) : ∀ (m : Tab Byte) (a i : Nat) (h : i < bs.length), Tab.get 0 (writeBytes m a bs) (a + i) = bs[i] := by
  induction bs with
  | nil => intro m a i h; simp at h
  | cons b bs ih =>
    intro m a i h
    cases i with
    | zero => rw [writeBytes, writeBytes_other _ _ _ _ (by omega)]; exact Tab.get_put_same _ _ _ _
    | succ i =>
      rw [writeBytes, show a + (i + 1) = a + 1 + i by omega]
      exact ih _ _ _ (by simpa using h)

theorem writeBytes_wf (bs : List Byte) : ∀ (m : Tab Byte) (a : Nat), Tab.wf 0 m → Tab.wf 0 (writeBytes m a bs) := by
  induction bs with
  | nil => exact fun _ _ h => h
  | cons b bs ih => exact fun m a h => ih _ _ (Tab.wf_put h _ _)

@[simp] theorem readBytes_length (m : Tab Byte) (n : Nat) : ∀ a, (readBytes m a n).length = n := by
  induction n with
  | zero => exact fun _ => rfl
  | succ n ih => exact fun a => by simp [readBytes, ih]

@[simp] theorem toLE_length (n : Nat) : ∀ v, (toLE n v).length = n := by
  induction n with
  | zero => exact fun _ => rfl
  | succ n ih => exact fun v => by simp [toLE, ih]

/-- Little-endian bytes spell the number that they were made of. -/
theorem leNat_toLE (n : Nat) : ∀ v, leNat (toLE n v) = v % 256 ^ n := by
  induction n with
  | zero => intro v; simp [toLE, leNat, Nat.mod_one]
  | succ n ih =>
    intro v
    simp only [toLE, leNat, ih, BitVec.toNat_ofNat]
    have e : 256 ^ (n + 1) = 256 * 256 ^ n := by rw [Nat.pow_succ, Nat.mul_comm]
    rw [e, Nat.mod_mul]

theorem toLE_get (n : Nat) : ∀ (v i : Nat) (h : i < n), (toLE n v)[i]'(by simpa using h) = BitVec.ofNat 8 (v / 256 ^ i) := by
  induction n with
  | zero => intro v i h; omega
  | succ n ih =>
    intro v i h
    cases i with
    | zero => simp [toLE]
    | succ i => simp only [toLE, List.getElem_cons_succ, ih _ i (by omega), Nat.div_div_eq_div_mul, Nat.pow_succ, Nat.mul_comm]

/-- Bytes read one by one. -/
theorem readBytes_eq (m : Tab Byte) (n : Nat) : ∀ a, readBytes m a n = (List.range n).map fun i => Tab.get 0 m (a + i) := by
  induction n with
  | zero => exact fun _ => rfl
  | succ n ih =>
    intro a
    rw [readBytes, ih, List.range_succ_eq_map, List.map_cons, List.map_map]
    congr 1
    apply List.map_congr_left
    intro i _
    show _ = Tab.get 0 m (a + (i + 1))
    congr 1
    omega

end Sys2Proof.Machine
end

