-- ==== Sys2Proof/Laws/State.lean ====
section
/-! SUPPORT. Replacing one object of a table of the device: it reads as what was put, its neighbours and every other field as before. -/

namespace Sys2Proof.Machine

@[simp] theorem Dev.putRing_frame (d : Dev) (k : Nat) (x : Ring) :
    (d.putRing k x).ctl = d.ctl ∧ (d.putRing k x).tb = d.tb ∧ (d.putRing k x).flt = d.flt ∧ (d.putRing k x).hub = d.hub ∧ (d.putRing k x).dsp = d.dsp ∧
    (d.putRing k x).thr = d.thr ∧ (d.putRing k x).loc = d.loc ∧ (d.putRing k x).locErr = d.locErr ∧ (d.putRing k x).spillErr = d.spillErr ∧ (d.putRing k x).win = d.win ∧
    (d.putRing k x).unitQ = d.unitQ ∧ (d.putRing k x).pend = d.pend ∧ (d.putRing k x).fab = d.fab ∧ (d.putRing k x).cap = d.cap ∧ (d.putRing k x).capSel = d.capSel ∧
    (d.putRing k x).scene = d.scene ∧ (d.putRing k x).layer = d.layer ∧ (d.putRing k x).cluster = d.cluster ∧ (d.putRing k x).blit = d.blit ∧
    (d.putRing k x).chan = d.chan ∧ (d.putRing k x).pipe = d.pipe ∧ (d.putRing k x).dec = d.dec ∧ (d.putRing k x).decPipe = d.decPipe ∧
    (d.putRing k x).decSel = d.decSel ∧ (d.putRing k x).twin = d.twin ∧ (d.putRing k x).flow = d.flow ∧ (d.putRing k x).pkgSel = d.pkgSel ∧
    (d.putRing k x).tmIn = d.tmIn ∧ (d.putRing k x).queue = d.queue ∧ (d.putRing k x).port = d.port ∧ (d.putRing k x).pol = d.pol ∧ (d.putRing k x).portSel = d.portSel ∧
    (d.putRing k x).qSel = d.qSel ∧ (d.putRing k x).polSel = d.polSel ∧ (d.putRing k x).group = d.group ∧ (d.putRing k x).lane = d.lane ∧ (d.putRing k x).casc = d.casc ∧
    (d.putRing k x).mc = d.mc ∧ (d.putRing k x).chk = d.chk ∧ (d.putRing k x).chkMode = d.chkMode ∧ (d.putRing k x).chkSel = d.chkSel ∧ (d.putRing k x).trust = d.trust ∧
    (d.putRing k x).prl = d.prl ∧ (d.putRing k x).mem = d.mem ∧ (d.putRing k x).memEra = d.memEra ∧ (d.putRing k x).poison = d.poison ∧ (d.putRing k x).out = d.out ∧
    (d.putRing k x).waiting = d.waiting ∧ (d.putRing k x).absent = d.absent ∧ (d.putRing k x).freeCtr = d.freeCtr := by
  refine ⟨?_, ?_, ?_, ?_, ?_, ?_, ?_, ?_, ?_, ?_, ?_, ?_, ?_, ?_, ?_, ?_, ?_, ?_, ?_, ?_, ?_, ?_, ?_, ?_, ?_, ?_, ?_, ?_, ?_, ?_, ?_, ?_, ?_, ?_, ?_, ?_, ?_, ?_, ?_, ?_, ?_, ?_, ?_, ?_, ?_, ?_, ?_, ?_, ?_, ?_⟩ <;> rfl
@[simp] theorem Dev.ring_putRing (d : Dev) (k : Nat) (x : Ring) : (d.putRing k x).ring k = x := Tab.get_put_same _ _ _ _
theorem Dev.ring_putRing_other (d : Dev) (x : Ring) {j k : Nat} (h : j ≠ k) : (d.putRing k x).ring j = d.ring j := Tab.get_put_other _ _ _ h
@[simp] theorem Dev.putRing_putRing (d : Dev) (k : Nat) (x y : Ring) : (d.putRing k x).putRing k y = d.putRing k y := by simp [Dev.putRing]
@[simp] theorem Dev.modRing_eq (d : Dev) (k : Nat) (f : Ring → Ring) : d.modRing k f = d.putRing k (f (d.ring k)) := rfl

@[simp] theorem Dev.putThread_frame (d : Dev) (k : Nat) (x : Thread) :
    (d.putThread k x).ctl = d.ctl ∧ (d.putThread k x).tb = d.tb ∧ (d.putThread k x).flt = d.flt ∧ (d.putThread k x).hub = d.hub ∧ (d.putThread k x).rings = d.rings ∧
    (d.putThread k x).dsp = d.dsp ∧ (d.putThread k x).loc = d.loc ∧ (d.putThread k x).locErr = d.locErr ∧ (d.putThread k x).spillErr = d.spillErr ∧
    (d.putThread k x).win = d.win ∧ (d.putThread k x).unitQ = d.unitQ ∧ (d.putThread k x).pend = d.pend ∧ (d.putThread k x).fab = d.fab ∧ (d.putThread k x).cap = d.cap ∧
    (d.putThread k x).capSel = d.capSel ∧ (d.putThread k x).scene = d.scene ∧ (d.putThread k x).layer = d.layer ∧ (d.putThread k x).cluster = d.cluster ∧
    (d.putThread k x).blit = d.blit ∧ (d.putThread k x).chan = d.chan ∧ (d.putThread k x).pipe = d.pipe ∧ (d.putThread k x).dec = d.dec ∧
    (d.putThread k x).decPipe = d.decPipe ∧ (d.putThread k x).decSel = d.decSel ∧ (d.putThread k x).twin = d.twin ∧ (d.putThread k x).flow = d.flow ∧
    (d.putThread k x).pkgSel = d.pkgSel ∧ (d.putThread k x).tmIn = d.tmIn ∧ (d.putThread k x).queue = d.queue ∧ (d.putThread k x).port = d.port ∧
    (d.putThread k x).pol = d.pol ∧ (d.putThread k x).portSel = d.portSel ∧ (d.putThread k x).qSel = d.qSel ∧ (d.putThread k x).polSel = d.polSel ∧
    (d.putThread k x).group = d.group ∧ (d.putThread k x).lane = d.lane ∧ (d.putThread k x).casc = d.casc ∧ (d.putThread k x).mc = d.mc ∧ (d.putThread k x).chk = d.chk ∧
    (d.putThread k x).chkMode = d.chkMode ∧ (d.putThread k x).chkSel = d.chkSel ∧ (d.putThread k x).trust = d.trust ∧ (d.putThread k x).prl = d.prl ∧
    (d.putThread k x).mem = d.mem ∧ (d.putThread k x).memEra = d.memEra ∧ (d.putThread k x).poison = d.poison ∧ (d.putThread k x).out = d.out ∧
    (d.putThread k x).waiting = d.waiting ∧ (d.putThread k x).absent = d.absent ∧ (d.putThread k x).freeCtr = d.freeCtr := by
  refine ⟨?_, ?_, ?_, ?_, ?_, ?_, ?_, ?_, ?_, ?_, ?_, ?_, ?_, ?_, ?_, ?_, ?_, ?_, ?_, ?_, ?_, ?_, ?_, ?_, ?_, ?_, ?_, ?_, ?_, ?_, ?_, ?_, ?_, ?_, ?_, ?_, ?_, ?_, ?_, ?_, ?_, ?_, ?_, ?_, ?_, ?_, ?_, ?_, ?_, ?_⟩ <;> rfl
@[simp] theorem Dev.thread_putThread (d : Dev) (k : Nat) (x : Thread) : (d.putThread k x).thread k = x := Tab.get_put_same _ _ _ _
theorem Dev.thread_putThread_other (d : Dev) (x : Thread) {j k : Nat} (h : j ≠ k) : (d.putThread k x).thread j = d.thread j := Tab.get_put_other _ _ _ h
@[simp] theorem Dev.putThread_putThread (d : Dev) (k : Nat) (x y : Thread) : (d.putThread k x).putThread k y = d.putThread k y := by simp [Dev.putThread]
@[simp] theorem Dev.modThread_eq (d : Dev) (k : Nat) (f : Thread → Thread) : d.modThread k f = d.putThread k (f (d.thread k)) := rfl

@[simp] theorem Dev.putWindow_frame (d : Dev) (k : Nat) (x : Window) :
    (d.putWindow k x).ctl = d.ctl ∧ (d.putWindow k x).tb = d.tb ∧ (d.putWindow k x).flt = d.flt ∧ (d.putWindow k x).hub = d.hub ∧ (d.putWindow k x).rings = d.rings ∧
    (d.putWindow k x).dsp = d.dsp ∧ (d.putWindow k x).thr = d.thr ∧ (d.putWindow k x).loc = d.loc ∧ (d.putWindow k x).locErr = d.locErr ∧
    (d.putWindow k x).spillErr = d.spillErr ∧ (d.putWindow k x).unitQ = d.unitQ ∧ (d.putWindow k x).pend = d.pend ∧ (d.putWindow k x).fab = d.fab ∧
    (d.putWindow k x).cap = d.cap ∧ (d.putWindow k x).capSel = d.capSel ∧ (d.putWindow k x).scene = d.scene ∧ (d.putWindow k x).layer = d.layer ∧
    (d.putWindow k x).cluster = d.cluster ∧ (d.putWindow k x).blit = d.blit ∧ (d.putWindow k x).chan = d.chan ∧ (d.putWindow k x).pipe = d.pipe ∧
    (d.putWindow k x).dec = d.dec ∧ (d.putWindow k x).decPipe = d.decPipe ∧ (d.putWindow k x).decSel = d.decSel ∧ (d.putWindow k x).twin = d.twin ∧
    (d.putWindow k x).flow = d.flow ∧ (d.putWindow k x).pkgSel = d.pkgSel ∧ (d.putWindow k x).tmIn = d.tmIn ∧ (d.putWindow k x).queue = d.queue ∧
    (d.putWindow k x).port = d.port ∧ (d.putWindow k x).pol = d.pol ∧ (d.putWindow k x).portSel = d.portSel ∧ (d.putWindow k x).qSel = d.qSel ∧
    (d.putWindow k x).polSel = d.polSel ∧ (d.putWindow k x).group = d.group ∧ (d.putWindow k x).lane = d.lane ∧ (d.putWindow k x).casc = d.casc ∧
    (d.putWindow k x).mc = d.mc ∧ (d.putWindow k x).chk = d.chk ∧ (d.putWindow k x).chkMode = d.chkMode ∧ (d.putWindow k x).chkSel = d.chkSel ∧
    (d.putWindow k x).trust = d.trust ∧ (d.putWindow k x).prl = d.prl ∧ (d.putWindow k x).mem = d.mem ∧ (d.putWindow k x).memEra = d.memEra ∧
    (d.putWindow k x).poison = d.poison ∧ (d.putWindow k x).out = d.out ∧ (d.putWindow k x).waiting = d.waiting ∧ (d.putWindow k x).absent = d.absent ∧
    (d.putWindow k x).freeCtr = d.freeCtr := by
  refine ⟨?_, ?_, ?_, ?_, ?_, ?_, ?_, ?_, ?_, ?_, ?_, ?_, ?_, ?_, ?_, ?_, ?_, ?_, ?_, ?_, ?_, ?_, ?_, ?_, ?_, ?_, ?_, ?_, ?_, ?_, ?_, ?_, ?_, ?_, ?_, ?_, ?_, ?_, ?_, ?_, ?_, ?_, ?_, ?_, ?_, ?_, ?_, ?_, ?_, ?_⟩ <;> rfl
@[simp] theorem Dev.window_putWindow (d : Dev) (k : Nat) (x : Window) : (d.putWindow k x).window k = x := Tab.get_put_same _ _ _ _
theorem Dev.window_putWindow_other (d : Dev) (x : Window) {j k : Nat} (h : j ≠ k) : (d.putWindow k x).window j = d.window j := Tab.get_put_other _ _ _ h
@[simp] theorem Dev.putWindow_putWindow (d : Dev) (k : Nat) (x y : Window) : (d.putWindow k x).putWindow k y = d.putWindow k y := by simp [Dev.putWindow]
@[simp] theorem Dev.modWindow_eq (d : Dev) (k : Nat) (f : Window → Window) : d.modWindow k f = d.putWindow k (f (d.window k)) := rfl

@[simp] theorem Dev.putCapIn_frame (d : Dev) (k : Nat) (x : Cap) :
    (d.putCapIn k x).ctl = d.ctl ∧ (d.putCapIn k x).tb = d.tb ∧ (d.putCapIn k x).flt = d.flt ∧ (d.putCapIn k x).hub = d.hub ∧ (d.putCapIn k x).rings = d.rings ∧
    (d.putCapIn k x).dsp = d.dsp ∧ (d.putCapIn k x).thr = d.thr ∧ (d.putCapIn k x).loc = d.loc ∧ (d.putCapIn k x).locErr = d.locErr ∧
    (d.putCapIn k x).spillErr = d.spillErr ∧ (d.putCapIn k x).win = d.win ∧ (d.putCapIn k x).unitQ = d.unitQ ∧ (d.putCapIn k x).pend = d.pend ∧
    (d.putCapIn k x).fab = d.fab ∧ (d.putCapIn k x).capSel = d.capSel ∧ (d.putCapIn k x).scene = d.scene ∧ (d.putCapIn k x).layer = d.layer ∧
    (d.putCapIn k x).cluster = d.cluster ∧ (d.putCapIn k x).blit = d.blit ∧ (d.putCapIn k x).chan = d.chan ∧ (d.putCapIn k x).pipe = d.pipe ∧
    (d.putCapIn k x).dec = d.dec ∧ (d.putCapIn k x).decPipe = d.decPipe ∧ (d.putCapIn k x).decSel = d.decSel ∧ (d.putCapIn k x).twin = d.twin ∧
    (d.putCapIn k x).flow = d.flow ∧ (d.putCapIn k x).pkgSel = d.pkgSel ∧ (d.putCapIn k x).tmIn = d.tmIn ∧ (d.putCapIn k x).queue = d.queue ∧
    (d.putCapIn k x).port = d.port ∧ (d.putCapIn k x).pol = d.pol ∧ (d.putCapIn k x).portSel = d.portSel ∧ (d.putCapIn k x).qSel = d.qSel ∧
    (d.putCapIn k x).polSel = d.polSel ∧ (d.putCapIn k x).group = d.group ∧ (d.putCapIn k x).lane = d.lane ∧ (d.putCapIn k x).casc = d.casc ∧
    (d.putCapIn k x).mc = d.mc ∧ (d.putCapIn k x).chk = d.chk ∧ (d.putCapIn k x).chkMode = d.chkMode ∧ (d.putCapIn k x).chkSel = d.chkSel ∧
    (d.putCapIn k x).trust = d.trust ∧ (d.putCapIn k x).prl = d.prl ∧ (d.putCapIn k x).mem = d.mem ∧ (d.putCapIn k x).memEra = d.memEra ∧
    (d.putCapIn k x).poison = d.poison ∧ (d.putCapIn k x).out = d.out ∧ (d.putCapIn k x).waiting = d.waiting ∧ (d.putCapIn k x).absent = d.absent ∧
    (d.putCapIn k x).freeCtr = d.freeCtr := by
  refine ⟨?_, ?_, ?_, ?_, ?_, ?_, ?_, ?_, ?_, ?_, ?_, ?_, ?_, ?_, ?_, ?_, ?_, ?_, ?_, ?_, ?_, ?_, ?_, ?_, ?_, ?_, ?_, ?_, ?_, ?_, ?_, ?_, ?_, ?_, ?_, ?_, ?_, ?_, ?_, ?_, ?_, ?_, ?_, ?_, ?_, ?_, ?_, ?_, ?_, ?_⟩ <;> rfl
@[simp] theorem Dev.capIn_putCapIn (d : Dev) (k : Nat) (x : Cap) : (d.putCapIn k x).capIn k = x := Tab.get_put_same _ _ _ _
theorem Dev.capIn_putCapIn_other (d : Dev) (x : Cap) {j k : Nat} (h : j ≠ k) : (d.putCapIn k x).capIn j = d.capIn j := Tab.get_put_other _ _ _ h
@[simp] theorem Dev.putCapIn_putCapIn (d : Dev) (k : Nat) (x y : Cap) : (d.putCapIn k x).putCapIn k y = d.putCapIn k y := by simp [Dev.putCapIn]
@[simp] theorem Dev.modCapIn_eq (d : Dev) (k : Nat) (f : Cap → Cap) : d.modCapIn k f = d.putCapIn k (f (d.capIn k)) := rfl

@[simp] theorem Dev.putSceneAt_frame (d : Dev) (k : Nat) (x : Scene) :
    (d.putSceneAt k x).ctl = d.ctl ∧ (d.putSceneAt k x).tb = d.tb ∧ (d.putSceneAt k x).flt = d.flt ∧ (d.putSceneAt k x).hub = d.hub ∧
    (d.putSceneAt k x).rings = d.rings ∧ (d.putSceneAt k x).dsp = d.dsp ∧ (d.putSceneAt k x).thr = d.thr ∧ (d.putSceneAt k x).loc = d.loc ∧
    (d.putSceneAt k x).locErr = d.locErr ∧ (d.putSceneAt k x).spillErr = d.spillErr ∧ (d.putSceneAt k x).win = d.win ∧ (d.putSceneAt k x).unitQ = d.unitQ ∧
    (d.putSceneAt k x).pend = d.pend ∧ (d.putSceneAt k x).fab = d.fab ∧ (d.putSceneAt k x).cap = d.cap ∧ (d.putSceneAt k x).capSel = d.capSel ∧
    (d.putSceneAt k x).layer = d.layer ∧ (d.putSceneAt k x).cluster = d.cluster ∧ (d.putSceneAt k x).blit = d.blit ∧ (d.putSceneAt k x).chan = d.chan ∧
    (d.putSceneAt k x).pipe = d.pipe ∧ (d.putSceneAt k x).dec = d.dec ∧ (d.putSceneAt k x).decPipe = d.decPipe ∧ (d.putSceneAt k x).decSel = d.decSel ∧
    (d.putSceneAt k x).twin = d.twin ∧ (d.putSceneAt k x).flow = d.flow ∧ (d.putSceneAt k x).pkgSel = d.pkgSel ∧ (d.putSceneAt k x).tmIn = d.tmIn ∧
    (d.putSceneAt k x).queue = d.queue ∧ (d.putSceneAt k x).port = d.port ∧ (d.putSceneAt k x).pol = d.pol ∧ (d.putSceneAt k x).portSel = d.portSel ∧
    (d.putSceneAt k x).qSel = d.qSel ∧ (d.putSceneAt k x).polSel = d.polSel ∧ (d.putSceneAt k x).group = d.group ∧ (d.putSceneAt k x).lane = d.lane ∧
    (d.putSceneAt k x).casc = d.casc ∧ (d.putSceneAt k x).mc = d.mc ∧ (d.putSceneAt k x).chk = d.chk ∧ (d.putSceneAt k x).chkMode = d.chkMode ∧
    (d.putSceneAt k x).chkSel = d.chkSel ∧ (d.putSceneAt k x).trust = d.trust ∧ (d.putSceneAt k x).prl = d.prl ∧ (d.putSceneAt k x).mem = d.mem ∧
    (d.putSceneAt k x).memEra = d.memEra ∧ (d.putSceneAt k x).poison = d.poison ∧ (d.putSceneAt k x).out = d.out ∧ (d.putSceneAt k x).waiting = d.waiting ∧
    (d.putSceneAt k x).absent = d.absent ∧ (d.putSceneAt k x).freeCtr = d.freeCtr := by
  refine ⟨?_, ?_, ?_, ?_, ?_, ?_, ?_, ?_, ?_, ?_, ?_, ?_, ?_, ?_, ?_, ?_, ?_, ?_, ?_, ?_, ?_, ?_, ?_, ?_, ?_, ?_, ?_, ?_, ?_, ?_, ?_, ?_, ?_, ?_, ?_, ?_, ?_, ?_, ?_, ?_, ?_, ?_, ?_, ?_, ?_, ?_, ?_, ?_, ?_, ?_⟩ <;> rfl
@[simp] theorem Dev.sceneAt_putSceneAt (d : Dev) (k : Nat) (x : Scene) : (d.putSceneAt k x).sceneAt k = x := Tab.get_put_same _ _ _ _
theorem Dev.sceneAt_putSceneAt_other (d : Dev) (x : Scene) {j k : Nat} (h : j ≠ k) : (d.putSceneAt k x).sceneAt j = d.sceneAt j := Tab.get_put_other _ _ _ h
@[simp] theorem Dev.putSceneAt_putSceneAt (d : Dev) (k : Nat) (x y : Scene) : (d.putSceneAt k x).putSceneAt k y = d.putSceneAt k y := by simp [Dev.putSceneAt]
@[simp] theorem Dev.modSceneAt_eq (d : Dev) (k : Nat) (f : Scene → Scene) : d.modSceneAt k f = d.putSceneAt k (f (d.sceneAt k)) := rfl

@[simp] theorem Dev.putLayerAt_frame (d : Dev) (k : Nat) (x : Layer) :
    (d.putLayerAt k x).ctl = d.ctl ∧ (d.putLayerAt k x).tb = d.tb ∧ (d.putLayerAt k x).flt = d.flt ∧ (d.putLayerAt k x).hub = d.hub ∧
    (d.putLayerAt k x).rings = d.rings ∧ (d.putLayerAt k x).dsp = d.dsp ∧ (d.putLayerAt k x).thr = d.thr ∧ (d.putLayerAt k x).loc = d.loc ∧
    (d.putLayerAt k x).locErr = d.locErr ∧ (d.putLayerAt k x).spillErr = d.spillErr ∧ (d.putLayerAt k x).win = d.win ∧ (d.putLayerAt k x).unitQ = d.unitQ ∧
    (d.putLayerAt k x).pend = d.pend ∧ (d.putLayerAt k x).fab = d.fab ∧ (d.putLayerAt k x).cap = d.cap ∧ (d.putLayerAt k x).capSel = d.capSel ∧
    (d.putLayerAt k x).scene = d.scene ∧ (d.putLayerAt k x).cluster = d.cluster ∧ (d.putLayerAt k x).blit = d.blit ∧ (d.putLayerAt k x).chan = d.chan ∧
    (d.putLayerAt k x).pipe = d.pipe ∧ (d.putLayerAt k x).dec = d.dec ∧ (d.putLayerAt k x).decPipe = d.decPipe ∧ (d.putLayerAt k x).decSel = d.decSel ∧
    (d.putLayerAt k x).twin = d.twin ∧ (d.putLayerAt k x).flow = d.flow ∧ (d.putLayerAt k x).pkgSel = d.pkgSel ∧ (d.putLayerAt k x).tmIn = d.tmIn ∧
    (d.putLayerAt k x).queue = d.queue ∧ (d.putLayerAt k x).port = d.port ∧ (d.putLayerAt k x).pol = d.pol ∧ (d.putLayerAt k x).portSel = d.portSel ∧
    (d.putLayerAt k x).qSel = d.qSel ∧ (d.putLayerAt k x).polSel = d.polSel ∧ (d.putLayerAt k x).group = d.group ∧ (d.putLayerAt k x).lane = d.lane ∧
    (d.putLayerAt k x).casc = d.casc ∧ (d.putLayerAt k x).mc = d.mc ∧ (d.putLayerAt k x).chk = d.chk ∧ (d.putLayerAt k x).chkMode = d.chkMode ∧
    (d.putLayerAt k x).chkSel = d.chkSel ∧ (d.putLayerAt k x).trust = d.trust ∧ (d.putLayerAt k x).prl = d.prl ∧ (d.putLayerAt k x).mem = d.mem ∧
    (d.putLayerAt k x).memEra = d.memEra ∧ (d.putLayerAt k x).poison = d.poison ∧ (d.putLayerAt k x).out = d.out ∧ (d.putLayerAt k x).waiting = d.waiting ∧
    (d.putLayerAt k x).absent = d.absent ∧ (d.putLayerAt k x).freeCtr = d.freeCtr := by
  refine ⟨?_, ?_, ?_, ?_, ?_, ?_, ?_, ?_, ?_, ?_, ?_, ?_, ?_, ?_, ?_, ?_, ?_, ?_, ?_, ?_, ?_, ?_, ?_, ?_, ?_, ?_, ?_, ?_, ?_, ?_, ?_, ?_, ?_, ?_, ?_, ?_, ?_, ?_, ?_, ?_, ?_, ?_, ?_, ?_, ?_, ?_, ?_, ?_, ?_, ?_⟩ <;> rfl
@[simp] theorem Dev.layerAt_putLayerAt (d : Dev) (k : Nat) (x : Layer) : (d.putLayerAt k x).layerAt k = x := Tab.get_put_same _ _ _ _
theorem Dev.layerAt_putLayerAt_other (d : Dev) (x : Layer) {j k : Nat} (h : j ≠ k) : (d.putLayerAt k x).layerAt j = d.layerAt j := Tab.get_put_other _ _ _ h
@[simp] theorem Dev.putLayerAt_putLayerAt (d : Dev) (k : Nat) (x y : Layer) : (d.putLayerAt k x).putLayerAt k y = d.putLayerAt k y := by simp [Dev.putLayerAt]
@[simp] theorem Dev.modLayerAt_eq (d : Dev) (k : Nat) (f : Layer → Layer) : d.modLayerAt k f = d.putLayerAt k (f (d.layerAt k)) := rfl

@[simp] theorem Dev.putClusterAt_frame (d : Dev) (k : Nat) (x : Cluster) :
    (d.putClusterAt k x).ctl = d.ctl ∧ (d.putClusterAt k x).tb = d.tb ∧ (d.putClusterAt k x).flt = d.flt ∧ (d.putClusterAt k x).hub = d.hub ∧
    (d.putClusterAt k x).rings = d.rings ∧ (d.putClusterAt k x).dsp = d.dsp ∧ (d.putClusterAt k x).thr = d.thr ∧ (d.putClusterAt k x).loc = d.loc ∧
    (d.putClusterAt k x).locErr = d.locErr ∧ (d.putClusterAt k x).spillErr = d.spillErr ∧ (d.putClusterAt k x).win = d.win ∧ (d.putClusterAt k x).unitQ = d.unitQ ∧
    (d.putClusterAt k x).pend = d.pend ∧ (d.putClusterAt k x).fab = d.fab ∧ (d.putClusterAt k x).cap = d.cap ∧ (d.putClusterAt k x).capSel = d.capSel ∧
    (d.putClusterAt k x).scene = d.scene ∧ (d.putClusterAt k x).layer = d.layer ∧ (d.putClusterAt k x).blit = d.blit ∧ (d.putClusterAt k x).chan = d.chan ∧
    (d.putClusterAt k x).pipe = d.pipe ∧ (d.putClusterAt k x).dec = d.dec ∧ (d.putClusterAt k x).decPipe = d.decPipe ∧ (d.putClusterAt k x).decSel = d.decSel ∧
    (d.putClusterAt k x).twin = d.twin ∧ (d.putClusterAt k x).flow = d.flow ∧ (d.putClusterAt k x).pkgSel = d.pkgSel ∧ (d.putClusterAt k x).tmIn = d.tmIn ∧
    (d.putClusterAt k x).queue = d.queue ∧ (d.putClusterAt k x).port = d.port ∧ (d.putClusterAt k x).pol = d.pol ∧ (d.putClusterAt k x).portSel = d.portSel ∧
    (d.putClusterAt k x).qSel = d.qSel ∧ (d.putClusterAt k x).polSel = d.polSel ∧ (d.putClusterAt k x).group = d.group ∧ (d.putClusterAt k x).lane = d.lane ∧
    (d.putClusterAt k x).casc = d.casc ∧ (d.putClusterAt k x).mc = d.mc ∧ (d.putClusterAt k x).chk = d.chk ∧ (d.putClusterAt k x).chkMode = d.chkMode ∧
    (d.putClusterAt k x).chkSel = d.chkSel ∧ (d.putClusterAt k x).trust = d.trust ∧ (d.putClusterAt k x).prl = d.prl ∧ (d.putClusterAt k x).mem = d.mem ∧
    (d.putClusterAt k x).memEra = d.memEra ∧ (d.putClusterAt k x).poison = d.poison ∧ (d.putClusterAt k x).out = d.out ∧ (d.putClusterAt k x).waiting = d.waiting ∧
    (d.putClusterAt k x).absent = d.absent ∧ (d.putClusterAt k x).freeCtr = d.freeCtr := by
  refine ⟨?_, ?_, ?_, ?_, ?_, ?_, ?_, ?_, ?_, ?_, ?_, ?_, ?_, ?_, ?_, ?_, ?_, ?_, ?_, ?_, ?_, ?_, ?_, ?_, ?_, ?_, ?_, ?_, ?_, ?_, ?_, ?_, ?_, ?_, ?_, ?_, ?_, ?_, ?_, ?_, ?_, ?_, ?_, ?_, ?_, ?_, ?_, ?_, ?_, ?_⟩ <;> rfl
@[simp] theorem Dev.clusterAt_putClusterAt (d : Dev) (k : Nat) (x : Cluster) : (d.putClusterAt k x).clusterAt k = x := Tab.get_put_same _ _ _ _
theorem Dev.clusterAt_putClusterAt_other (d : Dev) (x : Cluster) {j k : Nat} (h : j ≠ k) : (d.putClusterAt k x).clusterAt j = d.clusterAt j := Tab.get_put_other _ _ _ h
@[simp] theorem Dev.putClusterAt_putClusterAt (d : Dev) (k : Nat) (x y : Cluster) : (d.putClusterAt k x).putClusterAt k y = d.putClusterAt k y := by simp [Dev.putClusterAt]
@[simp] theorem Dev.modClusterAt_eq (d : Dev) (k : Nat) (f : Cluster → Cluster) : d.modClusterAt k f = d.putClusterAt k (f (d.clusterAt k)) := rfl

@[simp] theorem Dev.putEngine_frame (d : Dev) (k : Nat) (x : Blit) :
    (d.putEngine k x).ctl = d.ctl ∧ (d.putEngine k x).tb = d.tb ∧ (d.putEngine k x).flt = d.flt ∧ (d.putEngine k x).hub = d.hub ∧ (d.putEngine k x).rings = d.rings ∧
    (d.putEngine k x).dsp = d.dsp ∧ (d.putEngine k x).thr = d.thr ∧ (d.putEngine k x).loc = d.loc ∧ (d.putEngine k x).locErr = d.locErr ∧
    (d.putEngine k x).spillErr = d.spillErr ∧ (d.putEngine k x).win = d.win ∧ (d.putEngine k x).unitQ = d.unitQ ∧ (d.putEngine k x).pend = d.pend ∧
    (d.putEngine k x).fab = d.fab ∧ (d.putEngine k x).cap = d.cap ∧ (d.putEngine k x).capSel = d.capSel ∧ (d.putEngine k x).scene = d.scene ∧
    (d.putEngine k x).layer = d.layer ∧ (d.putEngine k x).cluster = d.cluster ∧ (d.putEngine k x).chan = d.chan ∧ (d.putEngine k x).pipe = d.pipe ∧
    (d.putEngine k x).dec = d.dec ∧ (d.putEngine k x).decPipe = d.decPipe ∧ (d.putEngine k x).decSel = d.decSel ∧ (d.putEngine k x).twin = d.twin ∧
    (d.putEngine k x).flow = d.flow ∧ (d.putEngine k x).pkgSel = d.pkgSel ∧ (d.putEngine k x).tmIn = d.tmIn ∧ (d.putEngine k x).queue = d.queue ∧
    (d.putEngine k x).port = d.port ∧ (d.putEngine k x).pol = d.pol ∧ (d.putEngine k x).portSel = d.portSel ∧ (d.putEngine k x).qSel = d.qSel ∧
    (d.putEngine k x).polSel = d.polSel ∧ (d.putEngine k x).group = d.group ∧ (d.putEngine k x).lane = d.lane ∧ (d.putEngine k x).casc = d.casc ∧
    (d.putEngine k x).mc = d.mc ∧ (d.putEngine k x).chk = d.chk ∧ (d.putEngine k x).chkMode = d.chkMode ∧ (d.putEngine k x).chkSel = d.chkSel ∧
    (d.putEngine k x).trust = d.trust ∧ (d.putEngine k x).prl = d.prl ∧ (d.putEngine k x).mem = d.mem ∧ (d.putEngine k x).memEra = d.memEra ∧
    (d.putEngine k x).poison = d.poison ∧ (d.putEngine k x).out = d.out ∧ (d.putEngine k x).waiting = d.waiting ∧ (d.putEngine k x).absent = d.absent ∧
    (d.putEngine k x).freeCtr = d.freeCtr := by
  refine ⟨?_, ?_, ?_, ?_, ?_, ?_, ?_, ?_, ?_, ?_, ?_, ?_, ?_, ?_, ?_, ?_, ?_, ?_, ?_, ?_, ?_, ?_, ?_, ?_, ?_, ?_, ?_, ?_, ?_, ?_, ?_, ?_, ?_, ?_, ?_, ?_, ?_, ?_, ?_, ?_, ?_, ?_, ?_, ?_, ?_, ?_, ?_, ?_, ?_, ?_⟩ <;> rfl
@[simp] theorem Dev.engine_putEngine (d : Dev) (k : Nat) (x : Blit) : (d.putEngine k x).engine k = x := Tab.get_put_same _ _ _ _
theorem Dev.engine_putEngine_other (d : Dev) (x : Blit) {j k : Nat} (h : j ≠ k) : (d.putEngine k x).engine j = d.engine j := Tab.get_put_other _ _ _ h
@[simp] theorem Dev.putEngine_putEngine (d : Dev) (k : Nat) (x y : Blit) : (d.putEngine k x).putEngine k y = d.putEngine k y := by simp [Dev.putEngine]
@[simp] theorem Dev.modEngine_eq (d : Dev) (k : Nat) (f : Blit → Blit) : d.modEngine k f = d.putEngine k (f (d.engine k)) := rfl

@[simp] theorem Dev.putChannel_frame (d : Dev) (k : Nat) (x : Chan) :
    (d.putChannel k x).ctl = d.ctl ∧ (d.putChannel k x).tb = d.tb ∧ (d.putChannel k x).flt = d.flt ∧ (d.putChannel k x).hub = d.hub ∧
    (d.putChannel k x).rings = d.rings ∧ (d.putChannel k x).dsp = d.dsp ∧ (d.putChannel k x).thr = d.thr ∧ (d.putChannel k x).loc = d.loc ∧
    (d.putChannel k x).locErr = d.locErr ∧ (d.putChannel k x).spillErr = d.spillErr ∧ (d.putChannel k x).win = d.win ∧ (d.putChannel k x).unitQ = d.unitQ ∧
    (d.putChannel k x).pend = d.pend ∧ (d.putChannel k x).fab = d.fab ∧ (d.putChannel k x).cap = d.cap ∧ (d.putChannel k x).capSel = d.capSel ∧
    (d.putChannel k x).scene = d.scene ∧ (d.putChannel k x).layer = d.layer ∧ (d.putChannel k x).cluster = d.cluster ∧ (d.putChannel k x).blit = d.blit ∧
    (d.putChannel k x).pipe = d.pipe ∧ (d.putChannel k x).dec = d.dec ∧ (d.putChannel k x).decPipe = d.decPipe ∧ (d.putChannel k x).decSel = d.decSel ∧
    (d.putChannel k x).twin = d.twin ∧ (d.putChannel k x).flow = d.flow ∧ (d.putChannel k x).pkgSel = d.pkgSel ∧ (d.putChannel k x).tmIn = d.tmIn ∧
    (d.putChannel k x).queue = d.queue ∧ (d.putChannel k x).port = d.port ∧ (d.putChannel k x).pol = d.pol ∧ (d.putChannel k x).portSel = d.portSel ∧
    (d.putChannel k x).qSel = d.qSel ∧ (d.putChannel k x).polSel = d.polSel ∧ (d.putChannel k x).group = d.group ∧ (d.putChannel k x).lane = d.lane ∧
    (d.putChannel k x).casc = d.casc ∧ (d.putChannel k x).mc = d.mc ∧ (d.putChannel k x).chk = d.chk ∧ (d.putChannel k x).chkMode = d.chkMode ∧
    (d.putChannel k x).chkSel = d.chkSel ∧ (d.putChannel k x).trust = d.trust ∧ (d.putChannel k x).prl = d.prl ∧ (d.putChannel k x).mem = d.mem ∧
    (d.putChannel k x).memEra = d.memEra ∧ (d.putChannel k x).poison = d.poison ∧ (d.putChannel k x).out = d.out ∧ (d.putChannel k x).waiting = d.waiting ∧
    (d.putChannel k x).absent = d.absent ∧ (d.putChannel k x).freeCtr = d.freeCtr := by
  refine ⟨?_, ?_, ?_, ?_, ?_, ?_, ?_, ?_, ?_, ?_, ?_, ?_, ?_, ?_, ?_, ?_, ?_, ?_, ?_, ?_, ?_, ?_, ?_, ?_, ?_, ?_, ?_, ?_, ?_, ?_, ?_, ?_, ?_, ?_, ?_, ?_, ?_, ?_, ?_, ?_, ?_, ?_, ?_, ?_, ?_, ?_, ?_, ?_, ?_, ?_⟩ <;> rfl
@[simp] theorem Dev.channel_putChannel (d : Dev) (k : Nat) (x : Chan) : (d.putChannel k x).channel k = x := Tab.get_put_same _ _ _ _
theorem Dev.channel_putChannel_other (d : Dev) (x : Chan) {j k : Nat} (h : j ≠ k) : (d.putChannel k x).channel j = d.channel j := Tab.get_put_other _ _ _ h
@[simp] theorem Dev.putChannel_putChannel (d : Dev) (k : Nat) (x y : Chan) : (d.putChannel k x).putChannel k y = d.putChannel k y := by simp [Dev.putChannel]
@[simp] theorem Dev.modChannel_eq (d : Dev) (k : Nat) (f : Chan → Chan) : d.modChannel k f = d.putChannel k (f (d.channel k)) := rfl

@[simp] theorem Dev.putPipeAt_frame (d : Dev) (k : Nat) (x : Pipe) :
    (d.putPipeAt k x).ctl = d.ctl ∧ (d.putPipeAt k x).tb = d.tb ∧ (d.putPipeAt k x).flt = d.flt ∧ (d.putPipeAt k x).hub = d.hub ∧ (d.putPipeAt k x).rings = d.rings ∧
    (d.putPipeAt k x).dsp = d.dsp ∧ (d.putPipeAt k x).thr = d.thr ∧ (d.putPipeAt k x).loc = d.loc ∧ (d.putPipeAt k x).locErr = d.locErr ∧
    (d.putPipeAt k x).spillErr = d.spillErr ∧ (d.putPipeAt k x).win = d.win ∧ (d.putPipeAt k x).unitQ = d.unitQ ∧ (d.putPipeAt k x).pend = d.pend ∧
    (d.putPipeAt k x).fab = d.fab ∧ (d.putPipeAt k x).cap = d.cap ∧ (d.putPipeAt k x).capSel = d.capSel ∧ (d.putPipeAt k x).scene = d.scene ∧
    (d.putPipeAt k x).layer = d.layer ∧ (d.putPipeAt k x).cluster = d.cluster ∧ (d.putPipeAt k x).blit = d.blit ∧ (d.putPipeAt k x).chan = d.chan ∧
    (d.putPipeAt k x).dec = d.dec ∧ (d.putPipeAt k x).decPipe = d.decPipe ∧ (d.putPipeAt k x).decSel = d.decSel ∧ (d.putPipeAt k x).twin = d.twin ∧
    (d.putPipeAt k x).flow = d.flow ∧ (d.putPipeAt k x).pkgSel = d.pkgSel ∧ (d.putPipeAt k x).tmIn = d.tmIn ∧ (d.putPipeAt k x).queue = d.queue ∧
    (d.putPipeAt k x).port = d.port ∧ (d.putPipeAt k x).pol = d.pol ∧ (d.putPipeAt k x).portSel = d.portSel ∧ (d.putPipeAt k x).qSel = d.qSel ∧
    (d.putPipeAt k x).polSel = d.polSel ∧ (d.putPipeAt k x).group = d.group ∧ (d.putPipeAt k x).lane = d.lane ∧ (d.putPipeAt k x).casc = d.casc ∧
    (d.putPipeAt k x).mc = d.mc ∧ (d.putPipeAt k x).chk = d.chk ∧ (d.putPipeAt k x).chkMode = d.chkMode ∧ (d.putPipeAt k x).chkSel = d.chkSel ∧
    (d.putPipeAt k x).trust = d.trust ∧ (d.putPipeAt k x).prl = d.prl ∧ (d.putPipeAt k x).mem = d.mem ∧ (d.putPipeAt k x).memEra = d.memEra ∧
    (d.putPipeAt k x).poison = d.poison ∧ (d.putPipeAt k x).out = d.out ∧ (d.putPipeAt k x).waiting = d.waiting ∧ (d.putPipeAt k x).absent = d.absent ∧
    (d.putPipeAt k x).freeCtr = d.freeCtr := by
  refine ⟨?_, ?_, ?_, ?_, ?_, ?_, ?_, ?_, ?_, ?_, ?_, ?_, ?_, ?_, ?_, ?_, ?_, ?_, ?_, ?_, ?_, ?_, ?_, ?_, ?_, ?_, ?_, ?_, ?_, ?_, ?_, ?_, ?_, ?_, ?_, ?_, ?_, ?_, ?_, ?_, ?_, ?_, ?_, ?_, ?_, ?_, ?_, ?_, ?_, ?_⟩ <;> rfl
@[simp] theorem Dev.pipeAt_putPipeAt (d : Dev) (k : Nat) (x : Pipe) : (d.putPipeAt k x).pipeAt k = x := Tab.get_put_same _ _ _ _
theorem Dev.pipeAt_putPipeAt_other (d : Dev) (x : Pipe) {j k : Nat} (h : j ≠ k) : (d.putPipeAt k x).pipeAt j = d.pipeAt j := Tab.get_put_other _ _ _ h
@[simp] theorem Dev.putPipeAt_putPipeAt (d : Dev) (k : Nat) (x y : Pipe) : (d.putPipeAt k x).putPipeAt k y = d.putPipeAt k y := by simp [Dev.putPipeAt]
@[simp] theorem Dev.modPipeAt_eq (d : Dev) (k : Nat) (f : Pipe → Pipe) : d.modPipeAt k f = d.putPipeAt k (f (d.pipeAt k)) := rfl

@[simp] theorem Dev.putStream_frame (d : Dev) (k : Nat) (x : Dec) :
    (d.putStream k x).ctl = d.ctl ∧ (d.putStream k x).tb = d.tb ∧ (d.putStream k x).flt = d.flt ∧ (d.putStream k x).hub = d.hub ∧ (d.putStream k x).rings = d.rings ∧
    (d.putStream k x).dsp = d.dsp ∧ (d.putStream k x).thr = d.thr ∧ (d.putStream k x).loc = d.loc ∧ (d.putStream k x).locErr = d.locErr ∧
    (d.putStream k x).spillErr = d.spillErr ∧ (d.putStream k x).win = d.win ∧ (d.putStream k x).unitQ = d.unitQ ∧ (d.putStream k x).pend = d.pend ∧
    (d.putStream k x).fab = d.fab ∧ (d.putStream k x).cap = d.cap ∧ (d.putStream k x).capSel = d.capSel ∧ (d.putStream k x).scene = d.scene ∧
    (d.putStream k x).layer = d.layer ∧ (d.putStream k x).cluster = d.cluster ∧ (d.putStream k x).blit = d.blit ∧ (d.putStream k x).chan = d.chan ∧
    (d.putStream k x).pipe = d.pipe ∧ (d.putStream k x).decPipe = d.decPipe ∧ (d.putStream k x).decSel = d.decSel ∧ (d.putStream k x).twin = d.twin ∧
    (d.putStream k x).flow = d.flow ∧ (d.putStream k x).pkgSel = d.pkgSel ∧ (d.putStream k x).tmIn = d.tmIn ∧ (d.putStream k x).queue = d.queue ∧
    (d.putStream k x).port = d.port ∧ (d.putStream k x).pol = d.pol ∧ (d.putStream k x).portSel = d.portSel ∧ (d.putStream k x).qSel = d.qSel ∧
    (d.putStream k x).polSel = d.polSel ∧ (d.putStream k x).group = d.group ∧ (d.putStream k x).lane = d.lane ∧ (d.putStream k x).casc = d.casc ∧
    (d.putStream k x).mc = d.mc ∧ (d.putStream k x).chk = d.chk ∧ (d.putStream k x).chkMode = d.chkMode ∧ (d.putStream k x).chkSel = d.chkSel ∧
    (d.putStream k x).trust = d.trust ∧ (d.putStream k x).prl = d.prl ∧ (d.putStream k x).mem = d.mem ∧ (d.putStream k x).memEra = d.memEra ∧
    (d.putStream k x).poison = d.poison ∧ (d.putStream k x).out = d.out ∧ (d.putStream k x).waiting = d.waiting ∧ (d.putStream k x).absent = d.absent ∧
    (d.putStream k x).freeCtr = d.freeCtr := by
  refine ⟨?_, ?_, ?_, ?_, ?_, ?_, ?_, ?_, ?_, ?_, ?_, ?_, ?_, ?_, ?_, ?_, ?_, ?_, ?_, ?_, ?_, ?_, ?_, ?_, ?_, ?_, ?_, ?_, ?_, ?_, ?_, ?_, ?_, ?_, ?_, ?_, ?_, ?_, ?_, ?_, ?_, ?_, ?_, ?_, ?_, ?_, ?_, ?_, ?_, ?_⟩ <;> rfl
@[simp] theorem Dev.stream_putStream (d : Dev) (k : Nat) (x : Dec) : (d.putStream k x).stream k = x := Tab.get_put_same _ _ _ _
theorem Dev.stream_putStream_other (d : Dev) (x : Dec) {j k : Nat} (h : j ≠ k) : (d.putStream k x).stream j = d.stream j := Tab.get_put_other _ _ _ h
@[simp] theorem Dev.putStream_putStream (d : Dev) (k : Nat) (x y : Dec) : (d.putStream k x).putStream k y = d.putStream k y := by simp [Dev.putStream]
@[simp] theorem Dev.modStream_eq (d : Dev) (k : Nat) (f : Dec → Dec) : d.modStream k f = d.putStream k (f (d.stream k)) := rfl

@[simp] theorem Dev.putDecPipeAt_frame (d : Dev) (k : Nat) (x : DecPipe) :
    (d.putDecPipeAt k x).ctl = d.ctl ∧ (d.putDecPipeAt k x).tb = d.tb ∧ (d.putDecPipeAt k x).flt = d.flt ∧ (d.putDecPipeAt k x).hub = d.hub ∧
    (d.putDecPipeAt k x).rings = d.rings ∧ (d.putDecPipeAt k x).dsp = d.dsp ∧ (d.putDecPipeAt k x).thr = d.thr ∧ (d.putDecPipeAt k x).loc = d.loc ∧
    (d.putDecPipeAt k x).locErr = d.locErr ∧ (d.putDecPipeAt k x).spillErr = d.spillErr ∧ (d.putDecPipeAt k x).win = d.win ∧ (d.putDecPipeAt k x).unitQ = d.unitQ ∧
    (d.putDecPipeAt k x).pend = d.pend ∧ (d.putDecPipeAt k x).fab = d.fab ∧ (d.putDecPipeAt k x).cap = d.cap ∧ (d.putDecPipeAt k x).capSel = d.capSel ∧
    (d.putDecPipeAt k x).scene = d.scene ∧ (d.putDecPipeAt k x).layer = d.layer ∧ (d.putDecPipeAt k x).cluster = d.cluster ∧ (d.putDecPipeAt k x).blit = d.blit ∧
    (d.putDecPipeAt k x).chan = d.chan ∧ (d.putDecPipeAt k x).pipe = d.pipe ∧ (d.putDecPipeAt k x).dec = d.dec ∧ (d.putDecPipeAt k x).decSel = d.decSel ∧
    (d.putDecPipeAt k x).twin = d.twin ∧ (d.putDecPipeAt k x).flow = d.flow ∧ (d.putDecPipeAt k x).pkgSel = d.pkgSel ∧ (d.putDecPipeAt k x).tmIn = d.tmIn ∧
    (d.putDecPipeAt k x).queue = d.queue ∧ (d.putDecPipeAt k x).port = d.port ∧ (d.putDecPipeAt k x).pol = d.pol ∧ (d.putDecPipeAt k x).portSel = d.portSel ∧
    (d.putDecPipeAt k x).qSel = d.qSel ∧ (d.putDecPipeAt k x).polSel = d.polSel ∧ (d.putDecPipeAt k x).group = d.group ∧ (d.putDecPipeAt k x).lane = d.lane ∧
    (d.putDecPipeAt k x).casc = d.casc ∧ (d.putDecPipeAt k x).mc = d.mc ∧ (d.putDecPipeAt k x).chk = d.chk ∧ (d.putDecPipeAt k x).chkMode = d.chkMode ∧
    (d.putDecPipeAt k x).chkSel = d.chkSel ∧ (d.putDecPipeAt k x).trust = d.trust ∧ (d.putDecPipeAt k x).prl = d.prl ∧ (d.putDecPipeAt k x).mem = d.mem ∧
    (d.putDecPipeAt k x).memEra = d.memEra ∧ (d.putDecPipeAt k x).poison = d.poison ∧ (d.putDecPipeAt k x).out = d.out ∧ (d.putDecPipeAt k x).waiting = d.waiting ∧
    (d.putDecPipeAt k x).absent = d.absent ∧ (d.putDecPipeAt k x).freeCtr = d.freeCtr := by
  refine ⟨?_, ?_, ?_, ?_, ?_, ?_, ?_, ?_, ?_, ?_, ?_, ?_, ?_, ?_, ?_, ?_, ?_, ?_, ?_, ?_, ?_, ?_, ?_, ?_, ?_, ?_, ?_, ?_, ?_, ?_, ?_, ?_, ?_, ?_, ?_, ?_, ?_, ?_, ?_, ?_, ?_, ?_, ?_, ?_, ?_, ?_, ?_, ?_, ?_, ?_⟩ <;> rfl
@[simp] theorem Dev.decPipeAt_putDecPipeAt (d : Dev) (k : Nat) (x : DecPipe) : (d.putDecPipeAt k x).decPipeAt k = x := Tab.get_put_same _ _ _ _
theorem Dev.decPipeAt_putDecPipeAt_other (d : Dev) (x : DecPipe) {j k : Nat} (h : j ≠ k) : (d.putDecPipeAt k x).decPipeAt j = d.decPipeAt j := Tab.get_put_other _ _ _ h
@[simp] theorem Dev.putDecPipeAt_putDecPipeAt (d : Dev) (k : Nat) (x y : DecPipe) : (d.putDecPipeAt k x).putDecPipeAt k y = d.putDecPipeAt k y := by simp [Dev.putDecPipeAt]
@[simp] theorem Dev.modDecPipeAt_eq (d : Dev) (k : Nat) (f : DecPipe → DecPipe) : d.modDecPipeAt k f = d.putDecPipeAt k (f (d.decPipeAt k)) := rfl

@[simp] theorem Dev.putFlowAt_frame (d : Dev) (k : Nat) (x : Flow) :
    (d.putFlowAt k x).ctl = d.ctl ∧ (d.putFlowAt k x).tb = d.tb ∧ (d.putFlowAt k x).flt = d.flt ∧ (d.putFlowAt k x).hub = d.hub ∧ (d.putFlowAt k x).rings = d.rings ∧
    (d.putFlowAt k x).dsp = d.dsp ∧ (d.putFlowAt k x).thr = d.thr ∧ (d.putFlowAt k x).loc = d.loc ∧ (d.putFlowAt k x).locErr = d.locErr ∧
    (d.putFlowAt k x).spillErr = d.spillErr ∧ (d.putFlowAt k x).win = d.win ∧ (d.putFlowAt k x).unitQ = d.unitQ ∧ (d.putFlowAt k x).pend = d.pend ∧
    (d.putFlowAt k x).fab = d.fab ∧ (d.putFlowAt k x).cap = d.cap ∧ (d.putFlowAt k x).capSel = d.capSel ∧ (d.putFlowAt k x).scene = d.scene ∧
    (d.putFlowAt k x).layer = d.layer ∧ (d.putFlowAt k x).cluster = d.cluster ∧ (d.putFlowAt k x).blit = d.blit ∧ (d.putFlowAt k x).chan = d.chan ∧
    (d.putFlowAt k x).pipe = d.pipe ∧ (d.putFlowAt k x).dec = d.dec ∧ (d.putFlowAt k x).decPipe = d.decPipe ∧ (d.putFlowAt k x).decSel = d.decSel ∧
    (d.putFlowAt k x).twin = d.twin ∧ (d.putFlowAt k x).pkgSel = d.pkgSel ∧ (d.putFlowAt k x).tmIn = d.tmIn ∧ (d.putFlowAt k x).queue = d.queue ∧
    (d.putFlowAt k x).port = d.port ∧ (d.putFlowAt k x).pol = d.pol ∧ (d.putFlowAt k x).portSel = d.portSel ∧ (d.putFlowAt k x).qSel = d.qSel ∧
    (d.putFlowAt k x).polSel = d.polSel ∧ (d.putFlowAt k x).group = d.group ∧ (d.putFlowAt k x).lane = d.lane ∧ (d.putFlowAt k x).casc = d.casc ∧
    (d.putFlowAt k x).mc = d.mc ∧ (d.putFlowAt k x).chk = d.chk ∧ (d.putFlowAt k x).chkMode = d.chkMode ∧ (d.putFlowAt k x).chkSel = d.chkSel ∧
    (d.putFlowAt k x).trust = d.trust ∧ (d.putFlowAt k x).prl = d.prl ∧ (d.putFlowAt k x).mem = d.mem ∧ (d.putFlowAt k x).memEra = d.memEra ∧
    (d.putFlowAt k x).poison = d.poison ∧ (d.putFlowAt k x).out = d.out ∧ (d.putFlowAt k x).waiting = d.waiting ∧ (d.putFlowAt k x).absent = d.absent ∧
    (d.putFlowAt k x).freeCtr = d.freeCtr := by
  refine ⟨?_, ?_, ?_, ?_, ?_, ?_, ?_, ?_, ?_, ?_, ?_, ?_, ?_, ?_, ?_, ?_, ?_, ?_, ?_, ?_, ?_, ?_, ?_, ?_, ?_, ?_, ?_, ?_, ?_, ?_, ?_, ?_, ?_, ?_, ?_, ?_, ?_, ?_, ?_, ?_, ?_, ?_, ?_, ?_, ?_, ?_, ?_, ?_, ?_, ?_⟩ <;> rfl
@[simp] theorem Dev.flowAt_putFlowAt (d : Dev) (k : Nat) (x : Flow) : (d.putFlowAt k x).flowAt k = x := Tab.get_put_same _ _ _ _
theorem Dev.flowAt_putFlowAt_other (d : Dev) (x : Flow) {j k : Nat} (h : j ≠ k) : (d.putFlowAt k x).flowAt j = d.flowAt j := Tab.get_put_other _ _ _ h
@[simp] theorem Dev.putFlowAt_putFlowAt (d : Dev) (k : Nat) (x y : Flow) : (d.putFlowAt k x).putFlowAt k y = d.putFlowAt k y := by simp [Dev.putFlowAt]
@[simp] theorem Dev.modFlowAt_eq (d : Dev) (k : Nat) (f : Flow → Flow) : d.modFlowAt k f = d.putFlowAt k (f (d.flowAt k)) := rfl

@[simp] theorem Dev.putQueueAt_frame (d : Dev) (k : Nat) (x : Queue) :
    (d.putQueueAt k x).ctl = d.ctl ∧ (d.putQueueAt k x).tb = d.tb ∧ (d.putQueueAt k x).flt = d.flt ∧ (d.putQueueAt k x).hub = d.hub ∧
    (d.putQueueAt k x).rings = d.rings ∧ (d.putQueueAt k x).dsp = d.dsp ∧ (d.putQueueAt k x).thr = d.thr ∧ (d.putQueueAt k x).loc = d.loc ∧
    (d.putQueueAt k x).locErr = d.locErr ∧ (d.putQueueAt k x).spillErr = d.spillErr ∧ (d.putQueueAt k x).win = d.win ∧ (d.putQueueAt k x).unitQ = d.unitQ ∧
    (d.putQueueAt k x).pend = d.pend ∧ (d.putQueueAt k x).fab = d.fab ∧ (d.putQueueAt k x).cap = d.cap ∧ (d.putQueueAt k x).capSel = d.capSel ∧
    (d.putQueueAt k x).scene = d.scene ∧ (d.putQueueAt k x).layer = d.layer ∧ (d.putQueueAt k x).cluster = d.cluster ∧ (d.putQueueAt k x).blit = d.blit ∧
    (d.putQueueAt k x).chan = d.chan ∧ (d.putQueueAt k x).pipe = d.pipe ∧ (d.putQueueAt k x).dec = d.dec ∧ (d.putQueueAt k x).decPipe = d.decPipe ∧
    (d.putQueueAt k x).decSel = d.decSel ∧ (d.putQueueAt k x).twin = d.twin ∧ (d.putQueueAt k x).flow = d.flow ∧ (d.putQueueAt k x).pkgSel = d.pkgSel ∧
    (d.putQueueAt k x).tmIn = d.tmIn ∧ (d.putQueueAt k x).port = d.port ∧ (d.putQueueAt k x).pol = d.pol ∧ (d.putQueueAt k x).portSel = d.portSel ∧
    (d.putQueueAt k x).qSel = d.qSel ∧ (d.putQueueAt k x).polSel = d.polSel ∧ (d.putQueueAt k x).group = d.group ∧ (d.putQueueAt k x).lane = d.lane ∧
    (d.putQueueAt k x).casc = d.casc ∧ (d.putQueueAt k x).mc = d.mc ∧ (d.putQueueAt k x).chk = d.chk ∧ (d.putQueueAt k x).chkMode = d.chkMode ∧
    (d.putQueueAt k x).chkSel = d.chkSel ∧ (d.putQueueAt k x).trust = d.trust ∧ (d.putQueueAt k x).prl = d.prl ∧ (d.putQueueAt k x).mem = d.mem ∧
    (d.putQueueAt k x).memEra = d.memEra ∧ (d.putQueueAt k x).poison = d.poison ∧ (d.putQueueAt k x).out = d.out ∧ (d.putQueueAt k x).waiting = d.waiting ∧
    (d.putQueueAt k x).absent = d.absent ∧ (d.putQueueAt k x).freeCtr = d.freeCtr := by
  refine ⟨?_, ?_, ?_, ?_, ?_, ?_, ?_, ?_, ?_, ?_, ?_, ?_, ?_, ?_, ?_, ?_, ?_, ?_, ?_, ?_, ?_, ?_, ?_, ?_, ?_, ?_, ?_, ?_, ?_, ?_, ?_, ?_, ?_, ?_, ?_, ?_, ?_, ?_, ?_, ?_, ?_, ?_, ?_, ?_, ?_, ?_, ?_, ?_, ?_, ?_⟩ <;> rfl
@[simp] theorem Dev.queueAt_putQueueAt (d : Dev) (k : Nat) (x : Queue) : (d.putQueueAt k x).queueAt k = x := Tab.get_put_same _ _ _ _
theorem Dev.queueAt_putQueueAt_other (d : Dev) (x : Queue) {j k : Nat} (h : j ≠ k) : (d.putQueueAt k x).queueAt j = d.queueAt j := Tab.get_put_other _ _ _ h
@[simp] theorem Dev.putQueueAt_putQueueAt (d : Dev) (k : Nat) (x y : Queue) : (d.putQueueAt k x).putQueueAt k y = d.putQueueAt k y := by simp [Dev.putQueueAt]
@[simp] theorem Dev.modQueueAt_eq (d : Dev) (k : Nat) (f : Queue → Queue) : d.modQueueAt k f = d.putQueueAt k (f (d.queueAt k)) := rfl

@[simp] theorem Dev.putPortAt_frame (d : Dev) (k : Nat) (x : TmPort) :
    (d.putPortAt k x).ctl = d.ctl ∧ (d.putPortAt k x).tb = d.tb ∧ (d.putPortAt k x).flt = d.flt ∧ (d.putPortAt k x).hub = d.hub ∧ (d.putPortAt k x).rings = d.rings ∧
    (d.putPortAt k x).dsp = d.dsp ∧ (d.putPortAt k x).thr = d.thr ∧ (d.putPortAt k x).loc = d.loc ∧ (d.putPortAt k x).locErr = d.locErr ∧
    (d.putPortAt k x).spillErr = d.spillErr ∧ (d.putPortAt k x).win = d.win ∧ (d.putPortAt k x).unitQ = d.unitQ ∧ (d.putPortAt k x).pend = d.pend ∧
    (d.putPortAt k x).fab = d.fab ∧ (d.putPortAt k x).cap = d.cap ∧ (d.putPortAt k x).capSel = d.capSel ∧ (d.putPortAt k x).scene = d.scene ∧
    (d.putPortAt k x).layer = d.layer ∧ (d.putPortAt k x).cluster = d.cluster ∧ (d.putPortAt k x).blit = d.blit ∧ (d.putPortAt k x).chan = d.chan ∧
    (d.putPortAt k x).pipe = d.pipe ∧ (d.putPortAt k x).dec = d.dec ∧ (d.putPortAt k x).decPipe = d.decPipe ∧ (d.putPortAt k x).decSel = d.decSel ∧
    (d.putPortAt k x).twin = d.twin ∧ (d.putPortAt k x).flow = d.flow ∧ (d.putPortAt k x).pkgSel = d.pkgSel ∧ (d.putPortAt k x).tmIn = d.tmIn ∧
    (d.putPortAt k x).queue = d.queue ∧ (d.putPortAt k x).pol = d.pol ∧ (d.putPortAt k x).portSel = d.portSel ∧ (d.putPortAt k x).qSel = d.qSel ∧
    (d.putPortAt k x).polSel = d.polSel ∧ (d.putPortAt k x).group = d.group ∧ (d.putPortAt k x).lane = d.lane ∧ (d.putPortAt k x).casc = d.casc ∧
    (d.putPortAt k x).mc = d.mc ∧ (d.putPortAt k x).chk = d.chk ∧ (d.putPortAt k x).chkMode = d.chkMode ∧ (d.putPortAt k x).chkSel = d.chkSel ∧
    (d.putPortAt k x).trust = d.trust ∧ (d.putPortAt k x).prl = d.prl ∧ (d.putPortAt k x).mem = d.mem ∧ (d.putPortAt k x).memEra = d.memEra ∧
    (d.putPortAt k x).poison = d.poison ∧ (d.putPortAt k x).out = d.out ∧ (d.putPortAt k x).waiting = d.waiting ∧ (d.putPortAt k x).absent = d.absent ∧
    (d.putPortAt k x).freeCtr = d.freeCtr := by
  refine ⟨?_, ?_, ?_, ?_, ?_, ?_, ?_, ?_, ?_, ?_, ?_, ?_, ?_, ?_, ?_, ?_, ?_, ?_, ?_, ?_, ?_, ?_, ?_, ?_, ?_, ?_, ?_, ?_, ?_, ?_, ?_, ?_, ?_, ?_, ?_, ?_, ?_, ?_, ?_, ?_, ?_, ?_, ?_, ?_, ?_, ?_, ?_, ?_, ?_, ?_⟩ <;> rfl
@[simp] theorem Dev.portAt_putPortAt (d : Dev) (k : Nat) (x : TmPort) : (d.putPortAt k x).portAt k = x := Tab.get_put_same _ _ _ _
theorem Dev.portAt_putPortAt_other (d : Dev) (x : TmPort) {j k : Nat} (h : j ≠ k) : (d.putPortAt k x).portAt j = d.portAt j := Tab.get_put_other _ _ _ h
@[simp] theorem Dev.putPortAt_putPortAt (d : Dev) (k : Nat) (x y : TmPort) : (d.putPortAt k x).putPortAt k y = d.putPortAt k y := by simp [Dev.putPortAt]
@[simp] theorem Dev.modPortAt_eq (d : Dev) (k : Nat) (f : TmPort → TmPort) : d.modPortAt k f = d.putPortAt k (f (d.portAt k)) := rfl

@[simp] theorem Dev.putPolicer_frame (d : Dev) (k : Nat) (x : Policer) :
    (d.putPolicer k x).ctl = d.ctl ∧ (d.putPolicer k x).tb = d.tb ∧ (d.putPolicer k x).flt = d.flt ∧ (d.putPolicer k x).hub = d.hub ∧
    (d.putPolicer k x).rings = d.rings ∧ (d.putPolicer k x).dsp = d.dsp ∧ (d.putPolicer k x).thr = d.thr ∧ (d.putPolicer k x).loc = d.loc ∧
    (d.putPolicer k x).locErr = d.locErr ∧ (d.putPolicer k x).spillErr = d.spillErr ∧ (d.putPolicer k x).win = d.win ∧ (d.putPolicer k x).unitQ = d.unitQ ∧
    (d.putPolicer k x).pend = d.pend ∧ (d.putPolicer k x).fab = d.fab ∧ (d.putPolicer k x).cap = d.cap ∧ (d.putPolicer k x).capSel = d.capSel ∧
    (d.putPolicer k x).scene = d.scene ∧ (d.putPolicer k x).layer = d.layer ∧ (d.putPolicer k x).cluster = d.cluster ∧ (d.putPolicer k x).blit = d.blit ∧
    (d.putPolicer k x).chan = d.chan ∧ (d.putPolicer k x).pipe = d.pipe ∧ (d.putPolicer k x).dec = d.dec ∧ (d.putPolicer k x).decPipe = d.decPipe ∧
    (d.putPolicer k x).decSel = d.decSel ∧ (d.putPolicer k x).twin = d.twin ∧ (d.putPolicer k x).flow = d.flow ∧ (d.putPolicer k x).pkgSel = d.pkgSel ∧
    (d.putPolicer k x).tmIn = d.tmIn ∧ (d.putPolicer k x).queue = d.queue ∧ (d.putPolicer k x).port = d.port ∧ (d.putPolicer k x).portSel = d.portSel ∧
    (d.putPolicer k x).qSel = d.qSel ∧ (d.putPolicer k x).polSel = d.polSel ∧ (d.putPolicer k x).group = d.group ∧ (d.putPolicer k x).lane = d.lane ∧
    (d.putPolicer k x).casc = d.casc ∧ (d.putPolicer k x).mc = d.mc ∧ (d.putPolicer k x).chk = d.chk ∧ (d.putPolicer k x).chkMode = d.chkMode ∧
    (d.putPolicer k x).chkSel = d.chkSel ∧ (d.putPolicer k x).trust = d.trust ∧ (d.putPolicer k x).prl = d.prl ∧ (d.putPolicer k x).mem = d.mem ∧
    (d.putPolicer k x).memEra = d.memEra ∧ (d.putPolicer k x).poison = d.poison ∧ (d.putPolicer k x).out = d.out ∧ (d.putPolicer k x).waiting = d.waiting ∧
    (d.putPolicer k x).absent = d.absent ∧ (d.putPolicer k x).freeCtr = d.freeCtr := by
  refine ⟨?_, ?_, ?_, ?_, ?_, ?_, ?_, ?_, ?_, ?_, ?_, ?_, ?_, ?_, ?_, ?_, ?_, ?_, ?_, ?_, ?_, ?_, ?_, ?_, ?_, ?_, ?_, ?_, ?_, ?_, ?_, ?_, ?_, ?_, ?_, ?_, ?_, ?_, ?_, ?_, ?_, ?_, ?_, ?_, ?_, ?_, ?_, ?_, ?_, ?_⟩ <;> rfl
@[simp] theorem Dev.policer_putPolicer (d : Dev) (k : Nat) (x : Policer) : (d.putPolicer k x).policer k = x := Tab.get_put_same _ _ _ _
theorem Dev.policer_putPolicer_other (d : Dev) (x : Policer) {j k : Nat} (h : j ≠ k) : (d.putPolicer k x).policer j = d.policer j := Tab.get_put_other _ _ _ h
@[simp] theorem Dev.putPolicer_putPolicer (d : Dev) (k : Nat) (x y : Policer) : (d.putPolicer k x).putPolicer k y = d.putPolicer k y := by simp [Dev.putPolicer]
@[simp] theorem Dev.modPolicer_eq (d : Dev) (k : Nat) (f : Policer → Policer) : d.modPolicer k f = d.putPolicer k (f (d.policer k)) := rfl

@[simp] theorem Dev.putGroupAt_frame (d : Dev) (k : Nat) (x : Group) :
    (d.putGroupAt k x).ctl = d.ctl ∧ (d.putGroupAt k x).tb = d.tb ∧ (d.putGroupAt k x).flt = d.flt ∧ (d.putGroupAt k x).hub = d.hub ∧
    (d.putGroupAt k x).rings = d.rings ∧ (d.putGroupAt k x).dsp = d.dsp ∧ (d.putGroupAt k x).thr = d.thr ∧ (d.putGroupAt k x).loc = d.loc ∧
    (d.putGroupAt k x).locErr = d.locErr ∧ (d.putGroupAt k x).spillErr = d.spillErr ∧ (d.putGroupAt k x).win = d.win ∧ (d.putGroupAt k x).unitQ = d.unitQ ∧
    (d.putGroupAt k x).pend = d.pend ∧ (d.putGroupAt k x).fab = d.fab ∧ (d.putGroupAt k x).cap = d.cap ∧ (d.putGroupAt k x).capSel = d.capSel ∧
    (d.putGroupAt k x).scene = d.scene ∧ (d.putGroupAt k x).layer = d.layer ∧ (d.putGroupAt k x).cluster = d.cluster ∧ (d.putGroupAt k x).blit = d.blit ∧
    (d.putGroupAt k x).chan = d.chan ∧ (d.putGroupAt k x).pipe = d.pipe ∧ (d.putGroupAt k x).dec = d.dec ∧ (d.putGroupAt k x).decPipe = d.decPipe ∧
    (d.putGroupAt k x).decSel = d.decSel ∧ (d.putGroupAt k x).twin = d.twin ∧ (d.putGroupAt k x).flow = d.flow ∧ (d.putGroupAt k x).pkgSel = d.pkgSel ∧
    (d.putGroupAt k x).tmIn = d.tmIn ∧ (d.putGroupAt k x).queue = d.queue ∧ (d.putGroupAt k x).port = d.port ∧ (d.putGroupAt k x).pol = d.pol ∧
    (d.putGroupAt k x).portSel = d.portSel ∧ (d.putGroupAt k x).qSel = d.qSel ∧ (d.putGroupAt k x).polSel = d.polSel ∧ (d.putGroupAt k x).lane = d.lane ∧
    (d.putGroupAt k x).casc = d.casc ∧ (d.putGroupAt k x).mc = d.mc ∧ (d.putGroupAt k x).chk = d.chk ∧ (d.putGroupAt k x).chkMode = d.chkMode ∧
    (d.putGroupAt k x).chkSel = d.chkSel ∧ (d.putGroupAt k x).trust = d.trust ∧ (d.putGroupAt k x).prl = d.prl ∧ (d.putGroupAt k x).mem = d.mem ∧
    (d.putGroupAt k x).memEra = d.memEra ∧ (d.putGroupAt k x).poison = d.poison ∧ (d.putGroupAt k x).out = d.out ∧ (d.putGroupAt k x).waiting = d.waiting ∧
    (d.putGroupAt k x).absent = d.absent ∧ (d.putGroupAt k x).freeCtr = d.freeCtr := by
  refine ⟨?_, ?_, ?_, ?_, ?_, ?_, ?_, ?_, ?_, ?_, ?_, ?_, ?_, ?_, ?_, ?_, ?_, ?_, ?_, ?_, ?_, ?_, ?_, ?_, ?_, ?_, ?_, ?_, ?_, ?_, ?_, ?_, ?_, ?_, ?_, ?_, ?_, ?_, ?_, ?_, ?_, ?_, ?_, ?_, ?_, ?_, ?_, ?_, ?_, ?_⟩ <;> rfl
@[simp] theorem Dev.groupAt_putGroupAt (d : Dev) (k : Nat) (x : Group) : (d.putGroupAt k x).groupAt k = x := Tab.get_put_same _ _ _ _
theorem Dev.groupAt_putGroupAt_other (d : Dev) (x : Group) {j k : Nat} (h : j ≠ k) : (d.putGroupAt k x).groupAt j = d.groupAt j := Tab.get_put_other _ _ _ h
@[simp] theorem Dev.putGroupAt_putGroupAt (d : Dev) (k : Nat) (x y : Group) : (d.putGroupAt k x).putGroupAt k y = d.putGroupAt k y := by simp [Dev.putGroupAt]
@[simp] theorem Dev.modGroupAt_eq (d : Dev) (k : Nat) (f : Group → Group) : d.modGroupAt k f = d.putGroupAt k (f (d.groupAt k)) := rfl

@[simp] theorem Dev.putLaneAt_frame (d : Dev) (k : Nat) (x : Lane) :
    (d.putLaneAt k x).ctl = d.ctl ∧ (d.putLaneAt k x).tb = d.tb ∧ (d.putLaneAt k x).flt = d.flt ∧ (d.putLaneAt k x).hub = d.hub ∧ (d.putLaneAt k x).rings = d.rings ∧
    (d.putLaneAt k x).dsp = d.dsp ∧ (d.putLaneAt k x).thr = d.thr ∧ (d.putLaneAt k x).loc = d.loc ∧ (d.putLaneAt k x).locErr = d.locErr ∧
    (d.putLaneAt k x).spillErr = d.spillErr ∧ (d.putLaneAt k x).win = d.win ∧ (d.putLaneAt k x).unitQ = d.unitQ ∧ (d.putLaneAt k x).pend = d.pend ∧
    (d.putLaneAt k x).fab = d.fab ∧ (d.putLaneAt k x).cap = d.cap ∧ (d.putLaneAt k x).capSel = d.capSel ∧ (d.putLaneAt k x).scene = d.scene ∧
    (d.putLaneAt k x).layer = d.layer ∧ (d.putLaneAt k x).cluster = d.cluster ∧ (d.putLaneAt k x).blit = d.blit ∧ (d.putLaneAt k x).chan = d.chan ∧
    (d.putLaneAt k x).pipe = d.pipe ∧ (d.putLaneAt k x).dec = d.dec ∧ (d.putLaneAt k x).decPipe = d.decPipe ∧ (d.putLaneAt k x).decSel = d.decSel ∧
    (d.putLaneAt k x).twin = d.twin ∧ (d.putLaneAt k x).flow = d.flow ∧ (d.putLaneAt k x).pkgSel = d.pkgSel ∧ (d.putLaneAt k x).tmIn = d.tmIn ∧
    (d.putLaneAt k x).queue = d.queue ∧ (d.putLaneAt k x).port = d.port ∧ (d.putLaneAt k x).pol = d.pol ∧ (d.putLaneAt k x).portSel = d.portSel ∧
    (d.putLaneAt k x).qSel = d.qSel ∧ (d.putLaneAt k x).polSel = d.polSel ∧ (d.putLaneAt k x).group = d.group ∧ (d.putLaneAt k x).casc = d.casc ∧
    (d.putLaneAt k x).mc = d.mc ∧ (d.putLaneAt k x).chk = d.chk ∧ (d.putLaneAt k x).chkMode = d.chkMode ∧ (d.putLaneAt k x).chkSel = d.chkSel ∧
    (d.putLaneAt k x).trust = d.trust ∧ (d.putLaneAt k x).prl = d.prl ∧ (d.putLaneAt k x).mem = d.mem ∧ (d.putLaneAt k x).memEra = d.memEra ∧
    (d.putLaneAt k x).poison = d.poison ∧ (d.putLaneAt k x).out = d.out ∧ (d.putLaneAt k x).waiting = d.waiting ∧ (d.putLaneAt k x).absent = d.absent ∧
    (d.putLaneAt k x).freeCtr = d.freeCtr := by
  refine ⟨?_, ?_, ?_, ?_, ?_, ?_, ?_, ?_, ?_, ?_, ?_, ?_, ?_, ?_, ?_, ?_, ?_, ?_, ?_, ?_, ?_, ?_, ?_, ?_, ?_, ?_, ?_, ?_, ?_, ?_, ?_, ?_, ?_, ?_, ?_, ?_, ?_, ?_, ?_, ?_, ?_, ?_, ?_, ?_, ?_, ?_, ?_, ?_, ?_, ?_⟩ <;> rfl
@[simp] theorem Dev.laneAt_putLaneAt (d : Dev) (k : Nat) (x : Lane) : (d.putLaneAt k x).laneAt k = x := Tab.get_put_same _ _ _ _
theorem Dev.laneAt_putLaneAt_other (d : Dev) (x : Lane) {j k : Nat} (h : j ≠ k) : (d.putLaneAt k x).laneAt j = d.laneAt j := Tab.get_put_other _ _ _ h
@[simp] theorem Dev.putLaneAt_putLaneAt (d : Dev) (k : Nat) (x y : Lane) : (d.putLaneAt k x).putLaneAt k y = d.putLaneAt k y := by simp [Dev.putLaneAt]
@[simp] theorem Dev.modLaneAt_eq (d : Dev) (k : Nat) (f : Lane → Lane) : d.modLaneAt k f = d.putLaneAt k (f (d.laneAt k)) := rfl

@[simp] theorem Dev.putMcAt_frame (d : Dev) (k : Nat) (x : Mc) :
    (d.putMcAt k x).ctl = d.ctl ∧ (d.putMcAt k x).tb = d.tb ∧ (d.putMcAt k x).flt = d.flt ∧ (d.putMcAt k x).hub = d.hub ∧ (d.putMcAt k x).rings = d.rings ∧
    (d.putMcAt k x).dsp = d.dsp ∧ (d.putMcAt k x).thr = d.thr ∧ (d.putMcAt k x).loc = d.loc ∧ (d.putMcAt k x).locErr = d.locErr ∧ (d.putMcAt k x).spillErr = d.spillErr ∧
    (d.putMcAt k x).win = d.win ∧ (d.putMcAt k x).unitQ = d.unitQ ∧ (d.putMcAt k x).pend = d.pend ∧ (d.putMcAt k x).fab = d.fab ∧ (d.putMcAt k x).cap = d.cap ∧
    (d.putMcAt k x).capSel = d.capSel ∧ (d.putMcAt k x).scene = d.scene ∧ (d.putMcAt k x).layer = d.layer ∧ (d.putMcAt k x).cluster = d.cluster ∧
    (d.putMcAt k x).blit = d.blit ∧ (d.putMcAt k x).chan = d.chan ∧ (d.putMcAt k x).pipe = d.pipe ∧ (d.putMcAt k x).dec = d.dec ∧ (d.putMcAt k x).decPipe = d.decPipe ∧
    (d.putMcAt k x).decSel = d.decSel ∧ (d.putMcAt k x).twin = d.twin ∧ (d.putMcAt k x).flow = d.flow ∧ (d.putMcAt k x).pkgSel = d.pkgSel ∧
    (d.putMcAt k x).tmIn = d.tmIn ∧ (d.putMcAt k x).queue = d.queue ∧ (d.putMcAt k x).port = d.port ∧ (d.putMcAt k x).pol = d.pol ∧ (d.putMcAt k x).portSel = d.portSel ∧
    (d.putMcAt k x).qSel = d.qSel ∧ (d.putMcAt k x).polSel = d.polSel ∧ (d.putMcAt k x).group = d.group ∧ (d.putMcAt k x).lane = d.lane ∧ (d.putMcAt k x).casc = d.casc ∧
    (d.putMcAt k x).chk = d.chk ∧ (d.putMcAt k x).chkMode = d.chkMode ∧ (d.putMcAt k x).chkSel = d.chkSel ∧ (d.putMcAt k x).trust = d.trust ∧
    (d.putMcAt k x).prl = d.prl ∧ (d.putMcAt k x).mem = d.mem ∧ (d.putMcAt k x).memEra = d.memEra ∧ (d.putMcAt k x).poison = d.poison ∧ (d.putMcAt k x).out = d.out ∧
    (d.putMcAt k x).waiting = d.waiting ∧ (d.putMcAt k x).absent = d.absent ∧ (d.putMcAt k x).freeCtr = d.freeCtr := by
  refine ⟨?_, ?_, ?_, ?_, ?_, ?_, ?_, ?_, ?_, ?_, ?_, ?_, ?_, ?_, ?_, ?_, ?_, ?_, ?_, ?_, ?_, ?_, ?_, ?_, ?_, ?_, ?_, ?_, ?_, ?_, ?_, ?_, ?_, ?_, ?_, ?_, ?_, ?_, ?_, ?_, ?_, ?_, ?_, ?_, ?_, ?_, ?_, ?_, ?_, ?_⟩ <;> rfl
@[simp] theorem Dev.mcAt_putMcAt (d : Dev) (k : Nat) (x : Mc) : (d.putMcAt k x).mcAt k = x := Tab.get_put_same _ _ _ _
theorem Dev.mcAt_putMcAt_other (d : Dev) (x : Mc) {j k : Nat} (h : j ≠ k) : (d.putMcAt k x).mcAt j = d.mcAt j := Tab.get_put_other _ _ _ h
@[simp] theorem Dev.putMcAt_putMcAt (d : Dev) (k : Nat) (x y : Mc) : (d.putMcAt k x).putMcAt k y = d.putMcAt k y := by simp [Dev.putMcAt]
@[simp] theorem Dev.modMcAt_eq (d : Dev) (k : Nat) (f : Mc → Mc) : d.modMcAt k f = d.putMcAt k (f (d.mcAt k)) := rfl

@[simp] theorem Dev.putCheck_frame (d : Dev) (k : Nat) (x : Chk) :
    (d.putCheck k x).ctl = d.ctl ∧ (d.putCheck k x).tb = d.tb ∧ (d.putCheck k x).flt = d.flt ∧ (d.putCheck k x).hub = d.hub ∧ (d.putCheck k x).rings = d.rings ∧
    (d.putCheck k x).dsp = d.dsp ∧ (d.putCheck k x).thr = d.thr ∧ (d.putCheck k x).loc = d.loc ∧ (d.putCheck k x).locErr = d.locErr ∧
    (d.putCheck k x).spillErr = d.spillErr ∧ (d.putCheck k x).win = d.win ∧ (d.putCheck k x).unitQ = d.unitQ ∧ (d.putCheck k x).pend = d.pend ∧
    (d.putCheck k x).fab = d.fab ∧ (d.putCheck k x).cap = d.cap ∧ (d.putCheck k x).capSel = d.capSel ∧ (d.putCheck k x).scene = d.scene ∧
    (d.putCheck k x).layer = d.layer ∧ (d.putCheck k x).cluster = d.cluster ∧ (d.putCheck k x).blit = d.blit ∧ (d.putCheck k x).chan = d.chan ∧
    (d.putCheck k x).pipe = d.pipe ∧ (d.putCheck k x).dec = d.dec ∧ (d.putCheck k x).decPipe = d.decPipe ∧ (d.putCheck k x).decSel = d.decSel ∧
    (d.putCheck k x).twin = d.twin ∧ (d.putCheck k x).flow = d.flow ∧ (d.putCheck k x).pkgSel = d.pkgSel ∧ (d.putCheck k x).tmIn = d.tmIn ∧
    (d.putCheck k x).queue = d.queue ∧ (d.putCheck k x).port = d.port ∧ (d.putCheck k x).pol = d.pol ∧ (d.putCheck k x).portSel = d.portSel ∧
    (d.putCheck k x).qSel = d.qSel ∧ (d.putCheck k x).polSel = d.polSel ∧ (d.putCheck k x).group = d.group ∧ (d.putCheck k x).lane = d.lane ∧
    (d.putCheck k x).casc = d.casc ∧ (d.putCheck k x).mc = d.mc ∧ (d.putCheck k x).chkMode = d.chkMode ∧ (d.putCheck k x).chkSel = d.chkSel ∧
    (d.putCheck k x).trust = d.trust ∧ (d.putCheck k x).prl = d.prl ∧ (d.putCheck k x).mem = d.mem ∧ (d.putCheck k x).memEra = d.memEra ∧
    (d.putCheck k x).poison = d.poison ∧ (d.putCheck k x).out = d.out ∧ (d.putCheck k x).waiting = d.waiting ∧ (d.putCheck k x).absent = d.absent ∧
    (d.putCheck k x).freeCtr = d.freeCtr := by
  refine ⟨?_, ?_, ?_, ?_, ?_, ?_, ?_, ?_, ?_, ?_, ?_, ?_, ?_, ?_, ?_, ?_, ?_, ?_, ?_, ?_, ?_, ?_, ?_, ?_, ?_, ?_, ?_, ?_, ?_, ?_, ?_, ?_, ?_, ?_, ?_, ?_, ?_, ?_, ?_, ?_, ?_, ?_, ?_, ?_, ?_, ?_, ?_, ?_, ?_, ?_⟩ <;> rfl
@[simp] theorem Dev.check_putCheck (d : Dev) (k : Nat) (x : Chk) : (d.putCheck k x).check k = x := Tab.get_put_same _ _ _ _
theorem Dev.check_putCheck_other (d : Dev) (x : Chk) {j k : Nat} (h : j ≠ k) : (d.putCheck k x).check j = d.check j := Tab.get_put_other _ _ _ h
@[simp] theorem Dev.putCheck_putCheck (d : Dev) (k : Nat) (x y : Chk) : (d.putCheck k x).putCheck k y = d.putCheck k y := by simp [Dev.putCheck]
@[simp] theorem Dev.modCheck_eq (d : Dev) (k : Nat) (f : Chk → Chk) : d.modCheck k f = d.putCheck k (f (d.check k)) := rfl

@[simp] theorem Dev.putUnitQueue_frame (d : Dev) (k : Nat) (x : List Desc) :
    (d.putUnitQueue k x).ctl = d.ctl ∧ (d.putUnitQueue k x).tb = d.tb ∧ (d.putUnitQueue k x).flt = d.flt ∧ (d.putUnitQueue k x).hub = d.hub ∧
    (d.putUnitQueue k x).rings = d.rings ∧ (d.putUnitQueue k x).dsp = d.dsp ∧ (d.putUnitQueue k x).thr = d.thr ∧ (d.putUnitQueue k x).loc = d.loc ∧
    (d.putUnitQueue k x).locErr = d.locErr ∧ (d.putUnitQueue k x).spillErr = d.spillErr ∧ (d.putUnitQueue k x).win = d.win ∧ (d.putUnitQueue k x).pend = d.pend ∧
    (d.putUnitQueue k x).fab = d.fab ∧ (d.putUnitQueue k x).cap = d.cap ∧ (d.putUnitQueue k x).capSel = d.capSel ∧ (d.putUnitQueue k x).scene = d.scene ∧
    (d.putUnitQueue k x).layer = d.layer ∧ (d.putUnitQueue k x).cluster = d.cluster ∧ (d.putUnitQueue k x).blit = d.blit ∧ (d.putUnitQueue k x).chan = d.chan ∧
    (d.putUnitQueue k x).pipe = d.pipe ∧ (d.putUnitQueue k x).dec = d.dec ∧ (d.putUnitQueue k x).decPipe = d.decPipe ∧ (d.putUnitQueue k x).decSel = d.decSel ∧
    (d.putUnitQueue k x).twin = d.twin ∧ (d.putUnitQueue k x).flow = d.flow ∧ (d.putUnitQueue k x).pkgSel = d.pkgSel ∧ (d.putUnitQueue k x).tmIn = d.tmIn ∧
    (d.putUnitQueue k x).queue = d.queue ∧ (d.putUnitQueue k x).port = d.port ∧ (d.putUnitQueue k x).pol = d.pol ∧ (d.putUnitQueue k x).portSel = d.portSel ∧
    (d.putUnitQueue k x).qSel = d.qSel ∧ (d.putUnitQueue k x).polSel = d.polSel ∧ (d.putUnitQueue k x).group = d.group ∧ (d.putUnitQueue k x).lane = d.lane ∧
    (d.putUnitQueue k x).casc = d.casc ∧ (d.putUnitQueue k x).mc = d.mc ∧ (d.putUnitQueue k x).chk = d.chk ∧ (d.putUnitQueue k x).chkMode = d.chkMode ∧
    (d.putUnitQueue k x).chkSel = d.chkSel ∧ (d.putUnitQueue k x).trust = d.trust ∧ (d.putUnitQueue k x).prl = d.prl ∧ (d.putUnitQueue k x).mem = d.mem ∧
    (d.putUnitQueue k x).memEra = d.memEra ∧ (d.putUnitQueue k x).poison = d.poison ∧ (d.putUnitQueue k x).out = d.out ∧ (d.putUnitQueue k x).waiting = d.waiting ∧
    (d.putUnitQueue k x).absent = d.absent ∧ (d.putUnitQueue k x).freeCtr = d.freeCtr := by
  refine ⟨?_, ?_, ?_, ?_, ?_, ?_, ?_, ?_, ?_, ?_, ?_, ?_, ?_, ?_, ?_, ?_, ?_, ?_, ?_, ?_, ?_, ?_, ?_, ?_, ?_, ?_, ?_, ?_, ?_, ?_, ?_, ?_, ?_, ?_, ?_, ?_, ?_, ?_, ?_, ?_, ?_, ?_, ?_, ?_, ?_, ?_, ?_, ?_, ?_, ?_⟩ <;> rfl
@[simp] theorem Dev.unitQueue_putUnitQueue (d : Dev) (k : Nat) (x : List Desc) : (d.putUnitQueue k x).unitQueue k = x := Tab.get_put_same _ _ _ _
theorem Dev.unitQueue_putUnitQueue_other (d : Dev) (x : List Desc) {j k : Nat} (h : j ≠ k) : (d.putUnitQueue k x).unitQueue j = d.unitQueue j := Tab.get_put_other _ _ _ h
@[simp] theorem Dev.putUnitQueue_putUnitQueue (d : Dev) (k : Nat) (x y : List Desc) : (d.putUnitQueue k x).putUnitQueue k y = d.putUnitQueue k y := by simp [Dev.putUnitQueue]
@[simp] theorem Dev.modUnitQueue_eq (d : Dev) (k : Nat) (f : List Desc → List Desc) : d.modUnitQueue k f = d.putUnitQueue k (f (d.unitQueue k)) := rfl

end Sys2Proof.Machine
end

