-- ==== Sys2Proof/Laws/Frames.lean ====
section
/-! SUPPORT. What each shared operation of Machine/Ops.lean and Machine/Descr.lean leaves unchanged. -/

namespace Sys2Proof.Machine

/-- A field that every step of a fold leaves is left by the fold. -/
theorem foldl_proj {α β : Type} (g : Dev → β) {f : Dev → α → Dev} (hf : ∀ e a, g (f e a) = g e) (l : List α) : ∀ d : Dev, g (l.foldl f d) = g d := by
  induction l with
  | nil => exact fun _ => rfl
  | cons a l ih => exact fun d => (ih _).trans (hf d a)

@[simp] theorem Dev.emit_frame (d : Dev) (e : OutEv) :
    (Dev.emit d e).ctl = d.ctl ∧ (Dev.emit d e).tb = d.tb ∧ (Dev.emit d e).flt = d.flt ∧ (Dev.emit d e).hub = d.hub ∧ (Dev.emit d e).rings = d.rings ∧
    (Dev.emit d e).dsp = d.dsp ∧ (Dev.emit d e).thr = d.thr ∧ (Dev.emit d e).loc = d.loc ∧ (Dev.emit d e).locErr = d.locErr ∧ (Dev.emit d e).spillErr = d.spillErr ∧
    (Dev.emit d e).win = d.win ∧ (Dev.emit d e).unitQ = d.unitQ ∧ (Dev.emit d e).pend = d.pend ∧ (Dev.emit d e).fab = d.fab ∧ (Dev.emit d e).cap = d.cap ∧
    (Dev.emit d e).capSel = d.capSel ∧ (Dev.emit d e).scene = d.scene ∧ (Dev.emit d e).layer = d.layer ∧ (Dev.emit d e).cluster = d.cluster ∧
    (Dev.emit d e).blit = d.blit ∧ (Dev.emit d e).chan = d.chan ∧ (Dev.emit d e).pipe = d.pipe ∧ (Dev.emit d e).dec = d.dec ∧ (Dev.emit d e).decPipe = d.decPipe ∧
    (Dev.emit d e).decSel = d.decSel ∧ (Dev.emit d e).twin = d.twin ∧ (Dev.emit d e).flow = d.flow ∧ (Dev.emit d e).pkgSel = d.pkgSel ∧ (Dev.emit d e).tmIn = d.tmIn ∧
    (Dev.emit d e).queue = d.queue ∧ (Dev.emit d e).port = d.port ∧ (Dev.emit d e).pol = d.pol ∧ (Dev.emit d e).portSel = d.portSel ∧ (Dev.emit d e).qSel = d.qSel ∧
    (Dev.emit d e).polSel = d.polSel ∧ (Dev.emit d e).group = d.group ∧ (Dev.emit d e).lane = d.lane ∧ (Dev.emit d e).casc = d.casc ∧ (Dev.emit d e).mc = d.mc ∧
    (Dev.emit d e).chk = d.chk ∧ (Dev.emit d e).chkMode = d.chkMode ∧ (Dev.emit d e).chkSel = d.chkSel ∧ (Dev.emit d e).trust = d.trust ∧ (Dev.emit d e).prl = d.prl ∧
    (Dev.emit d e).mem = d.mem ∧ (Dev.emit d e).memEra = d.memEra ∧ (Dev.emit d e).poison = d.poison ∧ (Dev.emit d e).absent = d.absent ∧
    (Dev.emit d e).freeCtr = d.freeCtr := by
  unfold Dev.emit; (repeat' split) <;> simp

@[simp] theorem Dev.dropFrame_frame (d : Dev) (a : NetAddr) :
    (Dev.dropFrame d a).ctl = d.ctl ∧ (Dev.dropFrame d a).tb = d.tb ∧ (Dev.dropFrame d a).flt = d.flt ∧ (Dev.dropFrame d a).hub = d.hub ∧
    (Dev.dropFrame d a).rings = d.rings ∧ (Dev.dropFrame d a).dsp = d.dsp ∧ (Dev.dropFrame d a).thr = d.thr ∧ (Dev.dropFrame d a).loc = d.loc ∧
    (Dev.dropFrame d a).locErr = d.locErr ∧ (Dev.dropFrame d a).spillErr = d.spillErr ∧ (Dev.dropFrame d a).win = d.win ∧ (Dev.dropFrame d a).unitQ = d.unitQ ∧
    (Dev.dropFrame d a).pend = d.pend ∧ (Dev.dropFrame d a).fab = d.fab ∧ (Dev.dropFrame d a).cap = d.cap ∧ (Dev.dropFrame d a).capSel = d.capSel ∧
    (Dev.dropFrame d a).scene = d.scene ∧ (Dev.dropFrame d a).layer = d.layer ∧ (Dev.dropFrame d a).cluster = d.cluster ∧ (Dev.dropFrame d a).blit = d.blit ∧
    (Dev.dropFrame d a).chan = d.chan ∧ (Dev.dropFrame d a).pipe = d.pipe ∧ (Dev.dropFrame d a).dec = d.dec ∧ (Dev.dropFrame d a).decPipe = d.decPipe ∧
    (Dev.dropFrame d a).decSel = d.decSel ∧ (Dev.dropFrame d a).twin = d.twin ∧ (Dev.dropFrame d a).flow = d.flow ∧ (Dev.dropFrame d a).pkgSel = d.pkgSel ∧
    (Dev.dropFrame d a).tmIn = d.tmIn ∧ (Dev.dropFrame d a).queue = d.queue ∧ (Dev.dropFrame d a).port = d.port ∧ (Dev.dropFrame d a).pol = d.pol ∧
    (Dev.dropFrame d a).portSel = d.portSel ∧ (Dev.dropFrame d a).qSel = d.qSel ∧ (Dev.dropFrame d a).polSel = d.polSel ∧ (Dev.dropFrame d a).group = d.group ∧
    (Dev.dropFrame d a).lane = d.lane ∧ (Dev.dropFrame d a).casc = d.casc ∧ (Dev.dropFrame d a).mc = d.mc ∧ (Dev.dropFrame d a).chk = d.chk ∧
    (Dev.dropFrame d a).chkMode = d.chkMode ∧ (Dev.dropFrame d a).chkSel = d.chkSel ∧ (Dev.dropFrame d a).trust = d.trust ∧ (Dev.dropFrame d a).prl = d.prl ∧
    (Dev.dropFrame d a).mem = d.mem ∧ (Dev.dropFrame d a).memEra = d.memEra ∧ (Dev.dropFrame d a).poison = d.poison ∧ (Dev.dropFrame d a).out = d.out ∧
    (Dev.dropFrame d a).waiting = d.waiting ∧ (Dev.dropFrame d a).freeCtr = d.freeCtr := by
  simp [Dev.dropFrame]

@[simp] theorem Dev.serveLink_frame (d : Dev) (link : Nat) :
    (Dev.serveLink d link).ctl = d.ctl ∧ (Dev.serveLink d link).tb = d.tb ∧ (Dev.serveLink d link).flt = d.flt ∧ (Dev.serveLink d link).hub = d.hub ∧
    (Dev.serveLink d link).rings = d.rings ∧ (Dev.serveLink d link).dsp = d.dsp ∧ (Dev.serveLink d link).thr = d.thr ∧ (Dev.serveLink d link).loc = d.loc ∧
    (Dev.serveLink d link).locErr = d.locErr ∧ (Dev.serveLink d link).spillErr = d.spillErr ∧ (Dev.serveLink d link).win = d.win ∧
    (Dev.serveLink d link).unitQ = d.unitQ ∧ (Dev.serveLink d link).pend = d.pend ∧ (Dev.serveLink d link).fab = d.fab ∧ (Dev.serveLink d link).cap = d.cap ∧
    (Dev.serveLink d link).capSel = d.capSel ∧ (Dev.serveLink d link).scene = d.scene ∧ (Dev.serveLink d link).layer = d.layer ∧
    (Dev.serveLink d link).cluster = d.cluster ∧ (Dev.serveLink d link).blit = d.blit ∧ (Dev.serveLink d link).chan = d.chan ∧ (Dev.serveLink d link).pipe = d.pipe ∧
    (Dev.serveLink d link).dec = d.dec ∧ (Dev.serveLink d link).decPipe = d.decPipe ∧ (Dev.serveLink d link).decSel = d.decSel ∧ (Dev.serveLink d link).twin = d.twin ∧
    (Dev.serveLink d link).flow = d.flow ∧ (Dev.serveLink d link).pkgSel = d.pkgSel ∧ (Dev.serveLink d link).tmIn = d.tmIn ∧ (Dev.serveLink d link).queue = d.queue ∧
    (Dev.serveLink d link).port = d.port ∧ (Dev.serveLink d link).pol = d.pol ∧ (Dev.serveLink d link).portSel = d.portSel ∧ (Dev.serveLink d link).qSel = d.qSel ∧
    (Dev.serveLink d link).polSel = d.polSel ∧ (Dev.serveLink d link).group = d.group ∧ (Dev.serveLink d link).lane = d.lane ∧ (Dev.serveLink d link).casc = d.casc ∧
    (Dev.serveLink d link).mc = d.mc ∧ (Dev.serveLink d link).chk = d.chk ∧ (Dev.serveLink d link).chkMode = d.chkMode ∧ (Dev.serveLink d link).chkSel = d.chkSel ∧
    (Dev.serveLink d link).trust = d.trust ∧ (Dev.serveLink d link).prl = d.prl ∧ (Dev.serveLink d link).mem = d.mem ∧ (Dev.serveLink d link).memEra = d.memEra ∧
    (Dev.serveLink d link).poison = d.poison ∧ (Dev.serveLink d link).absent = d.absent ∧ (Dev.serveLink d link).freeCtr = d.freeCtr := by
  unfold Dev.serveLink; (repeat' split) <;> simp

@[simp] theorem Dev.serveTwin_frame (d : Dev) :
    (Dev.serveTwin d).ctl = d.ctl ∧ (Dev.serveTwin d).tb = d.tb ∧ (Dev.serveTwin d).flt = d.flt ∧ (Dev.serveTwin d).hub = d.hub ∧ (Dev.serveTwin d).rings = d.rings ∧
    (Dev.serveTwin d).dsp = d.dsp ∧ (Dev.serveTwin d).thr = d.thr ∧ (Dev.serveTwin d).loc = d.loc ∧ (Dev.serveTwin d).locErr = d.locErr ∧
    (Dev.serveTwin d).spillErr = d.spillErr ∧ (Dev.serveTwin d).win = d.win ∧ (Dev.serveTwin d).unitQ = d.unitQ ∧ (Dev.serveTwin d).pend = d.pend ∧
    (Dev.serveTwin d).fab = d.fab ∧ (Dev.serveTwin d).cap = d.cap ∧ (Dev.serveTwin d).capSel = d.capSel ∧ (Dev.serveTwin d).scene = d.scene ∧
    (Dev.serveTwin d).layer = d.layer ∧ (Dev.serveTwin d).cluster = d.cluster ∧ (Dev.serveTwin d).blit = d.blit ∧ (Dev.serveTwin d).chan = d.chan ∧
    (Dev.serveTwin d).pipe = d.pipe ∧ (Dev.serveTwin d).dec = d.dec ∧ (Dev.serveTwin d).decPipe = d.decPipe ∧ (Dev.serveTwin d).decSel = d.decSel ∧
    (Dev.serveTwin d).twin = d.twin ∧ (Dev.serveTwin d).flow = d.flow ∧ (Dev.serveTwin d).pkgSel = d.pkgSel ∧ (Dev.serveTwin d).tmIn = d.tmIn ∧
    (Dev.serveTwin d).queue = d.queue ∧ (Dev.serveTwin d).port = d.port ∧ (Dev.serveTwin d).pol = d.pol ∧ (Dev.serveTwin d).portSel = d.portSel ∧
    (Dev.serveTwin d).qSel = d.qSel ∧ (Dev.serveTwin d).polSel = d.polSel ∧ (Dev.serveTwin d).group = d.group ∧ (Dev.serveTwin d).lane = d.lane ∧
    (Dev.serveTwin d).casc = d.casc ∧ (Dev.serveTwin d).mc = d.mc ∧ (Dev.serveTwin d).chk = d.chk ∧ (Dev.serveTwin d).chkMode = d.chkMode ∧
    (Dev.serveTwin d).chkSel = d.chkSel ∧ (Dev.serveTwin d).trust = d.trust ∧ (Dev.serveTwin d).prl = d.prl ∧ (Dev.serveTwin d).mem = d.mem ∧
    (Dev.serveTwin d).memEra = d.memEra ∧ (Dev.serveTwin d).poison = d.poison ∧ (Dev.serveTwin d).absent = d.absent ∧ (Dev.serveTwin d).freeCtr = d.freeCtr := by
  unfold Dev.serveTwin; (repeat' split) <;> simp

@[simp] theorem Dev.raiseVector_frame (d : Dev) (fn : Nat) (vec : Nat) :
    (Dev.raiseVector d fn vec).ctl = d.ctl ∧ (Dev.raiseVector d fn vec).tb = d.tb ∧ (Dev.raiseVector d fn vec).flt = d.flt ∧ (Dev.raiseVector d fn vec).rings = d.rings ∧
    (Dev.raiseVector d fn vec).dsp = d.dsp ∧ (Dev.raiseVector d fn vec).thr = d.thr ∧ (Dev.raiseVector d fn vec).loc = d.loc ∧
    (Dev.raiseVector d fn vec).locErr = d.locErr ∧ (Dev.raiseVector d fn vec).spillErr = d.spillErr ∧ (Dev.raiseVector d fn vec).win = d.win ∧
    (Dev.raiseVector d fn vec).unitQ = d.unitQ ∧ (Dev.raiseVector d fn vec).pend = d.pend ∧ (Dev.raiseVector d fn vec).fab = d.fab ∧
    (Dev.raiseVector d fn vec).cap = d.cap ∧ (Dev.raiseVector d fn vec).capSel = d.capSel ∧ (Dev.raiseVector d fn vec).scene = d.scene ∧
    (Dev.raiseVector d fn vec).layer = d.layer ∧ (Dev.raiseVector d fn vec).cluster = d.cluster ∧ (Dev.raiseVector d fn vec).blit = d.blit ∧
    (Dev.raiseVector d fn vec).chan = d.chan ∧ (Dev.raiseVector d fn vec).pipe = d.pipe ∧ (Dev.raiseVector d fn vec).dec = d.dec ∧
    (Dev.raiseVector d fn vec).decPipe = d.decPipe ∧ (Dev.raiseVector d fn vec).decSel = d.decSel ∧ (Dev.raiseVector d fn vec).twin = d.twin ∧
    (Dev.raiseVector d fn vec).flow = d.flow ∧ (Dev.raiseVector d fn vec).pkgSel = d.pkgSel ∧ (Dev.raiseVector d fn vec).tmIn = d.tmIn ∧
    (Dev.raiseVector d fn vec).queue = d.queue ∧ (Dev.raiseVector d fn vec).port = d.port ∧ (Dev.raiseVector d fn vec).pol = d.pol ∧
    (Dev.raiseVector d fn vec).portSel = d.portSel ∧ (Dev.raiseVector d fn vec).qSel = d.qSel ∧ (Dev.raiseVector d fn vec).polSel = d.polSel ∧
    (Dev.raiseVector d fn vec).group = d.group ∧ (Dev.raiseVector d fn vec).lane = d.lane ∧ (Dev.raiseVector d fn vec).casc = d.casc ∧
    (Dev.raiseVector d fn vec).mc = d.mc ∧ (Dev.raiseVector d fn vec).chk = d.chk ∧ (Dev.raiseVector d fn vec).chkMode = d.chkMode ∧
    (Dev.raiseVector d fn vec).chkSel = d.chkSel ∧ (Dev.raiseVector d fn vec).trust = d.trust ∧ (Dev.raiseVector d fn vec).prl = d.prl ∧
    (Dev.raiseVector d fn vec).mem = d.mem ∧ (Dev.raiseVector d fn vec).memEra = d.memEra ∧ (Dev.raiseVector d fn vec).poison = d.poison ∧
    (Dev.raiseVector d fn vec).absent = d.absent ∧ (Dev.raiseVector d fn vec).freeCtr = d.freeCtr := by
  unfold Dev.raiseVector; (repeat' split) <;> simp

@[simp] theorem Dev.memWrite_frame (d : Dev) (a : Nat) (bs : List Byte) :
    (Dev.memWrite d a bs).ctl = d.ctl ∧ (Dev.memWrite d a bs).tb = d.tb ∧ (Dev.memWrite d a bs).flt = d.flt ∧ (Dev.memWrite d a bs).hub = d.hub ∧
    (Dev.memWrite d a bs).rings = d.rings ∧ (Dev.memWrite d a bs).dsp = d.dsp ∧ (Dev.memWrite d a bs).thr = d.thr ∧ (Dev.memWrite d a bs).loc = d.loc ∧
    (Dev.memWrite d a bs).locErr = d.locErr ∧ (Dev.memWrite d a bs).spillErr = d.spillErr ∧ (Dev.memWrite d a bs).win = d.win ∧ (Dev.memWrite d a bs).unitQ = d.unitQ ∧
    (Dev.memWrite d a bs).pend = d.pend ∧ (Dev.memWrite d a bs).fab = d.fab ∧ (Dev.memWrite d a bs).cap = d.cap ∧ (Dev.memWrite d a bs).capSel = d.capSel ∧
    (Dev.memWrite d a bs).scene = d.scene ∧ (Dev.memWrite d a bs).layer = d.layer ∧ (Dev.memWrite d a bs).cluster = d.cluster ∧ (Dev.memWrite d a bs).blit = d.blit ∧
    (Dev.memWrite d a bs).chan = d.chan ∧ (Dev.memWrite d a bs).pipe = d.pipe ∧ (Dev.memWrite d a bs).dec = d.dec ∧ (Dev.memWrite d a bs).decPipe = d.decPipe ∧
    (Dev.memWrite d a bs).decSel = d.decSel ∧ (Dev.memWrite d a bs).twin = d.twin ∧ (Dev.memWrite d a bs).flow = d.flow ∧ (Dev.memWrite d a bs).pkgSel = d.pkgSel ∧
    (Dev.memWrite d a bs).tmIn = d.tmIn ∧ (Dev.memWrite d a bs).queue = d.queue ∧ (Dev.memWrite d a bs).port = d.port ∧ (Dev.memWrite d a bs).pol = d.pol ∧
    (Dev.memWrite d a bs).portSel = d.portSel ∧ (Dev.memWrite d a bs).qSel = d.qSel ∧ (Dev.memWrite d a bs).polSel = d.polSel ∧ (Dev.memWrite d a bs).group = d.group ∧
    (Dev.memWrite d a bs).lane = d.lane ∧ (Dev.memWrite d a bs).casc = d.casc ∧ (Dev.memWrite d a bs).mc = d.mc ∧ (Dev.memWrite d a bs).chk = d.chk ∧
    (Dev.memWrite d a bs).chkMode = d.chkMode ∧ (Dev.memWrite d a bs).chkSel = d.chkSel ∧ (Dev.memWrite d a bs).trust = d.trust ∧ (Dev.memWrite d a bs).prl = d.prl ∧
    (Dev.memWrite d a bs).memEra = d.memEra ∧ (Dev.memWrite d a bs).out = d.out ∧ (Dev.memWrite d a bs).waiting = d.waiting ∧ (Dev.memWrite d a bs).absent = d.absent ∧
    (Dev.memWrite d a bs).freeCtr = d.freeCtr := by
  unfold Dev.memWrite; (repeat' split) <;> simp

@[simp] theorem Dev.freePkts_ctl (d : Dev) (ps : List Packet) : (Dev.freePkts d ps).ctl = d.ctl := by
  unfold Dev.freePkts; refine foldl_proj Dev.ctl (fun e a => ?_) _ _; simp
@[simp] theorem Dev.freePkts_tb (d : Dev) (ps : List Packet) : (Dev.freePkts d ps).tb = d.tb := by
  unfold Dev.freePkts; refine foldl_proj Dev.tb (fun e a => ?_) _ _; simp
@[simp] theorem Dev.freePkts_flt (d : Dev) (ps : List Packet) : (Dev.freePkts d ps).flt = d.flt := by
  unfold Dev.freePkts; refine foldl_proj Dev.flt (fun e a => ?_) _ _; simp
@[simp] theorem Dev.freePkts_hub (d : Dev) (ps : List Packet) : (Dev.freePkts d ps).hub = d.hub := by
  unfold Dev.freePkts; refine foldl_proj Dev.hub (fun e a => ?_) _ _; simp
@[simp] theorem Dev.freePkts_rings (d : Dev) (ps : List Packet) : (Dev.freePkts d ps).rings = d.rings := by
  unfold Dev.freePkts; refine foldl_proj Dev.rings (fun e a => ?_) _ _; simp
@[simp] theorem Dev.freePkts_dsp (d : Dev) (ps : List Packet) : (Dev.freePkts d ps).dsp = d.dsp := by
  unfold Dev.freePkts; refine foldl_proj Dev.dsp (fun e a => ?_) _ _; simp
@[simp] theorem Dev.freePkts_thr (d : Dev) (ps : List Packet) : (Dev.freePkts d ps).thr = d.thr := by
  unfold Dev.freePkts; refine foldl_proj Dev.thr (fun e a => ?_) _ _; simp
@[simp] theorem Dev.freePkts_loc (d : Dev) (ps : List Packet) : (Dev.freePkts d ps).loc = d.loc := by
  unfold Dev.freePkts; refine foldl_proj Dev.loc (fun e a => ?_) _ _; simp
@[simp] theorem Dev.freePkts_locErr (d : Dev) (ps : List Packet) : (Dev.freePkts d ps).locErr = d.locErr := by
  unfold Dev.freePkts; refine foldl_proj Dev.locErr (fun e a => ?_) _ _; simp
@[simp] theorem Dev.freePkts_spillErr (d : Dev) (ps : List Packet) : (Dev.freePkts d ps).spillErr = d.spillErr := by
  unfold Dev.freePkts; refine foldl_proj Dev.spillErr (fun e a => ?_) _ _; simp
@[simp] theorem Dev.freePkts_win (d : Dev) (ps : List Packet) : (Dev.freePkts d ps).win = d.win := by
  unfold Dev.freePkts; refine foldl_proj Dev.win (fun e a => ?_) _ _; simp
@[simp] theorem Dev.freePkts_unitQ (d : Dev) (ps : List Packet) : (Dev.freePkts d ps).unitQ = d.unitQ := by
  unfold Dev.freePkts; refine foldl_proj Dev.unitQ (fun e a => ?_) _ _; simp
@[simp] theorem Dev.freePkts_pend (d : Dev) (ps : List Packet) : (Dev.freePkts d ps).pend = d.pend := by
  unfold Dev.freePkts; refine foldl_proj Dev.pend (fun e a => ?_) _ _; simp
@[simp] theorem Dev.freePkts_fab (d : Dev) (ps : List Packet) : (Dev.freePkts d ps).fab = d.fab := by
  unfold Dev.freePkts; refine foldl_proj Dev.fab (fun e a => ?_) _ _; simp
@[simp] theorem Dev.freePkts_cap (d : Dev) (ps : List Packet) : (Dev.freePkts d ps).cap = d.cap := by
  unfold Dev.freePkts; refine foldl_proj Dev.cap (fun e a => ?_) _ _; simp
@[simp] theorem Dev.freePkts_capSel (d : Dev) (ps : List Packet) : (Dev.freePkts d ps).capSel = d.capSel := by
  unfold Dev.freePkts; refine foldl_proj Dev.capSel (fun e a => ?_) _ _; simp
@[simp] theorem Dev.freePkts_scene (d : Dev) (ps : List Packet) : (Dev.freePkts d ps).scene = d.scene := by
  unfold Dev.freePkts; refine foldl_proj Dev.scene (fun e a => ?_) _ _; simp
@[simp] theorem Dev.freePkts_layer (d : Dev) (ps : List Packet) : (Dev.freePkts d ps).layer = d.layer := by
  unfold Dev.freePkts; refine foldl_proj Dev.layer (fun e a => ?_) _ _; simp
@[simp] theorem Dev.freePkts_cluster (d : Dev) (ps : List Packet) : (Dev.freePkts d ps).cluster = d.cluster := by
  unfold Dev.freePkts; refine foldl_proj Dev.cluster (fun e a => ?_) _ _; simp
@[simp] theorem Dev.freePkts_blit (d : Dev) (ps : List Packet) : (Dev.freePkts d ps).blit = d.blit := by
  unfold Dev.freePkts; refine foldl_proj Dev.blit (fun e a => ?_) _ _; simp
@[simp] theorem Dev.freePkts_chan (d : Dev) (ps : List Packet) : (Dev.freePkts d ps).chan = d.chan := by
  unfold Dev.freePkts; refine foldl_proj Dev.chan (fun e a => ?_) _ _; simp
@[simp] theorem Dev.freePkts_pipe (d : Dev) (ps : List Packet) : (Dev.freePkts d ps).pipe = d.pipe := by
  unfold Dev.freePkts; refine foldl_proj Dev.pipe (fun e a => ?_) _ _; simp
@[simp] theorem Dev.freePkts_dec (d : Dev) (ps : List Packet) : (Dev.freePkts d ps).dec = d.dec := by
  unfold Dev.freePkts; refine foldl_proj Dev.dec (fun e a => ?_) _ _; simp
@[simp] theorem Dev.freePkts_decPipe (d : Dev) (ps : List Packet) : (Dev.freePkts d ps).decPipe = d.decPipe := by
  unfold Dev.freePkts; refine foldl_proj Dev.decPipe (fun e a => ?_) _ _; simp
@[simp] theorem Dev.freePkts_decSel (d : Dev) (ps : List Packet) : (Dev.freePkts d ps).decSel = d.decSel := by
  unfold Dev.freePkts; refine foldl_proj Dev.decSel (fun e a => ?_) _ _; simp
@[simp] theorem Dev.freePkts_twin (d : Dev) (ps : List Packet) : (Dev.freePkts d ps).twin = d.twin := by
  unfold Dev.freePkts; refine foldl_proj Dev.twin (fun e a => ?_) _ _; simp
@[simp] theorem Dev.freePkts_pkgSel (d : Dev) (ps : List Packet) : (Dev.freePkts d ps).pkgSel = d.pkgSel := by
  unfold Dev.freePkts; refine foldl_proj Dev.pkgSel (fun e a => ?_) _ _; simp
@[simp] theorem Dev.freePkts_tmIn (d : Dev) (ps : List Packet) : (Dev.freePkts d ps).tmIn = d.tmIn := by
  unfold Dev.freePkts; refine foldl_proj Dev.tmIn (fun e a => ?_) _ _; simp
@[simp] theorem Dev.freePkts_queue (d : Dev) (ps : List Packet) : (Dev.freePkts d ps).queue = d.queue := by
  unfold Dev.freePkts; refine foldl_proj Dev.queue (fun e a => ?_) _ _; simp
@[simp] theorem Dev.freePkts_port (d : Dev) (ps : List Packet) : (Dev.freePkts d ps).port = d.port := by
  unfold Dev.freePkts; refine foldl_proj Dev.port (fun e a => ?_) _ _; simp
@[simp] theorem Dev.freePkts_pol (d : Dev) (ps : List Packet) : (Dev.freePkts d ps).pol = d.pol := by
  unfold Dev.freePkts; refine foldl_proj Dev.pol (fun e a => ?_) _ _; simp
@[simp] theorem Dev.freePkts_portSel (d : Dev) (ps : List Packet) : (Dev.freePkts d ps).portSel = d.portSel := by
  unfold Dev.freePkts; refine foldl_proj Dev.portSel (fun e a => ?_) _ _; simp
@[simp] theorem Dev.freePkts_qSel (d : Dev) (ps : List Packet) : (Dev.freePkts d ps).qSel = d.qSel := by
  unfold Dev.freePkts; refine foldl_proj Dev.qSel (fun e a => ?_) _ _; simp
@[simp] theorem Dev.freePkts_polSel (d : Dev) (ps : List Packet) : (Dev.freePkts d ps).polSel = d.polSel := by
  unfold Dev.freePkts; refine foldl_proj Dev.polSel (fun e a => ?_) _ _; simp
@[simp] theorem Dev.freePkts_group (d : Dev) (ps : List Packet) : (Dev.freePkts d ps).group = d.group := by
  unfold Dev.freePkts; refine foldl_proj Dev.group (fun e a => ?_) _ _; simp
@[simp] theorem Dev.freePkts_lane (d : Dev) (ps : List Packet) : (Dev.freePkts d ps).lane = d.lane := by
  unfold Dev.freePkts; refine foldl_proj Dev.lane (fun e a => ?_) _ _; simp
@[simp] theorem Dev.freePkts_casc (d : Dev) (ps : List Packet) : (Dev.freePkts d ps).casc = d.casc := by
  unfold Dev.freePkts; refine foldl_proj Dev.casc (fun e a => ?_) _ _; simp
@[simp] theorem Dev.freePkts_mc (d : Dev) (ps : List Packet) : (Dev.freePkts d ps).mc = d.mc := by
  unfold Dev.freePkts; refine foldl_proj Dev.mc (fun e a => ?_) _ _; simp
@[simp] theorem Dev.freePkts_chk (d : Dev) (ps : List Packet) : (Dev.freePkts d ps).chk = d.chk := by
  unfold Dev.freePkts; refine foldl_proj Dev.chk (fun e a => ?_) _ _; simp
@[simp] theorem Dev.freePkts_chkMode (d : Dev) (ps : List Packet) : (Dev.freePkts d ps).chkMode = d.chkMode := by
  unfold Dev.freePkts; refine foldl_proj Dev.chkMode (fun e a => ?_) _ _; simp
@[simp] theorem Dev.freePkts_chkSel (d : Dev) (ps : List Packet) : (Dev.freePkts d ps).chkSel = d.chkSel := by
  unfold Dev.freePkts; refine foldl_proj Dev.chkSel (fun e a => ?_) _ _; simp
@[simp] theorem Dev.freePkts_trust (d : Dev) (ps : List Packet) : (Dev.freePkts d ps).trust = d.trust := by
  unfold Dev.freePkts; refine foldl_proj Dev.trust (fun e a => ?_) _ _; simp
@[simp] theorem Dev.freePkts_prl (d : Dev) (ps : List Packet) : (Dev.freePkts d ps).prl = d.prl := by
  unfold Dev.freePkts; refine foldl_proj Dev.prl (fun e a => ?_) _ _; simp
@[simp] theorem Dev.freePkts_mem (d : Dev) (ps : List Packet) : (Dev.freePkts d ps).mem = d.mem := by
  unfold Dev.freePkts; refine foldl_proj Dev.mem (fun e a => ?_) _ _; simp
@[simp] theorem Dev.freePkts_memEra (d : Dev) (ps : List Packet) : (Dev.freePkts d ps).memEra = d.memEra := by
  unfold Dev.freePkts; refine foldl_proj Dev.memEra (fun e a => ?_) _ _; simp
@[simp] theorem Dev.freePkts_poison (d : Dev) (ps : List Packet) : (Dev.freePkts d ps).poison = d.poison := by
  unfold Dev.freePkts; refine foldl_proj Dev.poison (fun e a => ?_) _ _; simp
@[simp] theorem Dev.freePkts_out (d : Dev) (ps : List Packet) : (Dev.freePkts d ps).out = d.out := by
  unfold Dev.freePkts; refine foldl_proj Dev.out (fun e a => ?_) _ _; simp
@[simp] theorem Dev.freePkts_waiting (d : Dev) (ps : List Packet) : (Dev.freePkts d ps).waiting = d.waiting := by
  unfold Dev.freePkts; refine foldl_proj Dev.waiting (fun e a => ?_) _ _; simp
@[simp] theorem Dev.freePkts_absent (d : Dev) (ps : List Packet) : (Dev.freePkts d ps).absent = d.absent := by
  unfold Dev.freePkts; refine foldl_proj Dev.absent (fun e a => ?_) _ _; simp
@[simp] theorem Dev.freePkts_freeCtr (d : Dev) (ps : List Packet) : (Dev.freePkts d ps).freeCtr = d.freeCtr := by
  unfold Dev.freePkts; refine foldl_proj Dev.freeCtr (fun e a => ?_) _ _; simp

@[simp] theorem Dev.discardQueues_frame (d : Dev) (sel : Queue → Bool) :
    (Dev.discardQueues d sel).ctl = d.ctl ∧ (Dev.discardQueues d sel).tb = d.tb ∧ (Dev.discardQueues d sel).flt = d.flt ∧ (Dev.discardQueues d sel).hub = d.hub ∧
    (Dev.discardQueues d sel).rings = d.rings ∧ (Dev.discardQueues d sel).dsp = d.dsp ∧ (Dev.discardQueues d sel).thr = d.thr ∧ (Dev.discardQueues d sel).loc = d.loc ∧
    (Dev.discardQueues d sel).locErr = d.locErr ∧ (Dev.discardQueues d sel).spillErr = d.spillErr ∧ (Dev.discardQueues d sel).win = d.win ∧
    (Dev.discardQueues d sel).unitQ = d.unitQ ∧ (Dev.discardQueues d sel).pend = d.pend ∧ (Dev.discardQueues d sel).fab = d.fab ∧ (Dev.discardQueues d sel).cap = d.cap ∧
    (Dev.discardQueues d sel).capSel = d.capSel ∧ (Dev.discardQueues d sel).scene = d.scene ∧ (Dev.discardQueues d sel).layer = d.layer ∧
    (Dev.discardQueues d sel).cluster = d.cluster ∧ (Dev.discardQueues d sel).blit = d.blit ∧ (Dev.discardQueues d sel).chan = d.chan ∧
    (Dev.discardQueues d sel).pipe = d.pipe ∧ (Dev.discardQueues d sel).dec = d.dec ∧ (Dev.discardQueues d sel).decPipe = d.decPipe ∧
    (Dev.discardQueues d sel).decSel = d.decSel ∧ (Dev.discardQueues d sel).twin = d.twin ∧ (Dev.discardQueues d sel).pkgSel = d.pkgSel ∧
    (Dev.discardQueues d sel).tmIn = d.tmIn ∧ (Dev.discardQueues d sel).port = d.port ∧ (Dev.discardQueues d sel).pol = d.pol ∧
    (Dev.discardQueues d sel).portSel = d.portSel ∧ (Dev.discardQueues d sel).qSel = d.qSel ∧ (Dev.discardQueues d sel).polSel = d.polSel ∧
    (Dev.discardQueues d sel).group = d.group ∧ (Dev.discardQueues d sel).lane = d.lane ∧ (Dev.discardQueues d sel).casc = d.casc ∧ (Dev.discardQueues d sel).mc = d.mc ∧
    (Dev.discardQueues d sel).chk = d.chk ∧ (Dev.discardQueues d sel).chkMode = d.chkMode ∧ (Dev.discardQueues d sel).chkSel = d.chkSel ∧
    (Dev.discardQueues d sel).trust = d.trust ∧ (Dev.discardQueues d sel).prl = d.prl ∧ (Dev.discardQueues d sel).mem = d.mem ∧
    (Dev.discardQueues d sel).memEra = d.memEra ∧ (Dev.discardQueues d sel).poison = d.poison ∧ (Dev.discardQueues d sel).out = d.out ∧
    (Dev.discardQueues d sel).waiting = d.waiting ∧ (Dev.discardQueues d sel).absent = d.absent ∧ (Dev.discardQueues d sel).freeCtr = d.freeCtr := by
  simp [Dev.discardQueues]

@[simp] theorem Dev.cascPut_frame (d : Dev) (ringB : Bool) (fr : CascFrame) :
    (Dev.cascPut d ringB fr).ctl = d.ctl ∧ (Dev.cascPut d ringB fr).tb = d.tb ∧ (Dev.cascPut d ringB fr).flt = d.flt ∧ (Dev.cascPut d ringB fr).hub = d.hub ∧
    (Dev.cascPut d ringB fr).rings = d.rings ∧ (Dev.cascPut d ringB fr).dsp = d.dsp ∧ (Dev.cascPut d ringB fr).thr = d.thr ∧ (Dev.cascPut d ringB fr).loc = d.loc ∧
    (Dev.cascPut d ringB fr).locErr = d.locErr ∧ (Dev.cascPut d ringB fr).spillErr = d.spillErr ∧ (Dev.cascPut d ringB fr).win = d.win ∧
    (Dev.cascPut d ringB fr).unitQ = d.unitQ ∧ (Dev.cascPut d ringB fr).pend = d.pend ∧ (Dev.cascPut d ringB fr).fab = d.fab ∧ (Dev.cascPut d ringB fr).cap = d.cap ∧
    (Dev.cascPut d ringB fr).capSel = d.capSel ∧ (Dev.cascPut d ringB fr).scene = d.scene ∧ (Dev.cascPut d ringB fr).layer = d.layer ∧
    (Dev.cascPut d ringB fr).cluster = d.cluster ∧ (Dev.cascPut d ringB fr).blit = d.blit ∧ (Dev.cascPut d ringB fr).chan = d.chan ∧
    (Dev.cascPut d ringB fr).pipe = d.pipe ∧ (Dev.cascPut d ringB fr).dec = d.dec ∧ (Dev.cascPut d ringB fr).decPipe = d.decPipe ∧
    (Dev.cascPut d ringB fr).decSel = d.decSel ∧ (Dev.cascPut d ringB fr).twin = d.twin ∧ (Dev.cascPut d ringB fr).flow = d.flow ∧
    (Dev.cascPut d ringB fr).pkgSel = d.pkgSel ∧ (Dev.cascPut d ringB fr).tmIn = d.tmIn ∧ (Dev.cascPut d ringB fr).queue = d.queue ∧
    (Dev.cascPut d ringB fr).port = d.port ∧ (Dev.cascPut d ringB fr).pol = d.pol ∧ (Dev.cascPut d ringB fr).portSel = d.portSel ∧
    (Dev.cascPut d ringB fr).qSel = d.qSel ∧ (Dev.cascPut d ringB fr).polSel = d.polSel ∧ (Dev.cascPut d ringB fr).group = d.group ∧
    (Dev.cascPut d ringB fr).lane = d.lane ∧ (Dev.cascPut d ringB fr).casc = d.casc ∧ (Dev.cascPut d ringB fr).mc = d.mc ∧ (Dev.cascPut d ringB fr).chk = d.chk ∧
    (Dev.cascPut d ringB fr).chkMode = d.chkMode ∧ (Dev.cascPut d ringB fr).chkSel = d.chkSel ∧ (Dev.cascPut d ringB fr).trust = d.trust ∧
    (Dev.cascPut d ringB fr).prl = d.prl ∧ (Dev.cascPut d ringB fr).mem = d.mem ∧ (Dev.cascPut d ringB fr).memEra = d.memEra ∧
    (Dev.cascPut d ringB fr).poison = d.poison ∧ (Dev.cascPut d ringB fr).absent = d.absent ∧ (Dev.cascPut d ringB fr).freeCtr = d.freeCtr := by
  unfold Dev.cascPut; (repeat' split) <;> simp

@[simp] theorem Dev.broadcast_frame (d : Dev) :
    (Dev.broadcast d).ctl = d.ctl ∧ (Dev.broadcast d).tb = d.tb ∧ (Dev.broadcast d).flt = d.flt ∧ (Dev.broadcast d).hub = d.hub ∧ (Dev.broadcast d).rings = d.rings ∧
    (Dev.broadcast d).dsp = d.dsp ∧ (Dev.broadcast d).thr = d.thr ∧ (Dev.broadcast d).loc = d.loc ∧ (Dev.broadcast d).locErr = d.locErr ∧
    (Dev.broadcast d).spillErr = d.spillErr ∧ (Dev.broadcast d).win = d.win ∧ (Dev.broadcast d).unitQ = d.unitQ ∧ (Dev.broadcast d).pend = d.pend ∧
    (Dev.broadcast d).fab = d.fab ∧ (Dev.broadcast d).cap = d.cap ∧ (Dev.broadcast d).capSel = d.capSel ∧ (Dev.broadcast d).scene = d.scene ∧
    (Dev.broadcast d).layer = d.layer ∧ (Dev.broadcast d).cluster = d.cluster ∧ (Dev.broadcast d).blit = d.blit ∧ (Dev.broadcast d).chan = d.chan ∧
    (Dev.broadcast d).pipe = d.pipe ∧ (Dev.broadcast d).dec = d.dec ∧ (Dev.broadcast d).decPipe = d.decPipe ∧ (Dev.broadcast d).decSel = d.decSel ∧
    (Dev.broadcast d).twin = d.twin ∧ (Dev.broadcast d).flow = d.flow ∧ (Dev.broadcast d).pkgSel = d.pkgSel ∧ (Dev.broadcast d).tmIn = d.tmIn ∧
    (Dev.broadcast d).queue = d.queue ∧ (Dev.broadcast d).port = d.port ∧ (Dev.broadcast d).pol = d.pol ∧ (Dev.broadcast d).portSel = d.portSel ∧
    (Dev.broadcast d).qSel = d.qSel ∧ (Dev.broadcast d).polSel = d.polSel ∧ (Dev.broadcast d).group = d.group ∧ (Dev.broadcast d).lane = d.lane ∧
    (Dev.broadcast d).casc = d.casc ∧ (Dev.broadcast d).mc = d.mc ∧ (Dev.broadcast d).chk = d.chk ∧ (Dev.broadcast d).chkMode = d.chkMode ∧
    (Dev.broadcast d).chkSel = d.chkSel ∧ (Dev.broadcast d).trust = d.trust ∧ (Dev.broadcast d).prl = d.prl ∧ (Dev.broadcast d).mem = d.mem ∧
    (Dev.broadcast d).memEra = d.memEra ∧ (Dev.broadcast d).poison = d.poison ∧ (Dev.broadcast d).absent = d.absent ∧ (Dev.broadcast d).freeCtr = d.freeCtr := by
  simp [Dev.broadcast]

@[simp] theorem Dev.sendHello_frame (d : Dev) :
    (Dev.sendHello d).ctl = d.ctl ∧ (Dev.sendHello d).tb = d.tb ∧ (Dev.sendHello d).flt = d.flt ∧ (Dev.sendHello d).hub = d.hub ∧ (Dev.sendHello d).rings = d.rings ∧
    (Dev.sendHello d).dsp = d.dsp ∧ (Dev.sendHello d).thr = d.thr ∧ (Dev.sendHello d).loc = d.loc ∧ (Dev.sendHello d).locErr = d.locErr ∧
    (Dev.sendHello d).spillErr = d.spillErr ∧ (Dev.sendHello d).win = d.win ∧ (Dev.sendHello d).unitQ = d.unitQ ∧ (Dev.sendHello d).pend = d.pend ∧
    (Dev.sendHello d).fab = d.fab ∧ (Dev.sendHello d).cap = d.cap ∧ (Dev.sendHello d).capSel = d.capSel ∧ (Dev.sendHello d).scene = d.scene ∧
    (Dev.sendHello d).layer = d.layer ∧ (Dev.sendHello d).cluster = d.cluster ∧ (Dev.sendHello d).blit = d.blit ∧ (Dev.sendHello d).chan = d.chan ∧
    (Dev.sendHello d).pipe = d.pipe ∧ (Dev.sendHello d).dec = d.dec ∧ (Dev.sendHello d).decPipe = d.decPipe ∧ (Dev.sendHello d).decSel = d.decSel ∧
    (Dev.sendHello d).twin = d.twin ∧ (Dev.sendHello d).flow = d.flow ∧ (Dev.sendHello d).pkgSel = d.pkgSel ∧ (Dev.sendHello d).tmIn = d.tmIn ∧
    (Dev.sendHello d).queue = d.queue ∧ (Dev.sendHello d).port = d.port ∧ (Dev.sendHello d).pol = d.pol ∧ (Dev.sendHello d).portSel = d.portSel ∧
    (Dev.sendHello d).qSel = d.qSel ∧ (Dev.sendHello d).polSel = d.polSel ∧ (Dev.sendHello d).group = d.group ∧ (Dev.sendHello d).lane = d.lane ∧
    (Dev.sendHello d).casc = d.casc ∧ (Dev.sendHello d).mc = d.mc ∧ (Dev.sendHello d).chk = d.chk ∧ (Dev.sendHello d).chkMode = d.chkMode ∧
    (Dev.sendHello d).chkSel = d.chkSel ∧ (Dev.sendHello d).trust = d.trust ∧ (Dev.sendHello d).prl = d.prl ∧ (Dev.sendHello d).mem = d.mem ∧
    (Dev.sendHello d).memEra = d.memEra ∧ (Dev.sendHello d).poison = d.poison ∧ (Dev.sendHello d).absent = d.absent ∧ (Dev.sendHello d).freeCtr = d.freeCtr := by
  simp [Dev.sendHello]

@[simp] theorem Dev.updateBypass_frame (d : Dev) :
    (Dev.updateBypass d).ctl = d.ctl ∧ (Dev.updateBypass d).tb = d.tb ∧ (Dev.updateBypass d).hub = d.hub ∧ (Dev.updateBypass d).rings = d.rings ∧
    (Dev.updateBypass d).dsp = d.dsp ∧ (Dev.updateBypass d).thr = d.thr ∧ (Dev.updateBypass d).loc = d.loc ∧ (Dev.updateBypass d).locErr = d.locErr ∧
    (Dev.updateBypass d).spillErr = d.spillErr ∧ (Dev.updateBypass d).win = d.win ∧ (Dev.updateBypass d).unitQ = d.unitQ ∧ (Dev.updateBypass d).pend = d.pend ∧
    (Dev.updateBypass d).fab = d.fab ∧ (Dev.updateBypass d).cap = d.cap ∧ (Dev.updateBypass d).capSel = d.capSel ∧ (Dev.updateBypass d).scene = d.scene ∧
    (Dev.updateBypass d).layer = d.layer ∧ (Dev.updateBypass d).cluster = d.cluster ∧ (Dev.updateBypass d).blit = d.blit ∧ (Dev.updateBypass d).chan = d.chan ∧
    (Dev.updateBypass d).pipe = d.pipe ∧ (Dev.updateBypass d).dec = d.dec ∧ (Dev.updateBypass d).decPipe = d.decPipe ∧ (Dev.updateBypass d).decSel = d.decSel ∧
    (Dev.updateBypass d).twin = d.twin ∧ (Dev.updateBypass d).flow = d.flow ∧ (Dev.updateBypass d).pkgSel = d.pkgSel ∧ (Dev.updateBypass d).tmIn = d.tmIn ∧
    (Dev.updateBypass d).queue = d.queue ∧ (Dev.updateBypass d).port = d.port ∧ (Dev.updateBypass d).pol = d.pol ∧ (Dev.updateBypass d).portSel = d.portSel ∧
    (Dev.updateBypass d).qSel = d.qSel ∧ (Dev.updateBypass d).polSel = d.polSel ∧ (Dev.updateBypass d).group = d.group ∧ (Dev.updateBypass d).lane = d.lane ∧
    (Dev.updateBypass d).mc = d.mc ∧ (Dev.updateBypass d).chk = d.chk ∧ (Dev.updateBypass d).chkMode = d.chkMode ∧ (Dev.updateBypass d).chkSel = d.chkSel ∧
    (Dev.updateBypass d).trust = d.trust ∧ (Dev.updateBypass d).prl = d.prl ∧ (Dev.updateBypass d).mem = d.mem ∧ (Dev.updateBypass d).memEra = d.memEra ∧
    (Dev.updateBypass d).poison = d.poison ∧ (Dev.updateBypass d).absent = d.absent ∧ (Dev.updateBypass d).freeCtr = d.freeCtr := by
  unfold Dev.updateBypass; dsimp only; (repeat' split) <;> simp

@[simp] theorem Dev.haltActions_frame (d : Dev) :
    (Dev.haltActions d).ctl = d.ctl ∧ (Dev.haltActions d).tb = d.tb ∧ (Dev.haltActions d).hub = d.hub ∧ (Dev.haltActions d).rings = d.rings ∧
    (Dev.haltActions d).dsp = d.dsp ∧ (Dev.haltActions d).thr = d.thr ∧ (Dev.haltActions d).loc = d.loc ∧ (Dev.haltActions d).locErr = d.locErr ∧
    (Dev.haltActions d).spillErr = d.spillErr ∧ (Dev.haltActions d).win = d.win ∧ (Dev.haltActions d).unitQ = d.unitQ ∧ (Dev.haltActions d).pend = d.pend ∧
    (Dev.haltActions d).fab = d.fab ∧ (Dev.haltActions d).cap = d.cap ∧ (Dev.haltActions d).capSel = d.capSel ∧ (Dev.haltActions d).scene = d.scene ∧
    (Dev.haltActions d).layer = d.layer ∧ (Dev.haltActions d).cluster = d.cluster ∧ (Dev.haltActions d).blit = d.blit ∧ (Dev.haltActions d).chan = d.chan ∧
    (Dev.haltActions d).pipe = d.pipe ∧ (Dev.haltActions d).dec = d.dec ∧ (Dev.haltActions d).decPipe = d.decPipe ∧ (Dev.haltActions d).decSel = d.decSel ∧
    (Dev.haltActions d).twin = d.twin ∧ (Dev.haltActions d).pkgSel = d.pkgSel ∧ (Dev.haltActions d).tmIn = d.tmIn ∧ (Dev.haltActions d).port = d.port ∧
    (Dev.haltActions d).pol = d.pol ∧ (Dev.haltActions d).portSel = d.portSel ∧ (Dev.haltActions d).qSel = d.qSel ∧ (Dev.haltActions d).polSel = d.polSel ∧
    (Dev.haltActions d).group = d.group ∧ (Dev.haltActions d).lane = d.lane ∧ (Dev.haltActions d).mc = d.mc ∧ (Dev.haltActions d).chk = d.chk ∧
    (Dev.haltActions d).chkMode = d.chkMode ∧ (Dev.haltActions d).chkSel = d.chkSel ∧ (Dev.haltActions d).trust = d.trust ∧ (Dev.haltActions d).prl = d.prl ∧
    (Dev.haltActions d).mem = d.mem ∧ (Dev.haltActions d).memEra = d.memEra ∧ (Dev.haltActions d).poison = d.poison ∧ (Dev.haltActions d).absent = d.absent ∧
    (Dev.haltActions d).freeCtr = d.freeCtr := by
  unfold Dev.haltActions; dsimp only; (repeat' split) <;> simp

@[simp] theorem Dev.latch_frame (d : Dev) (srcs : BitVec 64) :
    (Dev.latch d srcs).ctl = d.ctl ∧ (Dev.latch d srcs).tb = d.tb ∧ (Dev.latch d srcs).rings = d.rings ∧ (Dev.latch d srcs).dsp = d.dsp ∧
    (Dev.latch d srcs).thr = d.thr ∧ (Dev.latch d srcs).loc = d.loc ∧ (Dev.latch d srcs).locErr = d.locErr ∧ (Dev.latch d srcs).spillErr = d.spillErr ∧
    (Dev.latch d srcs).win = d.win ∧ (Dev.latch d srcs).unitQ = d.unitQ ∧ (Dev.latch d srcs).pend = d.pend ∧ (Dev.latch d srcs).fab = d.fab ∧
    (Dev.latch d srcs).cap = d.cap ∧ (Dev.latch d srcs).capSel = d.capSel ∧ (Dev.latch d srcs).scene = d.scene ∧ (Dev.latch d srcs).layer = d.layer ∧
    (Dev.latch d srcs).cluster = d.cluster ∧ (Dev.latch d srcs).blit = d.blit ∧ (Dev.latch d srcs).chan = d.chan ∧ (Dev.latch d srcs).pipe = d.pipe ∧
    (Dev.latch d srcs).dec = d.dec ∧ (Dev.latch d srcs).decPipe = d.decPipe ∧ (Dev.latch d srcs).decSel = d.decSel ∧ (Dev.latch d srcs).twin = d.twin ∧
    (Dev.latch d srcs).pkgSel = d.pkgSel ∧ (Dev.latch d srcs).tmIn = d.tmIn ∧ (Dev.latch d srcs).port = d.port ∧ (Dev.latch d srcs).pol = d.pol ∧
    (Dev.latch d srcs).portSel = d.portSel ∧ (Dev.latch d srcs).qSel = d.qSel ∧ (Dev.latch d srcs).polSel = d.polSel ∧ (Dev.latch d srcs).group = d.group ∧
    (Dev.latch d srcs).lane = d.lane ∧ (Dev.latch d srcs).mc = d.mc ∧ (Dev.latch d srcs).chk = d.chk ∧ (Dev.latch d srcs).chkMode = d.chkMode ∧
    (Dev.latch d srcs).chkSel = d.chkSel ∧ (Dev.latch d srcs).trust = d.trust ∧ (Dev.latch d srcs).prl = d.prl ∧ (Dev.latch d srcs).mem = d.mem ∧
    (Dev.latch d srcs).memEra = d.memEra ∧ (Dev.latch d srcs).poison = d.poison ∧ (Dev.latch d srcs).absent = d.absent ∧ (Dev.latch d srcs).freeCtr = d.freeCtr := by
  unfold Dev.latch; dsimp only; (repeat' split) <;> simp

@[simp] theorem Dev.raise_frame (d : Dev) (i : Nat) :
    (Dev.raise d i).ctl = d.ctl ∧ (Dev.raise d i).tb = d.tb ∧ (Dev.raise d i).rings = d.rings ∧ (Dev.raise d i).dsp = d.dsp ∧ (Dev.raise d i).thr = d.thr ∧
    (Dev.raise d i).loc = d.loc ∧ (Dev.raise d i).locErr = d.locErr ∧ (Dev.raise d i).spillErr = d.spillErr ∧ (Dev.raise d i).win = d.win ∧
    (Dev.raise d i).unitQ = d.unitQ ∧ (Dev.raise d i).pend = d.pend ∧ (Dev.raise d i).fab = d.fab ∧ (Dev.raise d i).cap = d.cap ∧ (Dev.raise d i).capSel = d.capSel ∧
    (Dev.raise d i).scene = d.scene ∧ (Dev.raise d i).layer = d.layer ∧ (Dev.raise d i).cluster = d.cluster ∧ (Dev.raise d i).blit = d.blit ∧
    (Dev.raise d i).chan = d.chan ∧ (Dev.raise d i).pipe = d.pipe ∧ (Dev.raise d i).dec = d.dec ∧ (Dev.raise d i).decPipe = d.decPipe ∧
    (Dev.raise d i).decSel = d.decSel ∧ (Dev.raise d i).twin = d.twin ∧ (Dev.raise d i).pkgSel = d.pkgSel ∧ (Dev.raise d i).tmIn = d.tmIn ∧
    (Dev.raise d i).port = d.port ∧ (Dev.raise d i).pol = d.pol ∧ (Dev.raise d i).portSel = d.portSel ∧ (Dev.raise d i).qSel = d.qSel ∧
    (Dev.raise d i).polSel = d.polSel ∧ (Dev.raise d i).group = d.group ∧ (Dev.raise d i).lane = d.lane ∧ (Dev.raise d i).mc = d.mc ∧ (Dev.raise d i).chk = d.chk ∧
    (Dev.raise d i).chkMode = d.chkMode ∧ (Dev.raise d i).chkSel = d.chkSel ∧ (Dev.raise d i).trust = d.trust ∧ (Dev.raise d i).prl = d.prl ∧
    (Dev.raise d i).mem = d.mem ∧ (Dev.raise d i).memEra = d.memEra ∧ (Dev.raise d i).poison = d.poison ∧ (Dev.raise d i).absent = d.absent ∧
    (Dev.raise d i).freeCtr = d.freeCtr := by
  simp [Dev.raise]

@[simp] theorem Dev.setLine_frame (d : Dev) (i : Nat) (b : Bool) :
    (Dev.setLine d i b).ctl = d.ctl ∧ (Dev.setLine d i b).tb = d.tb ∧ (Dev.setLine d i b).rings = d.rings ∧ (Dev.setLine d i b).dsp = d.dsp ∧
    (Dev.setLine d i b).thr = d.thr ∧ (Dev.setLine d i b).loc = d.loc ∧ (Dev.setLine d i b).locErr = d.locErr ∧ (Dev.setLine d i b).spillErr = d.spillErr ∧
    (Dev.setLine d i b).win = d.win ∧ (Dev.setLine d i b).unitQ = d.unitQ ∧ (Dev.setLine d i b).pend = d.pend ∧ (Dev.setLine d i b).fab = d.fab ∧
    (Dev.setLine d i b).cap = d.cap ∧ (Dev.setLine d i b).capSel = d.capSel ∧ (Dev.setLine d i b).scene = d.scene ∧ (Dev.setLine d i b).layer = d.layer ∧
    (Dev.setLine d i b).cluster = d.cluster ∧ (Dev.setLine d i b).blit = d.blit ∧ (Dev.setLine d i b).chan = d.chan ∧ (Dev.setLine d i b).pipe = d.pipe ∧
    (Dev.setLine d i b).dec = d.dec ∧ (Dev.setLine d i b).decPipe = d.decPipe ∧ (Dev.setLine d i b).decSel = d.decSel ∧ (Dev.setLine d i b).twin = d.twin ∧
    (Dev.setLine d i b).pkgSel = d.pkgSel ∧ (Dev.setLine d i b).tmIn = d.tmIn ∧ (Dev.setLine d i b).port = d.port ∧ (Dev.setLine d i b).pol = d.pol ∧
    (Dev.setLine d i b).portSel = d.portSel ∧ (Dev.setLine d i b).qSel = d.qSel ∧ (Dev.setLine d i b).polSel = d.polSel ∧ (Dev.setLine d i b).group = d.group ∧
    (Dev.setLine d i b).lane = d.lane ∧ (Dev.setLine d i b).mc = d.mc ∧ (Dev.setLine d i b).chk = d.chk ∧ (Dev.setLine d i b).chkMode = d.chkMode ∧
    (Dev.setLine d i b).chkSel = d.chkSel ∧ (Dev.setLine d i b).trust = d.trust ∧ (Dev.setLine d i b).prl = d.prl ∧ (Dev.setLine d i b).mem = d.mem ∧
    (Dev.setLine d i b).memEra = d.memEra ∧ (Dev.setLine d i b).poison = d.poison ∧ (Dev.setLine d i b).absent = d.absent ∧ (Dev.setLine d i b).freeCtr = d.freeCtr := by
  unfold Dev.setLine; (repeat' split) <;> simp

@[simp] theorem Dev.spillRegs_frame (d : Dev) (t : Nat) :
    (Dev.spillRegs d t).ctl = d.ctl ∧ (Dev.spillRegs d t).tb = d.tb ∧ (Dev.spillRegs d t).flt = d.flt ∧ (Dev.spillRegs d t).hub = d.hub ∧
    (Dev.spillRegs d t).rings = d.rings ∧ (Dev.spillRegs d t).dsp = d.dsp ∧ (Dev.spillRegs d t).thr = d.thr ∧ (Dev.spillRegs d t).loc = d.loc ∧
    (Dev.spillRegs d t).locErr = d.locErr ∧ (Dev.spillRegs d t).spillErr = d.spillErr ∧ (Dev.spillRegs d t).win = d.win ∧ (Dev.spillRegs d t).unitQ = d.unitQ ∧
    (Dev.spillRegs d t).pend = d.pend ∧ (Dev.spillRegs d t).fab = d.fab ∧ (Dev.spillRegs d t).cap = d.cap ∧ (Dev.spillRegs d t).capSel = d.capSel ∧
    (Dev.spillRegs d t).scene = d.scene ∧ (Dev.spillRegs d t).layer = d.layer ∧ (Dev.spillRegs d t).cluster = d.cluster ∧ (Dev.spillRegs d t).blit = d.blit ∧
    (Dev.spillRegs d t).chan = d.chan ∧ (Dev.spillRegs d t).pipe = d.pipe ∧ (Dev.spillRegs d t).dec = d.dec ∧ (Dev.spillRegs d t).decPipe = d.decPipe ∧
    (Dev.spillRegs d t).decSel = d.decSel ∧ (Dev.spillRegs d t).twin = d.twin ∧ (Dev.spillRegs d t).flow = d.flow ∧ (Dev.spillRegs d t).pkgSel = d.pkgSel ∧
    (Dev.spillRegs d t).tmIn = d.tmIn ∧ (Dev.spillRegs d t).queue = d.queue ∧ (Dev.spillRegs d t).port = d.port ∧ (Dev.spillRegs d t).pol = d.pol ∧
    (Dev.spillRegs d t).portSel = d.portSel ∧ (Dev.spillRegs d t).qSel = d.qSel ∧ (Dev.spillRegs d t).polSel = d.polSel ∧ (Dev.spillRegs d t).group = d.group ∧
    (Dev.spillRegs d t).lane = d.lane ∧ (Dev.spillRegs d t).casc = d.casc ∧ (Dev.spillRegs d t).mc = d.mc ∧ (Dev.spillRegs d t).chk = d.chk ∧
    (Dev.spillRegs d t).chkMode = d.chkMode ∧ (Dev.spillRegs d t).chkSel = d.chkSel ∧ (Dev.spillRegs d t).trust = d.trust ∧ (Dev.spillRegs d t).prl = d.prl ∧
    (Dev.spillRegs d t).memEra = d.memEra ∧ (Dev.spillRegs d t).out = d.out ∧ (Dev.spillRegs d t).waiting = d.waiting ∧ (Dev.spillRegs d t).absent = d.absent ∧
    (Dev.spillRegs d t).freeCtr = d.freeCtr := by
  simp [Dev.spillRegs]

@[simp] theorem Dev.modRegs_frame (d : Dev) (t : Nat) (f : Thread → Thread) :
    (Dev.modRegs d t f).ctl = d.ctl ∧ (Dev.modRegs d t f).tb = d.tb ∧ (Dev.modRegs d t f).flt = d.flt ∧ (Dev.modRegs d t f).hub = d.hub ∧
    (Dev.modRegs d t f).rings = d.rings ∧ (Dev.modRegs d t f).dsp = d.dsp ∧ (Dev.modRegs d t f).loc = d.loc ∧ (Dev.modRegs d t f).locErr = d.locErr ∧
    (Dev.modRegs d t f).spillErr = d.spillErr ∧ (Dev.modRegs d t f).win = d.win ∧ (Dev.modRegs d t f).unitQ = d.unitQ ∧ (Dev.modRegs d t f).pend = d.pend ∧
    (Dev.modRegs d t f).fab = d.fab ∧ (Dev.modRegs d t f).cap = d.cap ∧ (Dev.modRegs d t f).capSel = d.capSel ∧ (Dev.modRegs d t f).scene = d.scene ∧
    (Dev.modRegs d t f).layer = d.layer ∧ (Dev.modRegs d t f).cluster = d.cluster ∧ (Dev.modRegs d t f).blit = d.blit ∧ (Dev.modRegs d t f).chan = d.chan ∧
    (Dev.modRegs d t f).pipe = d.pipe ∧ (Dev.modRegs d t f).dec = d.dec ∧ (Dev.modRegs d t f).decPipe = d.decPipe ∧ (Dev.modRegs d t f).decSel = d.decSel ∧
    (Dev.modRegs d t f).twin = d.twin ∧ (Dev.modRegs d t f).flow = d.flow ∧ (Dev.modRegs d t f).pkgSel = d.pkgSel ∧ (Dev.modRegs d t f).tmIn = d.tmIn ∧
    (Dev.modRegs d t f).queue = d.queue ∧ (Dev.modRegs d t f).port = d.port ∧ (Dev.modRegs d t f).pol = d.pol ∧ (Dev.modRegs d t f).portSel = d.portSel ∧
    (Dev.modRegs d t f).qSel = d.qSel ∧ (Dev.modRegs d t f).polSel = d.polSel ∧ (Dev.modRegs d t f).group = d.group ∧ (Dev.modRegs d t f).lane = d.lane ∧
    (Dev.modRegs d t f).casc = d.casc ∧ (Dev.modRegs d t f).mc = d.mc ∧ (Dev.modRegs d t f).chk = d.chk ∧ (Dev.modRegs d t f).chkMode = d.chkMode ∧
    (Dev.modRegs d t f).chkSel = d.chkSel ∧ (Dev.modRegs d t f).trust = d.trust ∧ (Dev.modRegs d t f).prl = d.prl ∧ (Dev.modRegs d t f).memEra = d.memEra ∧
    (Dev.modRegs d t f).out = d.out ∧ (Dev.modRegs d t f).waiting = d.waiting ∧ (Dev.modRegs d t f).absent = d.absent ∧ (Dev.modRegs d t f).freeCtr = d.freeCtr := by
  unfold Dev.modRegs; (repeat' split) <;> simp

@[simp] theorem Dev.spill_frame (d0 : Dev) (t : Nat) :
    (Dev.spill d0 t).ctl = d0.ctl ∧ (Dev.spill d0 t).tb = d0.tb ∧ (Dev.spill d0 t).flt = d0.flt ∧ (Dev.spill d0 t).hub = d0.hub ∧ (Dev.spill d0 t).rings = d0.rings ∧
    (Dev.spill d0 t).dsp = d0.dsp ∧ (Dev.spill d0 t).loc = d0.loc ∧ (Dev.spill d0 t).locErr = d0.locErr ∧ (Dev.spill d0 t).win = d0.win ∧
    (Dev.spill d0 t).unitQ = d0.unitQ ∧ (Dev.spill d0 t).pend = d0.pend ∧ (Dev.spill d0 t).fab = d0.fab ∧ (Dev.spill d0 t).cap = d0.cap ∧
    (Dev.spill d0 t).capSel = d0.capSel ∧ (Dev.spill d0 t).scene = d0.scene ∧ (Dev.spill d0 t).layer = d0.layer ∧ (Dev.spill d0 t).cluster = d0.cluster ∧
    (Dev.spill d0 t).blit = d0.blit ∧ (Dev.spill d0 t).chan = d0.chan ∧ (Dev.spill d0 t).pipe = d0.pipe ∧ (Dev.spill d0 t).dec = d0.dec ∧
    (Dev.spill d0 t).decPipe = d0.decPipe ∧ (Dev.spill d0 t).decSel = d0.decSel ∧ (Dev.spill d0 t).twin = d0.twin ∧ (Dev.spill d0 t).flow = d0.flow ∧
    (Dev.spill d0 t).pkgSel = d0.pkgSel ∧ (Dev.spill d0 t).tmIn = d0.tmIn ∧ (Dev.spill d0 t).queue = d0.queue ∧ (Dev.spill d0 t).port = d0.port ∧
    (Dev.spill d0 t).pol = d0.pol ∧ (Dev.spill d0 t).portSel = d0.portSel ∧ (Dev.spill d0 t).qSel = d0.qSel ∧ (Dev.spill d0 t).polSel = d0.polSel ∧
    (Dev.spill d0 t).group = d0.group ∧ (Dev.spill d0 t).lane = d0.lane ∧ (Dev.spill d0 t).casc = d0.casc ∧ (Dev.spill d0 t).mc = d0.mc ∧ (Dev.spill d0 t).chk = d0.chk ∧
    (Dev.spill d0 t).chkMode = d0.chkMode ∧ (Dev.spill d0 t).chkSel = d0.chkSel ∧ (Dev.spill d0 t).trust = d0.trust ∧ (Dev.spill d0 t).prl = d0.prl ∧
    (Dev.spill d0 t).memEra = d0.memEra ∧ (Dev.spill d0 t).out = d0.out ∧ (Dev.spill d0 t).waiting = d0.waiting ∧ (Dev.spill d0 t).absent = d0.absent ∧
    (Dev.spill d0 t).freeCtr = d0.freeCtr := by
  simp [Dev.spill]

@[simp] theorem Dev.restore_frame (d : Dev) (t : Nat) (c : Nat) (k : Nat) :
    (Dev.restore d t c k).ctl = d.ctl ∧ (Dev.restore d t c k).tb = d.tb ∧ (Dev.restore d t c k).flt = d.flt ∧ (Dev.restore d t c k).hub = d.hub ∧
    (Dev.restore d t c k).rings = d.rings ∧ (Dev.restore d t c k).win = d.win ∧ (Dev.restore d t c k).unitQ = d.unitQ ∧ (Dev.restore d t c k).pend = d.pend ∧
    (Dev.restore d t c k).fab = d.fab ∧ (Dev.restore d t c k).cap = d.cap ∧ (Dev.restore d t c k).capSel = d.capSel ∧ (Dev.restore d t c k).scene = d.scene ∧
    (Dev.restore d t c k).layer = d.layer ∧ (Dev.restore d t c k).cluster = d.cluster ∧ (Dev.restore d t c k).blit = d.blit ∧ (Dev.restore d t c k).chan = d.chan ∧
    (Dev.restore d t c k).pipe = d.pipe ∧ (Dev.restore d t c k).dec = d.dec ∧ (Dev.restore d t c k).decPipe = d.decPipe ∧ (Dev.restore d t c k).decSel = d.decSel ∧
    (Dev.restore d t c k).twin = d.twin ∧ (Dev.restore d t c k).flow = d.flow ∧ (Dev.restore d t c k).pkgSel = d.pkgSel ∧ (Dev.restore d t c k).tmIn = d.tmIn ∧
    (Dev.restore d t c k).queue = d.queue ∧ (Dev.restore d t c k).port = d.port ∧ (Dev.restore d t c k).pol = d.pol ∧ (Dev.restore d t c k).portSel = d.portSel ∧
    (Dev.restore d t c k).qSel = d.qSel ∧ (Dev.restore d t c k).polSel = d.polSel ∧ (Dev.restore d t c k).group = d.group ∧ (Dev.restore d t c k).lane = d.lane ∧
    (Dev.restore d t c k).casc = d.casc ∧ (Dev.restore d t c k).mc = d.mc ∧ (Dev.restore d t c k).chk = d.chk ∧ (Dev.restore d t c k).chkMode = d.chkMode ∧
    (Dev.restore d t c k).chkSel = d.chkSel ∧ (Dev.restore d t c k).trust = d.trust ∧ (Dev.restore d t c k).prl = d.prl ∧ (Dev.restore d t c k).mem = d.mem ∧
    (Dev.restore d t c k).memEra = d.memEra ∧ (Dev.restore d t c k).poison = d.poison ∧ (Dev.restore d t c k).out = d.out ∧ (Dev.restore d t c k).waiting = d.waiting ∧
    (Dev.restore d t c k).absent = d.absent ∧ (Dev.restore d t c k).freeCtr = d.freeCtr := by
  simp [Dev.restore]

@[simp] theorem Dev.makeRoom_frame (d : Dev) (c : Nat) :
    (Dev.makeRoom d c).ctl = d.ctl ∧ (Dev.makeRoom d c).tb = d.tb ∧ (Dev.makeRoom d c).flt = d.flt ∧ (Dev.makeRoom d c).hub = d.hub ∧
    (Dev.makeRoom d c).rings = d.rings ∧ (Dev.makeRoom d c).dsp = d.dsp ∧ (Dev.makeRoom d c).loc = d.loc ∧ (Dev.makeRoom d c).locErr = d.locErr ∧
    (Dev.makeRoom d c).win = d.win ∧ (Dev.makeRoom d c).unitQ = d.unitQ ∧ (Dev.makeRoom d c).pend = d.pend ∧ (Dev.makeRoom d c).fab = d.fab ∧
    (Dev.makeRoom d c).cap = d.cap ∧ (Dev.makeRoom d c).capSel = d.capSel ∧ (Dev.makeRoom d c).scene = d.scene ∧ (Dev.makeRoom d c).layer = d.layer ∧
    (Dev.makeRoom d c).cluster = d.cluster ∧ (Dev.makeRoom d c).blit = d.blit ∧ (Dev.makeRoom d c).chan = d.chan ∧ (Dev.makeRoom d c).pipe = d.pipe ∧
    (Dev.makeRoom d c).dec = d.dec ∧ (Dev.makeRoom d c).decPipe = d.decPipe ∧ (Dev.makeRoom d c).decSel = d.decSel ∧ (Dev.makeRoom d c).twin = d.twin ∧
    (Dev.makeRoom d c).flow = d.flow ∧ (Dev.makeRoom d c).pkgSel = d.pkgSel ∧ (Dev.makeRoom d c).tmIn = d.tmIn ∧ (Dev.makeRoom d c).queue = d.queue ∧
    (Dev.makeRoom d c).port = d.port ∧ (Dev.makeRoom d c).pol = d.pol ∧ (Dev.makeRoom d c).portSel = d.portSel ∧ (Dev.makeRoom d c).qSel = d.qSel ∧
    (Dev.makeRoom d c).polSel = d.polSel ∧ (Dev.makeRoom d c).group = d.group ∧ (Dev.makeRoom d c).lane = d.lane ∧ (Dev.makeRoom d c).casc = d.casc ∧
    (Dev.makeRoom d c).mc = d.mc ∧ (Dev.makeRoom d c).chk = d.chk ∧ (Dev.makeRoom d c).chkMode = d.chkMode ∧ (Dev.makeRoom d c).chkSel = d.chkSel ∧
    (Dev.makeRoom d c).trust = d.trust ∧ (Dev.makeRoom d c).prl = d.prl ∧ (Dev.makeRoom d c).memEra = d.memEra ∧ (Dev.makeRoom d c).out = d.out ∧
    (Dev.makeRoom d c).waiting = d.waiting ∧ (Dev.makeRoom d c).absent = d.absent ∧ (Dev.makeRoom d c).freeCtr = d.freeCtr := by
  unfold Dev.makeRoom; (repeat' split) <;> simp

@[simp] theorem Dev.takeSlot_frame (d : Dev) (t : Nat) (c : Nat) :
    (Dev.takeSlot d t c).ctl = d.ctl ∧ (Dev.takeSlot d t c).tb = d.tb ∧ (Dev.takeSlot d t c).flt = d.flt ∧ (Dev.takeSlot d t c).hub = d.hub ∧
    (Dev.takeSlot d t c).rings = d.rings ∧ (Dev.takeSlot d t c).win = d.win ∧ (Dev.takeSlot d t c).unitQ = d.unitQ ∧ (Dev.takeSlot d t c).pend = d.pend ∧
    (Dev.takeSlot d t c).fab = d.fab ∧ (Dev.takeSlot d t c).cap = d.cap ∧ (Dev.takeSlot d t c).capSel = d.capSel ∧ (Dev.takeSlot d t c).scene = d.scene ∧
    (Dev.takeSlot d t c).layer = d.layer ∧ (Dev.takeSlot d t c).cluster = d.cluster ∧ (Dev.takeSlot d t c).blit = d.blit ∧ (Dev.takeSlot d t c).chan = d.chan ∧
    (Dev.takeSlot d t c).pipe = d.pipe ∧ (Dev.takeSlot d t c).dec = d.dec ∧ (Dev.takeSlot d t c).decPipe = d.decPipe ∧ (Dev.takeSlot d t c).decSel = d.decSel ∧
    (Dev.takeSlot d t c).twin = d.twin ∧ (Dev.takeSlot d t c).flow = d.flow ∧ (Dev.takeSlot d t c).pkgSel = d.pkgSel ∧ (Dev.takeSlot d t c).tmIn = d.tmIn ∧
    (Dev.takeSlot d t c).queue = d.queue ∧ (Dev.takeSlot d t c).port = d.port ∧ (Dev.takeSlot d t c).pol = d.pol ∧ (Dev.takeSlot d t c).portSel = d.portSel ∧
    (Dev.takeSlot d t c).qSel = d.qSel ∧ (Dev.takeSlot d t c).polSel = d.polSel ∧ (Dev.takeSlot d t c).group = d.group ∧ (Dev.takeSlot d t c).lane = d.lane ∧
    (Dev.takeSlot d t c).casc = d.casc ∧ (Dev.takeSlot d t c).mc = d.mc ∧ (Dev.takeSlot d t c).chk = d.chk ∧ (Dev.takeSlot d t c).chkMode = d.chkMode ∧
    (Dev.takeSlot d t c).chkSel = d.chkSel ∧ (Dev.takeSlot d t c).trust = d.trust ∧ (Dev.takeSlot d t c).prl = d.prl ∧ (Dev.takeSlot d t c).mem = d.mem ∧
    (Dev.takeSlot d t c).memEra = d.memEra ∧ (Dev.takeSlot d t c).poison = d.poison ∧ (Dev.takeSlot d t c).out = d.out ∧ (Dev.takeSlot d t c).waiting = d.waiting ∧
    (Dev.takeSlot d t c).absent = d.absent ∧ (Dev.takeSlot d t c).freeCtr = d.freeCtr := by
  unfold Dev.takeSlot; (repeat' split) <;> simp

@[simp] theorem Dev.makeResident_frame (d : Dev) (t : Nat) (c : Nat) :
    (Dev.makeResident d t c).ctl = d.ctl ∧ (Dev.makeResident d t c).tb = d.tb ∧ (Dev.makeResident d t c).flt = d.flt ∧ (Dev.makeResident d t c).hub = d.hub ∧
    (Dev.makeResident d t c).rings = d.rings ∧ (Dev.makeResident d t c).win = d.win ∧ (Dev.makeResident d t c).unitQ = d.unitQ ∧ (Dev.makeResident d t c).pend = d.pend ∧
    (Dev.makeResident d t c).fab = d.fab ∧ (Dev.makeResident d t c).cap = d.cap ∧ (Dev.makeResident d t c).capSel = d.capSel ∧ (Dev.makeResident d t c).scene = d.scene ∧
    (Dev.makeResident d t c).layer = d.layer ∧ (Dev.makeResident d t c).cluster = d.cluster ∧ (Dev.makeResident d t c).blit = d.blit ∧
    (Dev.makeResident d t c).chan = d.chan ∧ (Dev.makeResident d t c).pipe = d.pipe ∧ (Dev.makeResident d t c).dec = d.dec ∧
    (Dev.makeResident d t c).decPipe = d.decPipe ∧ (Dev.makeResident d t c).decSel = d.decSel ∧ (Dev.makeResident d t c).twin = d.twin ∧
    (Dev.makeResident d t c).flow = d.flow ∧ (Dev.makeResident d t c).pkgSel = d.pkgSel ∧ (Dev.makeResident d t c).tmIn = d.tmIn ∧
    (Dev.makeResident d t c).queue = d.queue ∧ (Dev.makeResident d t c).port = d.port ∧ (Dev.makeResident d t c).pol = d.pol ∧
    (Dev.makeResident d t c).portSel = d.portSel ∧ (Dev.makeResident d t c).qSel = d.qSel ∧ (Dev.makeResident d t c).polSel = d.polSel ∧
    (Dev.makeResident d t c).group = d.group ∧ (Dev.makeResident d t c).lane = d.lane ∧ (Dev.makeResident d t c).casc = d.casc ∧ (Dev.makeResident d t c).mc = d.mc ∧
    (Dev.makeResident d t c).chk = d.chk ∧ (Dev.makeResident d t c).chkMode = d.chkMode ∧ (Dev.makeResident d t c).chkSel = d.chkSel ∧
    (Dev.makeResident d t c).trust = d.trust ∧ (Dev.makeResident d t c).prl = d.prl ∧ (Dev.makeResident d t c).memEra = d.memEra ∧ (Dev.makeResident d t c).out = d.out ∧
    (Dev.makeResident d t c).waiting = d.waiting ∧ (Dev.makeResident d t c).absent = d.absent ∧ (Dev.makeResident d t c).freeCtr = d.freeCtr := by
  unfold Dev.makeResident; dsimp only; (repeat' split) <;> simp

@[simp] theorem Dev.runOn_frame (d : Dev) (t : Nat) (c : Nat) :
    (Dev.runOn d t c).ctl = d.ctl ∧ (Dev.runOn d t c).tb = d.tb ∧ (Dev.runOn d t c).flt = d.flt ∧ (Dev.runOn d t c).hub = d.hub ∧ (Dev.runOn d t c).rings = d.rings ∧
    (Dev.runOn d t c).win = d.win ∧ (Dev.runOn d t c).unitQ = d.unitQ ∧ (Dev.runOn d t c).pend = d.pend ∧ (Dev.runOn d t c).fab = d.fab ∧ (Dev.runOn d t c).cap = d.cap ∧
    (Dev.runOn d t c).capSel = d.capSel ∧ (Dev.runOn d t c).scene = d.scene ∧ (Dev.runOn d t c).layer = d.layer ∧ (Dev.runOn d t c).cluster = d.cluster ∧
    (Dev.runOn d t c).blit = d.blit ∧ (Dev.runOn d t c).chan = d.chan ∧ (Dev.runOn d t c).pipe = d.pipe ∧ (Dev.runOn d t c).dec = d.dec ∧
    (Dev.runOn d t c).decPipe = d.decPipe ∧ (Dev.runOn d t c).decSel = d.decSel ∧ (Dev.runOn d t c).twin = d.twin ∧ (Dev.runOn d t c).flow = d.flow ∧
    (Dev.runOn d t c).pkgSel = d.pkgSel ∧ (Dev.runOn d t c).tmIn = d.tmIn ∧ (Dev.runOn d t c).queue = d.queue ∧ (Dev.runOn d t c).port = d.port ∧
    (Dev.runOn d t c).pol = d.pol ∧ (Dev.runOn d t c).portSel = d.portSel ∧ (Dev.runOn d t c).qSel = d.qSel ∧ (Dev.runOn d t c).polSel = d.polSel ∧
    (Dev.runOn d t c).group = d.group ∧ (Dev.runOn d t c).lane = d.lane ∧ (Dev.runOn d t c).casc = d.casc ∧ (Dev.runOn d t c).mc = d.mc ∧ (Dev.runOn d t c).chk = d.chk ∧
    (Dev.runOn d t c).chkMode = d.chkMode ∧ (Dev.runOn d t c).chkSel = d.chkSel ∧ (Dev.runOn d t c).trust = d.trust ∧ (Dev.runOn d t c).prl = d.prl ∧
    (Dev.runOn d t c).memEra = d.memEra ∧ (Dev.runOn d t c).out = d.out ∧ (Dev.runOn d t c).waiting = d.waiting ∧ (Dev.runOn d t c).absent = d.absent ∧
    (Dev.runOn d t c).freeCtr = d.freeCtr := by
  simp [Dev.runOn]

@[simp] theorem Dev.toTail_frame (d : Dev) (t : Nat) :
    (Dev.toTail d t).ctl = d.ctl ∧ (Dev.toTail d t).tb = d.tb ∧ (Dev.toTail d t).flt = d.flt ∧ (Dev.toTail d t).hub = d.hub ∧ (Dev.toTail d t).rings = d.rings ∧
    (Dev.toTail d t).loc = d.loc ∧ (Dev.toTail d t).locErr = d.locErr ∧ (Dev.toTail d t).spillErr = d.spillErr ∧ (Dev.toTail d t).win = d.win ∧
    (Dev.toTail d t).unitQ = d.unitQ ∧ (Dev.toTail d t).pend = d.pend ∧ (Dev.toTail d t).fab = d.fab ∧ (Dev.toTail d t).cap = d.cap ∧
    (Dev.toTail d t).capSel = d.capSel ∧ (Dev.toTail d t).scene = d.scene ∧ (Dev.toTail d t).layer = d.layer ∧ (Dev.toTail d t).cluster = d.cluster ∧
    (Dev.toTail d t).blit = d.blit ∧ (Dev.toTail d t).chan = d.chan ∧ (Dev.toTail d t).pipe = d.pipe ∧ (Dev.toTail d t).dec = d.dec ∧
    (Dev.toTail d t).decPipe = d.decPipe ∧ (Dev.toTail d t).decSel = d.decSel ∧ (Dev.toTail d t).twin = d.twin ∧ (Dev.toTail d t).flow = d.flow ∧
    (Dev.toTail d t).pkgSel = d.pkgSel ∧ (Dev.toTail d t).tmIn = d.tmIn ∧ (Dev.toTail d t).queue = d.queue ∧ (Dev.toTail d t).port = d.port ∧
    (Dev.toTail d t).pol = d.pol ∧ (Dev.toTail d t).portSel = d.portSel ∧ (Dev.toTail d t).qSel = d.qSel ∧ (Dev.toTail d t).polSel = d.polSel ∧
    (Dev.toTail d t).group = d.group ∧ (Dev.toTail d t).lane = d.lane ∧ (Dev.toTail d t).casc = d.casc ∧ (Dev.toTail d t).mc = d.mc ∧ (Dev.toTail d t).chk = d.chk ∧
    (Dev.toTail d t).chkMode = d.chkMode ∧ (Dev.toTail d t).chkSel = d.chkSel ∧ (Dev.toTail d t).trust = d.trust ∧ (Dev.toTail d t).prl = d.prl ∧
    (Dev.toTail d t).mem = d.mem ∧ (Dev.toTail d t).memEra = d.memEra ∧ (Dev.toTail d t).poison = d.poison ∧ (Dev.toTail d t).out = d.out ∧
    (Dev.toTail d t).waiting = d.waiting ∧ (Dev.toTail d t).absent = d.absent ∧ (Dev.toTail d t).freeCtr = d.freeCtr := by
  simp [Dev.toTail]

@[simp] theorem Dev.toHead_frame (d : Dev) (t : Nat) :
    (Dev.toHead d t).ctl = d.ctl ∧ (Dev.toHead d t).tb = d.tb ∧ (Dev.toHead d t).flt = d.flt ∧ (Dev.toHead d t).hub = d.hub ∧ (Dev.toHead d t).rings = d.rings ∧
    (Dev.toHead d t).loc = d.loc ∧ (Dev.toHead d t).locErr = d.locErr ∧ (Dev.toHead d t).spillErr = d.spillErr ∧ (Dev.toHead d t).win = d.win ∧
    (Dev.toHead d t).unitQ = d.unitQ ∧ (Dev.toHead d t).pend = d.pend ∧ (Dev.toHead d t).fab = d.fab ∧ (Dev.toHead d t).cap = d.cap ∧
    (Dev.toHead d t).capSel = d.capSel ∧ (Dev.toHead d t).scene = d.scene ∧ (Dev.toHead d t).layer = d.layer ∧ (Dev.toHead d t).cluster = d.cluster ∧
    (Dev.toHead d t).blit = d.blit ∧ (Dev.toHead d t).chan = d.chan ∧ (Dev.toHead d t).pipe = d.pipe ∧ (Dev.toHead d t).dec = d.dec ∧
    (Dev.toHead d t).decPipe = d.decPipe ∧ (Dev.toHead d t).decSel = d.decSel ∧ (Dev.toHead d t).twin = d.twin ∧ (Dev.toHead d t).flow = d.flow ∧
    (Dev.toHead d t).pkgSel = d.pkgSel ∧ (Dev.toHead d t).tmIn = d.tmIn ∧ (Dev.toHead d t).queue = d.queue ∧ (Dev.toHead d t).port = d.port ∧
    (Dev.toHead d t).pol = d.pol ∧ (Dev.toHead d t).portSel = d.portSel ∧ (Dev.toHead d t).qSel = d.qSel ∧ (Dev.toHead d t).polSel = d.polSel ∧
    (Dev.toHead d t).group = d.group ∧ (Dev.toHead d t).lane = d.lane ∧ (Dev.toHead d t).casc = d.casc ∧ (Dev.toHead d t).mc = d.mc ∧ (Dev.toHead d t).chk = d.chk ∧
    (Dev.toHead d t).chkMode = d.chkMode ∧ (Dev.toHead d t).chkSel = d.chkSel ∧ (Dev.toHead d t).trust = d.trust ∧ (Dev.toHead d t).prl = d.prl ∧
    (Dev.toHead d t).mem = d.mem ∧ (Dev.toHead d t).memEra = d.memEra ∧ (Dev.toHead d t).poison = d.poison ∧ (Dev.toHead d t).out = d.out ∧
    (Dev.toHead d t).waiting = d.waiting ∧ (Dev.toHead d t).absent = d.absent ∧ (Dev.toHead d t).freeCtr = d.freeCtr := by
  simp [Dev.toHead]

@[simp] theorem Dev.preempt_frame (n : Nat) : ∀ (d : Dev) (t : Nat),
    (Dev.preempt n d t).ctl = d.ctl ∧ (Dev.preempt n d t).tb = d.tb ∧ (Dev.preempt n d t).flt = d.flt ∧ (Dev.preempt n d t).hub = d.hub ∧
    (Dev.preempt n d t).rings = d.rings ∧ (Dev.preempt n d t).win = d.win ∧ (Dev.preempt n d t).unitQ = d.unitQ ∧ (Dev.preempt n d t).pend = d.pend ∧
    (Dev.preempt n d t).fab = d.fab ∧ (Dev.preempt n d t).cap = d.cap ∧ (Dev.preempt n d t).capSel = d.capSel ∧ (Dev.preempt n d t).scene = d.scene ∧
    (Dev.preempt n d t).layer = d.layer ∧ (Dev.preempt n d t).cluster = d.cluster ∧ (Dev.preempt n d t).blit = d.blit ∧ (Dev.preempt n d t).chan = d.chan ∧
    (Dev.preempt n d t).pipe = d.pipe ∧ (Dev.preempt n d t).dec = d.dec ∧ (Dev.preempt n d t).decPipe = d.decPipe ∧ (Dev.preempt n d t).decSel = d.decSel ∧
    (Dev.preempt n d t).twin = d.twin ∧ (Dev.preempt n d t).flow = d.flow ∧ (Dev.preempt n d t).pkgSel = d.pkgSel ∧ (Dev.preempt n d t).tmIn = d.tmIn ∧
    (Dev.preempt n d t).queue = d.queue ∧ (Dev.preempt n d t).port = d.port ∧ (Dev.preempt n d t).pol = d.pol ∧ (Dev.preempt n d t).portSel = d.portSel ∧
    (Dev.preempt n d t).qSel = d.qSel ∧ (Dev.preempt n d t).polSel = d.polSel ∧ (Dev.preempt n d t).group = d.group ∧ (Dev.preempt n d t).lane = d.lane ∧
    (Dev.preempt n d t).casc = d.casc ∧ (Dev.preempt n d t).mc = d.mc ∧ (Dev.preempt n d t).chk = d.chk ∧ (Dev.preempt n d t).chkMode = d.chkMode ∧
    (Dev.preempt n d t).chkSel = d.chkSel ∧ (Dev.preempt n d t).trust = d.trust ∧ (Dev.preempt n d t).prl = d.prl ∧ (Dev.preempt n d t).memEra = d.memEra ∧
    (Dev.preempt n d t).out = d.out ∧ (Dev.preempt n d t).waiting = d.waiting ∧ (Dev.preempt n d t).absent = d.absent ∧ (Dev.preempt n d t).freeCtr = d.freeCtr := by
  induction n with
  | zero => intro d t; simp [Dev.preempt]
  | succ n ih =>
    intro d t
    unfold Dev.preempt
    split <;> simp [ih]

@[simp] theorem Dev.makeReady_frame (d : Dev) (t : Nat) :
    (Dev.makeReady d t).ctl = d.ctl ∧ (Dev.makeReady d t).tb = d.tb ∧ (Dev.makeReady d t).flt = d.flt ∧ (Dev.makeReady d t).hub = d.hub ∧
    (Dev.makeReady d t).rings = d.rings ∧ (Dev.makeReady d t).win = d.win ∧ (Dev.makeReady d t).unitQ = d.unitQ ∧ (Dev.makeReady d t).pend = d.pend ∧
    (Dev.makeReady d t).fab = d.fab ∧ (Dev.makeReady d t).cap = d.cap ∧ (Dev.makeReady d t).capSel = d.capSel ∧ (Dev.makeReady d t).scene = d.scene ∧
    (Dev.makeReady d t).layer = d.layer ∧ (Dev.makeReady d t).cluster = d.cluster ∧ (Dev.makeReady d t).blit = d.blit ∧ (Dev.makeReady d t).chan = d.chan ∧
    (Dev.makeReady d t).pipe = d.pipe ∧ (Dev.makeReady d t).dec = d.dec ∧ (Dev.makeReady d t).decPipe = d.decPipe ∧ (Dev.makeReady d t).decSel = d.decSel ∧
    (Dev.makeReady d t).twin = d.twin ∧ (Dev.makeReady d t).flow = d.flow ∧ (Dev.makeReady d t).pkgSel = d.pkgSel ∧ (Dev.makeReady d t).tmIn = d.tmIn ∧
    (Dev.makeReady d t).queue = d.queue ∧ (Dev.makeReady d t).port = d.port ∧ (Dev.makeReady d t).pol = d.pol ∧ (Dev.makeReady d t).portSel = d.portSel ∧
    (Dev.makeReady d t).qSel = d.qSel ∧ (Dev.makeReady d t).polSel = d.polSel ∧ (Dev.makeReady d t).group = d.group ∧ (Dev.makeReady d t).lane = d.lane ∧
    (Dev.makeReady d t).casc = d.casc ∧ (Dev.makeReady d t).mc = d.mc ∧ (Dev.makeReady d t).chk = d.chk ∧ (Dev.makeReady d t).chkMode = d.chkMode ∧
    (Dev.makeReady d t).chkSel = d.chkSel ∧ (Dev.makeReady d t).trust = d.trust ∧ (Dev.makeReady d t).prl = d.prl ∧ (Dev.makeReady d t).memEra = d.memEra ∧
    (Dev.makeReady d t).out = d.out ∧ (Dev.makeReady d t).waiting = d.waiting ∧ (Dev.makeReady d t).absent = d.absent ∧ (Dev.makeReady d t).freeCtr = d.freeCtr := by
  simp [Dev.makeReady]

@[simp] theorem Dev.wake_frame (d : Dev) (t : Nat) :
    (Dev.wake d t).ctl = d.ctl ∧ (Dev.wake d t).tb = d.tb ∧ (Dev.wake d t).flt = d.flt ∧ (Dev.wake d t).hub = d.hub ∧ (Dev.wake d t).rings = d.rings ∧
    (Dev.wake d t).win = d.win ∧ (Dev.wake d t).unitQ = d.unitQ ∧ (Dev.wake d t).pend = d.pend ∧ (Dev.wake d t).fab = d.fab ∧ (Dev.wake d t).cap = d.cap ∧
    (Dev.wake d t).capSel = d.capSel ∧ (Dev.wake d t).scene = d.scene ∧ (Dev.wake d t).layer = d.layer ∧ (Dev.wake d t).cluster = d.cluster ∧
    (Dev.wake d t).blit = d.blit ∧ (Dev.wake d t).chan = d.chan ∧ (Dev.wake d t).pipe = d.pipe ∧ (Dev.wake d t).dec = d.dec ∧ (Dev.wake d t).decPipe = d.decPipe ∧
    (Dev.wake d t).decSel = d.decSel ∧ (Dev.wake d t).twin = d.twin ∧ (Dev.wake d t).flow = d.flow ∧ (Dev.wake d t).pkgSel = d.pkgSel ∧ (Dev.wake d t).tmIn = d.tmIn ∧
    (Dev.wake d t).queue = d.queue ∧ (Dev.wake d t).port = d.port ∧ (Dev.wake d t).pol = d.pol ∧ (Dev.wake d t).portSel = d.portSel ∧ (Dev.wake d t).qSel = d.qSel ∧
    (Dev.wake d t).polSel = d.polSel ∧ (Dev.wake d t).group = d.group ∧ (Dev.wake d t).lane = d.lane ∧ (Dev.wake d t).casc = d.casc ∧ (Dev.wake d t).mc = d.mc ∧
    (Dev.wake d t).chk = d.chk ∧ (Dev.wake d t).chkMode = d.chkMode ∧ (Dev.wake d t).chkSel = d.chkSel ∧ (Dev.wake d t).trust = d.trust ∧ (Dev.wake d t).prl = d.prl ∧
    (Dev.wake d t).memEra = d.memEra ∧ (Dev.wake d t).out = d.out ∧ (Dev.wake d t).waiting = d.waiting ∧ (Dev.wake d t).absent = d.absent ∧
    (Dev.wake d t).freeCtr = d.freeCtr := by
  unfold Dev.wake; dsimp only; (repeat' split) <;> simp

@[simp] theorem Dev.mergePost_frame (d : Dev) (t : Nat) (mask : Word) :
    (Dev.mergePost d t mask).ctl = d.ctl ∧ (Dev.mergePost d t mask).tb = d.tb ∧ (Dev.mergePost d t mask).flt = d.flt ∧ (Dev.mergePost d t mask).hub = d.hub ∧
    (Dev.mergePost d t mask).rings = d.rings ∧ (Dev.mergePost d t mask).dsp = d.dsp ∧ (Dev.mergePost d t mask).loc = d.loc ∧ (Dev.mergePost d t mask).locErr = d.locErr ∧
    (Dev.mergePost d t mask).spillErr = d.spillErr ∧ (Dev.mergePost d t mask).win = d.win ∧ (Dev.mergePost d t mask).unitQ = d.unitQ ∧
    (Dev.mergePost d t mask).pend = d.pend ∧ (Dev.mergePost d t mask).fab = d.fab ∧ (Dev.mergePost d t mask).cap = d.cap ∧ (Dev.mergePost d t mask).capSel = d.capSel ∧
    (Dev.mergePost d t mask).scene = d.scene ∧ (Dev.mergePost d t mask).layer = d.layer ∧ (Dev.mergePost d t mask).cluster = d.cluster ∧
    (Dev.mergePost d t mask).blit = d.blit ∧ (Dev.mergePost d t mask).chan = d.chan ∧ (Dev.mergePost d t mask).pipe = d.pipe ∧ (Dev.mergePost d t mask).dec = d.dec ∧
    (Dev.mergePost d t mask).decPipe = d.decPipe ∧ (Dev.mergePost d t mask).decSel = d.decSel ∧ (Dev.mergePost d t mask).twin = d.twin ∧
    (Dev.mergePost d t mask).flow = d.flow ∧ (Dev.mergePost d t mask).pkgSel = d.pkgSel ∧ (Dev.mergePost d t mask).tmIn = d.tmIn ∧
    (Dev.mergePost d t mask).queue = d.queue ∧ (Dev.mergePost d t mask).port = d.port ∧ (Dev.mergePost d t mask).pol = d.pol ∧
    (Dev.mergePost d t mask).portSel = d.portSel ∧ (Dev.mergePost d t mask).qSel = d.qSel ∧ (Dev.mergePost d t mask).polSel = d.polSel ∧
    (Dev.mergePost d t mask).group = d.group ∧ (Dev.mergePost d t mask).lane = d.lane ∧ (Dev.mergePost d t mask).casc = d.casc ∧ (Dev.mergePost d t mask).mc = d.mc ∧
    (Dev.mergePost d t mask).chk = d.chk ∧ (Dev.mergePost d t mask).chkMode = d.chkMode ∧ (Dev.mergePost d t mask).chkSel = d.chkSel ∧
    (Dev.mergePost d t mask).trust = d.trust ∧ (Dev.mergePost d t mask).prl = d.prl ∧ (Dev.mergePost d t mask).mem = d.mem ∧ (Dev.mergePost d t mask).memEra = d.memEra ∧
    (Dev.mergePost d t mask).poison = d.poison ∧ (Dev.mergePost d t mask).out = d.out ∧ (Dev.mergePost d t mask).waiting = d.waiting ∧
    (Dev.mergePost d t mask).absent = d.absent ∧ (Dev.mergePost d t mask).freeCtr = d.freeCtr := by
  unfold Dev.mergePost; (repeat' split) <;> simp

@[simp] theorem Dev.putPostQueue_frame (d : Dev) (c : Nat) (q : List (Nat × Word)) :
    (Dev.putPostQueue d c q).ctl = d.ctl ∧ (Dev.putPostQueue d c q).tb = d.tb ∧ (Dev.putPostQueue d c q).flt = d.flt ∧ (Dev.putPostQueue d c q).hub = d.hub ∧
    (Dev.putPostQueue d c q).rings = d.rings ∧ (Dev.putPostQueue d c q).thr = d.thr ∧ (Dev.putPostQueue d c q).loc = d.loc ∧ (Dev.putPostQueue d c q).locErr = d.locErr ∧
    (Dev.putPostQueue d c q).spillErr = d.spillErr ∧ (Dev.putPostQueue d c q).win = d.win ∧ (Dev.putPostQueue d c q).unitQ = d.unitQ ∧
    (Dev.putPostQueue d c q).pend = d.pend ∧ (Dev.putPostQueue d c q).fab = d.fab ∧ (Dev.putPostQueue d c q).cap = d.cap ∧ (Dev.putPostQueue d c q).capSel = d.capSel ∧
    (Dev.putPostQueue d c q).scene = d.scene ∧ (Dev.putPostQueue d c q).layer = d.layer ∧ (Dev.putPostQueue d c q).cluster = d.cluster ∧
    (Dev.putPostQueue d c q).blit = d.blit ∧ (Dev.putPostQueue d c q).chan = d.chan ∧ (Dev.putPostQueue d c q).pipe = d.pipe ∧ (Dev.putPostQueue d c q).dec = d.dec ∧
    (Dev.putPostQueue d c q).decPipe = d.decPipe ∧ (Dev.putPostQueue d c q).decSel = d.decSel ∧ (Dev.putPostQueue d c q).twin = d.twin ∧
    (Dev.putPostQueue d c q).flow = d.flow ∧ (Dev.putPostQueue d c q).pkgSel = d.pkgSel ∧ (Dev.putPostQueue d c q).tmIn = d.tmIn ∧
    (Dev.putPostQueue d c q).queue = d.queue ∧ (Dev.putPostQueue d c q).port = d.port ∧ (Dev.putPostQueue d c q).pol = d.pol ∧
    (Dev.putPostQueue d c q).portSel = d.portSel ∧ (Dev.putPostQueue d c q).qSel = d.qSel ∧ (Dev.putPostQueue d c q).polSel = d.polSel ∧
    (Dev.putPostQueue d c q).group = d.group ∧ (Dev.putPostQueue d c q).lane = d.lane ∧ (Dev.putPostQueue d c q).casc = d.casc ∧ (Dev.putPostQueue d c q).mc = d.mc ∧
    (Dev.putPostQueue d c q).chk = d.chk ∧ (Dev.putPostQueue d c q).chkMode = d.chkMode ∧ (Dev.putPostQueue d c q).chkSel = d.chkSel ∧
    (Dev.putPostQueue d c q).trust = d.trust ∧ (Dev.putPostQueue d c q).prl = d.prl ∧ (Dev.putPostQueue d c q).mem = d.mem ∧ (Dev.putPostQueue d c q).memEra = d.memEra ∧
    (Dev.putPostQueue d c q).poison = d.poison ∧ (Dev.putPostQueue d c q).out = d.out ∧ (Dev.putPostQueue d c q).waiting = d.waiting ∧
    (Dev.putPostQueue d c q).absent = d.absent ∧ (Dev.putPostQueue d c q).freeCtr = d.freeCtr := by
  simp [Dev.putPostQueue]

@[simp] theorem Dev.holdPost_frame (d : Dev) (p : Poster) (t : Nat) (mask : Word) :
    (Dev.holdPost d p t mask).ctl = d.ctl ∧ (Dev.holdPost d p t mask).tb = d.tb ∧ (Dev.holdPost d p t mask).flt = d.flt ∧ (Dev.holdPost d p t mask).hub = d.hub ∧
    (Dev.holdPost d p t mask).rings = d.rings ∧ (Dev.holdPost d p t mask).thr = d.thr ∧ (Dev.holdPost d p t mask).loc = d.loc ∧
    (Dev.holdPost d p t mask).locErr = d.locErr ∧ (Dev.holdPost d p t mask).spillErr = d.spillErr ∧ (Dev.holdPost d p t mask).win = d.win ∧
    (Dev.holdPost d p t mask).unitQ = d.unitQ ∧ (Dev.holdPost d p t mask).pend = d.pend ∧ (Dev.holdPost d p t mask).fab = d.fab ∧ (Dev.holdPost d p t mask).cap = d.cap ∧
    (Dev.holdPost d p t mask).capSel = d.capSel ∧ (Dev.holdPost d p t mask).scene = d.scene ∧ (Dev.holdPost d p t mask).layer = d.layer ∧
    (Dev.holdPost d p t mask).cluster = d.cluster ∧ (Dev.holdPost d p t mask).blit = d.blit ∧ (Dev.holdPost d p t mask).chan = d.chan ∧
    (Dev.holdPost d p t mask).pipe = d.pipe ∧ (Dev.holdPost d p t mask).dec = d.dec ∧ (Dev.holdPost d p t mask).decPipe = d.decPipe ∧
    (Dev.holdPost d p t mask).decSel = d.decSel ∧ (Dev.holdPost d p t mask).twin = d.twin ∧ (Dev.holdPost d p t mask).flow = d.flow ∧
    (Dev.holdPost d p t mask).pkgSel = d.pkgSel ∧ (Dev.holdPost d p t mask).tmIn = d.tmIn ∧ (Dev.holdPost d p t mask).queue = d.queue ∧
    (Dev.holdPost d p t mask).port = d.port ∧ (Dev.holdPost d p t mask).pol = d.pol ∧ (Dev.holdPost d p t mask).portSel = d.portSel ∧
    (Dev.holdPost d p t mask).qSel = d.qSel ∧ (Dev.holdPost d p t mask).polSel = d.polSel ∧ (Dev.holdPost d p t mask).group = d.group ∧
    (Dev.holdPost d p t mask).lane = d.lane ∧ (Dev.holdPost d p t mask).casc = d.casc ∧ (Dev.holdPost d p t mask).mc = d.mc ∧ (Dev.holdPost d p t mask).chk = d.chk ∧
    (Dev.holdPost d p t mask).chkMode = d.chkMode ∧ (Dev.holdPost d p t mask).chkSel = d.chkSel ∧ (Dev.holdPost d p t mask).trust = d.trust ∧
    (Dev.holdPost d p t mask).prl = d.prl ∧ (Dev.holdPost d p t mask).mem = d.mem ∧ (Dev.holdPost d p t mask).memEra = d.memEra ∧
    (Dev.holdPost d p t mask).poison = d.poison ∧ (Dev.holdPost d p t mask).out = d.out ∧ (Dev.holdPost d p t mask).waiting = d.waiting ∧
    (Dev.holdPost d p t mask).absent = d.absent ∧ (Dev.holdPost d p t mask).freeCtr = d.freeCtr := by
  simp [Dev.holdPost]

@[simp] theorem Dev.enqueuePost_frame (d : Dev) (t : Nat) (mask : Word) :
    (Dev.enqueuePost d t mask).ctl = d.ctl ∧ (Dev.enqueuePost d t mask).tb = d.tb ∧ (Dev.enqueuePost d t mask).flt = d.flt ∧ (Dev.enqueuePost d t mask).hub = d.hub ∧
    (Dev.enqueuePost d t mask).rings = d.rings ∧ (Dev.enqueuePost d t mask).thr = d.thr ∧ (Dev.enqueuePost d t mask).loc = d.loc ∧
    (Dev.enqueuePost d t mask).locErr = d.locErr ∧ (Dev.enqueuePost d t mask).spillErr = d.spillErr ∧ (Dev.enqueuePost d t mask).win = d.win ∧
    (Dev.enqueuePost d t mask).unitQ = d.unitQ ∧ (Dev.enqueuePost d t mask).pend = d.pend ∧ (Dev.enqueuePost d t mask).fab = d.fab ∧
    (Dev.enqueuePost d t mask).cap = d.cap ∧ (Dev.enqueuePost d t mask).capSel = d.capSel ∧ (Dev.enqueuePost d t mask).scene = d.scene ∧
    (Dev.enqueuePost d t mask).layer = d.layer ∧ (Dev.enqueuePost d t mask).cluster = d.cluster ∧ (Dev.enqueuePost d t mask).blit = d.blit ∧
    (Dev.enqueuePost d t mask).chan = d.chan ∧ (Dev.enqueuePost d t mask).pipe = d.pipe ∧ (Dev.enqueuePost d t mask).dec = d.dec ∧
    (Dev.enqueuePost d t mask).decPipe = d.decPipe ∧ (Dev.enqueuePost d t mask).decSel = d.decSel ∧ (Dev.enqueuePost d t mask).twin = d.twin ∧
    (Dev.enqueuePost d t mask).flow = d.flow ∧ (Dev.enqueuePost d t mask).pkgSel = d.pkgSel ∧ (Dev.enqueuePost d t mask).tmIn = d.tmIn ∧
    (Dev.enqueuePost d t mask).queue = d.queue ∧ (Dev.enqueuePost d t mask).port = d.port ∧ (Dev.enqueuePost d t mask).pol = d.pol ∧
    (Dev.enqueuePost d t mask).portSel = d.portSel ∧ (Dev.enqueuePost d t mask).qSel = d.qSel ∧ (Dev.enqueuePost d t mask).polSel = d.polSel ∧
    (Dev.enqueuePost d t mask).group = d.group ∧ (Dev.enqueuePost d t mask).lane = d.lane ∧ (Dev.enqueuePost d t mask).casc = d.casc ∧
    (Dev.enqueuePost d t mask).mc = d.mc ∧ (Dev.enqueuePost d t mask).chk = d.chk ∧ (Dev.enqueuePost d t mask).chkMode = d.chkMode ∧
    (Dev.enqueuePost d t mask).chkSel = d.chkSel ∧ (Dev.enqueuePost d t mask).trust = d.trust ∧ (Dev.enqueuePost d t mask).prl = d.prl ∧
    (Dev.enqueuePost d t mask).mem = d.mem ∧ (Dev.enqueuePost d t mask).memEra = d.memEra ∧ (Dev.enqueuePost d t mask).poison = d.poison ∧
    (Dev.enqueuePost d t mask).out = d.out ∧ (Dev.enqueuePost d t mask).waiting = d.waiting ∧ (Dev.enqueuePost d t mask).absent = d.absent ∧
    (Dev.enqueuePost d t mask).freeCtr = d.freeCtr := by
  simp [Dev.enqueuePost]

@[simp] theorem Dev.unitPost_frame (d : Dev) (unit : Nat) (t : Nat) (mask : Word) :
    (Dev.unitPost d unit t mask).ctl = d.ctl ∧ (Dev.unitPost d unit t mask).tb = d.tb ∧ (Dev.unitPost d unit t mask).flt = d.flt ∧
    (Dev.unitPost d unit t mask).hub = d.hub ∧ (Dev.unitPost d unit t mask).rings = d.rings ∧ (Dev.unitPost d unit t mask).thr = d.thr ∧
    (Dev.unitPost d unit t mask).loc = d.loc ∧ (Dev.unitPost d unit t mask).locErr = d.locErr ∧ (Dev.unitPost d unit t mask).spillErr = d.spillErr ∧
    (Dev.unitPost d unit t mask).win = d.win ∧ (Dev.unitPost d unit t mask).unitQ = d.unitQ ∧ (Dev.unitPost d unit t mask).pend = d.pend ∧
    (Dev.unitPost d unit t mask).fab = d.fab ∧ (Dev.unitPost d unit t mask).cap = d.cap ∧ (Dev.unitPost d unit t mask).capSel = d.capSel ∧
    (Dev.unitPost d unit t mask).scene = d.scene ∧ (Dev.unitPost d unit t mask).layer = d.layer ∧ (Dev.unitPost d unit t mask).cluster = d.cluster ∧
    (Dev.unitPost d unit t mask).blit = d.blit ∧ (Dev.unitPost d unit t mask).chan = d.chan ∧ (Dev.unitPost d unit t mask).pipe = d.pipe ∧
    (Dev.unitPost d unit t mask).dec = d.dec ∧ (Dev.unitPost d unit t mask).decPipe = d.decPipe ∧ (Dev.unitPost d unit t mask).decSel = d.decSel ∧
    (Dev.unitPost d unit t mask).twin = d.twin ∧ (Dev.unitPost d unit t mask).flow = d.flow ∧ (Dev.unitPost d unit t mask).pkgSel = d.pkgSel ∧
    (Dev.unitPost d unit t mask).tmIn = d.tmIn ∧ (Dev.unitPost d unit t mask).queue = d.queue ∧ (Dev.unitPost d unit t mask).port = d.port ∧
    (Dev.unitPost d unit t mask).pol = d.pol ∧ (Dev.unitPost d unit t mask).portSel = d.portSel ∧ (Dev.unitPost d unit t mask).qSel = d.qSel ∧
    (Dev.unitPost d unit t mask).polSel = d.polSel ∧ (Dev.unitPost d unit t mask).group = d.group ∧ (Dev.unitPost d unit t mask).lane = d.lane ∧
    (Dev.unitPost d unit t mask).casc = d.casc ∧ (Dev.unitPost d unit t mask).mc = d.mc ∧ (Dev.unitPost d unit t mask).chk = d.chk ∧
    (Dev.unitPost d unit t mask).chkMode = d.chkMode ∧ (Dev.unitPost d unit t mask).chkSel = d.chkSel ∧ (Dev.unitPost d unit t mask).trust = d.trust ∧
    (Dev.unitPost d unit t mask).prl = d.prl ∧ (Dev.unitPost d unit t mask).mem = d.mem ∧ (Dev.unitPost d unit t mask).memEra = d.memEra ∧
    (Dev.unitPost d unit t mask).poison = d.poison ∧ (Dev.unitPost d unit t mask).out = d.out ∧ (Dev.unitPost d unit t mask).waiting = d.waiting ∧
    (Dev.unitPost d unit t mask).absent = d.absent ∧ (Dev.unitPost d unit t mask).freeCtr = d.freeCtr := by
  unfold Dev.unitPost; (repeat' split) <;> simp

@[simp] theorem Dev.postBy_frame (d : Dev) (unit : Nat) (t : Nat) (mask : Word) :
    (Dev.postBy d unit t mask).ctl = d.ctl ∧ (Dev.postBy d unit t mask).tb = d.tb ∧ (Dev.postBy d unit t mask).flt = d.flt ∧ (Dev.postBy d unit t mask).hub = d.hub ∧
    (Dev.postBy d unit t mask).rings = d.rings ∧ (Dev.postBy d unit t mask).loc = d.loc ∧ (Dev.postBy d unit t mask).locErr = d.locErr ∧
    (Dev.postBy d unit t mask).spillErr = d.spillErr ∧ (Dev.postBy d unit t mask).win = d.win ∧ (Dev.postBy d unit t mask).unitQ = d.unitQ ∧
    (Dev.postBy d unit t mask).pend = d.pend ∧ (Dev.postBy d unit t mask).fab = d.fab ∧ (Dev.postBy d unit t mask).cap = d.cap ∧
    (Dev.postBy d unit t mask).capSel = d.capSel ∧ (Dev.postBy d unit t mask).scene = d.scene ∧ (Dev.postBy d unit t mask).layer = d.layer ∧
    (Dev.postBy d unit t mask).cluster = d.cluster ∧ (Dev.postBy d unit t mask).blit = d.blit ∧ (Dev.postBy d unit t mask).chan = d.chan ∧
    (Dev.postBy d unit t mask).pipe = d.pipe ∧ (Dev.postBy d unit t mask).dec = d.dec ∧ (Dev.postBy d unit t mask).decPipe = d.decPipe ∧
    (Dev.postBy d unit t mask).decSel = d.decSel ∧ (Dev.postBy d unit t mask).twin = d.twin ∧ (Dev.postBy d unit t mask).flow = d.flow ∧
    (Dev.postBy d unit t mask).pkgSel = d.pkgSel ∧ (Dev.postBy d unit t mask).tmIn = d.tmIn ∧ (Dev.postBy d unit t mask).queue = d.queue ∧
    (Dev.postBy d unit t mask).port = d.port ∧ (Dev.postBy d unit t mask).pol = d.pol ∧ (Dev.postBy d unit t mask).portSel = d.portSel ∧
    (Dev.postBy d unit t mask).qSel = d.qSel ∧ (Dev.postBy d unit t mask).polSel = d.polSel ∧ (Dev.postBy d unit t mask).group = d.group ∧
    (Dev.postBy d unit t mask).lane = d.lane ∧ (Dev.postBy d unit t mask).casc = d.casc ∧ (Dev.postBy d unit t mask).mc = d.mc ∧ (Dev.postBy d unit t mask).chk = d.chk ∧
    (Dev.postBy d unit t mask).chkMode = d.chkMode ∧ (Dev.postBy d unit t mask).chkSel = d.chkSel ∧ (Dev.postBy d unit t mask).trust = d.trust ∧
    (Dev.postBy d unit t mask).prl = d.prl ∧ (Dev.postBy d unit t mask).mem = d.mem ∧ (Dev.postBy d unit t mask).memEra = d.memEra ∧
    (Dev.postBy d unit t mask).poison = d.poison ∧ (Dev.postBy d unit t mask).out = d.out ∧ (Dev.postBy d unit t mask).waiting = d.waiting ∧
    (Dev.postBy d unit t mask).absent = d.absent ∧ (Dev.postBy d unit t mask).freeCtr = d.freeCtr := by
  unfold Dev.postBy; (repeat' split) <;> simp

@[simp] theorem Dev.writeComp_frame (d : Dev) (fn : Nat) (c : Comp) :
    (Dev.writeComp d fn c).ctl = d.ctl ∧ (Dev.writeComp d fn c).tb = d.tb ∧ (Dev.writeComp d fn c).flt = d.flt ∧ (Dev.writeComp d fn c).dsp = d.dsp ∧
    (Dev.writeComp d fn c).thr = d.thr ∧ (Dev.writeComp d fn c).loc = d.loc ∧ (Dev.writeComp d fn c).locErr = d.locErr ∧ (Dev.writeComp d fn c).spillErr = d.spillErr ∧
    (Dev.writeComp d fn c).win = d.win ∧ (Dev.writeComp d fn c).unitQ = d.unitQ ∧ (Dev.writeComp d fn c).pend = d.pend ∧ (Dev.writeComp d fn c).fab = d.fab ∧
    (Dev.writeComp d fn c).cap = d.cap ∧ (Dev.writeComp d fn c).capSel = d.capSel ∧ (Dev.writeComp d fn c).scene = d.scene ∧ (Dev.writeComp d fn c).layer = d.layer ∧
    (Dev.writeComp d fn c).cluster = d.cluster ∧ (Dev.writeComp d fn c).blit = d.blit ∧ (Dev.writeComp d fn c).chan = d.chan ∧ (Dev.writeComp d fn c).pipe = d.pipe ∧
    (Dev.writeComp d fn c).dec = d.dec ∧ (Dev.writeComp d fn c).decPipe = d.decPipe ∧ (Dev.writeComp d fn c).decSel = d.decSel ∧ (Dev.writeComp d fn c).twin = d.twin ∧
    (Dev.writeComp d fn c).flow = d.flow ∧ (Dev.writeComp d fn c).pkgSel = d.pkgSel ∧ (Dev.writeComp d fn c).tmIn = d.tmIn ∧ (Dev.writeComp d fn c).queue = d.queue ∧
    (Dev.writeComp d fn c).port = d.port ∧ (Dev.writeComp d fn c).pol = d.pol ∧ (Dev.writeComp d fn c).portSel = d.portSel ∧ (Dev.writeComp d fn c).qSel = d.qSel ∧
    (Dev.writeComp d fn c).polSel = d.polSel ∧ (Dev.writeComp d fn c).group = d.group ∧ (Dev.writeComp d fn c).lane = d.lane ∧ (Dev.writeComp d fn c).casc = d.casc ∧
    (Dev.writeComp d fn c).mc = d.mc ∧ (Dev.writeComp d fn c).chk = d.chk ∧ (Dev.writeComp d fn c).chkMode = d.chkMode ∧ (Dev.writeComp d fn c).chkSel = d.chkSel ∧
    (Dev.writeComp d fn c).trust = d.trust ∧ (Dev.writeComp d fn c).prl = d.prl ∧ (Dev.writeComp d fn c).mem = d.mem ∧ (Dev.writeComp d fn c).memEra = d.memEra ∧
    (Dev.writeComp d fn c).poison = d.poison ∧ (Dev.writeComp d fn c).absent = d.absent ∧ (Dev.writeComp d fn c).freeCtr = d.freeCtr := by
  unfold Dev.writeComp; dsimp only; (repeat' split) <;> simp

@[simp] theorem Dev.unname_frame (d : Dev) (x : Desc) :
    (Dev.unname d x).ctl = d.ctl ∧ (Dev.unname d x).tb = d.tb ∧ (Dev.unname d x).flt = d.flt ∧ (Dev.unname d x).hub = d.hub ∧ (Dev.unname d x).rings = d.rings ∧
    (Dev.unname d x).dsp = d.dsp ∧ (Dev.unname d x).loc = d.loc ∧ (Dev.unname d x).locErr = d.locErr ∧ (Dev.unname d x).spillErr = d.spillErr ∧
    (Dev.unname d x).win = d.win ∧ (Dev.unname d x).unitQ = d.unitQ ∧ (Dev.unname d x).pend = d.pend ∧ (Dev.unname d x).fab = d.fab ∧ (Dev.unname d x).cap = d.cap ∧
    (Dev.unname d x).capSel = d.capSel ∧ (Dev.unname d x).scene = d.scene ∧ (Dev.unname d x).layer = d.layer ∧ (Dev.unname d x).cluster = d.cluster ∧
    (Dev.unname d x).blit = d.blit ∧ (Dev.unname d x).chan = d.chan ∧ (Dev.unname d x).pipe = d.pipe ∧ (Dev.unname d x).dec = d.dec ∧
    (Dev.unname d x).decPipe = d.decPipe ∧ (Dev.unname d x).decSel = d.decSel ∧ (Dev.unname d x).twin = d.twin ∧ (Dev.unname d x).flow = d.flow ∧
    (Dev.unname d x).pkgSel = d.pkgSel ∧ (Dev.unname d x).tmIn = d.tmIn ∧ (Dev.unname d x).queue = d.queue ∧ (Dev.unname d x).port = d.port ∧
    (Dev.unname d x).pol = d.pol ∧ (Dev.unname d x).portSel = d.portSel ∧ (Dev.unname d x).qSel = d.qSel ∧ (Dev.unname d x).polSel = d.polSel ∧
    (Dev.unname d x).group = d.group ∧ (Dev.unname d x).lane = d.lane ∧ (Dev.unname d x).casc = d.casc ∧ (Dev.unname d x).mc = d.mc ∧ (Dev.unname d x).chk = d.chk ∧
    (Dev.unname d x).chkMode = d.chkMode ∧ (Dev.unname d x).chkSel = d.chkSel ∧ (Dev.unname d x).trust = d.trust ∧ (Dev.unname d x).prl = d.prl ∧
    (Dev.unname d x).mem = d.mem ∧ (Dev.unname d x).memEra = d.memEra ∧ (Dev.unname d x).poison = d.poison ∧ (Dev.unname d x).out = d.out ∧
    (Dev.unname d x).waiting = d.waiting ∧ (Dev.unname d x).absent = d.absent ∧ (Dev.unname d x).freeCtr = d.freeCtr := by
  unfold Dev.unname; dsimp only; (repeat' split) <;> simp

@[simp] theorem Dev.nameNotify_frame (d : Dev) (x : Desc) :
    (Dev.nameNotify d x).ctl = d.ctl ∧ (Dev.nameNotify d x).tb = d.tb ∧ (Dev.nameNotify d x).flt = d.flt ∧ (Dev.nameNotify d x).hub = d.hub ∧
    (Dev.nameNotify d x).rings = d.rings ∧ (Dev.nameNotify d x).dsp = d.dsp ∧ (Dev.nameNotify d x).loc = d.loc ∧ (Dev.nameNotify d x).locErr = d.locErr ∧
    (Dev.nameNotify d x).spillErr = d.spillErr ∧ (Dev.nameNotify d x).win = d.win ∧ (Dev.nameNotify d x).unitQ = d.unitQ ∧ (Dev.nameNotify d x).pend = d.pend ∧
    (Dev.nameNotify d x).fab = d.fab ∧ (Dev.nameNotify d x).cap = d.cap ∧ (Dev.nameNotify d x).capSel = d.capSel ∧ (Dev.nameNotify d x).scene = d.scene ∧
    (Dev.nameNotify d x).layer = d.layer ∧ (Dev.nameNotify d x).cluster = d.cluster ∧ (Dev.nameNotify d x).blit = d.blit ∧ (Dev.nameNotify d x).chan = d.chan ∧
    (Dev.nameNotify d x).pipe = d.pipe ∧ (Dev.nameNotify d x).dec = d.dec ∧ (Dev.nameNotify d x).decPipe = d.decPipe ∧ (Dev.nameNotify d x).decSel = d.decSel ∧
    (Dev.nameNotify d x).twin = d.twin ∧ (Dev.nameNotify d x).flow = d.flow ∧ (Dev.nameNotify d x).pkgSel = d.pkgSel ∧ (Dev.nameNotify d x).tmIn = d.tmIn ∧
    (Dev.nameNotify d x).queue = d.queue ∧ (Dev.nameNotify d x).port = d.port ∧ (Dev.nameNotify d x).pol = d.pol ∧ (Dev.nameNotify d x).portSel = d.portSel ∧
    (Dev.nameNotify d x).qSel = d.qSel ∧ (Dev.nameNotify d x).polSel = d.polSel ∧ (Dev.nameNotify d x).group = d.group ∧ (Dev.nameNotify d x).lane = d.lane ∧
    (Dev.nameNotify d x).casc = d.casc ∧ (Dev.nameNotify d x).mc = d.mc ∧ (Dev.nameNotify d x).chk = d.chk ∧ (Dev.nameNotify d x).chkMode = d.chkMode ∧
    (Dev.nameNotify d x).chkSel = d.chkSel ∧ (Dev.nameNotify d x).trust = d.trust ∧ (Dev.nameNotify d x).prl = d.prl ∧ (Dev.nameNotify d x).mem = d.mem ∧
    (Dev.nameNotify d x).memEra = d.memEra ∧ (Dev.nameNotify d x).poison = d.poison ∧ (Dev.nameNotify d x).out = d.out ∧ (Dev.nameNotify d x).waiting = d.waiting ∧
    (Dev.nameNotify d x).absent = d.absent ∧ (Dev.nameNotify d x).freeCtr = d.freeCtr := by
  unfold Dev.nameNotify; (repeat' split) <;> simp

@[simp] theorem Dev.dropIssue_frame (d : Dev) (t : Nat) :
    (Dev.dropIssue d t).ctl = d.ctl ∧ (Dev.dropIssue d t).tb = d.tb ∧ (Dev.dropIssue d t).flt = d.flt ∧ (Dev.dropIssue d t).hub = d.hub ∧
    (Dev.dropIssue d t).rings = d.rings ∧ (Dev.dropIssue d t).dsp = d.dsp ∧ (Dev.dropIssue d t).loc = d.loc ∧ (Dev.dropIssue d t).locErr = d.locErr ∧
    (Dev.dropIssue d t).spillErr = d.spillErr ∧ (Dev.dropIssue d t).win = d.win ∧ (Dev.dropIssue d t).unitQ = d.unitQ ∧ (Dev.dropIssue d t).pend = d.pend ∧
    (Dev.dropIssue d t).fab = d.fab ∧ (Dev.dropIssue d t).cap = d.cap ∧ (Dev.dropIssue d t).capSel = d.capSel ∧ (Dev.dropIssue d t).scene = d.scene ∧
    (Dev.dropIssue d t).layer = d.layer ∧ (Dev.dropIssue d t).cluster = d.cluster ∧ (Dev.dropIssue d t).blit = d.blit ∧ (Dev.dropIssue d t).chan = d.chan ∧
    (Dev.dropIssue d t).pipe = d.pipe ∧ (Dev.dropIssue d t).dec = d.dec ∧ (Dev.dropIssue d t).decPipe = d.decPipe ∧ (Dev.dropIssue d t).decSel = d.decSel ∧
    (Dev.dropIssue d t).twin = d.twin ∧ (Dev.dropIssue d t).flow = d.flow ∧ (Dev.dropIssue d t).pkgSel = d.pkgSel ∧ (Dev.dropIssue d t).tmIn = d.tmIn ∧
    (Dev.dropIssue d t).queue = d.queue ∧ (Dev.dropIssue d t).port = d.port ∧ (Dev.dropIssue d t).pol = d.pol ∧ (Dev.dropIssue d t).portSel = d.portSel ∧
    (Dev.dropIssue d t).qSel = d.qSel ∧ (Dev.dropIssue d t).polSel = d.polSel ∧ (Dev.dropIssue d t).group = d.group ∧ (Dev.dropIssue d t).lane = d.lane ∧
    (Dev.dropIssue d t).casc = d.casc ∧ (Dev.dropIssue d t).mc = d.mc ∧ (Dev.dropIssue d t).chk = d.chk ∧ (Dev.dropIssue d t).chkMode = d.chkMode ∧
    (Dev.dropIssue d t).chkSel = d.chkSel ∧ (Dev.dropIssue d t).trust = d.trust ∧ (Dev.dropIssue d t).prl = d.prl ∧ (Dev.dropIssue d t).mem = d.mem ∧
    (Dev.dropIssue d t).memEra = d.memEra ∧ (Dev.dropIssue d t).poison = d.poison ∧ (Dev.dropIssue d t).out = d.out ∧ (Dev.dropIssue d t).waiting = d.waiting ∧
    (Dev.dropIssue d t).absent = d.absent ∧ (Dev.dropIssue d t).freeCtr = d.freeCtr := by
  unfold Dev.dropIssue; (repeat' split) <;> simp

@[simp] theorem Dev.freeThread_frame (d : Dev) (t : Nat) :
    (Dev.freeThread d t).ctl = d.ctl ∧ (Dev.freeThread d t).tb = d.tb ∧ (Dev.freeThread d t).flt = d.flt ∧ (Dev.freeThread d t).hub = d.hub ∧
    (Dev.freeThread d t).rings = d.rings ∧ (Dev.freeThread d t).dsp = d.dsp ∧ (Dev.freeThread d t).loc = d.loc ∧ (Dev.freeThread d t).locErr = d.locErr ∧
    (Dev.freeThread d t).spillErr = d.spillErr ∧ (Dev.freeThread d t).win = d.win ∧ (Dev.freeThread d t).unitQ = d.unitQ ∧ (Dev.freeThread d t).pend = d.pend ∧
    (Dev.freeThread d t).fab = d.fab ∧ (Dev.freeThread d t).cap = d.cap ∧ (Dev.freeThread d t).capSel = d.capSel ∧ (Dev.freeThread d t).scene = d.scene ∧
    (Dev.freeThread d t).layer = d.layer ∧ (Dev.freeThread d t).cluster = d.cluster ∧ (Dev.freeThread d t).blit = d.blit ∧ (Dev.freeThread d t).chan = d.chan ∧
    (Dev.freeThread d t).pipe = d.pipe ∧ (Dev.freeThread d t).dec = d.dec ∧ (Dev.freeThread d t).decPipe = d.decPipe ∧ (Dev.freeThread d t).decSel = d.decSel ∧
    (Dev.freeThread d t).twin = d.twin ∧ (Dev.freeThread d t).flow = d.flow ∧ (Dev.freeThread d t).pkgSel = d.pkgSel ∧ (Dev.freeThread d t).tmIn = d.tmIn ∧
    (Dev.freeThread d t).queue = d.queue ∧ (Dev.freeThread d t).port = d.port ∧ (Dev.freeThread d t).pol = d.pol ∧ (Dev.freeThread d t).portSel = d.portSel ∧
    (Dev.freeThread d t).qSel = d.qSel ∧ (Dev.freeThread d t).polSel = d.polSel ∧ (Dev.freeThread d t).group = d.group ∧ (Dev.freeThread d t).lane = d.lane ∧
    (Dev.freeThread d t).casc = d.casc ∧ (Dev.freeThread d t).mc = d.mc ∧ (Dev.freeThread d t).chk = d.chk ∧ (Dev.freeThread d t).chkMode = d.chkMode ∧
    (Dev.freeThread d t).chkSel = d.chkSel ∧ (Dev.freeThread d t).trust = d.trust ∧ (Dev.freeThread d t).prl = d.prl ∧ (Dev.freeThread d t).mem = d.mem ∧
    (Dev.freeThread d t).memEra = d.memEra ∧ (Dev.freeThread d t).poison = d.poison ∧ (Dev.freeThread d t).out = d.out ∧ (Dev.freeThread d t).waiting = d.waiting ∧
    (Dev.freeThread d t).absent = d.absent ∧ (Dev.freeThread d t).freeCtr = d.freeCtr := by
  simp [Dev.freeThread]

@[simp] theorem Dev.releaseRetired_frame (d : Dev) (o : Option Nat) :
    (d.releaseRetired o).ctl = d.ctl ∧ (d.releaseRetired o).tb = d.tb ∧ (d.releaseRetired o).flt = d.flt ∧ (d.releaseRetired o).dsp = d.dsp ∧
    (d.releaseRetired o).loc = d.loc ∧ (d.releaseRetired o).locErr = d.locErr ∧ (d.releaseRetired o).spillErr = d.spillErr ∧ (d.releaseRetired o).win = d.win ∧
    (d.releaseRetired o).unitQ = d.unitQ ∧ (d.releaseRetired o).pend = d.pend ∧ (d.releaseRetired o).fab = d.fab ∧ (d.releaseRetired o).cap = d.cap ∧
    (d.releaseRetired o).capSel = d.capSel ∧ (d.releaseRetired o).scene = d.scene ∧ (d.releaseRetired o).layer = d.layer ∧ (d.releaseRetired o).cluster = d.cluster ∧
    (d.releaseRetired o).blit = d.blit ∧ (d.releaseRetired o).chan = d.chan ∧ (d.releaseRetired o).pipe = d.pipe ∧ (d.releaseRetired o).dec = d.dec ∧
    (d.releaseRetired o).decPipe = d.decPipe ∧ (d.releaseRetired o).decSel = d.decSel ∧ (d.releaseRetired o).twin = d.twin ∧ (d.releaseRetired o).flow = d.flow ∧
    (d.releaseRetired o).pkgSel = d.pkgSel ∧ (d.releaseRetired o).tmIn = d.tmIn ∧ (d.releaseRetired o).queue = d.queue ∧ (d.releaseRetired o).port = d.port ∧
    (d.releaseRetired o).pol = d.pol ∧ (d.releaseRetired o).portSel = d.portSel ∧ (d.releaseRetired o).qSel = d.qSel ∧ (d.releaseRetired o).polSel = d.polSel ∧
    (d.releaseRetired o).group = d.group ∧ (d.releaseRetired o).lane = d.lane ∧ (d.releaseRetired o).casc = d.casc ∧ (d.releaseRetired o).mc = d.mc ∧
    (d.releaseRetired o).chk = d.chk ∧ (d.releaseRetired o).chkMode = d.chkMode ∧ (d.releaseRetired o).chkSel = d.chkSel ∧ (d.releaseRetired o).trust = d.trust ∧
    (d.releaseRetired o).prl = d.prl ∧ (d.releaseRetired o).mem = d.mem ∧ (d.releaseRetired o).memEra = d.memEra ∧ (d.releaseRetired o).poison = d.poison ∧
    (d.releaseRetired o).absent = d.absent ∧ (d.releaseRetired o).freeCtr = d.freeCtr := by
  cases o <;> simp [Dev.releaseRetired]

@[simp] theorem Dev.pump_frame (fn n : Nat) : ∀ d : Dev,
    (Dev.pump fn n d).ctl = d.ctl ∧ (Dev.pump fn n d).tb = d.tb ∧ (Dev.pump fn n d).flt = d.flt ∧ (Dev.pump fn n d).dsp = d.dsp ∧ (Dev.pump fn n d).loc = d.loc ∧
    (Dev.pump fn n d).locErr = d.locErr ∧ (Dev.pump fn n d).spillErr = d.spillErr ∧ (Dev.pump fn n d).win = d.win ∧ (Dev.pump fn n d).unitQ = d.unitQ ∧
    (Dev.pump fn n d).pend = d.pend ∧ (Dev.pump fn n d).fab = d.fab ∧ (Dev.pump fn n d).cap = d.cap ∧ (Dev.pump fn n d).capSel = d.capSel ∧
    (Dev.pump fn n d).scene = d.scene ∧ (Dev.pump fn n d).layer = d.layer ∧ (Dev.pump fn n d).cluster = d.cluster ∧ (Dev.pump fn n d).blit = d.blit ∧
    (Dev.pump fn n d).chan = d.chan ∧ (Dev.pump fn n d).pipe = d.pipe ∧ (Dev.pump fn n d).dec = d.dec ∧ (Dev.pump fn n d).decPipe = d.decPipe ∧
    (Dev.pump fn n d).decSel = d.decSel ∧ (Dev.pump fn n d).twin = d.twin ∧ (Dev.pump fn n d).flow = d.flow ∧ (Dev.pump fn n d).pkgSel = d.pkgSel ∧
    (Dev.pump fn n d).tmIn = d.tmIn ∧ (Dev.pump fn n d).queue = d.queue ∧ (Dev.pump fn n d).port = d.port ∧ (Dev.pump fn n d).pol = d.pol ∧
    (Dev.pump fn n d).portSel = d.portSel ∧ (Dev.pump fn n d).qSel = d.qSel ∧ (Dev.pump fn n d).polSel = d.polSel ∧ (Dev.pump fn n d).group = d.group ∧
    (Dev.pump fn n d).lane = d.lane ∧ (Dev.pump fn n d).casc = d.casc ∧ (Dev.pump fn n d).mc = d.mc ∧ (Dev.pump fn n d).chk = d.chk ∧
    (Dev.pump fn n d).chkMode = d.chkMode ∧ (Dev.pump fn n d).chkSel = d.chkSel ∧ (Dev.pump fn n d).trust = d.trust ∧ (Dev.pump fn n d).prl = d.prl ∧
    (Dev.pump fn n d).mem = d.mem ∧ (Dev.pump fn n d).memEra = d.memEra ∧ (Dev.pump fn n d).poison = d.poison ∧ (Dev.pump fn n d).absent = d.absent ∧
    (Dev.pump fn n d).freeCtr = d.freeCtr := by
  induction n with
  | zero => intro d; simp [Dev.pump]
  | succ n ih =>
    intro d
    unfold Dev.pump
    dsimp only
    (repeat' split) <;> simp [ih]

@[simp] theorem Dev.pumpAll_frame (d : Dev) (fn : Nat) :
    (Dev.pumpAll d fn).ctl = d.ctl ∧ (Dev.pumpAll d fn).tb = d.tb ∧ (Dev.pumpAll d fn).flt = d.flt ∧ (Dev.pumpAll d fn).dsp = d.dsp ∧ (Dev.pumpAll d fn).loc = d.loc ∧
    (Dev.pumpAll d fn).locErr = d.locErr ∧ (Dev.pumpAll d fn).spillErr = d.spillErr ∧ (Dev.pumpAll d fn).win = d.win ∧ (Dev.pumpAll d fn).unitQ = d.unitQ ∧
    (Dev.pumpAll d fn).pend = d.pend ∧ (Dev.pumpAll d fn).fab = d.fab ∧ (Dev.pumpAll d fn).cap = d.cap ∧ (Dev.pumpAll d fn).capSel = d.capSel ∧
    (Dev.pumpAll d fn).scene = d.scene ∧ (Dev.pumpAll d fn).layer = d.layer ∧ (Dev.pumpAll d fn).cluster = d.cluster ∧ (Dev.pumpAll d fn).blit = d.blit ∧
    (Dev.pumpAll d fn).chan = d.chan ∧ (Dev.pumpAll d fn).pipe = d.pipe ∧ (Dev.pumpAll d fn).dec = d.dec ∧ (Dev.pumpAll d fn).decPipe = d.decPipe ∧
    (Dev.pumpAll d fn).decSel = d.decSel ∧ (Dev.pumpAll d fn).twin = d.twin ∧ (Dev.pumpAll d fn).flow = d.flow ∧ (Dev.pumpAll d fn).pkgSel = d.pkgSel ∧
    (Dev.pumpAll d fn).tmIn = d.tmIn ∧ (Dev.pumpAll d fn).queue = d.queue ∧ (Dev.pumpAll d fn).port = d.port ∧ (Dev.pumpAll d fn).pol = d.pol ∧
    (Dev.pumpAll d fn).portSel = d.portSel ∧ (Dev.pumpAll d fn).qSel = d.qSel ∧ (Dev.pumpAll d fn).polSel = d.polSel ∧ (Dev.pumpAll d fn).group = d.group ∧
    (Dev.pumpAll d fn).lane = d.lane ∧ (Dev.pumpAll d fn).casc = d.casc ∧ (Dev.pumpAll d fn).mc = d.mc ∧ (Dev.pumpAll d fn).chk = d.chk ∧
    (Dev.pumpAll d fn).chkMode = d.chkMode ∧ (Dev.pumpAll d fn).chkSel = d.chkSel ∧ (Dev.pumpAll d fn).trust = d.trust ∧ (Dev.pumpAll d fn).prl = d.prl ∧
    (Dev.pumpAll d fn).mem = d.mem ∧ (Dev.pumpAll d fn).memEra = d.memEra ∧ (Dev.pumpAll d fn).poison = d.poison ∧ (Dev.pumpAll d fn).absent = d.absent ∧
    (Dev.pumpAll d fn).freeCtr = d.freeCtr := by
  simp [Dev.pumpAll]

@[simp] theorem Dev.retire_frame (d : Dev) (fn : Nat) (c : Comp) (t : Option Nat) :
    (Dev.retire d fn c t).ctl = d.ctl ∧ (Dev.retire d fn c t).tb = d.tb ∧ (Dev.retire d fn c t).flt = d.flt ∧ (Dev.retire d fn c t).dsp = d.dsp ∧
    (Dev.retire d fn c t).loc = d.loc ∧ (Dev.retire d fn c t).locErr = d.locErr ∧ (Dev.retire d fn c t).spillErr = d.spillErr ∧ (Dev.retire d fn c t).win = d.win ∧
    (Dev.retire d fn c t).unitQ = d.unitQ ∧ (Dev.retire d fn c t).pend = d.pend ∧ (Dev.retire d fn c t).fab = d.fab ∧ (Dev.retire d fn c t).cap = d.cap ∧
    (Dev.retire d fn c t).capSel = d.capSel ∧ (Dev.retire d fn c t).scene = d.scene ∧ (Dev.retire d fn c t).layer = d.layer ∧ (Dev.retire d fn c t).cluster = d.cluster ∧
    (Dev.retire d fn c t).blit = d.blit ∧ (Dev.retire d fn c t).chan = d.chan ∧ (Dev.retire d fn c t).pipe = d.pipe ∧ (Dev.retire d fn c t).dec = d.dec ∧
    (Dev.retire d fn c t).decPipe = d.decPipe ∧ (Dev.retire d fn c t).decSel = d.decSel ∧ (Dev.retire d fn c t).twin = d.twin ∧ (Dev.retire d fn c t).flow = d.flow ∧
    (Dev.retire d fn c t).pkgSel = d.pkgSel ∧ (Dev.retire d fn c t).tmIn = d.tmIn ∧ (Dev.retire d fn c t).queue = d.queue ∧ (Dev.retire d fn c t).port = d.port ∧
    (Dev.retire d fn c t).pol = d.pol ∧ (Dev.retire d fn c t).portSel = d.portSel ∧ (Dev.retire d fn c t).qSel = d.qSel ∧ (Dev.retire d fn c t).polSel = d.polSel ∧
    (Dev.retire d fn c t).group = d.group ∧ (Dev.retire d fn c t).lane = d.lane ∧ (Dev.retire d fn c t).casc = d.casc ∧ (Dev.retire d fn c t).mc = d.mc ∧
    (Dev.retire d fn c t).chk = d.chk ∧ (Dev.retire d fn c t).chkMode = d.chkMode ∧ (Dev.retire d fn c t).chkSel = d.chkSel ∧ (Dev.retire d fn c t).trust = d.trust ∧
    (Dev.retire d fn c t).prl = d.prl ∧ (Dev.retire d fn c t).mem = d.mem ∧ (Dev.retire d fn c t).memEra = d.memEra ∧ (Dev.retire d fn c t).poison = d.poison ∧
    (Dev.retire d fn c t).absent = d.absent ∧ (Dev.retire d fn c t).freeCtr = d.freeCtr := by
  simp [Dev.retire]

@[simp] theorem Dev.endThread_frame (d0 : Dev) (t : Nat) (status : Nat) (value : Nat) :
    (Dev.endThread d0 t status value).ctl = d0.ctl ∧ (Dev.endThread d0 t status value).tb = d0.tb ∧ (Dev.endThread d0 t status value).flt = d0.flt ∧
    (Dev.endThread d0 t status value).dsp = d0.dsp ∧ (Dev.endThread d0 t status value).loc = d0.loc ∧ (Dev.endThread d0 t status value).locErr = d0.locErr ∧
    (Dev.endThread d0 t status value).spillErr = d0.spillErr ∧ (Dev.endThread d0 t status value).win = d0.win ∧ (Dev.endThread d0 t status value).unitQ = d0.unitQ ∧
    (Dev.endThread d0 t status value).pend = d0.pend ∧ (Dev.endThread d0 t status value).fab = d0.fab ∧ (Dev.endThread d0 t status value).cap = d0.cap ∧
    (Dev.endThread d0 t status value).capSel = d0.capSel ∧ (Dev.endThread d0 t status value).scene = d0.scene ∧ (Dev.endThread d0 t status value).layer = d0.layer ∧
    (Dev.endThread d0 t status value).cluster = d0.cluster ∧ (Dev.endThread d0 t status value).blit = d0.blit ∧ (Dev.endThread d0 t status value).chan = d0.chan ∧
    (Dev.endThread d0 t status value).pipe = d0.pipe ∧ (Dev.endThread d0 t status value).dec = d0.dec ∧ (Dev.endThread d0 t status value).decPipe = d0.decPipe ∧
    (Dev.endThread d0 t status value).decSel = d0.decSel ∧ (Dev.endThread d0 t status value).twin = d0.twin ∧ (Dev.endThread d0 t status value).flow = d0.flow ∧
    (Dev.endThread d0 t status value).pkgSel = d0.pkgSel ∧ (Dev.endThread d0 t status value).tmIn = d0.tmIn ∧ (Dev.endThread d0 t status value).queue = d0.queue ∧
    (Dev.endThread d0 t status value).port = d0.port ∧ (Dev.endThread d0 t status value).pol = d0.pol ∧ (Dev.endThread d0 t status value).portSel = d0.portSel ∧
    (Dev.endThread d0 t status value).qSel = d0.qSel ∧ (Dev.endThread d0 t status value).polSel = d0.polSel ∧ (Dev.endThread d0 t status value).group = d0.group ∧
    (Dev.endThread d0 t status value).lane = d0.lane ∧ (Dev.endThread d0 t status value).casc = d0.casc ∧ (Dev.endThread d0 t status value).mc = d0.mc ∧
    (Dev.endThread d0 t status value).chk = d0.chk ∧ (Dev.endThread d0 t status value).chkMode = d0.chkMode ∧ (Dev.endThread d0 t status value).chkSel = d0.chkSel ∧
    (Dev.endThread d0 t status value).trust = d0.trust ∧ (Dev.endThread d0 t status value).prl = d0.prl ∧ (Dev.endThread d0 t status value).mem = d0.mem ∧
    (Dev.endThread d0 t status value).memEra = d0.memEra ∧ (Dev.endThread d0 t status value).poison = d0.poison ∧ (Dev.endThread d0 t status value).absent = d0.absent ∧
    (Dev.endThread d0 t status value).freeCtr = d0.freeCtr := by
  unfold Dev.endThread; dsimp only; (repeat' split) <;> simp

@[simp] theorem Dev.settle_frame (d : Dev) (x : Desc) :
    (Dev.settle d x).ctl = d.ctl ∧ (Dev.settle d x).tb = d.tb ∧ (Dev.settle d x).flt = d.flt ∧ (Dev.settle d x).hub = d.hub ∧ (Dev.settle d x).rings = d.rings ∧
    (Dev.settle d x).dsp = d.dsp ∧ (Dev.settle d x).loc = d.loc ∧ (Dev.settle d x).locErr = d.locErr ∧ (Dev.settle d x).spillErr = d.spillErr ∧
    (Dev.settle d x).win = d.win ∧ (Dev.settle d x).unitQ = d.unitQ ∧ (Dev.settle d x).pend = d.pend ∧ (Dev.settle d x).fab = d.fab ∧ (Dev.settle d x).cap = d.cap ∧
    (Dev.settle d x).capSel = d.capSel ∧ (Dev.settle d x).scene = d.scene ∧ (Dev.settle d x).layer = d.layer ∧ (Dev.settle d x).cluster = d.cluster ∧
    (Dev.settle d x).blit = d.blit ∧ (Dev.settle d x).chan = d.chan ∧ (Dev.settle d x).pipe = d.pipe ∧ (Dev.settle d x).dec = d.dec ∧
    (Dev.settle d x).decPipe = d.decPipe ∧ (Dev.settle d x).decSel = d.decSel ∧ (Dev.settle d x).twin = d.twin ∧ (Dev.settle d x).flow = d.flow ∧
    (Dev.settle d x).pkgSel = d.pkgSel ∧ (Dev.settle d x).tmIn = d.tmIn ∧ (Dev.settle d x).queue = d.queue ∧ (Dev.settle d x).port = d.port ∧
    (Dev.settle d x).pol = d.pol ∧ (Dev.settle d x).portSel = d.portSel ∧ (Dev.settle d x).qSel = d.qSel ∧ (Dev.settle d x).polSel = d.polSel ∧
    (Dev.settle d x).group = d.group ∧ (Dev.settle d x).lane = d.lane ∧ (Dev.settle d x).casc = d.casc ∧ (Dev.settle d x).mc = d.mc ∧ (Dev.settle d x).chk = d.chk ∧
    (Dev.settle d x).chkMode = d.chkMode ∧ (Dev.settle d x).chkSel = d.chkSel ∧ (Dev.settle d x).trust = d.trust ∧ (Dev.settle d x).prl = d.prl ∧
    (Dev.settle d x).mem = d.mem ∧ (Dev.settle d x).memEra = d.memEra ∧ (Dev.settle d x).poison = d.poison ∧ (Dev.settle d x).out = d.out ∧
    (Dev.settle d x).waiting = d.waiting ∧ (Dev.settle d x).absent = d.absent ∧ (Dev.settle d x).freeCtr = d.freeCtr := by
  simp [Dev.settle]

@[simp] theorem Dev.complete_frame (d : Dev) (x : Desc) (status : Nat) (mt : Nat) :
    (Dev.complete d x status mt).ctl = d.ctl ∧ (Dev.complete d x status mt).tb = d.tb ∧ (Dev.complete d x status mt).flt = d.flt ∧
    (Dev.complete d x status mt).hub = d.hub ∧ (Dev.complete d x status mt).rings = d.rings ∧ (Dev.complete d x status mt).loc = d.loc ∧
    (Dev.complete d x status mt).locErr = d.locErr ∧ (Dev.complete d x status mt).spillErr = d.spillErr ∧ (Dev.complete d x status mt).win = d.win ∧
    (Dev.complete d x status mt).unitQ = d.unitQ ∧ (Dev.complete d x status mt).pend = d.pend ∧ (Dev.complete d x status mt).fab = d.fab ∧
    (Dev.complete d x status mt).cap = d.cap ∧ (Dev.complete d x status mt).capSel = d.capSel ∧ (Dev.complete d x status mt).scene = d.scene ∧
    (Dev.complete d x status mt).layer = d.layer ∧ (Dev.complete d x status mt).cluster = d.cluster ∧ (Dev.complete d x status mt).blit = d.blit ∧
    (Dev.complete d x status mt).chan = d.chan ∧ (Dev.complete d x status mt).pipe = d.pipe ∧ (Dev.complete d x status mt).dec = d.dec ∧
    (Dev.complete d x status mt).decPipe = d.decPipe ∧ (Dev.complete d x status mt).decSel = d.decSel ∧ (Dev.complete d x status mt).twin = d.twin ∧
    (Dev.complete d x status mt).flow = d.flow ∧ (Dev.complete d x status mt).pkgSel = d.pkgSel ∧ (Dev.complete d x status mt).tmIn = d.tmIn ∧
    (Dev.complete d x status mt).queue = d.queue ∧ (Dev.complete d x status mt).port = d.port ∧ (Dev.complete d x status mt).pol = d.pol ∧
    (Dev.complete d x status mt).portSel = d.portSel ∧ (Dev.complete d x status mt).qSel = d.qSel ∧ (Dev.complete d x status mt).polSel = d.polSel ∧
    (Dev.complete d x status mt).group = d.group ∧ (Dev.complete d x status mt).lane = d.lane ∧ (Dev.complete d x status mt).casc = d.casc ∧
    (Dev.complete d x status mt).mc = d.mc ∧ (Dev.complete d x status mt).chk = d.chk ∧ (Dev.complete d x status mt).chkMode = d.chkMode ∧
    (Dev.complete d x status mt).chkSel = d.chkSel ∧ (Dev.complete d x status mt).trust = d.trust ∧ (Dev.complete d x status mt).prl = d.prl ∧
    (Dev.complete d x status mt).memEra = d.memEra ∧ (Dev.complete d x status mt).out = d.out ∧ (Dev.complete d x status mt).waiting = d.waiting ∧
    (Dev.complete d x status mt).absent = d.absent ∧ (Dev.complete d x status mt).freeCtr = d.freeCtr := by
  unfold Dev.complete; (repeat' split) <;> simp

@[simp] theorem Dev.extend_frame (d : Dev) (s : Nat) (v : List Byte) :
    (Dev.extend d s v).ctl = d.ctl ∧ (Dev.extend d s v).tb = d.tb ∧ (Dev.extend d s v).flt = d.flt ∧ (Dev.extend d s v).hub = d.hub ∧
    (Dev.extend d s v).rings = d.rings ∧ (Dev.extend d s v).dsp = d.dsp ∧ (Dev.extend d s v).thr = d.thr ∧ (Dev.extend d s v).loc = d.loc ∧
    (Dev.extend d s v).locErr = d.locErr ∧ (Dev.extend d s v).spillErr = d.spillErr ∧ (Dev.extend d s v).win = d.win ∧ (Dev.extend d s v).unitQ = d.unitQ ∧
    (Dev.extend d s v).pend = d.pend ∧ (Dev.extend d s v).fab = d.fab ∧ (Dev.extend d s v).cap = d.cap ∧ (Dev.extend d s v).capSel = d.capSel ∧
    (Dev.extend d s v).scene = d.scene ∧ (Dev.extend d s v).layer = d.layer ∧ (Dev.extend d s v).cluster = d.cluster ∧ (Dev.extend d s v).blit = d.blit ∧
    (Dev.extend d s v).chan = d.chan ∧ (Dev.extend d s v).pipe = d.pipe ∧ (Dev.extend d s v).dec = d.dec ∧ (Dev.extend d s v).decPipe = d.decPipe ∧
    (Dev.extend d s v).decSel = d.decSel ∧ (Dev.extend d s v).twin = d.twin ∧ (Dev.extend d s v).flow = d.flow ∧ (Dev.extend d s v).pkgSel = d.pkgSel ∧
    (Dev.extend d s v).tmIn = d.tmIn ∧ (Dev.extend d s v).queue = d.queue ∧ (Dev.extend d s v).port = d.port ∧ (Dev.extend d s v).pol = d.pol ∧
    (Dev.extend d s v).portSel = d.portSel ∧ (Dev.extend d s v).qSel = d.qSel ∧ (Dev.extend d s v).polSel = d.polSel ∧ (Dev.extend d s v).group = d.group ∧
    (Dev.extend d s v).lane = d.lane ∧ (Dev.extend d s v).casc = d.casc ∧ (Dev.extend d s v).mc = d.mc ∧ (Dev.extend d s v).chk = d.chk ∧
    (Dev.extend d s v).chkMode = d.chkMode ∧ (Dev.extend d s v).chkSel = d.chkSel ∧ (Dev.extend d s v).prl = d.prl ∧ (Dev.extend d s v).mem = d.mem ∧
    (Dev.extend d s v).memEra = d.memEra ∧ (Dev.extend d s v).poison = d.poison ∧ (Dev.extend d s v).out = d.out ∧ (Dev.extend d s v).waiting = d.waiting ∧
    (Dev.extend d s v).absent = d.absent ∧ (Dev.extend d s v).freeCtr = d.freeCtr := by
  simp [Dev.extend]

@[simp] theorem Dev.sendPairing_frame (d : Dev) :
    (Dev.sendPairing d).ctl = d.ctl ∧ (Dev.sendPairing d).tb = d.tb ∧ (Dev.sendPairing d).flt = d.flt ∧ (Dev.sendPairing d).hub = d.hub ∧
    (Dev.sendPairing d).rings = d.rings ∧ (Dev.sendPairing d).dsp = d.dsp ∧ (Dev.sendPairing d).thr = d.thr ∧ (Dev.sendPairing d).loc = d.loc ∧
    (Dev.sendPairing d).locErr = d.locErr ∧ (Dev.sendPairing d).spillErr = d.spillErr ∧ (Dev.sendPairing d).win = d.win ∧ (Dev.sendPairing d).unitQ = d.unitQ ∧
    (Dev.sendPairing d).pend = d.pend ∧ (Dev.sendPairing d).fab = d.fab ∧ (Dev.sendPairing d).cap = d.cap ∧ (Dev.sendPairing d).capSel = d.capSel ∧
    (Dev.sendPairing d).scene = d.scene ∧ (Dev.sendPairing d).layer = d.layer ∧ (Dev.sendPairing d).cluster = d.cluster ∧ (Dev.sendPairing d).blit = d.blit ∧
    (Dev.sendPairing d).chan = d.chan ∧ (Dev.sendPairing d).pipe = d.pipe ∧ (Dev.sendPairing d).dec = d.dec ∧ (Dev.sendPairing d).decPipe = d.decPipe ∧
    (Dev.sendPairing d).decSel = d.decSel ∧ (Dev.sendPairing d).twin = d.twin ∧ (Dev.sendPairing d).flow = d.flow ∧ (Dev.sendPairing d).pkgSel = d.pkgSel ∧
    (Dev.sendPairing d).tmIn = d.tmIn ∧ (Dev.sendPairing d).queue = d.queue ∧ (Dev.sendPairing d).port = d.port ∧ (Dev.sendPairing d).pol = d.pol ∧
    (Dev.sendPairing d).portSel = d.portSel ∧ (Dev.sendPairing d).qSel = d.qSel ∧ (Dev.sendPairing d).polSel = d.polSel ∧ (Dev.sendPairing d).group = d.group ∧
    (Dev.sendPairing d).lane = d.lane ∧ (Dev.sendPairing d).casc = d.casc ∧ (Dev.sendPairing d).mc = d.mc ∧ (Dev.sendPairing d).chk = d.chk ∧
    (Dev.sendPairing d).chkMode = d.chkMode ∧ (Dev.sendPairing d).chkSel = d.chkSel ∧ (Dev.sendPairing d).trust = d.trust ∧ (Dev.sendPairing d).prl = d.prl ∧
    (Dev.sendPairing d).mem = d.mem ∧ (Dev.sendPairing d).memEra = d.memEra ∧ (Dev.sendPairing d).poison = d.poison ∧ (Dev.sendPairing d).absent = d.absent ∧
    (Dev.sendPairing d).freeCtr = d.freeCtr := by
  simp [Dev.sendPairing]

@[simp] theorem Dev.offerPairing_frame (d : Dev) :
    (Dev.offerPairing d).ctl = d.ctl ∧ (Dev.offerPairing d).tb = d.tb ∧ (Dev.offerPairing d).flt = d.flt ∧ (Dev.offerPairing d).hub = d.hub ∧
    (Dev.offerPairing d).rings = d.rings ∧ (Dev.offerPairing d).dsp = d.dsp ∧ (Dev.offerPairing d).thr = d.thr ∧ (Dev.offerPairing d).loc = d.loc ∧
    (Dev.offerPairing d).locErr = d.locErr ∧ (Dev.offerPairing d).spillErr = d.spillErr ∧ (Dev.offerPairing d).win = d.win ∧ (Dev.offerPairing d).unitQ = d.unitQ ∧
    (Dev.offerPairing d).pend = d.pend ∧ (Dev.offerPairing d).fab = d.fab ∧ (Dev.offerPairing d).cap = d.cap ∧ (Dev.offerPairing d).capSel = d.capSel ∧
    (Dev.offerPairing d).scene = d.scene ∧ (Dev.offerPairing d).layer = d.layer ∧ (Dev.offerPairing d).cluster = d.cluster ∧ (Dev.offerPairing d).blit = d.blit ∧
    (Dev.offerPairing d).chan = d.chan ∧ (Dev.offerPairing d).pipe = d.pipe ∧ (Dev.offerPairing d).dec = d.dec ∧ (Dev.offerPairing d).decPipe = d.decPipe ∧
    (Dev.offerPairing d).decSel = d.decSel ∧ (Dev.offerPairing d).twin = d.twin ∧ (Dev.offerPairing d).flow = d.flow ∧ (Dev.offerPairing d).pkgSel = d.pkgSel ∧
    (Dev.offerPairing d).tmIn = d.tmIn ∧ (Dev.offerPairing d).queue = d.queue ∧ (Dev.offerPairing d).port = d.port ∧ (Dev.offerPairing d).pol = d.pol ∧
    (Dev.offerPairing d).portSel = d.portSel ∧ (Dev.offerPairing d).qSel = d.qSel ∧ (Dev.offerPairing d).polSel = d.polSel ∧ (Dev.offerPairing d).group = d.group ∧
    (Dev.offerPairing d).lane = d.lane ∧ (Dev.offerPairing d).casc = d.casc ∧ (Dev.offerPairing d).mc = d.mc ∧ (Dev.offerPairing d).chk = d.chk ∧
    (Dev.offerPairing d).chkMode = d.chkMode ∧ (Dev.offerPairing d).chkSel = d.chkSel ∧ (Dev.offerPairing d).trust = d.trust ∧ (Dev.offerPairing d).prl = d.prl ∧
    (Dev.offerPairing d).mem = d.mem ∧ (Dev.offerPairing d).memEra = d.memEra ∧ (Dev.offerPairing d).poison = d.poison ∧ (Dev.offerPairing d).absent = d.absent ∧
    (Dev.offerPairing d).freeCtr = d.freeCtr := by
  unfold Dev.offerPairing; (repeat' split) <;> simp

@[simp] theorem Dev.nextFree_frame (d : Dev) :
    (Dev.nextFree d).ctl = d.ctl ∧ (Dev.nextFree d).tb = d.tb ∧ (Dev.nextFree d).flt = d.flt ∧ (Dev.nextFree d).hub = d.hub ∧ (Dev.nextFree d).rings = d.rings ∧
    (Dev.nextFree d).dsp = d.dsp ∧ (Dev.nextFree d).thr = d.thr ∧ (Dev.nextFree d).loc = d.loc ∧ (Dev.nextFree d).locErr = d.locErr ∧
    (Dev.nextFree d).spillErr = d.spillErr ∧ (Dev.nextFree d).win = d.win ∧ (Dev.nextFree d).unitQ = d.unitQ ∧ (Dev.nextFree d).pend = d.pend ∧
    (Dev.nextFree d).fab = d.fab ∧ (Dev.nextFree d).cap = d.cap ∧ (Dev.nextFree d).capSel = d.capSel ∧ (Dev.nextFree d).scene = d.scene ∧
    (Dev.nextFree d).layer = d.layer ∧ (Dev.nextFree d).cluster = d.cluster ∧ (Dev.nextFree d).blit = d.blit ∧ (Dev.nextFree d).chan = d.chan ∧
    (Dev.nextFree d).pipe = d.pipe ∧ (Dev.nextFree d).dec = d.dec ∧ (Dev.nextFree d).decPipe = d.decPipe ∧ (Dev.nextFree d).decSel = d.decSel ∧
    (Dev.nextFree d).twin = d.twin ∧ (Dev.nextFree d).flow = d.flow ∧ (Dev.nextFree d).pkgSel = d.pkgSel ∧ (Dev.nextFree d).tmIn = d.tmIn ∧
    (Dev.nextFree d).queue = d.queue ∧ (Dev.nextFree d).port = d.port ∧ (Dev.nextFree d).pol = d.pol ∧ (Dev.nextFree d).portSel = d.portSel ∧
    (Dev.nextFree d).qSel = d.qSel ∧ (Dev.nextFree d).polSel = d.polSel ∧ (Dev.nextFree d).group = d.group ∧ (Dev.nextFree d).lane = d.lane ∧
    (Dev.nextFree d).casc = d.casc ∧ (Dev.nextFree d).mc = d.mc ∧ (Dev.nextFree d).chk = d.chk ∧ (Dev.nextFree d).chkMode = d.chkMode ∧
    (Dev.nextFree d).chkSel = d.chkSel ∧ (Dev.nextFree d).trust = d.trust ∧ (Dev.nextFree d).prl = d.prl ∧ (Dev.nextFree d).mem = d.mem ∧
    (Dev.nextFree d).memEra = d.memEra ∧ (Dev.nextFree d).poison = d.poison ∧ (Dev.nextFree d).out = d.out ∧ (Dev.nextFree d).waiting = d.waiting ∧
    (Dev.nextFree d).absent = d.absent := by
  simp [Dev.nextFree]

@[simp] theorem Dev.holdPend_frame (d : Dev) (x : Desc) (obj : Nat) (passed : Nat → Bool) (ahead : Nat → Nat) (twinned : Bool) :
    (Dev.holdPend d x obj passed ahead twinned).ctl = d.ctl ∧ (Dev.holdPend d x obj passed ahead twinned).tb = d.tb ∧
    (Dev.holdPend d x obj passed ahead twinned).flt = d.flt ∧ (Dev.holdPend d x obj passed ahead twinned).hub = d.hub ∧
    (Dev.holdPend d x obj passed ahead twinned).rings = d.rings ∧ (Dev.holdPend d x obj passed ahead twinned).loc = d.loc ∧
    (Dev.holdPend d x obj passed ahead twinned).locErr = d.locErr ∧ (Dev.holdPend d x obj passed ahead twinned).spillErr = d.spillErr ∧
    (Dev.holdPend d x obj passed ahead twinned).win = d.win ∧ (Dev.holdPend d x obj passed ahead twinned).unitQ = d.unitQ ∧
    (Dev.holdPend d x obj passed ahead twinned).fab = d.fab ∧ (Dev.holdPend d x obj passed ahead twinned).cap = d.cap ∧
    (Dev.holdPend d x obj passed ahead twinned).capSel = d.capSel ∧ (Dev.holdPend d x obj passed ahead twinned).scene = d.scene ∧
    (Dev.holdPend d x obj passed ahead twinned).layer = d.layer ∧ (Dev.holdPend d x obj passed ahead twinned).cluster = d.cluster ∧
    (Dev.holdPend d x obj passed ahead twinned).blit = d.blit ∧ (Dev.holdPend d x obj passed ahead twinned).chan = d.chan ∧
    (Dev.holdPend d x obj passed ahead twinned).pipe = d.pipe ∧ (Dev.holdPend d x obj passed ahead twinned).dec = d.dec ∧
    (Dev.holdPend d x obj passed ahead twinned).decPipe = d.decPipe ∧ (Dev.holdPend d x obj passed ahead twinned).decSel = d.decSel ∧
    (Dev.holdPend d x obj passed ahead twinned).flow = d.flow ∧ (Dev.holdPend d x obj passed ahead twinned).pkgSel = d.pkgSel ∧
    (Dev.holdPend d x obj passed ahead twinned).tmIn = d.tmIn ∧ (Dev.holdPend d x obj passed ahead twinned).queue = d.queue ∧
    (Dev.holdPend d x obj passed ahead twinned).port = d.port ∧ (Dev.holdPend d x obj passed ahead twinned).pol = d.pol ∧
    (Dev.holdPend d x obj passed ahead twinned).portSel = d.portSel ∧ (Dev.holdPend d x obj passed ahead twinned).qSel = d.qSel ∧
    (Dev.holdPend d x obj passed ahead twinned).polSel = d.polSel ∧ (Dev.holdPend d x obj passed ahead twinned).group = d.group ∧
    (Dev.holdPend d x obj passed ahead twinned).lane = d.lane ∧ (Dev.holdPend d x obj passed ahead twinned).casc = d.casc ∧
    (Dev.holdPend d x obj passed ahead twinned).mc = d.mc ∧ (Dev.holdPend d x obj passed ahead twinned).chk = d.chk ∧
    (Dev.holdPend d x obj passed ahead twinned).chkMode = d.chkMode ∧ (Dev.holdPend d x obj passed ahead twinned).chkSel = d.chkSel ∧
    (Dev.holdPend d x obj passed ahead twinned).trust = d.trust ∧ (Dev.holdPend d x obj passed ahead twinned).prl = d.prl ∧
    (Dev.holdPend d x obj passed ahead twinned).memEra = d.memEra ∧ (Dev.holdPend d x obj passed ahead twinned).absent = d.absent ∧
    (Dev.holdPend d x obj passed ahead twinned).freeCtr = d.freeCtr := by
  unfold Dev.holdPend; dsimp only; (repeat' split) <;> simp

@[simp] theorem Dev.dropDue_frame (d : Dev) (unit : Nat) (op : Nat) (obj : Nat) (m : Nat) :
    (Dev.dropDue d unit op obj m).ctl = d.ctl ∧ (Dev.dropDue d unit op obj m).tb = d.tb ∧ (Dev.dropDue d unit op obj m).flt = d.flt ∧
    (Dev.dropDue d unit op obj m).hub = d.hub ∧ (Dev.dropDue d unit op obj m).rings = d.rings ∧ (Dev.dropDue d unit op obj m).dsp = d.dsp ∧
    (Dev.dropDue d unit op obj m).thr = d.thr ∧ (Dev.dropDue d unit op obj m).loc = d.loc ∧ (Dev.dropDue d unit op obj m).locErr = d.locErr ∧
    (Dev.dropDue d unit op obj m).spillErr = d.spillErr ∧ (Dev.dropDue d unit op obj m).win = d.win ∧ (Dev.dropDue d unit op obj m).unitQ = d.unitQ ∧
    (Dev.dropDue d unit op obj m).fab = d.fab ∧ (Dev.dropDue d unit op obj m).cap = d.cap ∧ (Dev.dropDue d unit op obj m).capSel = d.capSel ∧
    (Dev.dropDue d unit op obj m).scene = d.scene ∧ (Dev.dropDue d unit op obj m).layer = d.layer ∧ (Dev.dropDue d unit op obj m).cluster = d.cluster ∧
    (Dev.dropDue d unit op obj m).blit = d.blit ∧ (Dev.dropDue d unit op obj m).chan = d.chan ∧ (Dev.dropDue d unit op obj m).pipe = d.pipe ∧
    (Dev.dropDue d unit op obj m).dec = d.dec ∧ (Dev.dropDue d unit op obj m).decPipe = d.decPipe ∧ (Dev.dropDue d unit op obj m).decSel = d.decSel ∧
    (Dev.dropDue d unit op obj m).twin = d.twin ∧ (Dev.dropDue d unit op obj m).flow = d.flow ∧ (Dev.dropDue d unit op obj m).pkgSel = d.pkgSel ∧
    (Dev.dropDue d unit op obj m).tmIn = d.tmIn ∧ (Dev.dropDue d unit op obj m).queue = d.queue ∧ (Dev.dropDue d unit op obj m).port = d.port ∧
    (Dev.dropDue d unit op obj m).pol = d.pol ∧ (Dev.dropDue d unit op obj m).portSel = d.portSel ∧ (Dev.dropDue d unit op obj m).qSel = d.qSel ∧
    (Dev.dropDue d unit op obj m).polSel = d.polSel ∧ (Dev.dropDue d unit op obj m).group = d.group ∧ (Dev.dropDue d unit op obj m).lane = d.lane ∧
    (Dev.dropDue d unit op obj m).casc = d.casc ∧ (Dev.dropDue d unit op obj m).mc = d.mc ∧ (Dev.dropDue d unit op obj m).chk = d.chk ∧
    (Dev.dropDue d unit op obj m).chkMode = d.chkMode ∧ (Dev.dropDue d unit op obj m).chkSel = d.chkSel ∧ (Dev.dropDue d unit op obj m).trust = d.trust ∧
    (Dev.dropDue d unit op obj m).prl = d.prl ∧ (Dev.dropDue d unit op obj m).mem = d.mem ∧ (Dev.dropDue d unit op obj m).memEra = d.memEra ∧
    (Dev.dropDue d unit op obj m).poison = d.poison ∧ (Dev.dropDue d unit op obj m).out = d.out ∧ (Dev.dropDue d unit op obj m).waiting = d.waiting ∧
    (Dev.dropDue d unit op obj m).absent = d.absent ∧ (Dev.dropDue d unit op obj m).freeCtr = d.freeCtr := by
  simp [Dev.dropDue]

@[simp] theorem Dev.abortPend_ctl (d : Dev) (sel : Pend → Bool) : (Dev.abortPend d sel).ctl = d.ctl := by
  unfold Dev.abortPend; refine foldl_proj Dev.ctl (fun e a => ?_) _ _; simp
@[simp] theorem Dev.abortPend_tb (d : Dev) (sel : Pend → Bool) : (Dev.abortPend d sel).tb = d.tb := by
  unfold Dev.abortPend; refine foldl_proj Dev.tb (fun e a => ?_) _ _; simp
@[simp] theorem Dev.abortPend_flt (d : Dev) (sel : Pend → Bool) : (Dev.abortPend d sel).flt = d.flt := by
  unfold Dev.abortPend; refine foldl_proj Dev.flt (fun e a => ?_) _ _; simp
@[simp] theorem Dev.abortPend_hub (d : Dev) (sel : Pend → Bool) : (Dev.abortPend d sel).hub = d.hub := by
  unfold Dev.abortPend; refine foldl_proj Dev.hub (fun e a => ?_) _ _; simp
@[simp] theorem Dev.abortPend_rings (d : Dev) (sel : Pend → Bool) : (Dev.abortPend d sel).rings = d.rings := by
  unfold Dev.abortPend; refine foldl_proj Dev.rings (fun e a => ?_) _ _; simp
@[simp] theorem Dev.abortPend_loc (d : Dev) (sel : Pend → Bool) : (Dev.abortPend d sel).loc = d.loc := by
  unfold Dev.abortPend; refine foldl_proj Dev.loc (fun e a => ?_) _ _; simp
@[simp] theorem Dev.abortPend_locErr (d : Dev) (sel : Pend → Bool) : (Dev.abortPend d sel).locErr = d.locErr := by
  unfold Dev.abortPend; refine foldl_proj Dev.locErr (fun e a => ?_) _ _; simp
@[simp] theorem Dev.abortPend_spillErr (d : Dev) (sel : Pend → Bool) : (Dev.abortPend d sel).spillErr = d.spillErr := by
  unfold Dev.abortPend; refine foldl_proj Dev.spillErr (fun e a => ?_) _ _; simp
@[simp] theorem Dev.abortPend_win (d : Dev) (sel : Pend → Bool) : (Dev.abortPend d sel).win = d.win := by
  unfold Dev.abortPend; refine foldl_proj Dev.win (fun e a => ?_) _ _; simp
@[simp] theorem Dev.abortPend_unitQ (d : Dev) (sel : Pend → Bool) : (Dev.abortPend d sel).unitQ = d.unitQ := by
  unfold Dev.abortPend; refine foldl_proj Dev.unitQ (fun e a => ?_) _ _; simp
@[simp] theorem Dev.abortPend_fab (d : Dev) (sel : Pend → Bool) : (Dev.abortPend d sel).fab = d.fab := by
  unfold Dev.abortPend; refine foldl_proj Dev.fab (fun e a => ?_) _ _; simp
@[simp] theorem Dev.abortPend_cap (d : Dev) (sel : Pend → Bool) : (Dev.abortPend d sel).cap = d.cap := by
  unfold Dev.abortPend; refine foldl_proj Dev.cap (fun e a => ?_) _ _; simp
@[simp] theorem Dev.abortPend_capSel (d : Dev) (sel : Pend → Bool) : (Dev.abortPend d sel).capSel = d.capSel := by
  unfold Dev.abortPend; refine foldl_proj Dev.capSel (fun e a => ?_) _ _; simp
@[simp] theorem Dev.abortPend_scene (d : Dev) (sel : Pend → Bool) : (Dev.abortPend d sel).scene = d.scene := by
  unfold Dev.abortPend; refine foldl_proj Dev.scene (fun e a => ?_) _ _; simp
@[simp] theorem Dev.abortPend_layer (d : Dev) (sel : Pend → Bool) : (Dev.abortPend d sel).layer = d.layer := by
  unfold Dev.abortPend; refine foldl_proj Dev.layer (fun e a => ?_) _ _; simp
@[simp] theorem Dev.abortPend_cluster (d : Dev) (sel : Pend → Bool) : (Dev.abortPend d sel).cluster = d.cluster := by
  unfold Dev.abortPend; refine foldl_proj Dev.cluster (fun e a => ?_) _ _; simp
@[simp] theorem Dev.abortPend_blit (d : Dev) (sel : Pend → Bool) : (Dev.abortPend d sel).blit = d.blit := by
  unfold Dev.abortPend; refine foldl_proj Dev.blit (fun e a => ?_) _ _; simp
@[simp] theorem Dev.abortPend_chan (d : Dev) (sel : Pend → Bool) : (Dev.abortPend d sel).chan = d.chan := by
  unfold Dev.abortPend; refine foldl_proj Dev.chan (fun e a => ?_) _ _; simp
@[simp] theorem Dev.abortPend_pipe (d : Dev) (sel : Pend → Bool) : (Dev.abortPend d sel).pipe = d.pipe := by
  unfold Dev.abortPend; refine foldl_proj Dev.pipe (fun e a => ?_) _ _; simp
@[simp] theorem Dev.abortPend_dec (d : Dev) (sel : Pend → Bool) : (Dev.abortPend d sel).dec = d.dec := by
  unfold Dev.abortPend; refine foldl_proj Dev.dec (fun e a => ?_) _ _; simp
@[simp] theorem Dev.abortPend_decPipe (d : Dev) (sel : Pend → Bool) : (Dev.abortPend d sel).decPipe = d.decPipe := by
  unfold Dev.abortPend; refine foldl_proj Dev.decPipe (fun e a => ?_) _ _; simp
@[simp] theorem Dev.abortPend_decSel (d : Dev) (sel : Pend → Bool) : (Dev.abortPend d sel).decSel = d.decSel := by
  unfold Dev.abortPend; refine foldl_proj Dev.decSel (fun e a => ?_) _ _; simp
@[simp] theorem Dev.abortPend_twin (d : Dev) (sel : Pend → Bool) : (Dev.abortPend d sel).twin = d.twin := by
  unfold Dev.abortPend; refine foldl_proj Dev.twin (fun e a => ?_) _ _; simp
@[simp] theorem Dev.abortPend_flow (d : Dev) (sel : Pend → Bool) : (Dev.abortPend d sel).flow = d.flow := by
  unfold Dev.abortPend; refine foldl_proj Dev.flow (fun e a => ?_) _ _; simp
@[simp] theorem Dev.abortPend_pkgSel (d : Dev) (sel : Pend → Bool) : (Dev.abortPend d sel).pkgSel = d.pkgSel := by
  unfold Dev.abortPend; refine foldl_proj Dev.pkgSel (fun e a => ?_) _ _; simp
@[simp] theorem Dev.abortPend_tmIn (d : Dev) (sel : Pend → Bool) : (Dev.abortPend d sel).tmIn = d.tmIn := by
  unfold Dev.abortPend; refine foldl_proj Dev.tmIn (fun e a => ?_) _ _; simp
@[simp] theorem Dev.abortPend_queue (d : Dev) (sel : Pend → Bool) : (Dev.abortPend d sel).queue = d.queue := by
  unfold Dev.abortPend; refine foldl_proj Dev.queue (fun e a => ?_) _ _; simp
@[simp] theorem Dev.abortPend_port (d : Dev) (sel : Pend → Bool) : (Dev.abortPend d sel).port = d.port := by
  unfold Dev.abortPend; refine foldl_proj Dev.port (fun e a => ?_) _ _; simp
@[simp] theorem Dev.abortPend_pol (d : Dev) (sel : Pend → Bool) : (Dev.abortPend d sel).pol = d.pol := by
  unfold Dev.abortPend; refine foldl_proj Dev.pol (fun e a => ?_) _ _; simp
@[simp] theorem Dev.abortPend_portSel (d : Dev) (sel : Pend → Bool) : (Dev.abortPend d sel).portSel = d.portSel := by
  unfold Dev.abortPend; refine foldl_proj Dev.portSel (fun e a => ?_) _ _; simp
@[simp] theorem Dev.abortPend_qSel (d : Dev) (sel : Pend → Bool) : (Dev.abortPend d sel).qSel = d.qSel := by
  unfold Dev.abortPend; refine foldl_proj Dev.qSel (fun e a => ?_) _ _; simp
@[simp] theorem Dev.abortPend_polSel (d : Dev) (sel : Pend → Bool) : (Dev.abortPend d sel).polSel = d.polSel := by
  unfold Dev.abortPend; refine foldl_proj Dev.polSel (fun e a => ?_) _ _; simp
@[simp] theorem Dev.abortPend_group (d : Dev) (sel : Pend → Bool) : (Dev.abortPend d sel).group = d.group := by
  unfold Dev.abortPend; refine foldl_proj Dev.group (fun e a => ?_) _ _; simp
@[simp] theorem Dev.abortPend_lane (d : Dev) (sel : Pend → Bool) : (Dev.abortPend d sel).lane = d.lane := by
  unfold Dev.abortPend; refine foldl_proj Dev.lane (fun e a => ?_) _ _; simp
@[simp] theorem Dev.abortPend_casc (d : Dev) (sel : Pend → Bool) : (Dev.abortPend d sel).casc = d.casc := by
  unfold Dev.abortPend; refine foldl_proj Dev.casc (fun e a => ?_) _ _; simp
@[simp] theorem Dev.abortPend_mc (d : Dev) (sel : Pend → Bool) : (Dev.abortPend d sel).mc = d.mc := by
  unfold Dev.abortPend; refine foldl_proj Dev.mc (fun e a => ?_) _ _; simp
@[simp] theorem Dev.abortPend_chk (d : Dev) (sel : Pend → Bool) : (Dev.abortPend d sel).chk = d.chk := by
  unfold Dev.abortPend; refine foldl_proj Dev.chk (fun e a => ?_) _ _; simp
@[simp] theorem Dev.abortPend_chkMode (d : Dev) (sel : Pend → Bool) : (Dev.abortPend d sel).chkMode = d.chkMode := by
  unfold Dev.abortPend; refine foldl_proj Dev.chkMode (fun e a => ?_) _ _; simp
@[simp] theorem Dev.abortPend_chkSel (d : Dev) (sel : Pend → Bool) : (Dev.abortPend d sel).chkSel = d.chkSel := by
  unfold Dev.abortPend; refine foldl_proj Dev.chkSel (fun e a => ?_) _ _; simp
@[simp] theorem Dev.abortPend_trust (d : Dev) (sel : Pend → Bool) : (Dev.abortPend d sel).trust = d.trust := by
  unfold Dev.abortPend; refine foldl_proj Dev.trust (fun e a => ?_) _ _; simp
@[simp] theorem Dev.abortPend_prl (d : Dev) (sel : Pend → Bool) : (Dev.abortPend d sel).prl = d.prl := by
  unfold Dev.abortPend; refine foldl_proj Dev.prl (fun e a => ?_) _ _; simp
@[simp] theorem Dev.abortPend_memEra (d : Dev) (sel : Pend → Bool) : (Dev.abortPend d sel).memEra = d.memEra := by
  unfold Dev.abortPend; refine foldl_proj Dev.memEra (fun e a => ?_) _ _; simp
@[simp] theorem Dev.abortPend_out (d : Dev) (sel : Pend → Bool) : (Dev.abortPend d sel).out = d.out := by
  unfold Dev.abortPend; refine foldl_proj Dev.out (fun e a => ?_) _ _; simp
@[simp] theorem Dev.abortPend_waiting (d : Dev) (sel : Pend → Bool) : (Dev.abortPend d sel).waiting = d.waiting := by
  unfold Dev.abortPend; refine foldl_proj Dev.waiting (fun e a => ?_) _ _; simp
@[simp] theorem Dev.abortPend_absent (d : Dev) (sel : Pend → Bool) : (Dev.abortPend d sel).absent = d.absent := by
  unfold Dev.abortPend; refine foldl_proj Dev.absent (fun e a => ?_) _ _; simp
@[simp] theorem Dev.abortPend_freeCtr (d : Dev) (sel : Pend → Bool) : (Dev.abortPend d sel).freeCtr = d.freeCtr := by
  unfold Dev.abortPend; refine foldl_proj Dev.freeCtr (fun e a => ?_) _ _; simp

@[simp] theorem Dev.cutTaps_frame (d : Dev) (kind : Nat) (tap : Nat) :
    (Dev.cutTaps d kind tap).ctl = d.ctl ∧ (Dev.cutTaps d kind tap).tb = d.tb ∧ (Dev.cutTaps d kind tap).flt = d.flt ∧ (Dev.cutTaps d kind tap).hub = d.hub ∧
    (Dev.cutTaps d kind tap).rings = d.rings ∧ (Dev.cutTaps d kind tap).dsp = d.dsp ∧ (Dev.cutTaps d kind tap).thr = d.thr ∧ (Dev.cutTaps d kind tap).loc = d.loc ∧
    (Dev.cutTaps d kind tap).locErr = d.locErr ∧ (Dev.cutTaps d kind tap).spillErr = d.spillErr ∧ (Dev.cutTaps d kind tap).win = d.win ∧
    (Dev.cutTaps d kind tap).unitQ = d.unitQ ∧ (Dev.cutTaps d kind tap).pend = d.pend ∧ (Dev.cutTaps d kind tap).fab = d.fab ∧ (Dev.cutTaps d kind tap).cap = d.cap ∧
    (Dev.cutTaps d kind tap).capSel = d.capSel ∧ (Dev.cutTaps d kind tap).scene = d.scene ∧ (Dev.cutTaps d kind tap).layer = d.layer ∧
    (Dev.cutTaps d kind tap).cluster = d.cluster ∧ (Dev.cutTaps d kind tap).blit = d.blit ∧ (Dev.cutTaps d kind tap).chan = d.chan ∧
    (Dev.cutTaps d kind tap).pipe = d.pipe ∧ (Dev.cutTaps d kind tap).dec = d.dec ∧ (Dev.cutTaps d kind tap).decPipe = d.decPipe ∧
    (Dev.cutTaps d kind tap).decSel = d.decSel ∧ (Dev.cutTaps d kind tap).twin = d.twin ∧ (Dev.cutTaps d kind tap).flow = d.flow ∧
    (Dev.cutTaps d kind tap).pkgSel = d.pkgSel ∧ (Dev.cutTaps d kind tap).tmIn = d.tmIn ∧ (Dev.cutTaps d kind tap).queue = d.queue ∧
    (Dev.cutTaps d kind tap).port = d.port ∧ (Dev.cutTaps d kind tap).pol = d.pol ∧ (Dev.cutTaps d kind tap).portSel = d.portSel ∧
    (Dev.cutTaps d kind tap).qSel = d.qSel ∧ (Dev.cutTaps d kind tap).polSel = d.polSel ∧ (Dev.cutTaps d kind tap).group = d.group ∧
    (Dev.cutTaps d kind tap).lane = d.lane ∧ (Dev.cutTaps d kind tap).casc = d.casc ∧ (Dev.cutTaps d kind tap).mc = d.mc ∧ (Dev.cutTaps d kind tap).chkMode = d.chkMode ∧
    (Dev.cutTaps d kind tap).chkSel = d.chkSel ∧ (Dev.cutTaps d kind tap).trust = d.trust ∧ (Dev.cutTaps d kind tap).prl = d.prl ∧ (Dev.cutTaps d kind tap).mem = d.mem ∧
    (Dev.cutTaps d kind tap).memEra = d.memEra ∧ (Dev.cutTaps d kind tap).poison = d.poison ∧ (Dev.cutTaps d kind tap).out = d.out ∧
    (Dev.cutTaps d kind tap).waiting = d.waiting ∧ (Dev.cutTaps d kind tap).absent = d.absent ∧ (Dev.cutTaps d kind tap).freeCtr = d.freeCtr := by
  simp [Dev.cutTaps]

@[simp] theorem Dev.tapUnit_frame (d : Dev) (kind : Nat) (tap : Nat) (mt : Option Nat) (bytes : List Byte) (withheld : Bool) :
    (Dev.tapUnit d kind tap mt bytes withheld).ctl = d.ctl ∧ (Dev.tapUnit d kind tap mt bytes withheld).tb = d.tb ∧
    (Dev.tapUnit d kind tap mt bytes withheld).flt = d.flt ∧ (Dev.tapUnit d kind tap mt bytes withheld).hub = d.hub ∧
    (Dev.tapUnit d kind tap mt bytes withheld).rings = d.rings ∧ (Dev.tapUnit d kind tap mt bytes withheld).dsp = d.dsp ∧
    (Dev.tapUnit d kind tap mt bytes withheld).thr = d.thr ∧ (Dev.tapUnit d kind tap mt bytes withheld).loc = d.loc ∧
    (Dev.tapUnit d kind tap mt bytes withheld).locErr = d.locErr ∧ (Dev.tapUnit d kind tap mt bytes withheld).spillErr = d.spillErr ∧
    (Dev.tapUnit d kind tap mt bytes withheld).win = d.win ∧ (Dev.tapUnit d kind tap mt bytes withheld).unitQ = d.unitQ ∧
    (Dev.tapUnit d kind tap mt bytes withheld).pend = d.pend ∧ (Dev.tapUnit d kind tap mt bytes withheld).fab = d.fab ∧
    (Dev.tapUnit d kind tap mt bytes withheld).cap = d.cap ∧ (Dev.tapUnit d kind tap mt bytes withheld).capSel = d.capSel ∧
    (Dev.tapUnit d kind tap mt bytes withheld).scene = d.scene ∧ (Dev.tapUnit d kind tap mt bytes withheld).layer = d.layer ∧
    (Dev.tapUnit d kind tap mt bytes withheld).cluster = d.cluster ∧ (Dev.tapUnit d kind tap mt bytes withheld).blit = d.blit ∧
    (Dev.tapUnit d kind tap mt bytes withheld).chan = d.chan ∧ (Dev.tapUnit d kind tap mt bytes withheld).pipe = d.pipe ∧
    (Dev.tapUnit d kind tap mt bytes withheld).dec = d.dec ∧ (Dev.tapUnit d kind tap mt bytes withheld).decPipe = d.decPipe ∧
    (Dev.tapUnit d kind tap mt bytes withheld).decSel = d.decSel ∧ (Dev.tapUnit d kind tap mt bytes withheld).twin = d.twin ∧
    (Dev.tapUnit d kind tap mt bytes withheld).flow = d.flow ∧ (Dev.tapUnit d kind tap mt bytes withheld).pkgSel = d.pkgSel ∧
    (Dev.tapUnit d kind tap mt bytes withheld).tmIn = d.tmIn ∧ (Dev.tapUnit d kind tap mt bytes withheld).queue = d.queue ∧
    (Dev.tapUnit d kind tap mt bytes withheld).port = d.port ∧ (Dev.tapUnit d kind tap mt bytes withheld).pol = d.pol ∧
    (Dev.tapUnit d kind tap mt bytes withheld).portSel = d.portSel ∧ (Dev.tapUnit d kind tap mt bytes withheld).qSel = d.qSel ∧
    (Dev.tapUnit d kind tap mt bytes withheld).polSel = d.polSel ∧ (Dev.tapUnit d kind tap mt bytes withheld).group = d.group ∧
    (Dev.tapUnit d kind tap mt bytes withheld).lane = d.lane ∧ (Dev.tapUnit d kind tap mt bytes withheld).casc = d.casc ∧
    (Dev.tapUnit d kind tap mt bytes withheld).mc = d.mc ∧ (Dev.tapUnit d kind tap mt bytes withheld).chkMode = d.chkMode ∧
    (Dev.tapUnit d kind tap mt bytes withheld).chkSel = d.chkSel ∧ (Dev.tapUnit d kind tap mt bytes withheld).trust = d.trust ∧
    (Dev.tapUnit d kind tap mt bytes withheld).prl = d.prl ∧ (Dev.tapUnit d kind tap mt bytes withheld).mem = d.mem ∧
    (Dev.tapUnit d kind tap mt bytes withheld).memEra = d.memEra ∧ (Dev.tapUnit d kind tap mt bytes withheld).poison = d.poison ∧
    (Dev.tapUnit d kind tap mt bytes withheld).out = d.out ∧ (Dev.tapUnit d kind tap mt bytes withheld).waiting = d.waiting ∧
    (Dev.tapUnit d kind tap mt bytes withheld).absent = d.absent ∧ (Dev.tapUnit d kind tap mt bytes withheld).freeCtr = d.freeCtr := by
  simp [Dev.tapUnit]

@[simp] theorem Dev.routeIssue_frame (d : Dev) (x : Desc) :
    (Dev.routeIssue d x).ctl = d.ctl ∧ (Dev.routeIssue d x).tb = d.tb ∧ (Dev.routeIssue d x).flt = d.flt ∧ (Dev.routeIssue d x).hub = d.hub ∧
    (Dev.routeIssue d x).rings = d.rings ∧ (Dev.routeIssue d x).loc = d.loc ∧ (Dev.routeIssue d x).locErr = d.locErr ∧ (Dev.routeIssue d x).spillErr = d.spillErr ∧
    (Dev.routeIssue d x).win = d.win ∧ (Dev.routeIssue d x).pend = d.pend ∧ (Dev.routeIssue d x).fab = d.fab ∧ (Dev.routeIssue d x).cap = d.cap ∧
    (Dev.routeIssue d x).capSel = d.capSel ∧ (Dev.routeIssue d x).scene = d.scene ∧ (Dev.routeIssue d x).layer = d.layer ∧ (Dev.routeIssue d x).cluster = d.cluster ∧
    (Dev.routeIssue d x).blit = d.blit ∧ (Dev.routeIssue d x).chan = d.chan ∧ (Dev.routeIssue d x).pipe = d.pipe ∧ (Dev.routeIssue d x).dec = d.dec ∧
    (Dev.routeIssue d x).decPipe = d.decPipe ∧ (Dev.routeIssue d x).decSel = d.decSel ∧ (Dev.routeIssue d x).twin = d.twin ∧ (Dev.routeIssue d x).flow = d.flow ∧
    (Dev.routeIssue d x).pkgSel = d.pkgSel ∧ (Dev.routeIssue d x).tmIn = d.tmIn ∧ (Dev.routeIssue d x).queue = d.queue ∧ (Dev.routeIssue d x).port = d.port ∧
    (Dev.routeIssue d x).pol = d.pol ∧ (Dev.routeIssue d x).portSel = d.portSel ∧ (Dev.routeIssue d x).qSel = d.qSel ∧ (Dev.routeIssue d x).polSel = d.polSel ∧
    (Dev.routeIssue d x).group = d.group ∧ (Dev.routeIssue d x).lane = d.lane ∧ (Dev.routeIssue d x).casc = d.casc ∧ (Dev.routeIssue d x).mc = d.mc ∧
    (Dev.routeIssue d x).chk = d.chk ∧ (Dev.routeIssue d x).chkMode = d.chkMode ∧ (Dev.routeIssue d x).chkSel = d.chkSel ∧ (Dev.routeIssue d x).trust = d.trust ∧
    (Dev.routeIssue d x).prl = d.prl ∧ (Dev.routeIssue d x).memEra = d.memEra ∧ (Dev.routeIssue d x).out = d.out ∧ (Dev.routeIssue d x).waiting = d.waiting ∧
    (Dev.routeIssue d x).absent = d.absent ∧ (Dev.routeIssue d x).freeCtr = d.freeCtr := by
  unfold Dev.routeIssue; (repeat' split) <;> simp

@[simp] theorem Dev.acceptIssue_frame (d : Dev) (x : Desc) :
    (Dev.acceptIssue d x).ctl = d.ctl ∧ (Dev.acceptIssue d x).tb = d.tb ∧ (Dev.acceptIssue d x).flt = d.flt ∧ (Dev.acceptIssue d x).hub = d.hub ∧
    (Dev.acceptIssue d x).rings = d.rings ∧ (Dev.acceptIssue d x).loc = d.loc ∧ (Dev.acceptIssue d x).locErr = d.locErr ∧ (Dev.acceptIssue d x).spillErr = d.spillErr ∧
    (Dev.acceptIssue d x).win = d.win ∧ (Dev.acceptIssue d x).pend = d.pend ∧ (Dev.acceptIssue d x).fab = d.fab ∧ (Dev.acceptIssue d x).cap = d.cap ∧
    (Dev.acceptIssue d x).capSel = d.capSel ∧ (Dev.acceptIssue d x).scene = d.scene ∧ (Dev.acceptIssue d x).layer = d.layer ∧ (Dev.acceptIssue d x).cluster = d.cluster ∧
    (Dev.acceptIssue d x).blit = d.blit ∧ (Dev.acceptIssue d x).chan = d.chan ∧ (Dev.acceptIssue d x).pipe = d.pipe ∧ (Dev.acceptIssue d x).dec = d.dec ∧
    (Dev.acceptIssue d x).decPipe = d.decPipe ∧ (Dev.acceptIssue d x).decSel = d.decSel ∧ (Dev.acceptIssue d x).twin = d.twin ∧ (Dev.acceptIssue d x).flow = d.flow ∧
    (Dev.acceptIssue d x).pkgSel = d.pkgSel ∧ (Dev.acceptIssue d x).tmIn = d.tmIn ∧ (Dev.acceptIssue d x).queue = d.queue ∧ (Dev.acceptIssue d x).port = d.port ∧
    (Dev.acceptIssue d x).pol = d.pol ∧ (Dev.acceptIssue d x).portSel = d.portSel ∧ (Dev.acceptIssue d x).qSel = d.qSel ∧ (Dev.acceptIssue d x).polSel = d.polSel ∧
    (Dev.acceptIssue d x).group = d.group ∧ (Dev.acceptIssue d x).lane = d.lane ∧ (Dev.acceptIssue d x).casc = d.casc ∧ (Dev.acceptIssue d x).mc = d.mc ∧
    (Dev.acceptIssue d x).chk = d.chk ∧ (Dev.acceptIssue d x).chkMode = d.chkMode ∧ (Dev.acceptIssue d x).chkSel = d.chkSel ∧ (Dev.acceptIssue d x).trust = d.trust ∧
    (Dev.acceptIssue d x).prl = d.prl ∧ (Dev.acceptIssue d x).memEra = d.memEra ∧ (Dev.acceptIssue d x).out = d.out ∧ (Dev.acceptIssue d x).waiting = d.waiting ∧
    (Dev.acceptIssue d x).absent = d.absent ∧ (Dev.acceptIssue d x).freeCtr = d.freeCtr := by
  simp [Dev.acceptIssue]

end Sys2Proof.Machine
end

