-- ==== Sys2Proof/Laws/Ops.lean ====
section
/-! SUPPORT. One lemma for each shared operation: what it answers, and when. -/

namespace Sys2Proof.Machine

/-- A meaning that ends in `ok` completes. -/
theorem completes_ok {i : Instr} {s : State} {d : Dev} {P : Dev → Prop} (e : exec i s = ok s d) (h : P d) : Completes i s P := ⟨d, e, h⟩

/-! ## Device memory -/

/-- A byte of memory depends on two fields alone. -/
theorem Dev.memByte_congr {d e : Dev} (hm : e.mem = d.mem) (hr : e.memEra = d.memEra) (a : Nat) : e.memByte a = d.memByte a := by
  simp [Dev.memByte, hm, hr]

@[simp] theorem rebase_length (era a : Nat) (bs : List Byte) : (rebase era a bs).length = bs.length := by
  unfold rebase; split <;> simp

theorem rebase_get (era a : Nat) (bs : List Byte) (i : Nat) (h : i < bs.length) :
    (rebase era a bs)[i]'(by simpa using h) = bs[i] ^^^ baseByte era (a + i) := by
  unfold rebase baseByte
  split <;> simp

/-- Bytes outside a write read as before. -/
theorem Dev.memByte_memPut_other (d : Dev) (a : Nat) (bs : List Byte) (j : Nat) (h : j < a ∨ a + bs.length ≤ j) :
    ({ d with mem := d.memPut a bs } : Dev).memByte j = d.memByte j := by
  simp only [Dev.memByte, Dev.memPut]
  rw [writeBytes_other _ _ _ _ (by simpa using h)]

/-- Bytes inside a write read as what was written. -/
theorem Dev.memByte_memPut_inside (d : Dev) (a : Nat) (bs : List Byte) (i : Nat) (h : i < bs.length) :
    ({ d with mem := d.memPut a bs } : Dev).memByte (a + i) = bs[i] := by
  simp only [Dev.memByte, Dev.memPut]
  rw [writeBytes_inside _ _ _ _ (by simpa using h), rebase_get _ _ _ _ h, BitVec.xor_assoc, BitVec.xor_self, BitVec.xor_zero]

theorem Dev.memByte_memWrite_other (d : Dev) (a : Nat) (bs : List Byte) (j : Nat) (h : j < a ∨ a + bs.length ≤ j) :
    (d.memWrite a bs).memByte j = d.memByte j := by
  unfold Dev.memWrite
  split
  · exact Dev.memByte_memPut_other d a bs j h
  · rfl

theorem Dev.memByte_memWrite_inside (d : Dev) (a : Nat) (bs : List Byte) (i : Nat) (h : i < bs.length) (hc : a + bs.length ≤ d.capacity) :
    (d.memWrite a bs).memByte (a + i) = bs[i] := by
  unfold Dev.memWrite
  rw [if_pos hc]
  exact Dev.memByte_memPut_inside d a bs i h

/-- A read of several bytes is made of reads of one byte. -/
theorem Dev.memRead_eq (d : Dev) (a n : Nat) : d.memRead a n = (List.range n).map fun i => d.memByte (a + i) := by
  apply List.ext_getElem
  · simp [Dev.memRead]
  · intro i h1 h2
    have hi : i < n := by simpa using h2
    simp only [Dev.memRead, List.getElem_map, List.getElem_range, Dev.memByte]
    rw [rebase_get _ _ _ _ (by simpa using hi)]
    simp [readBytes_eq]

/-! ## Descriptors -/

/-- Nothing is skipped where the head of the queue names an operation of the unit. -/
theorem Dev.unitHead_known {d : Dev} {u : Nat} (h : ∀ x rest, d.unitQueue u = x :: rest → x.opKnown = true) : d.unitHead u = d := by
  unfold Dev.unitHead
  cases hq : d.unitQueue u with
  | nil => rfl
  | cons x rest =>
    rw [List.length_cons, Dev.skipUnknown, hq]
    simp [h x rest hq]

/-- A descriptor whose checks fail completes with its status and does nothing else. -/
theorem Dev.runUnit_fail {d d1 : Dev} {u op st : Nat} {sp : Dev → Desc → OpSpec} {run : Dev → Desc → Dev} {x : Desc}
    (h : (d.unitHead u).takeHead u op = some (x, d1)) (hc : d1.check157 x (sp d1 x) = some st) : d.runUnit u op sp run = d1.complete x st 0 := by
  simp [Dev.runUnit, h, hc]

/-- A descriptor whose checks pass goes to the operation. -/
theorem Dev.runUnit_run {d d1 : Dev} {u op : Nat} {sp : Dev → Desc → OpSpec} {run : Dev → Desc → Dev} {x : Desc}
    (h : (d.unitHead u).takeHead u op = some (x, d1)) (hc : d1.check157 x (sp d1 x) = none) : d.runUnit u op sp run = run d1 x := by
  simp [Dev.runUnit, h, hc]

/-- With no descriptor of the operation at the head there is nothing to do. -/
theorem Dev.runUnit_idle {d : Dev} {u op : Nat} {sp : Dev → Desc → OpSpec} {run : Dev → Desc → Dev} (h : (d.unitHead u).takeHead u op = none) :
    d.runUnit u op sp run = d.unitHead u := by
  simp [Dev.runUnit, h]

theorem firstFail_none (cs : List (Bool × Nat)) : firstFail cs = none ↔ ∀ c ∈ cs, c.1 = false := by
  induction cs with
  | nil => simp [firstFail]
  | cons c cs ih => cases h : c.1 <;> simp [firstFail, h, ih]

theorem Dev.checked_run {d k : Dev} {x : Desc} {cs : List (Bool × Nat)} (h : firstFail cs = none) : d.checked x cs k = k := by
  simp [Dev.checked, h]

theorem Dev.checked_fail {d k : Dev} {x : Desc} {cs : List (Bool × Nat)} {st : Nat} (h : firstFail cs = some st) : d.checked x cs k = d.complete x st 0 := by
  simp [Dev.checked, h]

/-- What taking the head of a queue leaves. -/
theorem Dev.takeHead_some {d d1 : Dev} {u op : Nat} {x : Desc} (h : d.takeHead u op = some (x, d1)) :
    ∃ rest, d.unitQueue u = x :: rest ∧ x.op = op ∧ d1 = d.putUnitQueue u rest := by
  unfold Dev.takeHead at h
  split at h
  · next y rest e =>
    split at h
    · next ho => cases h; exact ⟨rest, e, ho, rfl⟩
    · cases h
  · cases h

end Sys2Proof.Machine
end

