-- ==== Sys2Proof/Laws/Pick.lean ====
section
/-! SUPPORT. What `firstBest` picks: a member that comes before every other one. -/

namespace Sys2Proof.Machine

variable {α : Type} {le : α → α → Bool}

theorem firstBest_nil : firstBest le ([] : List α) = none := rfl

theorem firstBest_isSome (x : α) (xs : List α) : ∃ y, firstBest le (x :: xs) = some y := ⟨_, rfl⟩

/-- The item that the fold ends with is the first one or a later one. -/
theorem pick_mem (xs : List α) : ∀ x, xs.foldl (fun b y => if le b y then b else y) x ∈ x :: xs := by
  induction xs with
  | nil => intro x; simp
  | cons y ys ih =>
    intro x
    rw [List.foldl_cons]
    rcases List.mem_cons.mp (ih (if le x y then x else y)) with h | h
    · rw [h]; split <;> simp
    · exact List.mem_cons_of_mem _ (List.mem_cons_of_mem _ h)

theorem firstBest_mem {l : List α} {x : α} (h : firstBest le l = some x) : x ∈ l := by
  cases l with
  | nil => cases h
  | cons y ys => cases h; exact pick_mem ys y

/-- With a total and transitive order, it comes before every item. -/
theorem pick_le (total : ∀ a b, le a b = true ∨ le b a = true) (trans : ∀ a b c, le a b = true → le b c = true → le a c = true) (xs : List α) :
    ∀ x, ∀ z ∈ x :: xs, le (xs.foldl (fun b y => if le b y then b else y) x) z = true := by
  induction xs with
  | nil =>
    intro x z hz
    rw [List.mem_singleton.mp hz]
    exact (total x x).elim id id
  | cons y ys ih =>
    intro x z hz
    rw [List.foldl_cons]
    have key := ih (if le x y then x else y)
    have first := key _ List.mem_cons_self
    rcases List.mem_cons.mp hz with rfl | hz
    · by_cases c : le z y = true
      · simpa [c] using first
      · have c' := (total z y).resolve_left c
        simp only [c] at first ⊢
        exact trans _ _ _ first c'
    · rcases List.mem_cons.mp hz with rfl | hz
      · by_cases c : le x z = true
        · simp only [c, if_true] at first ⊢
          exact trans _ _ _ first c
        · simpa [c] using first
      · exact key z (List.mem_cons_of_mem _ hz)

theorem firstBest_le (total : ∀ a b, le a b = true ∨ le b a = true) (trans : ∀ a b c, le a b = true → le b c = true → le a c = true)
    {l : List α} {x : α} (h : firstBest le l = some x) : ∀ z ∈ l, le x z = true := by
  cases l with
  | nil => cases h
  | cons y ys => cases h; exact pick_le total trans ys y

end Sys2Proof.Machine
end

