-- ==== Sys2Proof/Laws/Regs.lean ====
section
/-! SUPPORT. The registers of a thread stay the same wherever they stand: in the thread, or in its record while it is spilled (R183 to R185). -/

namespace Sys2Proof.Machine

/-! ## A record's registers -/

theorem chunk_of_flatMap {β : Type} (c : Nat) : ∀ (n r : Nat) (f : Nat → List β) (rest : List β), (∀ i, (f i).length = c) → r < n →
    (((List.range n).flatMap f ++ rest).drop (c * r)).take c = f r := by
  intro n
  induction n with
  | zero => intro r f rest _ hr; omega
  | succ n ih =>
    intro r f rest hf hr
    have e : (List.range (n + 1)).flatMap f ++ rest = f 0 ++ ((List.range n).flatMap (fun i => f (i + 1)) ++ rest) := by
      simp [List.range_succ_eq_map, List.flatMap_map]
    rw [e]
    cases r with
    | zero => simp [← hf 0]
    | succ r =>
      have h := ih r (fun i => f (i + 1)) rest (fun i => hf _) (by omega)
      rw [Nat.mul_succ, Nat.add_comm, ← List.drop_drop, ← hf 0, List.drop_left, hf 0]
      exact h

theorem image_length (x : Thread) : x.image.length = 272 := by
  simp [Thread.image, List.length_flatMap]

theorem image_g (x : Thread) (r : Nat) (h : r < 32) : fieldLE x.image (8 * r) 8 = (x.g.get 0 r).toNat := by
  unfold fieldLE Thread.image
  rw [List.append_assoc, chunk_of_flatMap 8 32 r (fun r => toLE 8 (x.g.get 0 r).toNat) _ (by simp) h, leNat_toLE]
  exact Nat.mod_eq_of_lt (x.g.get 0 r).isLt

theorem image_pc (x : Thread) : fieldLE x.image 256 8 = x.pc.toNat := by
  unfold fieldLE Thread.image
  have hl : ((List.range 32).flatMap fun r => toLE 8 (x.g.get 0 r).toNat).length = 256 := by simp [List.length_flatMap]
  rw [List.append_assoc, ← hl, List.drop_left, List.take_append_of_le_length (by simp), List.take_of_length_le (by simp), leNat_toLE]
  exact Nat.mod_eq_of_lt x.pc.isLt

theorem image_bits (x : Thread) : fieldLE x.image 264 8 = b2n x.wt + 2 * b2n x.cas := by
  unfold fieldLE Thread.image
  have hl : ((List.range 32).flatMap (fun r => toLE 8 (x.g.get 0 r).toNat) ++ toLE 8 x.pc.toNat).length = 264 := by simp [List.length_flatMap]
  rw [← hl, List.drop_left, List.take_of_length_le (by simp), leNat_toLE]
  cases x.wt <;> cases x.cas <;> rfl

theorem foldl_setG (f : Nat → DWord) : ∀ (l : List Nat) (x : Thread), ∃ g, l.foldl (fun y r => y.setG r (f r)) x = { x with g := g } := by
  intro l
  induction l with
  | nil => intro x; exact ⟨x.g, rfl⟩
  | cons r l ih =>
    intro x
    by_cases h : r = 0
    · simpa [Thread.setG, h] using ih x
    · obtain ⟨g, hg⟩ := ih { x with g := x.g.put 0 r (f r) }
      exact ⟨g, by simpa [Thread.setG, h] using hg⟩

theorem foldl_setG_gpr (f : Nat → DWord) : ∀ (l : List Nat) (x : Thread) (k : Nat), l.Nodup →
    (l.foldl (fun y r => y.setG r (f r)) x).gpr k = if k ∈ l ∧ k ≠ 0 then f k else x.gpr k := by
  intro l
  induction l with
  | nil => simp
  | cons r l ih =>
    intro x k hn
    obtain ⟨h1, h2⟩ := List.nodup_cons.mp hn
    rw [List.foldl_cons, ih _ k h2]
    by_cases hk : k = 0
    · subst hk; simp [Thread.gpr]
    · by_cases hr : k = r
      · subst hr; simp [h1, hk, Thread.gpr, Thread.setG]
      · by_cases h0 : r = 0
        · simp [hk, Thread.setG, h0, Thread.gpr]
        · simp [hk, hr, Thread.setG, h0, Thread.gpr, Tab.get_put_other _ _ _ hr]

/-- What a record leaves alone of a thread. -/
theorem fromImage_frame (x : Thread) (b : List Byte) : ∃ g pc wt cas, x.fromImage b = { x with g := g, pc := pc, wt := wt, cas := cas } := by
  unfold Thread.fromImage
  obtain ⟨g, hg⟩ := foldl_setG (fun r => BitVec.ofNat 64 (fieldLE b (8 * r) 8)) (List.range 32)
    { x with pc := BitVec.ofNat 64 (fieldLE b 256 8 / 4 * 4), wt := bitN (fieldLE b 264 8) 0, cas := bitN (fieldLE b 264 8) 1 }
  exact ⟨g, _, _, _, hg⟩

/-- The same registers. -/
def RegsEq (x y : Thread) : Prop :=
  (∀ r, r < 32 → y.gpr r = x.gpr r) ∧ (x.pc.toNat % 4 = 0 → y.pc = x.pc) ∧ y.wt = x.wt ∧ y.cas = x.cas

theorem RegsEq.rfl {x : Thread} : RegsEq x x := ⟨fun _ _ => Eq.refl _, fun _ => Eq.refl _, Eq.refl _, Eq.refl _⟩
theorem RegsEq.trans {x y z : Thread} (h : RegsEq x y) (k : RegsEq y z) : RegsEq x z :=
  ⟨fun r hr => (k.1 r hr).trans (h.1 r hr), fun e => (k.2.1 (by rw [h.2.1 e]; exact e)).trans (h.2.1 e), k.2.2.1.trans h.2.2.1, k.2.2.2.trans h.2.2.2⟩

/-- A record that holds a thread's registers gives them back. -/
theorem fromImage_image (x z : Thread) : RegsEq x (z.fromImage x.image) := by
  refine ⟨fun r hr => ?_, fun h => ?_, ?_, ?_⟩
  · unfold Thread.fromImage
    rw [foldl_setG_gpr _ _ _ _ List.nodup_range]
    by_cases h0 : r = 0
    · simp [Thread.gpr, h0]
    · simp [hr, h0, image_g x r hr, Thread.gpr]
  all_goals unfold Thread.fromImage
  · obtain ⟨g, hg⟩ := foldl_setG (fun r => BitVec.ofNat 64 (fieldLE x.image (8 * r) 8)) (List.range 32)
      { z with pc := BitVec.ofNat 64 (fieldLE x.image 256 8 / 4 * 4), wt := bitN (fieldLE x.image 264 8) 0, cas := bitN (fieldLE x.image 264 8) 1 }
    rw [hg, image_pc]
    have : x.pc.toNat / 4 * 4 = x.pc.toNat := by omega
    simp [this]
  · obtain ⟨g, hg⟩ := foldl_setG (fun r => BitVec.ofNat 64 (fieldLE x.image (8 * r) 8)) (List.range 32)
      { z with pc := BitVec.ofNat 64 (fieldLE x.image 256 8 / 4 * 4), wt := bitN (fieldLE x.image 264 8) 0, cas := bitN (fieldLE x.image 264 8) 1 }
    rw [hg, image_bits]
    cases x.wt <;> cases x.cas <;> rfl
  · obtain ⟨g, hg⟩ := foldl_setG (fun r => BitVec.ofNat 64 (fieldLE x.image (8 * r) 8)) (List.range 32)
      { z with pc := BitVec.ofNat 64 (fieldLE x.image 256 8 / 4 * 4), wt := bitN (fieldLE x.image 264 8) 0, cas := bitN (fieldLE x.image 264 8) 1 }
    rw [hg, image_bits]
    cases x.wt <;> cases x.cas <;> rfl

/-! ## A device's threads -/

/-- `withRegs` depends on the thread and its record alone. -/
theorem withRegs_congr {d e : Dev} {k : Nat} (ht : e.thread k = d.thread k) (hb : e.spillBase = d.spillBase)
    (hm : ∀ j, d.regsAt k ≤ j → j < d.regsAt k + 272 → e.memByte j = d.memByte j) : e.withRegs k = d.withRegs k := by
  have hr : e.regsAt k = d.regsAt k := by unfold Dev.regsAt; rw [hb]
  unfold Dev.withRegs
  rw [ht, hr]
  congr 2
  rw [Dev.memRead_eq, Dev.memRead_eq]
  apply List.map_congr_left
  intro i hi
  exact hm _ (by omega) (by have := List.mem_range.mp hi; omega)

theorem withRegs_flags (d : Dev) (k : Nat) : (d.withRegs k).flags = (d.thread k).flags ∧ (d.withRegs k).prio = (d.thread k).prio ∧
    (d.withRegs k).st = (d.thread k).st ∧ (d.withRegs k).firmware = (d.thread k).firmware := by
  unfold Dev.withRegs
  split
  · obtain ⟨g, pc, wt, cas, h⟩ := fromImage_frame (d.thread k) (d.memRead (d.regsAt k) 272)
    rw [h]
    exact ⟨rfl, rfl, rfl, rfl⟩
  · exact ⟨rfl, rfl, rfl, rfl⟩

/-- One thread of two devices has the same registers, flags and priority. -/
def SameAt (e d : Dev) (k : Nat) : Prop := RegsEq (e.withRegs k) (d.withRegs k) ∧ (d.thread k).flags = (e.thread k).flags ∧ (d.thread k).prio = (e.thread k).prio

theorem Dev.sameRegs_iff {e d : Dev} : Dev.SameRegs e d ↔ ∀ k, SameAt e d k :=
  ⟨fun h k => ⟨⟨(h k).1, (h k).2.1, (h k).2.2.1, (h k).2.2.2.1⟩, (h k).2.2.2.2⟩,
   fun h k => ⟨(h k).1.1, (h k).1.2.1, (h k).1.2.2.1, (h k).1.2.2.2, (h k).2⟩⟩

theorem Dev.SameRegs.refl (d : Dev) : Dev.SameRegs d d := Dev.sameRegs_iff.mpr fun _ => ⟨RegsEq.rfl, rfl, rfl⟩
theorem Dev.SameRegs.trans {a b c : Dev} (h : Dev.SameRegs a b) (k : Dev.SameRegs b c) : Dev.SameRegs a c :=
  Dev.sameRegs_iff.mpr fun t =>
    let x := Dev.sameRegs_iff.mp h t
    let y := Dev.sameRegs_iff.mp k t
    ⟨x.1.trans y.1, y.2.1.trans x.2.1, y.2.2.trans x.2.2⟩

/-- Memory, its era and the place of the records stay. -/
theorem sameAt_of_thread {d e : Dev} {k : Nat} (ht : e.thread k = d.thread k) (hd : e.dsp.spillLo = d.dsp.spillLo ∧ e.dsp.spillHi = d.dsp.spillHi)
    (hm : ∀ j, d.regsAt k ≤ j → j < d.regsAt k + 272 → e.memByte j = d.memByte j) : SameAt d e k := by
  have hb : e.spillBase = d.spillBase := by unfold Dev.spillBase; rw [hd.1, hd.2]
  refine ⟨?_, by rw [ht], by rw [ht]⟩
  rw [withRegs_congr ht hb hm]
  exact RegsEq.rfl

/-- The fields of a thread outside its registers that decide where those stand. -/
theorem fromImage_regs (x y : Thread) (b : List Byte) : RegsEq (x.fromImage b) (y.fromImage b) := by
  refine ⟨fun r hr => ?_, fun _ => ?_, ?_, ?_⟩
  · unfold Thread.fromImage
    rw [foldl_setG_gpr _ _ _ _ List.nodup_range, foldl_setG_gpr _ _ _ _ List.nodup_range]
    by_cases h : r = 0
    · simp [h, Thread.gpr]
    · simp [h, hr]
  all_goals
    unfold Thread.fromImage
    obtain ⟨g, hg⟩ := foldl_setG (fun r => BitVec.ofNat 64 (fieldLE b (8 * r) 8)) (List.range 32)
      { x with pc := BitVec.ofNat 64 (fieldLE b 256 8 / 4 * 4), wt := bitN (fieldLE b 264 8) 0, cas := bitN (fieldLE b 264 8) 1 }
    obtain ⟨g', hg'⟩ := foldl_setG (fun r => BitVec.ofNat 64 (fieldLE b (8 * r) 8)) (List.range 32)
      { y with pc := BitVec.ofNat 64 (fieldLE b 256 8 / 4 * 4), wt := bitN (fieldLE b 264 8) 0, cas := bitN (fieldLE b 264 8) 1 }
    rw [hg, hg']

/-- A thread changes in fields that are not its registers and do not say where those stand. -/
theorem sameRegs_put {d e : Dev} {t : Nat} {y : Thread} (ht : ∀ k, e.thread k = if k = t then y else d.thread k) (hd : e.dsp.spillLo = d.dsp.spillLo ∧ e.dsp.spillHi = d.dsp.spillHi)
    (hm : e.mem = d.mem) (he : e.memEra = d.memEra)
    (hr : y.g = (d.thread t).g ∧ y.pc = (d.thread t).pc ∧ y.wt = (d.thread t).wt ∧ y.cas = (d.thread t).cas ∧ y.flags = (d.thread t).flags ∧ y.prio = (d.thread t).prio)
    (hs : y.spilled = (d.thread t).spilled) : Dev.SameRegs d e := by
  rw [Dev.sameRegs_iff]
  intro k
  by_cases h : k = t
  · subst h
    have hk : e.thread k = y := by rw [ht k, if_pos rfl]
    refine ⟨?_, by rw [hk]; exact hr.2.2.2.2.1, by rw [hk]; exact hr.2.2.2.2.2⟩
    have hb : e.regsAt k = d.regsAt k := by unfold Dev.regsAt Dev.spillBase; rw [hd.1, hd.2]
    have hmr : e.memRead (e.regsAt k) 272 = d.memRead (d.regsAt k) 272 := by
      rw [hb, Dev.memRead, Dev.memRead, hm, he]
    unfold Dev.withRegs
    rw [hk, hs, hmr]
    split
    · exact fromImage_regs _ _ _
    · exact ⟨fun r _ => by unfold Thread.gpr; rw [hr.1], fun _ => hr.2.1, hr.2.2.1, hr.2.2.2.1⟩
  · exact sameAt_of_thread (by rw [ht k, if_neg h]) hd fun j _ _ => Dev.memByte_congr hm he j

theorem live_toReady (x : Thread) : ({ x with st := .ready } : Thread).live = true := rfl

/-- Bytes outside the range moved into stay. -/
theorem moveRange_other (src dst : Tab Byte) (a b n j : Nat) (h : j < b ∨ b + n ≤ j) : Tab.get 0 (moveRange src dst a b n) j = Tab.get 0 dst j := by
  unfold moveRange
  have hf : ∀ (q : Nat × Byte → Bool) (l : Tab Byte), (∀ v, q (j, v) = true) → Tab.get 0 (l.filter q) j = Tab.get 0 l j := by
    intro q l hq
    induction l with
    | nil => rfl
    | cons p l ih =>
      by_cases hp : p.1 = j
      · have : q p = true := by rw [← hq p.2, ← hp]
        rw [List.filter_cons_of_pos this]
        simp only [Tab.get, if_pos hp]
      · have step : Tab.get 0 (p :: l) j = Tab.get 0 l j := by simp only [Tab.get, if_neg hp]
        by_cases hc : q p = true
        · rw [List.filter_cons_of_pos hc, step]
          simp only [Tab.get, if_neg hp]
          exact ih
        · rw [List.filter_cons_of_neg hc, step]
          exact ih
  have hg : ∀ (l m : Tab Byte), (∀ p ∈ l, a ≤ p.1 ∧ p.1 < a + n) → Tab.get 0 (l.foldl (fun m p => m.put 0 (p.1 - a + b) p.2) m) j = Tab.get 0 m j := by
    intro l
    induction l with
    | nil => intro m _; rfl
    | cons p l ih =>
      intro m hl
      rw [List.foldl_cons, ih _ fun q hq => hl q (List.mem_cons_of_mem _ hq)]
      have := hl p List.mem_cons_self
      exact Tab.get_put_other _ _ _ (by omega)
  rw [hg _ _ (by intro p hp; simpa using (List.mem_filter.mp hp).2), hf _ _ (by intro v; simp only [Bool.not_eq_true', Bool.and_eq_false_iff, decide_eq_false_iff_not]; omega)]


/-! ## Spilling and restoring -/

theorem spillRegs_thread (d : Dev) (v k : Nat) : (d.spillRegs v).thread k = d.thread k := rfl

theorem spill_thread (d : Dev) (v k : Nat) : (d.spill v).thread k = if k = v then { d.thread v with slot := none } else d.thread k := by
  unfold Dev.spill
  by_cases h : k = v
  · subst h; simp [spillRegs_thread]
  · rw [if_neg h]; exact Dev.thread_putThread_other _ _ h

theorem spill_dsp (d : Dev) (v : Nat) : (d.spill v).dsp = d.dsp := rfl
theorem spill_era (d : Dev) (v : Nat) : (d.spill v).memEra = d.memEra := rfl

/-- Memory after a spill: what it was after the registers' part, but for the segment's part. -/
theorem spill_mem_eq (d : Dev) (v j : Nat) (h : j < d.spillBase + v * spillRecord ∨ d.spillBase + v * spillRecord + 65536 ≤ j) :
    (d.spill v).memByte j = (d.spillRegs v).memByte j := by
  by_cases he : d.memEra = 0
  · have e : (d.spill v).mem = moveRange d.loc (d.spillRegs v).mem (d.thread v).segBase (d.spillBase + v * spillRecord) 65536 := by
      show (if d.memEra = 0 then _ else _) = _
      rw [if_pos he]
      rfl
    unfold Dev.memByte
    rw [e, moveRange_other _ _ _ _ _ _ h]
    rfl
  · have e : (d.spill v).mem = (d.spillRegs v).memPut (d.spillBase + v * spillRecord) (readBytes d.loc (d.thread v).segBase 65536) := by
      show (if d.memEra = 0 then _ else _) = _
      rw [if_neg he]
      rfl
    rw [← Dev.memByte_memPut_other (d.spillRegs v) (d.spillBase + v * spillRecord) (readBytes d.loc (d.thread v).segBase 65536) j (by rw [readBytes_length]; exact h)]
    exact Dev.memByte_congr (d := { d.spillRegs v with mem := (d.spillRegs v).memPut (d.spillBase + v * spillRecord) (readBytes d.loc (d.thread v).segBase 65536) }) e rfl j

/-- Outside the record that a spill writes, memory stays. -/
theorem spill_mem_other (d : Dev) (v j : Nat) (h : j < d.spillBase + v * spillRecord ∨ d.spillBase + v * spillRecord + 65808 ≤ j) : (d.spill v).memByte j = d.memByte j := by
  rw [spill_mem_eq d v j (by omega), ← Dev.memByte_memPut_other d (d.regsAt v) (d.thread v).image j (by rw [image_length]; unfold Dev.regsAt; omega)]
  rfl

/-- The registers that a spill writes are those of the thread. -/
theorem spill_regs (d : Dev) (v : Nat) : (d.spill v).memRead ((d.spill v).regsAt v) 272 = (d.thread v).image := by
  have hb : (d.spill v).regsAt v = d.regsAt v := rfl
  rw [hb, Dev.memRead_eq]
  apply List.ext_getElem
  · rw [List.length_map, List.length_range, image_length]
  · intro i h1 h2
    rw [List.getElem_map, List.getElem_range, spill_mem_eq d v _ (by unfold Dev.regsAt; omega), ← Dev.memByte_memPut_inside d (d.regsAt v) (d.thread v).image i h2]
    rfl

/-- A resident program that is spilled keeps its registers, and so does every other thread. -/
theorem spill_sameRegs (d : Dev) (v : Nat) (hs : (d.thread v).slot.isSome = true) (hf : (d.thread v).firmware = false) : Dev.SameRegs d (d.spill v) := by
  rw [Dev.sameRegs_iff]
  intro k
  by_cases h : k = v
  · subst h
    have hk : (d.spill k).thread k = { d.thread k with slot := none } := by rw [spill_thread, if_pos rfl]
    have h0 : (d.thread k).spilled = false := by unfold Thread.spilled; cases h : (d.thread k).slot <;> simp_all
    refine ⟨?_, by rw [hk], by rw [hk]⟩
    unfold Dev.withRegs
    rw [h0, hk, spill_regs]
    simp only [Bool.false_eq_true, if_false]
    split
    · exact fromImage_image _ _
    · exact ⟨fun _ _ => rfl, fun _ => rfl, rfl, rfl⟩
  · refine sameAt_of_thread (by rw [spill_thread, if_neg h]) ⟨rfl, rfl⟩ fun j h1 h2 => spill_mem_other d v j ?_
    unfold Dev.regsAt spillRecord at h1 h2
    unfold spillRecord
    omega

/-- A restored thread has the registers of its record. -/
theorem restore_sameRegs (d : Dev) (t c k : Nat) : Dev.SameRegs d (d.restore t c k) := by
  rw [Dev.sameRegs_iff]
  intro j
  by_cases h : j = t
  · subst h
    have hk : (d.restore j c k).thread j = { d.withRegs j with home := c, slot := some k, resAge := d.dsp.age } := by unfold Dev.restore; simp
    have hf := withRegs_flags d j
    refine ⟨?_, by rw [hk]; exact hf.1, by rw [hk]; exact hf.2.1⟩
    have : (d.restore j c k).withRegs j = (d.restore j c k).thread j := by
      unfold Dev.withRegs; rw [hk]; simp [Thread.spilled]
    rw [this, hk]
    exact ⟨fun _ _ => rfl, fun _ => rfl, rfl, rfl⟩
  · exact sameAt_of_thread (by unfold Dev.restore; exact Dev.thread_putThread_other _ _ h) ⟨rfl, rfl⟩ fun i _ _ => Dev.memByte_congr rfl rfl i

/-! ## Taking a core -/

theorem spill_live (d : Dev) (v k : Nat) : ((d.spill v).thread k).live = (d.thread k).live ∧ ((d.spill v).thread k).firmware = (d.thread k).firmware ∧ ((d.spill v).thread k).st = (d.thread k).st := by
  rw [spill_thread]
  split
  · rename_i h; subst h; exact ⟨rfl, rfl, rfl⟩
  · exact ⟨rfl, rfl, rfl⟩

theorem restore_live (d : Dev) (t c n k : Nat) : ((d.restore t c n).thread k).live = (d.thread k).live := by
  by_cases h : k = t
  · subst h
    have hk : ((d.restore k c n).thread k).st = (d.thread k).st := by
      unfold Dev.restore
      rw [Dev.thread_putThread]
      exact (withRegs_flags d k).2.2.1
    unfold Thread.live
    rw [hk]
  · have : (d.restore t c n).thread k = d.thread k := by unfold Dev.restore; exact Dev.thread_putThread_other _ _ h
    rw [this]

theorem residents_slot {d : Dev} {c v : Nat} (h : v ∈ d.residents c) : (d.thread v).slot.isSome = true ∧ (d.thread v).firmware = false := by
  unfold Dev.residents at h
  have := (List.mem_filter.mp h).2
  simp only [Bool.and_eq_true, Bool.not_eq_true'] at this
  exact ⟨this.1.2, this.2⟩

/-- No thread's registers change, nor whether it is live. -/
def Keeps (d e : Dev) : Prop := Dev.SameRegs d e ∧ ∀ k, (e.thread k).live = (d.thread k).live

theorem Keeps.refl (d : Dev) : Keeps d d := ⟨Dev.SameRegs.refl d, fun _ => rfl⟩
theorem Keeps.trans {a b c : Dev} (h : Keeps a b) (k : Keeps b c) : Keeps a c := ⟨h.1.trans k.1, fun t => (k.2 t).trans (h.2 t)⟩

theorem spill_keeps (d : Dev) (v : Nat) (hs : (d.thread v).slot.isSome = true) (hf : (d.thread v).firmware = false) : Keeps d (d.spill v) :=
  ⟨spill_sameRegs d v hs hf, fun k => (spill_live d v k).1⟩

theorem makeRoom_keeps (d : Dev) (c : Nat) : Keeps d (d.makeRoom c) := by
  unfold Dev.makeRoom
  split
  · exact Keeps.refl d
  · split
    · rename_i v hv
      have hm := residents_slot (List.mem_filter.mp (firstBest_mem hv)).1
      exact spill_keeps d v hm.1 hm.2
    · exact Keeps.refl d

theorem takeSlot_keeps (d : Dev) (t c : Nat) : Keeps d (d.takeSlot t c) := by
  unfold Dev.takeSlot
  split
  · exact ⟨restore_sameRegs d t c _, restore_live d t c _⟩
  · exact Keeps.refl d

/-- A thread becomes resident with no register of any thread changed. -/
theorem makeResident_keeps (d : Dev) (t c : Nat) : Keeps d (d.makeResident t c) := by
  unfold Dev.makeResident
  by_cases hf : (d.thread t).firmware = true
  · rw [if_pos hf]
    refine ⟨?_, fun k => ?_⟩
    · refine sameRegs_put (t := t) (y := { d.thread t with home := c }) (fun k => ?_) ⟨rfl, rfl⟩ rfl rfl ⟨rfl, rfl, rfl, rfl, rfl, rfl⟩ rfl
      by_cases h : k = t
      · rw [if_pos h, h]
        exact Dev.thread_putThread d t _
      · rw [if_neg h]
        exact Dev.thread_putThread_other _ _ h
    · by_cases h : k = t
      · rw [h, Dev.thread_putThread]
        rfl
      · rw [Dev.thread_putThread_other _ _ h]
  · have hf' : (d.thread t).firmware = false := by simpa using hf
    rw [if_neg (by simp [hf'])]
    split
    · exact Keeps.refl d
    · have h1 : Keeps d (if (d.thread t).slot.isSome = true then d.spill t else d) := by
        split
        · rename_i hs; exact spill_keeps d t hs hf'
        · exact Keeps.refl d
      exact (h1.trans (makeRoom_keeps _ c)).trans (takeSlot_keeps _ t c)

theorem thread_modThread (d : Dev) (t k : Nat) (f : Thread → Thread) : (d.modThread t f).thread k = if k = t then f (d.thread t) else d.thread k := by
  by_cases h : k = t
  · subst h; simp
  · rw [if_neg h]; exact Dev.thread_putThread_other _ _ h

/-- A live thread changes its state to another live one, its core, its hold and its place in an order. -/
theorem modThread_keeps {d e : Dev} {t : Nat} {f : Thread → Thread} (he : e = { d.modThread t f with dsp := e.dsp }) (hd : e.dsp.spillLo = d.dsp.spillLo ∧ e.dsp.spillHi = d.dsp.spillHi)
    (hf : ∃ st core home rs hold rd, f (d.thread t) = { d.thread t with st := st, core := core, home := home, runStart := rs, hold := hold, ready := rd } ∧ (st = .ready ∨ st = .running))
    (hl : (d.thread t).live = true) : Keeps d e := by
  obtain ⟨st, core, home, rs, hold, rd, hy, hs⟩ := hf
  have hlive : (f (d.thread t)).live = true := by rw [hy]; rcases hs with rfl | rfl <;> rfl
  have ht : ∀ k, e.thread k = if k = t then f (d.thread t) else d.thread k := by
    intro k
    have : e.thread k = (d.modThread t f).thread k := by rw [he]; rfl
    rw [this]
    exact thread_modThread d t k f
  refine ⟨sameRegs_put ht hd (by rw [he]; rfl) (by rw [he]; rfl) (by rw [hy]; exact ⟨rfl, rfl, rfl, rfl, rfl, rfl⟩) ?_, fun k => ?_⟩
  · unfold Thread.spilled
    rw [hlive, hl, hy]
  · rw [ht k]
    split
    · rename_i h; subst h; rw [hlive, hl]
    · rfl

theorem toTail_keeps (d : Dev) (t : Nat) (hl : (d.thread t).live = true) : Keeps d (d.toTail t) :=
  modThread_keeps (d := d) (f := fun x => { x with st := .ready, core := none, hold := .nothing, ready := d.dsp.tail + 1 }) rfl ⟨rfl, rfl⟩
    ⟨_, _, _, _, _, _, rfl, .inl rfl⟩ hl

theorem toHead_keeps (d : Dev) (t : Nat) (hl : (d.thread t).live = true) : Keeps d (d.toHead t) :=
  modThread_keeps (d := d) (f := fun x => { x with st := .ready, core := none, hold := .nothing, ready := d.dsp.head - 1 }) rfl ⟨rfl, rfl⟩
    ⟨_, _, _, _, _, _, rfl, .inl rfl⟩ hl

theorem runOn_keeps (d : Dev) (t c : Nat) (hl : (d.thread t).live = true) : Keeps d (d.runOn t c) := by
  have h1 := makeResident_keeps d t c
  have h2 : Keeps (d.makeResident t c) (d.runOn t c) := modThread_keeps (d := d.makeResident t c) (t := t) (f := fun x => { x with st := .running, core := some c, home := c, runStart := d.ctl.ticks }) rfl ⟨rfl, rfl⟩
    ⟨_, _, _, _, _, _, rfl, .inr rfl⟩ (by rw [h1.2, hl])
  exact h1.trans h2

/-- A thread that a core runs is running. -/
theorem running_st {d : Dev} {c v : Nat} (h : d.running c = some v) : (d.thread v).st = .running := by
  unfold Dev.running at h
  have := List.find?_some h
  simp only [Bool.and_eq_true, beq_iff_eq] at this
  exact this.1

theorem victim_live {d : Dev} {t c v : Nat} (h : d.victim t = some (c, v)) : (d.thread v).live = true := by
  have key : ∀ (l : List Nat) (b : Option (Nat × Nat)), (∀ p, b = some p → (d.thread p.2).live = true) → ∀ p,
      l.foldl (fun best c =>
        match d.running c with
        | none => best
        | some v =>
          if (d.thread t).prio < (d.thread v).prio then
            match best with
            | none => some (c, v)
            | some (_, u) => if (d.thread u).prio < (d.thread v).prio then some (c, v) else best
          else best) b = some p → (d.thread p.2).live = true := by
    intro l
    induction l with
    | nil => intro b hb p hp; exact hb p hp
    | cons c l ih =>
      intro b hb p hp
      rw [List.foldl_cons] at hp
      refine ih _ ?_ p hp
      intro q hq
      split at hq
      · exact hb q hq
      · rename_i w hw
        have lw : (d.thread w).live = true := by unfold Thread.live; rw [running_st hw]
        split at hq
        · split at hq
          · cases hq; exact lw
          · split at hq
            · cases hq; exact lw
            · exact hb q hq
        · exact hb q hq
  unfold Dev.victim at h
  dsimp only at h
  split at h
  · cases h
  · exact key _ none (fun p hp => by cases hp) _ h

/-- Preemption changes no thread's registers. -/
theorem preempt_keeps : ∀ (n : Nat) (d : Dev) (t : Nat), (d.thread t).live = true → Keeps d (Dev.preempt n d t) := by
  intro n
  induction n with
  | zero => intro d t _; exact Keeps.refl d
  | succ n ih =>
    intro d t hl
    unfold Dev.preempt
    split
    · rename_i c v hv
      have lv := victim_live hv
      have h1 := toHead_keeps d v lv
      have h2 := runOn_keeps (d.toHead v) t c (by rw [h1.2, hl])
      have h3 := ih ((d.toHead v).runOn t c) v (by rw [h2.2, h1.2, lv])
      exact (h1.trans h2).trans h3
    · exact Keeps.refl d

/-- A live thread becomes READY, and takes a core at once or not: no thread's registers change. -/
theorem makeReady_sameRegs (d : Dev) (t : Nat) (hl : (d.thread t).live = true) : Dev.SameRegs d (d.makeReady t) := by
  have h1 := toTail_keeps d t hl
  exact h1.1.trans (preempt_keeps 64 _ t (by rw [h1.2, hl])).1

/-- A spilled thread put back with its record written holds what it was put back with. -/
theorem spillRegs_withRegs (d : Dev) (t : Nat) (y : Thread) (hs : y.spilled = true) : RegsEq y (((d.putThread t y).spillRegs t).withRegs t) := by
  have hy : (d.putThread t y).thread t = y := Dev.thread_putThread d t y
  have hm : ((d.putThread t y).spillRegs t).memRead (((d.putThread t y).spillRegs t).regsAt t) 272 = y.image := by
    rw [Dev.memRead_eq]
    apply List.ext_getElem
    · rw [List.length_map, List.length_range, image_length]
    · intro i h1 h2
      rw [List.getElem_map, List.getElem_range]
      have hp : ((d.putThread t y).spillRegs t).mem = (d.putThread t y).memPut ((d.putThread t y).regsAt t) y.image := by
        unfold Dev.spillRegs
        rw [hy]
      exact (Dev.memByte_congr (e := (d.putThread t y).spillRegs t) (d := { d.putThread t y with mem := (d.putThread t y).memPut ((d.putThread t y).regsAt t) y.image }) hp rfl _).trans
        (Dev.memByte_memPut_inside (d.putThread t y) ((d.putThread t y).regsAt t) y.image i h2)
  have e : ((d.putThread t y).spillRegs t).withRegs t = y.fromImage y.image := by
    show (if (((d.putThread t y).spillRegs t).thread t).spilled = true then _ else _) = _
    rw [hm, spillRegs_thread, hy, if_pos hs]
  rw [e]
  exact fromImage_image y y

/-- What a change of a thread's registers leaves in them, wherever they stand. -/
theorem modRegs_withRegs (d : Dev) (t : Nat) (f : Thread → Thread) (hs : (f (d.withRegs t)).spilled = (d.thread t).spilled) :
    RegsEq (f (d.withRegs t)) ((d.modRegs t f).withRegs t) := by
  unfold Dev.modRegs
  generalize f (d.withRegs t) = y at hs ⊢
  by_cases h : (d.thread t).spilled = true
  · simp only [h, if_true]
    exact spillRegs_withRegs d t y (hs.trans h)
  · have h' : (d.thread t).spilled = false := by simpa using h
    simp only [h', Bool.false_eq_true, if_false]
    have e : (d.putThread t y).withRegs t = y := by
      show (if ((d.putThread t y).thread t).spilled = true then _ else _) = _
      rw [Dev.thread_putThread, hs, h', if_neg (by simp)]
    rw [e]
    exact RegsEq.rfl

end Sys2Proof.Machine
end

