-- ==== Sys2Proof/Laws/Sound.lean ====
section
/-! SUPPORT. How a proof that the device stays sound goes through a record update, a choice and a fold. -/

namespace Sys2Proof.Machine

/-- Only the fields that soundness names matter. -/
@[simp] theorem Dev.sound_mk (ctl : DevCtl) (tb : TimeBase) (flt : Flt) (hub : Hub) (rings : Tab Ring) (dsp : Dsp) (thr : Tab Thread)
    (loc : Tab Byte) (locErr : List Nat) (spillErr : List (Nat × Nat)) (win : Tab Window) (unitQ : Tab (List Desc)) (pend : List Pend) (fab : Fab)
    (cap : Tab Cap) (capSel : Nat) (scene : Tab Scene) (layer : Tab Layer) (cluster : Tab Cluster) (blit : Tab Blit) (chan : Tab Chan)
    (pipe : Tab Pipe) (dec : Tab Dec) (decPipe : Tab DecPipe) (decSel : Nat) (twin : Twin) (flow : Tab Flow) (pkgSel : Nat) (tmIn : List
    (Nat × Packet)) (queue : Tab Queue) (port : Tab TmPort) (pol : Tab Policer) (portSel : Nat) (qSel : Nat) (polSel : Nat) (group : Tab Group)
    (lane : Tab Lane) (casc : Casc) (mc : Tab Mc) (chk : Tab Chk) (chkMode : Nat) (chkSel : Nat) (trust : Trust) (prl : Prl) (mem : List Host.Cell)
    (memEra : Nat) (poison : List Nat) (out waiting : List OutEv) (absent : List (Nat × NetAddr)) (freeCtr : Nat) :
    (Dev.mk ctl tb flt hub rings dsp thr loc locErr spillErr win unitQ pend fab cap capSel scene layer cluster blit chan pipe dec decPipe decSel twin
    flow pkgSel tmIn queue port pol portSel qSel polSel group lane casc mc chk chkMode chkSel trust prl mem memEra poison out waiting absent freeCtr).Sound ↔ SoundF
    mem loc win ctl.power := Iff.rfl

@[simp] theorem SoundF_self (d : Dev) : SoundF d.mem d.loc d.win d.ctl.power ↔ d.Sound := Iff.rfl

@[simp] theorem sound_ite (p : Prop) [Decidable p] (a b : Dev) : (if p then a else b).Sound ↔ (p → a.Sound) ∧ (¬p → b.Sound) := by
  split <;> simp [*]

theorem foldl_sound {α : Type} {f : Dev → α → Dev} (hf : ∀ d a, d.Sound → (f d a).Sound) (l : List α) :
    ∀ d : Dev, d.Sound → (l.foldl f d).Sound := by
  induction l with
  | nil => exact fun _ h => h
  | cons a l ih => exact fun d h => ih _ (hf d a h)

@[simp] theorem foldl_keeps {α : Type} (f : Dev → α → Dev) (l : List α) (d : Dev) (h : d.Sound) (hf : ∀ e a, e.Sound → (f e a).Sound) :
    (l.foldl f d).Sound := foldl_sound hf l d h

@[simp] theorem foldr_keeps {α : Type} (f : α → Dev → Dev) (l : List α) (d : Dev) (h : d.Sound) (hf : ∀ a e, e.Sound → (f a e).Sound) :
    (l.foldr f d).Sound := by
  induction l with
  | nil => exact h
  | cons a l ih => exact hf a _ ih

/-- A byte memory in its canonical form. -/
def BytesOk (m : Tab Byte) : Prop := Tab.wf 0 m

@[simp] theorem Dev.mem_ok (d : Dev) (h : d.Sound) : BytesOk d.mem := h.1
@[simp] theorem Dev.loc_ok (d : Dev) (h : d.Sound) : BytesOk d.loc := h.2.1
@[simp] theorem BytesOk.nil : BytesOk [] := Tab.wf_nil 0

@[simp] theorem SoundF_mem (d : Dev) (m : Tab Byte) (h : d.Sound) : SoundF m d.loc d.win d.ctl.power ↔ BytesOk m :=
  ⟨fun g => g.1, fun g => ⟨g, h.2⟩⟩

@[simp] theorem SoundF_loc (d : Dev) (m : Tab Byte) (h : d.Sound) : SoundF d.mem m d.win d.ctl.power ↔ BytesOk m :=
  ⟨fun g => g.2.1, fun g => ⟨h.1, g, h.2.2⟩⟩

@[simp] theorem SoundF_power (d : Dev) (p : Nat) (h : d.Sound) : SoundF d.mem d.loc d.win p ↔ p ≤ 3 :=
  ⟨fun g => g.2.2.2, fun g => ⟨h.1, h.2.1, h.2.2.1, g⟩⟩

@[simp] theorem BytesOk.put (m : Tab Byte) (k : Nat) (v : Byte) (h : BytesOk m) : BytesOk (Tab.put 0 m k v) := Tab.wf_put h k v

@[simp] theorem BytesOk.write (m : Tab Byte) (a : Nat) (bs : List Byte) (h : BytesOk m) : BytesOk (writeBytes m a bs) := writeBytes_wf bs m a h

@[simp] theorem BytesOk.move (src dst : Tab Byte) (a b n : Nat) (h : BytesOk dst) : BytesOk (moveRange src dst a b n) :=
  Tab.wf_foldl_put _ _ _ _ (Tab.wf_filter h _)

@[simp] theorem BytesOk.memPut (d : Dev) (a : Nat) (bs : List Byte) (h : d.Sound) : BytesOk (d.memPut a bs) := writeBytes_wf _ _ _ h.1

@[simp] theorem BytesOk.ite (p : Prop) [Decidable p] (a b : Tab Byte) : BytesOk (if p then a else b) ↔ (p → BytesOk a) ∧ (¬p → BytesOk b) := by
  split <;> simp [*]

end Sys2Proof.Machine
end

