-- ==== Sys2Proof/Laws/SoundAccess.lean ====
section
/-! SUPPORT. The operations of Machine/Access.lean keep the device sound. -/

namespace Sys2Proof.Machine

@[simp] theorem Dev.putRing_sound (d : Dev) (k : Nat) (x : Ring) (hS : d.Sound) : (Dev.putRing d k x).Sound := by
  simp [Dev.putRing, hS]

@[simp] theorem Dev.modRing_sound (d : Dev) (k : Nat) (f : Ring → Ring) (hS : d.Sound) : (Dev.modRing d k f).Sound := by
  simp [Dev.modRing, hS]

@[simp] theorem Dev.putThread_sound (d : Dev) (k : Nat) (x : Thread) (hS : d.Sound) : (Dev.putThread d k x).Sound := by
  simp [Dev.putThread, hS]

@[simp] theorem Dev.modThread_sound (d : Dev) (k : Nat) (f : Thread → Thread) (hS : d.Sound) : (Dev.modThread d k f).Sound := by
  simp [Dev.modThread, hS]

theorem Dev.putWindow_sound (d : Dev) (k : Nat) (x : Window) (h : d.Sound) (hx : x.ok = true) : (d.putWindow k x).Sound := by
  refine ⟨h.1, h.2.1, fun p hp => ?_, h.2.2.2⟩
  simp only [Dev.putWindow, Tab.put] at hp
  split at hp
  · exact h.2.2.1 p (Tab.mem_erase hp)
  · rcases Tab.mem_insert hp with rfl | hp
    · exact hx
    · exact h.2.2.1 p (Tab.mem_erase hp)

@[simp] theorem Dev.putCapIn_sound (d : Dev) (k : Nat) (x : Cap) (hS : d.Sound) : (Dev.putCapIn d k x).Sound := by
  simp [Dev.putCapIn, hS]

@[simp] theorem Dev.modCapIn_sound (d : Dev) (k : Nat) (f : Cap → Cap) (hS : d.Sound) : (Dev.modCapIn d k f).Sound := by
  simp [Dev.modCapIn, hS]

@[simp] theorem Dev.putSceneAt_sound (d : Dev) (k : Nat) (x : Scene) (hS : d.Sound) : (Dev.putSceneAt d k x).Sound := by
  simp [Dev.putSceneAt, hS]

@[simp] theorem Dev.modSceneAt_sound (d : Dev) (k : Nat) (f : Scene → Scene) (hS : d.Sound) : (Dev.modSceneAt d k f).Sound := by
  simp [Dev.modSceneAt, hS]

@[simp] theorem Dev.putLayerAt_sound (d : Dev) (k : Nat) (x : Layer) (hS : d.Sound) : (Dev.putLayerAt d k x).Sound := by
  simp [Dev.putLayerAt, hS]

@[simp] theorem Dev.modLayerAt_sound (d : Dev) (k : Nat) (f : Layer → Layer) (hS : d.Sound) : (Dev.modLayerAt d k f).Sound := by
  simp [Dev.modLayerAt, hS]

@[simp] theorem Dev.putClusterAt_sound (d : Dev) (k : Nat) (x : Cluster) (hS : d.Sound) : (Dev.putClusterAt d k x).Sound := by
  simp [Dev.putClusterAt, hS]

@[simp] theorem Dev.modClusterAt_sound (d : Dev) (k : Nat) (f : Cluster → Cluster) (hS : d.Sound) : (Dev.modClusterAt d k f).Sound := by
  simp [Dev.modClusterAt, hS]

@[simp] theorem Dev.putEngine_sound (d : Dev) (k : Nat) (x : Blit) (hS : d.Sound) : (Dev.putEngine d k x).Sound := by
  simp [Dev.putEngine, hS]

@[simp] theorem Dev.modEngine_sound (d : Dev) (k : Nat) (f : Blit → Blit) (hS : d.Sound) : (Dev.modEngine d k f).Sound := by
  simp [Dev.modEngine, hS]

@[simp] theorem Dev.putChannel_sound (d : Dev) (k : Nat) (x : Chan) (hS : d.Sound) : (Dev.putChannel d k x).Sound := by
  simp [Dev.putChannel, hS]

@[simp] theorem Dev.modChannel_sound (d : Dev) (k : Nat) (f : Chan → Chan) (hS : d.Sound) : (Dev.modChannel d k f).Sound := by
  simp [Dev.modChannel, hS]

@[simp] theorem Dev.putPipeAt_sound (d : Dev) (k : Nat) (x : Pipe) (hS : d.Sound) : (Dev.putPipeAt d k x).Sound := by
  simp [Dev.putPipeAt, hS]

@[simp] theorem Dev.modPipeAt_sound (d : Dev) (k : Nat) (f : Pipe → Pipe) (hS : d.Sound) : (Dev.modPipeAt d k f).Sound := by
  simp [Dev.modPipeAt, hS]

@[simp] theorem Dev.putStream_sound (d : Dev) (k : Nat) (x : Dec) (hS : d.Sound) : (Dev.putStream d k x).Sound := by
  simp [Dev.putStream, hS]

@[simp] theorem Dev.modStream_sound (d : Dev) (k : Nat) (f : Dec → Dec) (hS : d.Sound) : (Dev.modStream d k f).Sound := by
  simp [Dev.modStream, hS]

@[simp] theorem Dev.putDecPipeAt_sound (d : Dev) (k : Nat) (x : DecPipe) (hS : d.Sound) : (Dev.putDecPipeAt d k x).Sound := by
  simp [Dev.putDecPipeAt, hS]

@[simp] theorem Dev.modDecPipeAt_sound (d : Dev) (k : Nat) (f : DecPipe → DecPipe) (hS : d.Sound) : (Dev.modDecPipeAt d k f).Sound := by
  simp [Dev.modDecPipeAt, hS]

@[simp] theorem Dev.putFlowAt_sound (d : Dev) (k : Nat) (x : Flow) (hS : d.Sound) : (Dev.putFlowAt d k x).Sound := by
  simp [Dev.putFlowAt, hS]

@[simp] theorem Dev.modFlowAt_sound (d : Dev) (k : Nat) (f : Flow → Flow) (hS : d.Sound) : (Dev.modFlowAt d k f).Sound := by
  simp [Dev.modFlowAt, hS]

@[simp] theorem Dev.putQueueAt_sound (d : Dev) (k : Nat) (x : Queue) (hS : d.Sound) : (Dev.putQueueAt d k x).Sound := by
  simp [Dev.putQueueAt, hS]

@[simp] theorem Dev.modQueueAt_sound (d : Dev) (k : Nat) (f : Queue → Queue) (hS : d.Sound) : (Dev.modQueueAt d k f).Sound := by
  simp [Dev.modQueueAt, hS]

@[simp] theorem Dev.putPortAt_sound (d : Dev) (k : Nat) (x : TmPort) (hS : d.Sound) : (Dev.putPortAt d k x).Sound := by
  simp [Dev.putPortAt, hS]

@[simp] theorem Dev.modPortAt_sound (d : Dev) (k : Nat) (f : TmPort → TmPort) (hS : d.Sound) : (Dev.modPortAt d k f).Sound := by
  simp [Dev.modPortAt, hS]

@[simp] theorem Dev.putPolicer_sound (d : Dev) (k : Nat) (x : Policer) (hS : d.Sound) : (Dev.putPolicer d k x).Sound := by
  simp [Dev.putPolicer, hS]

@[simp] theorem Dev.modPolicer_sound (d : Dev) (k : Nat) (f : Policer → Policer) (hS : d.Sound) : (Dev.modPolicer d k f).Sound := by
  simp [Dev.modPolicer, hS]

@[simp] theorem Dev.putGroupAt_sound (d : Dev) (k : Nat) (x : Group) (hS : d.Sound) : (Dev.putGroupAt d k x).Sound := by
  simp [Dev.putGroupAt, hS]

@[simp] theorem Dev.modGroupAt_sound (d : Dev) (k : Nat) (f : Group → Group) (hS : d.Sound) : (Dev.modGroupAt d k f).Sound := by
  simp [Dev.modGroupAt, hS]

@[simp] theorem Dev.putLaneAt_sound (d : Dev) (k : Nat) (x : Lane) (hS : d.Sound) : (Dev.putLaneAt d k x).Sound := by
  simp [Dev.putLaneAt, hS]

@[simp] theorem Dev.modLaneAt_sound (d : Dev) (k : Nat) (f : Lane → Lane) (hS : d.Sound) : (Dev.modLaneAt d k f).Sound := by
  simp [Dev.modLaneAt, hS]

@[simp] theorem Dev.putMcAt_sound (d : Dev) (k : Nat) (x : Mc) (hS : d.Sound) : (Dev.putMcAt d k x).Sound := by
  simp [Dev.putMcAt, hS]

@[simp] theorem Dev.modMcAt_sound (d : Dev) (k : Nat) (f : Mc → Mc) (hS : d.Sound) : (Dev.modMcAt d k f).Sound := by
  simp [Dev.modMcAt, hS]

@[simp] theorem Dev.putCheck_sound (d : Dev) (k : Nat) (x : Chk) (hS : d.Sound) : (Dev.putCheck d k x).Sound := by
  simp [Dev.putCheck, hS]

@[simp] theorem Dev.modCheck_sound (d : Dev) (k : Nat) (f : Chk → Chk) (hS : d.Sound) : (Dev.modCheck d k f).Sound := by
  simp [Dev.modCheck, hS]

@[simp] theorem Dev.putUnitQueue_sound (d : Dev) (k : Nat) (x : List Desc) (hS : d.Sound) : (Dev.putUnitQueue d k x).Sound := by
  simp [Dev.putUnitQueue, hS]

@[simp] theorem Dev.modUnitQueue_sound (d : Dev) (k : Nat) (f : List Desc → List Desc) (hS : d.Sound) : (Dev.modUnitQueue d k f).Sound := by
  simp [Dev.modUnitQueue, hS]

end Sys2Proof.Machine
end

