-- ==== Sys2Proof/Laws/SoundOps.lean ====
section
/-! SUPPORT. The operations of Machine/Ops.lean keep the device sound. -/

namespace Sys2Proof.Machine

@[simp] theorem Dev.emit_sound (d : Dev) (e : OutEv) (hS : d.Sound) : (Dev.emit d e).Sound := by
  simp [Dev.emit, hS]

@[simp] theorem Dev.dropFrame_sound (d : Dev) (a : NetAddr) (hS : d.Sound) : (Dev.dropFrame d a).Sound := by
  simp [Dev.dropFrame, hS]

@[simp] theorem Dev.unlessDropped_sound (d : Dev) (sel : NetAddr → Bool) (f : Dev → Dev) (h : d.Sound) (hf : ∀ e, e.Sound → (f e).Sound) :
    (d.unlessDropped sel f).Sound := by
  unfold Dev.unlessDropped
  split
  · simp [h]
  · exact hf d h

@[simp] theorem Dev.serveLink_sound (d : Dev) (link : Nat) (hS : d.Sound) : (Dev.serveLink d link).Sound := by
  unfold Dev.serveLink; split <;> simp +contextual (maxDischargeDepth := 30) [hS]

@[simp] theorem Dev.serveTwin_sound (d : Dev) (hS : d.Sound) : (Dev.serveTwin d).Sound := by
  simp [Dev.serveTwin, hS]

@[simp] theorem Dev.raiseVector_sound (d : Dev) (fn : Nat) (vec : Nat) (hS : d.Sound) : (Dev.raiseVector d fn vec).Sound := by
  simp [Dev.raiseVector, hS]

@[simp] theorem Dev.memWrite_sound (d : Dev) (a : Nat) (bs : List Byte) (hS : d.Sound) : (Dev.memWrite d a bs).Sound := by
  simp [Dev.memWrite, hS]

@[simp] theorem Dev.freePkts_sound (d : Dev) (ps : List Packet) (hS : d.Sound) : (Dev.freePkts d ps).Sound := by
  simp +contextual (maxDischargeDepth := 30) [Dev.freePkts, hS]

@[simp] theorem Dev.discardQueues_sound (d : Dev) (sel : Queue → Bool) (hS : d.Sound) : (Dev.discardQueues d sel).Sound := by
  simp [Dev.discardQueues, hS]

@[simp] theorem Dev.cascPut_sound (d : Dev) (ringB : Bool) (fr : CascFrame) (hS : d.Sound) : (Dev.cascPut d ringB fr).Sound := by
  simp [Dev.cascPut, hS]

@[simp] theorem Dev.broadcast_sound (d : Dev) (hS : d.Sound) : (Dev.broadcast d).Sound := by
  simp [Dev.broadcast, hS]

@[simp] theorem Dev.sendHello_sound (d : Dev) (hS : d.Sound) : (Dev.sendHello d).Sound := by
  simp [Dev.sendHello, hS]

@[simp] theorem Dev.updateBypass_sound (d : Dev) (hS : d.Sound) : (Dev.updateBypass d).Sound := by
  simp [Dev.updateBypass, hS]

@[simp] theorem Dev.haltActions_sound (d : Dev) (hS : d.Sound) : (Dev.haltActions d).Sound := by
  simp (maxDischargeDepth := 30) [Dev.haltActions, hS]

@[simp] theorem Dev.latch_sound (d : Dev) (srcs : BitVec 64) (hS : d.Sound) : (Dev.latch d srcs).Sound := by
  simp (maxDischargeDepth := 30) [Dev.latch, hS]

@[simp] theorem Dev.raise_sound (d : Dev) (i : Nat) (hS : d.Sound) : (Dev.raise d i).Sound := by
  simp [Dev.raise, hS]

@[simp] theorem Dev.setLine_sound (d : Dev) (i : Nat) (b : Bool) (hS : d.Sound) : (Dev.setLine d i b).Sound := by
  simp [Dev.setLine, hS]

@[simp] theorem Dev.spillRegs_sound (d : Dev) (t : Nat) (hS : d.Sound) : (Dev.spillRegs d t).Sound := by
  simp [Dev.spillRegs, hS]

@[simp] theorem Dev.modRegs_sound (d : Dev) (t : Nat) (f : Thread → Thread) (hS : d.Sound) : (Dev.modRegs d t f).Sound := by
  simp [Dev.modRegs, hS]

@[simp] theorem Dev.spill_sound (d0 : Dev) (t : Nat) (hS : d0.Sound) : (Dev.spill d0 t).Sound := by
  simp (maxDischargeDepth := 30) [Dev.spill, hS]

@[simp] theorem Dev.restore_sound (d : Dev) (t : Nat) (c : Nat) (k : Nat) (hS : d.Sound) : (Dev.restore d t c k).Sound := by
  simp (maxDischargeDepth := 30) [Dev.restore, hS]

@[simp] theorem Dev.makeRoom_sound (d : Dev) (c : Nat) (hS : d.Sound) : (Dev.makeRoom d c).Sound := by
  unfold Dev.makeRoom; (repeat' split) <;> simp +contextual (maxDischargeDepth := 30) [hS]

@[simp] theorem Dev.takeSlot_sound (d : Dev) (t : Nat) (c : Nat) (hS : d.Sound) : (Dev.takeSlot d t c).Sound := by
  unfold Dev.takeSlot; split <;> simp +contextual (maxDischargeDepth := 30) [hS]

@[simp] theorem Dev.makeResident_sound (d : Dev) (t : Nat) (c : Nat) (hS : d.Sound) : (Dev.makeResident d t c).Sound := by
  unfold Dev.makeResident; dsimp only; (repeat' split) <;> simp +contextual (maxDischargeDepth := 30) [hS]

@[simp] theorem Dev.runOn_sound (d : Dev) (t : Nat) (c : Nat) (hS : d.Sound) : (Dev.runOn d t c).Sound := by
  simp [Dev.runOn, hS]

@[simp] theorem Dev.toTail_sound (d : Dev) (t : Nat) (hS : d.Sound) : (Dev.toTail d t).Sound := by
  simp [Dev.toTail, hS]

@[simp] theorem Dev.toHead_sound (d : Dev) (t : Nat) (hS : d.Sound) : (Dev.toHead d t).Sound := by
  simp [Dev.toHead, hS]

@[simp] theorem Dev.preempt_sound (n : Nat) : ∀ (d : Dev) (t : Nat), d.Sound → (Dev.preempt n d t).Sound := by
  induction n with
  | zero => exact fun _ _ h => h
  | succ n ih =>
    intro d t h
    unfold Dev.preempt
    split
    · exact ih _ _ (Dev.runOn_sound _ _ _ (Dev.toHead_sound _ _ h))
    · exact h

@[simp] theorem Dev.makeReady_sound (d : Dev) (t : Nat) (hS : d.Sound) : (Dev.makeReady d t).Sound := by
  simp [Dev.makeReady, hS]

@[simp] theorem Dev.wake_sound (d : Dev) (t : Nat) (hS : d.Sound) : (Dev.wake d t).Sound := by
  simp [Dev.wake, hS]

@[simp] theorem Dev.mergePost_sound (d : Dev) (t : Nat) (mask : Word) (hS : d.Sound) : (Dev.mergePost d t mask).Sound := by
  simp [Dev.mergePost, hS]

@[simp] theorem Dev.putPostQueue_sound (d : Dev) (c : Nat) (q : List (Nat × Word)) (hS : d.Sound) : (Dev.putPostQueue d c q).Sound := by
  simp [Dev.putPostQueue, hS]

@[simp] theorem Dev.holdPost_sound (d : Dev) (p : Poster) (t : Nat) (mask : Word) (hS : d.Sound) : (Dev.holdPost d p t mask).Sound := by
  simp [Dev.holdPost, hS]

@[simp] theorem Dev.enqueuePost_sound (d : Dev) (t : Nat) (mask : Word) (hS : d.Sound) : (Dev.enqueuePost d t mask).Sound := by
  simp [Dev.enqueuePost, hS]

@[simp] theorem Dev.unitPost_sound (d : Dev) (unit : Nat) (t : Nat) (mask : Word) (hS : d.Sound) : (Dev.unitPost d unit t mask).Sound := by
  simp [Dev.unitPost, hS]

@[simp] theorem Dev.postBy_sound (d : Dev) (unit : Nat) (t : Nat) (mask : Word) (hS : d.Sound) : (Dev.postBy d unit t mask).Sound := by
  simp [Dev.postBy, hS]

@[simp] theorem Dev.writeComp_sound (d : Dev) (fn : Nat) (c : Comp) (hS : d.Sound) : (Dev.writeComp d fn c).Sound := by
  simp (maxDischargeDepth := 30) [Dev.writeComp, hS]

@[simp] theorem Dev.unname_sound (d : Dev) (x : Desc) (hS : d.Sound) : (Dev.unname d x).Sound := by
  simp [Dev.unname, hS]

@[simp] theorem Dev.nameNotify_sound (d : Dev) (x : Desc) (hS : d.Sound) : (Dev.nameNotify d x).Sound := by
  simp [Dev.nameNotify, hS]

@[simp] theorem Dev.dropIssue_sound (d : Dev) (t : Nat) (hS : d.Sound) : (Dev.dropIssue d t).Sound := by
  unfold Dev.dropIssue; split <;> simp +contextual (maxDischargeDepth := 30) [hS]

@[simp] theorem Dev.freeThread_sound (d : Dev) (t : Nat) (hS : d.Sound) : (Dev.freeThread d t).Sound := by
  simp [Dev.freeThread, hS]

@[simp] theorem Dev.releaseRetired_sound (d : Dev) (o : Option Nat) (h : d.Sound) : (d.releaseRetired o).Sound := by
  cases o <;> simp [Dev.releaseRetired, h]

@[simp] theorem Dev.pump_sound (fn n : Nat) : ∀ d : Dev, d.Sound → (Dev.pump fn n d).Sound := by
  induction n with
  | zero => exact fun _ h => h
  | succ n ih =>
    intro d h
    unfold Dev.pump
    dsimp only
    (repeat' split) <;> first | exact h | exact ih _ (by simp (maxDischargeDepth := 30) [h])

@[simp] theorem Dev.pumpAll_sound (d : Dev) (fn : Nat) (hS : d.Sound) : (Dev.pumpAll d fn).Sound := by
  simp [Dev.pumpAll, hS]

@[simp] theorem Dev.retire_sound (d : Dev) (fn : Nat) (c : Comp) (t : Option Nat) (hS : d.Sound) : (Dev.retire d fn c t).Sound := by
  simp [Dev.retire, hS]

@[simp] theorem Dev.endThread_sound (d0 : Dev) (t : Nat) (status : Nat) (value : Nat) (hS : d0.Sound) : (Dev.endThread d0 t status value).Sound := by
  unfold Dev.endThread; dsimp only; (repeat' split) <;> simp +contextual (maxDischargeDepth := 30) [hS]

@[simp] theorem Dev.settle_sound (d : Dev) (x : Desc) (hS : d.Sound) : (Dev.settle d x).Sound := by
  simp [Dev.settle, hS]

@[simp] theorem Dev.complete_sound (d : Dev) (x : Desc) (status : Nat) (mt : Nat) (hS : d.Sound) : (Dev.complete d x status mt).Sound := by
  simp [Dev.complete, hS]

@[simp] theorem Dev.extend_sound (d : Dev) (s : Nat) (v : List Byte) (hS : d.Sound) : (Dev.extend d s v).Sound := by
  simp [Dev.extend, hS]

@[simp] theorem Dev.sendPairing_sound (d : Dev) (hS : d.Sound) : (Dev.sendPairing d).Sound := by
  simp [Dev.sendPairing, hS]

@[simp] theorem Dev.offerPairing_sound (d : Dev) (hS : d.Sound) : (Dev.offerPairing d).Sound := by
  simp [Dev.offerPairing, hS]

@[simp] theorem Dev.nextFree_sound (d : Dev) (hS : d.Sound) : (Dev.nextFree d).Sound := by
  simp [Dev.nextFree, hS]

end Sys2Proof.Machine
end

