-- ==== Sys2Proof/Laws/SoundDescr.lean ====
section
/-! SUPPORT. The operations of Machine/Descr.lean keep the device sound. -/

namespace Sys2Proof.Machine

@[simp] theorem Dev.skipUnknown_sound (u n : Nat) : ∀ d : Dev, d.Sound → (Dev.skipUnknown u n d).Sound := by
  induction n with
  | zero => exact fun _ h => h
  | succ n ih =>
    intro d h
    unfold Dev.skipUnknown
    (repeat' split) <;> first | exact h | exact ih _ (by simp [h])

@[simp] theorem Dev.unitHead_sound (d : Dev) (u : Nat) (hS : d.Sound) : (Dev.unitHead d u).Sound := by
  simp [Dev.unitHead, hS]

theorem Dev.takeHead_sound {d d1 : Dev} {u op : Nat} {x : Desc} (h : d.Sound) (e : d.takeHead u op = some (x, d1)) : d1.Sound := by
  unfold Dev.takeHead at e
  split at e
  · split at e
    · cases e; simp [h]
    · cases e
  · cases e

@[simp] theorem Dev.runUnit_sound (d : Dev) (u op : Nat) (sp : Dev → Desc → OpSpec) (run : Dev → Desc → Dev) (h : d.Sound)
    (hr : ∀ e x, e.Sound → (run e x).Sound) : (d.runUnit u op sp run).Sound := by
  have h0 : (d.unitHead u).Sound := by simp [h]
  unfold Dev.runUnit
  dsimp only
  split
  · exact h0
  · next x d1 e =>
    have h1 := Dev.takeHead_sound h0 e
    split <;> simp [h1, hr]

@[simp] theorem Dev.checked_sound (d : Dev) (x : Desc) (cs : List (Bool × Nat)) (k : Dev) (hSd : d.Sound) (hSk : k.Sound) : (Dev.checked d x cs k).Sound := by
  unfold Dev.checked; split <;> simp +contextual (maxDischargeDepth := 30) [hSd, hSk]

@[simp] theorem Dev.holdPend_sound (d : Dev) (x : Desc) (obj : Nat) (passed : Nat → Bool) (ahead : Nat → Nat) (twinned : Bool) (hS : d.Sound) : (Dev.holdPend d x obj passed ahead twinned).Sound := by
  unfold Dev.holdPend; (repeat' split) <;> simp +contextual (maxDischargeDepth := 30) [hS]

@[simp] theorem Dev.dropDue_sound (d : Dev) (unit : Nat) (op : Nat) (obj : Nat) (m : Nat) (hS : d.Sound) : (Dev.dropDue d unit op obj m).Sound := by
  simp [Dev.dropDue, hS]

@[simp] theorem Dev.applyDue_sound (d : Dev) (unit op obj m : Nat) (f : Dev → Pend → Dev) (h : d.Sound)
    (hf : ∀ e p, e.Sound → (f e p).Sound) : (d.applyDue unit op obj m f).Sound :=
  foldl_sound (fun e p g => by simp [hf e p g]) _ _ (by simp [h])

@[simp] theorem Dev.abortPend_sound (d : Dev) (sel : Pend → Bool) (hS : d.Sound) : (Dev.abortPend d sel).Sound := by
  simp +contextual (maxDischargeDepth := 30) [Dev.abortPend, hS]

@[simp] theorem Dev.cutTaps_sound (d : Dev) (kind : Nat) (tap : Nat) (hS : d.Sound) : (Dev.cutTaps d kind tap).Sound := by
  simp [Dev.cutTaps, hS]

@[simp] theorem Dev.tapUnit_sound (d : Dev) (kind : Nat) (tap : Nat) (mt : Option Nat) (bytes : List Byte) (withheld : Bool) (hS : d.Sound) : (Dev.tapUnit d kind tap mt bytes withheld).Sound := by
  simp [Dev.tapUnit, hS]

@[simp] theorem Dev.routeIssue_sound (d : Dev) (x : Desc) (hS : d.Sound) : (Dev.routeIssue d x).Sound := by
  simp [Dev.routeIssue, hS]

@[simp] theorem Dev.acceptIssue_sound (d : Dev) (x : Desc) (hS : d.Sound) : (Dev.acceptIssue d x).Sound := by
  simp [Dev.acceptIssue, hS]

end Sys2Proof.Machine
end

