-- ==== Sys2Proof/Laws/SoundCfg.lean ====
section
/-! SUPPORT. The operations of Machine/Cfg.lean keep the device sound. -/

namespace Sys2Proof.Machine

@[simp] theorem Dev.putStoreRow_sound (d : Dev) (base : Nat) (g : Geom) (plane : Nat) (y : Nat) (x : Nat) (vs : List Nat) (hS : d.Sound) : (Dev.putStoreRow d base g plane y x vs).Sound := by
  simp [Dev.putStoreRow, hS]

@[simp] theorem Dev.idleLanes_sound (d : Dev) (ls : List Nat) (hS : d.Sound) : (Dev.idleLanes d ls).Sound := by
  simp +contextual (maxDischargeDepth := 30) [Dev.idleLanes, hS]

@[simp] theorem Dev.bindGroup_sound (d : Dev) (first : Nat) (width : Nat) (proto : Nat) (cfg : List Byte) (hS : d.Sound) : (Dev.bindGroup d first width proto cfg).Sound := by
  simp +contextual (maxDischargeDepth := 30) [Dev.bindGroup, hS]

@[simp] theorem Dev.unbindGroup_sound (d : Dev) (first : Nat) (hS : d.Sound) : (Dev.unbindGroup d first).Sound := by
  simp +contextual (maxDischargeDepth := 30) [Dev.unbindGroup, hS]

@[simp] theorem Dev.spliceTo_sound (d : Dev) (stamp : Nat) (kind : Nat) (event : Nat) (mt : Nat) (n : Nat) (hS : d.Sound) : (Dev.spliceTo d stamp kind event mt n).Sound := by
  simp [Dev.spliceTo, hS]

end Sys2Proof.Machine
end

