-- ==== Sys2Proof/Laws/SoundCapture.lean ====
section
/-! SUPPORT. The operations of Machine/Capture.lean keep the device sound. -/

namespace Sys2Proof.Machine

@[simp] theorem Dev.placeSeg_sound (d : Dev) (i : Nat) (s : Nat) (g : LineSeg) (hS : d.Sound) : (Dev.placeSeg d i s g).Sound := by
  simp (maxDischargeDepth := 30) [Dev.placeSeg, hS]

@[simp] theorem Dev.markBad_sound (d : Dev) (i : Nat) (s : Nat) (hS : d.Sound) : (Dev.markBad d i s).Sound := by
  simp [Dev.markBad, hS]

@[simp] theorem Dev.placeVideo_sound (d : Dev) (i : Nat) (p : VideoPkt) (hS : d.Sound) : (Dev.placeVideo d i p).Sound := by
  unfold Dev.placeVideo; dsimp only; (repeat' split) <;> simp +contextual (maxDischargeDepth := 30) [hS]

@[simp] theorem Dev.sendMap_sound (d : Dev) (i : Nat) (item : Nat) (kind : List Byte) (hS : d.Sound) : (Dev.sendMap d i item kind).Sound := by
  simp [Dev.sendMap, hS]

theorem Dev.mergeCopy_sound (d : Dev) (i : Nat) (b : Bool) (n : Nat) (h : d.Sound) : (d.mergeCopy i b n).2.Sound := by
  unfold Dev.mergeCopy
  dsimp only
  split <;> simp [h]

@[simp] theorem Dev.videoRx_sound (d : Dev) (i : Nat) (pathB : Bool) (p : VideoPkt) (h : d.Sound) : (Dev.videoRx d i pathB p).Sound := by
  have hm := Dev.mergeCopy_sound d i pathB p.seq h
  unfold Dev.videoRx
  simp [h, hm]

@[simp] theorem Dev.sdiRx_sound (d : Dev) (i : Nat) (l : SdiLine) (hS : d.Sound) : (Dev.sdiRx d i l).Sound := by
  unfold Dev.sdiRx; dsimp only; (repeat' split) <;> simp +contextual (maxDischargeDepth := 30) [hS]

@[simp] theorem Dev.pathTimeout_sound (d : Dev) (i : Nat) (pathB : Bool) (hS : d.Sound) : (Dev.pathTimeout d i pathB).Sound := by
  simp [Dev.pathTimeout, hS]

@[simp] theorem Dev.decGo_sound (d : Dev) (k : Nat) (op : Nat) (hS : d.Sound) : (Dev.decGo d k op).Sound := by
  simp [Dev.decGo, hS]

@[simp] theorem Dev.capPoint_sound (d : Dev) (i : Nat) (h : d.Sound) : (d.capPoint i).Sound := by
  unfold Dev.capPoint
  refine foldl_sound (fun e p g => ?_) _ _ ?_
  · refine Dev.complete_sound _ _ _ _ ?_
    (repeat' split) <;> simp [g]
  · simp [h]

@[simp] theorem Dev.fixRows_sound (d : Dev) (i : Nat) (y : Nat) (hS : d.Sound) : (Dev.fixRows d i y).Sound := by
  simp [Dev.fixRows, hS]

@[simp] theorem Dev.fixAll_sound (d : Dev) (i : Nat) (hS : d.Sound) : (Dev.fixAll d i).Sound := by
  simp +contextual (maxDischargeDepth := 30) [Dev.fixAll, hS]

@[simp] theorem Dev.sendVerdict_sound (d : Dev) (i : Nat) (y : Nat) (present : Bool) (stamp : Nat) (hS : d.Sound) : (Dev.sendVerdict d i y present stamp).Sound := by
  simp [Dev.sendVerdict, hS]

@[simp] theorem Dev.openTick_sound (d : Dev) (i : Nat) (hS : d.Sound) : (Dev.openTick d i).Sound := by
  unfold Dev.openTick; dsimp only; (repeat' split) <;> simp +contextual (maxDischargeDepth := 30) [hS]

@[simp] theorem Dev.judgeLine_sound (d : Dev) (i : Nat) (hS : d.Sound) : (Dev.judgeLine d i).Sound := by
  simp (maxDischargeDepth := 30) [Dev.judgeLine, hS]

@[simp] theorem Dev.lineDue_sound (d : Dev) (i : Nat) (hS : d.Sound) : (Dev.lineDue d i).Sound := by
  simp [Dev.lineDue, hS]

@[simp] theorem Dev.shareDigest_sound (d : Dev) (i : Nat) (mt : Nat) (dig : BitVec 64) (hS : d.Sound) : (Dev.shareDigest d i mt dig).Sound := by
  unfold Dev.shareDigest; dsimp only; (repeat' split) <;> simp +contextual (maxDischargeDepth := 30) [hS]

@[simp] theorem Dev.capTick_sound (d : Dev) (i : Nat) (hS : d.Sound) : (Dev.capTick d i).Sound := by
  simp (maxDischargeDepth := 30) [Dev.capTick, hS]

@[simp] theorem Dev.spliceOp_sound (d : Dev) (i : Nat) (stamp : Nat) (o : SpliceOp) (hS : d.Sound) : (Dev.spliceOp d i stamp o).Sound := by
  simp +contextual (maxDischargeDepth := 30) [Dev.spliceOp, hS]

@[simp] theorem Dev.readAncAt_sound (d : Dev) (i : Nat) (stamp : Nat) (p : AncPkt) (hS : d.Sound) : (Dev.readAncAt d i stamp p).Sound := by
  simp +contextual (maxDischargeDepth := 30) [Dev.readAncAt, hS]

@[simp] theorem Dev.readAnc_sound (d : Dev) (i : Nat) (p : AncPkt) (hS : d.Sound) : (Dev.readAnc d i p).Sound := by
  simp +contextual (maxDischargeDepth := 30) [Dev.readAnc, hS]

@[simp] theorem Dev.readSdi_sound (d : Dev) (i : Nat) (s : Nat) (stamp : Nat) (hS : d.Sound) : (Dev.readSdi d i s stamp).Sound := by
  simp +contextual (maxDischargeDepth := 30) [Dev.readSdi, hS]

@[simp] theorem Dev.ancRx_sound (d : Dev) (i : Nat) (p : AncPkt) (hS : d.Sound) : (Dev.ancRx d i p).Sound := by
  unfold Dev.ancRx; dsimp only; (repeat' split) <;> simp +contextual (maxDischargeDepth := 30) [hS]

@[simp] theorem Dev.audioRx_sound (d : Dev) (p : AudioPkt) (hS : d.Sound) : (Dev.audioRx d p).Sound := by
  simp +contextual (maxDischargeDepth := 30) [Dev.audioRx, hS]

@[simp] theorem Dev.capConfigure_sound (d : Dev) (x : Desc) (hS : d.Sound) : (Dev.capConfigure d x).Sound := by
  simp +contextual (maxDischargeDepth := 30) [Dev.capConfigure, hS]

@[simp] theorem Dev.capHold_sound (d : Dev) (x : Desc) (hS : d.Sound) : (Dev.capHold d x).Sound := by
  simp [Dev.capHold, hS]

@[simp] theorem Dev.writeCap_sound (d : Dev) (who : Requester) (off : Nat) (v : Word) (hS : d.Sound) : (Dev.writeCap d who off v).Sound := by
  simp [Dev.writeCap, hS]

end Sys2Proof.Machine
end

