-- ==== Sys2Proof/Laws/SoundBlit.lean ====
section
/-! SUPPORT. The operations of Machine/Blit.lean keep the device sound. -/

namespace Sys2Proof.Machine

@[simp] theorem Dev.blitAccept_sound (d : Dev) (x : Desc) (hS : d.Sound) : (Dev.blitAccept d x).Sound := by
  simp [Dev.blitAccept, hS]

@[simp] theorem Dev.blitFail_sound (d : Dev) (e : Nat) (x : Desc) (status : Nat) (hS : d.Sound) : (Dev.blitFail d e x status).Sound := by
  simp (maxDischargeDepth := 30) [Dev.blitFail, hS]

@[simp] theorem Dev.watermark_sound (d : Dev) (x : Desc) (rows : Nat) (hS : d.Sound) : (Dev.watermark d x rows).Sound := by
  simp [Dev.watermark, hS]

@[simp] theorem Dev.blitChunk_sound (d : Dev) (e : Nat) (hS : d.Sound) : (Dev.blitChunk d e).Sound := by
  unfold Dev.blitChunk; dsimp only; (repeat' split) <;> simp +contextual (maxDischargeDepth := 30) [hS]

@[simp] theorem Dev.gapExpiry_sound (d : Dev) (e : Nat) (hS : d.Sound) : (Dev.gapExpiry d e).Sound := by
  unfold Dev.gapExpiry; dsimp only; (repeat' split) <;> simp +contextual (maxDischargeDepth := 30) [hS]

@[simp] theorem Dev.blitAbort_sound (d : Dev) (es : List Nat) (hS : d.Sound) : (Dev.blitAbort d es).Sound := by
  simp +contextual (maxDischargeDepth := 30) [Dev.blitAbort, hS]

@[simp] theorem Dev.blitAbortAll_sound (d : Dev) (hS : d.Sound) : (Dev.blitAbortAll d).Sound := by
  simp +contextual (maxDischargeDepth := 30) [Dev.blitAbortAll, hS]

end Sys2Proof.Machine
end

