-- ==== Sys2Proof/Laws/SoundMessages.lean ====
section
/-! SUPPORT. The operations of Machine/Messages.lean keep the device sound. -/

namespace Sys2Proof.Machine

@[simp] theorem Dev.sendMsg_sound (d : Dev) (m : CascMsg) (hS : d.Sound) : (Dev.sendMsg d m).Sound := by
  simp [Dev.sendMsg, hS]

@[simp] theorem Dev.sendControl_sound (d : Dev) (x : Desc) (cls : Nat) (dest : Nat) (role : CascRole) (bytes : List Byte) (hS : d.Sound) : (Dev.sendControl d x cls dest role bytes).Sound := by
  simp [Dev.sendControl, hS]

@[simp] theorem Dev.retryMsg_sound (d : Dev) (m : CascMsg) (hS : d.Sound) : (Dev.retryMsg d m).Sound := by
  simp [Dev.retryMsg, hS]

@[simp] theorem Dev.ackTimeouts_sound (d : Dev) (hS : d.Sound) : (Dev.ackTimeouts d).Sound := by
  simp +contextual (maxDischargeDepth := 30) [Dev.ackTimeouts, hS]

@[simp] theorem Dev.ackRx_sound (d : Dev) (src : Nat) (cls : Nat) (seq : Nat) (hS : d.Sound) : (Dev.ackRx d src cls seq).Sound := by
  simp +contextual (maxDischargeDepth := 30) [Dev.ackRx, hS]

@[simp] theorem Dev.rxRecord_sound (d : Dev) (fr : CascFrame) (hS : d.Sound) : (Dev.rxRecord d fr).Sound := by
  simp [Dev.rxRecord, hS]

end Sys2Proof.Machine
end

