-- ==== Sys2Proof/Laws/SoundGates.lean ====
section
/-! SUPPORT. The operations of Machine/Gates.lean keep the device sound. -/

namespace Sys2Proof.Machine

@[simp] theorem Dev.recomputeGates_sound (d : Dev) (hS : d.Sound) : (Dev.recomputeGates d).Sound := by
  simp [Dev.recomputeGates, hS]

end Sys2Proof.Machine
end

