-- ==== Sys2Proof/Laws/SoundTimeBase.lean ====
section
/-! SUPPORT. The operations of Machine/TimeBase.lean keep the device sound. -/

namespace Sys2Proof.Machine

@[simp] theorem Dev.tick_sound (d : Dev) (hS : d.Sound) : (Dev.tick d).Sound := by
  simp (maxDischargeDepth := 30) [Dev.tick, hS]

@[simp] theorem Dev.enterServo_sound (d : Dev) (st : Nat) (hS : d.Sound) : (Dev.enterServo d st).Sound := by
  simp [Dev.enterServo, hS]

@[simp] theorem Dev.stepCounter_sound (d : Dev) (delta : ℤ) (hS : d.Sound) : (Dev.stepCounter d delta).Sound := by
  simp [Dev.stepCounter, hS]

@[simp] theorem Dev.servoSample_sound (d : Dev) (e : ℤ) (hS : d.Sound) : (Dev.servoSample d e).Sound := by
  simp [Dev.servoSample, hS]

@[simp] theorem Dev.commitSample_sound (d : Dev) (e : ℤ) (hS : d.Sound) : (Dev.commitSample d e).Sound := by
  simp [Dev.commitSample, hS]

@[simp] theorem Dev.tbOffsetHi_sound (d : Dev) (v : Word) (hS : d.Sound) : (Dev.tbOffsetHi d v).Sound := by
  simp [Dev.tbOffsetHi, hS]

@[simp] theorem Dev.tbCoarseSet_sound (d : Dev) (v : Word) (hS : d.Sound) : (Dev.tbCoarseSet d v).Sound := by
  simp [Dev.tbCoarseSet, hS]

@[simp] theorem Dev.tbReadNow_sound (d : Dev) (hS : d.Sound) : (Dev.tbReadNow d).Sound := by
  simp [Dev.tbReadNow, hS]

@[simp] theorem Dev.tbConsume_sound (d : Dev) (hS : d.Sound) : (Dev.tbConsume d).Sound := by
  unfold Dev.tbConsume; split <;> simp +contextual (maxDischargeDepth := 30) [hS]

@[simp] theorem Dev.tbHoldover_sound (d : Dev) (hS : d.Sound) : (Dev.tbHoldover d).Sound := by
  unfold Dev.tbHoldover; split <;> simp +contextual (maxDischargeDepth := 30) [hS]

@[simp] theorem Dev.ppsInEdge_sound (d : Dev) (hS : d.Sound) : (Dev.ppsInEdge d).Sound := by
  simp [Dev.ppsInEdge, hS]

@[simp] theorem Dev.ppsGapCheck_sound (d : Dev) (hS : d.Sound) : (Dev.ppsGapCheck d).Sound := by
  unfold Dev.ppsGapCheck; split <;> simp +contextual (maxDischargeDepth := 30) [hS]

@[simp] theorem Dev.ppsOutEdge_sound (d : Dev) (hS : d.Sound) : (Dev.ppsOutEdge d).Sound := by
  simp [Dev.ppsOutEdge, hS]

@[simp] theorem Dev.ppsOutFall_sound (d : Dev) (hS : d.Sound) : (Dev.ppsOutFall d).Sound := by
  unfold Dev.ppsOutFall; split <;> simp +contextual (maxDischargeDepth := 30) [hS]

@[simp] theorem Dev.todStart_sound (d : Dev) (utc : Nat) (hS : d.Sound) : (Dev.todStart d utc).Sound := by
  unfold Dev.todStart; split <;> simp +contextual (maxDischargeDepth := 30) [hS]

@[simp] theorem Dev.timePtpPort_sound (d : Dev) (x : Desc) (hS : d.Sound) : (Dev.timePtpPort d x).Sound := by
  simp [Dev.timePtpPort, hS]

@[simp] theorem Dev.timeOutputs_sound (d : Dev) (x : Desc) (hS : d.Sound) : (Dev.timeOutputs d x).Sound := by
  simp (maxDischargeDepth := 30) [Dev.timeOutputs, hS]

end Sys2Proof.Machine
end

