-- ==== Sys2Proof/Laws/SoundTrust.lean ====
section
/-! SUPPORT. The operations of Machine/Trust.lean keep the device sound. -/

namespace Sys2Proof.Machine

@[simp] theorem Dev.authLine_sound (d : Dev) (hS : d.Sound) : (Dev.authLine d).Sound := by
  simp [Dev.authLine, hS]

@[simp] theorem Dev.deriveKey_sound (d : Dev) (hS : d.Sound) : (Dev.deriveKey d).Sound := by
  simp [Dev.deriveKey, hS]

@[simp] theorem Dev.acceptImage_sound (d : Dev) (t : Nat) (copyB : Bool) (i : BootImage) (hS : d.Sound) : (Dev.acceptImage d t copyB i).Sound := by
  simp +contextual (maxDischargeDepth := 30) [Dev.acceptImage, hS]

@[simp] theorem Dev.refuseImage_sound (d : Dev) (t : Nat) (copyB : Bool) (hS : d.Sound) : (Dev.refuseImage d t copyB).Sound := by
  simp [Dev.refuseImage, hS]

@[simp] theorem Dev.bootImage_sound (d : Dev) (copyB : Bool) (i : BootImage) (hS : d.Sound) : (Dev.bootImage d copyB i).Sound := by
  simp [Dev.bootImage, hS]

@[simp] theorem Dev.recoverGo_sound (d : Dev) (who : Requester) (v : Word) (hS : d.Sound) : (Dev.recoverGo d who v).Sound := by
  simp [Dev.recoverGo, hS]

@[simp] theorem Dev.refuseQuote_sound (d : Dev) (q : QuoteFor) (status : Nat) (hS : d.Sound) : (Dev.refuseQuote d q status).Sound := by
  unfold Dev.refuseQuote; split <;> simp +contextual (maxDischargeDepth := 30) [hS]

@[simp] theorem Dev.askQuote_sound (d : Dev) (q : QuoteFor) (hS : d.Sound) : (Dev.askQuote d q).Sound := by
  simp [Dev.askQuote, hS]

@[simp] theorem Dev.quoteStart_sound (d : Dev) (h : d.Sound) : (d.quoteStart).Sound := by
  unfold Dev.quoteStart
  split
  · exact h
  · split
    · exact h
    · split
      · simp [h]
      · show SoundF d.mem d.loc d.win d.ctl.power
        exact h

@[simp] theorem Dev.blockTimeout_sound (d : Dev) (hS : d.Sound) : (Dev.blockTimeout d).Sound := by
  unfold Dev.blockTimeout; split <;> simp +contextual (maxDischargeDepth := 30) [hS]

@[simp] theorem Dev.quoteSigned_sound (d : Dev) (hS : d.Sound) : (Dev.quoteSigned d).Sound := by
  unfold Dev.quoteSigned; (repeat' split) <;> simp +contextual (maxDischargeDepth := 30) [hS]

@[simp] theorem Dev.quotePart_sound (d : Dev) (sel : Desc → Bool) (bs : List Byte) (hS : d.Sound) : (Dev.quotePart d sel bs).Sound := by
  unfold Dev.quotePart; split <;> simp +contextual (maxDischargeDepth := 30) [hS]

@[simp] theorem Dev.quoteRefused_sound (d : Dev) (sel : Desc → Bool) (status : Nat) (hS : d.Sound) : (Dev.quoteRefused d sel status).Sound := by
  unfold Dev.quoteRefused; split <;> simp +contextual (maxDischargeDepth := 30) [hS]

@[simp] theorem Dev.twinQuote_sound (d : Dev) (bs : List Byte) (hS : d.Sound) : (Dev.twinQuote d bs).Sound := by
  simp [Dev.twinQuote, hS]

@[simp] theorem Dev.twinQuoteRequest_sound (d : Dev) (nonce : List Byte) (hS : d.Sound) : (Dev.twinQuoteRequest d nonce).Sound := by
  simp [Dev.twinQuoteRequest, hS]

@[simp] theorem Dev.attestTimeout_sound (d : Dev) (hS : d.Sound) : (Dev.attestTimeout d).Sound := by
  simp +contextual (maxDischargeDepth := 30) [Dev.attestTimeout, hS]

@[simp] theorem Dev.trustAttest_sound (d : Dev) (x : Desc) (hS : d.Sound) : (Dev.trustAttest d x).Sound := by
  unfold Dev.trustAttest; dsimp only; (repeat' split) <;> simp +contextual (maxDischargeDepth := 30) [hS]

@[simp] theorem Dev.trustCerts_sound (d : Dev) (x : Desc) (hS : d.Sound) : (Dev.trustCerts d x).Sound := by
  simp (maxDischargeDepth := 30) [Dev.trustCerts, hS]

@[simp] theorem Dev.trustMeasure_sound (d : Dev) (x : Desc) (hS : d.Sound) : (Dev.trustMeasure d x).Sound := by
  simp (maxDischargeDepth := 30) [Dev.trustMeasure, hS]

@[simp] theorem Dev.trustCommit_sound (d : Dev) (x : Desc) (hS : d.Sound) : (Dev.trustCommit d x).Sound := by
  simp [Dev.trustCommit, hS]

@[simp] theorem Dev.tamperTrip_sound (d : Dev) (sensors : Nat) (hS : d.Sound) : (Dev.tamperTrip d sensors).Sound := by
  simp [Dev.tamperTrip, hS]

@[simp] theorem Dev.writeTrust_sound (d : Dev) (who : Requester) (off : Nat) (v : Word) (hS : d.Sound) : (Dev.writeTrust d who off v).Sound := by
  unfold Dev.writeTrust; split <;> simp +contextual (maxDischargeDepth := 30) [hS]

end Sys2Proof.Machine
end

