-- ==== Sys2Proof/Laws/SoundCascade.lean ====
section
/-! SUPPORT. The operations of Machine/Cascade.lean keep the device sound. -/

namespace Sys2Proof.Machine

@[simp] theorem Dev.modSide_sound (d : Dev) (ringB : Bool) (f : RingSide → RingSide) (hS : d.Sound) : (Dev.modSide d ringB f).Sound := by
  simp [Dev.modSide, hS]

@[simp] theorem Dev.cascLines_sound (d : Dev) (hS : d.Sound) : (Dev.cascLines d).Sound := by
  simp [Dev.cascLines, hS]

@[simp] theorem Dev.openHop_sound (d : Dev) (ringB : Bool) (limit : Bool) (hS : d.Sound) : (Dev.openHop d ringB limit).Sound := by
  simp (maxDischargeDepth := 30) [Dev.openHop, hS]

@[simp] theorem Dev.hopTimeout_sound (d : Dev) (ringB : Bool) (hS : d.Sound) : (Dev.hopTimeout d ringB).Sound := by
  simp [Dev.hopTimeout, hS]

@[simp] theorem Dev.breakNotice_sound (d : Dev) (ringB : Bool) (noticed : Bool) (hS : d.Sound) : (Dev.breakNotice d ringB noticed).Sound := by
  simp [Dev.breakNotice, hS]

@[simp] theorem Dev.tryClear_sound (d : Dev) (ringB : Bool) (hS : d.Sound) : (Dev.tryClear d ringB).Sound := by
  simp (maxDischargeDepth := 30) [Dev.tryClear, hS]

@[simp] theorem Dev.helloRx_sound (d : Dev) (ringB : Bool) (h : CascHello) (hS : d.Sound) : (Dev.helloRx d ringB h).Sound := by
  simp (maxDischargeDepth := 30) [Dev.helloRx, hS]

@[simp] theorem Dev.cascStage_sound (d : Dev) (ringB : Bool) (st : Stage) (hS : d.Sound) : (Dev.cascStage d ringB st).Sound := by
  simp [Dev.cascStage, hS]

@[simp] theorem Dev.cascFail_sound (d : Dev) (ringB : Bool) (hS : d.Sound) : (Dev.cascFail d ringB).Sound := by
  simp [Dev.cascFail, hS]

@[simp] theorem Dev.cascDetect_sound (d : Dev) (ringB : Bool) (term : Bool) (hS : d.Sound) : (Dev.cascDetect d ringB term).Sound := by
  simp [Dev.cascDetect, hS]

@[simp] theorem Dev.cascPass_sound (d : Dev) (ringB : Bool) (hS : d.Sound) : (Dev.cascPass d ringB).Sound := by
  unfold Dev.cascPass; dsimp only; (repeat' split) <;> simp +contextual (maxDischargeDepth := 30) [hS]

@[simp] theorem Dev.cascTimeout_sound (d : Dev) (ringB : Bool) (hS : d.Sound) : (Dev.cascTimeout d ringB).Sound := by
  simp [Dev.cascTimeout, hS]

@[simp] theorem Dev.cascRetry_sound (d : Dev) (ringB : Bool) (hS : d.Sound) : (Dev.cascRetry d ringB).Sound := by
  unfold Dev.cascRetry; split <;> simp +contextual (maxDischargeDepth := 30) [hS]

@[simp] theorem Dev.cascLoss_sound (d : Dev) (ringB : Bool) (hS : d.Sound) : (Dev.cascLoss d ringB).Sound := by
  unfold Dev.cascLoss; dsimp only; (repeat' split) <;> simp +contextual (maxDischargeDepth := 30) [hS]

@[simp] theorem Dev.cascReadmit_sound (d : Dev) (ringB : Bool) (blockErr : Bool) (hS : d.Sound) : (Dev.cascReadmit d ringB blockErr).Sound := by
  unfold Dev.cascReadmit; split <;> simp +contextual (maxDischargeDepth := 30) [hS]

@[simp] theorem Dev.peerFault_sound (d : Dev) (fr : CascFrame) (hS : d.Sound) : (Dev.peerFault d fr).Sound := by
  simp [Dev.peerFault, hS]

@[simp] theorem Dev.deliver_sound (d : Dev) (fr : CascFrame) (h : d.Sound) : (d.deliver fr).Sound := by
  unfold Dev.deliver
  split
  all_goals try simp [h]
  refine foldl_keeps _ _ _ h fun e a g => ?_
  split <;> simp [g]

@[simp] theorem Dev.deliverAll_sound (src cls n : Nat) : ∀ d : Dev, d.Sound → (Dev.deliverAll src cls n d).Sound := by
  induction n with
  | zero => exact fun _ h => h
  | succ n ih =>
    intro d h
    unfold Dev.deliverAll
    dsimp only
    split
    · exact h
    · exact ih _ (Dev.deliver_sound _ _ h)

@[simp] theorem Dev.messageRx_sound (d : Dev) (fr : CascFrame) (hS : d.Sound) : (Dev.messageRx d fr).Sound := by
  simp [Dev.messageRx, hS]

@[simp] theorem Dev.peerServo_sound (d : Dev) (fr : CascFrame) (hS : d.Sound) : (Dev.peerServo d fr).Sound := by
  simp [Dev.peerServo, hS]

@[simp] theorem Dev.timeCompare_sound (d : Dev) (fr : CascFrame) (hS : d.Sound) : (Dev.timeCompare d fr).Sound := by
  simp [Dev.timeCompare, hS]

@[simp] theorem Dev.cascFrame_sound (d : Dev) (ringB : Bool) (fr : CascFrame) (hS : d.Sound) : (Dev.cascFrame d ringB fr).Sound := by
  unfold Dev.cascFrame; (repeat' split) <;> simp +contextual (maxDischargeDepth := 30) [hS]

@[simp] theorem Dev.broadcastPeriod_sound (d : Dev) (hS : d.Sound) : (Dev.broadcastPeriod d).Sound := by
  simp [Dev.broadcastPeriod, hS]

@[simp] theorem Dev.comparePeriod_sound (d : Dev) (hS : d.Sound) : (Dev.comparePeriod d).Sound := by
  simp [Dev.comparePeriod, hS]

@[simp] theorem Dev.bypassFollow_sound (d : Dev) (hS : d.Sound) : (Dev.bypassFollow d).Sound := by
  simp [Dev.bypassFollow, hS]

@[simp] theorem Dev.setForce_sound (d : Dev) (b : Bool) (hS : d.Sound) : (Dev.setForce d b).Sound := by
  simp [Dev.setForce, hS]

@[simp] theorem Dev.cascConfigure_sound (d : Dev) (x : Desc) (hS : d.Sound) : (Dev.cascConfigure d x).Sound := by
  simp (maxDischargeDepth := 30) [Dev.cascConfigure, hS]

@[simp] theorem Dev.cascSend_sound (d : Dev) (x : Desc) (hS : d.Sound) : (Dev.cascSend d x).Sound := by
  simp (maxDischargeDepth := 30) [Dev.cascSend, hS]

@[simp] theorem Dev.cascBypass_sound (d : Dev) (x : Desc) (hS : d.Sound) : (Dev.cascBypass d x).Sound := by
  simp (maxDischargeDepth := 30) [Dev.cascBypass, hS]

@[simp] theorem Dev.cascForce_sound (d : Dev) (who : Requester) (v : Word) (hS : d.Sound) : (Dev.cascForce d who v).Sound := by
  simp [Dev.cascForce, hS]

@[simp] theorem Dev.writeCasc_sound (d : Dev) (who : Requester) (off : Nat) (v : Word) (hS : d.Sound) : (Dev.writeCasc d who off v).Sound := by
  simp [Dev.writeCasc, hS]

end Sys2Proof.Machine
end

