-- ==== Sys2Proof/Laws/SoundChannels.lean ====
section
/-! SUPPORT. The operations of Machine/Channels.lean keep the device sound. -/

namespace Sys2Proof.Machine

@[simp] theorem Dev.putTwinCh_sound (d : Dev) (n : Nat) (t : TwinCh) (hS : d.Sound) : (Dev.putTwinCh d n t).Sound := by
  simp [Dev.putTwinCh, hS]

@[simp] theorem Dev.modTwinCh_sound (d : Dev) (n : Nat) (f : TwinCh → TwinCh) (hS : d.Sound) : (Dev.modTwinCh d n f).Sound := by
  simp [Dev.modTwinCh, hS]

@[simp] theorem Dev.holdInternal_sound (d : Dev) (op : Nat) (n : Nat) (hS : d.Sound) : (Dev.holdInternal d op n).Sound := by
  unfold Dev.holdInternal; dsimp only; (repeat' split) <;> simp +contextual (maxDischargeDepth := 30) [hS]

@[simp] theorem Dev.tellChannel_sound (d : Dev) (n : Nat) (hS : d.Sound) : (Dev.tellChannel d n).Sound := by
  simp [Dev.tellChannel, hS]

@[simp] theorem Dev.shedChannel_sound (d : Dev) (cause : Nat) (n : Nat) (hS : d.Sound) : (Dev.shedChannel d cause n).Sound := by
  simp [Dev.shedChannel, hS]

@[simp] theorem Dev.shedAll_sound (d : Dev) (cause : Nat) (ns : List Nat) (hS : d.Sound) : (Dev.shedAll d cause ns).Sound := by
  simp +contextual (maxDischargeDepth := 30) [Dev.shedAll, hS]

@[simp] theorem Dev.unshed_sound (d : Dev) (n : Nat) (hS : d.Sound) : (Dev.unshed d n).Sound := by
  simp [Dev.unshed, hS]

@[simp] theorem Dev.restoreChannel_sound (d : Dev) (cause : Nat) (n : Nat) (hS : d.Sound) : (Dev.restoreChannel d cause n).Sound := by
  simp [Dev.restoreChannel, hS]

@[simp] theorem Dev.restoreAll_sound (d : Dev) (cause : Nat) (hS : d.Sound) : (Dev.restoreAll d cause).Sound := by
  simp +contextual (maxDischargeDepth := 30) [Dev.restoreAll, hS]

@[simp] theorem Dev.restorePoint_sound (d : Dev) (n : Nat) (m : Nat) (hS : d.Sound) : (Dev.restorePoint d n m).Sound := by
  simp [Dev.restorePoint, hS]

@[simp] theorem Dev.muteFrom_sound (d : Dev) (n : Nat) (hS : d.Sound) : (Dev.muteFrom d n).Sound := by
  simp [Dev.muteFrom, hS]

@[simp] theorem Dev.wantCopy_sound (d : Dev) (n : Nat) (hS : d.Sound) : (Dev.wantCopy d n).Sound := by
  simp [Dev.wantCopy, hS]

@[simp] theorem Dev.copyFailed_sound (d : Dev) (n : Nat) (hS : d.Sound) : (Dev.copyFailed d n).Sound := by
  simp (maxDischargeDepth := 30) [Dev.copyFailed, hS]

@[simp] theorem Dev.diverge_sound (d : Dev) (n : Nat) (mt : Nat) (hS : d.Sound) : (Dev.diverge d n mt).Sound := by
  simp (maxDischargeDepth := 30) [Dev.diverge, hS]

@[simp] theorem Dev.copyDone_sound (d : Dev) (n : Nat) (hS : d.Sound) : (Dev.copyDone d n).Sound := by
  simp [Dev.copyDone, hS]

@[simp] theorem Dev.compareRecords_sound (d : Dev) (n : Nat) (own : HistRecord) (theirs : HistRecord) (hS : d.Sound) : (Dev.compareRecords d n own theirs).Sound := by
  simp [Dev.compareRecords, hS]

@[simp] theorem Dev.theirRecord_sound (d : Dev) (n : Nat) (r : HistRecord) (hS : d.Sound) : (Dev.theirRecord d n r).Sound := by
  unfold Dev.theirRecord; dsimp only; (repeat' split) <;> simp +contextual (maxDischargeDepth := 30) [hS]

@[simp] theorem Dev.storeRecord_sound (d : Dev) (n : Nat) (r : HistRecord) (hS : d.Sound) : (Dev.storeRecord d n r).Sound := by
  simp [Dev.storeRecord, hS]

@[simp] theorem Dev.shareRecord_sound (d : Dev) (n : Nat) (r : HistRecord) (hS : d.Sound) : (Dev.shareRecord d n r).Sound := by
  unfold Dev.shareRecord; dsimp only; (repeat' split) <;> simp +contextual (maxDischargeDepth := 30) [hS]

@[simp] theorem Dev.ownRelease_sound (d : Dev) (n : Nat) (r : HistRecord) (hS : d.Sound) : (Dev.ownRelease d n r).Sound := by
  simp [Dev.ownRelease, hS]

@[simp] theorem Dev.sendSnapshot_sound (d : Dev) (n : Nat) (mt : Nat) (refs : List Byte) (hS : d.Sound) : (Dev.sendSnapshot d n mt refs).Sound := by
  simp [Dev.sendSnapshot, hS]

@[simp] theorem Dev.adoptSnapshot_sound (d : Dev) (n : Nat) (mt : Nat) (hS : d.Sound) : (Dev.adoptSnapshot d n mt).Sound := by
  unfold Dev.adoptSnapshot; dsimp only; (repeat' split) <;> simp +contextual (maxDischargeDepth := 30) [hS]

end Sys2Proof.Machine
end

