-- ==== Sys2Proof/Laws/SoundCompositor.lean ====
section
/-! SUPPORT. The operations of Machine/Compositor.lean keep the device sound. -/

namespace Sys2Proof.Machine

@[simp] theorem Dev.bookScene_sound (d : Dev) (s : Nat) (cost : Nat) (hS : d.Sound) : (Dev.bookScene d s cost).Sound := by
  simp [Dev.bookScene, hS]

@[simp] theorem Dev.mfConfigure_sound (d : Dev) (x : Desc) (hS : d.Sound) : (Dev.mfConfigure d x).Sound := by
  simp (maxDischargeDepth := 30) [Dev.mfConfigure, hS]

@[simp] theorem Dev.mfHold_sound (d : Dev) (x : Desc) (s : Nat) (obj : Nat) (hS : d.Sound) : (Dev.mfHold d x s obj).Sound := by
  simp [Dev.mfHold, hS]

@[simp] theorem Dev.mfStart_sound (d : Dev) (x : Desc) (hS : d.Sound) : (Dev.mfStart d x).Sound := by
  simp (maxDischargeDepth := 30) [Dev.mfStart, hS]

@[simp] theorem Dev.mfStop_sound (d : Dev) (x : Desc) (hS : d.Sound) : (Dev.mfStop d x).Sound := by
  simp [Dev.mfStop, hS]

@[simp] theorem Dev.mfOutput_sound (d : Dev) (x : Desc) (hS : d.Sound) : (Dev.mfOutput d x).Sound := by
  simp [Dev.mfOutput, hS]

@[simp] theorem Dev.mfLayer_sound (d : Dev) (x : Desc) (hS : d.Sound) : (Dev.mfLayer d x).Sound := by
  simp [Dev.mfLayer, hS]

@[simp] theorem Dev.startScene_sound (d : Dev) (s : Nat) (m : Nat) (p : Pend) (hS : d.Sound) : (Dev.startScene d s m p).Sound := by
  simp (maxDischargeDepth := 30) [Dev.startScene, hS]

@[simp] theorem Dev.stopScene_sound (d : Dev) (s : Nat) (m : Nat) (p : Pend) (hS : d.Sound) : (Dev.stopScene d s m p).Sound := by
  simp (maxDischargeDepth := 30) [Dev.stopScene, hS]

@[simp] theorem Dev.commitLayer_sound (d : Dev) (m : Nat) (p : Pend) (hS : d.Sound) : (Dev.commitLayer d m p).Sound := by
  simp (maxDischargeDepth := 30) [Dev.commitLayer, hS]

@[simp] theorem Dev.commitOutput_sound (d : Dev) (m : Nat) (p : Pend) (hS : d.Sound) : (Dev.commitOutput d m p).Sound := by
  simp [Dev.commitOutput, hS]

@[simp] theorem Dev.scenePoint_sound (d : Dev) (s : Nat) (m : Nat) (hS : d.Sound) : (Dev.scenePoint d s m).Sound := by
  unfold Dev.scenePoint; refine foldl_keeps _ _ _ ?_ fun e p g => ?_; (on_goal 1 => simp (maxDischargeDepth := 30) [hS]); (repeat' split) <;> simp +contextual (maxDischargeDepth := 30) [g]

@[simp] theorem Dev.sceneTick_sound (d : Dev) (s : Nat) (hS : d.Sound) : (Dev.sceneTick d s).Sound := by
  simp [Dev.sceneTick, hS]

@[simp] theorem Dev.writeOutRow_sound (d : Dev) (s : Scene) (w : Raster) (o : List Byte) (v : Nat) (hS : d.Sound) : (Dev.writeOutRow d s w o v).Sound := by
  simp (maxDischargeDepth := 30) [Dev.writeOutRow, hS]

@[simp] theorem Dev.writeOuts_sound (d : Dev) (s : Scene) (w : Raster) (y : Nat) (hS : d.Sound) : (Dev.writeOuts d s w y).Sound := by
  simp +contextual (maxDischargeDepth := 30) [Dev.writeOuts, hS]

@[simp] theorem Dev.sceneRow_sound (d : Dev) (s : Nat) (hS : d.Sound) : (Dev.sceneRow d s).Sound := by
  unfold Dev.sceneRow; dsimp only; (repeat' split) <;> simp +contextual (maxDischargeDepth := 30) [hS]

@[simp] theorem Dev.outUnderrun_sound (d : Dev) (s : Nat) (j : Nat) (v : Nat) (hS : d.Sound) : (Dev.outUnderrun d s j v).Sound := by
  unfold Dev.outUnderrun; dsimp only; (repeat' split) <;> simp +contextual (maxDischargeDepth := 30) [hS]

@[simp] theorem Dev.writeMf_sound (d : Dev) (who : Requester) (n : Nat) (off : Nat) (v : Word) (hS : d.Sound) : (Dev.writeMf d who n off v).Sound := by
  simp [Dev.writeMf, hS]

end Sys2Proof.Machine
end

