-- ==== Sys2Proof/Laws/SoundFabric.lean ====
section
/-! SUPPORT. The operations of Machine/Fabric.lean keep the device sound. -/

namespace Sys2Proof.Machine

@[simp] theorem Dev.cadLine_sound (d : Dev) (hS : d.Sound) : (Dev.cadLine d).Sound := by
  simp [Dev.cadLine, hS]

@[simp] theorem Dev.windowActs_sound (d : Dev) (counts : List Nat) (hS : d.Sound) : (Dev.windowActs d counts).Sound := by
  simp [Dev.windowActs, hS]

@[simp] theorem Dev.cadWindow_sound (d : Dev) (counts : List Nat) (hS : d.Sound) : (Dev.cadWindow d counts).Sound := by
  simp [Dev.cadWindow, hS]

@[simp] theorem Dev.readBack_sound (d : Dev) (a : AvsReply) (hS : d.Sound) : (Dev.readBack d a).Sound := by
  simp [Dev.readBack, hS]

@[simp] theorem Dev.writeVdd_sound (d : Dev) (a : AvsReply) (hS : d.Sound) : (Dev.writeVdd d a).Sound := by
  simp [Dev.writeVdd, hS]

@[simp] theorem Dev.shedUntil_sound (p avail n : Nat) : ∀ d : Dev, d.Sound → (Dev.shedUntil p avail n d).Sound := by
  induction n with
  | zero => exact fun _ h => h
  | succ n ih =>
    intro d h
    unfold Dev.shedUntil
    split
    · exact h
    · split
      · exact ih _ (Dev.shedChannel_sound _ _ _ h)
      · exact h

@[simp] theorem Dev.shedPass_sound (d : Dev) (p : Nat) (hS : d.Sound) : (Dev.shedPass d p).Sound := by
  simp [Dev.shedPass, hS]

@[simp] theorem Dev.cycleActs_sound (d : Dev) (temps : List ℤ) (a : AvsReply) (hS : d.Sound) : (Dev.cycleActs d temps a).Sound := by
  simp +contextual (maxDischargeDepth := 30) [Dev.cycleActs, hS]

@[simp] theorem Dev.controlCycle_sound (d : Dev) (temps : List ℤ) (a : AvsReply) (hS : d.Sound) : (Dev.controlCycle d temps a).Sound := by
  simp +contextual (maxDischargeDepth := 30) [Dev.controlCycle, hS]

@[simp] theorem Dev.shedRestore_sound (d : Dev) (n : Nat) (hS : d.Sound) : (Dev.shedRestore d n).Sound := by
  simp [Dev.shedRestore, hS]

@[simp] theorem Dev.runAdmit_sound (d : Dev) (x : Desc) (hS : d.Sound) : (Dev.runAdmit d x).Sound := by
  simp (maxDischargeDepth := 30) [Dev.runAdmit, hS]

@[simp] theorem Dev.releaseBooking_sound (d : Dev) (x : Desc) (hS : d.Sound) : (Dev.releaseBooking d x).Sound := by
  simp (maxDischargeDepth := 30) [Dev.releaseBooking, hS]

@[simp] theorem Dev.queryCapacity_sound (d : Dev) (x : Desc) (hS : d.Sound) : (Dev.queryCapacity d x).Sound := by
  simp [Dev.queryCapacity, hS]

end Sys2Proof.Machine
end

