-- ==== Sys2Proof/Laws/SoundCheck.lean ====
section
/-! SUPPORT. The operations of Machine/Check.lean keep the device sound. -/

namespace Sys2Proof.Machine

@[simp] theorem Dev.mismatch_sound (d : Dev) (k : Nat) (hS : d.Sound) : (Dev.mismatch d k).Sound := by
  simp [Dev.mismatch, hS]

@[simp] theorem Dev.compareEngine_sound (d : Dev) (e : Nat) (hS : d.Sound) : (Dev.compareEngine d e).Sound := by
  simp [Dev.compareEngine, hS]

@[simp] theorem Dev.snoopEnd_sound (d : Dev) (k : Nat) (mt : Nat) (bytes : List Byte) (withheld : Bool) (full : Bool) (whole : Bool) (hS : d.Sound) : (Dev.snoopEnd d k mt bytes withheld full whole).Sound := by
  simp [Dev.snoopEnd, hS]

@[simp] theorem Dev.checkConfigure_sound (d : Dev) (x : Desc) (hS : d.Sound) : (Dev.checkConfigure d x).Sound := by
  simp (maxDischargeDepth := 30) [Dev.checkConfigure, hS]

@[simp] theorem Dev.checkFeed_sound (d : Dev) (x : Desc) (hS : d.Sound) : (Dev.checkFeed d x).Sound := by
  simp (maxDischargeDepth := 30) [Dev.checkFeed, hS]

@[simp] theorem Dev.checkStore_sound (d : Dev) (x : Desc) (hS : d.Sound) : (Dev.checkStore d x).Sound := by
  simp (maxDischargeDepth := 30) [Dev.checkStore, hS]

@[simp] theorem Dev.checkLoad_sound (d : Dev) (x : Desc) (hS : d.Sound) : (Dev.checkLoad d x).Sound := by
  simp (maxDischargeDepth := 30) [Dev.checkLoad, hS]

@[simp] theorem Dev.checkRelease_sound (d : Dev) (x : Desc) (hS : d.Sound) : (Dev.checkRelease d x).Sound := by
  simp (maxDischargeDepth := 30) [Dev.checkRelease, hS]

@[simp] theorem Dev.chkData_sound (d : Dev) (who : Requester) (e : Nat) (form : Nat) (v : Word) (hS : d.Sound) : (Dev.chkData d who e form v).Sound := by
  simp [Dev.chkData, hS]

@[simp] theorem Dev.chkValueLo_sound (d : Dev) (who : Requester) (e : Nat) (v : Word) (hS : d.Sound) : (Dev.chkValueLo d who e v).Sound := by
  simp [Dev.chkValueLo, hS]

@[simp] theorem Dev.chkValueHi_sound (d : Dev) (who : Requester) (e : Nat) (v : Word) (hS : d.Sound) : (Dev.chkValueHi d who e v).Sound := by
  simp [Dev.chkValueHi, hS]

@[simp] theorem Dev.chkCompare_sound (d : Dev) (who : Requester) (e : Nat) (hS : d.Sound) : (Dev.chkCompare d who e).Sound := by
  simp [Dev.chkCompare, hS]

@[simp] theorem Dev.chkRestart_sound (d : Dev) (who : Requester) (e : Nat) (hS : d.Sound) : (Dev.chkRestart d who e).Sound := by
  simp [Dev.chkRestart, hS]

@[simp] theorem Dev.chkSetMode_sound (d : Dev) (who : Requester) (v : Word) (hS : d.Sound) : (Dev.chkSetMode d who v).Sound := by
  simp +contextual (maxDischargeDepth := 30) [Dev.chkSetMode, hS]

@[simp] theorem Dev.chkCtrl_sound (d : Dev) (who : Requester) (e : Nat) (v : Word) (h : d.Sound) : (d.chkCtrl who e v).Sound := by
  unfold Dev.chkCtrl
  have h1 := fun f => Dev.modCheck_sound d e f h
  have h2 := fun f => Dev.chkCompare_sound _ who e (h1 f)
  dsimp only
  split
  · exact h
  · split
    · refine Dev.chkRestart_sound _ _ _ ?_
      split
      · exact h2 _
      · exact h1 _
    · split
      · exact h2 _
      · exact h1 _

@[simp] theorem Dev.writeChk_sound (d : Dev) (who : Requester) (off : Nat) (v : Word) (hS : d.Sound) : (Dev.writeChk d who off v).Sound := by
  unfold Dev.writeChk; (repeat' split) <;> simp +contextual (maxDischargeDepth := 30) [hS]

end Sys2Proof.Machine
end

