-- ==== Sys2Proof/Laws/SoundDecoder.lean ====
section
/-! SUPPORT. The operations of Machine/Decoder.lean keep the device sound. -/

namespace Sys2Proof.Machine

@[simp] theorem Dev.putBitstream_sound (d : Dev) (s : Dec) (bs : List Byte) (hS : d.Sound) : (Dev.putBitstream d s bs).Sound := by
  simp [Dev.putBitstream, hS]

@[simp] theorem Dev.bufferBytes_sound (d : Dev) (k : Nat) (raw : List Byte) (pics : Nat) (hS : d.Sound) : (Dev.bufferBytes d k raw pics).Sound := by
  simp (maxDischargeDepth := 30) [Dev.bufferBytes, hS]

@[simp] theorem Dev.repair_sound (k n : Nat) : ∀ d : Dev, d.Sound → (Dev.repair k n d).Sound := by
  induction n with
  | zero => exact fun _ h => h
  | succ n ih =>
    intro d h
    unfold Dev.repair
    split
    · exact ih _ (by simp [h])
    · exact h

@[simp] theorem Dev.bufferPkt_sound (d : Dev) (k : Nat) (p : DecPkt) (hS : d.Sound) : (Dev.bufferPkt d k p).Sound := by
  unfold Dev.bufferPkt; split <;> simp +contextual (maxDischargeDepth := 30) [hS]

@[simp] theorem Dev.decPath_sound (d : Dev) (k : Nat) (pathB : Bool) (seq : Nat) (hS : d.Sound) : (Dev.decPath d k pathB seq).Sound := by
  simp [Dev.decPath, hS]

@[simp] theorem Dev.decArrive_sound (d : Dev) (k : Nat) (p : DecPkt) (hS : d.Sound) : (Dev.decArrive d k p).Sound := by
  simp [Dev.decArrive, hS]

@[simp] theorem Dev.decPacket_sound (d : Dev) (k : Nat) (pathB : Bool) (p : DecPkt) (hS : d.Sound) : (Dev.decPacket d k pathB p).Sound := by
  simp [Dev.decPacket, hS]

@[simp] theorem Dev.flushWaiting_sound (d : Dev) (k : Nat) (hS : d.Sound) : (Dev.flushWaiting d k).Sound := by
  simp +contextual (maxDischargeDepth := 30) [Dev.flushWaiting, hS]

@[simp] theorem Dev.declareLost_sound (d : Dev) (k : Nat) (seq : Nat) (hS : d.Sound) : (Dev.declareLost d k seq).Sound := by
  unfold Dev.declareLost; dsimp only; (repeat' split) <;> simp +contextual (maxDischargeDepth := 30) [hS]

@[simp] theorem Dev.declaration_sound (d : Dev) (k : Nat) (seq : Nat) (received : Bool) (hS : d.Sound) : (Dev.declaration d k seq received).Sound := by
  unfold Dev.declaration; dsimp only; (repeat' split) <;> simp +contextual (maxDischargeDepth := 30) [hS]

@[simp] theorem Dev.decStore_sound (d : Dev) (k : Nat) (q : DpbPic) (segs : List LineSeg) (counts : Bool) (hS : d.Sound) : (Dev.decStore d k q segs counts).Sound := by
  unfold Dev.decStore; dsimp only; (repeat' split) <;> simp +contextual (maxDischargeDepth := 30) [hS]

@[simp] theorem Dev.putDecRef_sound (d : Dev) (k : Nat) (q : DpbPic) (hS : d.Sound) : (Dev.putDecRef d k q).Sound := by
  simp [Dev.putDecRef, hS]

@[simp] theorem Dev.decRelease_sound (d : Dev) (k : Nat) (hS : d.Sound) : (Dev.decRelease d k).Sound := by
  unfold Dev.decRelease; split <;> simp +contextual (maxDischargeDepth := 30) [hS]

@[simp] theorem Dev.decOutput_sound (d : Dev) (k : Nat) (q : DpbPic) (segs : List LineSeg) (counts : Bool) (releases : Nat) (hS : d.Sound) : (Dev.decOutput d k q segs counts releases).Sound := by
  simp +contextual (maxDischargeDepth := 30) [Dev.decOutput, hS]

@[simp] theorem Dev.decRows_sound (d : Dev) (k : Nat) (p : DecPic) (hS : d.Sound) : (Dev.decRows d k p).Sound := by
  unfold Dev.decRows; dsimp only; (repeat' split) <;> simp +contextual (maxDischargeDepth := 30) [hS]

@[simp] theorem Dev.decDecode_sound (d : Dev) (k : Nat) (s : Dec) (start : Bool) (p : DecPic) (hS : d.Sound) : (Dev.decDecode d k s start p).Sound := by
  simp (maxDischargeDepth := 30) [Dev.decDecode, hS]

@[simp] theorem Dev.decPicture_sound (d : Dev) (k : Nat) (p : DecPic) (hS : d.Sound) : (Dev.decPicture d k p).Sound := by
  simp [Dev.decPicture, hS]

@[simp] theorem Dev.decConfigure_sound (d : Dev) (x : Desc) (hS : d.Sound) : (Dev.decConfigure d x).Sound := by
  simp (maxDischargeDepth := 30) [Dev.decConfigure, hS]

@[simp] theorem Dev.decHold_sound (d : Dev) (x : Desc) (hS : d.Sound) : (Dev.decHold d x).Sound := by
  simp [Dev.decHold, hS]

@[simp] theorem Dev.decStart_sound (d : Dev) (x : Desc) (hS : d.Sound) : (Dev.decStart d x).Sound := by
  simp [Dev.decStart, hS]

@[simp] theorem Dev.decStop_sound (d : Dev) (x : Desc) (hS : d.Sound) : (Dev.decStop d x).Sound := by
  simp [Dev.decStop, hS]

@[simp] theorem Dev.dpEcc_sound (d : Dev) (p : Nat) (corrected : Bool) (hS : d.Sound) : (Dev.dpEcc d p corrected).Sound := by
  unfold Dev.dpEcc
  dsimp only
  repeat' first
    | with_reducible exact hS
    | with_reducible refine Dev.modDecPipeAt_sound _ _ _ ?_
    | with_reducible refine Dev.raise_sound _ _ ?_
    | split
    | (simp only [Dev.sound_mk, SoundF_self]; exact hS)

@[simp] theorem Dev.decSeekAll_sound (d : Dev) (p : Nat) (hS : d.Sound) : (Dev.decSeekAll d p).Sound := by
  simp [Dev.decSeekAll, hS]

@[simp] theorem Dev.dpTest_sound (d : Dev) (p : Nat) (pass : Bool) (hS : d.Sound) : (Dev.dpTest d p pass).Sound := by
  simp [Dev.dpTest, hS]

@[simp] theorem Dev.writeDp_sound (d : Dev) (who : Requester) (off : Nat) (v : Word) (hS : d.Sound) : (Dev.writeDp d who off v).Sound := by
  simp [Dev.writeDp, hS]

end Sys2Proof.Machine
end

