-- ==== Sys2Proof/Laws/SoundEncPics.lean ====
section
/-! SUPPORT. The operations of Machine/EncPics.lean keep the device sound. -/

namespace Sys2Proof.Machine

@[simp] theorem Dev.planOne_sound (d : Dev) (n : Nat) (first : Nat) (o : Nat × PicType) (hS : d.Sound) : (Dev.planOne d n first o).Sound := by
  simp +contextual (maxDischargeDepth := 30) [Dev.planOne, hS]

@[simp] theorem Dev.commitRates_sound (d : Dev) (n : Nat) (first : Nat) (last : Nat) (hS : d.Sound) : (Dev.commitRates d n first last).Sound := by
  simp +contextual (maxDischargeDepth := 30) [Dev.commitRates, hS]

@[simp] theorem Dev.planNext_sound (d : Dev) (n : Nat) (hS : d.Sound) : (Dev.planNext d n).Sound := by
  simp +contextual (maxDischargeDepth := 30) [Dev.planNext, hS]

@[simp] theorem Dev.planGop_sound (d : Dev) (n : Nat) (hS : d.Sound) : (Dev.planGop d n).Sound := by
  simp +contextual (maxDischargeDepth := 30) [Dev.planGop, hS]

@[simp] theorem Dev.putRecord_sound (d : Dev) (n : Nat) (p : Pic) (slice : Nat) (flags : Nat) (nals : List (List Byte)) (hS : d.Sound) : (Dev.putRecord d n p slice flags nals).Sound := by
  simp (maxDischargeDepth := 30) [Dev.putRecord, hS]

@[simp] theorem Dev.putReference_sound (d : Dev) (n : Nat) (p : Pic) (hS : d.Sound) : (Dev.putReference d n p).Sound := by
  simp [Dev.putReference, hS]

@[simp] theorem Dev.putSlices_sound (d : Dev) (n : Nat) (p : Pic) (i : Nat) (k : Nat) (hS : d.Sound) : (Dev.putSlices d n p i k).Sound := by
  simp +contextual (maxDischargeDepth := 30) [Dev.putSlices, hS]

@[simp] theorem Dev.checkStopped_sound (d : Dev) (n : Nat) (hS : d.Sound) : (Dev.checkStopped d n).Sound := by
  simp +contextual (maxDischargeDepth := 30) [Dev.checkStopped, hS]

@[simp] theorem Dev.finishPic_sound (d : Dev) (n : Nat) (p0 : Pic) (missed : Bool) (hS : d.Sound) : (Dev.finishPic d n p0 missed).Sound := by
  simp +contextual (maxDischargeDepth := 30) [Dev.finishPic, hS]

@[simp] theorem Dev.releaseLoop_sound (n fuel : Nat) : ∀ d : Dev, d.Sound → (Dev.releaseLoop n fuel d).Sound := by
  induction fuel with
  | zero => exact fun _ h => h
  | succ fuel ih =>
    intro d h
    unfold Dev.releaseLoop
    dsimp only
    (repeat' split) <;> first
      | exact h
      | exact ih _ (Dev.finishPic_sound _ _ _ _ h)
      | exact Dev.modChannel_sound _ _ _ (Dev.putSlices_sound _ _ _ _ _ h)

@[simp] theorem Dev.release_sound (d : Dev) (n : Nat) (hS : d.Sound) : (Dev.release d n).Sound := by
  simp [Dev.release, hS]

@[simp] theorem Dev.releaseRepeat_sound (d : Dev) (n : Nat) (p : Pic) (missed : Bool) (hS : d.Sound) : (Dev.releaseRepeat d n p missed).Sound := by
  simp (maxDischargeDepth := 30) [Dev.releaseRepeat, hS]

@[simp] theorem Dev.releaseSkipped_sound (d : Dev) (n : Nat) (p : Pic) (k : Nat) (missed : Bool) (hS : d.Sound) : (Dev.releaseSkipped d n p k missed).Sound := by
  simp [Dev.releaseSkipped, hS]

end Sys2Proof.Machine
end

