-- ==== Sys2Proof/Laws/SoundEncoder.lean ====
section
/-! SUPPORT. The operations of Machine/Encoder.lean keep the device sound. -/

namespace Sys2Proof.Machine

@[simp] theorem Dev.encLoad_sound (d : Dev) (x : Desc) (hS : d.Sound) : (Dev.encLoad d x).Sound := by
  simp (maxDischargeDepth := 30) [Dev.encLoad, hS]

@[simp] theorem Dev.putBlack_sound (d : Dev) (n : Nat) (hS : d.Sound) : (Dev.putBlack d n).Sound := by
  simp [Dev.putBlack, hS]

@[simp] theorem Dev.encStart_sound (d : Dev) (x : Desc) (hS : d.Sound) : (Dev.encStart d x).Sound := by
  simp (maxDischargeDepth := 30) [Dev.encStart, hS]

@[simp] theorem Dev.holdStop_sound (d : Dev) (x : Desc) (n : Nat) (hS : d.Sound) : (Dev.holdStop d x n).Sound := by
  simp [Dev.holdStop, hS]

@[simp] theorem Dev.encStop_sound (d : Dev) (x : Desc) (hS : d.Sound) : (Dev.encStop d x).Sound := by
  simp [Dev.encStop, hS]

@[simp] theorem Dev.startFollower_sound (d : Dev) (n : Nat) (hS : d.Sound) : (Dev.startFollower d n).Sound := by
  simp (maxDischargeDepth := 30) [Dev.startFollower, hS]

@[simp] theorem Dev.encGo_sound (d : Dev) (n : Nat) (k : Nat) (m : Nat) (p : Pend) (hS : d.Sound) : (Dev.encGo d n k m p).Sound := by
  simp +contextual (maxDischargeDepth := 30) [Dev.encGo, hS]

@[simp] theorem Dev.encHalt_sound (d : Dev) (n : Nat) (k : Nat) (m : Nat) (p : Pend) (hS : d.Sound) : (Dev.encHalt d n k m p).Sound := by
  simp (maxDischargeDepth := 30) [Dev.encHalt, hS]

@[simp] theorem Dev.encPoint_sound (d : Dev) (s : Nat) (k : Nat) (m : Nat) (hS : d.Sound) : (Dev.encPoint d s k m).Sound := by
  simp +contextual (maxDischargeDepth := 30) [Dev.encPoint, hS]

@[simp] theorem Dev.sceneTickAll_sound (d : Dev) (s : Nat) (hS : d.Sound) : (Dev.sceneTickAll d s).Sound := by
  simp [Dev.sceneTickAll, hS]

@[simp] theorem Dev.encHold_sound (d : Dev) (x : Desc) (hS : d.Sound) : (Dev.encHold d x).Sound := by
  simp [Dev.encHold, hS]

@[simp] theorem Dev.encKeypic_sound (d : Dev) (x : Desc) (hS : d.Sound) : (Dev.encKeypic d x).Sound := by
  simp [Dev.encKeypic, hS]

@[simp] theorem Dev.encRate_sound (d : Dev) (x : Desc) (hS : d.Sound) : (Dev.encRate d x).Sound := by
  simp [Dev.encRate, hS]

@[simp] theorem Dev.encStats_sound (d : Dev) (x : Desc) (hS : d.Sound) : (Dev.encStats d x).Sound := by
  simp (maxDischargeDepth := 30) [Dev.encStats, hS]

@[simp] theorem Dev.encPark_sound (d : Dev) (x : Desc) (hS : d.Sound) : (Dev.encPark d x).Sound := by
  unfold Dev.encPark; dsimp only; (repeat' split) <;> simp +contextual (maxDischargeDepth := 30) [hS]

@[simp] theorem Dev.unparkDone_sound (d : Dev) (p : Nat) (hS : d.Sound) : (Dev.unparkDone d p).Sound := by
  unfold Dev.unparkDone; split <;> simp +contextual (maxDischargeDepth := 30) [hS]

@[simp] theorem Dev.startRow_sound (d : Dev) (p : Nat) (k : Cand) (hS : d.Sound) : (Dev.startRow d p k).Sound := by
  unfold Dev.startRow; dsimp only; (repeat' split) <;> simp +contextual (maxDischargeDepth := 30) [hS]

@[simp] theorem Dev.endRow_sound (d : Dev) (p : Nat) (hS : d.Sound) : (Dev.endRow d p).Sound := by
  unfold Dev.endRow; dsimp only; (repeat' split) <;> simp +contextual (maxDischargeDepth := 30) [hS]

@[simp] theorem Dev.switchContext_sound (d : Dev) (p : Nat) (next : Option (Nat × Nat)) (hS : d.Sound) : (Dev.switchContext d p next).Sound := by
  unfold Dev.switchContext; dsimp only; (repeat' split) <;> simp +contextual (maxDischargeDepth := 30) [hS]

@[simp] theorem Dev.rowBoundary_sound (d : Dev) (p : Nat) (hS : d.Sound) : (Dev.rowBoundary d p).Sound := by
  unfold Dev.rowBoundary; dsimp only; (repeat' split) <;> simp +contextual (maxDischargeDepth := 30) [hS]

@[simp] theorem Dev.countMiss_sound (d : Dev) (n : Nat) (p : Option Pic) (mt : Nat) (k : Nat) (hS : d.Sound) : (Dev.countMiss d n p mt k).Sound := by
  simp +contextual (maxDischargeDepth := 30) [Dev.countMiss, hS]

@[simp] theorem Dev.resolveLate_sound (d : Dev) (n : Nat) (p : Pic) (hS : d.Sound) : (Dev.resolveLate d n p).Sound := by
  simp (maxDischargeDepth := 30) [Dev.resolveLate, hS]

@[simp] theorem Dev.planSkipped_sound (d : Dev) (n : Nat) (hS : d.Sound) : (Dev.planSkipped d n).Sound := by
  simp [Dev.planSkipped, hS]

@[simp] theorem Dev.deadline_sound (d0 : Dev) (n : Nat) (i : Nat) (hS : d0.Sound) : (Dev.deadline d0 n i).Sound := by
  unfold Dev.deadline
  dsimp only
  repeat' first
    | with_reducible exact hS
    | with_reducible refine Dev.restorePoint_sound _ _ _ ?_
    | with_reducible refine Dev.copyFailed_sound _ _ ?_
    | with_reducible refine Dev.planNext_sound _ _ ?_
    | with_reducible refine Dev.resolveLate_sound _ _ _ ?_
    | with_reducible refine Dev.planSkipped_sound _ _ ?_
    | split
    | (simp only [Dev.sound_mk, SoundF_self]; exact hS)

@[simp] theorem Dev.epEcc_sound (d : Dev) (p : Nat) (corrected : Bool) (hS : d.Sound) : (Dev.epEcc d p corrected).Sound := by
  simp [Dev.epEcc, hS]

@[simp] theorem Dev.epTest_sound (d : Dev) (p : Nat) (pass : Bool) (hS : d.Sound) : (Dev.epTest d p pass).Sound := by
  simp [Dev.epTest, hS]

end Sys2Proof.Machine
end

