-- ==== Sys2Proof/Laws/SoundFaultUnit.lean ====
section
/-! SUPPORT. The operations of Machine/FaultUnit.lean keep the device sound. -/

namespace Sys2Proof.Machine

@[simp] theorem Dev.riseLines_sound (d : Dev) (srcs : BitVec 64) (hS : d.Sound) : (Dev.riseLines d srcs).Sound := by
  simp [Dev.riseLines, hS]

@[simp] theorem Dev.clearEcc_sound (d : Dev) (c : BitVec 64) (hS : d.Sound) : (Dev.clearEcc d c).Sound := by
  simp [Dev.clearEcc, hS]

@[simp] theorem Dev.releaseFaults_sound (d : Dev) (mask : BitVec 64) (hS : d.Sound) : (Dev.releaseFaults d mask).Sound := by
  simp [Dev.releaseFaults, hS]

@[simp] theorem Dev.fltW1c_sound (d : Dev) (who : Requester) (hi : Bool) (v : Word) (hS : d.Sound) : (Dev.fltW1c d who hi v).Sound := by
  simp [Dev.fltW1c, hS]

@[simp] theorem Dev.fltClass_sound (d : Dev) (who : Requester) (k : Nat) (v : Word) (hS : d.Sound) : (Dev.fltClass d who k v).Sound := by
  simp [Dev.fltClass, hS]

@[simp] theorem Dev.fltLock_sound (d : Dev) (who : Requester) (hS : d.Sound) : (Dev.fltLock d who).Sound := by
  simp [Dev.fltLock, hS]

@[simp] theorem Dev.heartbeat_sound (d : Dev) (who : Requester) (hS : d.Sound) : (Dev.heartbeat d who).Sound := by
  simp [Dev.heartbeat, hS]

@[simp] theorem Dev.watchdog_sound (d : Dev) (hS : d.Sound) : (Dev.watchdog d).Sound := by
  unfold Dev.watchdog; split <;> simp +contextual (maxDischargeDepth := 30) [hS]

@[simp] theorem Dev.beatLapse_sound (d : Dev) (hS : d.Sound) : (Dev.beatLapse d).Sound := by
  unfold Dev.beatLapse; split <;> simp +contextual (maxDischargeDepth := 30) [hS]

@[simp] theorem Dev.aliveAt_sound (d : Dev) (k : Nat) (hS : d.Sound) : (Dev.aliveAt d k).Sound := by
  simp [Dev.aliveAt, hS]

@[simp] theorem Dev.aliveTick_sound (d : Dev) (hS : d.Sound) : (Dev.aliveTick d).Sound := by
  simp [Dev.aliveTick, hS]

@[simp] theorem Dev.faultAssert_sound (d : Dev) (x : Desc) (hS : d.Sound) : (Dev.faultAssert d x).Sound := by
  simp (maxDischargeDepth := 30) [Dev.faultAssert, hS]

@[simp] theorem Dev.writeFlt_sound (d : Dev) (who : Requester) (off : Nat) (v : Word) (hS : d.Sound) : (Dev.writeFlt d who off v).Sound := by
  unfold Dev.writeFlt
  repeat' first
    | with_reducible exact hS
    | with_reducible refine Dev.fltW1c_sound _ _ _ _ ?_
    | with_reducible refine Dev.fltClass_sound _ _ _ _ ?_
    | with_reducible refine Dev.fltLock_sound _ _ ?_
    | with_reducible refine Dev.heartbeat_sound _ _ ?_
    | split
    | (simp only [Dev.sound_mk, SoundF_self]; exact hS)

end Sys2Proof.Machine
end

