-- ==== Sys2Proof/Laws/SoundPraline.lean ====
section
/-! SUPPORT. The operations of Machine/Praline.lean keep the device sound. -/

namespace Sys2Proof.Machine

@[simp] theorem Dev.hubTimeSend_sound (d : Dev) (hS : d.Sound) : (Dev.hubTimeSend d).Sound := by
  simp [Dev.hubTimeSend, hS]

@[simp] theorem Dev.statusLines_sound (d : Dev) (st : Nat) (hS : d.Sound) : (Dev.statusLines d st).Sound := by
  simp [Dev.statusLines, hS]

@[simp] theorem Dev.prlStatus_sound (d : Dev) (hS : d.Sound) : (Dev.prlStatus d).Sound := by
  simp [Dev.prlStatus, hS]

@[simp] theorem Dev.prlLink_sound (d : Dev) (hS : d.Sound) : (Dev.prlLink d).Sound := by
  simp [Dev.prlLink, hS]

@[simp] theorem Dev.uart_sound (d : Dev) (p : Prl) (reply : List Byte) (hS : d.Sound) : (Dev.uart d p reply).Sound := by
  simp [Dev.uart, hS]

@[simp] theorem Dev.uartId_sound (d : Dev) (hS : d.Sound) : (Dev.uartId d).Sound := by
  simp [Dev.uartId, hS]

@[simp] theorem Dev.uartStatus_sound (d : Dev) (hS : d.Sound) : (Dev.uartStatus d).Sound := by
  simp [Dev.uartStatus, hS]

@[simp] theorem Dev.uartRead_sound (d : Dev) (first : Nat) (n : Nat) (hS : d.Sound) : (Dev.uartRead d first n).Sound := by
  simp [Dev.uartRead, hS]

@[simp] theorem Dev.uartBlock_sound (d : Dev) (hS : d.Sound) : (Dev.uartBlock d).Sound := by
  simp [Dev.uartBlock, hS]

@[simp] theorem Dev.uartStage_sound (d : Dev) (good : Bool) (c : Nat × Nat × Nat) (hS : d.Sound) : (Dev.uartStage d good c).Sound := by
  simp [Dev.uartStage, hS]

@[simp] theorem Dev.uartMap_sound (d : Dev) (flow : Nat) (contract : Option Nat) (p : Nat) (hS : d.Sound) : (Dev.uartMap d flow contract p).Sound := by
  unfold Dev.uartMap; split <;> simp +contextual (maxDischargeDepth := 30) [hS]

@[simp] theorem Dev.uartRate_sound (d : Dev) (contract : Nat) (rate : Nat) (hS : d.Sound) : (Dev.uartRate d contract rate).Sound := by
  simp [Dev.uartRate, hS]

@[simp] theorem Dev.uartInterval_sound (d : Dev) (sec : Nat) (hS : d.Sound) : (Dev.uartInterval d sec).Sound := by
  simp [Dev.uartInterval, hS]

@[simp] theorem Dev.uartCommit_sound (d : Dev) (hS : d.Sound) : (Dev.uartCommit d).Sound := by
  simp [Dev.uartCommit, hS]

@[simp] theorem Dev.uartDiscard_sound (d : Dev) (hS : d.Sound) : (Dev.uartDiscard d).Sound := by
  simp [Dev.uartDiscard, hS]

@[simp] theorem Dev.mainLoss_sound (d : Dev) (hS : d.Sound) : (Dev.mainLoss d).Sound := by
  simp [Dev.mainLoss, hS]

@[simp] theorem Dev.mainReturn_sound (d : Dev) (hS : d.Sound) : (Dev.mainReturn d).Sound := by
  simp [Dev.mainReturn, hS]

@[simp] theorem Dev.prlPowerUp_sound (d : Dev) (keyOk : Bool) (hS : d.Sound) : (Dev.prlPowerUp d keyOk).Sound := by
  simp [Dev.prlPowerUp, hS]

@[simp] theorem Dev.onPrl_sound (d : Dev) (f : Prl → Prl) (hS : d.Sound) : (Dev.onPrl d f).Sound := by
  simp [Dev.onPrl, hS]

end Sys2Proof.Machine
end

