-- ==== Sys2Proof/Laws/SoundThreads.lean ====
section
/-! SUPPORT. The operations of Machine/Threads.lean keep the device sound. -/

namespace Sys2Proof.Machine

@[simp] theorem Dev.fold_sound (d : Dev) (t : Nat) (mask : Word) (hS : d.Sound) : (Dev.fold d t mask).Sound := by
  simp [Dev.fold, hS]

@[simp] theorem Dev.mergeFold_sound (d : Dev) (t : Nat) (hS : d.Sound) : (Dev.mergeFold d t).Sound := by
  simp [Dev.mergeFold, hS]

@[simp] theorem Dev.postFold_sound (d : Dev) (c : Nat) (hS : d.Sound) : (Dev.postFold d c).Sound := by
  unfold Dev.postFold; split <;> simp +contextual (maxDischargeDepth := 30) [hS]

@[simp] theorem Dev.entryReleased_sound (d : Dev) (fn : Nat) (status : Nat) (hS : d.Sound) : (Dev.entryReleased d fn status).Sound := by
  unfold Dev.entryReleased; split <;> simp +contextual (maxDischargeDepth := 30) [hS]

@[simp] theorem Dev.stallLine_sound (d : Dev) (hS : d.Sound) : (Dev.stallLine d).Sound := by
  simp [Dev.stallLine, hS]

@[simp] theorem Dev.releasePoster_sound (d : Dev) (p : Poster) (hS : d.Sound) : (Dev.releasePoster d p).Sound := by
  unfold Dev.releasePoster; split <;> simp +contextual (maxDischargeDepth := 30) [hS]

@[simp] theorem Dev.entryFree_sound (d : Dev) (c : Nat) (hS : d.Sound) : (Dev.entryFree d c).Sound := by
  unfold Dev.entryFree; split <;> simp +contextual (maxDischargeDepth := 30) [hS]

@[simp] theorem Dev.dispatchStall_sound (d : Dev) (hS : d.Sound) : (Dev.dispatchStall d).Sound := by
  unfold Dev.dispatchStall; dsimp only; (repeat' split) <;> simp +contextual (maxDischargeDepth := 30) [hS]

@[simp] theorem Dev.dispatch_sound (d : Dev) (c : Nat) (hS : d.Sound) : (Dev.dispatch d c).Sound := by
  unfold Dev.dispatch; (repeat' split) <;> simp +contextual (maxDischargeDepth := 30) [hS]

@[simp] theorem Dev.sliceEnd_sound (d : Dev) (c : Nat) (hS : d.Sound) : (Dev.sliceEnd d c).Sound := by
  unfold Dev.sliceEnd; split <;> simp +contextual (maxDischargeDepth := 30) [hS]

@[simp] theorem Dev.loadReturn_sound (d : Dev) (t : Nat) (hS : d.Sound) : (Dev.loadReturn d t).Sound := by
  unfold Dev.loadReturn; dsimp only; (repeat' split) <;> simp +contextual (maxDischargeDepth := 30) [hS]

@[simp] theorem Dev.fenceDone_sound (d : Dev) (t : Nat) (hS : d.Sound) : (Dev.fenceDone d t).Sound := by
  unfold Dev.fenceDone; dsimp only; (repeat' split) <;> simp +contextual (maxDischargeDepth := 30) [hS]

@[simp] theorem Dev.issueSpace_sound (d : Dev) (t : Nat) (hS : d.Sound) : (Dev.issueSpace d t).Sound := by
  unfold Dev.issueSpace; dsimp only; (repeat' split) <;> simp +contextual (maxDischargeDepth := 30) [hS]

@[simp] theorem Dev.waitTimeout_sound (d : Dev) (t : Nat) (hS : d.Sound) : (Dev.waitTimeout d t).Sound := by
  unfold Dev.waitTimeout; dsimp only; (repeat' split) <;> simp +contextual (maxDischargeDepth := 30) [hS]

end Sys2Proof.Machine
end

