-- ==== Sys2Proof/Laws/SoundPackager.lean ====
section
/-! SUPPORT. The operations of Machine/Packager.lean keep the device sound. -/

namespace Sys2Proof.Machine

@[simp] theorem Dev.sendPacket_sound (d0 : Dev) (k : Nat) (x : PktCtx) (fec : Bool) (dportOff : Nat) (body : List Byte) (hS : d0.Sound) : (Dev.sendPacket d0 k x fec dportOff body).Sound := by
  simp [Dev.sendPacket, hS]

@[simp] theorem Dev.feedFec_sound (d : Dev) (k : Nat) (x : PktCtx) (n : Nat) (ts : Nat) (pkt : List Byte) (hS : d.Sound) : (Dev.feedFec d k x n ts pkt).Sound := by
  simp (maxDischargeDepth := 30) [Dev.feedFec, hS]

@[simp] theorem Dev.sendMedia_sound (d : Dev) (k : Nat) (x : PktCtx) (marker : Bool) (ts : Nat) (body : List Byte) (hS : d.Sound) : (Dev.sendMedia d k x marker ts body).Sound := by
  simp (maxDischargeDepth := 30) [Dev.sendMedia, hS]

@[simp] theorem Dev.packKind0_sound (d : Dev) (k : Nat) (x : PktCtx) (c : Chan) (r : EsRec) (nals : List (List Byte)) (hS : d.Sound) : (Dev.packKind0 d k x c r nals).Sound := by
  simp +contextual (maxDischargeDepth := 30) [Dev.packKind0, hS]

@[simp] theorem Dev.stampPcr_sound (d : Dev) (hS : d.Sound) : (Dev.stampPcr d).Sound := by
  unfold Dev.stampPcr; (repeat' split) <;> simp +contextual (maxDischargeDepth := 30) [hS]

@[simp] theorem Dev.putTs_sound (d : Dev) (k : Nat) (x : PktCtx) (c : Chan) (pkt : List Byte) (hS : d.Sound) : (Dev.putTs d k x c pkt).Sound := by
  simp [Dev.putTs, hS]

@[simp] theorem Dev.padTs_sound (d : Dev) (k : Nat) (x : PktCtx) (c : Chan) (hS : d.Sound) : (Dev.padTs d k x c).Sound := by
  simp [Dev.padTs, hS]

@[simp] theorem Dev.padTsN_sound (d : Dev) (k : Nat) (x : PktCtx) (c : Chan) (n : Nat) (hS : d.Sound) : (Dev.padTsN d k x c n).Sound := by
  simp +contextual (maxDischargeDepth := 30) [Dev.padTsN, hS]

@[simp] theorem Dev.putSection_sound (d : Dev) (k : Nat) (x : PktCtx) (c : Chan) (pid : Nat) (sec : List Byte) (hS : d.Sound) : (Dev.putSection d k x c pid sec).Sound := by
  simp [Dev.putSection, hS]

@[simp] theorem Dev.putPes_sound (k : Nat) (x : PktCtx) (c : Chan) (fuel : Nat) :
    ∀ (b : Bool) (bs : List Byte) (d : Dev), d.Sound → (Dev.putPes k x c fuel b bs d).Sound := by
  induction fuel with
  | zero => exact fun _ _ _ h => h
  | succ fuel ih =>
    intro b bs d h
    unfold Dev.putPes
    split
    · exact h
    · exact ih _ _ _ (Dev.putTs_sound _ _ _ _ _ (Dev.putFlowAt_sound _ _ _ h))

@[simp] theorem Dev.startPes_sound (d : Dev) (k : Nat) (x : PktCtx) (c : Chan) (r : EsRec) (hS : d.Sound) : (Dev.startPes d k x c r).Sound := by
  simp +contextual (maxDischargeDepth := 30) [Dev.startPes, hS]

@[simp] theorem Dev.packTs_sound (d : Dev) (k : Nat) (x : PktCtx) (c : Chan) (r : EsRec) (nals : List (List Byte)) (hS : d.Sound) : (Dev.packTs d k x c r nals).Sound := by
  simp (maxDischargeDepth := 30) [Dev.packTs, hS]

@[simp] theorem Dev.spliceDue_sound (d : Dev) (k : Nat) (m : Nat) (hS : d.Sound) : (Dev.spliceDue d k m).Sound := by
  simp +contextual (maxDischargeDepth := 30) [Dev.spliceDue, hS]

@[simp] theorem Dev.packetise_sound (d : Dev) (n : Nat) (hS : d.Sound) : (Dev.packetise d n).Sound := by
  unfold Dev.packetise; dsimp only; (repeat' split) <;> simp +contextual (maxDischargeDepth := 30) [hS]

@[simp] theorem Dev.forwardAudio_sound (d : Dev) (k : Nat) (hS : d.Sound) : (Dev.forwardAudio d k).Sound := by
  unfold Dev.forwardAudio; dsimp only; (repeat' split) <;> simp +contextual (maxDischargeDepth := 30) [hS]

@[simp] theorem Dev.pkgConfigure_sound (d : Dev) (x : Desc) (hS : d.Sound) : (Dev.pkgConfigure d x).Sound := by
  simp (maxDischargeDepth := 30) [Dev.pkgConfigure, hS]

@[simp] theorem Dev.pkgRelease_sound (d : Dev) (x : Desc) (hS : d.Sound) : (Dev.pkgRelease d x).Sound := by
  simp (maxDischargeDepth := 30) [Dev.pkgRelease, hS]

@[simp] theorem Dev.pkgSplice_sound (d : Dev) (x : Desc) (hS : d.Sound) : (Dev.pkgSplice d x).Sound := by
  simp [Dev.pkgSplice, hS]

@[simp] theorem Dev.writePkg_sound (d : Dev) (who : Requester) (off : Nat) (v : Word) (hS : d.Sound) : (Dev.writePkg d who off v).Sound := by
  simp [Dev.writePkg, hS]

end Sys2Proof.Machine
end

