-- ==== Sys2Proof/Laws/SoundTraffic.lean ====
section
/-! SUPPORT. The operations of Machine/Traffic.lean keep the device sound. -/

namespace Sys2Proof.Machine

@[simp] theorem Dev.discardPort_sound (d : Dev) (p : Nat) (hS : d.Sound) : (Dev.discardPort d p).Sound := by
  simp [Dev.discardPort, hS]

@[simp] theorem Dev.popQueue_sound (d : Dev) (n : Nat) (hS : d.Sound) : (Dev.popQueue d n).Sound := by
  simp [Dev.popQueue, hS]

@[simp] theorem Dev.dropLong_sound (p fuel : Nat) : ∀ d : Dev, d.Sound → (Dev.dropLong p fuel d).Sound := by
  induction fuel with
  | zero => exact fun _ h => h
  | succ fuel ih =>
    intro d h
    unfold Dev.dropLong
    dsimp only
    split
    · exact ih _ (by simp (maxDischargeDepth := 30) [h])
    · exact h

@[simp] theorem Dev.startPacket_sound (d : Dev) (p : Nat) (c : Nat) (n : Nat) (v : Nat) (hS : d.Sound) : (Dev.startPacket d p c n v).Sound := by
  unfold Dev.startPacket; dsimp only; (repeat' split) <;> simp +contextual (maxDischargeDepth := 30) [hS]

@[simp] theorem Dev.drr_sound (p k : Nat) : ∀ d : Dev, d.Sound → (Dev.drr p k d).Sound := by
  induction k with
  | zero => exact fun _ h => h
  | succ k ih =>
    intro d h
    unfold Dev.drr
    dsimp only
    (repeat' split) <;> first
      | exact ih _ (Dev.putPortAt_sound _ _ _ h)
      | exact Dev.startPacket_sound _ _ _ _ _ (Dev.putPortAt_sound _ _ _ h)

@[simp] theorem Dev.schedule_sound (d : Dev) (p : Nat) (hS : d.Sound) : (Dev.schedule d p).Sound := by
  unfold Dev.schedule; dsimp only; (repeat' split) <;> simp +contextual (maxDischargeDepth := 30) [hS]

@[simp] theorem Dev.enqueue_sound (d : Dev) (hS : d.Sound) : (Dev.enqueue d).Sound := by
  unfold Dev.enqueue; split <;> simp +contextual (maxDischargeDepth := 30) [hS]

@[simp] theorem Dev.applyPort_sound (d : Dev) (x : Desc) (hS : d.Sound) : (Dev.applyPort d x).Sound := by
  simp (maxDischargeDepth := 30) [Dev.applyPort, hS]

@[simp] theorem Dev.txDone_sound (d : Dev) (p : Nat) (hS : d.Sound) : (Dev.txDone d p).Sound := by
  unfold Dev.txDone; dsimp only; (repeat' split) <;> simp +contextual (maxDischargeDepth := 30) [hS]

@[simp] theorem Dev.paceSlot_sound (d : Dev) (n : Nat) (hS : d.Sound) : (Dev.paceSlot d n).Sound := by
  unfold Dev.paceSlot; dsimp only; (repeat' split) <;> simp +contextual (maxDischargeDepth := 30) [hS]

@[simp] theorem Dev.shaperZero_sound (d : Dev) (isClass : Bool) (i : Nat) (c : Nat) (hS : d.Sound) : (Dev.shaperZero d isClass i c).Sound := by
  simp [Dev.shaperZero, hS]

@[simp] theorem Dev.gateStart_sound (d : Dev) (p : Nat) (hS : d.Sound) : (Dev.gateStart d p).Sound := by
  unfold Dev.gateStart; dsimp only; (repeat' split) <;> simp +contextual (maxDischargeDepth := 30) [hS]

@[simp] theorem Dev.gateEntry_sound (d : Dev) (p : Nat) (hS : d.Sound) : (Dev.gateEntry d p).Sound := by
  simp [Dev.gateEntry, hS]

@[simp] theorem Dev.ingress_sound (d : Dev) (p : Nat) (f : InFrame) (hS : d.Sound) : (Dev.ingress d p f).Sound := by
  unfold Dev.ingress; dsimp only; (repeat' split) <;> simp +contextual (maxDischargeDepth := 30) [hS]

@[simp] theorem Dev.tmQueue_sound (d : Dev) (x : Desc) (hS : d.Sound) : (Dev.tmQueue d x).Sound := by
  simp (maxDischargeDepth := 30) [Dev.tmQueue, hS]

@[simp] theorem Dev.tmShape_sound (d : Dev) (x : Desc) (hS : d.Sound) : (Dev.tmShape d x).Sound := by
  simp [Dev.tmShape, hS]

@[simp] theorem Dev.applyShape_sound (d : Dev) (p : Pend) (hS : d.Sound) : (Dev.applyShape d p).Sound := by
  simp [Dev.applyShape, hS]

@[simp] theorem Dev.shapeDue_sound (d : Dev) (hS : d.Sound) : (Dev.shapeDue d).Sound := by
  simp +contextual (maxDischargeDepth := 30) [Dev.shapeDue, hS]

@[simp] theorem Dev.tmPort_sound (d : Dev) (x : Desc) (hS : d.Sound) : (Dev.tmPort d x).Sound := by
  simp (maxDischargeDepth := 30) [Dev.tmPort, hS]

@[simp] theorem Dev.tmGate_sound (d : Dev) (x : Desc) (hS : d.Sound) : (Dev.tmGate d x).Sound := by
  unfold Dev.tmGate; dsimp only; (repeat' split) <;> simp +contextual (maxDischargeDepth := 30) [hS]

@[simp] theorem Dev.tmPolicer_sound (d : Dev) (x : Desc) (hS : d.Sound) : (Dev.tmPolicer d x).Sound := by
  simp (maxDischargeDepth := 30) [Dev.tmPolicer, hS]

@[simp] theorem Dev.tmRelease_sound (d : Dev) (x : Desc) (hS : d.Sound) : (Dev.tmRelease d x).Sound := by
  simp (maxDischargeDepth := 30) [Dev.tmRelease, hS]

@[simp] theorem Dev.tmIslandReset_sound (d : Dev) (tileB : Bool) (hS : d.Sound) : (Dev.tmIslandReset d tileB).Sound := by
  simp [Dev.tmIslandReset, hS]

@[simp] theorem Dev.writeTm_sound (d : Dev) (who : Requester) (off : Nat) (v : Word) (hS : d.Sound) : (Dev.writeTm d who off v).Sound := by
  unfold Dev.writeTm; (repeat' split) <;> simp +contextual (maxDischargeDepth := 30) [hS]

end Sys2Proof.Machine
end

