-- ==== Sys2Proof/Laws/SoundTwin.lean ====
section
/-! SUPPORT. The operations of Machine/Twin.lean keep the device sound. -/

namespace Sys2Proof.Machine

@[simp] theorem Dev.heard_sound (d : Dev) (hS : d.Sound) : (Dev.heard d).Sound := by
  simp [Dev.heard, hS]

@[simp] theorem Dev.fromPartner_sound (d : Dev) (f : Dev → Dev) (h : d.Sound) (hf : ∀ e, e.Sound → (f e).Sound) : (d.fromPartner f).Sound := by
  unfold Dev.fromPartner
  split
  · exact h
  · exact hf _ (by simp [h])

@[simp] theorem Dev.setPair_sound (d : Dev) (st : PairState) (hS : d.Sound) : (Dev.setPair d st).Sound := by
  simp [Dev.setPair, hS]

@[simp] theorem Dev.releaseFor_sound (d : Dev) (p : Pend) (hS : d.Sound) : (Dev.releaseFor d p).Sound := by
  unfold Dev.releaseFor; (repeat' split) <;> simp +contextual (maxDischargeDepth := 30) [hS]

@[simp] theorem Dev.endUnmatched_sound (d : Dev) (ps : List Pend) (status : Nat) (hS : d.Sound) : (Dev.endUnmatched d ps status).Sound := by
  simp +contextual (maxDischargeDepth := 30) [Dev.endUnmatched, hS]

@[simp] theorem Dev.splitWaiting_sound (d : Dev) (hS : d.Sound) : (Dev.splitWaiting d).Sound := by
  simp +contextual (maxDischargeDepth := 30) [Dev.splitWaiting, hS]

@[simp] theorem Dev.judgeAlone_sound (d : Dev) (hS : d.Sound) : (Dev.judgeAlone d).Sound := by
  simp +contextual (maxDischargeDepth := 30) [Dev.judgeAlone, hS]

@[simp] theorem Dev.partition_sound (d : Dev) (hS : d.Sound) : (Dev.partition d).Sound := by
  simp +contextual (maxDischargeDepth := 30) [Dev.partition, hS]

@[simp] theorem Dev.setTwinLanes_sound (d : Dev) (ls : List Nat) (hS : d.Sound) : (Dev.setTwinLanes d ls).Sound := by
  simp [Dev.setTwinLanes, hS]

@[simp] theorem Dev.rejoin_sound (d : Dev) (n : Nat) (hS : d.Sound) : (Dev.rejoin d n).Sound := by
  unfold Dev.rejoin; dsimp only; (repeat' split) <;> simp +contextual (maxDischargeDepth := 30) [hS]

@[simp] theorem Dev.capsDone_sound (d : Dev) (l : Nat) (lanes : List Nat) (hS : d.Sound) : (Dev.capsDone d l lanes).Sound := by
  simp +contextual (maxDischargeDepth := 30) [Dev.capsDone, hS]

@[simp] theorem Dev.pairAccepted_sound (d : Dev) (r : PairingRecord) (rejoins : Bool) (hS : d.Sound) : (Dev.pairAccepted d r rejoins).Sound := by
  simp +contextual (maxDischargeDepth := 30) [Dev.pairAccepted, hS]

@[simp] theorem Dev.judgePairing_sound (d : Dev) (r : PairingRecord) (hS : d.Sound) : (Dev.judgePairing d r).Sound := by
  simp (maxDischargeDepth := 30) [Dev.judgePairing, hS]

@[simp] theorem Dev.pairing_sound (d : Dev) (r : PairingRecord) (hS : d.Sound) : (Dev.pairing d r).Sound := by
  simp [Dev.pairing, hS]

@[simp] theorem Dev.channelState_sound (d : Dev) (n : Nat) (code : Nat) (dig : BitVec 64) (hS : d.Sound) : (Dev.channelState d n code dig).Sound := by
  simp [Dev.channelState, hS]

@[simp] theorem Dev.streamMap_sound (d : Dev) (i : Nat) (held : List Nat) (hS : d.Sound) : (Dev.streamMap d i held).Sound := by
  unfold Dev.streamMap; split <;> simp +contextual (maxDischargeDepth := 30) [hS]

@[simp] theorem Dev.mapRx_sound (d : Dev) (i : Nat) (held : List Nat) (anc : List Nat) (hS : d.Sound) : (Dev.mapRx d i held anc).Sound := by
  simp +contextual (maxDischargeDepth := 30) [Dev.mapRx, hS]

@[simp] theorem Dev.countFetch_sound (d : Dev) (hS : d.Sound) : (Dev.countFetch d).Sound := by
  simp [Dev.countFetch, hS]

@[simp] theorem Dev.fetchVideo_sound (d : Dev) (i : Nat) (p : VideoPkt) (hS : d.Sound) : (Dev.fetchVideo d i p).Sound := by
  unfold Dev.fetchVideo; dsimp only; (repeat' split) <;> simp +contextual (maxDischargeDepth := 30) [hS]

@[simp] theorem Dev.fetchAnc_sound (d : Dev) (i : Nat) (p : AncPkt) (hS : d.Sound) : (Dev.fetchAnc d i p).Sound := by
  simp (maxDischargeDepth := 30) [Dev.fetchAnc, hS]

@[simp] theorem Dev.fetchDec_sound (d : Dev) (i : Nat) (p : DecPkt) (hS : d.Sound) : (Dev.fetchDec d i p).Sound := by
  unfold Dev.fetchDec; split <;> simp +contextual (maxDischargeDepth := 30) [hS]

@[simp] theorem Dev.fetchRx_sound (d : Dev) (i : Nat) (x : FetchItem) (hS : d.Sound) : (Dev.fetchRx d i x).Sound := by
  unfold Dev.fetchRx; (repeat' split) <;> simp +contextual (maxDischargeDepth := 30) [hS]

@[simp] theorem Dev.seniorStamp_sound (d : Dev) (i : Nat) (stamp : Nat) (hS : d.Sound) : (Dev.seniorStamp d i stamp).Sound := by
  unfold Dev.seniorStamp; dsimp only; (repeat' split) <;> simp +contextual (maxDischargeDepth := 30) [hS]

@[simp] theorem Dev.verdictRx_sound (d : Dev) (i : Nat) (line : Nat) (present : Bool) (stamp : Nat) (hS : d.Sound) : (Dev.verdictRx d i line present stamp).Sound := by
  unfold Dev.verdictRx; dsimp only; (repeat' split) <;> simp +contextual (maxDischargeDepth := 30) [hS]

@[simp] theorem Dev.digestRx_sound (d : Dev) (i : Nat) (mt : Nat) (dig : BitVec 64) (hS : d.Sound) : (Dev.digestRx d i mt dig).Sound := by
  unfold Dev.digestRx; dsimp only; (repeat' split) <;> simp +contextual (maxDischargeDepth := 30) [hS]

@[simp] theorem Dev.answerInternal_sound (d : Dev) (unit : Nat) (op : Nat) (obj : Nat) (user : Nat) (hS : d.Sound) : (Dev.answerInternal d unit op obj user).Sound := by
  simp [Dev.answerInternal, hS]

@[simp] theorem Dev.proposalRx_sound (d : Dev) (unit : Nat) (op : Nat) (obj : Nat) (user : Nat) (mt : Nat) (ctx : BitVec 64) (hS : d.Sound) : (Dev.proposalRx d unit op obj user mt ctx).Sound := by
  simp [Dev.proposalRx, hS]

@[simp] theorem Dev.matchTimeout_sound (d : Dev) (hS : d.Sound) : (Dev.matchTimeout d).Sound := by
  simp +contextual (maxDischargeDepth := 30) [Dev.matchTimeout, hS]

@[simp] theorem Dev.missRx_sound (d : Dev) (n : Nat) (mt : Nat) (k : Nat) (hS : d.Sound) : (Dev.missRx d n mt k).Sound := by
  simp [Dev.missRx, hS]

@[simp] theorem Dev.shedRx_sound (d : Dev) (n : Nat) (mt : Nat) (hS : d.Sound) : (Dev.shedRx d n mt).Sound := by
  simp [Dev.shedRx, hS]

@[simp] theorem Dev.snapshotRx_sound (d : Dev) (n : Nat) (mt : Nat) (complete : Bool) (snap : Chan) (numbering : Flow) (refs : List Byte) (hS : d.Sound) : (Dev.snapshotRx d n mt complete snap numbering refs).Sound := by
  simp [Dev.snapshotRx, hS]

@[simp] theorem Dev.linkDead_sound (d : Dev) (hS : d.Sound) : (Dev.linkDead d).Sound := by
  simp [Dev.linkDead, hS]

@[simp] theorem Dev.partnerHalt_sound (d : Dev) (halt : Bool) (hS : d.Sound) : (Dev.partnerHalt d halt).Sound := by
  simp [Dev.partnerHalt, hS]

@[simp] theorem Dev.channelNotice_sound (d : Dev) (n : Nat) (x : ChanNotice) (h : d.Sound) : (d.channelNotice n x).Sound := by
  cases x with
  | shed mt => simp [Dev.channelNotice, h]
  | state code dig => simp [Dev.channelNotice, h]
  | resync mt => unfold Dev.channelNotice; split <;> simp [h]

@[simp] theorem Dev.twinConfigure_sound (d : Dev) (x : Desc) (hS : d.Sound) : (Dev.twinConfigure d x).Sound := by
  simp (maxDischargeDepth := 30) [Dev.twinConfigure, hS]

@[simp] theorem Dev.twinStop_sound (d : Dev) (hS : d.Sound) : (Dev.twinStop d).Sound := by
  simp (maxDischargeDepth := 30) [Dev.twinStop, hS]

@[simp] theorem Dev.twinUnpair_sound (d : Dev) (x : Desc) (hS : d.Sound) : (Dev.twinUnpair d x).Sound := by
  simp (maxDischargeDepth := 30) [Dev.twinUnpair, hS]

@[simp] theorem Dev.twinResync_sound (d : Dev) (x : Desc) (hS : d.Sound) : (Dev.twinResync d x).Sound := by
  simp (maxDischargeDepth := 30) [Dev.twinResync, hS]

@[simp] theorem Dev.writeTwin_sound (d : Dev) (who : Requester) (off : Nat) (v : Word) (hS : d.Sound) : (Dev.writeTwin d who off v).Sound := by
  simp [Dev.writeTwin, hS]

end Sys2Proof.Machine
end

