-- ==== Sys2Proof/Laws/SoundHostIf.lean ====
section
/-! SUPPORT. The operations of Machine/HostIf.lean keep the device sound. -/

namespace Sys2Proof.Machine

@[simp] theorem Dev.submitLine_sound (d : Dev) (hS : d.Sound) : (Dev.submitLine d).Sound := by
  simp [Dev.submitLine, hS]

@[simp] theorem Dev.checkTail_sound (d : Dev) (fn : Nat) (hS : d.Sound) : (Dev.checkTail d fn).Sound := by
  simp (maxDischargeDepth := 30) [Dev.checkTail, hS]

@[simp] theorem Dev.sqTail_sound (d : Dev) (who : Requester) (fn : Nat) (v : Word) (hS : d.Sound) : (Dev.sqTail d who fn v).Sound := by
  simp [Dev.sqTail, hS]

@[simp] theorem Dev.cqHead_sound (d : Dev) (who : Requester) (fn : Nat) (v : Word) (hS : d.Sound) : (Dev.cqHead d who fn v).Sound := by
  simp [Dev.cqHead, hS]

@[simp] theorem Dev.coalesceEnd_sound (d : Dev) (fn : Nat) (hS : d.Sound) : (Dev.coalesceEnd d fn).Sound := by
  unfold Dev.coalesceEnd; split <;> simp +contextual (maxDischargeDepth := 30) [hS]

@[simp] theorem Dev.ringOn_sound (d : Dev) (who : Requester) (fn : Nat) (hS : d.Sound) : (Dev.ringOn d who fn).Sound := by
  simp (maxDischargeDepth := 30) [Dev.ringOn, hS]

@[simp] theorem Dev.ringOff_sound (d : Dev) (who : Requester) (fn : Nat) (hS : d.Sound) : (Dev.ringOff d who fn).Sound := by
  simp [Dev.ringOff, hS]

@[simp] theorem Dev.entryDone_sound (d : Dev) (fn : Nat) (kind : Nat) (tag : Nat) (status : Nat) (hS : d.Sound) : (Dev.entryDone d fn kind tag status).Sound := by
  simp [Dev.entryDone, hS]

@[simp] theorem Dev.postEntry_sound (d : Dev) (fn : Nat) (tag : Nat) (target : Nat) (mask : Word) (hS : d.Sound) : (Dev.postEntry d fn tag target mask).Sound := by
  simp [Dev.postEntry, hS]

@[simp] theorem Dev.takeEntry_sound (d : Dev) (fn : Nat) (e : List Byte) (hS : d.Sound) : (Dev.takeEntry d fn e).Sound := by
  unfold Dev.takeEntry; dsimp only; (repeat' split) <;> simp +contextual (maxDischargeDepth := 30) [hS]

@[simp] theorem Dev.fetchEntry_sound (d : Dev) (fn : Nat) (entry : List Byte) (hS : d.Sound) : (Dev.fetchEntry d fn entry).Sound := by
  unfold Dev.fetchEntry; dsimp only; (repeat' split) <;> simp +contextual (maxDischargeDepth := 30) [hS]

@[simp] theorem BytesOk.load (m : Tab Byte) (base : Nat) (image : List Byte) (h : BytesOk m) : BytesOk (loadImage m base image) :=
  writeBytes_wf _ _ _ (Tab.wf_filter h _)

@[simp] theorem Dev.loadThread_sound (d : Dev) (t : Nat) (x : Thread) (image : List Byte) (h : d.Sound) : (d.loadThread t x image).Sound := by
  unfold Dev.loadThread
  dsimp only
  split
  · exact ⟨h.1, BytesOk.load _ _ _ h.2.1, h.2.2⟩
  · refine Dev.spillRegs_sound _ _ ⟨?_, h.2.1, h.2.2⟩
    show BytesOk (ite _ _ _)
    split
    · exact BytesOk.load _ _ _ h.1
    · exact BytesOk.memPut _ _ _ h

@[simp] theorem Dev.readImage_sound (d : Dev) (e : List Byte) (hS : d.Sound) : (Dev.readImage d e).Sound := by
  simp [Dev.readImage, hS]

@[simp] theorem Dev.startProgram_sound (d : Dev) (fn : Nat) (image : List Byte) (hS : d.Sound) : (Dev.startProgram d fn image).Sound := by
  unfold Dev.startProgram; split <;> simp +contextual (maxDischargeDepth := 30) [hS]

@[simp] theorem Dev.aerReport_sound (d : Dev) (fn : Nat) (bit : Nat) (hS : d.Sound) : (Dev.aerReport d fn bit).Sound := by
  simp [Dev.aerReport, hS]

@[simp] theorem Dev.imageFail_sound (d : Dev) (fn : Nat) (f : ImageFail) (hS : d.Sound) : (Dev.imageFail d fn f).Sound := by
  unfold Dev.imageFail; split <;> simp +contextual (maxDischargeDepth := 30) [hS]

@[simp] theorem Dev.setOwner_sound (d : Dev) (who : Requester) (v : Word) (hS : d.Sound) : (Dev.setOwner d who v).Sound := by
  simp [Dev.setOwner, hS]

@[simp] theorem Dev.resyncReq_sound (d : Dev) (who : Requester) (hS : d.Sound) : (Dev.resyncReq d who).Sound := by
  simp [Dev.resyncReq, hS]

@[simp] theorem Dev.serveResync_sound (d : Dev) (good : Bool) (hS : d.Sound) : (Dev.serveResync d good).Sound := by
  simp [Dev.serveResync, hS]

@[simp] theorem Dev.bar4Byte_sound (d : Dev) (a : Nat) (b : Byte) (hS : d.Sound) : (Dev.bar4Byte d a b).Sound := by
  simp [Dev.bar4Byte, hS]

@[simp] theorem Dev.unpoison_sound (d : Dev) (as : List Nat) (hS : d.Sound) : (Dev.unpoison d as).Sound := by
  simp [Dev.unpoison, hS]

@[simp] theorem Dev.bar4_sound (d : Dev) (write : Bool) (addr : Nat) (data : List Byte) (en : List Bool) (hS : d.Sound) : (Dev.bar4 d write addr data en).Sound := by
  simp +contextual (maxDischargeDepth := 30) [Dev.bar4, hS]

end Sys2Proof.Machine
end

