-- ==== Sys2Proof/Laws/SoundLanes.lean ====
section
/-! SUPPORT. The operations of Machine/Lanes.lean keep the device sound. -/

namespace Sys2Proof.Machine

@[simp] theorem Dev.portLine_sound (d : Dev) (hS : d.Sound) : (Dev.portLine d).Sound := by
  simp [Dev.portLine, hS]

@[simp] theorem Dev.enterTrain_sound (d : Dev) (first : Nat) (hS : d.Sound) : (Dev.enterTrain d first).Sound := by
  simp +contextual (maxDischargeDepth := 30) [Dev.enterTrain, hS]

@[simp] theorem Dev.enterStage_sound (d : Dev) (first : Nat) (st : Stage) (hS : d.Sound) : (Dev.enterStage d first st).Sound := by
  unfold Dev.enterStage; dsimp only; (repeat' split) <;> simp +contextual (maxDischargeDepth := 30) [hS]

@[simp] theorem Dev.passStage_sound (d : Dev) (l : Nat) (first : Nat) (hS : d.Sound) : (Dev.passStage d l first).Sound := by
  simp [Dev.passStage, hS]

@[simp] theorem Dev.failStage_sound (d : Dev) (first : Nat) (hS : d.Sound) : (Dev.failStage d first).Sound := by
  simp +contextual (maxDischargeDepth := 30) [Dev.failStage, hS]

@[simp] theorem Dev.detectPoll_sound (d : Dev) (l : Nat) (f : DetectFacts) (hS : d.Sound) : (Dev.detectPoll d l f).Sound := by
  unfold Dev.detectPoll; split <;> simp +contextual (maxDischargeDepth := 30) [hS]

@[simp] theorem Dev.stagePass_sound (d : Dev) (l : Nat) (f : LaneFacts) (hS : d.Sound) : (Dev.stagePass d l f).Sound := by
  unfold Dev.stagePass; (repeat' split) <;> simp +contextual (maxDischargeDepth := 30) [hS]

@[simp] theorem Dev.stageTimeout_sound (d : Dev) (l : Nat) (hS : d.Sound) : (Dev.stageTimeout d l).Sound := by
  unfold Dev.stageTimeout; split <;> simp +contextual (maxDischargeDepth := 30) [hS]

@[simp] theorem Dev.bringupRetry_sound (d : Dev) (l : Nat) (hS : d.Sound) : (Dev.bringupRetry d l).Sound := by
  unfold Dev.bringupRetry; (repeat' split) <;> simp +contextual (maxDischargeDepth := 30) [hS]

@[simp] theorem Dev.portLoss_sound (d : Dev) (first : Nat) (energy : Bool) (hS : d.Sound) : (Dev.portLoss d first energy).Sound := by
  simp +contextual (maxDischargeDepth := 30) [Dev.portLoss, hS]

@[simp] theorem Dev.countLoss_sound (d : Dev) (l : Nat) (hS : d.Sound) : (Dev.countLoss d l).Sound := by
  simp [Dev.countLoss, hS]

@[simp] theorem Dev.lockLoss_sound (d : Dev) (l : Nat) (energy : Bool) (hS : d.Sound) : (Dev.lockLoss d l energy).Sound := by
  unfold Dev.lockLoss; (repeat' split) <;> simp +contextual (maxDischargeDepth := 30) [hS]

@[simp] theorem Dev.laneReadmit_sound (d : Dev) (l : Nat) (blockErr : Bool) (hS : d.Sound) : (Dev.laneReadmit d l blockErr).Sound := by
  unfold Dev.laneReadmit; split <;> simp +contextual (maxDischargeDepth := 30) [hS]

@[simp] theorem Dev.eqCacheWrite_sound (d : Dev) (l : Nat) (f : LaneFacts) (hS : d.Sound) : (Dev.eqCacheWrite d l f).Sound := by
  unfold Dev.eqCacheWrite; split <;> simp +contextual (maxDischargeDepth := 30) [hS]

@[simp] theorem Dev.eqCacheDrop_sound (d : Dev) (l : Nat) (hS : d.Sound) : (Dev.eqCacheDrop d l).Sound := by
  simp [Dev.eqCacheDrop, hS]

@[simp] theorem Dev.rawAtom_sound (d : Dev) (l : Nat) (bs : List Byte) (hS : d.Sound) : (Dev.rawAtom d l bs).Sound := by
  unfold Dev.rawAtom; split <;> simp +contextual (maxDischargeDepth := 30) [hS]

@[simp] theorem Dev.slip_sound (d : Dev) (who : Requester) (l : Nat) (v : Word) (hS : d.Sound) : (Dev.slip d who l v).Sound := by
  unfold Dev.slip
  repeat' first
    | with_reducible exact hS
    | with_reducible refine Dev.modLaneAt_sound _ _ _ ?_
    | split
    | (simp only [Dev.sound_mk, SoundF_self]; exact hS)

@[simp] theorem Dev.prbsBits_sound (d : Dev) (l : Nat) (rx : List Bool) (hS : d.Sound) : (Dev.prbsBits d l rx).Sound := by
  unfold Dev.prbsBits; split <;> simp +contextual (maxDischargeDepth := 30) [hS]

@[simp] theorem Dev.laneConfigure_sound (d : Dev) (x : Desc) (hS : d.Sound) : (Dev.laneConfigure d x).Sound := by
  simp (maxDischargeDepth := 30) [Dev.laneConfigure, hS]

@[simp] theorem Dev.dropGroup_sound (d : Dev) (first : Nat) (hS : d.Sound) : (Dev.dropGroup d first).Sound := by
  simp (maxDischargeDepth := 30) [Dev.dropGroup, hS]

@[simp] theorem Dev.laneRelease_sound (d : Dev) (x : Desc) (hS : d.Sound) : (Dev.laneRelease d x).Sound := by
  simp (maxDischargeDepth := 30) [Dev.laneRelease, hS]

@[simp] theorem Dev.groupIdle_sound (d : Dev) (first : Nat) (dormant : Bool) (hS : d.Sound) : (Dev.groupIdle d first dormant).Sound := by
  simp +contextual (maxDischargeDepth := 30) [Dev.groupIdle, hS]

@[simp] theorem Dev.groupWake_sound (d : Dev) (first : Nat) (hS : d.Sound) : (Dev.groupWake d first).Sound := by
  simp +contextual (maxDischargeDepth := 30) [Dev.groupWake, hS]

@[simp] theorem Dev.laneIdle_sound (d : Dev) (x : Desc) (hS : d.Sound) : (Dev.laneIdle d x).Sound := by
  simp (maxDischargeDepth := 30) [Dev.laneIdle, hS]

@[simp] theorem Dev.laneTest_sound (d : Dev) (x : Desc) (hS : d.Sound) : (Dev.laneTest d x).Sound := by
  simp (maxDischargeDepth := 30) [Dev.laneTest, hS]

@[simp] theorem Dev.ptpRx_sound (d : Dev) (p : Nat) (m : PtpMsg) (hS : d.Sound) : (Dev.ptpRx d p m).Sound := by
  unfold Dev.ptpRx; split <;> simp +contextual (maxDischargeDepth := 30) [hS]

@[simp] theorem Dev.ptpTx_sound (d : Dev) (p : Nat) (m : PtpMsg) (hS : d.Sound) : (Dev.ptpTx d p m).Sound := by
  unfold Dev.ptpTx; split <;> simp +contextual (maxDischargeDepth := 30) [hS]

@[simp] theorem Dev.writeLane_sound (d : Dev) (who : Requester) (l : Nat) (off : Nat) (v : Word) (hS : d.Sound) : (Dev.writeLane d who l off v).Sound := by
  unfold Dev.writeLane; split <;> simp +contextual (maxDischargeDepth := 30) [hS]

end Sys2Proof.Machine
end

