-- ==== Sys2Proof/Laws/SoundMemCtl.lean ====
section
/-! SUPPORT. The operations of Machine/MemCtl.lean keep the device sound. -/

namespace Sys2Proof.Machine

@[simp] theorem Dev.poisonAtom_sound (d : Dev) (m : Nat) (a : Nat) (hS : d.Sound) : (Dev.poisonAtom d m a).Sound := by
  simp [Dev.poisonAtom, hS]

@[simp] theorem Dev.eccResult_sound (d : Dev) (m : Nat) (a : Nat) (write : Bool) (scrub : Bool) (e : AtomErr) (hS : d.Sound) : (Dev.eccResult d m a write scrub e).Sound := by
  simp [Dev.eccResult, hS]

@[simp] theorem Dev.crcResult_sound (d : Dev) (m : Nat) (k : Nat) (n : Nat) (hS : d.Sound) : (Dev.crcResult d m k n).Sound := by
  unfold Dev.crcResult
  dsimp only
  repeat' first
    | with_reducible exact hS
    | with_reducible refine Dev.modMcAt_sound _ _ _ ?_
    | with_reducible refine Dev.raise_sound _ _ ?_
    | with_reducible refine Dev.setLine_sound _ _ _ ?_
    | split
    | (simp only [Dev.sound_mk, SoundF_self]; exact hS)

@[simp] theorem Dev.retrainDone_sound (d : Dev) (m : Nat) (k : Nat) (hS : d.Sound) : (Dev.retrainDone d m k).Sound := by
  simp [Dev.retrainDone, hS]

@[simp] theorem Dev.refreshDue_sound (d : Dev) (m : Nat) (k : Nat) (hS : d.Sound) : (Dev.refreshDue d m k).Sound := by
  simp [Dev.refreshDue, hS]

@[simp] theorem Dev.issueRefresh_sound (d : Dev) (m : Nat) (k : Nat) (bank : Nat) (hS : d.Sound) : (Dev.issueRefresh d m k bank).Sound := by
  simp [Dev.issueRefresh, hS]

@[simp] theorem Dev.forcedRefresh_sound (d : Dev) (m : Nat) (k : Nat) (hS : d.Sound) : (Dev.forcedRefresh d m k).Sound := by
  unfold Dev.forcedRefresh; dsimp only; (repeat' split) <;> simp +contextual (maxDischargeDepth := 30) [hS]

@[simp] theorem Dev.eccBurst_sound (d : Dev) (m : Nat) (b : Burst) (hS : d.Sound) : (Dev.eccBurst d m b).Sound := by
  simp +contextual (maxDischargeDepth := 30) [Dev.eccBurst, hS]

@[simp] theorem Dev.startBurst_sound (d : Dev) (m : Nat) (k : Nat) (waiting : List Burst) (hS : d.Sound) : (Dev.startBurst d m k waiting).Sound := by
  unfold Dev.startBurst; dsimp only; (repeat' split) <;> simp +contextual (maxDischargeDepth := 30) [hS]

@[simp] theorem Dev.burstBoundary_sound (d : Dev) (m : Nat) (k : Nat) (reqs : List Burst) (hS : d.Sound) : (Dev.burstBoundary d m k reqs).Sound := by
  unfold Dev.burstBoundary; dsimp only; (repeat' split) <;> simp +contextual (maxDischargeDepth := 30) [hS]

@[simp] theorem Dev.srIdle_sound (d : Dev) (m : Nat) (hS : d.Sound) : (Dev.srIdle d m).Sound := by
  simp [Dev.srIdle, hS]

@[simp] theorem Dev.flushRefreshes_sound (d : Dev) (m : Nat) (hS : d.Sound) : (Dev.flushRefreshes d m).Sound := by
  simp +contextual (maxDischargeDepth := 30) [Dev.flushRefreshes, hS]

@[simp] theorem Dev.srEnter_sound (d : Dev) (m : Nat) (hS : d.Sound) : (Dev.srEnter d m).Sound := by
  simp [Dev.srEnter, hS]

@[simp] theorem Dev.srExit_sound (d : Dev) (m : Nat) (hS : d.Sound) : (Dev.srExit d m).Sound := by
  simp [Dev.srExit, hS]

@[simp] theorem Dev.scrubAtom_sound (d : Dev) (m : Nat) (e : AtomErr) (hS : d.Sound) : (Dev.scrubAtom d m e).Sound := by
  simp [Dev.scrubAtom, hS]

@[simp] theorem Dev.scrubPeriod_sound (d : Dev) (m : Nat) (hS : d.Sound) : (Dev.scrubPeriod d m).Sound := by
  simp [Dev.scrubPeriod, hS]

@[simp] theorem Dev.trainFail_sound (d : Dev) (m : Nat) (hS : d.Sound) : (Dev.trainFail d m).Sound := by
  simp [Dev.trainFail, hS]

@[simp] theorem Dev.trainDone_sound (d : Dev) (m : Nat) (ok_ : Bool) (perBank : Bool) (density : Nat) (hS : d.Sound) : (Dev.trainDone d m ok_ perBank density).Sound := by
  simp [Dev.trainDone, hS]

@[simp] theorem Dev.deviceHot_sound (d : Dev) (m : Nat) (hot : Bool) (hS : d.Sound) : (Dev.deviceHot d m hot).Sound := by
  simp [Dev.deviceHot, hS]

@[simp] theorem Dev.memSkip_sound (e n : Nat) : ∀ d : Dev, d.Sound → (Dev.memSkip e n d).Sound := by
  induction n with
  | zero => exact fun _ h => h
  | succ n ih =>
    intro d h
    unfold Dev.memSkip
    (repeat' split) <;> first | exact h | exact ih _ (by simp [h])

@[simp] theorem Dev.memCopy_sound (d : Dev) (x : Desc) (hS : d.Sound) : (Dev.memCopy d x).Sound := by
  simp (maxDischargeDepth := 30) [Dev.memCopy, hS]

@[simp] theorem Dev.memFill_sound (d : Dev) (x : Desc) (hS : d.Sound) : (Dev.memFill d x).Sound := by
  simp (maxDischargeDepth := 30) [Dev.memFill, hS]

theorem Dev.memTake_sound {d d1 : Dev} {e op : Nat} {x : Desc} (h : d.Sound) (g : d.memTake e op = some (x, d1)) : d1.Sound := by
  unfold Dev.memTake at g
  split at g
  · split at g
    · cases g; simp [h]
    · cases g
  · cases g

@[simp] theorem Dev.memRun_sound (d : Dev) (e op : Nat) (sp : Dev → Desc → OpSpec) (run : Dev → Desc → Dev) (h : d.Sound)
    (hr : ∀ e x, e.Sound → (run e x).Sound) : (d.memRun e op sp run).Sound := by
  have h0 : (Dev.memSkip e (d.unitQueue 10).length d).Sound := Dev.memSkip_sound _ _ _ h
  unfold Dev.memRun
  dsimp only
  split
  · exact h0
  · next x d1 g =>
    have h1 := Dev.memTake_sound h0 g
    split <;> simp [h1, hr]

@[simp] theorem Dev.writeMc_sound (d : Dev) (who : Requester) (m : Nat) (off : Nat) (v : Word) (hS : d.Sound) : (Dev.writeMc d who m off v).Sound := by
  unfold Dev.writeMc; (repeat' split) <;> simp +contextual (maxDischargeDepth := 30) [hS]

end Sys2Proof.Machine
end

