-- ==== Sys2Proof/Laws/SoundResets.lean ====
section
/-! SUPPORT. The operations of Machine/Resets.lean keep the device sound. -/

namespace Sys2Proof.Machine

@[simp] theorem Dev.relatch_sound (d : Dev) (hS : d.Sound) : (Dev.relatch d).Sound := by
  simp [Dev.relatch, hS]

@[simp] theorem Dev.startBoot_sound (d : Dev) (hS : d.Sound) : (Dev.startBoot d).Sound := by
  simp +contextual (maxDischargeDepth := 30) [Dev.startBoot, hS]

@[simp] theorem Dev.placeSpill_sound (d : Dev) (hS : d.Sound) : (Dev.placeSpill d).Sound := by
  simp [Dev.placeSpill, hS]

theorem Dev.capacityWindow_ok (d : Dev) : ({ resetWindow with len := d.capacity } : Window).ok = true := by
  simp [Window.ok, resetWindow, Dev.capacity]
  omega

@[simp] theorem Dev.bootDone_sound (d : Dev) (h : d.Sound) : d.bootDone.Sound := by
  have h1 : ((List.range 12).foldl Dev.srExit d).Sound := foldl_keeps _ _ _ h fun e m g => Dev.srExit_sound e m g
  unfold Dev.bootDone
  split
  · generalize (List.range 12).foldl Dev.srExit d = d1 at h1
    with_reducible refine Dev.bypassFollow_sound _ ?_
    with_reducible refine Dev.putWindow_sound _ _ _ ?_ (Dev.capacityWindow_ok _)
    with_reducible refine Dev.placeSpill_sound _ ?_
    show SoundF d1.mem d1.loc d1.win d1.ctl.power
    exact h1
  · exact h

@[simp] theorem Dev.srForce_sound (d : Dev) (m : Nat) (hS : d.Sound) : (Dev.srForce d m).Sound := by
  simp [Dev.srForce, hS]

@[simp] theorem Dev.resetLanes_sound (d : Dev) (hS : d.Sound) : (Dev.resetLanes d).Sound := by
  simp +contextual (maxDischargeDepth := 30) [Dev.resetLanes, hS]

@[simp] theorem Dev.resetES_sound (d : Dev) (soft : Bool) (code : Nat) (h : d.Sound) : (d.resetES soft code).Sound := by
  have h1 : ((List.range 12).foldl Dev.srForce d).resetLanes.Sound := by simp +contextual (maxDischargeDepth := 30) [h]
  unfold Dev.resetES
  with_reducible refine Dev.bypassFollow_sound _ ?_
  generalize ((List.range 12).foldl Dev.srForce d).resetLanes = d1 at h1
  have h2 : ∀ v, (if d1.tb.ppsOut then d1.emit (.pin "PPS_OUT" v) else d1).Sound := fun v => by simp [h1]
  have h3 := h2 false
  generalize (if d1.tb.ppsOut then d1.emit (.pin "PPS_OUT" false) else d1) = d2 at h3
  refine ⟨h3.1, h3.2.1, ?_, Nat.zero_le _⟩
  intro p hp
  rw [List.mem_singleton.mp hp]
  exact Dev.capacityWindow_ok d2

@[simp] theorem Dev.resetP_sound (d : Dev) : d.resetP.Sound := by
  refine ⟨Tab.wf_nil 0, Tab.wf_nil 0, ?_, Nat.zero_le _⟩
  intro p hp
  rw [List.mem_singleton.mp hp]
  rfl

@[simp] theorem Dev.powerRise_sound (d : Dev) (senior : Bool) (hS : d.Sound) : (Dev.powerRise d senior).Sound := by
  simp [Dev.powerRise, hS]

@[simp] theorem Dev.perstFall_sound (d : Dev) (hS : d.Sound) : (Dev.perstFall d).Sound := by
  simp [Dev.perstFall, hS]

@[simp] theorem Dev.perstRise_sound (d : Dev) (senior : Bool) (hS : d.Sound) : (Dev.perstRise d senior).Sound := by
  simp [Dev.perstRise, hS]

@[simp] theorem Dev.softReset_sound (d : Dev) (who : Requester) (hS : d.Sound) : (Dev.softReset d who).Sound := by
  simp [Dev.softReset, hS]

@[simp] theorem Dev.dropHeld_sound (d : Dev) (sel : HeldPost → Bool) (f : Dev → Poster → Dev) (h : d.Sound)
    (hf : ∀ e p, e.Sound → (f e p).Sound) : (d.dropHeld sel f).Sound :=
  Dev.stallLine_sound _ (foldl_keeps _ _ _ h fun e a g => hf e a.poster g)

@[simp] theorem Dev.endThreads_sound (d : Dev) (sel : Thread → Bool) (hS : d.Sound) : (Dev.endThreads d sel).Sound := by
  simp +contextual (maxDischargeDepth := 30) [Dev.endThreads, hS]

@[simp] theorem Dev.holdRing_sound (d : Dev) (fn : Nat) (hS : d.Sound) : (Dev.holdRing d fn).Sound := by
  simp (maxDischargeDepth := 30) [Dev.holdRing, hS]

@[simp] theorem Dev.resetH_sound (d : Dev) (linkDown : Bool) (hS : d.Sound) : (Dev.resetH d linkDown).Sound := by
  simp +contextual (maxDischargeDepth := 30) [Dev.resetH, hS]

@[simp] theorem Dev.d3hot_sound (d : Dev) (fn : Nat) (hS : d.Sound) : (Dev.d3hot d fn).Sound := by
  simp [Dev.d3hot, hS]

@[simp] theorem Dev.endFn_sound (d : Dev) (fn : Nat) (hS : d.Sound) : (Dev.endFn d fn).Sound := by
  simp +contextual (maxDischargeDepth := 30) [Dev.endFn, hS]

@[simp] theorem Dev.fnReset_sound (d : Dev) (fn : Nat) (hS : d.Sound) : (Dev.fnReset d fn).Sound := by
  simp +contextual (maxDischargeDepth := 30) [Dev.fnReset, hS]

@[simp] theorem Dev.dropVfs_sound (d : Dev) (keep : Nat) (hS : d.Sound) : (Dev.dropVfs d keep).Sound := by
  simp +contextual (maxDischargeDepth := 30) [Dev.dropVfs, hS]

@[simp] theorem Dev.resetF_sound (d : Dev) (fn : Nat) (hS : d.Sound) : (Dev.resetF d fn).Sound := by
  simp (maxDischargeDepth := 30) [Dev.resetF, hS]

@[simp] theorem Dev.setVfs_sound (d : Dev) (n : Nat) (hS : d.Sound) : (Dev.setVfs d n).Sound := by
  simp [Dev.setVfs, hS]

@[simp] theorem Dev.abortPoster_sound (d : Dev) (p : Poster) (hS : d.Sound) : (Dev.abortPoster d p).Sound := by
  unfold Dev.abortPoster; split <;> simp +contextual (maxDischargeDepth := 30) [hS]

@[simp] theorem Dev.islandFields_sound (d0 : Dev) (n : Nat) (hS : d0.Sound) : (Dev.islandFields d0 n).Sound := by
  simp [Dev.islandFields, hS]

@[simp] theorem Dev.twinIsland_sound (d : Dev) (hS : d.Sound) : (Dev.twinIsland d).Sound := by
  simp +contextual (maxDischargeDepth := 30) [Dev.twinIsland, hS]

@[simp] theorem Dev.islandActs_sound (d : Dev) (n : Nat) (hS : d.Sound) : (Dev.islandActs d n).Sound := by
  unfold Dev.islandActs
  dsimp only
  split
  · simp [hS]
  split
  · simp [hS]
  split
  · exact hS
  split
  · simp [hS]
  split
  · simp [hS]
  split
  · have h := Dev.tmIslandReset_sound d (n == 29) hS
    exact h
  · refine Dev.twinIsland_sound _ ?_
    have h1 := Dev.endThreads_sound _ (fun _ => true) (Dev.dropHeld_sound d (fun h => match h.poster with | .thread _ => false | _ => true) Dev.abortPoster hS (fun e p h => Dev.abortPoster_sound e p h))
    exact h1

@[simp] theorem Dev.islandStart_sound (d : Dev) (n : Nat) (hS : d.Sound) : (Dev.islandStart d n).Sound := by
  simp [Dev.islandStart, hS]

@[simp] theorem Dev.islandGo_sound (d : Dev) (who : Requester) (hS : d.Sound) : (Dev.islandGo d who).Sound := by
  simp [Dev.islandGo, hS]

@[simp] theorem Dev.islandDone_sound (d : Dev) (hS : d.Sound) : (Dev.islandDone d).Sound := by
  unfold Dev.islandDone; split <;> simp +contextual (maxDischargeDepth := 30) [hS]

@[simp] theorem Dev.enterDormant_sound (d : Dev) (hS : d.Sound) : (Dev.enterDormant d).Sound := by
  simp +contextual (maxDischargeDepth := 30) [Dev.enterDormant, hS]

@[simp] theorem Dev.leaveDormant_sound (d : Dev) (hS : d.Sound) : (Dev.leaveDormant d).Sound := by
  simp +contextual (maxDischargeDepth := 30) [Dev.leaveDormant, hS]

@[simp] theorem Dev.writeDormant_sound (d : Dev) (who : Requester) (b : Bool) (hS : d.Sound) : (Dev.writeDormant d who b).Sound := by
  simp [Dev.writeDormant, hS]

@[simp] theorem Dev.pendingDormant_sound (d : Dev) (hS : d.Sound) : (Dev.pendingDormant d).Sound := by
  unfold Dev.pendingDormant; split <;> simp +contextual (maxDischargeDepth := 30) [hS]

@[simp] theorem Dev.dormantEntered_sound (d : Dev) (hS : d.Sound) : (Dev.dormantEntered d).Sound := by
  simp +contextual (maxDischargeDepth := 30) [Dev.dormantEntered, hS]

@[simp] theorem Dev.dormantLeft_sound (d : Dev) (epFail : Nat) (dpFail : Nat) (hS : d.Sound) : (Dev.dormantLeft d epFail dpFail).Sound := by
  simp +contextual (maxDischargeDepth := 30) [Dev.dormantLeft, hS]

@[simp] theorem Dev.pwrMon_sound (d : Dev) (out : Bool) (hS : d.Sound) : (Dev.pwrMon d out).Sound := by
  simp [Dev.pwrMon, hS]

@[simp] theorem Dev.thermTrip_sound (d : Dev) (hS : d.Sound) : (Dev.thermTrip d).Sound := by
  simp [Dev.thermTrip, hS]

@[simp] theorem Dev.loseMemory_sound (d : Dev) (hS : d.Sound) : (Dev.loseMemory d).Sound := by
  simp [Dev.loseMemory, hS]

@[simp] theorem Dev.clockLost_sound (d : Dev) (tb : Bool) (hS : d.Sound) : (Dev.clockLost d tb).Sound := by
  simp [Dev.clockLost, hS]

@[simp] theorem Dev.clockLine_sound (d : Dev) (hS : d.Sound) : (Dev.clockLine d).Sound := by
  simp [Dev.clockLine, hS]

@[simp] theorem Dev.clockBack_sound (d : Dev) (hS : d.Sound) : (Dev.clockBack d).Sound := by
  simp [Dev.clockBack, hS]

@[simp] theorem Dev.linkTrained_sound (d : Dev) (gen : Nat) (width : Nat) (flit : Bool) (hS : d.Sound) : (Dev.linkTrained d gen width flit).Sound := by
  unfold Dev.linkTrained; (repeat' split) <;> simp +contextual (maxDischargeDepth := 30) [hS]

end Sys2Proof.Machine
end

