-- ==== Sys2Proof/Laws/SoundRegMap.lean ====
section
/-! SUPPORT. The operations of Machine/RegMap.lean keep the device sound. -/

namespace Sys2Proof.Machine

@[simp] theorem Dev.writeTb_sound (d : Dev) (who : Requester) (off : Nat) (v : Word) (hS : d.Sound) : (Dev.writeTb d who off v).Sound := by
  simp [Dev.writeTb, hS]

@[simp] theorem Dev.writeResync_sound (d : Dev) (who : Requester) (v : Word) (hS : d.Sound) : (Dev.writeResync d who v).Sound := by
  simp [Dev.writeResync, hS]

@[simp] theorem Dev.writeDevCtrl_sound (d : Dev) (who : Requester) (v : Word) (hS : d.Sound) : (Dev.writeDevCtrl d who v).Sound := by
  unfold Dev.writeDevCtrl
  repeat' first
    | with_reducible exact hS
    | with_reducible refine Dev.softReset_sound _ _ ?_
    | with_reducible refine Dev.islandGo_sound _ _ ?_
    | with_reducible refine Dev.writeDormant_sound _ _ _ ?_
    | split
    | (simp only [Dev.sound_mk, SoundF_self]; exact hS)

@[simp] theorem Dev.writeHub_sound (d : Dev) (who : Requester) (off : Nat) (v : Word) (hS : d.Sound) : (Dev.writeHub d who off v).Sound := by
  unfold Dev.writeHub; (repeat' split) <;> simp +contextual (maxDischargeDepth := 30) [hS]

@[simp] theorem Dev.writeDsp_sound (d : Dev) (who : Requester) (off : Nat) (v : Word) (hS : d.Sound) : (Dev.writeDsp d who off v).Sound := by
  unfold Dev.writeDsp
  repeat' first
    | with_reducible exact hS
    | split
    | (simp only [Dev.sound_mk, SoundF_self]; exact hS)

@[simp] theorem Dev.writeReg_sound (d : Dev) (who : Requester) (off : Nat) (v : Word) (hS : d.Sound) : (Dev.writeReg d who off v).Sound := by
  simp [Dev.writeReg, hS]

@[simp] theorem Dev.writeMsix_sound (d : Dev) (fn : Nat) (k : Nat) (v : Word) (hS : d.Sound) : (Dev.writeMsix d fn k v).Sound := by
  simp [Dev.writeMsix, hS]

@[simp] theorem Dev.writeSlice_sound (d : Dev) (who : Requester) (fn : Nat) (o : Nat) (v : Word) (hS : d.Sound) : (Dev.writeSlice d who fn o v).Sound := by
  unfold Dev.writeSlice
  repeat' first
    | with_reducible exact hS
    | with_reducible refine Dev.modRing_sound _ _ _ ?_
    | with_reducible refine Dev.sqTail_sound _ _ _ _ ?_
    | with_reducible refine Dev.cqHead_sound _ _ _ _ ?_
    | with_reducible refine Dev.ringOn_sound _ _ _ ?_
    | with_reducible refine Dev.ringOff_sound _ _ _ ?_
    | with_reducible refine Dev.writeMsix_sound _ _ _ _ ?_
    | split
    | (simp only [Dev.sound_mk, SoundF_self]; exact hS)

@[simp] theorem Dev.writeConfig_sound (d : Dev) (fn : Nat) (off : Nat) (v : Word) (hS : d.Sound) : (Dev.writeConfig d fn off v).Sound := by
  unfold Dev.writeConfig; (repeat' split) <;> simp +contextual (maxDischargeDepth := 30) [hS]

@[simp] theorem Dev.hostWrite_sound (d : Dev) (who : Requester) (sp : RegSpace) (off : Nat) (v : Word) (be : BitVec 4) (hS : d.Sound) : (Dev.hostWrite d who sp off v be).Sound := by
  unfold Dev.hostWrite; (repeat' split) <;> simp +contextual (maxDischargeDepth := 30) [hS]

end Sys2Proof.Machine
end

