-- ==== Sys2Proof/Laws/SoundSvetu.lean ====
section
/-! SUPPORT. The operations of Machine/Svetu.lean keep the device sound. -/

namespace Sys2Proof.Machine

@[simp] theorem Dev.logPut_sound (d : Dev) (l : LogEntry) (hS : d.Sound) : (Dev.logPut d l).Sound := by
  simp [Dev.logPut, hS]

@[simp] theorem Dev.logTrap_sound (d : Dev) (recd : Nat) (hS : d.Sound) : (Dev.logTrap d recd).Sound := by
  simp [Dev.logTrap, hS]

@[simp] theorem Dev.trap_sound (d : Dev) (t : Nat) (cause : Nat) (code : Nat) (hS : d.Sound) : (Dev.trap d t cause code).Sound := by
  simp (maxDischargeDepth := 30) [Dev.trap, hS]

@[simp] theorem Dev.svetu_sound (d : Dev) (i : Instr) (c : Fin 128) (run : Nat → Thread → Dev) (h : d.Sound) (hr : ∀ t x, (run t x).Sound) :
    (d.svetu i c run).Sound := by
  unfold Dev.svetu
  split
  · exact h
  · dsimp only
    split
    · exact Dev.trap_sound _ _ _ _ h
    · split
      · exact Dev.trap_sound _ _ _ _ h
      · split
        · exact hr _ _
        · exact h

@[simp] theorem Dev.orTrap_sound (d : Dev) (t : Nat) (cs : List (Bool × Nat)) (k : Dev) (hSd : d.Sound) (hSk : k.Sound) : (Dev.orTrap d t cs k).Sound := by
  unfold Dev.orTrap; split <;> simp +contextual (maxDischargeDepth := 30) [hSd, hSk]

@[simp] theorem Dev.alu_sound (d : Dev) (i : Instr) (c : Fin 128) (rd : Nat) (f : Thread → DWord) (hS : d.Sound) : (Dev.alu d i c rd f).Sound := by
  simp [Dev.alu, hS]

@[simp] theorem Dev.aluChecked_sound (d : Dev) (i : Instr) (c : Fin 128) (rd : Nat) (bad : Bool) (f : Thread → DWord) (hS : d.Sound) : (Dev.aluChecked d i c rd bad f).Sound := by
  simp (maxDischargeDepth := 30) [Dev.aluChecked, hS]

end Sys2Proof.Machine
end

