-- ==== Sys2Proof/Laws/SoundSvetuMem.lean ====
section
/-! SUPPORT. The operations of Machine/SvetuMem.lean keep the device sound. -/

namespace Sys2Proof.Machine

@[simp] theorem Dev.localWrite_sound (d : Dev) (x : Thread) (a : Nat) (bs : List Byte) (hS : d.Sound) : (Dev.localWrite d x a bs).Sound := by
  simp [Dev.localWrite, hS]

theorem Dev.coreWindow_sound (d : Dev) (c off : Nat) (h : d.Sound) : (d.coreWindow c off).2.Sound := by
  unfold Dev.coreWindow
  dsimp only
  split
  · exact Dev.raise_sound _ _ h
  · exact h

theorem Dev.readReg_sound (d : Dev) (off : Nat) (h : d.Sound) : (d.readReg off).2.Sound := by
  unfold Dev.readReg
  dsimp only
  split
  · exact Dev.coreWindow_sound _ _ _ h
  · dsimp only
    split
    · exact Dev.tbReadNow_sound _ h
    · exact h

@[simp] theorem Dev.doLoad_sound (d : Dev) (t : Nat) (x : Thread) (rd n : Nat) (space : BitVec 2) (a : Nat) (signed : Bool) (h : d.Sound) :
    (d.doLoad t x rd n space a signed).Sound := by
  have h1 := Dev.readReg_sound d a h
  unfold Dev.doLoad
  split
  · exact Dev.putThread_sound _ _ _ h
  · split
    · exact Dev.putThread_sound _ _ _ h
    · exact Dev.modThread_sound _ _ _ h1

@[simp] theorem Dev.load_sound (d : Dev) (i : Instr) (c : Fin 128) (rd : Nat) (ra : Nat) (size : BitVec 2) (space : BitVec 2) (off : BitVec 12) (signed : Bool) (hS : d.Sound) : (Dev.load d i c rd ra size space off signed).Sound := by
  simp (maxDischargeDepth := 30) [Dev.load, hS]

@[simp] theorem Dev.doStore_sound (d : Dev) (t : Nat) (x : Thread) (rd : Nat) (n : Nat) (space : BitVec 2) (a : Nat) (hS : d.Sound) : (Dev.doStore d t x rd n space a).Sound := by
  simp [Dev.doStore, hS]

@[simp] theorem Dev.store_sound (d : Dev) (i : Instr) (c : Fin 128) (rd : Nat) (ra : Nat) (size : BitVec 2) (space : BitVec 2) (off : BitVec 12) (hS : d.Sound) : (Dev.store d i c rd ra size space off).Sound := by
  simp (maxDischargeDepth := 30) [Dev.store, hS]

@[simp] theorem Dev.doAmo_sound (d : Dev) (t : Nat) (x : Thread) (rd : Nat) (rb : Nat) (n : Nat) (kind : BitVec 3) (a : Nat) (hS : d.Sound) : (Dev.doAmo d t x rd rb n kind a).Sound := by
  simp [Dev.doAmo, hS]

@[simp] theorem Dev.amo_sound (d : Dev) (i : Instr) (c : Fin 128) (rd : Nat) (ra : Nat) (rb : Nat) (kind : BitVec 3) (wide : Bool) (z : BitVec 7) (hS : d.Sound) : (Dev.amo d i c rd ra rb kind wide z).Sound := by
  simp (maxDischargeDepth := 30) [Dev.amo, hS]

@[simp] theorem Dev.mfence_sound (d : Dev) (i : Instr) (c : Fin 128) (z : BitVec 18) (imm : BitVec 8) (h : d.Sound) : (d.mfence i c z imm).Sound := by
  unfold Dev.mfence
  refine Dev.svetu_sound _ _ _ _ h fun t x => Dev.orTrap_sound _ _ _ _ h ?_
  split <;> exact Dev.putThread_sound _ _ _ h

theorem winOf_ok (b : List Byte) (h : winBad b = false) : (winOf b).ok = true := by
  unfold winOf
  split
  · rfl
  · simp only [winBad, Bool.or_eq_false_iff, bne_eq_false_iff_eq] at h
    simp [Window.ok, h.1.1.1.1.1.2, h.1.1.1.1.2]

@[simp] theorem Dev.doWin_sound (d : Dev) (t : Nat) (x : Thread) (rd : Nat) (b : List Byte) (h : d.Sound) : (d.doWin t x rd b).Sound := by
  unfold Dev.doWin
  split
  · exact Dev.putThread_sound _ _ _ h
  · next g => exact Dev.putThread_sound _ _ _ (Dev.putWindow_sound _ _ _ h (winOf_ok b (by simpa using g)))

@[simp] theorem Dev.setWin_sound (d : Dev) (i : Instr) (c : Fin 128) (rd : Nat) (ra : Nat) (z : BitVec 16) (hS : d.Sound) : (Dev.setWin d i c rd ra z).Sound := by
  simp (maxDischargeDepth := 30) [Dev.setWin, hS]

end Sys2Proof.Machine
end

