-- ==== Sys2Proof/Laws/SoundSvetuCtl.lean ====
section
/-! SUPPORT. The operations of Machine/SvetuCtl.lean keep the device sound. -/

namespace Sys2Proof.Machine

@[simp] theorem Dev.goto_sound (d : Dev) (t : Nat) (x : Thread) (target : DWord) (hS : d.Sound) : (Dev.goto d t x target).Sound := by
  simp [Dev.goto, hS]

@[simp] theorem Dev.branch_sound (d : Dev) (i : Instr) (c : Fin 128) (ra : Nat) (rb : Nat) (off : BitVec 16) (taken : DWord → DWord → Bool) (hS : d.Sound) : (Dev.branch d i c ra rb off taken).Sound := by
  simp [Dev.branch, hS]

@[simp] theorem Dev.jal_sound (d : Dev) (i : Instr) (c : Fin 128) (rd : Nat) (z : BitVec 5) (imm : BitVec 16) (hS : d.Sound) : (Dev.jal d i c rd z imm).Sound := by
  simp (maxDischargeDepth := 30) [Dev.jal, hS]

@[simp] theorem Dev.jalr_sound (d : Dev) (i : Instr) (c : Fin 128) (rd : Nat) (ra : Nat) (imm : BitVec 16) (hS : d.Sound) : (Dev.jalr d i c rd ra imm).Sound := by
  simp (maxDischargeDepth := 30) [Dev.jalr, hS]

@[simp] theorem Dev.doIssue_sound (d : Dev) (t : Nat) (x : Thread) (rd : Nat) (y : Desc) (nowait : Bool) (hS : d.Sound) : (Dev.doIssue d t x rd y nowait).Sound := by
  simp (maxDischargeDepth := 30) [Dev.doIssue, hS]

@[simp] theorem Dev.issue_sound (d : Dev) (i : Instr) (c : Fin 128) (rd : Nat) (ra : Nat) (z : BitVec 8) (imm : BitVec 8) (hS : d.Sound) : (Dev.issue d i c rd ra z imm).Sound := by
  simp (maxDischargeDepth := 30) [Dev.issue, hS]

@[simp] theorem Dev.waitInstr_sound (d : Dev) (i : Instr) (c : Fin 128) (rd : Nat) (ra : Nat) (rb : Nat) (sub : BitVec 3) (z : BitVec 8) (hS : d.Sound) : (Dev.waitInstr d i c rd ra rb sub z).Sound := by
  simp (maxDischargeDepth := 30) [Dev.waitInstr, hS]

@[simp] theorem Dev.doPost_sound (d : Dev) (t : Nat) (x : Thread) (rd : Nat) (target : Nat) (mask : Word) (hS : d.Sound) : (Dev.doPost d t x rd target mask).Sound := by
  simp [Dev.doPost, hS]

@[simp] theorem Dev.postInstr_sound (d : Dev) (i : Instr) (c : Fin 128) (rd : Nat) (ra : Nat) (rb : Nat) (z : BitVec 11) (hS : d.Sound) : (Dev.postInstr d i c rd ra rb z).Sound := by
  simp (maxDischargeDepth := 30) [Dev.postInstr, hS]

end Sys2Proof.Machine
end

