-- ==== Sys2Proof/Laws/Svetu.lean ====
section
/-! SUPPORT. What an instruction on a core comes down to: the thread that runs there, and the first trap cause that holds. -/

namespace Sys2Proof.Machine

/-- The instruction of the thread that runs there. -/
theorem Dev.svetu_runs {d : Dev} {i : Instr} {c : Fin 128} {t len : Nat} {run : Nat → Thread → Dev} (hl : 4 ≤ len) (h : d.Runs i c t len) :
    d.svetu i c run = run t (d.thread t) := by
  obtain ⟨h1, -, h2, h3⟩ := h
  have hb : (d.thread t).beyond 4 = false := by
    rcases h2 with h2 | h2
    · simp [Thread.beyond, h2]
    · simp only [Thread.beyond, Bool.and_eq_false_iff, decide_eq_false_iff_not]; right; omega
  simp [Dev.svetu, h1, hb, h3]

/-- An idle core executes nothing. -/
theorem Dev.svetu_idle {d : Dev} {i : Instr} {c : Fin 128} {run : Nat → Thread → Dev} (h : d.running c = none) : d.svetu i c run = d := by
  simp [Dev.svetu, h]

/-- A row of an instruction that the word at the pc does not spell leaves the device as it is (log entry 3). -/
theorem Dev.svetu_other {d : Dev} {i j : Instr} {c : Fin 128} {t : Nat} {run : Nat → Thread → Dev} (h : d.Runs j c t 4) (hi : j ≠ i) :
    d.svetu i c run = d := by
  obtain ⟨h1, -, h2, h3⟩ := h
  have hb : (d.thread t).beyond 4 = false := by
    rcases h2 with h2 | h2
    · simp [Thread.beyond, h2]
    · simp only [Thread.beyond, Bool.and_eq_false_iff, decide_eq_false_iff_not]; right; omega
  simp [Dev.svetu, h1, hb, h3, hi]

theorem firstTrap_none (cs : List (Bool × Nat)) : firstTrap cs = none ↔ ∀ c ∈ cs, c.1 = false := by
  induction cs with
  | nil => simp [firstTrap]
  | cons c cs ih => cases h : c.1 <;> simp [firstTrap, h, ih]

theorem Dev.orTrap_run {d k : Dev} {t : Nat} {cs : List (Bool × Nat)} (h : firstTrap cs = none) : d.orTrap t cs k = k := by
  simp [Dev.orTrap, h]

theorem Dev.orTrap_trap {d k : Dev} {t cause : Nat} {cs : List (Bool × Nat)} (h : firstTrap cs = some cause) : d.orTrap t cs k = d.trap t cause 0 := by
  simp [Dev.orTrap, h]

@[simp] theorem Thread.gpr_setG_same (x : Thread) (r : Nat) (v : DWord) : (x.setG r v).gpr r = if r = 0 then 0 else v := by
  by_cases h : r = 0 <;> simp [Thread.setG, Thread.gpr, h, Tab.get_put_same]

theorem Thread.gpr_setG_other (x : Thread) (v : DWord) {r q : Nat} (h : q ≠ r) : (x.setG r v).gpr q = x.gpr q := by
  by_cases hr : r = 0
  · simp [Thread.setG, hr]
  · simp [Thread.setG, Thread.gpr, hr, Tab.get_put_other _ _ _ h]

@[simp] theorem Thread.gpr_next (x : Thread) (n q : Nat) : (x.next n).gpr q = x.gpr q := rfl

/-- g0 reads 0. -/
@[simp] theorem Thread.gpr_zero (x : Thread) : x.gpr 0 = 0 := rfl

end Sys2Proof.Machine
end

