-- ==== Sys2Proof/Tests/Slice0.lean ====
section
/-! SUPPORT. The model's own tests: the checks of WellFormed, and for each statement with hypotheses states and operands that meet them. -/

namespace Sys2Proof.Tests

open Sys2Proof Sys2Proof.Machine

set_option Elab.async false

/-! ## States -/

/-- A device with thread 300 as given, and nothing else. -/
def devOf (x : Thread) : Dev := { Dev.reset with thr := [(300, x)] }

/-- The machine with that device and no command waiting. -/
def stOf (d : Dev) : State := { pending := [], dev := d }

/-- A program thread that runs on core 0 from slot 0, at the last word of its segment. -/
def prog : Thread := { st := .running, core := some 0, slot := some 0, pc := 0xFFFC, origin := some (0, 7, 3) }

/-- A firmware thread that runs on core 0. -/
def firm : Thread := { prog with firmware := true, fn := 64, origin := none }

/-- Bytes with the given (offset, byte) pairs over zeros. -/
def bytesOf (n : Nat) (ps : List (Nat × Byte)) : List Byte := ps.foldl (fun b p => b.set p.1 p.2) (zeros n)

/-- A descriptor of function 0 from thread 300 of `n` bytes, for operation `op` of unit `u`, with further bytes. -/
def descOf (n u op : Nat) (ps : List (Nat × Byte)) : Desc :=
  { fn := 0, tid := 300, bytes := bytesOf n ([(0, BitVec.ofNat 8 u), (1, BitVec.ofNat 8 op), (2, BitVec.ofNat 8 n), (3, BitVec.ofNat 8 (n / 256)), (0x10, 0xFF), (0x11, 0xFF)] ++ ps) }

/-- An instruction word of major opcode `op` with three register fields and `low` in the bits below them (Table 4.3). -/
def wordOf (op rd ra rb low : Nat) : Nat := op * 2 ^ 26 + rd * 2 ^ 21 + ra * 2 ^ 16 + rb * 2 ^ 11 + low

/-- The device with an instruction word at the pc of thread 300, and an extension word behind it unless that is 0. -/
def withWord (d : Dev) (w : Nat) (ext : Nat := 0) : Dev :=
  { d with loc := writeBytes d.loc ((d.thread 300).segBase + (d.thread 300).pc.toNat) (toLE 4 w ++ if ext = 0 then [] else toLE 4 ext) }

/-! ## Well-formed commands -/

theorem test_wf_sqEntryFetch : (Instr.sqEntryFetch 0 (zeros 64)).wf = true ∧ (Instr.sqEntryFetch 0 (zeros 63)).wf = false := by decide
theorem test_wf_cadenceWindow : (Instr.cadenceWindow (List.replicate 32 0)).wf = true ∧ (Instr.cadenceWindow []).wf = false := by decide
theorem test_wf_cadenceControl :
    (Instr.cadenceControlCycle (List.replicate 32 25) { writeAck := true, readAck := true, readMv := 800 }).wf = true ∧ (Instr.cadenceControlCycle (List.replicate 33 25) { writeAck := true, readAck := true, readMv := 800 }).wf = false := by decide
theorem test_wf_mailboxTime : (Instr.mailboxTimeRx (zeros 64)).wf = true ∧ (Instr.mailboxTimeRx (zeros 65)).wf = false := by decide
theorem test_wf_mailboxRelease : (Instr.mailboxReleaseRx (zeros 64)).wf = true ∧ (Instr.mailboxReleaseRx (zeros 0)).wf = false := by decide
theorem test_wf_hostBar4 : (Instr.hostBar4Access true 0 [1, 2] [true, false]).wf = true ∧ (Instr.hostBar4Access true 0 [1, 2] [true]).wf = false := by decide
theorem test_malformed_faults : exec (.cadenceWindow []) State.reset = .fault .malformedOperand := by rfl


/-! ## Svetu instructions: states that meet the hypotheses -/

theorem wit_StepRunsTheFront : ({ State.reset with pending := [.yieldCore 0 0, .dispatchStall] } : State).pending = .yieldCore 0 0 :: [.dispatchStall] := rfl
theorem wit_ExecLeavesTheQueue : exec (.fltCtrlClassLock .pf) State.reset =
    .next (stOf { Dev.reset with flt := { Flt.reset with lock := true } }) := rfl
theorem wit_StepKeepsSound : (stOf (devOf prog)).dev.Sound ∧ step (stOf (devOf prog)) = .next (stOf (devOf prog).tick) :=
  ⟨⟨by decide, by decide, by decide, by decide⟩, rfl⟩

/-- A program may run its last word, a firmware thread anywhere; the word at the pc selects (R142). -/
theorem wit_Runs : (devOf prog).Runs (.addR 0 0 0 0) 0 300 4 ∧ (withWord (devOf firm) (wordOf 0 31 1 2 0x19)).Runs (.remu 0 31 1 2) 0 300 4 ∧
    (withWord (devOf { prog with pc := 0xFFF8 }) (wordOf 0x30 7 0 0 0) 0x89ABCDEF).Runs (.li 0 7 0 0x89ABCDEF) 0 300 8 ∧
    (devOf { prog with core := some 127 }).Runs (.addR 127 0 0 0) 127 300 4 := by
  dsimp only [Dev.Runs]
  refine ⟨?_, ?_, ?_, ?_⟩ <;> decide +kernel
theorem wit_ImmediatesAndSpecials :
    (withWord (devOf prog) (wordOf 0x01 3 3 31 2047)).Runs (.addi 0 3 3 0xFFFF) 0 300 4 ∧ (withWord (devOf prog) (wordOf 0x26 3 0 0 4)).Runs (.mfs 0 3 0 4) 0 300 4 ∧
    (withWord (devOf prog) (wordOf 0x05 3 3 0 191)).Runs (.shi 0 3 3 191) 0 300 4 ∧ (191#16).toNat < 192 ∧
    (withWord (devOf prog) (wordOf 0x27 0 3 0 4)).Runs (.mts 0 3 0 4) 0 300 4 ∧
    (withWord (devOf { prog with pc := 0xFFF8 }) (wordOf 0x31 31 0 0 0) 1).Runs (.lih 0 31 0 1) 0 300 8 := by
  dsimp only [Dev.Runs]
  refine ⟨?_, ?_, ?_, ?_, ?_, ?_⟩ <;> decide +kernel
theorem wit_RegisterInstructionsFrame : (withWord (devOf prog) (wordOf 0 31 1 2 0)).Runs (.addR 0 31 1 2) 0 300 4 ∧
    exec (.addR 0 0 0 0) (stOf (devOf prog)) = .next (stOf (devOf { prog with pc := 0x10000 })) := by
  dsimp only [Dev.Runs]
  exact ⟨by decide +kernel, rfl⟩

/-- A load or store of the last bytes of the segment, of device memory and of register space. -/
theorem wit_LoadsAndStores :
    let d (w : Nat) := withWord (devOf { prog with pc := 0xFFF0, g := [(1, 0xFFF8), (2, 38654705656)] }) w
    let f (w : Nat) := withWord (devOf { firm with g := [(1, 0x3FFF8), (2, 38654705656), (3, 0x3FFFFFC)] }) w
    let x := (d 0).thread 300
    let y := (f 0).thread 300
    (∀ p ∈ [(0x08, 3, 1, Instr.ld 0 9 1 3 0 0), (0x09, 3, 1, .ldu 0 9 1 3 0 0), (0x0A, 3, 1, .st 0 9 1 3 0 0), (0x08, 0x34, 2, .ld 0 9 2 3 1 0), (0x0A, 0x34, 2, .st 0 9 2 3 1 0)],
      (d (wordOf p.1 9 p.2.2.1 0 (if p.2.1 = 3 then 0xC000 else 0xD000))).Runs p.2.2.2 0 300 4) ∧
    (f (wordOf 0x08 9 3 0 0xA000)).Runs (.ld 0 9 3 2 2 0) 0 300 4 ∧ (f (wordOf 0x0A 9 3 0 0xA000)).Runs (.st 0 9 3 2 2 0) 0 300 4 ∧
    x.effAddr 1 0 % 8 = 0 ∧ x.effAddr 1 0 + 8 ≤ x.localSize ∧ (d 0).localBad (x.segBase + x.effAddr 1 0) 8 = false ∧ y.effAddr 1 0 + 8 ≤ y.localSize ∧
    x.effAddr 2 0 % 8 = 0 ∧ (d 0).deviceOk x (x.effAddr 2 0) 8 true false = true ∧ (d 0).deviceOk x (x.effAddr 2 0) 8 false true = true ∧
    (f 0).deviceOk y (y.effAddr 2 0) 8 false true = true ∧ y.firmware = true ∧ y.effAddr 3 0 % 4 = 0 ∧ y.effAddr 3 0 + 4 ≤ 0x4000000 := by
  dsimp only [Dev.Runs]
  refine ⟨?_, ?_, ?_, ?_, ?_, ?_, ?_, ?_, ?_, ?_, ?_, ?_, ?_, ?_⟩ <;> decide +kernel
theorem wit_AtomicsAndFence :
    let d (w : Nat) := withWord (devOf { prog with g := [(2, 38654705656)], issued := 1 }) w
    let x := (d 0).thread 300
    (d (wordOf 0x0B 3 2 4 0x580)).Runs (.amo 0 3 2 4 5 true 0) 0 300 4 ∧ (d (wordOf 0x28 0 0 0 1)).Runs (.mfence 0 0 1) 0 300 4 ∧ (5#3).toNat < 6 ∧ (x.gpr 2).toNat % 8 = 0 ∧
    (d 0).deviceOk x (x.gpr 2).toNat 8 true true = true ∧ (1#8).toNat < 2 ∧ x.issued ≠ 0 := by
  dsimp only [Dev.Runs]
  refine ⟨?_, ?_, ?_, ?_, ?_, ?_, ?_⟩ <;> decide +kernel
theorem wit_SetWindow :
    let d := withWord (devOf { prog with g := [(1, 0xFFE0)], pc := 0x100 }) (wordOf 0x29 3 1 0 0)
    let e := { d with loc := writeBytes d.loc 0x1FFE0 [64] }
    d.Runs (.win 0 3 1 0) 0 300 4 ∧ e.Runs (.win 0 3 1 0) 0 300 4 ∧ (d.thread 300).fn = 0 ∧ ((d.thread 300).gpr 1).toNat + 32 ≤ (d.thread 300).localSize ∧
    d.localBad ((d.thread 300).segBase + ((d.thread 300).gpr 1).toNat) 32 = false ∧
    byteAt (readBytes e.loc ((e.thread 300).segBase + ((e.thread 300).gpr 1).toNat) 32) 0 = 64 := by
  dsimp only [Dev.Runs]
  refine ⟨?_, ?_, ?_, ?_, ?_, ?_⟩ <;> decide +kernel
theorem wit_BranchesAndJumps :
    (withWord (devOf prog) (wordOf 0x13 1 2 0 1)).Runs (.bge 0 1 2 1) 0 300 4 ∧ (withWord (devOf prog) (wordOf 0x16 5 0 31 2046)).Runs (.jal 0 5 0 0xFFFE) 0 300 4 ∧
    (withWord (devOf prog) (wordOf 0x17 5 1 0 3)).Runs (.jalr 0 5 1 3) 0 300 4 ∧ ((devOf prog).thread 300).pc.toNat % 4 = 0 := by
  dsimp only [Dev.Runs]
  refine ⟨?_, ?_, ?_, ?_⟩ <;> decide +kernel

/-- A descriptor of 32 bytes at the end of the segment: a length of 0, then a wrong status address, one beyond the memory, and a notify thread that is free. -/
theorem wit_IssueChecks :
    let d (l : Tab Byte) := withWord { devOf { prog with pc := 0x100, g := [(1, 0xFFE0), (2, 1)] } with loc := l } (wordOf 0x20 3 1 0 1)
    let n (l : Tab Byte) := leNat (readBytes (d l).loc (((d l).thread 300).segBase + (((((d l).thread 300).gpr 1).toNat) + 2)) 2)
    let b (l : Tab Byte) := readBytes (d l).loc (((d l).thread 300).segBase + (((d l).thread 300).gpr 1).toNat) (n l)
    let bad : Dev := { d [(0x1FFE2, 32), (0x1FFF0, 0xFF), (0x1FFF1, 0xFF)] with locErr := [0x1FFE8 / 8] }
    (d []).Runs (.issue 0 3 1 0 1) 0 300 4 ∧ (d [(0x1FFE2, 32), (0x1FFFD, 1)]).Runs (.issue 0 3 1 0 1) 0 300 4 ∧ bad.Runs (.issue 0 3 1 0 1) 0 300 4 ∧
    bad.localBad ((bad.thread 300).segBase + 0xFFE0) 32 = true ∧ 2 ≤ (2#8).toNat ∧ (1#8).toNat < 2 ∧ (((d []).thread 300).gpr 2).toNat % 32 ≠ 0 ∧ (((d []).thread 300).gpr 1).toNat % 32 = 0 ∧
    n [] < 32 ∧ n [(0x1FFE2, 32)] = 32 ∧ (((d []).thread 300).gpr 1).toNat + 32 ≤ ((d []).thread 300).localSize ∧
    fieldLE (b [(0x1FFE2, 32), (0x1FFF8, 1)]) 0x18 8 % 16 ≠ 0 ∧
    (d []).deviceOk ((d []).thread 300) (fieldLE (b [(0x1FFE2, 32), (0x1FFFD, 1)]) 0x18 8) 16 false true = false ∧
    fieldLE (b [(0x1FFE2, 32)]) 0x18 8 = 0 ∧ fieldLE (b [(0x1FFE2, 32)]) 0x10 2 ≠ 0xFFFF ∧
    ((d []).thread (fieldLE (b [(0x1FFE2, 32)]) 0x10 2)).live = false := by
  dsimp only [Dev.Runs]
  refine ⟨?_, ?_, ?_, ?_, ?_, ?_, ?_, ?_, ?_, ?_, ?_, ?_, ?_, ?_, ?_, ?_⟩ <;> decide +kernel

/-- The last engine of the blit unit with room, and with 64 descriptors. -/
theorem wit_IssueHandsOver :
    let d := withWord { devOf { prog with pc := 0x100, g := [(1, 0xFFE0)] } with loc := [(0x1FFE0, 3), (0x1FFE1, 1), (0x1FFE2, 32), (0x1FFF0, 0xFF), (0x1FFF1, 0xFF)] } (wordOf 0x20 3 1 0 0)
    let full := { d with blit := [(0, { queue := List.replicate 64 {} })] }
    let x := d.thread 300
    d.Runs (.issue 0 3 1 0 0) 0 300 4 ∧ full.Runs (.issue 0 3 1 0 0) 0 300 4 ∧ firstTrap (d.issueTraps 300 x 0xFFE0) = none ∧ firstTrap (full.issueTraps 300 x 0xFFE0) = none ∧
    (x.gpr 1).toNat = 0xFFE0 ∧ d.issueFull (d.descAt 300 x 0xFFE0) = false ∧ (d.descAt 300 x 0xFFE0).known = true ∧
    full.issueFull (d.descAt 300 x 0xFFE0) = true := by
  dsimp only [Dev.Runs]
  refine ⟨?_, ?_, ?_, ?_, ?_, ?_, ?_, ?_⟩ <;> decide +kernel
theorem wit_WaitForFlags :
    let d := withWord (devOf { prog with g := [(1, 0x80000001), (2, 6)], flags := 1 }) (wordOf 0x21 3 1 2 0x200)
    let both := withWord (devOf { prog with g := [(1, 0x80000001)], flags := 0x80000001 }) (wordOf 0x21 3 1 2 0x100)
    let none_ := withWord (devOf { prog with g := [(1, 0x80000000)], flags := 1 }) (wordOf 0x21 3 1 2 0)
    let mask : Word := BitVec.ofNat 32 ((d.thread 300).gpr 1).toNat
    d.Runs (.wait 0 3 1 2 2 0) 0 300 4 ∧ both.Runs (.wait 0 3 1 2 1 0) 0 300 4 ∧ none_.Runs (.wait 0 3 1 2 0 0) 0 300 4 ∧ 1 < (2#3).toNat ∧ ((d.thread 300).gpr 0) = 0 ∧
    (d.thread 300).flags &&& mask ≠ 0 ∧ (d.thread 300).flags &&& mask ≠ mask ∧ (both.thread 300).flags &&& mask = mask ∧
    (none_.thread 300).flags &&& BitVec.ofNat 32 ((none_.thread 300).gpr 1).toNat = 0 ∧ BitVec.ofNat 32 ((none_.thread 300).gpr 1).toNat ≠ 0 := by
  dsimp only [Dev.Runs]
  refine ⟨?_, ?_, ?_, ?_, ?_, ?_, ?_, ?_, ?_, ?_⟩ <;> decide +kernel
theorem wit_PostToThread :
    let y : Thread := { st := .waiting, home := 5 }
    let d := withWord { devOf prog with thr := [(300, { prog with g := [(1, 4095), (2, 4094)] }), (4094, { y with fn := 63 }), (4095, y)] } (wordOf 0x22 3 1 2 0)
    let full := { d with dsp := { postQ := [(5, List.replicate 64 (9, 1))] } }
    d.Runs (.post 0 3 1 2 0) 0 300 4 ∧ full.Runs (.post 0 3 1 2 0) 0 300 4 ∧ (d.thread 0).live = false ∧ (d.thread 4094).live = true ∧ (d.thread 300).firmware = false ∧
    (d.thread 4094).fn ≠ (d.thread 300).fn ∧ (d.thread 4095).live = true ∧ (d.thread 4095).fn = (d.thread 300).fn ∧ d.postRoom 4095 = true ∧
    full.postRoom 4095 = false ∧ ((d.thread 300).gpr 1).toNat % 4096 = 4095 := by
  dsimp only [Dev.Runs]
  refine ⟨?_, ?_, ?_, ?_, ?_, ?_, ?_, ?_, ?_, ?_, ?_⟩ <;> decide +kernel
theorem wit_YieldEndTrap :
    (withWord (devOf prog) (wordOf 0x23 0 0 0 0)).Runs (.yieldCore 0 0) 0 300 4 ∧ (withWord (devOf prog) (wordOf 0x24 0 0 0 0)).Runs (.endThread 0 0) 0 300 4 ∧
    (withWord (devOf prog) (wordOf 0x2A 0 0 0 9)).Runs (.trap 0 0 9) 0 300 4 ∧ ((devOf prog).thread 300).origin = some (0, 7, 3) ∧ ((devOf prog).thread 300).firmware = false := by
  dsimp only [Dev.Runs]
  refine ⟨?_, ?_, ?_, ?_, ?_⟩ <;> decide +kernel
theorem wit_TrapOrder :
    let d (w : Nat) := withWord (devOf { prog with g := [(1, 0x10000), (2, 1), (3, 38654705656), (4, 0xFFF0), (5, 0x1000000000000)] }) w
    let bad := { d (wordOf 0x0A 9 4 0 0x8000) with locErr := [0x1FFF0 / 8] }
    let x := (d 0).thread 300
    (d (wordOf 0x08 9 1 0 0xF000)).Runs (.ld 0 9 1 3 3 0) 0 300 4 ∧ (d (wordOf 0x09 9 2 0 0x4000)).Runs (.ldu 0 9 2 1 0 0) 0 300 4 ∧ bad.Runs (.st 0 9 4 2 0 0) 0 300 4 ∧
    x.firmware = false ∧ x.effAddr 2 0 % 2 ≠ 0 ∧ x.effAddr 1 0 % 8 = 0 ∧ x.localSize < x.effAddr 1 0 + 8 ∧ 2 ^ 48 ≤ x.effAddr 5 0 ∧ x.effAddr 5 0 % 8 = 0 ∧
    (d 0).capacity < x.effAddr 3 8 + 8 ∧ x.effAddr 3 8 % 8 = 0 ∧ bad.localBad (x.segBase + x.effAddr 4 0) 4 = true ∧ x.effAddr 4 0 + 4 ≤ x.localSize ∧
    (devOf { prog with pc := 0x10000 }).running 0 = some 300 ∧ 0x10000 < ((devOf { prog with pc := 0x10000 }).thread 300).pc.toNat + 4 ∧
    ({ devOf prog with loc := [(0x1FFFF, 0xFC)] } : Dev).fetched 0 prog = none := by
  dsimp only [Dev.Runs]
  refine ⟨?_, ?_, ?_, ?_, ?_, ?_, ?_, ?_, ?_, ?_, ?_, ?_, ?_, ?_, ?_, ?_⟩ <;> decide +kernel

/-! ## The dispatcher, descriptors and the host side: states that meet the hypotheses -/

theorem wit_HoldsEndAndCoresAreGiven :
    let h (y : Thread) := devOf { y with st := .held }
    let y := descOf 32 3 1 []
    let w := { devOf { prog with st := .waiting, core := none, deadline := some 0 } with ctl := {} }
    let two : Dev := { Dev.reset with thr := [(300, { prog with st := .ready, core := none, affinity := 1 }), (301, { st := .ready, affinity := 1, prio := 1 })] }
    let busy : Dev := { Dev.reset with thr := [(300, prog), (301, { st := .ready, affinity := 1 })], ctl := { ticks := 600000 } }
    let held : Dev := { Dev.reset with dsp := { heldPosts := [⟨.thread 300, 301, 0, 0, 1, 0, false⟩] }, ctl := { ticks := 300001 } }
    ((h { hold := .data 1 5 none }).thread 300).hold = .data 1 5 none ∧ ((h { hold := .fence true }).thread 300).issued = 0 ∧
    (h { hold := .issue 1 y }).issueFull y = false ∧ y.known = true ∧ (w.thread 300).st = .waiting ∧ (w.thread 300).deadline = some w.ctl.ticks ∧
    two.coreBusy 0 = false ∧ two.ctl.islBusy ≠ some 26 ∧ (300, two.thread 300) ∈ two.thr ∧ (two.thread 300).st = .ready ∧ two.idleCore 300 = some 0 ∧
    (∀ p ∈ two.thr, p.1 ≠ 300 → p.2.st = .ready → two.idleCore p.1 = some 0 →
      (two.thread 300).prio < p.2.prio ∨ (two.thread 300).prio = p.2.prio ∧ (two.thread 300).ready < p.2.ready) ∧
    busy.running 0 = some 300 ∧ (busy.thread 300).runStart + (if busy.dsp.sliceUs = 0 then 1 else busy.dsp.sliceUs) * 3000 ≤ busy.ctl.ticks ∧
    (∃ p ∈ busy.thr, p.2.st = .ready ∧ p.2.prio = (busy.thread 300).prio ∧ p.2.allows 0 = true ∧ busy.idleCore p.1 = none) ∧
    held.dsp.heldPosts = [] ++ [⟨.thread 300, 301, 0, 0, 1, 0, false⟩] ∧ 0 + max 1 (min 1000000 held.dsp.stallUs) * 3000 < held.ctl.ticks := by
  dsimp only
  refine ⟨?_, ?_, ?_, ?_, ?_, ?_, ?_, ?_, ?_, ?_, ?_, ?_, ?_, ?_, ?_, rfl, ?_⟩ <;> decide +kernel
theorem wit_PostsReachThreads :
    let d (q : List HeldPost) := { devOf { prog with pending := 1 } with dsp := { postQ := [(0, [(300, 2)])], heldPosts := q }, thr :=
      [(300, { prog with pending := 1 }), (301, { st := .held, hold := .post }), (302, { st := .waiting })] }
    let u : HeldPost := ⟨.unit 16, 302, 0, 0, 1, 0, true⟩
    let v : HeldPost := ⟨.thread 301, 302, 0, 0, 1, 0, false⟩
    ((d []).thread 300).live = true ∧ ((d []).thread 300).pending ≠ 0 ∧ (d []).postQueue 0 = (300, 2) :: [] ∧
    ((d [u]).thread u.target).home = 0 ∧ ((d [u]).thread u.target).live = true ∧ ((d [u]).postQueue 0).length < 64 ∧
    ((d [u]).postQueue 0).any (·.1 == u.target) = false ∧ ((d [v]).postQueue 0).any (·.1 == v.target) = false ∧ ((d [v]).thread 301).hold = .post := by
  dsimp only
  refine ⟨?_, ?_, ?_, ?_, ?_, ?_, ?_, ?_, ?_⟩ <;> decide +kernel
theorem wit_TrapsAreReported :
    let d := withWord (devOf { prog with pc := 0x100, g := [(1, 0xFFF8)] }) (wordOf 0x08 9 1 0 0xC000)
    let f := withWord (devOf firm) (wordOf 0x2A 0 0 0 9)
    let bad := { d with locErr := [0x1FFF8 / 8] }
    f.Runs (.trap 0 0 9) 0 300 4 ∧ (f.thread 300).origin = none ∧ (f.thread 300).outst = 0 ∧ f.flt.latched.get 0 6 = 0 ∧
    bad.Runs (.ld 0 9 1 3 0 0) 0 300 4 ∧ (bad.thread 300).firmware = false ∧ (bad.thread 300).effAddr 1 0 % 8 = 0 ∧
    (bad.thread 300).effAddr 1 0 + 8 ≤ (bad.thread 300).localSize ∧
    bad.localBad ((bad.thread 300).segBase + (bad.thread 300).effAddr 1 0) 8 = true ∧ bad.flt.latched.get 0 7 = 0 := by
  dsimp only [Dev.Runs]
  refine ⟨?_, ?_, ?_, ?_, ?_, ?_, ?_, ?_, ?_, ?_⟩ <;> decide +kernel

/-- A QUERY and an ATTEST of a wrong length, with their status words in the last bytes of memory, and an ADMIT by a function that is not the PF. -/
theorem wit_RefusedDescriptors :
    let x := descOf 32 16 3 [(0x18, 0xF0), (0x19, 0xFF), (0x1A, 0xFF), (0x1B, 0xFF), (0x1C, 8)]
    let z := { descOf 64 16 1 [(0x18, 16), (0x24, 1), (0x22, 1)] with fn := 5 }
    let d := { Dev.reset with unitQ := [(16, [x])] }
    let f := { Dev.reset with unitQ := [(16, [z])] }
    d.takeHead 16 3 = some (x, d.putUnitQueue 16 []) ∧ (d.putUnitQueue 16 []).check157 x (querySpec (d.putUnitQueue 16 []) x) = some 4 ∧
    x.statusAddr ≠ 0 ∧ x.statusAddr + 16 = d.capacity ∧ f.takeHead 16 1 = some (z, f.putUnitQueue 16 []) ∧
    (f.putUnitQueue 16 []).check157 z (admitSpec (f.putUnitQueue 16 []) z) = some 5 := by
  dsimp only
  refine ⟨rfl, ?_, ?_, ?_, rfl, ?_⟩ <;> decide +kernel
theorem wit_CompletionNotifies :
    let x (f : Byte) := descOf 32 1 1 [(0x10, 44), (0x11, 1), (0x12, 31), (4, f)]
    let d := devOf prog
    (x 0).bytes ≠ [] ∧ (x 0).unit = 1 ∧ (x 0).notify = 300 ∧ (x 0).flag < 32 ∧ (d.thread (x 0).notify).live = true ∧ (x 0).notifyErr = false ∧ (x 4).notifyErr = true := by
  decide +kernel

/-- A host with 16-entry rings: full to the last entry, one entry too far, and with one completion held. -/
def hostOf (r : Ring) : Dev := { Dev.reset with rings := [(0, r)], hub := { linkUp := true, cmd := [(0, 4)] }, ctl := { booting := false, pwrOk := true } }

theorem wit_RingRegisters :
    let a := hostOf { enable := true, st := .active }
    let c : Comp := ⟨0, 1, 300, 7, 3, 0, 0⟩
    let h := hostOf { enable := true, st := .active, held := [c], cqTail := 16 }
    a.reaches (.vf 1) 0 = false ∧ a.reaches .pf 0 = true ∧ (16#32 - (a.ring 0).sqHead).toNat ≤ 2 ^ max 4 (min 12 (a.ring 0).sqLog) ∧ (a.ring 0).st = .active ∧
    2 ^ max 4 (min 12 (a.ring 0).sqLog) < (17#32 - (a.ring 0).sqHead).toNat ∧ (hostOf {}).rings.any (·.2.st == .error) = false ∧
    ((hostOf {}).ring 0).enable = false ∧ ((hostOf {}).ring 0).held = [] ∧ (a.ring 0).wait = .nothing ∧
    (h.ring 0).held = [c] ∧ (h.ring 0).retq = [] ∧ (h.ring 0).v2due = none ∧ ((h.ring 0).cqTail - 1).toNat < 2 ^ max 4 (min 12 (h.ring 0).cqLog) ∧
    ((hostOf { v2due := some 0 }).ring 0).v2due = some 0 ∧ (hostOf { v2due := some 0 }).hub.linkUp = true ∧
    ((hostOf { v2due := some 0 }).hub.msix.get 1 (0 * 128 + 11)).getLsbD 0 = true ∧
    (({ hostOf { v2due := some 0 } with hub := { linkUp := true, cmd := [(0, 4)], msix := [(11, 0)] } } : Dev).hub.msix.get 1 (0 * 128 + 11)).getLsbD 0 = false := by
  decide +kernel
theorem wit_SubmissionEntries :
    let a := hostOf { enable := true, st := .active, sqTail := 1, cqTail := 15 }
    let w := hostOf { enable := true, st := .active, wait := .program (zeros 64) }
    let p := bytesOf 64 [(0, 1), (0x12, 1), (0x14, 0xFC), (0x15, 0xFF), (0x18, 1), (1, 63)]
    let post (b c : Byte) := bytesOf 64 [(0, 2), (8, b), (9, c), (0x10, 1)]
    let e := { a with thr := [(4095, { st := .waiting })] }
    a.nextServed = some 0 ∧ w.nextServed ≠ some 0 ∧ e.nextServed = some 0 ∧ (w.ring 0).held = [] ∧ (w.ring 0).retq = [] ∧
    ((w.ring 0).cqTail - (w.ring 0).cqHead).toNat < 2 ^ max 4 (min 12 (w.ring 0).cqLog) ∧ w.freeProgram ≠ none ∧ a.mayFetch 0 = true ∧ (a.ring 0).wait = .nothing ∧ (a.ring 0).sqHead ≠ (a.ring 0).sqTail ∧ ((a.ring 0).cqTail - (a.ring 0).cqHead).toNat < 2 ^ max 4 (min 12 (a.ring 0).cqLog) ∧
    (zeros 64).length = 64 ∧ byteAt (zeros 64) 0 = 0 ∧ 2 < byteAt (bytesOf 64 [(0, 3)]) 0 ∧ badProgram (bytesOf 64 [(0, 1)]) = true ∧ badProgram p = false ∧
    byteAt p 0 = 1 ∧ 4095 < fieldLE (post 0 16) 8 2 ∧ fieldLE (post 255 15) 8 2 ≤ 4095 ∧ (a.thread 4095).st = .free ∧ (e.thread 4095).live = true ∧ e.mayFetch 0 = true ∧
    (e.thread 4095).fn = 0 ∧ e.postRoom 4095 = true ∧ (w.ring 0).wait = .program (zeros 64) ∧ w.mayFetch 0 = true ∧ w.freeProgram = some 256 := by
  decide +kernel
theorem wit_ProgramStarts :
    let p := bytesOf 64 [(0, 1), (0x12, 1), (0x18, 1)]
    let w := hostOf { enable := true, st := .active, wait := .program p }
    let x := newThread 0 0 1 p
    (w.ring 0).wait = .program p ∧ w.mayFetch 0 = true ∧ badProgram p = false ∧ (w.thread 256).st = .free ∧ x.allows 0 = true ∧ w.coreBusy 0 = false ∧
    w.freeSlot 0 = some 0 := by
  decide +kernel
theorem wit_HubRequests :
    let q := { hostOf {} with hub := { linkUp := true, cmd := [(0, 4)], req := true, ownKind := 3, ownIdx := 511, numVfs := 63 } }
    let z := { hostOf {} with chan := [(0, { st := .admitted })] }
    Requester.vf 1 ≠ .pf ∧ q.hub.req = true ∧ q.hub.linkUp = true ∧ (q.hub.cmd.get 0 0).getLsbD 2 = true ∧ q.ctl.pwrOk = true ∧ q.ctl.perstN = true ∧ q.flt.live.getLsbD 0 = false ∧ q.hub.ownKind = 3 ∧
    q.hub.ownIdx ≤ 511 ∧ (63#32).toNat % 64 ≤ q.hub.numVfs ∧ z.hub.numVfs < (1#32).toNat % 64 ∧ z.hub.ownKind = 0 ∧ (z.channel z.hub.ownIdx).held = true := by
  decide +kernel
theorem wit_HostAccesses :
    let d := hostOf { enable := true }
    (14#4) ≠ 15 ∧ (1#32).getLsbD 0 = true ∧ (2#32).getLsbD 0 = false ∧ (d.ring 0).enable = true ∧ (d.ring 63).enable = false ∧ d.hub.req = false ∧
    ({ d with hub := { req := true } } : Dev).hub.req = true ∧ d.memDead = false ∧ [1, 2].length = [true, false].length ∧
    (38654705662#36).toNat + 2 = d.capacity ∧ (127 * 0x40000 + 0x3FFFC) / 8 ∉ d.locErr := by
  decide +kernel
theorem wit_HostSide_rest :
    let e := { hostOf { enable := true, st := .active, sqTail := 1 } with thr := [(4095, { st := .draining })] }
    let own (k n : Nat) := { hostOf {} with hub := { linkUp := true, ownKind := k, ownIdx := n, numVfs := 63 } };
    e.nextServed = some 0 ∧ (e.thread 4095).st = .draining ∧ (e.thread 4095).fn = 0 ∧ (∀ p ∈ [(0, 512), (2, 128), (3, 512)], (own p.1 p.2).hub.ownKind = p.1 ∧ (own p.1 p.2).hub.ownIdx = p.2) := by
  decide +kernel

/-! ## Fabric and capture: states that meet the hypotheses -/

/-- Unit `x.unit` with that one descriptor in its queue, over device `d`. -/
def queued (d : Dev) (x : Desc) : Dev := { d with unitQ := [(x.unit, [x])] }

/-- A channel of 1920 x 1080 at 50 pictures a second, with `k` more context bytes. -/
def chanOf (ps : List (Nat × Byte)) : Chan :=
  { st := .loaded, ctx := bytesOf 128 ([(0x22, 1), (0x23, 1), (0x26, 8), (0x27, 64), (0x28, 0x80), (0x29, 7), (0x2A, 0x38), (0x2B, 4), (0x2C, 50), (0x30, 1)] ++ ps) }

/-- ADMIT of channel 511 on pipes 0 to 3 with class 2, the largest. -/
def admitAll : Desc := descOf 64 16 1 [(0x20, 0xFF), (0x21, 1), (0x22, 2), (0x24, 4), (0x28, 0), (0x29, 1), (0x2A, 2), (0x2B, 3)]
/-- A live ADMIT of it on pipe 0. -/
def admitLive : Desc := descOf 64 16 1 [(0x20, 0xFF), (0x21, 1), (0x24, 1), (0x29, 255), (0x2A, 255), (0x2B, 255)]

theorem wit_AdmissionAndQuery :
    let d (c : Chan) (x : Desc) : Dev := queued { Dev.reset with chan := [(511, c)] } x
    let e (c : Chan) : Dev := { Dev.reset with chan := [(511, c)] }
    let r : Desc := descOf 64 16 2 [(0x20, 0xFF), (0x21, 1)]
    let q (a : Byte) : Desc := descOf 64 16 3 [(0x33, a), (0x19, 1)]
    (d (chanOf []) admitAll).Takes 16 1 admitSpec admitAll (e (chanOf [])) ∧ badAdmit admitAll = false ∧ badAdmit { admitAll with bytes := admitAll.bytes.set 0x22 3 } = true ∧
    (d (chanOf [(0x29, 0xFF), (0x2B, 0xFF), (0x2C, 0xFF)]) admitLive).Takes 16 1 admitSpec admitLive (e (chanOf [(0x29, 0xFF), (0x2B, 0xFF), (0x2C, 0xFF)])) ∧
    (let c := chanOf [(0x29, 0xFF), (0x2B, 0xFF), (0x2C, 0xFF)]; 12000000 * c.cost.2 < c.cost.1) ∧ badAdmit admitLive = false ∧
    ((e { chanOf [] with st := .running, pipes := [0], shed := true }).pipeShed 0 = true) ∧ ((chanOf []).st = .loaded) ∧ (({} : Chan).st ≠ .loaded) ∧
    (d { chanOf [] with st := .admitted } r).Takes 16 2 releaseSpec r (e { chanOf [] with st := .admitted }) ∧ ({ chanOf [] with st := .running } : Chan).started = true ∧
    (d (chanOf []) (q 0)).Takes 16 3 querySpec (q 0) (e (chanOf [])) ∧ (d (chanOf []) (q 128)).Takes 16 3 querySpec (q 128) (e (chanOf [])) ∧ (q 0).get 0x30 8 = 0 ∧
    (q 128).statusAddr + 16 ≤ (q 128).get 0x30 8 := by
  dsimp only
  refine ⟨⟨rfl, ?_⟩, ?_, ?_, ⟨rfl, ?_⟩, ?_, ?_, ?_, ?_, ?_, ⟨rfl, ?_⟩, ?_, ⟨rfl, ?_⟩, ⟨rfl, ?_⟩, ?_, ?_⟩ <;> decide +kernel
theorem wit_CadenceWindows : (List.replicate 32 7).length = 32 := rfl

/-- At 850 mV, after a thermal event, and at 620 mV with all islands' floors unknown: the status bit decides. -/
theorem wit_CadenceControl :
    let d (v : Nat) (t : BitVec 64) : Dev := { Dev.reset with fab := { setMv := v }, flt := { Flt.reset with status := t } }
    let temps : List Int := List.replicate 16 (-55) ++ List.replicate 16 125
    let shed : Dev := { Dev.reset with fab := { shed := [(1, 511)] }, chan := [(511, { st := .running, shed := true })] }
    temps.length = 32 ∧ (∀ t ∈ temps, -55 ≤ t ∧ t ≤ 125) ∧ (d 850 0x200).ctl.power = 0 ∧ (d 850 0x200).flt.live.getLsbD 10 = false ∧
    (d 850 0x200).fab.nackRun = 0 ∧ (d 850 0x200).fab.setMv ≤ 850 ∧ (d 850 0x200).flt.status.getLsbD 9 = true ∧ min 850 (850 + 5) = 850 ∧
    (∀ n, n < 32 → (d 850 0x200).fab.shortRun.get 0 n < 16) ∧ ((865 : Int) - 850).natAbs ≤ 15 ∧
    shed.fab.shed = [(1, 511)] ∧ shed.flt.status.getLsbD 8 = false ∧ (shed.channel 511).pipes = [] ∧ shed.linked 511 = false := by
  dsimp only
  refine ⟨?_, ?_, ?_, ?_, ?_, ?_, ?_, ?_, ?_, ?_, ?_, ?_, ?_, ?_⟩ <;> decide +kernel

/-! ## Capture -/

/-- CONFIGURE of input 191: the smallest raster, the shortest delay, 50 Hz, two links, with further bytes. -/
def capBody (op : Nat) (ps : List (Nat × Byte)) : Desc :=
  descOf 128 1 op ([(0x20, 191), (0x24, 12), (0x27, 2), (0x28, 16), (0x2A, 16), (0x2C, 50), (0x30, 1), (0x34, 50), (0x38, 1), (0x3C, 0x50), (0x3D, 0xC3), (0x43, 0x80)] ++ ps)

/-- The input so configured, in state `c`. -/
def capOf (ps : List (Nat × Byte)) (c : Cap) : Cap := { c with cfg := (capBody 1 ps).bytes, rx := true }

/-- A device with that input alone. -/
def capDev (c : Cap) : Dev := { Dev.reset with cap := [(191, c)] }

theorem wit_CaptureConfiguration :
    let x := capBody 1 []
    let sdi := capBody 1 [(0x22, 1), (0x78, 32)]
    let geo := capBody 1 [(0x22, 1), (0x27, 1), (0x28, 0), (0x29, 30), (0x2A, 0xE0), (0x2B, 16)]
    let full : Dev := { Dev.reset with cap := (List.range 128).map fun i => (i, capOf [] { st := .stopped }) }
    (queued Dev.reset x).Takes 1 1 capConfigureSpec x Dev.reset ∧ capBadField x = false ∧ capBadFormat x = false ∧ capBadGeometry x = false ∧ Dev.reset.capFull x = false ∧
    (Dev.reset.capIn 191).sdiLanes = [] ∧ x.get 0x22 1 ≠ 1 ∧ (∀ p ∈ Dev.reset.pend, ¬ (p.unit = 1 ∧ p.obj = 191)) ∧
    (queued Dev.reset sdi).Takes 1 1 capConfigureSpec sdi Dev.reset ∧ capBadField sdi = false ∧ capBadFormat sdi = true ∧
    (queued Dev.reset geo).Takes 1 1 capConfigureSpec geo Dev.reset ∧ capBadField geo = false ∧ capBadFormat geo = false ∧ capBadGeometry geo = true ∧
    (queued full x).Takes 1 1 capConfigureSpec x full ∧ full.capFull x = true ∧
    (∀ b ∈ [capBody 1 [(0x22, 3)], capBody 1 [(0x23, 2)], capBody 1 [(0x28, 17)], capBody 1 [(0x28, 14)], capBody 1 [(0x28, 2), (0x29, 30)], capBody 1 [(0x2A, 15)],
      capBody 1 [(0x2A, 0xE1), (0x2B, 16)], capBody 1 [(0x3C, 0x4F)], capBody 1 [(0x40, 1)], capBody 1 [(0x7A, 0x11), (0x7B, 0x27)]],
      (queued Dev.reset b).takeHead 1 1 = some (b, Dev.reset) ∧ Dev.reset.check157 b (capConfigureSpec Dev.reset b) = none) ∧
    (capDev (capOf [] { st := .waiting })).check157 x (capConfigureSpec (capDev (capOf [] { st := .waiting })) x) = none := by
  dsimp only
  refine ⟨⟨rfl, ?_⟩, ?_, ?_, ?_, ?_, ?_, ?_, ?_, ⟨rfl, ?_⟩, ?_, ?_, ⟨rfl, ?_⟩, ?_, ?_, ?_, ⟨rfl, ?_⟩, ?_, ?_, ?_⟩ <;> decide +kernel
theorem wit_CaptureStartStopSubst :
    let e := capDev (capOf [] { st := .normal, tick := 2, opened := true })
    let late := capBody 2 [(8, 0), (9, 0x5A), (10, 0x62), (11, 2)]
    let soon := capBody 3 [(8, 1), (9, 0x5A), (10, 0x62), (11, 2)]
    let strict := capBody 4 [(4, 2), (8, 1), (0x26, 1), (0x22, 0), (0x24, 0), (0x27, 0), (0x28, 0), (0x2A, 0), (0x2C, 0), (0x30, 0), (0x34, 0), (0x38, 0), (0x3C, 0), (0x3D, 0), (0x43, 0)]
    late.eff = (e.capIn 191).mt 2 ∧ soon.eff = late.eff + 1 ∧ (e.capIn 191).nextTick = 3 ∧ late.strict = false ∧ strict.strict = true ∧ strict.eff = 1 ∧
    (queued e late).Takes 1 2 capStartSpec late e ∧ (queued e soon).Takes 1 3 capStartSpec soon e ∧ (queued e strict).Takes 1 4 capSubstSpec strict e ∧
    (queued e (capBody 2 [])).Takes 1 2 capStartSpec (capBody 2 []) e ∧ (capBody 2 []).eff = 0 ∧ e.twinnedInput 191 = false ∧ e.dozing = false ∧
    ({ e with ctl := { power := 1 } } : Dev).dozing = true ∧ (e.capIn 191).st ≠ .unconfigured ∧ strict.get 0x26 1 ≤ 1 := by
  dsimp only
  refine ⟨?_, ?_, ?_, ?_, ?_, ?_, ⟨rfl, ?_⟩, ⟨rfl, ?_⟩, ⟨rfl, ?_⟩, ⟨rfl, ?_⟩, ?_, ?_, ?_, ?_, ?_, ?_⟩ <;> decide +kernel

/-- The raster that is being received: slot 3 holds the stamp of timestamp 0, and line 15 has its first 14 samples. -/
def capRx (kind : Byte) : Cap :=
  capOf [(0x22, kind), (0x74, 1), (0x75, 0)] { st := .waiting, sdiSlot := some 3, slots := [(3, { stamp := some 0, groups := [(15, [(0, 14)])] })] }

/-- That input, read by a layer of scene 63, which feeds channel 511, whose flow no channel is bound to. -/
def fedDev : Dev := { capDev (capRx 0) with
  layer := [(504, { cfg := bytesOf 64 [(0x23, 1), (0x26, 191)] })]
  chan := [(511, { chanOf [(0x34, 3), (0x35, 15), (0x42, 2), (0x4C, 0xFF), (0x4D, 0xFF)] with st := .running })]
  flow := [(4095, { cfg := bytesOf 192 [(0x22, 3)] })] }

theorem wit_CaptureReception :
    let d := capDev (capRx 0)
    let c := d.capIn 191
    let g : LineSeg := ⟨15, 14, [0xFFF, 1], [], []⟩
    let z := capDev (capRx 1)
    let fed : Dev := fedDev
    d.paired = false ∧ d.absent = [] ∧ c.rx = true ∧ c.kind = 0 ∧ c.seenAt.get 0 7 = 0 ∧ c.holding (d.rtpStamp c 0) = some 3 ∧ (c.slotAt 3).key = 0 ∧ g.line < c.height ∧
    g.x + g.y.length ≤ c.width ∧ c.storeAddr + 3 * c.geom.slotSize + g.line * c.geom.pitch 0 + 2 * g.x + 2 * g.y.length ≤ d.capacity ∧
    g.line ∉ (c.slotAt 3).lines ∧ ({ c with seenAt := [(7, 1)] } : Cap).seenAt.get 0 7 = 0 + 1 ∧ c.links = 2 ∧ (z.capIn 191).kind = 1 ∧
    fed.fedBy 191 = [511] ∧ (fed.channel 511).spliceKey = true ∧ (fed.channel 511).st = .running ∧ fed.carried (fed.channel 511).flow = none ∧
    (∀ b : Bool, (⟨8, 0, 0⟩ : NetAddr) ≠ c.pathAddr b) ∧ 0 ∉ c.lastBad ∧ c.hearsAnc ⟨0, 0, 1⟩ = true ∧ g.y.length = 2 ∧ c.get 0x74 2 ≠ 0 ∧ 9 ∉ c.ancSeen ∧ c.lastB + 30000000 ≤ ({ d with ctl := { ticks := 30000000 } } : Dev).ctl.ticks ∧
    fed.audioFlows ⟨0, 0, 0, 0, []⟩ = [4095] ∧
    ∀ k ∈ ({ z with group := [(0, { stage := .active }), (1, { stage := .active })] }.capIn 191).sdiLanes,
      ({ z with group := [(0, { stage := .active }), (1, { stage := .active })] }.groupAt k).stage = .active := by
  dsimp only
  refine ⟨?_, ?_, ?_, ?_, ?_, ?_, ?_, ?_, ?_, ?_, ?_, ?_, ?_, ?_, ?_, ?_, ?_, ?_, ?_, ?_, ?_, ?_, ?_, ?_, ?_, ?_⟩ <;> decide +kernel
theorem wit_CaptureTicks :
    let d (c : Cap) : Dev := { capDev (capOf [] c) with tb := { ns := 1300000 } }
    let some_ : Cap := { st := .waiting, slots := [(3, { stamp := some 0, lines := [0] })] }
    let never : Cap := { st := .waiting }
    let seen : Cap := { st := .normal, everSeen := true, good := some 2 }
    let open_ : Cap := { st := .normal, opened := true, cand := true, nextLine := 15, conceal := [2], slots := [(3, { stamp := some 0, lines := [0] })] }
    let c (y : Cap) : Cap := (d y).capIn 191
    (d some_).paired = false ∧ (d some_).pend = [] ∧ (c some_).opened = false ∧ 0 < (c some_).height ∧ (c some_).dueTime (c some_).tick 0 = (d some_).cadence ∧
    (c some_).candidate (c some_).tick = some 3 ∧ 0 ∈ ((c some_).slotAt 3).lines ∧ ((c some_).slotAt 3).bad = false ∧ (c never).candidate (c never).tick = none ∧
    (c never).everSeen = false ∧ (c seen).candidate (c seen).tick = none ∧ (c seen).everSeen = true ∧ (d seen).flt.latched.get 0 25 = 0 ∧
    (c open_).nextLine < (c open_).height ∧ (c open_).dueTime 0 15 ≤ ({ d open_ with tb := { ns := 20050000 } } : Dev).cadence ∧
    (c open_).candidate (c open_).tick = some 3 ∧ 15 ∉ ((c open_).slotAt 3).lines ∧ (c open_).conceal ≠ [] ∧
    (c { open_ with nextLine := 16 }).height ≤ (c { open_ with nextLine := 16 }).nextLine := by
  dsimp only
  refine ⟨?_, ?_, ?_, ?_, ?_, ?_, ?_, ?_, ?_, ?_, ?_, ?_, ?_, ?_, ?_, ?_, ?_, ?_, ?_⟩ <;> decide +kernel

/-! ## The compositor -/

/-- CONFIGURE of scene 63: 16 x 16 at 50 Hz, one output of its size, with further bytes. -/
def mfBody (ps : List (Nat × Byte)) : Desc :=
  descOf 0x140 2 1 ([(0x20, 3), (0x22, 15), (0x24, 16), (0x26, 16), (0x28, 50), (0x2C, 1), (0x35, 1), (0x3A, 1), (0x3C, 0xFF), (0x3D, 0xFF), (0x3E, 1),
    (0x40, 16), (0x42, 16), (0x45, 1), (0x46, 2), (0x47, 8), (0x4B, 0x80)] ++ ps)
/-- The other scene commands, for scene 63. -/
def mfCmd (n op : Nat) (ps : List (Nat × Byte)) : Desc := descOf n 2 op ([(0x20, 3), (0x22, 15)] ++ ps)
/-- LAYER_COMMIT of layer 7 of scene 63. -/
def mfLay (ps : List (Nat × Byte)) : Desc := descOf 0x80 2 4 ([(0x20, 3), (0x21, 15), (0x22, 7)] ++ ps)
/-- A device with that scene. -/
def mfDev (c : Scene) : Dev := { Dev.reset with scene := [(63, { c with cfg := (mfBody []).bytes, outs := [(0, (mfBody []).entry 0)] })] }

theorem wit_CompositorCommands :
    let r := Dev.reset
    let d := mfDev {}
    let busy : Dev := { mfDev { running := true } with chan := [(511, { chanOf [(0x34, 3), (0x35, 15)] with st := .running })] }
    let x := mfBody []
    let rate : Dev := { r with layer := [(504, { cfg := bytesOf 64 [(0x23, 1), (0x26, 191)] })], cap := [(191, capOf [(0x34, 25)] {})] }
    let outp := mfCmd 0x60 5 [(0x40, 16), (0x42, 16), (0x46, 2), (0x47, 2), (0x4B, 0x80)]
    let wide := mfCmd 0x60 5 [(0x40, 18), (0x42, 16), (0x46, 2), (0x47, 2), (0x4B, 0x80)]
    let full : Dev := { d with cluster := [(3, { booked := [(48, 8000000)] })] }
    let edge : Dev := { d with cluster := [(3, { booked := [(48, 7999987)] })] }
    (queued r x).Takes 2 1 mfConfigureSpec x r ∧ mfBadScene x = false ∧ r.sceneRateBad 63 50 1 = false ∧ badOutput 16 16 (x.entry 0) = false ∧ (∀ p ∈ r.pend, p.unit ≠ 2) ∧
    (queued rate x).Takes 2 1 mfConfigureSpec x rate ∧ rate.sceneRateBad 63 50 1 = true ∧ (queued busy x).Takes 2 1 mfConfigureSpec x busy ∧ (busy.sceneAt 63).running = true ∧
    (∀ b ∈ [mfBody [(0x23, 3)], mfBody [(0x24, 17)], mfBody [(0x24, 14)], mfBody [(0x24, 2), (0x25, 30)], mfBody [(0x3A, 0)], mfBody ((0x3A, 9) :: (List.range 7).map fun j => (0x6B + 32 * j, 0x80)),
        mfBody [(0x30, 1), (0x31, 0xE1), (0x32, 0xF5), (0x33, 5)]],
      (queued r b).takeHead 2 1 = some (b, r) ∧ r.check157 b (mfConfigureSpec r b) = none) ∧
    (r.check157 (mfBody [(0x40, 18)]) (mfConfigureSpec r (mfBody [(0x40, 18)])) = none ∧ badOutput 16 16 ((mfBody [(0x40, 18)]).entry 0) = true) ∧
    (queued d (mfCmd 0x40 2 [])).Takes 2 2 mfStartSpec (mfCmd 0x40 2 []) d ∧ d.dozing = false ∧ (mfCmd 0x40 2 []).eff = 0 ∧ d.twinnedScene 63 = false ∧
    sceneCost 16 16 50 1 = 13 ∧ 8000000 < full.mfBooked 3 + 13 ∧ edge.mfBooked 3 + 13 = 8000000 ∧
    (queued d (mfCmd 0x40 3 [])).Takes 2 3 mfStartSpec (mfCmd 0x40 3 []) d ∧ d.outputRead 63 none = false ∧ busy.outputRead 63 none = true ∧
    (queued d (mfLay [])).Takes 2 4 mfLayerSpec (mfLay []) d ∧ (queued d (mfLay [(0x23, 1), (0x46, 5)])).Takes 2 4 mfLayerSpec (mfLay [(0x23, 1), (0x46, 5)]) d ∧
    (queued d (mfLay [(0x23, 2)])).Takes 2 4 mfLayerSpec (mfLay [(0x23, 2)]) d ∧
    8 ≤ ((({ d with pend := List.replicate 8 { unit := 2, op := 4, obj := 511 } } : Dev)).pend.filter fun p => p.unit == 2 && p.op == 4 && p.obj == 511).length ∧
    (queued d outp).Takes 2 5 mfOutputSpec outp d ∧ (queued d wide).Takes 2 5 mfOutputSpec wide d ∧ badEntry (outp.entry 0) = false ∧
    badOutput 16 16 (outp.entry 0) = false ∧ badOutput 16 16 (wide.entry 0) = true ∧ badEntry (wide.entry 0) = false := by
  dsimp only
  refine ⟨⟨rfl, ?_⟩, ?_, ?_, ?_, ?_, ⟨rfl, ?_⟩, ?_, ⟨rfl, ?_⟩, ?_, ?_, ?_, ⟨rfl, ?_⟩, ?_, ?_, ?_, ?_, ?_, ?_, ⟨rfl, ?_⟩, ?_, ?_, ⟨rfl, ?_⟩, ⟨rfl, ?_⟩, ⟨rfl, ?_⟩, ?_,
    ⟨rfl, ?_⟩, ⟨rfl, ?_⟩, ?_, ?_, ?_, ?_⟩ <;> decide +kernel

/-- A raster of scene 63 at its last row. -/
def lastRow : Raster := { tick := 1, outs := [(0, (mfBody []).entry 0)], rows := List.replicate 15 (List.replicate 16 (1, 2, 3)) }

theorem wit_Composition :
    let d := mfDev { running := true, tick := 1 }
    let p : Pend := { d := mfCmd 0x40 2 [], unit := 2, op := 2, obj := 63 }
    let go : Dev := { mfDev { starting := true } with pend := [p] }
    let row := mfDev { running := true, work := [lastRow] }
    let c := row.sceneAt 63
    let late : Dev := { mfDev { running := true, work := [{ lastRow with rows := [] }] } with tb := { ns := 50000000 } }
    (d.sceneAt 63).cfg ≠ [] ∧ (d.sceneAt 63).mt 1 = ({ d with tb := { ns := 20000000 } } : Dev).cadence ∧ go.pend = [p] ∧ p.due ((go.sceneAt 63).mt 0) = true ∧
    go.scalersUsed 3 + (go.sceneAt 63).outScalers ≤ 32 ∧ c.work = [lastRow] ∧ lastRow.rows.length < c.height ∧ row.ctl.islBusy ≠ some 23 ∧
    (∀ l ∈ lastRow.layers, l.enabled = false) ∧ c.outCount = 1 ∧ outOn (lastRow.outs.get [] 0) = true ∧ outW (lastRow.outs.get [] 0) = c.width ∧
    outH (lastRow.outs.get [] 0) = c.height ∧ outHalf (lastRow.outs.get [] 0) = false ∧ (0, 15) ∉ lastRow.lost ∧ c.get 0x3C 2 = 0xFFFF ∧
    outSlot (lastRow.outs.get [] 0) 1 + 15 * (outGeom (lastRow.outs.get [] 0)).pitch 0 + 2 * c.width ≤ row.capacity ∧
    0 ≤ c.outLast (lastRow.outs.get [] 0) 0 ∧ late.outBound (late.sceneAt 63) { lastRow with rows := [] } (lastRow.outs.get [] 0) 0 + 50000 ≤ late.cadence ∧
    late.flt.latched.get 0 28 = 0 := by
  dsimp only
  refine ⟨?_, ?_, ?_, ?_, ?_, ?_, ?_, ?_, ?_, ?_, ?_, ?_, ?_, ?_, ?_, ?_, ?_, ?_, ?_, ?_⟩ <;> decide +kernel

/-! ## Encoder -/

/-- LOAD of channel 511: HEVC Main 10, 1920 x 1080 at 50 Hz, with further bytes. -/
def loadBody (ps : List (Nat × Byte)) : Desc :=
  descOf 0x800 4 1 ([(0x20, 0xFF), (0x21, 1), (0x22, 1), (0x23, 1), (0x24, 41), (0x26, 8), (0x27, 64), (0x28, 0x80), (0x29, 7), (0x2A, 0x38), (0x2B, 4),
    (0x2C, 50), (0x30, 1), (0x3F, 1), (0x40, 1), (0x4B, 4), (0x4F, 3), (0x53, 0x80), (0x5B, 0x90), (0x63, 0xA0), (0x6A, 0x20), (0x101, 1), (0x103, 1), (0x109, 0x12),
    (0x10A, 0x7A), (0x119, 9), (0x11A, 0x3D), (0x121, 9), (0x122, 0x3D), (0x128, 20), (0x129, 40), (0x12A, 30), (0x12D, 1), (0x12E, 32), (0x131, 1)] ++ ps)

/-- The other ENC commands, for channel 511. -/
def encCmd (n op : Nat) (ps : List (Nat × Byte)) : Desc := descOf n 4 op ([(0x20, 0xFF), (0x21, 1)] ++ ps)

/-- That channel, over a scene 0 whose output it reads. -/
def encDev (c : Chan) : Dev :=
  { Dev.reset with chan := [(511, { c with ctx := (loadBody []).bytes, rc := ((loadBody []).bytes.drop 0x100).take 256 })]
                   scene := [(0, { running := true, cfg := bytesOf 64 [(0x24, 0x80), (0x25, 7), (0x26, 0x38), (0x27, 4), (0x28, 50), (0x2C, 1), (0x3A, 1)]
                                   outs := [(0, bytesOf 32 [(0, 0x80), (1, 7), (2, 0x38), (3, 4), (4, 1), (5, 1)])] })] }

theorem wit_EncoderCommands :
    let r := Dev.reset
    let x := loadBody []
    let y := x.loaded
    let adm := encDev { st := .admitted, pipes := [0] }
    let run := encDev { st := .running, pipes := [0] }
    let cmd (n op : Nat) := encCmd n op []
    let rate := encCmd 0x80 5 [(0x22, 1), (0x29, 0x12), (0x2A, 0x7A), (0x39, 9), (0x3A, 0x3D)]
    let stats := encCmd 0x40 6 [(0x2B, 0x80)]
    let park (on : Byte) := descOf 0x40 4 7 [(0x20, 15), (0x21, on)]
    (queued r x).Takes 4 1 encLoadSpec x r ∧ (y.badFields || y.badAreas || y.rcBad true) = false ∧ y.badFormat = false ∧ y.badGeometry = false ∧ (r.channel 511).held = false ∧
    (let z := (loadBody [(0x24, 10)]).loaded; (z.badFields || z.badAreas || z.rcBad true) = false ∧ z.badFormat = false ∧ z.badGeometry = true) ∧
    (let z := (loadBody [(0x22, 4)]).loaded; (z.badFields || z.badAreas || z.rcBad true) = false ∧ z.badFormat = true) ∧
    ((loadBody [(0x26, 9)]).loaded.badFields = true) ∧ (adm.channel 511).held = true ∧
    (queued adm (cmd 64 2)).Takes 4 2 (encChanSpec [(0x22, 30)]) (cmd 64 2) adm ∧ adm.startFormat (adm.channel 511) = false ∧
    (adm.channel 511).width = outW ((adm.sceneAt 0).out 0) ∧ (adm.channel 511).height = outH ((adm.sceneAt 0).out 0) ∧ adm.startDelay (adm.channel 511) = false ∧
    (adm.channel 511).twin = 0 ∧ (∀ p ∈ (adm.channel 511).pipes, (adm.pipeAt p).parked = false) ∧
    (queued run (cmd 64 3)).Takes 4 3 (encChanSpec [(0x22, 30)]) (cmd 64 3) run ∧ (run.channel 511).st = .running ∧
    (queued run (cmd 64 4)).Takes 4 4 (encChanSpec [(0x23, 29)]) (cmd 64 4) run ∧ 2 < (encCmd 64 4 [(0x22, 3)]).get 0x22 1 ∧
    (queued run rate).Takes 4 5 encRateSpec rate run ∧ rateFieldsBad rate = false ∧ ({ run.channel 511 with rc := applyRate (run.channel 511).rc rate } : Chan).rcBad false = false ∧
    ({ run.channel 511 with rc := applyRate (run.channel 511).rc rate } : Chan).rcGeometry = false ∧ (run.channel 511).isXs = false ∧
    (queued run stats).Takes 4 6 encStatsSpec stats run ∧ stats.get 0x28 8 % 16 = 0 ∧ stats.statusAddr + 16 ≤ stats.get 0x28 8 ∧
    (queued run (park 1)).Takes 4 7 encParkSpec (park 1) run ∧ run.sharing 15 = [] ∧ run.sharing 0 ≠ [] ∧ run.dozing = false ∧ (run.pipeAt 15).unpark = none ∧
    (queued run (park 0)).Takes 4 7 encParkSpec (park 0) run ∧ (({ run with pipe := [(15, { unpark := some (park 0) })] } : Dev).pipeAt 15).unpark = some (park 0) := by
  dsimp only
  refine ⟨⟨rfl, ?_⟩, ?_, ?_, ?_, ?_, ?_, ?_, ?_, ?_, ⟨rfl, ?_⟩, ?_, ?_, ?_, ?_, ?_, ?_, ⟨rfl, ?_⟩, ?_, ⟨rfl, ?_⟩, ?_, ⟨rfl, ?_⟩, ?_, ?_, ?_, ?_, ⟨rfl, ?_⟩, ?_, ?_,
    ⟨rfl, ?_⟩, ?_, ?_, ?_, ?_, ⟨rfl, ?_⟩, ?_⟩ <;> decide +kernel

/-- Channel 511 in coding: its first picture, whose band 0 has row `n` of 17 to code next. -/
def codingDev (n : Nat) (q : Pipe) (c : Chan) : Dev :=
  let d := encDev { c with st := .running, pipes := [0], rows := [17], shares := [5], flight := [{ typ := .key, bands := [{ first := 0, last := 16, next := n }] }] }
  { d with scene := d.scene.map (fun p => (p.1, { p.2 with tick := 5 })), pipe := [(0, q)] }

theorem wit_PipesAndDeadlines :
    let d := codingDev 15 { cur := some (511, 0, 0, 15), out := true } {}
    let b : Band := { first := 0, last := 16, next := 15 }
    let idle := codingDev 16 {} {}
    let due : Dev := { encDev { st := .running, pipes := [0] } with tb := { ns := 67108864 } }
    let two : Dev := { due with chan := due.chan.map fun p => (p.1, { p.2 with ctx := overlay p.2.ctx 0x38 [1] }) }
    let r := Dev.reset
    (d.pipeAt 0).cur = some (511, 0, 0, 15) ∧ d.pipeServes 0 = false ∧ (d.channel 511).flight = [{ typ := .key, bands := [b] }] ∧ b.last + 1 = (d.channel 511).rowCount ∧
    (d.channel 511).latMode = 0 ∧ (idle.pipeAt 0).cur = none ∧ idle.pipeServes 0 = true ∧ ((idle.pick 0).map fun k => (k.ch, k.mem, k.pic.isSome)) = some (511, 0, true) ∧
    (two.channel 511).active = true ∧ (two.channel 511).flight = [] ∧ (two.channel 511).cls ≠ 0 ∧ (two.channel 511).latMode ≠ 1 ∧ (two.twinCh 511).phase ≠ 2 ∧
    two.paired = false ∧ two.pend = [] ∧ ((two.channel 511).dueAt 0).1 = two.cadence * ((two.channel 511).dueAt 0).2 ∧ r.flt.latched.get 0 31 = 0 ∧ r.flt.classOf 31 = 2 ∧
    r.fab.shed = [] ∧ (d.pipeAt 0).out = true ∧ d.flt.status.getLsbD 31 = false ∧ 511 ∈ d.sharing 0 := by
  dsimp only
  refine ⟨?_, ?_, ?_, ?_, ?_, ?_, ?_, ?_, ?_, ?_, ?_, ?_, ?_, ?_, ?_, ?_, ?_, ?_, ?_, ?_, ?_, ?_⟩ <;> decide +kernel

/-! ## Blit engines and the decoder -/

/-- A job for engine 3 with destination format 7, 2 x 2 pixels over two 256-byte rows, and further bytes. -/
def blitBody (op : Nat) (ps : List (Nat × Byte)) : Desc :=
  descOf 0x80 3 op ([(0x20, 3), (0x23, 7), (0x24, 7), (0x28, 2), (0x2A, 2), (0x33, 0x80), (0x39, 1), (0x4B, 0x90), (0x51, 1)] ++ ps)

/-- FILL takes no source. -/
def fillBody (ps : List (Nat × Byte)) : Desc := blitBody 1 ([(0x23, 0), (0x33, 0), (0x39, 0), (0x58, 0xA5)] ++ ps)

/-- Engine 3 with a job, at a row and a chunk. -/
def blitDev (b : Blit) : Dev := { Dev.reset with blit := [(3, b)] }

theorem wit_BlitEngines :
    let r := Dev.reset
    let f := fillBody []
    let wide := fillBody [(0x29, 2), (0x51, 3)]
    let c := blitBody 2 [(0x28, 0), (0x29, 2), (0x39, 2), (0x51, 2), (0x2E, 1)]
    let geo := fillBody [(0x29, 1), (0x28, 1)]
    let conv := blitBody 3 [(0x24, 1)]
    let a := blitDev { job := some wide }
    let b := blitDev { job := some c, moved := 15 }
    let p := { b with poison := [0x80000000 / 64] }
    let l := blitDev { job := some f, row := 1 }
    let g := blitDev { job := some f, gapEnd := some 0 }
    (queued r f).Takes 3 1 blitSpec f r ∧ blitBad f = false ∧ blitFormat f = false ∧ blitGeometry f = false ∧ (r.engine 3).job = none ∧ (r.engine 3).queue = [] ∧
    (queued a c).Takes 3 2 blitSpec c a ∧ blitBad c = false ∧ blitFormat c = false ∧ blitGeometry c = false ∧ (a.engine 3).job ≠ none ∧
    (queued r geo).Takes 3 1 blitSpec geo r ∧ blitBad geo = false ∧ blitFormat geo = false ∧ blitGeometry geo = true ∧
    (queued r conv).Takes 3 3 blitSpec conv r ∧ blitBad conv = false ∧ blitFormat conv = true ∧
    (queued r (fillBody [(0x2C, 3)])).Takes 3 1 blitSpec (fillBody [(0x2C, 3)]) r ∧
    (a.engine 3).gapEnd = none ∧ a.ctl.islBusy ≠ some 25 ∧ (wide.chunks 0)[0]? = some ⟨0, 0, 0, 256⟩ ∧ 1 < (wide.chunks 0).length ∧
    wide.bDst.rowAddr 0 0 + 256 ≤ a.capacity ∧ b.poisoned (c.bSrc.rowAddr 0 0) 256 = false ∧ 1 < (c.chunks 0).length ∧ p.poisoned (c.bSrc.rowAddr 0 0) 256 = true ∧
    p.flt.latched.get 0 29 = 0 ∧ (f.chunks 0).length = 1 ∧ f.get 0x2C 2 = 0 ∧ f.get 0x2A 2 ≤ (l.engine 3).row + 1 ∧ (g.engine 3).gapEnd = some 0 := by
  dsimp only
  refine ⟨⟨rfl, ?_⟩, ?_, ?_, ?_, ?_, ?_, ⟨rfl, ?_⟩, ?_, ?_, ?_, ?_, ⟨rfl, ?_⟩, ?_, ?_, ?_, ⟨rfl, ?_⟩, ?_, ?_, ⟨rfl, ?_⟩,
    ?_, ?_, ?_, ?_, ?_, ?_, ?_, ?_, ?_, ?_, ?_, ?_, ?_⟩ <;> decide +kernel

/-- CONFIGURE of stream 15 over input 191 of KIND 2, and the other DEC commands. -/
def decBody (ps : List (Nat × Byte)) : Desc :=
  descOf 0x80 5 1 ([(0x20, 15), (0x23, 1), (0x24, 1), (0x25, 1), (0x26, 191), (0x30, 32), (0x3E, 16), (0x64, 1), (0x6B, 0x90), (0x70, 2)] ++ ps)
def decCmd (op : Nat) : Desc := descOf 0x40 5 op [(0x20, 15)]

/-- That input, receiving, and a stream. -/
def decDev (ps : List (Nat × Byte)) (s : Dec) : Dev :=
  { capDev (capOf ([(0x22, 2), (0x24, 8)] ++ ps) { st := .waiting }) with dec := [(15, { s with cfg := (decBody []).bytes })] }

theorem wit_DecoderCommands :
    let e := decDev [] {}
    let on := decDev [] { st := .decoding }
    let off := decDev [] { st := .stopped }
    let big := decDev [(0x28, 0), (0x29, 0x40), (0x2A, 0), (0x2B, 0x40)] {}
    let sdi := decDev [(0x22, 0)] {}
    let booked : Dev := { off with dec := off.dec ++ [(0, { cfg := (decBody []).bytes, booked := 3000000 })] }
    let x := decBody []
    (queued e x).Takes 5 1 decConfigureSpec x e ∧ (e.stream 15).active = false ∧ e.decBadField x = false ∧ e.decBadFormat x = false ∧ e.decBadGeometry x = false ∧
    (∀ p ∈ e.pend, p.unit ≠ 5) ∧ (queued on x).Takes 5 1 decConfigureSpec x on ∧ (on.stream 15).active = true ∧
    (let y := decBody [(0x3E, 0), (0x3D, 0xFF)]; (queued e y).Takes 5 1 decConfigureSpec y e ∧ y.get 0x3C 4 < 2 ^ 20) ∧
    sdi.decBadField x = false ∧ sdi.decBadFormat x = true ∧ (queued sdi x).Takes 5 1 decConfigureSpec x sdi ∧
    big.decBadField x = false ∧ big.decBadFormat x = false ∧ big.decBadGeometry x = true ∧ (queued big x).Takes 5 1 decConfigureSpec x big ∧
    (queued off (decCmd 2)).Takes 5 2 decStreamSpec (decCmd 2) off ∧ (off.stream 15).st = .stopped ∧ (off.stream 15).starting = false ∧ off.dozing = false ∧
    off.decBooked (off.stream 15).pipe + (off.capIn (off.stream 15).input).decCost ≤ 3000000 ∧ (decCmd 2).eff = 0 ∧ off.decTwinned 15 = false ∧
    3000000 < booked.decBooked 0 + (booked.capIn (booked.stream 15).input).decCost ∧ (queued booked (decCmd 2)).Takes 5 2 decStreamSpec (decCmd 2) booked ∧
    (queued on (decCmd 3)).Takes 5 3 decStreamSpec (decCmd 3) on ∧ (on.stream 15).st ≠ .unconfigured ∧ (queued Dev.reset (decCmd 3)).Takes 5 3 decStreamSpec (decCmd 3) Dev.reset := by
  dsimp only
  refine ⟨⟨rfl, ?_⟩, ?_, ?_, ?_, ?_, ?_, ⟨rfl, ?_⟩, ?_, ⟨⟨rfl, ?_⟩, ?_⟩, ?_, ?_, ⟨rfl, ?_⟩, ?_, ?_, ?_, ⟨rfl, ?_⟩, ⟨rfl, ?_⟩, ?_, ?_, ?_, ?_, ?_, ?_, ?_, ⟨rfl, ?_⟩, ⟨rfl, ?_⟩,
    ?_, ⟨rfl, ?_⟩⟩ <;> decide +kernel

/-- One TS packet of stream 15's data, a FEC packet that covers it alone, and a 16 x 16 picture of it. -/
def decPk : DecPkt := ⟨⟨0, 0, 0⟩, 0, 7, bytesOf 188 [(0, 0x47), (1, 0x40), (2, 32)], 0, 0, none⟩
def fecPk : DecPkt := { decPk with addr := ⟨0, 0, 2⟩, seq := 9, fec := some ⟨false, 7, 1, 1⟩ }
def decPc (profile : Nat) (irap : Bool) : DecPic :=
  { cont := false, id := 5, ts := 5, width := 16, height := 16, half := false, depth := 10, profile := profile, level := 5, unsupported := false, irap := irap, rasl := false
    recStart := false, recEnd := none, complete := true, gap := false, badRegions := [], refs := [4], keep := [5], dpb := 1, immediate := true, releases := 0, nbytes := 1, lines := [] }

theorem wit_DecoderReception :
    let d := decDev [] { st := .decoding, fill := 2 ^ 20 - 188 }
    let y := d.stream 15
    let k := decDev [] { st := .seeking }
    let xs : Dev := { d with dec := [(15, { y with cfg := overlay y.cfg 0x23 [3] })] }
    let s := d.decStamp (xs.stream 15) 5
    let full := decDev [] { st := .decoding, fill := 2 ^ 20 }
    let fec : Dev := { d with dec := [(15, { y with cfg := overlay y.cfg 0x33 [1] })] }
    let f := fec.stream 15
    (∀ e ∈ [d, k, xs, full, fec], e.paired = false ∧ e.absent = []) ∧ y.fecs = [] ∧ f.hears false fecPk = true ∧ f.active = true ∧ f.seenAt.get 0 fecPk.key = 0 ∧ f.declared = [] ∧
    f.fecs = [] ∧ fecPk.contLost = 0 ∧ (FecHdr.covers ⟨false, 7, 1, 1⟩).filter (fun r => (f.media.get [] r).isEmpty) = [7] ∧ 7 ≠ fecPk.key ∧
    f.fill + (f.carried fecPk.bytes 0).1.length ≤ f.bsSize ∧ f.media = [] ∧ (full.stream 15).hears false decPk = true ∧ (full.stream 15).bsSize < (full.stream 15).fill + 188 ∧ y.active = true ∧ y.seenAt.get 0 7 = 0 ∧ y.declared = [] ∧ y.fill + 188 ≤ y.bsSize ∧ d.flt.latched.get 0 33 = 0 ∧
    d.decServes y.pipe = true ∧ (k.stream 15).st = .seeking ∧ y.codec ≠ 3 ∧ (xs.stream 15).codec = 3 ∧ (xs.stream 15).st = .decoding ∧ s ∉ (xs.stream 15).stamps ∧
    (xs.capIn 191).rx = true ∧ (xs.capIn 191).kind = 2 ∧ (xs.capIn 191).holding s = none ∧ (xs.capIn 191).tooEarly s = false ∧ (xs.capIn 191).victim ≠ none ∧
    d.flt.latched.get 0 34 = 0 ∧ d.flt.classOf 34 = 2 ∧ (({ d with decPipe := [(3, { out := true })] } : Dev).decPipeAt 3).out = true ∧ d.flt.status.getLsbD 34 = false ∧
    d.dec = [(15, y)] ∧ y.pipe = 0 ∧ y.hears false decPk = true ∧ y.hears false { decPk with addr := ⟨1, 0, 0⟩ } = false ∧ (y.carried decPk.bytes decPk.pics).1.length = 188 ∧ decPk.contLost = 0 ∧ decPk.fec = none ∧
    y.bsPtr < y.bsSize ∧ y.bsAddr + y.bsSize ≤ d.capacity ∧ (decPc 2 false).cont = false ∧ (decPc 2 false).irap = false ∧ y.decodable (decPc 2 true) = true ∧ y.decodable (decPc 9 true) = false ∧
    (decPc 2 true).rasl = false ∧ y.missRefs (decPc 2 true) ≠ [] ∧ (xs.stream 15).decodable (decPc 0 true) = true ∧ (decPc 0 true).immediate = true ∧ (decPc 0 true).releases = 0 ∧
    ((xs.stream 15).pics + 1) % 2 ^ 32 ∉ (xs.capIn 191).lastBad ∧ (let z := { decPc 0 true with depth := 8 }; (xs.stream 15).decodable z = true ∧ (xs.capIn 191).decFits z = true) := by
  dsimp only
  refine ⟨?_, ?_, ?_, ?_, ?_, ?_, ?_, ?_, ?_, ?_, ?_, ?_, ?_, ?_, ?_, ?_, ?_, ?_, ?_, ?_, ?_, ?_, ?_, ?_, ?_, ?_, ?_, ?_, ?_, ?_, ?_, ?_, ?_, ?_, ?_, ?_, ?_, ?_, ?_, ?_, ?_, ?_, ?_, ?_, ?_, ?_, ?_, ?_, ?_, ?_, ?_, ?_, ?_, ?_⟩ <;> decide +kernel

/-! ## The twin pair -/

/-- CONFIGURE of the twin link on lanes 252 to 255, RESYNC of channel 511, and UNPAIR. -/
def twinBody (ps : List (Nat × Byte)) : Desc := descOf 64 11 1 ([(0x20, 252), (0x22, 10), (0x24, 100), (0x26, 1), (0x2B, 0x80)] ++ ps)
def resyncBody : Desc := descOf 64 11 3 [(0x20, 255), (0x21, 1)]

/-- A half whose twinned channel 511 reads input 191 and the pair is in state `st`. -/
def pairDev (st : PairState) (c : Cap) (ch : Chan) (k : Dec) : Dev := { capDev c with
  layer := [(504, { cfg := bytesOf 64 [(0x23, 1), (0x26, 191)] })]
  dec := [(15, { k with cfg := (decBody [(0x34, 1)]).bytes })]
  chan := [(511, { chanOf [(0x34, 3), (0x35, 15), (0x4E, 1), (0x63, 0x90)] with st := .running, flight := ch.flight, pics := ch.pics, outNext := ch.outNext, shed := ch.shed })]
  twin := { st := st, cfg := (twinBody []).bytes } }

theorem wit_PairingAndPartition :
    let r := Dev.reset
    let x := twinBody []
    let link : Dev := { r with twin := { st := .linking, cfg := x.bytes }, group := [(252, { proto := 3, width := 4, stage := .caps })] }
    let mine (e : Dev) : PairingRecord := ⟨0xB0, !e.ctl.senior, e.meas 0, e.meas 1, e.meas 2, 0, 0⟩
    let on := pairDev .paired (capRx 0) {} {}
    let un : Desc := descOf 64 11 2 []
    (queued r x).Takes 11 1 twinConfigureSpec x r ∧ r.twin.st = .unpaired ∧ r.dozing = false ∧ (∀ i, i < 4 → r.groupOf (252 + i) = none) ∧
    (queued link x).Takes 11 1 twinConfigureSpec x link ∧ link.twin.st = .linking ∧
    (queued r (twinBody [(0x26, 9)])).Takes 11 1 twinConfigureSpec (twinBody [(0x26, 9)]) r ∧
    (let e : Dev := { r with group := [(255, { proto := 1, width := 1 })] }; (queued e x).Takes 11 1 twinConfigureSpec x e ∧ e.groupOf (252 + 3) ≠ none) ∧
    (queued on un).Takes 11 2 twinUnpairSpec un on ∧ on.chan.any (fun q => q.2.twin == 1 && q.2.active) = true ∧ (queued link un).Takes 11 2 twinUnpairSpec un link ∧
    link.chan.any (fun q => q.2.twin == 1 && q.2.active) = false ∧ (queued on resyncBody).Takes 11 3 twinResyncSpec resyncBody on ∧ on.twin.st = .paired ∧
    (on.channel 511).st = .running ∧ (on.channel 511).twin = 1 ∧ (queued r resyncBody).Takes 11 3 twinResyncSpec resyncBody r ∧ link.twin.firstLane = 252 ∧
    (link.groupAt 252).proto = 3 ∧ (link.groupAt 252).stage = .caps ∧ (link.groupAt 252).retryAt = none ∧ link.twin.halt = false ∧ link.halted = false ∧
    (mine link).senior ≠ link.ctl.senior ∧ on.twin.lanesUp = [] ∧ link.twin.cfg ≠ [] ∧
    link.ctl.islBusy ≠ some 30 ∧ on.twin.cfg ≠ [] ∧ r.twin.cfg = [] ∧ r.octetFull (252 / 8) 112500000 = false ∧
    (let e : Dev := { r with group := [(248, { proto := 1, width := 1, cfg := bytesOf 64 [(0x28, 1)] }), (249, { proto := 1, width := 1, cfg := bytesOf 64 [(0x28, 2)] })] };
      (queued e x).Takes 11 1 twinConfigureSpec x e ∧ e.octetFull (252 / 8) 112500000 = true) ∧
    (let e : Dev := { on with twin := { on.twin with st := .partitioned, lanesUp := [252] } }; e.twin.st = .partitioned ∧ e.twin.lanesUp ≠ [] ∧ e.halted = false) := by
  dsimp only
  refine ⟨⟨rfl, ?_⟩, ?_, ?_, ?_, ⟨rfl, ?_⟩, ?_, ⟨rfl, ?_⟩, ⟨⟨rfl, ?_⟩, ?_⟩, ⟨rfl, ?_⟩, ?_, ⟨rfl, ?_⟩, ?_, ⟨rfl, ?_⟩, ?_, ?_, ?_, ⟨rfl, ?_⟩, ?_, ?_, ?_, ?_, ?_, ?_, ?_, ?_, ?_, ?_, ?_, ?_, ?_, ⟨⟨rfl, ?_⟩, ?_⟩, ?_⟩ <;> decide +kernel

theorem wit_InputReconciliation :
    let d := pairDev .paired (capRx 0) {} {}
    let c := d.capIn 191
    let pkt : VideoPkt := ⟨⟨0, 0, 0⟩, 8, 0, true, [⟨15, 14, [0xFFF, 1], [], []⟩]⟩
    let g : LineSeg := ⟨15, 14, [0xFFF, 1], [], []⟩
    let bare := pairDev .paired (capOf [] { st := .waiting }) {} {}
    let dig : Dev := { d with twin := { d.twin with digests := [(191, 5, 1)] } }
    let p : DecPkt := ⟨⟨0, 0, 0⟩, 0, 9, [1], 1, 0, none⟩
    let sdi := pairDev .paired (capRx 1) {} {}
    let con := pairDev .paired (capOf [(0x22, 2), (0x24, 8)] { st := .waiting }) {} { st := .decoding }
    let q := pairDev .paired (capRx 0) {} { st := .decoding, waiting := [p] }
    let sen : Dev := { pairDev .paired (capRx 0) {} { st := .decoding, seenAt := [(10, 1)] } with ctl := { senior := true, ticks := 3000 } }
    (∀ e ∈ [d, bare, dig, con, q, sen, sdi], e.twin.cfg ≠ [] ∧ e.ctl.islBusy ≠ some 30) ∧ c.get 0x74 2 ≠ 0 ∧ 9 ∉ c.ancSeen ∧ d.ctl.senior = false ∧ con.streamOf 191 = some 15 ∧
    (con.stream 15).input = 191 ∧ (con.stream 15).active = true ∧ con.ctl.senior = false ∧ (con.stream 15).declared = [] ∧ (con.stream 15).seenAt.get 0 p.key = 0 ∧
    c.candidate c.tick = some 3 ∧ 3 ∉ (c.slotAt 3).lines ∧ sdi.follows 191 = true ∧ (sdi.capIn 191).kind = 1 ∧ (sdi.capIn 191).sdiWait = [] ∧ (sdi.capIn 191).nearestSlot 0 = some 3 ∧
    d.paired = true ∧ d.twinnedInput 191 = true ∧ c.ancWait = [] ∧ c.rx = true ∧ c.kind = 0 ∧ c.holds pkt.seq = false ∧ c.holding (d.rtpStamp c pkt.ts) = some 3 ∧
    (c.slotAt 3).key = pkt.ts ∧ g.line < c.height ∧ g.x + g.y.length ≤ c.width ∧
    c.storeAddr + 3 * c.geom.slotSize + g.line * c.geom.pitch 0 + 2 * g.x + 2 * g.y.length ≤ d.capacity ∧
    dig.twin.digests.find? (fun q => q.1 == 191 && q.2.1 == 5) = some (191, 5, 1) ∧ d.twin.digests.find? (fun q => q.1 == 191 && q.2.1 == 5) = none ∧
    dig.flt.latched.get 0 36 = 0 ∧ d.follows 191 = true ∧ (bare.capIn 191).kind = 0 ∧ bare.follows 191 = true ∧ (bare.capIn 191).candidate (bare.capIn 191).tick = none ∧ (q.stream 15).active = true ∧ q.decFollows 15 = true ∧ (q.stream 15).declared = [] ∧
    (q.stream 15).waiting = [p] ∧ (q.stream 15).fill + p.bytes.length ≤ (q.stream 15).bsSize ∧ p.contLost = 0 ∧ p.key = 9 ∧ p.fec = none ∧ (q.stream 15).repairs = false ∧
    (q.stream 15).fill + ((q.stream 15).carried p.bytes p.pics).1.length ≤ (q.stream 15).bsSize ∧ (q.stream 15).bsPtr < (q.stream 15).bsSize ∧
    (q.stream 15).lost ≤ 65535 ∧ con.paired = true ∧ con.twinnedInput 191 = true ∧ (con.capIn 191).kind = 2 ∧ con.streamOf 191 = some 15 ∧ c.kind ≠ 2 ∧ pkt.ts ∉ c.lastBad ∧ 9 ∉ (sen.stream 15).theirs ∧ sen.paired = true ∧ sen.ctl.senior = true ∧ sen.decTwinned 15 = true ∧
    (sen.stream 15).active = true ∧ (sen.stream 15).seenAt.get 0 9 = 0 ∧ (9, false) ∉ (sen.stream 15).declared ∧ (sen.stream 15).laterArrival 9 = some 1 ∧
    1 + (sen.stream 15).skewUs * 3000 ≤ sen.ctl.ticks + 1 := by
  dsimp only
  refine ⟨?_, ?_, ?_, ?_, ?_, ?_, ?_, ?_, ?_, ?_, ?_, ?_, ?_, ?_, ?_, ?_, ?_, ?_, ?_, ?_, ?_, ?_, ?_, ?_, ?_, ?_, ?_, ?_, ?_, ?_, ?_, ?_, ?_, ?_, ?_, ?_, ?_, ?_, ?_, ?_, ?_, ?_, ?_, ?_, ?_, ?_, ?_, ?_, ?_, ?_, ?_, ?_, ?_, ?_, ?_, ?_, ?_, ?_, ?_, ?_, ?_⟩ <;> decide +kernel

/-- A KEYPIC of channel 511 that waits for its match since reset, with proposal 7. -/
def waitPend : Pend := { d := encCmd 64 4 [(0x22, 1)], unit := 4, op := 4, obj := 511, t := 7, since := 0, twin := .waiting 7 }

theorem wit_ChannelReconciliation :
    let d : Dev := { pairDev .paired (capRx 0) {} {} with pend := [waitPend], ctl := { ticks := 300000 } }
    let soon : Dev := { d with ctl := { ticks := 299999 } }
    let q : Pic := { typ := .key, mt := 20000000 }
    let fly : Dev := pairDev .paired (capRx 0) { flight := [q] } {}
    let fol : Dev := { fly with twin := { fly.twin with chs := [(511, { phase := 2, follower := true })] } }
    let old := pairDev .paired (capRx 0) { pics := 1 } {}
    (∀ e ∈ [d, soon, fly, fol, old], e.twin.cfg ≠ [] ∧ e.ctl.islBusy ≠ some 30 ∧ e.paired = true) ∧ (old.twinCh 511).owed = false ∧
    d.paired = true ∧ waitPend.internal = false ∧ waitPend.twin = .waiting 7 ∧ d.twin.proposals = [] ∧ waitPend.since + d.twin.matchUs * 3000 ≤ d.ctl.ticks ∧
    soon.ctl.ticks < waitPend.since + soon.twin.matchUs * 3000 ∧ fly.pend = [] ∧ fly.linked 511 = true ∧ (fly.channel 511).active = true ∧ (fly.channel 511).flight = [q] ∧
    q.released ≤ 0 ∧ q.limit = none ∧ (3, 511) ∉ fly.fab.shed ∧ (fol.twinCh 511).follower = true ∧ (fol.twinCh 511).phase = 2 ∧
    (fol.channel 511).mt ((fol.channel 511).k0 + (fol.channel 511).outNext) ≤ 0 ∧ fly.ownRecord 511 20000000 = none ∧
    (old.ownRecord 511 0).isSome = true ∧ ¬ (waitPend.unit = 4 ∧ waitPend.op = 2) ∧
    (∀ z ∈ [(4, 511), (2, 63), (5, 15)], ({ waitPend with unit := z.1, op := 2, obj := z.2 } : Pend).internal = false) ∧ (d.sceneAt 63).running = false ∧ (d.stream 15).active = false ∧ (old.twinCh 511).phase ≠ 3 ∧ (old.twinCh 511).copy = false := by
  dsimp only
  refine ⟨?_, ?_, ?_, ?_, ?_, ?_, ?_, ?_, ?_, ?_, ?_, ?_, ?_, ?_, ?_, ?_, ?_, ?_, ?_, ?_, ?_, ?_, ?_, ?_, ?_, ?_⟩ <;> decide +kernel

/-! ## The packager -/

/-- CONFIGURE of flow 4095 for queue 8191: RTP with payloads of 256 bytes, or a transport stream with cues. -/
def flowBody (ps : List (Nat × Byte)) : Desc :=
  descOf 0x100 6 1 ([(0x20, 0xFF), (0x21, 15), (0x25, 1), (0x26, 96), (0x2F, 1), (0x34, 0xFF), (0x35, 31), (0x36, 0xFF), (0x37, 0xFF), (0x3B, 0x80), (0x42, 4), (0xA4, 0xFF), (0xA5, 0xFF)] ++ ps)
def tsBody : Desc := flowBody [(0x22, 1), (0x26, 33), (0x2F, 0), (0x46, 1), (0x48, 0x40), (0x49, 0x42), (0x4A, 15), (0x50, 32), (0x52, 33), (0x54, 34), (0x56, 1)]
def flowCmd (op : Nat) (ps : List (Nat × Byte)) : Desc := descOf 64 6 op ([(0x20, 0xFF), (0x21, 15)] ++ ps)

/-- Channel 511 bound to that flow. -/
def flowDev (f : Flow) (c : Chan) : Dev := { Dev.reset with
  chan := [(511, { chanOf [(0x4C, 0xFF), (0x4D, 15), (0x63, 0x90)] with st := c.st, records := c.records, outNext := c.outNext })]
  flow := [(4095, f)] }

theorem wit_Packaging :
    let r := Dev.reset
    let x := flowBody []
    let y := flowBody [(0x22, 3), (0x26, 0), (0x2F, 0)]
    let on := flowDev { cfg := x.bytes } { st := .running }
    let off := flowDev { cfg := x.bytes } { st := .loaded }
    let full : Dev := { r with flow := (List.range 256).map fun i => (i, { cfg := y.bytes }) }
    let ts (n : Nat) := flowDev { cfg := tsBody.bytes } { st := .running, outNext := n }
    let sp (t fl : Byte) (eff : Nat) := flowCmd 3 [(0x22, t), (4, fl), (8, BitVec.ofNat 8 eff), (0x28, 9)]
    let rec0 : EsRec := { at_ := 0, len := 36 + 256, mt := 20000000, nals := [256], flags := 2 }
    let mute : EsRec := { rec0 with muted := true }
    let d (k : EsRec) := flowDev { cfg := x.bytes, tsBase := some 0 } { st := .running, records := [k] }
    let au (m : Nat) := flowDev { cfg := y.bytes, audio := [(m, [1, 2, 3])] } {}
    (queued r x).Takes 6 1 pkgConfigureSpec x r ∧ (r.flowAt 4095).configured = false ∧ pkgBadField x = false ∧ x.get 0x22 1 ≠ 3 ∧
    (queued on x).Takes 6 1 pkgConfigureSpec x on ∧ (on.flowAt 4095).configured = true ∧ pkgBadField y = false ∧ (queued full y).Takes 6 1 pkgConfigureSpec y full ∧
    256 ≤ (full.flow.filter fun q => q.2.configured && q.2.kind == 3).length ∧ (queued r (flowBody [(0x25, 0)])).Takes 6 1 pkgConfigureSpec (flowBody [(0x25, 0)]) r ∧
    (queued on (flowCmd 2 [])).Takes 6 2 pkgReleaseSpec (flowCmd 2 []) on ∧ (∃ q ∈ on.chan, (q.2.st = .running ∨ q.2.st = .stopping) ∧ q.2.flow = 4095) ∧
    (queued off (flowCmd 2 [])).Takes 6 2 pkgReleaseSpec (flowCmd 2 []) off ∧ (∀ q ∈ off.chan, q.2.flow = 4095 → q.2.st ≠ .running ∧ q.2.st ≠ .stopping) ∧ off.pend = [] ∧
    (∀ f ∈ ([(1, 0, 0), (2, 0, 0), (1, 0, 10), (1, 0, 9), (1, 2, 5), (5, 0, 5)] : List (Byte × Byte × Nat)),
      (queued (ts 2) (sp f.1 f.2.1 f.2.2)).takeHead 6 3 = some (sp f.1 f.2.1 f.2.2, ts 2) ∧
      (ts 2).check157 (sp f.1 f.2.1 f.2.2) (pkgSpliceSpec (ts 2) (sp f.1 f.2.1 f.2.2)) = none) ∧
    (ts 0).carried 4095 = some 511 ∧ ((ts 0).flowAt 4095).kind = 1 ∧ ((ts 0).flowAt 4095).pidScte ≠ 0 ∧ ((ts 0).channel 511).packed 5 = false ∧ ((ts 2).channel 511).packed 5 = true ∧ (ts 0).twinnedChannel 511 = false ∧
    (sp 1 2 5).strict = true ∧ (queued on (sp 1 0 0)).Takes 6 3 pkgSpliceSpec (sp 1 0 0) on ∧ (on.flowAt 4095).kind = 0 ∧
    (d rec0).bound 511 4095 = true ∧ ((d rec0).flowAt 4095).tsBase = some (((d rec0).channel 511).mt ((d rec0).channel 511).k0) ∧ ((d rec0).channel 511).codec ≠ 3 ∧
    256 ≤ ((d rec0).flowAt 4095).maxPayload ∧ ((d mute).channel 511).records = [mute] ∧ bitN rec0.flags 0 = false ∧ ((d rec0).flowAt 4095).get 0x40 4 = 262144 ∧
    (flowDev {} { records := [rec0] }).bound 511 4095 = false ∧ (au 0).media < 1 + ((au 1).flowAt 4095).get 0x5C 4 ∧ 0 + ((au 0).flowAt 4095).get 0x5C 4 ≤ (au 0).media ∧
    ((au 0).flowAt 4095).kind = 3 ∧ ((au 0).flowAt 4095).queueB = 0xFFFF := by
  dsimp only
  refine ⟨⟨rfl, ?_⟩, ?_, ?_, ?_, ⟨rfl, ?_⟩, ?_, ?_, ⟨rfl, ?_⟩, ?_, ⟨rfl, ?_⟩, ⟨rfl, ?_⟩, ?_, ⟨rfl, ?_⟩, ?_, ?_, ?_, ?_, ?_, ?_, ?_, ?_, ?_, ?_, ⟨rfl, ?_⟩,
    ?_, ?_, ?_, ?_, ?_, ?_, ?_, ?_, ?_, ?_, ?_, ?_, ?_⟩ <;> decide +kernel

/-! ## Traffic management -/

/-- QUEUE of queue 8191 on port 127, strict class 7; SHAPE of it and of the class; PORT, GATE and POLICER of the port. -/
def queueBody (ps : List (Nat × Byte)) : Desc := descOf 0x80 7 1 ([(0x20, 0xFF), (0x21, 31), (0x22, 127), (0x23, 7), (0x25, 16), (0x31, 64)] ++ ps)
def shapeBody (ps : List (Nat × Byte)) : Desc := descOf 0x40 7 2 ([(0x22, 0xFF), (0x23, 31)] ++ ps)
def portBody (ps : List (Nat × Byte)) : Desc := descOf 0x80 7 3 ([(0x20, 127), (0x21, 0xE0), (0x22, 255)] ++ ps)
def gateBody (ps : List (Nat × Byte)) : Desc := descOf 0x40 7 4 ([(0x20, 127), (0x29, 16), (0x30, 0xE8), (0x31, 3)] ++ ps)
def polBody (ps : List (Nat × Byte)) : Desc := descOf 0x80 7 5 ([(0x20, 0xFF), (0x21, 15), (0x22, 127), (0x35, 6)] ++ ps)
def tmRel (ps : List (Nat × Byte)) : Desc := descOf 0x40 7 6 ([(0x22, 0xFF), (0x23, 31)] ++ ps)

/-- That queue, port and policer, with the port's lane group ACTIVE at 10 Gb/s. -/
def tmDev (q : Queue) (k : TmPort) (y : Policer) : Dev := { Dev.reset with
  queue := [(8191, { q with cfg := (queueBody []).bytes, weight := 4096 })], port := [(127, { k with set := true })], pol := [(4095, y)]
  group := [(255, { proto := 1, width := 1, stage := .active, cfg := bytesOf 64 [(0x24, 127), (0x28, 0x34), (0x29, 0x5B), (0x2A, 0x9D)] })] }

theorem wit_TrafficCommands :
    let r := Dev.reset
    let e := tmDev {} {} {}
    let two := tmDev { pkts := [{}] } { tx := some ({}, 0), admin := some ({}, gateBody []) } { cfg := (polBody []).bytes }
    let x := queueBody []
    let held (n : Nat) (k : Bool) : Pend := { d := shapeBody (if k then [(0x20, 1), (0x22, 127), (0x23, 0), (0x24, 7)] else []), unit := 7, op := 2, obj := if k then 127 else 8191, t := n }
    let wait (n : Nat) (k : Bool) : Dev := { e with pend := [held n k] }
    let late (n : Nat) : Dev := { e with tb := { e.tb with sec := 0, ns := n } }
    let strict := gateBody [(4, 2), (0x29, 0)]
    let taken (u : Dev) (op : Nat) (sp : Dev → Desc → OpSpec) (z : Desc) : Prop := (queued u z).takeHead 7 op = some (z, u) ∧ u.check157 z (sp u z) = none
    taken e 1 tmQueueSpec x ∧ (e.queueAt 8191).pkts = [] ∧ shaperOk (x.get 0x28 4) (x.get 0x2C 4) = true ∧ x.get 0x30 4 = 16384 ∧ taken two 1 tmQueueSpec x ∧ (two.queueAt 8191).pkts ≠ [] ∧
    taken e 1 tmQueueSpec (queueBody [(0x31, 63)]) ∧ taken e 2 tmShapeSpec (shapeBody []) ∧ taken r 2 tmShapeSpec (shapeBody []) ∧ (r.queueAt 8191).cfg = [] ∧
    taken e 2 tmShapeSpec (shapeBody [(0x20, 1), (0x22, 127), (0x23, 0), (0x24, 7)]) ∧ (e.portAt 127).set = true ∧ taken e 2 tmShapeSpec (shapeBody [(8, 1)]) ∧
    taken (late 2) 2 tmShapeSpec (shapeBody [(8, 1)]) ∧ taken (late 2) 2 tmShapeSpec (shapeBody [(8, 1), (4, 2)]) ∧ (late 2).media = 2 ∧ e.media = 0 ∧
    taken e 2 tmShapeSpec (shapeBody [(0x21, 2)]) ∧ taken e 3 tmPortSpec (portBody []) ∧ (e.portAt 127).tx = none ∧ taken two 3 tmPortSpec (portBody []) ∧ (two.portAt 127).tx ≠ none ∧
    taken e 3 tmPortSpec (portBody [(0x21, 64)]) ∧ taken e 4 tmGateSpec (gateBody []) ∧ (e.portAt 127).admin = none ∧ taken two 4 tmGateSpec (gateBody []) ∧ taken two 4 tmGateSpec strict ∧
    (two.portAt 127).admin ≠ none ∧ e.media + 2000 ≤ (gateBody []).get 0x28 8 ∧ taken e 4 tmGateSpec strict ∧ strict.strict = true ∧ ceilDiv (e.media + 2000 - strict.get 0x28 8) 1000 = 2 ∧
    e.poisoned ((gateBody []).get 0x38 8) 0 = false ∧ taken e 4 tmGateSpec (gateBody [(0x30, 0xE7)]) ∧ taken e 5 tmPolicerSpec (polBody []) ∧ (e.policer 4095).cfg = [] ∧
    taken two 5 tmPolicerSpec (polBody []) ∧ (two.policer 4095).cfg ≠ [] ∧ taken two 5 tmPolicerSpec (polBody [(0x21, 0)]) ∧ taken e 5 tmPolicerSpec (polBody [(0x28, 64)]) ∧
    taken e 6 tmReleaseSpec (tmRel []) ∧ taken two 6 tmReleaseSpec (tmRel []) ∧ taken e 6 tmReleaseSpec (tmRel [(0x20, 1), (0x23, 15)]) ∧ taken e 6 tmReleaseSpec (tmRel [(0x20, 2)]) ∧
    e.flow = [] ∧ (wait 1 false).pend = [held 1 false] ∧ (wait 1 false).media < (held 1 false).t ∧ (held 0 false).t ≤ (wait 0 false).media ∧ (held 0 true).d.get 0x20 1 = 1 := by
  dsimp only
  refine ⟨⟨rfl, ?_⟩, ?_, ?_, ?_, ⟨rfl, ?_⟩, ?_, ⟨rfl, ?_⟩, ⟨rfl, ?_⟩, ⟨rfl, ?_⟩, ?_, ⟨rfl, ?_⟩, ?_, ⟨rfl, ?_⟩, ⟨rfl, ?_⟩, ⟨rfl, ?_⟩, ?_, ?_, ⟨rfl, ?_⟩, ⟨rfl, ?_⟩, ?_, ⟨rfl, ?_⟩, ?_, ⟨rfl, ?_⟩,
    ⟨rfl, ?_⟩, ?_, ⟨rfl, ?_⟩, ⟨rfl, ?_⟩, ?_, ?_, ⟨rfl, ?_⟩, ?_, ?_, ?_, ⟨rfl, ?_⟩, ⟨rfl, ?_⟩, ?_, ⟨rfl, ?_⟩, ?_, ⟨rfl, ?_⟩, ⟨rfl, ?_⟩, ⟨rfl, ?_⟩, ⟨rfl, ?_⟩, ⟨rfl, ?_⟩, ⟨rfl, ?_⟩, ?_, ?_, ?_, ?_, ?_⟩ <;> decide +kernel

theorem wit_TrafficFlow :
    let fr (n : Nat) (d : Nat) : InFrame := ⟨n, true, true, d, 0, 0, true, 0⟩
    let pol (ps : List (Nat × Byte)) (c e : Int) : Policer := { cfg := (polBody ([(0x35, 6), (0x3D, 6)] ++ ps)).bytes, c := ⟨c * 65536, 0⟩, e := ⟨e * 65536, 0⟩ }
    let on (y : Policer) := tmDev {} {} y
    let len : Int := ((on {}).portAt 127).counted 64
    let z (y : Policer) := ((on y).policer 4095).fill (on y).media
    let pk : Packet := { frame := 68, bytes := zeros 64 }
    let load (q : Queue) (k : TmPort) : Dev := { tmDev q k {} with tmIn := [(8191, pk)] }
    let g (n : Nat) : GateList := { cycle := 1000, start := 0, n := n, entries := [(127, 1000)] }
    let gt (n : Nat) := tmDev {} { admin := some (g n, gateBody []) } {}
    let busy (t : Nat) := tmDev {} { tx := some (pk, t) } {}
    let set : Dev := { busy 0 with pend := [{ d := portBody [], unit := 7, op := 3, obj := 127 }] }
    (on {}).portUp 127 = true ∧ Dev.reset.portUp 127 = false ∧ (on {}).policerOf 127 (fr 64 0) = none ∧ (on (pol [] 84 0)).policerOf 127 (fr 64 0) = some 4095 ∧ len = 84 ∧
    (z (pol [] 84 0)).preColour (fr 64 0) = 0 ∧ len * 65536 ≤ (z (pol [] 84 0)).c.level ∧ (z (pol [] 83 84)).c.level < len * 65536 ∧ len * 65536 ≤ (z (pol [] 83 84)).e.level ∧
    (z (pol [] 83 83)).e.level < len * 65536 ∧ (z (pol [(0x24, 1), (0x50, 2)] 84 84)).preColour (fr 64 0) = 2 ∧ (z (pol [(0x24, 1), (0x50, 1)] 84 84)).preColour (fr 64 0) = 1 ∧
    (z (pol [(0x23, 1)] 84 84)).get 0x23 1 ≠ 0 ∧ (z (pol [(0x25, 1), (0x26, 2)] 84 84)).get 0x25 1 % 4 = 1 ∧ (load {} {}).tmIn = [(8191, pk)] ∧
    ((load {} {}).queueAt 8191).cfg ≠ [] ∧ (load {} {}).halted = false ∧ ((load {} {}).queueAt 8191).bytes + pk.frame ≤ ((load {} {}).queueAt 8191).limit ∧
    ((load { pkts := [{ frame := 16317 }] } {}).queueAt 8191).limit < 16317 + pk.frame ∧ (tmDev { pkts := [pk] } {} {}).queue.length = 1 ∧
    (((tmDev { pkts := [pk] } {} {}).queue.map (·.2)).all fun q => q.port == 127 && q.cls == 7 && q.pkts == [pk] && q.rate == 0 && !q.paced) = true ∧
    bitN ((tmDev { pkts := [pk] } {} {}).portAt 127).strict 7 = true ∧ bitN ((tmDev { pkts := [pk] } {} {}).portAt 127).gateMask 7 = true ∧
    (busy 1).media < 1 ∧ 0 ≤ (busy 0).media ∧ ((busy 0).portAt 127).tx = some (pk, 0) ∧ (∃ q, set.pend = [q] ∧ q.unit = 7 ∧ q.op = 3 ∧ q.obj = 127 ∧ q.t = 0 ∧ q.late = false) ∧
    ((gt 1).portAt 127).admin = some (g 1, gateBody []) ∧ (g 1).start ≤ (gt 1).media ∧ (g 0).n = 0 ∧ ((tmDev {} { oper := some (g 0), tx := some (pk, 0) } {}).portAt 127).maskAt 0 = 127 ∧
    ((on {}).portAt 127).maskAt 0 = ((on {}).portAt 127).gateMask := by
  dsimp only
  refine ⟨?_, ?_, ?_, ?_, ?_, ?_, ?_, ?_, ?_, ?_, ?_, ?_, ?_, ?_, ?_, ?_, ?_, ?_, ?_, ?_, ?_, ?_, ?_, ?_, ?_, ?_, ⟨_, rfl, ?_⟩, ?_, ?_, ?_, ?_, ?_⟩ <;> decide +kernel

theorem wit_TrafficFlow_remark :
    let fr (ip v4 : Bool) : InFrame := ⟨64, true, ip, 0, 0, 0, v4, 0x1234⟩
    let y : Policer := { cfg := (polBody [(0x35, 6), (0x3D, 6), (0x25, 1), (0x26, 6), (0x27, 6), (0x23, 1)]).bytes, c := ⟨84 * 65536, 0⟩, e := ⟨84 * 65536, 0⟩ }
    let d := tmDev {} {} y
    let q : Queue := { cfg := (queueBody [(0x26, 1), (0x34, 3)]).bytes, weight := 7, rate := 4000, burst := 2000, pkts := [{ frame := 68 }], s := 5, f := 9 }
    let e : Dev := { tmDev {} { classes := [(7, { rate := 3000, burst := 3000, v := 3, weight := 4 })] } {} with queue := [(8191, q)] };
    (∀ f ∈ [fr false false, fr true false, fr true true], d.policerOf 127 f = some 4095 ∧ ((d.policer 4095).fill d.media).preColour f = 0) ∧
    ((d.policer 4095).fill d.media).get 0x25 1 % 4 = 1 ∧ (84 * 65536 : Int) ≤ ((d.policer 4095).fill d.media).c.level ∧ (84 * 65536 : Int) ≤ ((d.policer 4095).fill d.media).e.level ∧
    2 ≤ ((d.policer 4095).fill d.media).get 0x26 1 % 4 ∧
    q.port = 127 ∧ q.cls = 7 ∧ q.rate ≠ 0 ∧ ((e.portAt 127).class_ 7).rate ≠ 0 ∧ 0 ≤ q.tok.now q.rate q.burst e.media ∧ 0 ≤ ((e.portAt 127).class_ 7).tok.now 3000 3000 e.media ∧
    bitN (e.portAt 127).strict 7 = true ∧ (e.portAt 127).oper = none ∧ (e.portAt 127).admin = none ∧ (q.paced = true → q.slotTime { frame := 68 } ≤ e.cadence) := by decide +kernel

/-! ## Time and lanes -/

/-- PTP_PORT of port 127 with the least values, OUTPUTS with the least pulse. -/
def ptpBody (ps : List (Nat × Byte)) : Desc := descOf 64 8 1 ([(0x20, 127), (0x21, 1), (0x26, 0xF9), (0x27, 0xFD), (0x28, 0xF9), (0x29, 2)] ++ ps)
def outsBody (ps : List (Nat × Byte)) : Desc := descOf 64 8 2 ([(0x22, 1)] ++ ps)

/-- A device with that time base, and one with a sample of z to consume. -/
def tbDev (t : TimeBase) : Dev := { Dev.reset with tb := t }
def smpDev (n servo : Nat) (z : Int) : Dev := tbDev { sample := some z, servo := servo, run := n }

/-- A time base with every output on, one second after its last edge. -/
def ppsDev (ns last : Nat) : Dev := tbDev
  { outs := (outsBody [(0x25, 1), (0x21, 1), (0x24, 1)]).bytes.drop 0x20, ppsEdge := some 0, sec := 1, ns := ns, lastSec := last, todSec := some 1, ppsFall := some 1000001000 }

/-- Port 127 up with PTP on. -/
def ptpDev (one : Byte) : Dev := { tmDev {} {} {} with tb := { ptp := [(127, (ptpBody [(0x25, one)]).bytes.drop 0x20)] } }

theorem wit_TimeKeeping :
    let r := Dev.reset
    let four : Dev := tbDev { ptp := (List.range 4).map fun i => (i, (ptpBody []).bytes.drop 0x20) }
    let run : Dev := { r with cap := [(0, { st := .waiting })] }
    let hold (servo : Nat) : Dev := { tbDev { lastSmp := some 0, servo := servo } with ctl := { ticks := 6000000000 } }
    let gap : Dev := { ppsDev 0 0 with ctl := { ticks := 3300000000 } }
    (queued r (ptpBody [])).Takes 8 1 ptpPortSpec (ptpBody []) r ∧ (queued four (ptpBody [])).Takes 8 1 ptpPortSpec (ptpBody []) four ∧ four.ptpOn 127 = false ∧
    4 ≤ (four.tb.ptp.filter fun z => byteAt z.2 1 == 1).length ∧ (queued r (ptpBody [(0x29, 1)])).Takes 8 1 ptpPortSpec (ptpBody [(0x29, 1)]) r ∧
    (queued r (outsBody [])).Takes 8 2 outputsSpec (outsBody []) r ∧ (queued r (outsBody [(0x22, 0)])).Takes 8 2 outputsSpec (outsBody [(0x22, 0)]) r ∧
    r.tb.source = 0 ∧ (ppsDev 0 0).tb.source = 0 ∧ (tbDev { outs := (outsBody [(0x20, 1)]).bytes.drop 0x20 }).tb.source ≠ 0 ∧ r.tb.sample = none ∧
    r.tb.stepLimit * 1000 * 2 ^ 24 = 1000000 * 2 ^ 24 ∧ r.tb.lockLimit * 2 ^ 24 = 100 * 2 ^ 24 ∧ (smpDev 15 1 (100 * 2 ^ 24)).tb.sample = some (100 * 2 ^ 24) ∧
    (hold 1).tb.lastSmp = some 0 ∧ 0 + (hold 1).tb.holdTicks ≤ (hold 1).ctl.ticks ∧ (hold 2).tb.servo = 2 ∧ (hold 3).tb.servo = 3 ∧ run.anyStarted = true ∧ r.anyStarted = false ∧
    r.tb.ppsInOn = false ∧ (ppsDev 0 0).tb.ppsInOn = true ∧ min (ppsDev 500000000 0).tb.ns (1000000000 - (ppsDev 500000000 0).tb.ns) = 500000000 ∧ r.flt.latched.get 0 42 = 0 ∧
    gap.tb.ppsEdge = some 0 ∧ 0 + 3300000000 ≤ gap.ctl.ticks ∧ gap.tb.ppsGap = false ∧ (ppsDev 0 0).tb.lastSec < (ppsDev 0 0).tb.sec ∧ (ppsDev 0 1).tb.sec ≤ (ppsDev 0 1).tb.lastSec ∧
    (ppsDev 0 0).tb.ppsOutOn = true ∧ (tbDev { sec := 1 }).tb.ppsOutOn = false ∧ (ppsDev 1000 1).tb.ppsFall = some (1 * 1000000000 + 1000) ∧
    (ppsDev 10000000 1).tb.todSec = some 1 ∧ (ppsDev 10000000 1).tb.tod ≠ 0 ∧ (ptpDev 1).ptpOn 127 = true ∧ (ptpDev 1).portUp 127 = true ∧ ((ptpDev 1).portGroup 127).isSome = true ∧
    byteAt ((ptpDev 1).tb.ptp.get [] 127) 5 = 1 ∧ r.ptpOn 127 = false := by
  dsimp only
  refine ⟨⟨rfl, ?_⟩, ⟨rfl, ?_⟩, ?_, ?_, ⟨rfl, ?_⟩, ⟨rfl, ?_⟩, ⟨rfl, ?_⟩, ?_, ?_, ?_, ?_, ?_, ?_, ?_, ?_, ?_, ?_, ?_, ?_, ?_, ?_, ?_, ?_, ?_, ?_, ?_, ?_, ?_, ?_, ?_, ?_, ?_, ?_,
    ?_, ?_, ?_, ?_, ?_, ?_⟩ <;> decide +kernel

/-- CONFIGURE of lane 255 for raw atoms at 1.25 Gb/s, or for port 127 at 10 Gb/s, and the other LANE commands. -/
def laneBody (ps : List (Nat × Byte)) : Desc :=
  descOf 0x80 12 1 ([(0x20, 255), (0x22, 1), (0x23, 4), (0x28, 0xD0), (0x29, 0x12), (0x2A, 0x13), (0x34, 64), (0x3B, 0x80), (0x42, 1), (0x44, 64), (0x4B, 0x90)] ++ ps)
def etherBody (ps : List (Nat × Byte)) : Desc :=
  laneBody ([(0x23, 1), (0x24, 127), (0x28, 0x34), (0x29, 0x5B), (0x2A, 0x9D), (0x3B, 0), (0x42, 0), (0x44, 0), (0x4B, 0)] ++ ps)
def laneCmd (op : Nat) (ps : List (Nat × Byte)) : Desc := descOf 64 12 op ([(0x20, 255)] ++ ps)

/-- Lane 255 in a group of its own. -/
def laneDev (proto : Nat) (st : Stage) (g : Group) (y : Lane) : Dev := { Dev.reset with
  group := [(255, { g with proto := proto, width := 1, stage := st, cfg := (if proto = 1 then etherBody [] else laneBody []).bytes })], lane := [(255, y)] }

theorem wit_SerialLanes :
    let r := Dev.reset
    let on := laneDev 1 .active {} {}
    let idle := laneDev 1 .idle {} { cache := true }
    let tst := laneDev 5 .active { check := true, pattern := 31 } {}
    let raw := laneDev 4 .active {} { rawPtr := 65472 }
    let full : Dev := { r with group := [(248, { proto := 4, width := 1, cfg := (laneBody [(0x28, 0xD1)]).bytes }), (249, { proto := 4, width := 1, cfg := (laneBody [(0x28, 0xD2)]).bytes })] }
    let tw : Dev := { laneDev 3 .active {} { retrain := some 0 } with twin := { lanesUp := [254, 255] }, ctl := { ticks := 3000000 } }
    let again := laneDev 1 .train { retryAt := some 0 } {}
    (queued r (laneBody [])).Takes 12 1 laneConfigureSpec (laneBody []) r ∧ laneBadField (laneBody []) = false ∧ laneBadFormat (laneBody []) = false ∧ r.octetFull (255 / 8) ((laneBody []).get 0x28 4) = false ∧
    (queued r (etherBody [])).Takes 12 1 laneConfigureSpec (etherBody []) r ∧ laneBadField (etherBody []) = false ∧ laneBadFormat (etherBody []) = false ∧
    r.portGroup 127 = none ∧ r.groupOf 255 = none ∧ r.dozing = false ∧ (queued on (laneBody [])).Takes 12 1 laneConfigureSpec (laneBody []) on ∧ on.groupOf 255 ≠ none ∧
    (queued r (laneBody [(0x22, 2)])).Takes 12 1 laneConfigureSpec (laneBody [(0x22, 2)]) r ∧
    (queued r (laneBody [(0x28, 0xCF)])).Takes 12 1 laneConfigureSpec (laneBody [(0x28, 0xCF)]) r ∧ laneBadField (laneBody [(0x28, 0xCF)]) = false ∧ laneBadFormat (laneBody [(0x28, 0xCF)]) = true ∧
    (queued full (laneBody [])).Takes 12 1 laneConfigureSpec (laneBody []) full ∧ full.octetFull (255 / 8) ((laneBody []).get 0x28 4) = true ∧ full.groupOf 255 = none ∧
    (queued on (laneCmd 2 [])).Takes 12 2 (laneGroupSpec [(0x22, 30)]) (laneCmd 2 []) on ∧ (on.groupAt 255).own = true ∧ (r.groupAt 255).own = false ∧
    (queued r (laneCmd 2 [])).Takes 12 2 (laneGroupSpec [(0x22, 30)]) (laneCmd 2 []) r ∧
    (queued on (laneCmd 3 [(0x22, 1)])).Takes 12 3 (laneGroupSpec [(0x23, 29)]) (laneCmd 3 [(0x22, 1)]) on ∧ (queued idle (laneCmd 3 [])).Takes 12 3 (laneGroupSpec [(0x23, 29)]) (laneCmd 3 []) idle ∧
    (queued idle (laneCmd 3 [(0x22, 2)])).Takes 12 3 (laneGroupSpec [(0x23, 29)]) (laneCmd 3 [(0x22, 2)]) idle ∧ (idle.groupAt 255).stage = .idle ∧ on.dozing = false ∧
    (queued tst (laneCmd 4 [(0x22, 31)])).Takes 12 4 (laneGroupSpec [(0x26, 26)]) (laneCmd 4 [(0x22, 31)]) tst ∧ (queued on (laneCmd 4 [])).Takes 12 4 (laneGroupSpec [(0x26, 26)]) (laneCmd 4 []) on ∧
    (queued tst (laneCmd 4 [(0x22, 32)])).Takes 12 4 (laneGroupSpec [(0x26, 26)]) (laneCmd 4 [(0x22, 32)]) tst ∧
    (∀ p ∈ [(1, Stage.detect), (1, .train), (1, .lock), (1, .active), (4, .active), (5, .active), (2, .active), (3, .active)],
      let d := laneDev p.1 p.2 {} {}; d.groupOf 255 = some (255, d.groupAt 255) ∧ (d.groupAt 255).width = 1 ∧ (d.groupAt 255).stage = p.2 ∧ (d.groupAt 255).retryAt = none) ∧
    (again.groupAt 255).retryAt = some 0 ∧ again.groupOf 255 = some (255, again.groupAt 255) ∧ tw.twin.lanesUp.filter (· != 255) ≠ [] ∧ (tw.laneAt 255).retrain = some 0 ∧
    0 + 3000000 ≤ tw.ctl.ticks ∧ tw.twin.st ≠ .partitioned ∧ (on.laneAt 255).retrain = none ∧ (raw.groupAt 255).get 0x2F 1 = 0 ∧
    (raw.groupAt 255).get 0x38 8 + (raw.laneAt 255).rawPtr + 64 ≤ raw.capacity ∧ (raw.laneAt 255).rawPtr + 64 = (raw.groupAt 255).get 0x40 4 ∧
    (tst.groupAt 255).check = true ∧ (raw.groupAt 255).testAt = none ∧ ({ raw.groupAt 255 with been := true } : Group).been = true ∧ (raw.laneAt 255).lostAt = none ∧ (tst.groupAt 255).pattern ≠ 0 ∧ (on.laneAt 255).idleAt = some 0 ∧ 0 + (on.laneAt 255).holdTicks = 3000000 := by
  dsimp only
  refine ⟨⟨rfl, ?_⟩, ?_, ?_, ?_, ⟨rfl, ?_⟩, ?_, ?_, ?_, ?_, ?_, ⟨rfl, ?_⟩, ?_, ⟨rfl, ?_⟩, ⟨rfl, ?_⟩, ?_, ?_, ⟨rfl, ?_⟩, ?_, ?_, ⟨rfl, ?_⟩, ?_, ?_, ⟨rfl, ?_⟩, ⟨rfl, ?_⟩, ⟨rfl, ?_⟩, ⟨rfl, ?_⟩, ?_, ?_,
    ⟨rfl, ?_⟩, ⟨rfl, ?_⟩, ⟨rfl, ?_⟩, ?_, ?_, ?_, ?_, ?_, ?_, ?_, ?_, ?_, ?_, ?_, ?_, ?_, ?_, ?_, ?_, ?_, ?_⟩ <;> decide +kernel

/-- A lane that LINKs by training, with the caches of its group's rate. -/
def ltDev (y : Lane) : Dev := { Dev.reset with
  group := [(255, { proto := 1, width := 1, stage := .detect, cfg := (etherBody [(0x27, 1)]).bytes })], lane := [(255, y)] }

theorem wit_SerialLanes_stages :
    let polled := ltDev { polled := some 5 }
    let due : Dev := { polled with ctl := { ticks := 3000005 } }
    let cached := ltDev { cache := true, cRate := 10312500, cCtle := 9 }
    let quiet : Dev := { cached with ctl := { octClk := 0x7FFFFFFF } }
    let relock := laneDev 3 .active {} { retrain := some 0 }
    let back (n : Nat) (st : PairState) : Dev := { laneDev 3 .active {} { retrain := some 0, relock := some 0 } with twin := { lanesUp := [254, 255], st := st }, ctl := { ticks := n } }
    let slip := laneDev 4 .active {} { slips := 2 }
    let full := laneDev 4 .active {} { slips := 2, rxBits := [true, false, true] }
    let lock := laneDev 5 .active { check := true, pattern := 31 } { chkLock := true }
    let seek := laneDev 5 .active { check := true, pattern := 31 } { run := 63 }
    let old : Dev := { laneDev 1 .active {} {} with ctl := { ticks := 300000000 } }
    let idle : Dev := { laneDev 1 .idle {} { cache := true } with ctl := { ticks := 3000000 } }
    let stale : Dev := { idle with ctl := { ticks := 3000001 } }
    polled.ctl.ticks < 5 + 3000000 ∧ (polled.laneAt 255).polled = some 5 ∧ 5 + 3000000 ≤ due.ctl.ticks ∧ (due.laneAt 255).polled = some 5 ∧
    cached.groupOf 255 = some (255, cached.groupAt 255) ∧ (cached.laneAt 255).cache = true ∧ (cached.laneAt 255).cRate = (cached.groupAt 255).kbps ∧ (cached.groupAt 255).lt = true ∧
    (cached.groupAt 255).fixedCtle = false ∧ (cached.groupAt 255).an = false ∧ (polled.laneAt 255).cache = false ∧ cached.octetRuns 255 = true ∧ quiet.octetRuns 255 = false ∧
    (quiet.groupAt 255).retryAt = none ∧
    relock.groupOf 255 = some (255, relock.groupAt 255) ∧ (relock.laneAt 255).retrain = some 0 ∧ (relock.laneAt 255).relock = none ∧ (relock.groupAt 255).retryAt = none ∧
    255 ∉ (relock.groupAt 255).passed ∧ relock.octetRuns 255 = true ∧
    ((back 2999999 .paired).laneAt 255).relock = some 0 ∧ (back 2999999 .paired).ctl.ticks < 0 + 3000000 ∧ 0 + 3000000 ≤ (back 3000000 .partitioned).ctl.ticks ∧
    (back 3000000 .partitioned).twin.st = .partitioned ∧ (back 3000000 .paired).twin.st ≠ .partitioned ∧
    (slip.groupAt 255).get 0x40 4 ≠ 0 ∧ (slip.groupAt 255).get 0x44 4 ≠ 0 ∧ 2 * 1 ≤ (0 + 512) ∧ (slip.groupAt 255).pam4 = false ∧ (slip.groupAt 255).get 0x38 8 + 64 ≤ slip.capacity ∧
    (full.laneAt 255).rxBits.length + 512 - 2 = 513 ∧
    (lock.laneAt 255).chkLock = true ∧ (lock.laneAt 255).prbsBits < 2 ^ 48 - 1 ∧ (seek.laneAt 255).chkLock = false ∧ (seek.laneAt 255).run + 1 = 64 ∧ (lock.groupAt 255).loopback = 0 ∧
    (lock.groupAt 255).pam4 = false ∧ bitN ((lock.groupAt 255).get 0x30 1) 0 = false ∧ bitN ((lock.groupAt 255).get 0x31 1) 0 = false ∧
    (old.laneAt 255).retrain = none ∧ (old.laneAt 255).cacheAt + 300000000 ≤ old.ctl.ticks ∧
    idle.ctl.ticks ≤ (idle.groupAt 255).idleAt + (idle.laneAt 255).holdTicks ∧ (idle.groupAt 255).midway = false ∧ (idle.groupAt 255).lt = false ∧ idle.octetRuns 255 = true ∧
    (idle.laneAt 255).idleAt = some 0 ∧ idle.ctl.ticks ≤ 0 + (idle.laneAt 255).holdTicks ∧ (stale.laneAt 255).idleAt = some 0 ∧ 0 + (stale.laneAt 255).holdTicks < stale.ctl.ticks := by decide +kernel

/-! ## The cascade -/

/-- CONFIGURE of device 0 as the whole ring, SEND of `n` bytes, BYPASS. -/
def cascBody (ps : List (Nat × Byte)) : Desc := descOf 0x60 13 1 ([(0x22, 1), (0x24, 2), (0x26, 0xFF), (0x27, 0xFF), (0x2B, 0x80), (0x33, 0x90), (0x3B, 0xA0), (0x40, 31)] ++ ps)
def sendBody (ps : List (Nat × Byte)) : Desc := descOf 64 13 2 ([(0x20, 0xFF), (0x21, 3), (0x24, 240), (0x2B, 0x80)] ++ ps)
def bypBody (on : Byte) : Desc := descOf 64 13 3 [(0x20, on)]

/-- Device 0 of a ring of devices 0 to n - 1, its bypass open. -/
def cascDev (n : Nat) (c : Casc) : Dev := { Dev.reset with
  casc := { c with cfg := (cascBody []).bytes, map := List.range n, closed := false }, ctl := { perstN := true, booting := false, pwrOk := true } }

/-- The n-th message that waits for its acknowledgement. -/
def msgOf (n : Nat) : CascMsg := { d := sendBody [], dest := 1, tries := n, bytes := [7] }

/-- A frame of device 1 for device 0. -/
def frameOf (cls seq : Nat) (dest : Option Nat) (ack : Bool) : CascFrame := ⟨1, dest, cls, seq, ack, .data, 1, 2, 3, 2, 5, [9]⟩

theorem wit_CascadeRing :
    let r := Dev.reset
    let e : Dev := { cascDev 2 {} with casc := { (cascDev 2 {}).casc with cfg := [] } }
    let on := cascDev 2 {}
    let five := cascDev 6 {}
    let late (t : Nat) (c : Casc) : Dev := { cascDev 2 c with ctl := { ticks := t, perstN := true, booting := false, pwrOk := true } }
    let pois : Dev := { on with poison := [0x80000000 / 64] }
    let h (a : Nat) : CascHello := ⟨a, 0, []⟩
    (queued e (cascBody [])).Takes 13 1 cascConfigureSpec (cascBody []) e ∧ e.cascBad (cascBody []) = false ∧ e.casc.a.openHop = false ∧ e.casc.b.limit = false ∧
    (queued e (cascBody [(0x24, 1)])).Takes 13 1 cascConfigureSpec (cascBody [(0x24, 1)]) e ∧
    (queued e (sendBody [])).Takes 13 2 cascSendSpec (sendBody []) e ∧ e.casc.cfg = [] ∧ (queued on (sendBody [])).Takes 13 2 cascSendSpec (sendBody []) on ∧ on.casc.cfg ≠ [] ∧
    on.poisoned 0x80000000 240 = false ∧ pois.poisoned 0x80000000 240 = true ∧ (queued on (sendBody [(0x22, 3), (0x23, 1)])).Takes 13 2 cascSendSpec (sendBody [(0x22, 3), (0x23, 1)]) on ∧
    (queued on (sendBody [(0x23, 1)])).Takes 13 2 cascSendSpec (sendBody [(0x23, 1)]) on ∧ (queued on (sendBody [(0x24, 241)])).Takes 13 2 cascSendSpec (sendBody [(0x24, 241)]) on ∧
    (queued on (bypBody 1)).Takes 13 3 cascBypassSpec (bypBody 1) on ∧ (queued on (bypBody 2)).Takes 13 3 cascBypassSpec (bypBody 2) on ∧ on.casc.dup = false ∧ isFw .firmware = true ∧
    isFw .pf = false ∧ r.casc.closed = true ∧ on.casc.closed = false ∧ (frameOf 0 0 none false).src ≠ on.casc.addr ∧ on.casc.rxThread = 0xFFFF ∧
    on.casc.rxAddr + on.casc.rxIdx * 256 + 17 ≤ on.capacity ∧ on.casc.peerAddr + 1 * 32 + 18 ≤ on.capacity ∧ on.casc.rxSeq.get 0 8 = 0 ∧ on.casc.rxHold = [] ∧
    (cascDev 2 { rxSeq := [(8, 1)] }).casc.rxSeq.get 0 8 = 1 ∧ (cascDev 2 { out := [msgOf 0] }).casc.out = [msgOf 0] ∧
    on.casc.skippedFrom false (h 1).addr = 0 ∧ five.casc.skippedFrom false (h 1).addr = 4 ∧ (five.side false).openHop = false ∧ five.casc.skippedFrom false five.casc.addr = 5 ∧ five.flt.classOf 46 ≠ 3 ∧
    (cascDev 2 { a := { brk := true } }).casc.a.openHop = true ∧ (late 6000 {}).casc.a.lastFrame + (late 6000 {}).casc.breakTicks ≤ (late 6000 {}).ctl.ticks ∧
    (late 5999 {}).ctl.ticks < (late 5999 {}).casc.a.lastFrame + (late 5999 {}).casc.breakTicks ∧ on.flt.classOf 45 ≠ 3 ∧
    (msgOf 3).at_ + (late 151440 { out := [msgOf 3] }).casc.ackTicks ≤ (late 151440 { out := [msgOf 3] }).ctl.ticks ∧ on.ctl.ticks < (msgOf 0).at_ + on.casc.ackTicks ∧
    on.upNs < on.casc.lastBc + 100000000 ∧ (late 300000000 {}).casc.lastBc + 100000000 ≤ (late 300000000 {}).upNs ∧
    (late 375000000 {}).casc.lastCmp + 125000000 ≤ (late 375000000 {}).upNs := by
  dsimp only
  refine ⟨⟨rfl, ?_⟩, ?_, ?_, ?_, ⟨rfl, ?_⟩, ⟨rfl, ?_⟩, ?_, ⟨rfl, ?_⟩, ?_, ?_, ?_, ⟨rfl, ?_⟩, ⟨rfl, ?_⟩, ⟨rfl, ?_⟩, ⟨rfl, ?_⟩, ⟨rfl, ?_⟩, ?_, ?_, ?_, ?_, ?_, ?_, ?_, ?_, ?_, ?_, ?_, ?_, ?_, ?_, ?_, ?_, ?_,
    ?_, ?_, ?_, ?_, ?_, ?_, ?_, ?_, ?_, ?_⟩ <;> decide +kernel

theorem wit_CascadeRing_frames :
    let up (t : Nat) (c : Casc) : Dev := { cascDev 2 c with ctl := { ticks := t, perstN := true, booting := false, pwrOk := true } }
    let live (n : Nat) (d : Dev) : Dev := { d with flt := { d.flt with live := 1#64 <<< n } }
    let on : RingSide := { stage := .active }
    let limited := live 46 (cascDev 2 { a := { on with limit := true } })
    let soon := live 45 (up 3000005 { a := { on with brk := true } })
    let clean := live 45 (up 3000005 { a := { on with brk := true, lost := true, relock := some 5, lastFrame := 3000004 } })
    let whole := up 5 { a := on, b := on }
    let rising (st : Stage) (n : Nat) := up n { a := { stage := st } }
    let near := cascDev 2 { a := { on with upstream := 1 } }
    let wrapped := cascDev 2 { b := { brk := true } }
    let dup := cascDev 2 { dup := true, a := on }
    let said := cascDev 2 { out := [{ msgOf 0 with cls := 4 }] }
    let own : CascFrame := ⟨0, none, 0, 0, false, .data, 1, 2, 3, 2, 5, [9]⟩
    (∀ d ∈ [limited, soon], d.casc.closed = false ∧ d.casc.cfg ≠ [] ∧ (d.side false).stage = .active ∧ (d.side false).lost = false ∧ d.casc.breakTicks ≠ 0 ∧
      (d.side false).openHop = true ∧ (d.side false).skipped ≤ 3 ∧ (d.side true).openHop = false ∧ d.casc.dup = false ∧
      d.flt.live.getLsbD (if (d.side false).limit then 46 else 45) = true) ∧
    own.src = limited.casc.addr ∧ (limited.side false).limit = true ∧ (soon.side false).lastFrame + soon.casc.breakTicks ≤ soon.ctl.ticks ∧
    (clean.side false).stage = .active ∧ (clean.side false).brk = true ∧ (clean.side false).limit = false ∧ (clean.side false).relock = some 5 ∧ clean.flt.live.getLsbD 45 = true ∧
    clean.casc.closed = false ∧ clean.casc.dup = false ∧ 5 + 3000000 ≤ clean.ctl.ticks ∧ clean.ctl.ticks < (clean.side false).lastFrame + clean.casc.breakTicks ∧
    (whole.side false).openHop = false ∧ (whole.side true).openHop = false ∧ (whole.side false).lost = false ∧ whole.flt.classOf 43 ≠ 3 ∧ whole.flt.classOf 45 ≠ 3 ∧
    whole.flt.latched.get 0 43 = 0 ∧ ((rising .detect 3000000).side false).since + 3000000 ≤ (rising .detect 3000000).ctl.ticks ∧
    (∀ st ∈ [Stage.train, .lock, .caps], ((rising st 0).side false).stage = st ∧ ((rising st 0).side false).retryAt = none) ∧
    ((rising .caps 0).side false).lost = false ∧ (({ rising .caps 0 with flt := { live := 1#64 <<< 45 } } : Dev).flt.live).getLsbD 45 = true ∧
    (({ stage := .caps, brk := true } : RingSide)).openHop = true ∧ (rising .lock 30000001).casc.a.since + 30000000 < (rising .lock 30000001).ctl.ticks ∧
    near.casc.a.upstream = (frameOf 1 0 none false).src ∧ (frameOf 1 0 none false).src ≠ near.casc.addr ∧ (frameOf 1 0 none false).src < 1024 ∧ (near.side false).openHop = false ∧
    wrapped.casc.wraps false = true ∧ wrapped.casc.wraps true = false ∧ dup.casc.dup = true ∧ (frameOf 0 0 (some 0) false).dest = some dup.casc.addr ∧
    (frameOf 0 7 (some 0) false).seq > dup.casc.rxSeq.get 0 8 ∧ dup.casc.rxHold = [] ∧ (frameOf 4 0 (some 2) true).dest = some 2 ∧ 2 ≠ dup.casc.addr ∧
    said.casc.out = [{ msgOf 0 with cls := 4 }] ∧ (frameOf 4 0 (some 0) true).dest = some said.casc.addr ∧ (frameOf 4 0 (some 0) true).ack = true := by decide +kernel

/-! ## Memory, checks and faults -/

/-- Controller 11 alone, with its channel 3. -/
def mcDev (c : Mc) (h : McChan) (t : Nat) : Dev := { Dev.reset with mc := [(11, { c with chans := [(3, h)] })], ctl := { ticks := t } }

/-- COPY and FILL of 64 bytes from or to the last atoms of memory's first 2 GiB and half. -/
def memBody (op : Nat) (ps : List (Nat × Byte)) : Desc := descOf 64 10 op ([(0x28, 64), (0x2B, 0x80), (0x30, 64)] ++ ps)

theorem wit_MemoryControllers :
    let m (h : McChan) := mcDev { st := 2 } h 0
    let a : Burst := ⟨.ep 3, 19327399936, 32, true, [], []⟩
    let half : Burst := ⟨.ep 3, 19327399936, 16, true, [], []⟩
    let u : Burst := ⟨.dp 0, 19327400960, 16, false, [], []⟩
    let one (e : List (Nat × AtomErr)) (k : List Nat) : Burst := ⟨.dp 0, 19327401920, 1, false, e, k⟩
    let big : Burst := ⟨.dp 0, 19327399936, 17, false, [], []⟩
    let fits (b : Burst) : Prop := b.addr % 64 = 0 ∧ 1 ≤ b.atoms ∧ b.atoms ≤ (if b.rt then 32 else 16) ∧ b.addr / 64 % 32 + b.atoms ≤ 32 ∧ Dev.reset.channelOf b.addr = (11, 3)
    let two : Dev := mcDev { st := 4 } { retrain := true } 0
    let both : Dev := { two with mc := [(11, { st := 4, chans := [(2, { retrain := true }), (3, { retrain := true })] })] }
    let idle := mcDev { st := 2 } {} 60000
    let drn := mcDev { st := 2, drain := true } { owed := [(16, 0)] } 0
    let sr := mcDev { st := 3 } {} 0
    let tr := mcDev { st := 1 } {} 0
    let dis : Dev := { tr with mc := (10, { st := 2, density := 2 }) :: tr.mc }
    let cp := memBody 1 [(0x23, 0x80)]
    let fl := memBody 2 [(0x38, 0xAB)]
    let q (x : Desc) : Dev := { Dev.reset with unitQ := [(10, [{ x with tid := 303 }])] }
    let e (x : Desc) : Dev := (q x).putUnitQueue 10 []
    ((m {}).mcAt 11).st = 2 ∧ (((m {}).mcAt 11).chan 3).retrain = false ∧ (((m { owed := [(16, 0)] }).mcAt 11).chan 3).owed = (16, 0) :: [] ∧ a.rt = true ∧ u.rt = false ∧ (fits a ∧ fits u ∧ fits half ∧ half.rt = true ∧ (∀ i, i < 16 → ∀ j, j < 16 → half.addr / 64 + i ≠ u.addr / 64 + j) ∧ a.addr / 64 + 16 = u.addr / 64 + 0) ∧ ((m {}).mcAt 11).chan 3 = { queue := [] } ∧
    (∀ k ∈ [one [(0, .uncorrectable)] [], one [(0, .corrected)] [3], one [] [4]], fits k ∧ k.crcBad.length ≤ 1) ∧ big.rt = false ∧ 16 < big.atoms ∧ big.addr / 64 % 32 + big.atoms ≤ 32 ∧
    Dev.reset.channelOf big.addr = (11, 3) ∧ (∀ q ∈ ((m {}).mcAt 11).chans, q.2.queue = []) ∧ (∃ q ∈ ((mcDev { st := 2 } { queue := [u] } 0).mcAt 11).chans, q.2.queue ≠ []) ∧
    Dev.reset.capacity = (m {}).capacity ∧
    (((m { rtRun := 15 }).mcAt 11).chan 3).rtRun = 15 ∧ (m {}).poison = [] ∧ 2 ≤ (m {}).flt.classOf 23 ∧ (m {}).flt.latched.get 0 23 = 0 ∧ ((two.mcAt 11).chan 3).retrain = true ∧
    (∀ p ∈ (two.mcAt 11).chans, p.1 ≠ 3 → p.2.retrain = false) ∧ (∃ p ∈ (both.mcAt 11).chans, p.1 ≠ 3 ∧ p.2.retrain = true) ∧ (((m {}).mcAt 11).chan 3).due ≤ (m {}).ctl.ticks * 8 ∧
    ((mcDev { st := 2 } { owed := [(16, 0)] } 22800).mcAt 11).applied = 4 ∧ 0 + 4 * (16 * 2850) = 22800 * 8 ∧ (idle.mcAt 11).drain = false ∧ (idle.mcAt 11).inhibit = false ∧
    (idle.mcAt 11).lastReq + (idle.mcAt 11).srIdle * 3000 ≤ idle.ctl.ticks ∧ (drn.mcAt 11).drain = true ∧ (drn.mcAt 11).st ≠ 3 ∧ (sr.mcAt 11).st = 3 ∧
    (((m {}).mcAt 11).passDone = false ∧ (((m {}).mcAt 11).chan (((m {}).mcAt 11).scrubPos / 32 % 4)).queue = [] ∧
      (((mcDev { st := 2, scrubPos := 96 } { queue := [u] } 0).mcAt 11).chan (((mcDev { st := 2, scrubPos := 96 } { queue := [u] } 0).mcAt 11).scrubPos / 32 % 4)).queue ≠ []) ∧ (m {}).atomAddr 11 ((m {}).mcAt 11).scrubPos / 64 ∉ (m {}).poison ∧ (m {}).flt.latched.get 0 24 = 0 ∧
    ((m {}).mcAt 11).passAt + ((m {}).mcAt 11).periodTicks = 24 * 3600 * 3000000000 ∧ (tr.mcAt 11).st = 1 ∧ (∀ j, j < 12 → (tr.mcAt j).st ≠ 2) ∧ (dis.mcAt 10).density = 2 ∧
    (q cp).memTake 3 1 = some ({ cp with tid := 303 }, e cp) ∧ (e cp).check157 { cp with tid := 303 } (memCopySpec (e cp) { cp with tid := 303 }) = none ∧
    (q fl).memTake 3 2 = some ({ fl with tid := 303 }, e fl) ∧ (e fl).check157 { fl with tid := 303 } (memFillSpec (e fl) { fl with tid := 303 }) = none ∧
    (cp.get 0x28 8 % 64 = 0 ∧ cp.get 0x20 8 % 64 = 0 ∧ cp.get 0x30 8 = 64) ∧ ¬ (cp.get 0x20 8 < cp.get 0x28 8 + 64 ∧ cp.get 0x28 8 < cp.get 0x20 8 + 64) ∧ Tab.wf 0 (e cp).mem ∧
    (let o := memBody 1 [(0x20, 64), (0x23, 0x80)]; o.get 0x20 8 = o.get 0x28 8) := by
  dsimp only
  refine ⟨?_, ?_, ?_, ?_, ?_, ?_, ?_, ?_, ?_, ?_, ?_, ?_, ?_, ?_, ?_, ?_, ?_, ?_, ?_, ?_, ?_, ?_, ?_, ?_, ?_, ?_, ?_, ?_, ?_, ?_, ?_, ?_, ?_, ?_, ?_, ?_, ?_, ?_, ?_, ?_, ?_, ?_, ?_, ?_, ?_, ?_⟩ <;> decide +kernel

/-- CONFIGURE of engine 7 with preset 2, of snoop channel 47 on channel 511, and the other CHECK commands for engine 7. -/
def chkBody (ps : List (Nat × Byte)) : Desc := descOf 0x80 9 1 ([(0x21, 7), (0x22, 2), (0x42, 1), (0x44, 0xFF), (0x45, 0xFF)] ++ ps)
def csBody : Desc := chkBody [(0x20, 1), (0x21, 47), (0x40, 0xFF), (0x41, 1)]
def chkCmd (op : Nat) (ps : List (Nat × Byte)) : Desc := descOf 64 9 op ([(0x20, 7)] ++ ps)

/-- Engine 7, or snoop channel 47, configured. -/
def chkDev (c : Chk) : Dev := { Dev.reset with chk := [(7, { c with cfg := (chkBody []).bytes }), (55, { c with cfg := csBody.bytes })], chan := [(511, chanOf [])] }

theorem wit_CheckUnits :
    let r := Dev.reset
    let on := chkDev {}
    let fed : Dev := { r with chan := [(511, chanOf [])] }
    let sn : Dev := { on with chkMode := 128 }
    let feed := chkCmd 2 [(0x2B, 0x80), (0x30, 1)]
    let store (a : Byte) := chkCmd 3 [(0x21, a), (0x2B, 0x80)]
    (queued r (chkBody [])).Takes 9 1 checkConfigureSpec (chkBody []) r ∧ (r.check 7).cfg = [] ∧ r.checkBad (chkBody []) = false ∧ r.snoopMode 7 = false ∧
    (queued on (chkBody [])).Takes 9 1 checkConfigureSpec (chkBody []) on ∧ (on.check 7).cfg ≠ [] ∧ (queued r (chkBody [(0x22, 5)])).Takes 9 1 checkConfigureSpec (chkBody [(0x22, 5)]) r ∧
    (queued r csBody).Takes 9 1 checkConfigureSpec csBody r ∧ r.checkBad csBody = false ∧ r.tapSet 0 511 = false ∧ (queued fed csBody).Takes 9 1 checkConfigureSpec csBody fed ∧ fed.tapSet 0 511 = true ∧
    (queued on feed).Takes 9 2 checkFeedSpec feed on ∧ on.writeFed 7 = true ∧ (queued r feed).Takes 9 2 checkFeedSpec feed r ∧ r.writeFed 7 = false ∧
    (queued on (chkCmd 2 [(0x2B, 0x80)])).Takes 9 2 checkFeedSpec (chkCmd 2 [(0x2B, 0x80)]) on ∧ (queued on (store 0)).Takes 9 3 checkStoreSpec (store 0) on ∧ (queued on (store 1)).Takes 9 3 checkStoreSpec (store 1) on ∧
    (on.check 7).compare = 1 ∧ (on.check 7).now.toNat ≠ (on.check 7).get 0x48 8 ∧ (on.check 7).get 0x44 2 = 0xFFFF ∧ (queued on (store 2)).Takes 9 3 checkStoreSpec (store 2) on ∧
    (queued on (chkCmd 4 [])).Takes 9 4 checkLoadSpec (chkCmd 4 []) on ∧ (queued on (chkCmd 4 [(0x20, 8)])).Takes 9 4 checkLoadSpec (chkCmd 4 [(0x20, 8)]) on ∧
    (queued on (chkCmd 5 [(0x20, 0), (0x21, 7)])).Takes 9 5 checkReleaseSpec (chkCmd 5 [(0x20, 0), (0x21, 7)]) on ∧
    (queued on (chkCmd 5 [(0x20, 2)])).Takes 9 5 checkReleaseSpec (chkCmd 5 [(0x20, 2)]) on ∧ isPfOrFw .pf = true ∧ isPfOrFw (.vf 0) = false ∧ sn.snoopMode 7 = true ∧ sn.writeFed 7 = false ∧
    (on.check 55).bound = false ∧ ((chkDev { bound := true }).check 55).bound = true ∧ ((chkDev { bound := true }).check 55).logAddr = 0 ∧ ((chkDev { overrun := true }).check 55).overrun = true ∧
    r.flt.latched.get 0 47 = 0 := by
  dsimp only
  refine ⟨⟨rfl, ?_⟩, ?_, ?_, ?_, ⟨rfl, ?_⟩, ?_, ⟨rfl, ?_⟩, ⟨rfl, ?_⟩, ?_, ?_, ⟨rfl, ?_⟩, ?_, ⟨rfl, ?_⟩, ?_, ⟨rfl, ?_⟩, ?_, ⟨rfl, ?_⟩, ⟨rfl, ?_⟩, ⟨rfl, ?_⟩, ?_, ?_, ?_, ⟨rfl, ?_⟩, ⟨rfl, ?_⟩, ⟨rfl, ?_⟩, ⟨rfl, ?_⟩, ⟨rfl, ?_⟩,
    ?_, ?_, ?_, ?_, ?_, ?_, ?_, ?_, ?_⟩ <;> decide +kernel

/-- ASSERT. -/
def assertBody (src lvl : Byte) : Desc := descOf 64 15 1 [(0x20, src), (0x21, lvl)]

/-- A device with that collector at a tick. -/
def fltDev (f : Flt) (t : Nat) : Dev := { Dev.reset with flt := { f with cls := Dev.reset.flt.cls }, ctl := { ticks := t }, hub := { linkUp := true, msix := [(7, 0)] } }

theorem wit_FaultCollector :
    let r := Dev.reset
    let up (b : BitVec 64) := fltDev { live := b } 0
    let beat (t : Nat) := fltDev { beat := some 0, wdtFrom := some 0, aliveK := 1 } t
    let halt := fltDev { latched := [(1, 4)], aliveK := 1 } 0
    r.flt.latched.get 0 62 = 0 ∧ (0x4000000000000000#64 &&& ~~~(conditionWord &&& r.flt.live)).getLsbD 62 = true ∧ r.flt.classOf 1 = 3 ∧ r.flt.classOf 12 = 2 ∧ r.halted = false ∧
    (fltDev {} 0).hub.linkUp = true ∧ ((fltDev {} 0).hub.msix.get 1 7).getLsbD 0 = false ∧ (queued r (assertBody 6 1)).Takes 15 1 assertSpec (assertBody 6 1) r ∧
    (queued r (assertBody 6 0)).Takes 15 1 assertSpec (assertBody 6 0) r ∧ (queued r (assertBody 7 1)).Takes 15 1 assertSpec (assertBody 7 1) r ∧ r.flt.live.getLsbD 62 = false ∧
    (up (1#64 <<< 62)).flt.live.getLsbD 62 = true ∧ isPfOrFw .firmware = true ∧ isPfOrFw (.vf 63) = false ∧ r.flt.lock = false ∧ (fltDev { lock := true } 0).flt.lock = true ∧ halt.halted = true ∧
    (beat 150000001).flt.wdtFrom = some 0 ∧ 0 + 150000000 < (beat 150000001).ctl.ticks ∧ ((beat 0).flt.live.getLsbD 0 = false ∧ r.ctl.booting = true ∧ ({ r with ctl := { r.ctl with booting := false } } : Dev).ctl.booting = false) ∧ (beat 30000000).ctl.ticks ≤ 0 + 30000000 ∧
    (beat 0).media / 500000 ≠ (beat 0).flt.aliveK ∧ (beat 0).halted = false ∧ r.media / 500000 = r.flt.aliveK ∧ halt.media / 500000 ≠ halt.flt.aliveK := by
  dsimp only
  refine ⟨?_, ?_, ?_, ?_, ?_, ?_, ?_, ⟨rfl, ?_⟩, ⟨rfl, ?_⟩, ⟨rfl, ?_⟩, ?_, ?_, ?_, ?_, ?_, ?_, ?_, ?_, ?_, ?_, ?_, ?_, ?_, ?_, ?_⟩ <;> decide +kernel

/-- What a snooped unit's end needs (log entry 8: floors are fused, so the witness of a withheld unit asks for one that is not 0). -/
theorem wit_CheckUnits_snoop :
    let b := chkDev { bound := true }
    let bare : Dev := { b with chk := [(55, { cfg := overlay csBody.bytes 0x42 [0], bound := true })] }
    let taps (d : Dev) : Prop := (d.check 55).cfg ≠ [] ∧ (d.check 55).overrun = false ∧ (d.check 55).lost = false ∧ d.tapSet ((d.check 55).get 0x26 1) ((d.check 55).get 0x40 2) = true
    taps b ∧ taps bare ∧ taps (chkDev {}) ∧ (b.check 55).compare = 1 ∧ (b.check 55).get 0x44 2 = 0xFFFF ∧ (bare.check 55).compare = 0 ∧ (bare.check 55).logAddr = 0 ∧
    (((chkDev { lost := true }).check 55).lost = true ∧ (b.check 55).due = [] ∧ ((chkDev { bound := true, due := [(some 7, [1, 2], true)] }).check 55).due = (some 7, [1, 2], true) :: [] ∧
      Tab.wf {} b.chk ∧ ((b.check 55).get 0x26 1 = 0 ∧ (b.check 55).get 0x40 2 = 511)) ∧
    (∀ x ∈ [chkBody [(0x21, 8)], chkBody [(0x20, 1), (0x21, 48)], chkBody [(0x20, 2)]],
      (queued Dev.reset x).Takes 9 1 checkConfigureSpec x Dev.reset ∧ ¬ ((x.get 0x20 1 = 0 ∧ x.get 0x21 1 < 8) ∨ (x.get 0x20 1 = 1 ∧ x.get 0x21 1 < 48))) ∧
    (0 < floorOf 29 → (({ b with fab := { b.fab with windows := [(29, [0])] } } : Dev).fab.windows.get [] 29).headD 0 < floorOf 29) := by
  refine ⟨by decide +kernel, by decide +kernel, by decide +kernel, by decide +kernel, by decide +kernel, by decide +kernel, by decide +kernel, by decide +kernel, ?_, fun h => h⟩
  intro x hx
  simp only [List.mem_cons, List.not_mem_nil, or_false] at hx
  obtain rfl | rfl | rfl := hx <;> exact ⟨⟨rfl, by decide +kernel⟩, by decide +kernel⟩

/-! ## Trust, Praline, resets -/

/-- ATTEST and MEASURE of 64 bytes. -/
def attBody (k : Byte) (ps : List (Nat × Byte)) : Desc := descOf 0x60 14 1 ([(0x20, k), (0x24, 0x2C), (0x25, 1), (0x2B, 0x80), (0x30, 0x20), (0x31, 0x3A), (0x32, 1)] ++ ps)
def certBody (ps : List (Nat × Byte)) : Desc := descOf 64 14 2 ([(0x23, 0x80), (0x2A, 2)] ++ ps)
def measBody (ps : List (Nat × Byte)) : Desc := descOf 64 14 3 ([(0x23, 0x80), (0x28, 64)] ++ ps)

/-- An image of a type; a device in boot with that trust engine; and a device at a tick with it. -/
def imageOf (typ : Nat) (sigOk : Bool) : BootImage := ⟨true, typ, sigOk, bytesOf 128 [(0, 0x49), (1, 0x53), (2, 0x47), (3, 0x4B), (4, BitVec.ofNat 8 typ), (8, 3)]⟩
def bootDev (t : Trust) : Dev := { Dev.reset with trust := t, ctl := { pwrOk := true, perstN := true, booting := true } }
/-- The fuses of key 0 hold the hash of the key in that image's header. -/
def keyFuses (typ : Nat) : Tab (List Byte) := [(0, shake512 (((imageOf typ true).signed.drop 0x10).take 64))]
def trustDev (t : Trust) (now : Nat) : Dev := { Dev.reset with trust := t, ctl := { ticks := now, pwrOk := true } }

/-- A key whose hash the fuses hold, and which is not revoked, fits; so such an image is accepted, and none whose signature fails. -/
theorem keyOk_of_fuses (d : Dev) (i : BootImage) (h0 : fieldLE i.signed 5 1 = 0) (hk : d.trust.keyHash = [(0, shake512 ((i.signed.drop 0x10).take 64))])
    (hr : d.trust.revoked = [(0, false)]) : d.keyOk i = true := by
  simp [Dev.keyOk, h0, hk, hr, Tab.get]

theorem accepts_of_fuses (d : Dev) (t : Nat) (i : BootImage) (h0 : fieldLE i.signed 5 1 = 0) (hk : d.trust.keyHash = [(0, shake512 ((i.signed.drop 0x10).take 64))])
    (hr : d.trust.revoked = [(0, false)]) (hh : (i.present && i.typ == t && headerOk t i && i.sigOk && decide (d.trust.fused ≤ imageVersion i)) = true) : d.accepts t i = true := by
  have h := keyOk_of_fuses d i h0 hk hr
  revert hh
  simp only [Dev.accepts, h]
  cases i.present <;> cases (i.typ == t) <;> cases headerOk t i <;> cases i.sigOk <;> simp

theorem not_accepts_of_sig (d : Dev) (t : Nat) (i : BootImage) (h : i.sigOk = false) : d.accepts t i = false := by
  simp [Dev.accepts, h]

theorem wit_TrustEngine :
    let r := Dev.reset
    let a0 := attBody 0 []
    let a1 := attBody 1 []
    let a2 := attBody 2 [(0x22, 9)]
    let full := trustDev { queue := List.replicate 8 (.partner []) } 0
    let live : Dev := { r with twin := { st := .paired } }
    let joined : Dev := { r with casc := { cfg := [1] } }
    let svc (k : Bool) (q : List QuoteFor) := trustDev { keyReady := k, queue := q } 0
    let serve (q : List QuoteFor) (at_ : List (Desc × Nat × List Byte)) (due : Option Nat) (now : Nat) := trustDev { serving := true, queue := q, attests := at_, blockDue := due } now
    let failed : Dev := { bootDev { failed := [0] } with ctl := { bootFailed := true } }
    let b0 := bootDev { keyDone := true, keyHash := keyFuses 0, revoked := [(0, false)] }
    let b1 (k : Nat) := bootDev { keyDone := true, boot := 1, done := [0], keyHash := keyFuses k, revoked := [(0, false)] }
    let one (y : Desc) (got : List Byte) := trustDev { attests := [(y, 0, got)] } 900000000;
    (queued r a0).Takes 14 1 attestSpec a0 r ∧ (queued r (attBody 3 [])).Takes 14 1 attestSpec (attBody 3 []) r ∧ (queued full a0).Takes 14 1 attestSpec a0 full ∧
    (queued r a1).Takes 14 1 attestSpec a1 r ∧ r.twin.st ≠ .paired ∧ (queued live a1).Takes 14 1 attestSpec a1 live ∧ (queued r a2).Takes 14 1 attestSpec a2 r ∧ r.casc.cfg = [] ∧
    (queued joined a2).Takes 14 1 attestSpec a2 joined ∧ (queued r (certBody [])).Takes 14 2 certsSpec (certBody []) r ∧ (queued r (certBody [(0x2A, 1)])).Takes 14 2 certsSpec (certBody [(0x2A, 1)]) r ∧
    (queued r (measBody [])).Takes 14 3 measureSpec (measBody []) r ∧ r.poisoned ((measBody []).get 0x20 8) 64 = false ∧ (queued r (measBody [(0x28, 65)])).Takes 14 3 measureSpec (measBody [(0x28, 65)]) r ∧
    ({ r with poison := [0x80000000 / 64] } : Dev).poisoned 0x80000000 64 = true ∧ (queued r (descOf 64 14 4 [])).Takes 14 4 commitSpec (descOf 64 14 4 []) r ∧
    (a0.get 0x20 1 = 0 ∧ a1.get 0x20 1 = 1 ∧ a2.get 0x20 1 = 2 ∧ a2.get 0x22 2 = 9 ∧ a0.get 0x24 2 = 300 ∧ a0.get 0x28 8 % 64 = 0 ∧ a0.get 0x30 4 = 80416) ∧
    ((svc true [.self a0]).flt.live.getLsbD 0 = false ∧ (svc true [.self a0]).trust.serving = false ∧ (svc false [.partner [1]]).trust.keyReady = false) ∧
    ((serve [.self a0] [(a0, 0, [])] none 0).trust.serving = true ∧ (serve [.partner [1]] [] (some 5) 5).trust.blockDue = some 5 ∧ (serve [] [] (some 5) 4).ctl.ticks < 5) ∧
    ((3#3).getLsbD 0 = true ∧ bitN (trustDev { sensors := 2 } 0).trust.sensors 0 = false ∧ (2#3).getLsbD 0 = false ∧ r.ctl.pwrOk = false) ∧
    ((0x80000000#32).getLsbD 31 = true ∧ failed.ctl.bootFailed = true ∧ (∀ m, m < 12 → (failed.mcAt m).st ≠ 5)) ∧
    (b0.ctl.booting = true ∧ b0.trust.boot = 0 ∧ b0.trust.failed = [] ∧ b0.accepts 0 (imageOf 0 true) = true ∧ b0.accepts 0 (imageOf 0 false) = false) ∧
    ((b1 3).trust.boot ≠ 0 ∧ 0 ∈ (b1 3).trust.done ∧ 3 ∉ (b1 3).trust.done ∧ (b1 3).accepts 3 (imageOf 3 true) = true ∧ (b1 1).accepts 1 (imageOf 1 false) = false ∧ (b1 4).accepts 4 (imageOf 4 true) = true) ∧
    ((one a0 []).trust.queue = [] ∧ 0 + a0.get 0x24 2 * 3000000 ≤ (one a0 []).ctl.ticks ∧ ([] ++ zeros 2).length < 80416 ∧ 80416 ≤ (zeros 80415 ++ zeros 2).length) ∧
    (live.twin.st = .paired ∧ live.trust.queue.length < 8 ∧ 8 ≤ full.trust.queue.length) := by
  have h : 80416 ≤ (zeros 80415 ++ zeros 2).length := by
    rw [List.length_append, zeros, zeros, List.length_replicate, List.length_replicate]; decide
  dsimp only
  refine ⟨⟨rfl, ?_⟩, ⟨rfl, ?_⟩, ⟨rfl, ?_⟩, ⟨rfl, ?_⟩, ?_, ⟨rfl, ?_⟩, ⟨rfl, ?_⟩, ?_, ⟨rfl, ?_⟩, ⟨rfl, ?_⟩, ⟨rfl, ?_⟩, ⟨rfl, ?_⟩, ?_, ⟨rfl, ?_⟩, ?_, ⟨rfl, ?_⟩, ?_, ?_, ?_, ?_, ?_,
    ⟨?_, ?_, ?_, accepts_of_fuses _ _ _ rfl rfl rfl (by decide +kernel), not_accepts_of_sig _ _ _ rfl⟩,
    ⟨?_, ?_, ?_, accepts_of_fuses _ _ _ rfl rfl rfl (by decide +kernel), not_accepts_of_sig _ _ _ rfl, accepts_of_fuses _ _ _ rfl rfl rfl (by decide +kernel)⟩,
    ⟨?_, ?_, ?_, h⟩, ?_⟩ <;> decide +kernel

theorem wit_TrustEngine_quotes :
    let serve (k : Bool) (q : List QuoteFor) (at_ : List (Desc × Nat × List Byte)) := trustDev { keyReady := k, serving := true, queue := q, attests := at_ } 0
    let idle (k : Bool) (q : List QuoteFor) := trustDev { keyReady := k, queue := q } 0
    let a0 := attBody 0 [];
    (∀ q ∈ [QuoteFor.self a0, .partner [1], .casc 5 [1]], ∀ k ∈ [true, false],
      (serve k [q] [(a0, 0, [])]).trust.serving = true ∧ (serve k [q] [(a0, 0, [])]).trust.queue = [q] ∧ (serve k [q] [(a0, 0, [])]).trust.keyReady = k ∧
      (serve k [q] [(a0, 0, [])]).trust.attests = [(a0, 0, [])] ∧
      (idle k [q]).trust.serving = false ∧ (idle k [q]).flt.live.getLsbD 0 = false ∧ (idle k [q]).trust.queue = q :: [] ∧ (idle k [q]).trust.keyReady = k) := by
  dsimp only
  decide +kernel

/-- The island as given, at tick 30000 of a hub with its power or without. -/
def prlDev (p : Prl) (on : Bool) : Dev := { Dev.reset with prl := p, ctl := { ticks := 30000, pwrOk := on, booting := false } }

/-- Flow 9 is contract 5's, copy A and FEC; contract 5 as given. -/
def islandOf (c : Contract) : Prl := { map := [(9, 2 ^ 31 + 5 * 1024 + 5)], contracts := [(5, c)] }

theorem wit_PralineMetering :
    let p := islandOf {}
    let ev (flow : Nat) (b : Bool) : TapEvent := ⟨false, 3, flow, b, true, 1500⟩
    let due (p : Prl) : Prl := { p with secDone := 60 }
    let quiet (p : Prl) : Prop := p.selfTest = false ∧ p.ivDone < p.secDone ∧ p.secDone % p.interval = 0 ∧ p.hubTime = none ∧ p.committed = [] ∧ p.secDone % 600 ≠ 0 ∧ logReserve ≤ p.freeBytes
    let fits (q : Prl) (n : Nat) : Prop := q.logStopped = false ∧ q.wptr + n ≤ logRing ∧ n ≤ q.freeBytes
    let one := due { p with ivPresent := true }
    let com (c : Nat × Nat × Nat) := due { p with committed := [c] };
    (p.powered = true ∧ p.selfTest = false ∧ bitN (p.map.get 0 9) 31 = true ∧ bitN (p.map.get 0 9) 10 = true ∧ bitN (p.map.get 0 9) 12 = true ∧ bitN (p.map.get 0 9) 11 = false) ∧
    ((ev 9 false).fec = true ∧ bitN (p.map.get 0 (ev 8 false).flow) 31 = false ∧ ({ p with powered := false } : Prl).powered = false) ∧
    ((prlDev p true).ctl.ticks < (prlDev { p with beatA := 1 } true).prl.beatA + 30000 ∧ (prlDev p true).prl.beatA + 30000 ≤ (prlDev p true).ctl.ticks) ∧
    (p.counter < (p.secDone + 1) * 32768 ∧ (p.secDone + 1) * 32768 ≤ ({ p with counter := 32768 } : Prl).counter ∧ 5 ∈ p.mapped ∧ 6 ∉ p.mapped) ∧
    ¬ p.ivDone < p.secDone ∧ quiet (due {}) ∧ (due {}).mapped = [] ∧ (due {}).contracts = [] ∧ quiet one ∧ one.mapped = [5] ∧ one.contracts = [(5, {})] ∧ one.ivPresent = true ∧ one.wptr + 64 ≤ logRing ∧
    64 + logReserve ≤ one.freeBytes ∧ (com (0, 7, 0)).committed = [(0, 7, 0)] ∧ (com (2, 0, 30)).committed = [(2, 0, 30)] ∧ 60 % (com (2, 0, 30)).interval = 0 ∧
    p.sealHigh = false ∧ fits p 48 ∧ fits {} 256 ∧ (prlDev {} false).ctl.pwrOk = false ∧ ({} : Prl).mainAbsent = false ∧ ({} : Prl).mapped = [] ∧ ({} : Prl).contracts = [] ∧
    (prlDev { mainAbsent := true } true).ctl.pwrOk = true ∧ fits { mainAbsent := true } 48 ∧ p.signing = [] ∧ ({ signing := [([1], 3)] } : Prl).keyReady = true := by
  dsimp only
  refine ⟨?_, ?_, ?_, ?_, ?_, ?_, ?_, ?_, ?_, ?_, ?_, ?_, ?_, ?_, ?_, ?_, ?_, ?_, ?_, ?_, ?_, ?_, ?_, ?_, ?_, ?_, ?_, ?_⟩ <;> decide +kernel

theorem wit_PralineExchange :
    let msg (k v : Byte) := bytesOf 64 [(0, k), (8, v)]
    let p : Prl := { sealSeq := 5, released := 2 }
    let log : Prl := { head := 2, recs := [(1, 0, 48)] }
    let up : Dev := { prlDev {} true with tb := { sec := 1 } };
    p.powered = true ∧ byteAt (msg 1 0) 0 = 1 ∧ byteAt (msg 2 0) 0 ≠ 1 ∧ ({ powered := false } : Prl).powered = false ∧
    (({ hubTime := some (0, 0) } : Prl).ns < 0 + 2000000000 ∧ 0 + 2000000000 ≤ ({ hubTime := some (0, 0), counter := 65536 } : Prl).ns) ∧
    (byteAt (msg 2 4) 0 = 2 ∧ fieldLE (msg 2 4) 8 8 < p.sealSeq ∧ p.released < fieldLE (msg 2 4) 8 8 ∧ ¬ fieldLE (msg 2 5) 8 8 < p.sealSeq) ∧
    (p.logStopped = false ∧ p.wptr + 48 ≤ logRing ∧ 48 ≤ p.freeBytes) ∧
    (up.prl.hubSec < up.tb.sec ∧ up.ctl.pwrOk = true ∧ up.ctl.booting = false ∧ up.ctl.bootFailed = false ∧ ¬ (prlDev {} true).prl.hubSec < (prlDev {} true).tb.sec) ∧
    (p.status ≠ p.sentStat ∧ ({ sentStat := p.status } : Prl).sentStat = ({ sentStat := p.status } : Prl).status ∧ (prlDev p false).ctl.pwrOk = false) ∧
    ((prlDev p true).ctl.ticks < (prlDev p true).prl.hubStatAt + 9000000000 ∧ ({ prlDev p true with ctl := { ticks := 9000000000, pwrOk := true } } : Dev).prl.hubStatAt + 9000000000 ≤ 9000000000) ∧
    (log.record 7 = none ∧ log.record 1 = some (readBytes log.ring 0 48) ∧ p.sealHigh = false ∧ ({ sealHigh := true } : Prl).sealHigh = true ∧ 4095 < 4096 ∧ 1023 < 1024) := by
  dsimp only
  refine ⟨?_, ?_, ?_, ?_, ?_, ?_, ?_, ?_, ?_, ?_, ?_, ?_, ?_, ?_, ?_, ?_⟩ <;> decide +kernel

/-- The twelve controllers in a state of Table 19.2, and a device in boot or past it with them. -/
def mcsAt (st : Nat) : Tab Mc := (List.range 12).map fun m => (m, { st := st })
def onDev (booting : Bool) (st : Nat) : Dev := { Dev.reset with mc := mcsAt st, ctl := { pwrOk := true, perstN := true, booting := booting }, trust := { done := [0, 1, 2, 3] }, hub := { linkUp := true, numVfs := 63 } }

theorem wit_Resets :
    let r := Dev.reset
    let low : Dev := { r with ctl := { pwrOk := true, perstN := false } }
    let off : Dev := { r with ctl := { perstN := false } }
    let on := onDev false 2
    let boot := onDev true 3
    let tr := onDev true 1
    let th : Thread := { st := .ready, fn := 63 }
    let held : Dev := { on with thr := [(300, th)] }
    let isl (n : Nat) (b : Option Nat) : Dev := { on with ctl := { on.ctl with island := n, islBusy := b } }
    let vf : Dev := { on with hub := { on.hub with owner := [(2, 63)] } };
    (r.ctl.perstN = true ∧ r.ctl.pwrOk = false ∧ off.ctl.perstN = false ∧ off.ctl.pwrOk = false ∧ low.ctl.pwrOk = true ∧ low.ctl.perstN = false) ∧
    (on.ctl.pwrOk = true ∧ on.ctl.perstN = true ∧ on.casc.dup = false ∧ Tab.wf {} on.mc ∧ (on.mcAt 11).st = 2 ∧ (tr.mcAt 11).st ≠ 2 ∧ (r.mcAt 11).st = 0) ∧
    (isPf .pf = true ∧ isPf .firmware = false ∧ on.bootReady = false ∧ boot.bootReady = true ∧ (boot.mcAt 0).density ≤ 3) ∧
    (on.hub.linkUp = true ∧ on.ctl.booting = false ∧ ¬ on.hub.numVfs < 63 ∧ r.hub.numVfs < 1) ∧
    (held.thr = [(300, th)] ∧ th.fn = 63 ∧ th.st = .ready ∧ th.outst = 0 ∧ held.chan = [] ∧ held.dsp.heldPosts = [] ∧ held.unitQueue 3 = [] ∧ ∀ i, i < 4 → (held.engine i).job = none) ∧
    (on.hub.numVfs ≤ 63 ∧ 0 < on.hub.numVfs ∧ Tab.wf 0 vf.hub.owner ∧ 62 < vf.hub.owner.get 0 2) ∧
    ((isl 31 none).ctl.island = 31 ∧ (isl 15 (some 15)).ctl.islBusy ≠ none ∧ (isl 15 none).unpowered 15 = false ∧ (isl 23 none).unpowered 23 = false ∧ (isl 30 none).unpowered 30 = false) ∧
    ((isl 0 (some 15)).ctl.islBusy = some 15 ∧ (isl 0 (some 16)).ctl.islBusy = some 16 ∧ (isl 0 (some 30)).twin.st ≠ .partitioned) := by
  dsimp only
  refine ⟨?_, ?_, ?_, ?_, ?_, ?_, ?_, ?_⟩ <;> decide +kernel

/-- A device in a power state, with a waiting DORMANT write. -/
def powDev (n : Nat) (q : Option Bool) : Dev := { onDev false 2 with ctl := { pwrOk := true, perstN := true, booting := false, power := n, dormantReq := q } }

theorem wit_PowerAndClocks :
    let d := powDev 0 none
    let busy : Dev := { d with cap := [(3, { st := .waiting })] }
    let lanes : Dev := { d with group := [(5, { stage := .active })] }
    let sr : Dev := { powDev 2 none with mc := mcsAt 3 }
    let trip : Dev := { d with flt := { live := 1#64 <<< 53 } }
    let off : Dev := { d with tb := { refTb := false } };
    (powDev 1 none).ctl.power = 1 ∧ (powDev 3 none).ctl.power = 3 ∧ (powDev 2 none).ctl.power = 2 ∧ busy.anyStarted = true ∧ d.anyStarted = false ∧ lanes.anyStarted = false ∧
    (lanes.group = [(5, { stage := .active })] ∧ ({ stage := .active } : Group).stage ≠ .idle) ∧ (sr.mcAt 11).st = 3 ∧ (powDev 1 none).ctl.dormantReq = none ∧
    (powDev 1 (some false)).ctl.dormantReq = some false ∧ ((powDev 1 none).mcAt 11).st = 2 ∧ d.ctl.power ≠ 3 ∧ d.group = [] ∧ d.flt.latched.get 0 31 = 0 ∧ d.flt.latched.get 0 34 = 0 ∧ (1#16).getLsbD 0 = true ∧
    d.flt.live.getLsbD 52 = false ∧ d.flt.latched.get 0 52 = 0 ∧ d.flt.live.getLsbD 53 = false ∧ trip.flt.live.getLsbD 53 = true ∧ d.tb.refTb = true ∧ off.tb.refTb = false ∧
    Dev.reset.ctl.pwrOk = false ∧ d.ctl.pwrOk = true ∧ d.ctl.perstN = true := by
  dsimp only
  refine ⟨?_, ?_, ?_, ?_, ?_, ?_, ?_, ?_, ?_, ?_, ?_, ?_, ?_, ?_, ?_, ?_, ?_, ?_, ?_, ?_, ?_, ?_, ?_, ?_, ?_⟩ <;> decide +kernel

/-- The DORMANT exit's condition: floors are fused and may be any 20-bit number (log entry 8), so the witness asks that they leave room for 103%. -/
theorem wit_PowerAndClocks_floors (h : ∀ n, floorOf n ≤ 1000000) :
    let d : Dev := { powDev 3 none with fab := { windows := (List.range 32).map fun n => (n, [1048575]) } };
    d.ctl.power = 3 ∧ 800 ≤ d.fab.setMv ∧ d.allFast = true := by
  dsimp only
  refine ⟨by decide +kernel, by decide +kernel, ?_⟩
  have hm : ∀ n, n < 32 → ({ powDev 3 none with fab := { windows := (List.range 32).map fun n => (n, [1048575]) } } : Dev).cadMean n = 1048575 := by decide +kernel
  simp only [Dev.allFast, List.all_eq_true, List.mem_range, decide_eq_true_eq]
  intro n hn
  rw [hm n hn]
  have := h n
  omega

theorem wit_Resets_islands :
    let isl (n : Nat) : Dev := { onDev false 2 with ctl := { pwrOk := true, perstN := true, booting := false, island := n } }
    let back (n : Nat) : Dev := { onDev false 2 with ctl := { pwrOk := true, perstN := true, booting := false, islBusy := some n } };
    (∀ n ∈ [0, 15, 16, 19, 20, 23, 24, 25, 30], (isl n).ctl.island = n ∧ (isl n).ctl.islBusy = none ∧ (isl n).unpowered n = false) ∧
    (∀ n ∈ [0, 15, 16, 25, 30], (back n).ctl.islBusy = some n ∧ (back n).twin.st ≠ .paired ∧ (back n).twin.st ≠ .partitioned) ∧
    (powDev 0 none).ctl.pwrOk = true ∧ (powDev 0 none).ctl.perstN = true ∧ (6 : Fin 7).val ≠ 0 ∧ (2 : Fin 32).val = 2 ∧ (31 : Fin 32).val ≠ 16 := by
  decide +kernel

theorem wit_PralineMetering_seconds :
    let p := islandOf {}
    let late : Prl := { p with counter := 32768 };
    p.powered = true ∧ p.counter < (p.secDone + 1) * 32768 ∧ late.powered = true ∧ (late.secDone + 1) * 32768 ≤ late.counter ∧ late.counter < (late.secDone + 2) * 32768 ∧
    (∃ f, exec .islandSecondBoundary (stOf (prlDev late true)) = .next f) ∧ (⟨false, 3, 9, false, true, 1500⟩ : TapEvent) ∈ ({ late with taps := [⟨false, 3, 9, false, true, 1500⟩] } : Prl).taps ∧
    (6 ∉ p.mapped ∧ (p.contract 6).secPkts = 0 ∧ (let q : Prl := { contracts := [(6, { secPkts := 1 })] }; 6 ∉ q.mapped ∧ 0 < (q.contract 6).secPkts)) ∧ late.selfTest = false ∧ ({} : Prl).contracts = [] ∧ ({} : Prl).logStopped = false := by
  exact ⟨by decide +kernel, by decide +kernel, by decide +kernel, by decide +kernel, by decide +kernel, ⟨_, rfl⟩, by decide +kernel, by decide +kernel, by decide +kernel, by decide +kernel, by decide +kernel⟩

/-- Two messages of two classes wait for one ring, or one for a twin link with and without lanes; the hypotheses of the empty queue's step hold of them. -/
theorem wit_AfterReset :
    let a : OutEv := .casc false (frameOf 3 0 none false)
    let b : OutEv := .casc false (frameOf 2 0 none false)
    let m : OutEv := .twin 11 0 0 [1]
    State.reset.pending = [] ∧ a.link ≠ 0 ∧ b.link = a.link ∧ a ≠ b ∧ b.urgency < a.urgency ∧ a.urgency ≤ a.urgency ∧ m.link = 3 ∧ State.reset.dev.twin.lanesUp = [] ∧
    State.reset.dev.tb.refTb = true ∧ State.reset.dev.waiting = [] := by
  decide +kernel

end Sys2Proof.Tests
end

/-! Completion of descriptors: what a completion writes and what a passed check of R157 says of the areas named. -/

namespace Sys2Proof.Machine

/-! ## What a completed descriptor leaves unchanged -/

/-- A meaning whose unit takes the descriptor is the operation's own part. -/
theorem Dev.Takes.runUnit {d e : Dev} {u op : Nat} {sp : Dev → Desc → OpSpec} {x : Desc} (h : d.Takes u op sp x e) (run : Dev → Desc → Dev) :
    d.runUnit u op sp run = run e x := Dev.runUnit_run h.1 h.2

@[simp] theorem statusWord_length (x : Desc) (status mt : Nat) : (statusWord x status mt).length = 16 := by simp [statusWord]

/-- A completion writes its status word and no other memory (R158). -/
theorem Dev.memByte_complete_other (d : Dev) (x : Desc) (status mt j : Nat) (h : j < x.statusAddr ∨ x.statusAddr + 16 ≤ j) :
    (d.complete x status mt).memByte j = d.memByte j := by
  have key : (d.memWrite x.statusAddr (statusWord x status mt)).memByte j = d.memByte j := Dev.memByte_memWrite_other _ _ _ _ (by simpa using h)
  unfold Dev.complete
  split
  · rfl
  · refine (Dev.memByte_congr (d := if x.statusAddr = 0 then d else d.memWrite x.statusAddr (statusWord x status mt)) ?_ ?_ j).trans ?_
    · simp only [Dev.settle_frame]; split <;> simp
    · simp only [Dev.settle_frame]; split <;> simp
    · split
      · rfl
      · exact key

/-- A completion touches threads, the dispatcher and memory alone. -/
theorem Dev.complete_eq (d : Dev) (x : Desc) (status mt : Nat) : ∃ thr dsp mem poison,
    d.complete x status mt = { d with thr := thr, dsp := dsp, mem := mem, poison := poison } := by
  refine ⟨(d.complete x status mt).thr, (d.complete x status mt).dsp, (d.complete x status mt).mem, (d.complete x status mt).poison, ?_⟩
  have h := Dev.complete_frame d x status mt
  generalize d.complete x status mt = e at h ⊢
  cases e
  simpa only [Dev.mk.injEq, true_and, and_true] using h

/-- A write to memory touches memory alone. -/
theorem Dev.memWrite_eq (d : Dev) (a : Nat) (bs : List Byte) : ∃ mem poison, d.memWrite a bs = { d with mem := mem, poison := poison } := by
  unfold Dev.memWrite
  split
  · exact ⟨_, _, rfl⟩
  · exact ⟨_, _, rfl⟩

/-- A write to memory that completes touches threads, the dispatcher and memory alone. -/
theorem Dev.complete_memWrite_eq (d : Dev) (a : Nat) (bs : List Byte) (x : Desc) (status mt : Nat) : ∃ thr dsp mem poison,
    (d.memWrite a bs).complete x status mt = { d with thr := thr, dsp := dsp, mem := mem, poison := poison } := by
  obtain ⟨m, p, hw⟩ := d.memWrite_eq a bs
  rw [hw]
  exact Dev.complete_eq _ _ _ _

/-- Byte `i` of what is written is read back after a completion whose status word lies beside it. -/
theorem Dev.memByte_complete_memWrite {d : Dev} {a i : Nat} {bs : List Byte} {b : Byte} {x : Desc} (status mt : Nat) (hc : a + bs.length ≤ d.capacity)
    (hs : x.statusAddr + 16 ≤ a ∨ a + bs.length ≤ x.statusAddr) (hb : bs[i]? = some b) :
    ((d.memWrite a bs).complete x status mt).memByte (a + i) = b := by
  obtain ⟨hi, rfl⟩ := List.getElem?_eq_some_iff.mp hb
  rw [Dev.memByte_complete_other _ _ _ _ _ (by omega)]
  exact Dev.memByte_memWrite_inside d a bs i hi hc

/-- A byte beside what is written and beside the status word is as before. -/
theorem Dev.memByte_complete_memWrite_other (d : Dev) (a : Nat) (bs : List Byte) (x : Desc) (status mt : Nat) {j : Nat}
    (ha : j < a ∨ a + bs.length ≤ j) (hs : j < x.statusAddr ∨ x.statusAddr + 16 ≤ j) :
    ((d.memWrite a bs).complete x status mt).memByte j = d.memByte j :=
  (Dev.memByte_complete_other _ _ _ _ _ hs).trans (Dev.memByte_memWrite_other d a bs j ha)

/-- With the checks of R157 passed, every area named lies below the installed capacity (R131). -/
theorem Dev.fits_of_check157 {d : Dev} {x : Desc} {sp : OpSpec} (h : d.check157 x sp = none) {m : MemRef} (hm : m ∈ sp.mem) :
    m.addr + max 1 m.len ≤ d.capacity := by
  have hform : d.badForm x sp = false := by
    cases hb : d.badForm x sp with
    | false => rfl
    | true => simp [Dev.check157, hb] at h
  have hmem : sp.mem.any (fun m => !d.exists_ m) = false := (Bool.or_eq_false_iff.mp hform).2
  simpa [Dev.exists_] using List.any_eq_false.mp hmem m hm

/-! ## Records of equal parts -/

/-- A byte of a little-endian number. -/
theorem toLE_getElem? (n v : Nat) {i : Nat} (h : i < n) : (toLE n v)[i]? = some (BitVec.ofNat 8 (v / 256 ^ i)) := by
  rw [List.getElem?_eq_getElem (by simpa using h), toLE_get n v i h]

/-- An item of a list that begins with `n` parts of equal length. -/
theorem getElem?_of_parts {β : Type} {c n r i : Nat} {f : Nat → List β} (rest : List β) (hf : ∀ k, (f k).length = c) (hr : r < n) (hi : i < c) :
    ((List.range n).flatMap f ++ rest)[c * r + i]? = (f r)[i]? := by
  rw [← chunk_of_flatMap c n r f rest hf hr, List.getElem?_take_of_lt hi, List.getElem?_drop]

end Sys2Proof.Machine

/-! Admission, release and the capacity query (chapter 2): one lemma for each operation of the FABRIC unit, then O30. -/

namespace Sys2Proof.Machine

/-! ## ADMIT (R70, R71) -/

/-- Rows of each of `k` member pipes (R64). -/
def Chan.memberRowsOf (c : Chan) (k : Nat) : List Nat := (List.range k).map (memberRows c.rowCount k)

/-- Shares of each of `k` member pipes in milli-CU. -/
def Chan.memberShares (c : Chan) (k : Nat) : List Nat := (c.memberRowsOf k).map fun m => ceilDiv (c.cost.1 * m) (c.cost.2 * c.rowCount)

/-- The channel costs too much for four pipes, or a share too much for one of `k`. -/
def Chan.tooLarge (c : Chan) (k : Nat) : Bool := decide (12000000 * c.cost.2 < c.cost.1) || (c.memberShares k).any (3000000 < ·)

theorem Chan.tooLarge_iff (c : Chan) (k : Nat) : c.tooLarge k = true ↔ 12000000 * c.cost.2 < c.cost.1 ∨ ∃ z ∈ c.memberShares k, 3000000 < z := by
  simp [Chan.tooLarge]

/-- A LIVE channel with these shares finds a pipe that lacks room or has a shed channel. -/
def Dev.pipesFull (d : Dev) (x : Desc) (shares : List Nat) : Bool :=
  x.get 0x22 1 == 0 && ((x.admitPipes.zip shares).any (fun e => 3000000 < d.booked e.1 true + e.2) || x.admitPipes.any d.pipeShed)

theorem Dev.pipesFull_iff (d : Dev) (x : Desc) (shares : List Nat) : d.pipesFull x shares = true ↔
    x.get 0x22 1 = 0 ∧ ((∃ z ∈ x.admitPipes.zip shares, 3000000 < d.booked z.1 true + z.2) ∨ ∃ p ∈ x.admitPipes, d.pipeShed p = true) := by
  simp only [Dev.pipesFull, Bool.and_eq_true, Bool.or_eq_true, beq_iff_eq, List.any_eq_true, decide_eq_true_eq]

/-- The channel with its booking. -/
def Chan.booking (c : Chan) (x : Desc) : Chan :=
  { c with st := .admitted, pipes := x.admitPipes, rows := c.memberRowsOf x.admitPipes.length, shares := c.memberShares x.admitPipes.length,
           ctx := overlay c.ctx 0x38 (toLE 1 (x.get 0x22 1) ++ toLE 1 (x.get 0x23 1)) }

/-- The shares that an ADMIT of the channel gives to the pipes that it names. -/
def Dev.admitShares (d : Dev) (x : Desc) : List Nat := (d.channel (x.get 0x20 2)).memberShares x.admitPipes.length

/-- The result record of an ADMIT (R74, Table 2.5). -/
def Chan.admitRecord (c : Chan) (k : Nat) : List Byte :=
  toLE 4 (ceilDiv c.cost.1 c.cost.2) ++ toLE 2 c.rowCount ++ toLE 2 0 ++
    (List.range 4).flatMap fun m => toLE 2 ((c.memberRowsOf k).getD m 0) ++ toLE 2 0 ++ toLE 4 ((c.memberShares k).getD m 0)

section Admit
variable {d : Dev} {x : Desc}

/-- ADMIT is its four checks in the order of R71, and a booking. -/
theorem Dev.runAdmit_eq (d : Dev) (x : Desc) : d.runAdmit x =
    let c := d.channel (x.get 0x20 2)
    let d1 := d.putChannel (x.get 0x20 2) (c.booking x)
    d.checked x [(c.st != .loaded, stBusy), (badAdmit x, stBadDesc), (c.tooLarge x.admitPipes.length, stCapacity), (d.pipesFull x (d.admitShares x), stCapacity)]
      ((if x.get 0x30 8 = 0 then d1 else d1.memWrite (x.get 0x30 8) (c.admitRecord x.admitPipes.length)).complete x stOK 0) := rfl

theorem Dev.runAdmit_notLoaded (h : (d.channel (x.get 0x20 2)).st ≠ .loaded) : d.runAdmit x = d.complete x stBusy 0 :=
  Dev.checked_fail (by simp [firstFail, h])

theorem Dev.runAdmit_bad (h : (d.channel (x.get 0x20 2)).st = .loaded) (hb : badAdmit x = true) : d.runAdmit x = d.complete x stBadDesc 0 :=
  Dev.checked_fail (by simp [firstFail, h, hb])

theorem Dev.runAdmit_noRoom (h : (d.channel (x.get 0x20 2)).st = .loaded) (hb : badAdmit x = false)
    (hr : (d.channel (x.get 0x20 2)).tooLarge x.admitPipes.length = true ∨ d.pipesFull x (d.admitShares x) = true) :
    d.runAdmit x = d.complete x stCapacity 0 := by
  rw [Dev.runAdmit_eq]
  refine Dev.checked_fail ?_
  cases hl : (d.channel (x.get 0x20 2)).tooLarge x.admitPipes.length with
  | true => simp [firstFail, h, hb]
  | false => simp [firstFail, h, hb, hr.resolve_left (by simp [hl])]

/-- An ADMIT that passes books the channel; a result record, if one is asked for, and the completion touch threads, the dispatcher and memory alone. -/
theorem Dev.runAdmit_books (h : (d.channel (x.get 0x20 2)).st = .loaded) (hb : badAdmit x = false)
    (hl : (d.channel (x.get 0x20 2)).tooLarge x.admitPipes.length = false) (hf : d.pipesFull x (d.admitShares x) = false) :
    ∃ thr dsp mem poison, d.runAdmit x =
      { d.putChannel (x.get 0x20 2) ((d.channel (x.get 0x20 2)).booking x) with thr := thr, dsp := dsp, mem := mem, poison := poison } := by
  rw [Dev.runAdmit_eq]
  dsimp only
  rw [Dev.checked_run (by simp [firstFail, h, hb, hl, hf])]
  split
  · exact Dev.complete_eq _ _ _ _
  · exact Dev.complete_memWrite_eq _ _ _ _ _ _

/-! ## RELEASE (R73) -/

theorem Dev.releaseBooking_started (h : (d.channel (x.get 0x20 2)).started = true) : d.releaseBooking x = d.complete x stBusy 0 :=
  Dev.checked_fail (by simp [firstFail, h])

theorem Dev.releaseBooking_admitted (h : (d.channel (x.get 0x20 2)).st = .admitted) (hp : (d.channel (x.get 0x20 2)).startPend = false) :
    d.releaseBooking x =
      (d.putChannel (x.get 0x20 2) { d.channel (x.get 0x20 2) with st := .loaded, pipes := [], rows := [], shares := [] }).complete x stOK 0 := by
  have hs : (d.channel (x.get 0x20 2)).started = false := by simp [Chan.started, Chan.active, h, hp]
  unfold Dev.releaseBooking
  rw [Dev.checked_run (by simp [firstFail, hs])]
  simp [h]

end Admit

/-! ## QUERY (R66, Table 2.6) -/

/-- The part of the record that speaks of an encoder pipe. -/
def Dev.pipeRecord (d : Dev) (p : Nat) : List Byte :=
  toLE 4 (d.booked p true) ++ toLE 4 (d.booked p false) ++ toLE 4 (d.fab.surplus.get 0 p) ++ toLE 4 (b2n (d.pipeShed p))

@[simp] theorem Dev.pipeRecord_length (d : Dev) (p : Nat) : (d.pipeRecord p).length = 16 := by simp [Dev.pipeRecord]

theorem Dev.capacityRecord_eq (d : Dev) : d.capacityRecord =
    (List.range 16).flatMap d.pipeRecord ++ ((List.range 4).flatMap (fun p => toLE 4 (d.decBooked p)) ++ (List.range 4).flatMap fun k => toLE 4 (d.mfBooked k)) :=
  List.append_assoc ..

@[simp] theorem Dev.capacityRecord_length (d : Dev) : d.capacityRecord.length = 0x120 := by
  simp [Dev.capacityRecord_eq, List.length_flatMap]

section Record
variable (d : Dev) {p i : Nat}

theorem Dev.capacityRecord_pipe {k : Nat} (hp : p < 16) (hk : k < 16) : d.capacityRecord[16 * p + k]? = (d.pipeRecord p)[k]? := by
  rw [Dev.capacityRecord_eq]
  exact getElem?_of_parts _ d.pipeRecord_length hp hk

theorem Dev.capacityRecord_live (hp : p < 16) (hi : i < 4) : d.capacityRecord[16 * p + i]? = some (BitVec.ofNat 8 (d.booked p true / 256 ^ i)) := by
  rw [d.capacityRecord_pipe hp (by omega), ← toLE_getElem? 4 _ hi]
  simp [Dev.pipeRecord, List.getElem?_append_left, hi]

theorem Dev.capacityRecord_other (hp : p < 16) (hi : i < 4) : d.capacityRecord[16 * p + (4 + i)]? = some (BitVec.ofNat 8 (d.booked p false / 256 ^ i)) := by
  rw [d.capacityRecord_pipe hp (by omega), ← toLE_getElem? 4 _ hi]
  simp [Dev.pipeRecord, List.getElem?_append, hi]

theorem Dev.capacityRecord_surplus (hp : p < 16) (hi : i < 4) : d.capacityRecord[16 * p + (8 + i)]? = some (BitVec.ofNat 8 (d.fab.surplus.get 0 p / 256 ^ i)) := by
  rw [d.capacityRecord_pipe hp (by omega), ← toLE_getElem? 4 _ hi]
  simp [Dev.pipeRecord, List.getElem?_append, hi, show ¬ 8 + i < 4 by omega, show 8 + i - 4 = 4 + i by omega]

/-- The record goes on with the decode pipes and the MF clusters. -/
theorem Dev.capacityRecord_rest (k : Nat) : d.capacityRecord[0x100 + k]? =
    ((List.range 4).flatMap (fun p => toLE 4 (d.decBooked p)) ++ (List.range 4).flatMap fun q => toLE 4 (d.mfBooked q))[k]? := by
  rw [Dev.capacityRecord_eq, List.getElem?_append_right (by simp [List.length_flatMap])]
  simp [List.length_flatMap]

theorem Dev.capacityRecord_dec (hp : p < 4) (hi : i < 4) : d.capacityRecord[0x100 + (4 * p + i)]? = some (BitVec.ofNat 8 (d.decBooked p / 256 ^ i)) := by
  rw [d.capacityRecord_rest, getElem?_of_parts _ (fun _ => toLE_length 4 _) hp hi, toLE_getElem? 4 _ hi]

theorem Dev.capacityRecord_mf (hp : p < 4) (hi : i < 4) : d.capacityRecord[0x110 + (4 * p + i)]? = some (BitVec.ofNat 8 (d.mfBooked p / 256 ^ i)) := by
  have hd : ((List.range 4).flatMap fun p => toLE 4 (d.decBooked p)).length = 0x10 := by simp [List.length_flatMap]
  rw [show 0x110 + (4 * p + i) = 0x100 + (0x10 + (4 * p + i)) by omega, d.capacityRecord_rest, List.getElem?_append_right (by omega), hd,
    Nat.add_sub_cancel_left, ← List.append_nil (List.flatMap _ _),
    getElem?_of_parts [] (fun _ => toLE_length 4 _) hp hi, toLE_getElem? 4 _ hi]

end Record

section Query
variable {d : Dev} {x : Desc}

theorem Dev.queryCapacity_noAddr (h : x.get 0x30 8 = 0) : d.queryCapacity x = d.complete x stOK 0 := by
  simp [Dev.queryCapacity, h]

theorem Dev.queryCapacity_writes (h : x.get 0x30 8 ≠ 0) : d.queryCapacity x = (d.memWrite (x.get 0x30 8) d.capacityRecord).complete x stOK 0 := by
  simp [Dev.queryCapacity, h]

/-- The area of a QUERY that passes the checks of R157 lies below the installed capacity. -/
theorem Dev.query_fits (hc : d.check157 x (querySpec d x) = none) (h : x.get 0x30 8 ≠ 0) : x.get 0x30 8 + d.capacityRecord.length ≤ d.capacity := by
  have hm : (⟨x.get 0x30 8, 0x120, false, true⟩ : MemRef) ∈ (querySpec d x).mem := by simp [querySpec, optArea, h]
  simpa using Dev.fits_of_check157 hc hm

end Query

/-! ## The meanings -/

section Meanings
variable {s : State} {x : Desc} {e : Dev}

theorem exec_fabricAdmit (h : s.dev.Takes 16 1 admitSpec x e) : exec .fabricAdmit s = .next { s with dev := e.runAdmit x } :=
  congrArg (ok s) (h.runUnit Dev.runAdmit)

theorem exec_fabricRelease (h : s.dev.Takes 16 2 releaseSpec x e) : exec .fabricRelease s = .next { s with dev := e.releaseBooking x } :=
  congrArg (ok s) (h.runUnit Dev.releaseBooking)

theorem exec_fabricQuery (h : s.dev.Takes 16 3 querySpec x e) : exec .fabricQuery s = .next { s with dev := e.queryCapacity x } :=
  congrArg (ok s) (h.runUnit Dev.queryCapacity)

end Meanings

/-- Settles O30: each operation is its own part once the unit takes the descriptor; ADMIT by its four checks in order, QUERY by the bytes of its record. -/
theorem admissionAndQuery : Obligations.AdmissionAndQuery := by
  unfold Obligations.AdmissionAndQuery
  refine ⟨fun s x e => ?_, fun s x e hx => ?_⟩
  · intro n c ps k r q rows shares over_ full
    have hover : c.tooLarge k = true ↔ over_ := c.tooLarge_iff k
    have hfull : e.pipesFull x (e.admitShares x) = true ↔ full := e.pipesFull_iff x _
    refine ⟨fun hx => ?_, fun hx => ?_⟩
    · rw [exec_fabricAdmit hx]
      refine ⟨fun h => ?_, fun h hb => ?_, fun h hb hr => ?_, fun h hb hl hf => ?_⟩
      · rw [Dev.runAdmit_notLoaded h]; rfl
      · rw [Dev.runAdmit_bad h hb]; rfl
      · rw [Dev.runAdmit_noRoom h hb (hr.imp hover.mpr hfull.mpr)]; rfl
      · have hl' : c.tooLarge k = false := Bool.eq_false_iff.mpr (hover.not.mpr hl)
        have hf' : e.pipesFull x (e.admitShares x) = false := Bool.eq_false_iff.mpr (hfull.not.mpr hf)
        obtain ⟨thr, dsp, mem, poison, hd⟩ := Dev.runAdmit_books h hb hl' hf'
        have hn : (e.runAdmit x).channel n = c.booking x := by rw [hd]; exact Dev.channel_putChannel _ _ _
        refine ⟨_, exec_fabricAdmit hx, ?_, ?_, ?_, ?_, fun j hj => ?_, ?_⟩
        · rw [hn]; rfl
        · rw [hn]; rfl
        · rw [hn]; rfl
        · rw [hn]; rfl
        · rw [hd]; exact Dev.channel_putChannel_other _ _ hj
        · rw [hd]; rfl
    · rw [exec_fabricRelease hx]
      refine ⟨fun h => ?_, fun h hp => ?_⟩
      · rw [Dev.releaseBooking_started h]; rfl
      · rw [Dev.releaseBooking_admitted h hp]; rfl
  · intro a
    refine ⟨fun ha => ?_, fun ha hs => ?_⟩
    · rw [exec_fabricQuery hx, Dev.queryCapacity_noAddr ha]; rfl
    · have hfit := Dev.query_fits hx.2 ha
      have byte {i : Nat} {b : Byte} (hb : e.capacityRecord[i]? = some b) : (e.queryCapacity x).memByte (a + i) = b := by
        rw [Dev.queryCapacity_writes ha]
        exact Dev.memByte_complete_memWrite _ _ hfit (by simpa using hs) hb
      refine ⟨_, exec_fabricQuery hx, fun p i hp hi => ⟨?_, ?_, ?_⟩, fun p i hp hi => ⟨?_, ?_⟩, fun j hj hj' => ?_, ?_⟩
      · simpa [Nat.add_assoc] using byte (e.capacityRecord_live hp hi)
      · simpa [Nat.add_assoc] using byte (e.capacityRecord_other hp hi)
      · simpa [Nat.add_assoc] using byte (e.capacityRecord_surplus hp hi)
      · simpa [Nat.add_assoc] using byte (e.capacityRecord_dec hp hi)
      · simpa [Nat.add_assoc] using byte (e.capacityRecord_mf hp hi)
      · rw [Dev.queryCapacity_writes ha]
        exact Dev.memByte_complete_memWrite_other e a _ x _ _ (by simpa using hj) hj'
      · rw [Dev.queryCapacity_writes ha]
        obtain ⟨thr, dsp, mem, poison, hd⟩ := e.complete_memWrite_eq a e.capacityRecord x stOK 0
        rw [hd]

end Sys2Proof.Machine

/-! The hub's requests (chapter 3): the Summary Block request, its write to the host and the setting of owners, then O28. -/

namespace Sys2Proof.Machine

/-! ## The Summary Block (R113 to R116) -/

theorem Dev.resyncReq_not_pf {d : Dev} {who : Requester} (h : who ≠ .pf) : d.resyncReq who = d := by
  simp [Dev.resyncReq, isPf, h]

/-- What drives no link goes out at once. -/
theorem Dev.emit_of_link_zero (d : Dev) {e : OutEv} (h : e.link = 0) : d.emit e = { d with out := d.out ++ [e] } := if_pos h

/-- A raised vector touches the pending bits and the output alone (R104, R651). -/
theorem Dev.raiseVector_eq (d : Dev) (fn vec : Nat) : ∃ pba l,
    d.raiseVector fn vec = { d with hub := { d.hub with pba := pba }, out := d.out ++ l } := by
  unfold Dev.raiseVector
  split
  · exact ⟨d.hub.pba, [], by rw [List.append_nil]⟩
  · split
    · exact ⟨_, [], by rw [List.append_nil]⟩
    · exact ⟨d.hub.pba, [.msix fn vec], Dev.emit_of_link_zero d rfl⟩

/-- The block's first 32 bytes (Table 3.14): identity, state, count of boots, sequence number and both times. -/
def Dev.summaryStart (d : Dev) : List Byte :=
  toLE 2 0x4B47 ++ toLE 2 1 ++ toLE 1 d.state ++ toLE 1 0xB0 ++ zeros 2 ++ toLE 4 d.trust.bootCount ++ toLE 4 d.hub.seq ++ toLE 8 d.upNs ++ toLE 8 d.media

/-- Whoever writes the block, hub firmware or the boot ROM, begins it alike (R590). -/
theorem Dev.summaryBlock_start (d : Dev) : ∃ rest, d.summaryBlock = d.summaryStart ++ rest := by
  obtain ⟨r, hr⟩ : ∃ r, d.summaryHead = d.summaryStart ++ r := ⟨_, List.append_assoc ..⟩
  unfold Dev.summaryBlock
  split
  · exact ⟨_, by simp only [hr, List.append_assoc]; rfl⟩
  · exact ⟨_, by simp only [hr, List.append_assoc]; rfl⟩

/-- The hub may serve a request for the block (R114): one stands, the link is up, the PF may master the bus, no reset is on and HUB_WDT is not active. -/
def Dev.mayServeResync (d : Dev) : Bool :=
  d.hub.req && d.hub.linkUp && d.busMaster 0 && d.ctl.pwrOk && d.ctl.perstN && !d.flt.live.getLsbD 0

theorem Dev.mayServeResync_iff (d : Dev) : d.mayServeResync = true ↔
    d.hub.req = true ∧ d.hub.linkUp = true ∧ (d.hub.cmd.get 0 0).getLsbD 2 = true ∧ d.ctl.pwrOk = true ∧ d.ctl.perstN = true ∧
      d.flt.live.getLsbD 0 = false := by
  simp [Dev.mayServeResync, Dev.busMaster, and_assoc]

/-- The request taken up: the count is one higher and no request stands. -/
def Dev.takeResync (d : Dev) : Dev := { d with hub := { d.hub with seq := (d.hub.seq + 1) % 65536, req := false } }

/-- A write that ends with an error leaves ERR and raises no vector (R116). -/
theorem Dev.serveResync_failed {d : Dev} (h : d.mayServeResync = true) :
    d.serveResync false = { d with hub := { d.hub with seq := (d.hub.seq + 1) % 65536, req := false, err := true } } := if_pos h

/-- A request served is DONE, with the block in the output before whatever the vector adds (R114). -/
theorem Dev.serveResync_done {d : Dev} (h : d.mayServeResync = true) : ∃ pba l,
    d.serveResync true =
      { d with hub := { d.hub with seq := (d.hub.seq + 1) % 65536, req := false, done := true, pba := pba },
               out := d.out ++ OutEv.host (d.hub.addrLo.toNat + d.hub.addrHi.toNat * 2 ^ 32) d.takeResync.summaryBlock :: l } := by
  have served : d.serveResync true =
      (({ d.takeResync with hub := { d.takeResync.hub with done := true } } : Dev).emit
        (.host (d.hub.addrLo.toNat + d.hub.addrHi.toNat * 2 ^ 32) d.takeResync.summaryBlock)).raiseVector 0 0 := if_pos h
  rw [served, Dev.emit_of_link_zero _ rfl]
  refine (Dev.raiseVector_eq _ 0 0).imp fun pba => Exists.imp fun l hv => hv.trans ?_
  rw [List.append_assoc]
  rfl

/-! ## Owners (R89) -/

theorem Dev.setOwner_not_pf {d : Dev} {who : Requester} (h : who ≠ .pf) (v : Word) : d.setOwner who v = d := by
  simp [Dev.setOwner, isPf, h]

theorem Dev.setOwner_refused {d : Dev} {v : Word} (h : d.ownRefused d.hub.ownKind d.hub.ownIdx (v.toNat % 64) = true) :
    d.setOwner .pf v = { d with hub := { d.hub with ownErr := true } } := if_pos h

theorem Dev.setOwner_set {d : Dev} {v : Word} (h : d.ownRefused d.hub.ownKind d.hub.ownIdx (v.toNat % 64) = false) :
    d.setOwner .pf v =
      { d with hub := { d.hub with owner := d.hub.owner.put 0 (d.hub.ownKind * 8192 + d.hub.ownIdx) (v.toNat % 64) } } :=
  if_neg (Bool.eq_false_iff.mp h)

section Refusal
variable (d : Dev) {kind index fn : Nat}

/-- A function that does not exist owns nothing. -/
theorem Dev.ownRefused_noFunction (kind index : Nat) (h : d.hub.numVfs < fn) : d.ownRefused kind index fn = true := by
  simp [Dev.ownRefused, Dev.fnOn, h]

theorem Dev.ownRefused_channel (fn : Nat) (h : (d.channel index).held = true ∨ 511 < index) : d.ownRefused 0 index fn = true := by
  obtain h | h := h <;> simp [Dev.ownRefused, h]

theorem Dev.ownRefused_port (fn : Nat) (h : 127 < index) : d.ownRefused 2 index fn = true := by
  simp [Dev.ownRefused, h]

/-- A layer is refused for its index or the function alone. -/
theorem Dev.ownRefused_layer (index fn : Nat) : d.ownRefused 3 index fn = (decide (511 < index) || !decide (fn ≤ d.hub.numVfs)) := rfl

end Refusal

/-- Settles O28: a request served is its block, the count and DONE or ERR; an owner is set by the one branch that is not refused. -/
theorem hubRequests : Obligations.HubRequests := by
  unfold Obligations.HubRequests
  intro s who v d h fn
  refine ⟨rfl, fun hw => ⟨?_, ?_⟩, fun hreq hlink hcmd hpwr hperst hwdt => ?_, fun hk hi hf => ?_, fun hr => ?_⟩
  · exact congrArg (ok s) (Dev.resyncReq_not_pf hw)
  · exact congrArg (ok s) (Dev.setOwner_not_pf hw v)
  · have may : d.mayServeResync = true := d.mayServeResync_iff.mpr ⟨hreq, hlink, hcmd, hpwr, hperst, hwdt⟩
    obtain ⟨pba, l, hdone⟩ := Dev.serveResync_done may
    obtain ⟨rest, hblock⟩ := d.takeResync.summaryBlock_start
    refine ⟨⟨_, congrArg (ok s) hdone, ⟨rest, l, ?_⟩, rfl, rfl⟩, congrArg (ok s) (Dev.serveResync_failed may)⟩
    rw [hblock]
    rfl
  · have free : d.ownRefused h.ownKind h.ownIdx fn = false := by
      rw [hk, Dev.ownRefused_layer, decide_eq_false (by omega), decide_eq_true hf]
      rfl
    refine ⟨_, congrArg (ok s) (Dev.setOwner_set free), ?_, fun k hne => ?_, rfl⟩
    · rw [← hk]
      exact Tab.get_put_same ..
    · rw [← hk] at hne
      exact Tab.get_put_other _ _ _ hne
  · have refused : d.ownRefused h.ownKind h.ownIdx fn = true := by
      obtain hf | ⟨hk, hc⟩ | ⟨hk, hi⟩ | ⟨hk, hi⟩ | ⟨hk, hi⟩ := hr
      · exact d.ownRefused_noFunction _ _ hf
      · exact hk ▸ d.ownRefused_channel fn (.inl hc)
      · exact hk ▸ d.ownRefused_channel fn (.inr hi)
      · exact hk ▸ d.ownRefused_port fn hi
      · rw [hk, Dev.ownRefused_layer, decide_eq_true hi, Bool.true_or]
    exact congrArg (ok s) (Dev.setOwner_refused refused)

end Sys2Proof.Machine

/-! WIN, ISSUE and POST (chapter 4): which check decides, and what the instruction does when none traps; then O12, O14 and O17. -/

namespace Sys2Proof.Machine

/-! ## Conditions of an instruction -/

@[simp] theorem firstTrap_cons_true (cause : Nat) (cs : List (Bool × Nat)) : firstTrap ((true, cause) :: cs) = some cause := rfl

@[simp] theorem firstTrap_cons_false (cause : Nat) (cs : List (Bool × Nat)) : firstTrap ((false, cause) :: cs) = firstTrap cs := rfl

@[simp] theorem firstTrap_nil : firstTrap [] = none := rfl

/-- Little-endian bytes spell 0 when they are all 0. -/
theorem leNat_eq_zero_iff (bs : List Byte) : leNat bs = 0 ↔ ∀ b ∈ bs, b = 0 := by
  induction bs with
  | nil => simp [leNat]
  | cons b bs ih =>
    have hb : b.toNat = 0 ↔ b = 0 := BitVec.toNat_inj (y := 0#8)
    simp [leNat, ih, hb]

theorem zeroBytes_iff (bs : List Byte) (off n : Nat) : zeroBytes bs off n = true ↔ fieldLE bs off n = 0 := by
  simp [zeroBytes, fieldLE, leNat_eq_zero_iff]

theorem bitN_eq (v i : Nat) : bitN v i = decide (v / 2 ^ i % 2 = 1) := rfl

@[simp] theorem Dev.window_putThread (d : Dev) (t k : Nat) (x : Thread) : (d.putThread t x).window k = d.window k := rfl

@[simp] theorem Dev.thread_putWindow (d : Dev) (k t : Nat) (w : Window) : (d.putWindow k w).thread t = d.thread t := rfl

/-- A thread and a window put touch their two tables alone. -/
theorem Dev.putWindow_putThread_eq (d : Dev) (t k : Nat) (x : Thread) (w : Window) : (d.putWindow k w).putThread t x =
    { d with thr := ((d.putWindow k w).putThread t x).thr, win := ((d.putWindow k w).putThread t x).win } := rfl

section Instructions
variable {s : State} {c : Fin 128} {rd ra rb : Fin 32} {t : Nat}

/-! ## WIN (R133) -/

/-- The bounds of R133 as a record breaks them. -/
theorem winBad_iff (b : List Byte) : winBad b = true ↔
    63 < byteAt b 0 ∨ 7 < byteAt b 1 ∨ fieldLE b 8 8 % 4096 ≠ 0 ∨ fieldLE b 0x10 8 % 4096 ≠ 0 ∨ 2 ^ 48 < fieldLE b 8 8 + fieldLE b 0x10 8 ∨
      byteAt b 2 / 4 ≠ 0 ∨ fieldLE b 3 5 ≠ 0 ∨ fieldLE b 0x18 8 ≠ 0 := by
  have hp : byteAt b 2 / 4 ≠ 0 ↔ 4 ≤ byteAt b 2 := by omega
  simp [winBad, hp, zeroBytes_iff, ← Bool.not_eq_true, or_assoc]

/-- WIN of a thread that may set windows, on a record that it can read. -/
theorem exec_win (h : s.dev.Runs (.win c rd ra 0) c t 4) (hpriv : (s.dev.thread t).firmware = true ∨ (s.dev.thread t).fn = 0)
    (hin : ((s.dev.thread t).gpr ra).toNat + 32 ≤ (s.dev.thread t).localSize)
    (hecc : s.dev.localBad ((s.dev.thread t).segBase + ((s.dev.thread t).gpr ra).toNat) 32 = false) :
    exec (.win c rd ra 0) s = ok s (s.dev.doWin t (s.dev.thread t) rd (s.dev.localRead (s.dev.thread t) ((s.dev.thread t).gpr ra).toNat 32)) := by
  have hp : (!(s.dev.thread t).firmware && (s.dev.thread t).fn != 0) = false := by
    rcases hpriv with hf | hf <;> simp [hf]
  refine congrArg (ok s) ((Dev.svetu_runs (le_refl 4) h).trans (Dev.orTrap_run ?_))
  simp [hp, hin, hecc, Thread.inLocal]

end Instructions

/-- Settles O12: a record is refused by one of its bounds, or it sets its window. -/
theorem setWindow : Obligations.SetWindow := by
  unfold Obligations.SetWindow
  intro s c rd ra t h x a b fn ix base len hpriv hin hecc
  have run : exec (.win c rd ra 0) s = ok s (s.dev.doWin t x rd b) := exec_win h hpriv hin hecc
  by_cases hbad : winBad b = true
  · have refused : s.dev.doWin t x rd b = s.dev.putThread t ((x.setG rd 4).next 4) := if_pos hbad
    exact completes_ok run ((if_pos ((winBad_iff b).mp hbad)).mpr refused)
  · have sets : s.dev.doWin t x rd b = (s.dev.putWindow (fn * 8 + ix) (winOf b)).putThread t ((x.setG rd 0).next 4) := if_neg hbad
    have hwin : winOf b = if len = 0 then {} else { base := base, len := len, r := decide (byteAt b 2 % 2 = 1), w := decide (byteAt b 2 / 2 % 2 = 1) } := by
      simp [winOf, bitN_eq, base, len]
    refine completes_ok (run.trans (congrArg (ok s) sets)) ?_
    rw [if_neg ((winBad_iff b).not.mp hbad), ← hwin]
    refine ⟨Dev.thread_putThread _ _ _, ?_, fun k hk => ?_, fun k hk => ?_, Dev.putWindow_putThread_eq _ _ _ _ _⟩
    · rw [Dev.window_putThread, Dev.window_putWindow]
    · rw [Dev.window_putThread, Dev.window_putWindow_other _ _ hk]
    · rw [Dev.thread_putThread_other _ _ hk, Dev.thread_putWindow]

section Instructions
variable {s : State} {c : Fin 128} {rd ra rb : Fin 32} {t : Nat}

/-! ## ISSUE (R154) -/

/-- ISSUE traps with the first check that fails. -/
theorem exec_issue_trap {imm : BitVec 8} {cause : Nat} (h : s.dev.Runs (.issue c rd ra 0 imm) c t 4)
    (hc : firstTrap ((decide (2 ≤ imm.toNat), cIllegal) :: s.dev.issueTraps t (s.dev.thread t) ((s.dev.thread t).gpr ra).toNat) = some cause) :
    exec (.issue c rd ra 0 imm) s = .next { s with dev := s.dev.trap t cause 0 } :=
  congrArg (ok s) ((Dev.svetu_runs (le_refl 4) h).trans (Dev.orTrap_trap hc))

/-- Step 2 of R154: the length that the header gives, and the bytes that it spans. -/
theorem issue_length_iff (x : Thread) (a n : Nat) : (!x.inLocal a 4 || n % 32 != 0 || decide (n < 32) || decide (4096 < n) || !x.inLocal a n) = true ↔
    n % 32 ≠ 0 ∨ n < 32 ∨ 4096 < n ∨ x.localSize < a + n := by
  simp only [Thread.inLocal, Bool.or_eq_true, Bool.not_eq_true', decide_eq_false_iff_not, decide_eq_true_eq, bne_iff_ne]
  omega

section Checks
variable {d : Dev} {t : Nat} {x : Thread} {a : Nat}

theorem Dev.issueTraps_misaligned (h : a % 32 ≠ 0) : firstTrap (d.issueTraps t x a) = some cAlign := by
  simp only [Dev.issueTraps, bne_iff_ne.mpr h, firstTrap_cons_true]

theorem Dev.issueTraps_length (ha : a % 32 = 0)
    (h : d.descLen x a % 32 ≠ 0 ∨ d.descLen x a < 32 ∨ 4096 < d.descLen x a ∨ x.localSize < a + d.descLen x a) :
    firstTrap (d.issueTraps t x a) = some cBounds := by
  simp only [Dev.issueTraps, ha, bne_self_eq_false, (issue_length_iff x a _).mpr h, firstTrap_cons_false, firstTrap_cons_true]

/-- With the header's place and length in order, the other four checks decide. -/
theorem Dev.issueTraps_header (ha : a % 32 = 0)
    (h : ¬(d.descLen x a % 32 ≠ 0 ∨ d.descLen x a < 32 ∨ 4096 < d.descLen x a ∨ x.localSize < a + d.descLen x a)) :
    firstTrap (d.issueTraps t x a) = firstTrap
      [ ((d.descAt t x a).statusAddr % 16 != 0, cAlign), (!d.statusOk x (d.descAt t x a), cBounds), (!d.notifyOk x (d.descAt t x a), cOwner),
        (d.localBad (x.segBase + a) (d.descLen x a), cEcc) ] := by
  simp only [Dev.issueTraps, ha, bne_self_eq_false, Bool.eq_false_iff.mpr ((issue_length_iff x a _).not.mpr h), firstTrap_cons_false]

theorem Dev.not_statusOk_iff (y : Desc) : (!d.statusOk x y) = true ↔ y.statusAddr ≠ 0 ∧ d.deviceOk x y.statusAddr 16 false true = false := by
  simp [Dev.statusOk]

theorem Dev.not_notifyOk_iff (y : Desc) :
    (!d.notifyOk x y) = true ↔ y.notify ≠ 0xFFFF ∧ ((d.thread y.notify).live = false ∨ (d.thread y.notify).fn ≠ x.fn) := by
  simp only [Dev.notifyOk, Bool.not_eq_true', Bool.or_eq_false_iff, Bool.and_eq_false_iff, beq_eq_false_iff_ne]

end Checks

end Instructions

/-- Settles O14: the checks one after another, each with those before it passed; a double-bit error is looked for last (log entry 28). -/
theorem issueChecks : Obligations.IssueChecks := by
  unfold Obligations.IssueChecks
  intro s c rd ra imm t h d x a n b status notify trapped
  have legal {cause : Nat} (hi : imm.toNat < 2) (hc : firstTrap (d.issueTraps t x a) = some cause) : trapped cause := by
    refine exec_issue_trap h ?_
    rw [decide_eq_false (by omega), firstTrap_cons_false]
    exact hc
  refine ⟨fun hi => ?_, fun hi ha => legal hi (Dev.issueTraps_misaligned ha), fun hi ha hn => legal hi (Dev.issueTraps_length ha hn), ?_⟩
  · refine exec_issue_trap h ?_
    rw [decide_eq_true hi]
    rfl
  · intro hi ha h32 hmin hmax hin
    have fits : ¬(n % 32 ≠ 0 ∨ n < 32 ∨ 4096 < n ∨ x.localSize < a + n) := by omega
    have header {cause : Nat} (hc : firstTrap [(status % 16 != 0, cAlign), (!d.statusOk x (d.descAt t x a), cBounds), (!d.notifyOk x (d.descAt t x a), cOwner),
        (d.localBad (x.segBase + a) n, cEcc)] = some cause) : trapped cause := legal hi ((Dev.issueTraps_header ha fits).trans hc)
    have hstatus := Dev.not_statusOk_iff (d := d) (x := x) (d.descAt t x a)
    have hnotify := Dev.not_notifyOk_iff (d := d) (x := x) (d.descAt t x a)
    by_cases h1 : status % 16 ≠ 0
    · rw [if_pos h1]
      exact header (by rw [bne_iff_ne.mpr h1]; rfl)
    have aligned : (status % 16 != 0) = false := bne_eq_false_iff_eq.mpr (not_not.mp h1)
    by_cases h2 : status ≠ 0 ∧ d.deviceOk x status 16 false true = false
    · rw [if_neg h1, if_pos h2]
      exact header (by rw [aligned, hstatus.mpr h2]; rfl)
    have writable := Bool.eq_false_iff.mpr (hstatus.not.mpr h2)
    by_cases h3 : notify ≠ 0xFFFF ∧ ((d.thread notify).live = false ∨ (d.thread notify).fn ≠ x.fn)
    · rw [if_neg h1, if_neg h2, if_pos h3]
      exact header (by rw [aligned, writable, hnotify.mpr h3]; rfl)
    have own := Bool.eq_false_iff.mpr (hnotify.not.mpr h3)
    rw [if_neg h1, if_neg h2, if_neg h3]
    exact fun hbad => header (by rw [aligned, writable, own, hbad]; rfl)

section Instructions
variable {s : State} {c : Fin 128} {rd ra rb : Fin 32} {t : Nat}

/-! ## POST (R149, R177, R178) -/

/-- POST is the check of the owner, and then an answer that says whether the target exists. -/
theorem exec_post (h : s.dev.Runs (.post c rd ra rb 0) c t 4) : exec (.post c rd ra rb 0) s =
    let x := s.dev.thread t
    let u := (x.gpr ra).toNat % 4096
    ok s (s.dev.orTrap t [(!x.firmware && (s.dev.thread u).live && (s.dev.thread u).fn != x.fn, cOwner)]
      (if (s.dev.thread u).live then s.dev.doPost t x rd u ((x.gpr rb).setWidth 32) else s.dev.putThread t ((x.setG rd 1).next 4))) :=
  congrArg (ok s) (Dev.svetu_runs (le_refl 4) h)

end Instructions

section Post
variable {d : Dev} {t u : Nat} {x y : Thread}

/-- A register write changes the registers alone. -/
theorem Thread.setG_eq (x : Thread) (r : Nat) (v : DWord) : ∃ g, x.setG r v = { x with g := g } := by
  unfold Thread.setG
  split
  · exact ⟨x.g, rfl⟩
  · exact ⟨_, rfl⟩

/-- What a post looks at of its target, its home and its start, stays where a thread keeps them. -/
theorem Dev.place_putThread (hy : y.home = (d.thread t).home ∧ y.inc = (d.thread t).inc) (u : Nat) :
    ((d.putThread t y).thread u).home = (d.thread u).home ∧ ((d.putThread t y).thread u).inc = (d.thread u).inc := by
  by_cases h : u = t
  · subst h
    rwa [Dev.thread_putThread]
  · rw [Dev.thread_putThread_other _ _ h]
    exact ⟨rfl, rfl⟩

/-- A post queue with a post to `u`: it joins the entry that stands for `u`, or it is an entry behind the others (R177). -/
def joinPost (q : List (Nat × Word)) (u : Nat) (mask : Word) : List (Nat × Word) :=
  if q.any (·.1 == u) then q.map fun p => if p.1 == u then (u, p.2 ||| mask) else p else q ++ [(u, mask)]

/-- POST with room in the queue: the thread goes on with 0 in rd. -/
theorem Dev.doPost_room (rd : Nat) (mask : Word) (h : d.postRoom u = true) : d.doPost t (d.thread t) rd u mask =
    (d.putThread t (((d.thread t).setG rd 0).next 4)).putPostQueue (d.thread u).home (joinPost (d.postQueue (d.thread u).home) u mask) := by
  obtain ⟨g, hg⟩ := (d.thread t).setG_eq rd 0
  have posted : d.doPost t (d.thread t) rd u mask = (d.putThread t (((d.thread t).setG rd 0).next 4)).enqueuePost u mask := if_pos h
  obtain ⟨home, -⟩ := Dev.place_putThread (d := d) (t := t) (y := ((d.thread t).setG rd 0).next 4) (by rw [hg]; exact ⟨rfl, rfl⟩) u
  rw [posted, ← home]
  rfl

/-- The thread is held with a post that found no room (R178). -/
def Thread.heldInPost (y : Thread) : Thread := { y with st := .held, hold := .post, core := none }

/-- POST with no room: the thread leaves its core and is held with its post (R178). -/
theorem Dev.doPost_held (rd : Nat) (mask : Word) (h : d.postRoom u = false) : d.doPost t (d.thread t) rd u mask =
    { d.putThread t (((d.thread t).setG rd 0).next 4).heldInPost with
      dsp := { d.dsp with heldPosts := d.dsp.heldPosts ++
        [{ poster := .thread t, target := u, inc := (d.thread u).inc, core := (d.thread u).home, mask := mask, since := d.ctl.ticks }] } } := by
  obtain ⟨g, hg⟩ := (d.thread t).setG_eq rd 0
  have held : d.doPost t (d.thread t) rd u mask =
      (d.putThread t (((d.thread t).setG rd 0).next 4).heldInPost).holdPost (.thread t) u mask :=
    if_neg (Bool.eq_false_iff.mp h)
  obtain ⟨home, inc⟩ := Dev.place_putThread (d := d) (t := t) (y := (((d.thread t).setG rd 0).next 4).heldInPost)
    (by rw [hg]; exact ⟨rfl, rfl⟩) u
  rw [held, ← home, ← inc]
  rfl

end Post

/-- Settles O17: an absent target answers 1, a foreign one traps, and the queue's room decides the rest. -/
theorem postToThread : Obligations.PostToThread := by
  unfold Obligations.PostToThread
  intro s c rd ra rb t h d x u mask home
  have allowed (hlive : (d.thread u).live = true) (hown : x.firmware = true ∨ (d.thread u).fn = x.fn) :
      exec (.post c rd ra rb 0) s = ok s (d.doPost t x rd u mask) := by
    have owner : (!x.firmware && (d.thread u).live && (d.thread u).fn != x.fn) = false := by
      rcases hown with hf | hf <;> simp [hf]
    refine (exec_post h).trans (congrArg (ok s) ((Dev.orTrap_run (by rw [owner]; rfl)).trans ((if_pos hlive).trans ?_)))
    rw [← BitVec.ofNat_toNat]
  refine ⟨fun hlive => ?_, fun hlive hfw hfn => ?_, fun hlive hown hroom => ?_, fun hlive hown hroom => ?_⟩
  · have absent : (!x.firmware && (d.thread u).live && (d.thread u).fn != x.fn) = false := by simp [hlive]
    exact (exec_post h).trans (congrArg (ok s) ((Dev.orTrap_run (by rw [absent]; rfl)).trans (if_neg (Bool.eq_false_iff.mp hlive))))
  · have foreign : (!x.firmware && (d.thread u).live && (d.thread u).fn != x.fn) = true := by simp [hlive, hfw, hfn]
    exact (exec_post h).trans (congrArg (ok s) (Dev.orTrap_trap (by rw [foreign]; rfl)))
  · refine completes_ok ((allowed hlive hown).trans (congrArg (ok s) (Dev.doPost_room rd mask hroom))) ?_
    refine ⟨Dev.thread_putThread _ _ _, fun k hk => Dev.thread_putThread_other d _ hk, fun k hk => Tab.get_put_other _ _ _ hk, Tab.get_put_same _ _ _ _, rfl⟩
  · exact completes_ok ((allowed hlive hown).trans (congrArg (ok s) (Dev.doPost_held rd mask hroom))) ⟨Dev.thread_putThread d t (Thread.heldInPost _), rfl, rfl⟩

end Sys2Proof.Machine

/-! The start of a program (chapters 3 to 5): a program's thread wherever the dispatcher moves it, the load of its image, then O27. -/

namespace Sys2Proof.Machine

/-! ## A program's thread while threads change cores and slots (R180 to R185) -/

/-- `y` is thread `x`, READY or running, with its registers, flags and parameters; its core, its slot and its place in an order are its own. -/
structure Thread.SameProgram (x y : Thread) : Prop where
  gpr : ∀ k, y.gpr k = x.gpr k
  pc : y.pc = x.pc
  wt : y.wt = x.wt
  cas : y.cas = x.cas
  flags : y.flags = x.flags
  fn : y.fn = x.fn
  firmware : y.firmware = x.firmware
  prio : y.prio = x.prio
  tileB : y.tileB = x.tileB
  affinity : y.affinity = x.affinity
  origin : y.origin = x.origin
  hold : y.hold = .nothing
  alive : y.st = .ready ∨ y.st = .running

/-- Thread `t` is thread `x`, in its own record and wherever its registers stand. -/
structure Dev.Stands (d : Dev) (t : Nat) (x : Thread) : Prop where
  record : x.SameProgram (d.thread t)
  regs : RegsEq x (d.withRegs t)

theorem fromImage_gpr_high (x : Thread) (b : List Byte) {k : Nat} (h : 32 ≤ k) : (x.fromImage b).gpr k = x.gpr k := by
  unfold Thread.fromImage
  rw [foldl_setG_gpr _ _ _ _ List.nodup_range, if_neg (by simp; omega)]
  rfl

section Moves
variable {d e : Dev} {x : Thread} {t u v c : Nat}

/-- A program read back from where its registers stand is itself. -/
theorem Dev.Stands.withRegs (h : d.Stands t x) (hpc : x.pc.toNat % 4 = 0) : x.SameProgram (d.withRegs t) := by
  obtain ⟨hr, hregs⟩ := h
  obtain ⟨gpr, pc, wt, cas⟩ := hregs
  have high {k : Nat} (hk : 32 ≤ k) : (d.withRegs t).gpr k = x.gpr k := by
    unfold Dev.withRegs
    split
    · rw [fromImage_gpr_high _ _ hk, hr.gpr]
    · exact hr.gpr k
  obtain ⟨g, p, w, s, hy⟩ : ∃ g pc wt cas, d.withRegs t = { d.thread t with g := g, pc := pc, wt := wt, cas := cas } := by
    unfold Dev.withRegs
    split
    · exact fromImage_frame _ _
    · exact ⟨_, _, _, _, rfl⟩
  have all (k : Nat) : (d.withRegs t).gpr k = x.gpr k := (lt_or_ge k 32).elim (gpr k) high
  rw [hy] at all pc wt cas ⊢
  exact { hr with gpr := all, pc := pc hpc, wt := wt, cas := cas }

/-- What changes no thread's registers and keeps the program's record keeps the program. -/
theorem Dev.Stands.keeps (h : d.Stands t x) (hk : Keeps d e) (hr : x.SameProgram (e.thread t)) : e.Stands t x :=
  ⟨hr, h.regs.trans (Dev.sameRegs_iff.mp hk.1 t).1⟩

theorem Dev.Stands.spill (h : d.Stands t x) (hs : (d.thread v).slot.isSome = true) (hf : (d.thread v).firmware = false) : (d.spill v).Stands t x := by
  refine h.keeps (spill_keeps d v hs hf) ?_
  rw [spill_thread]
  split
  · next ht => subst ht; exact { h.record with }
  · exact h.record

theorem Dev.Stands.makeRoom (h : d.Stands t x) (c : Nat) : (d.makeRoom c).Stands t x := by
  unfold Dev.makeRoom
  split
  · exact h
  · split
    · next v hv =>
      obtain ⟨hs, hf⟩ := residents_slot (List.mem_filter.mp (firstBest_mem hv)).1
      exact h.spill hs hf
    · exact h

theorem Dev.Stands.takeSlot (h : d.Stands t x) (hpc : x.pc.toNat % 4 = 0) (u c : Nat) : (d.takeSlot u c).Stands t x := by
  refine h.keeps (takeSlot_keeps d u c) ?_
  unfold Dev.takeSlot
  split
  · unfold Dev.restore
    by_cases ht : t = u
    · subst ht
      rw [Dev.thread_putThread]
      exact { h.withRegs hpc with }
    · rw [Dev.thread_putThread_other _ _ ht]
      exact h.record
  · exact h.record

theorem Dev.Stands.makeResident (h : d.Stands t x) (hpc : x.pc.toNat % 4 = 0) (u c : Nat) : (d.makeResident u c).Stands t x := by
  by_cases hf : (d.thread u).firmware = true
  · refine h.keeps (makeResident_keeps d u c) ?_
    have moved : d.makeResident u c = d.putThread u { d.thread u with home := c } := if_pos hf
    rw [moved]
    by_cases ht : t = u
    · subst ht
      rw [Dev.thread_putThread]
      exact { h.record with }
    · rw [Dev.thread_putThread_other _ _ ht]
      exact h.record
  · unfold Dev.makeResident
    dsimp only
    rw [if_neg hf]
    split
    · exact h
    · refine Dev.Stands.takeSlot (Dev.Stands.makeRoom ?_ c) hpc u c
      split
      · next hs => exact h.spill hs (Bool.eq_false_iff.mpr hf)
      · exact h

theorem Dev.Stands.runOn (h : d.Stands t x) (hpc : x.pc.toNat % 4 = 0) (hl : (d.thread u).live = true) (c : Nat) : (d.runOn u c).Stands t x := by
  have hm := (h.makeResident hpc u c).record
  refine h.keeps (runOn_keeps d u c hl) ?_
  unfold Dev.runOn
  rw [thread_modThread]
  split
  · next ht => subst ht; exact { hm with alive := .inr rfl }
  · exact hm

theorem Dev.Stands.toHead (h : d.Stands t x) (hl : (d.thread u).live = true) : (d.toHead u).Stands t x := by
  refine h.keeps (toHead_keeps d u hl) ?_
  unfold Dev.toHead
  rw [thread_modThread]
  split
  · next ht => subst ht; exact { h.record with hold := rfl, alive := .inl rfl }
  · exact h.record

theorem Dev.Stands.toTail (h : d.Stands t x) (hl : (d.thread u).live = true) : (d.toTail u).Stands t x := by
  refine h.keeps (toTail_keeps d u hl) ?_
  unfold Dev.toTail
  rw [thread_modThread]
  split
  · next ht => subst ht; exact { h.record with hold := rfl, alive := .inl rfl }
  · exact h.record

/-- A chain of preemptions leaves every READY or running program itself. -/
theorem Dev.Stands.preempt (hpc : x.pc.toNat % 4 = 0) (n : Nat) : ∀ {d : Dev} {u : Nat}, d.Stands t x → (d.thread u).live = true →
    (Dev.preempt n d u).Stands t x := by
  induction n with
  | zero => exact fun h _ => h
  | succ n ih =>
    intro d u h hl
    unfold Dev.preempt
    split
    · next c v hv =>
      have lv := victim_live hv
      have head := toHead_keeps d v lv
      have run := runOn_keeps (d.toHead v) u c (by rw [head.2, hl])
      exact ih ((h.toHead lv).runOn hpc (by rw [head.2, hl]) c) (by rw [run.2, head.2, lv])
    · exact h

theorem Dev.Stands.makeReady (h : d.Stands t x) (hpc : x.pc.toNat % 4 = 0) (hl : (d.thread u).live = true) : (d.makeReady u).Stands t x :=
  (h.toTail hl).preempt hpc 64 (by rw [(toTail_keeps d u hl).2, hl])

end Moves

/-! ## The image (R129) -/

/-- Leaving entries out by their keys leaves what the other keys read as. -/
theorem Tab.get_filter_key {α : Type} (z : α) (q : Nat → Bool) (m : Tab α) (j : Nat) :
    Tab.get z (m.filter fun p => q p.1) j = if q j then Tab.get z m j else z := by
  induction m with
  | nil => simp [Tab.get]
  | cons p m ih =>
    by_cases hj : p.1 = j
    · subst hj
      cases hq : q p.1 <;> simp [Tab.get, hq, ih]
    · cases hq : q p.1 <;> simp [Tab.get, hq, hj, ih]

@[simp] theorem fit_length (n : Nat) (bs : List Byte) : (fit n bs).length = n := by
  simp [fit, zeros]

theorem fit_getD (n : Nat) (bs : List Byte) (i : Nat) : (fit n bs).getD i 0 = if i < n then bs.getD i 0 else 0 := by
  unfold fit zeros
  split
  · next hi =>
    rw [List.getD_eq_getElem?_getD, List.getElem?_take_of_lt hi, List.getD_eq_getElem?_getD]
    rcases lt_or_ge i bs.length with h | h
    · rw [List.getElem?_append_left h]
    · rw [List.getElem?_append_right h, List.getElem?_eq_none h, List.getElem?_replicate]
      split <;> rfl
  · next hi =>
    rw [List.getD_eq_getElem?_getD, List.getElem?_eq_none (by simp; omega)]
    rfl

section Image
variable (m : Tab Byte) (base : Nat) {image : List Byte}

/-- The segment holds the image, followed by zeros. -/
theorem loadImage_inside {i : Nat} (hi : i < 65536) : Tab.get 0 (loadImage m base image) (base + i) = image.getD i 0 := by
  unfold loadImage
  rcases lt_or_ge i image.length with h | h
  · rw [writeBytes_inside _ _ _ _ h, List.getD_eq_getElem _ _ h]
  · rw [writeBytes_other _ _ _ _ (by omega), Tab.get_filter_key 0 (fun k => !(base ≤ k && k < base + 65536)), List.getD_eq_default _ _ h]
    exact if_neg (by simp; omega)

theorem loadImage_outside (hl : image.length ≤ 65536) {j : Nat} (hj : j < base ∨ base + 65536 ≤ j) : Tab.get 0 (loadImage m base image) j = Tab.get 0 m j := by
  unfold loadImage
  rw [writeBytes_other _ _ _ _ (by omega), Tab.get_filter_key 0 (fun k => !(base ≤ k && k < base + 65536))]
  exact if_pos (by simp; omega)

end Image

/-! ## The thread that starts (R98, R126) -/

theorem newThread_eq (fn sq inc : Nat) (b : List Byte) : ∃ g, newThread fn sq inc b =
    { st := .ready, inc := inc, fn := fn, prio := byteAt b 1, tileB := bitN (fieldLE b 2 2) 0, affinity := BitVec.ofNat 64 (fieldLE b 0x18 8),
      pc := BitVec.ofNat 64 (fieldLE b 0x14 4), origin := some (fn, fieldLE b 4 4, sq), g := g } := by
  obtain ⟨g, hg⟩ := foldl_setG (fun r => BitVec.ofNat 64 (fieldLE b (0x20 + 8 * (r - 1)) 8)) ((List.range 4).map (· + 1))
    { st := .ready, inc := inc, fn := fn, prio := byteAt b 1, tileB := bitN (fieldLE b 2 2) 0, affinity := BitVec.ofNat 64 (fieldLE b 0x18 8),
      pc := BitVec.ofNat 64 (fieldLE b 0x14 4), origin := some (fn, fieldLE b 4 4, sq) }
  exact ⟨g, hg⟩

/-- g1 to g4 hold ARGS, every other register is 0 (R126). -/
theorem newThread_gpr (fn sq inc : Nat) (b : List Byte) (k : Nat) : (newThread fn sq inc b).gpr k =
    if 1 ≤ k ∧ k ≤ 4 then BitVec.ofNat 64 (fieldLE b (0x20 + 8 * (k - 1)) 8) else 0 := by
  refine (foldl_setG_gpr (fun r => BitVec.ofNat 64 (fieldLE b (0x20 + 8 * (r - 1)) 8)) ((List.range 4).map (· + 1)) _ k (by decide)).trans ?_
  have hk : k ∈ (List.range 4).map (· + 1) ∧ k ≠ 0 ↔ 1 ≤ k ∧ k ≤ 4 := by
    simp only [List.mem_map, List.mem_range]
    exact ⟨fun ⟨⟨a, ha, he⟩, _⟩ => by omega, fun h => ⟨⟨k - 1, by omega, by omega⟩, by omega⟩⟩
  simp only [hk]
  exact if_congr Iff.rfl rfl (ite_self 0)

/-- ENTRY of an accepted entry is a multiple of 4, and the image fits its segment (R97). -/
theorem badProgram_bounds {b : List Byte} (h : badProgram b = false) : fieldLE b 0x14 4 % 4 = 0 ∧ fieldLE b 0x10 4 ≤ 65536 := by
  simp only [badProgram, Bool.or_eq_false_iff, decide_eq_false_iff_not, bne_eq_false_iff_eq] at h
  omega

section Load
variable {d : Dev} {x : Thread} {c k : Nat}

/-- The thread as it is placed on a core, in a slot or none. -/
def Thread.placed (x : Thread) (c : Nat) (slot : Option Nat) (age : Nat) : Thread := { x with home := c, slot := slot, resAge := age }

/-- The device with an image in the segment at `base`, whose errors are gone (R136). -/
def Dev.segLoaded (d : Dev) (base : Nat) (image : List Byte) : Dev :=
  { d with loc := loadImage d.loc base image, dsp := { d.dsp with age := d.dsp.age + 1 },
           locErr := d.locErr.filter (fun w => !(base ≤ w * 8 && w * 8 < base + 65536)) }

/-- The device with an image in the record of thread `t` in the spill area. -/
def Dev.recordLoaded (d : Dev) (t : Nat) (image : List Byte) : Dev :=
  { d with mem := if d.memEra = 0 then loadImage d.mem (d.spillBase + t * spillRecord) image else d.memPut (d.spillBase + t * spillRecord) (fit 65536 image),
           poison := clearPoison d.poison (d.spillBase + t * spillRecord) 65536, dsp := { d.dsp with age := d.dsp.age + 1 },
           spillErr := d.spillErr.filter fun w => w.1 != t }

theorem Dev.loadThread_slot (t : Nat) (image : List Byte) (h : d.placeFor x = (c, some k)) :
    d.loadThread t x image = (d.segLoaded (x.placed c (some k) d.dsp.age).segBase image).putThread t (x.placed c (some k) d.dsp.age) := by
  unfold Dev.loadThread
  rw [h]
  rfl

/-- An image that finds no slot takes the thread's registers with it (R672). -/
theorem Dev.loadThread_spilled (t : Nat) (image : List Byte) (h : d.placeFor x = (c, none)) :
    d.loadThread t x image = ((d.recordLoaded t image).putThread t (x.placed c none d.dsp.age)).spillRegs t := by
  unfold Dev.loadThread
  rw [h]
  rfl

/-- The loaded thread is the entry's, and its record in the spill area, where it has one, holds its registers. -/
theorem Dev.loadThread_stands (d : Dev) (t : Nat) (image : List Byte) (hx : x.SameProgram x) (hf : x.firmware = false) :
    (d.loadThread t x image).Stands t x := by
  rcases h : d.placeFor x with ⟨c, _ | k⟩
  · have spilled : (x.placed c none d.dsp.age).spilled = true := by
      rcases hx.alive with hs | hs <;> simp [Thread.spilled, Thread.placed, Thread.live, hf, hs]
    rw [Dev.loadThread_spilled t image h]
    refine ⟨?_, spillRegs_withRegs _ t _ spilled⟩
    rw [spillRegs_thread, Dev.thread_putThread]
    exact { hx with }
  · have record := Dev.thread_putThread (d.segLoaded (x.placed c (some k) d.dsp.age).segBase image) t (x.placed c (some k) d.dsp.age)
    have resident : (x.placed c (some k) d.dsp.age).spilled = false := by simp [Thread.spilled, Thread.placed]
    rw [Dev.loadThread_slot t image h]
    constructor
    · rw [record]
      exact { hx with }
    · unfold Dev.withRegs
      rw [record, resident]
      exact RegsEq.rfl

theorem Dev.loadThread_frame (d : Dev) (t : Nat) (image : List Byte) : (d.loadThread t x image).rings = d.rings ∧ (d.loadThread t x image).out = d.out := by
  rcases h : d.placeFor x with ⟨c, _ | k⟩
  · rw [Dev.loadThread_spilled t image h]
    exact ⟨rfl, rfl⟩
  · rw [Dev.loadThread_slot t image h]
    exact ⟨rfl, rfl⟩

end Load

/-! ## Where a program starts (R167, R169, R672) -/

theorem Tab.mem_put {α : Type} [DecidableEq α] {z v : α} {m : Tab α} {k : Nat} {p : Nat × α} (h : p ∈ Tab.put z m k v) : p = (k, v) ∨ p ∈ m := by
  unfold Tab.put at h
  split at h
  · exact .inr (Tab.mem_erase h)
  · exact (Tab.mem_insert h).imp_right Tab.mem_erase

section Start
variable {d : Dev} {x : Thread} {c t : Nat}

/-- An idle core stays idle beside a thread that does not run there. -/
theorem Dev.coreBusy_putThread (h : d.coreBusy c = false) (hx : x.core ≠ some c) : (d.putThread t x).coreBusy c = false := by
  unfold Dev.coreBusy at h ⊢
  rw [List.any_eq_false] at h ⊢
  intro p hp
  rcases Tab.mem_put hp with rfl | hp
  · simpa using hx
  · exact h p hp

theorem Thread.allows_lt (h : x.allows c = true) : c < 128 := by
  unfold Thread.allows at h
  split at h <;> simp at h <;> omega

/-- The lowest core of the thread's set, if it is idle and has a free slot, takes the image (R672). -/
theorem Dev.placeFor_lowest {k : Nat} (hc : x.allows c = true) (hlow : ∀ j, j < c → x.allows j = false) (hidle : d.coreBusy c = false)
    (hslot : d.freeSlot c = some k) : d.placeFor x = (c, some k) := by
  have first : ((x.cores.filter fun c => (d.freeSlot c).isSome).filter fun c => !d.coreBusy c).head? = some c := by
    unfold Thread.cores
    rw [List.filter_filter, List.filter_filter, List.head?_filter, List.find?_range_eq_some]
    exact ⟨by simp [hc, hidle, hslot], List.mem_range.mpr (Thread.allows_lt hc), fun j hj => by simp [hlow j hj]⟩
  unfold Dev.placeFor
  dsimp only
  rw [first]
  simp [hslot]

/-- The lowest free thread for programs (R167). -/
theorem Dev.freeProgram_lowest (hlo : 256 ≤ t) (hhi : t < 4096) (hfree : (d.thread t).st = .free) (hlow : ∀ k, 256 ≤ k → k < t → (d.thread k).st ≠ .free) :
    d.freeProgram = some t := by
  unfold Dev.freeProgram
  rw [List.find?_map, Option.map_eq_some_iff]
  refine ⟨t - 256, ?_, by omega⟩
  rw [List.find?_range_eq_some]
  refine ⟨?_, List.mem_range.mpr (by omega), fun j hj => ?_⟩
  · simp [Nat.sub_add_cancel hlo, hfree]
  · simpa using hlow (j + 256) (by omega) (by omega)

/-- A thread with an idle core in its set preempts nobody (R180). -/
theorem Dev.victim_none (hc : (d.thread t).allows c = true) (hidle : d.coreBusy c = false) : d.victim t = none := by
  refine if_pos (List.any_eq_true.mpr ⟨c, ?_, by simp [hidle]⟩)
  exact List.mem_filter.mpr ⟨List.mem_range.mpr (Thread.allows_lt hc), hc⟩

theorem Dev.preempt_none (h : d.victim t = none) : ∀ n, Dev.preempt n d t = d
  | 0 => rfl
  | n + 1 => by rw [Dev.preempt, h]

/-- The thread is READY at place `n` of its priority's order. -/
def Thread.readied (x : Thread) (n : Int) : Thread := { x with st := .ready, core := none, hold := .nothing, ready := n }

/-- One more thread has joined the tail of an order. -/
def Dev.tailGrown (d : Dev) : Dev := { d with dsp := { d.dsp with tail := d.dsp.tail + 1 } }

/-- A thread put back that becomes READY. -/
theorem Dev.toTail_putThread (d : Dev) (t : Nat) (x : Thread) : (d.putThread t x).toTail t = d.tailGrown.putThread t (x.readied (d.dsp.tail + 1)) := by
  have toTail_eq (e : Dev) : e.toTail t = e.tailGrown.putThread t ((e.thread t).readied (e.dsp.tail + 1)) := rfl
  rw [toTail_eq, Dev.thread_putThread]
  exact Dev.putThread_putThread d.tailGrown t x _

/-- A thread that becomes READY with an idle core in its set waits for that core's dispatch (R180). -/
theorem Dev.makeReady_idle (hc : (d.thread t).allows c = true) (hidle : d.coreBusy c = false) : d.makeReady t = d.toTail t := by
  have ready : (d.toTail t).thread t = (d.thread t).readied (d.dsp.tail + 1) := Dev.thread_putThread _ _ _
  refine Dev.preempt_none (Dev.victim_none (c := c) ?_ ?_) 64
  · rw [ready]
    exact hc
  · exact Dev.coreBusy_putThread (d := d.tailGrown) hidle (by simp)

/-- The device with the image read from host memory and the entry at the head of its ring taken (R98). -/
def Dev.entryTaken (d : Dev) (fn : Nat) (b : List Byte) : Dev :=
  { d with dsp := { d.dsp with starts := d.dsp.starts + 1 }, out := d.out ++ [.hostRead (fieldLE b 8 8) (fieldLE b 0x10 4)],
           rings := d.rings.put {} fn { d.ring fn with wait := .nothing, sqHead := (d.ring fn).sqHead + 1 } }

/-- The thread that the entry at the head of a ring starts. -/
def Dev.entryThread (d : Dev) (fn : Nat) (b : List Byte) : Thread := newThread fn (d.ring fn).sqHead.toNat (d.dsp.starts + 1) b

/-- A program starts: its entry is taken, its image is loaded and its thread becomes READY. -/
theorem Dev.startProgram_run {fn : Nat} {b : List Byte} (image : List Byte) (hw : (d.ring fn).wait = .program b) (ht : d.freeProgram = some t)
    (hm : d.mayFetch fn = true) : d.startProgram fn image =
      ((d.entryTaken fn b).loadThread t (d.entryThread fn b) (fit (fieldLE b 0x10 4) image)).makeReady t := by
  unfold Dev.startProgram
  rw [hw, ht]
  refine (if_pos hm).trans ?_
  unfold Dev.readImage
  rw [Dev.emit_of_link_zero _ rfl]
  rfl

/-- The entry's thread is READY with nothing that holds it. -/
theorem Dev.entryThread_self (d : Dev) (fn : Nat) (b : List Byte) : (d.entryThread fn b).SameProgram (d.entryThread fn b) := by
  obtain ⟨g, hx⟩ := newThread_eq fn (d.ring fn).sqHead.toNat (d.dsp.starts + 1) b
  exact { gpr := fun _ => rfl, pc := rfl, wt := rfl, cas := rfl, flags := rfl, fn := rfl, firmware := rfl, prio := rfl, tileB := rfl, affinity := rfl,
          origin := rfl, hold := by rw [Dev.entryThread, hx], alive := .inl (by rw [Dev.entryThread, hx]) }

/-- A started program is its entry's thread (R126), whichever core and slot it has taken by then. -/
theorem Dev.startProgram_thread {fn : Nat} {b : List Byte} (image : List Byte) (hw : (d.ring fn).wait = .program b) (ht : d.freeProgram = some t)
    (hm : d.mayFetch fn = true) (hb : badProgram b = false) : (d.entryThread fn b).SameProgram ((d.startProgram fn image).thread t) := by
  obtain ⟨hentry, -⟩ := badProgram_bounds hb
  obtain ⟨g, hx⟩ := newThread_eq fn (d.ring fn).sqHead.toNat (d.dsp.starts + 1) b
  have hpc : (d.entryThread fn b).pc.toNat % 4 = 0 := by
    rw [Dev.entryThread, hx, BitVec.toNat_ofNat]
    omega
  have loaded := Dev.loadThread_stands (d.entryTaken fn b) t (fit (fieldLE b 0x10 4) image) (d.entryThread_self fn b) (by rw [Dev.entryThread, hx])
  have live : (((d.entryTaken fn b).loadThread t (d.entryThread fn b) (fit (fieldLE b 0x10 4) image)).thread t).live = true := by
    rcases loaded.record.alive with hs | hs <;> simp [Thread.live, hs]
  rw [Dev.startProgram_run image hw ht hm]
  exact (loaded.makeReady hpc live).record

/-- Of rings and output, a start takes the entry and reads the image. -/
theorem Dev.startProgram_frame {fn : Nat} {b : List Byte} (image : List Byte) (hw : (d.ring fn).wait = .program b) (ht : d.freeProgram = some t)
    (hm : d.mayFetch fn = true) : (d.startProgram fn image).rings = (d.entryTaken fn b).rings ∧ (d.startProgram fn image).out = (d.entryTaken fn b).out := by
  rw [Dev.startProgram_run image hw ht hm]
  simp [Dev.loadThread_frame]

/-- With the lowest core of its set idle and with a free slot there, a program is loaded into that slot and is READY (R672). -/
theorem Dev.startProgram_idle {fn k : Nat} {b : List Byte} (image : List Byte) (hw : (d.ring fn).wait = .program b) (ht : d.freeProgram = some t)
    (hm : d.mayFetch fn = true) (hc : (d.entryThread fn b).allows c = true) (hlow : ∀ j, j < c → (d.entryThread fn b).allows j = false)
    (hidle : d.coreBusy c = false) (hslot : d.freeSlot c = some k) : d.startProgram fn image =
      ((d.entryTaken fn b).segLoaded (c * 0x40000 + (k + 1) * 0x10000) (fit (fieldLE b 0x10 4) image)).tailGrown.putThread t
        (((d.entryThread fn b).placed c (some k) d.dsp.age).readied (d.dsp.tail + 1)) := by
  have place : (d.entryTaken fn b).placeFor (d.entryThread fn b) = (c, some k) := Dev.placeFor_lowest hc hlow hidle hslot
  obtain ⟨g, hx⟩ := newThread_eq fn (d.ring fn).sqHead.toNat (d.dsp.starts + 1) b
  have hcore : ((d.entryThread fn b).placed c (some k) d.dsp.age).core = none := by
    rw [Dev.entryThread, hx]
    rfl
  have hseg : ((d.entryThread fn b).placed c (some k) (d.entryTaken fn b).dsp.age).segBase = c * 0x40000 + (k + 1) * 0x10000 := by
    rw [Dev.entryThread, hx]
    rfl
  rw [Dev.startProgram_run image hw ht hm, Dev.loadThread_slot t _ place, hseg, Dev.makeReady_idle (c := c), Dev.toTail_putThread]
  · rfl
  · rw [Dev.thread_putThread]
    exact hc
  · exact Dev.coreBusy_putThread (d := (d.entryTaken fn b).segLoaded _ _) hidle fun hrun => nomatch hcore.symm.trans hrun

end Start

/-- Settles O27: the started thread is the entry's however threads move, and with an idle core its segment is the slot's. -/
theorem programStarts : Obligations.ProgramStarts := by
  unfold Obligations.ProgramStarts
  intro s fn b image t d r x n hw hm hb hlo hhi hfree hlow
  have ht := Dev.freeProgram_lowest hlo hhi hfree hlow
  obtain ⟨-, hn⟩ := badProgram_bounds hb
  have args : ∀ k, x.gpr k = if 1 ≤ k ∧ k ≤ 4 then BitVec.ofNat 64 (fieldLE b (0x20 + 8 * (k - 1)) 8) else 0 := newThread_gpr _ _ _ _
  obtain ⟨g, hx⟩ : ∃ g, x = _ := newThread_eq fn r.sqHead.toNat (d.dsp.starts + 1) b
  refine ⟨completes_ok (d := d.startProgram fn image) rfl ?_, fun c slot hc hclow hidle hslot => ?_⟩
  · have same : x.SameProgram ((d.startProgram fn image).thread t) := Dev.startProgram_thread image hw ht hm hb
    obtain ⟨hrings, hout⟩ := Dev.startProgram_frame image hw ht hm
    have gpr := same.gpr
    rw [hx] at same
    refine ⟨fun i hi => ?_, fun k hk => ?_, same.pc, same.fn, same.firmware, same.prio, same.flags, same.wt, same.cas, same.hold, same.alive, same.affinity,
      same.tileB.trans ?_, same.origin, ?_, fun k hk => ?_, hout⟩
    · rw [gpr, args, if_pos (by omega), Nat.add_sub_cancel]
    · rw [gpr, args, if_neg (by omega)]
    · simp [bitN_eq]
    · rw [Dev.ring, hrings]
      exact Tab.get_put_same _ _ _ _
    · rw [Dev.ring, hrings]
      exact Tab.get_put_other _ _ _ hk
  · refine completes_ok (congrArg (ok s) (Dev.startProgram_idle image hw ht hm hc hclow hidle hslot)) ?_
    have hfit : (fit n image).length ≤ 65536 := by rwa [fit_length]
    refine ⟨?_, ?_, ?_, fun i hi => ?_, fun j hj => ?_, fun k hk => ?_, rfl⟩
    · rw [Dev.thread_putThread]
      rfl
    · rw [Dev.thread_putThread]
      rfl
    · rw [Dev.thread_putThread]
      rfl
    · exact (loadImage_inside d.loc _ hi).trans (fit_getD n image i)
    · exact loadImage_outside d.loc _ hfit hj
    · rw [Dev.thread_putThread_other _ _ hk]
      rfl

end Sys2Proof.Machine

/-! Posts that reach threads (chapter 5): what a change of cores leaves of threads and posts, the wake of a thread, the freed entry of a queue, then O21. -/

namespace Sys2Proof.Machine

/-! ## Threads change cores and slots (R180 to R185) -/

/-- The thread is READY and off its core, or runs on one, and nothing holds it. -/
def Thread.GoesOn (x : Thread) : Prop := x.hold = .nothing ∧ (x.st = .ready ∧ x.core = none ∨ x.st = .running ∧ x.core ≠ none)

/-- From `d` to `e`, a thread that goes on still goes on, and no post has moved. -/
structure Dev.Switches (d e : Dev) : Prop where
  goesOn : ∀ k, (d.thread k).GoesOn → (e.thread k).GoesOn
  postQ : e.dsp.postQ = d.dsp.postQ
  heldPosts : e.dsp.heldPosts = d.dsp.heldPosts

section Switches
variable {a d e : Dev} {x y : Thread} {t v : Nat}

theorem Dev.Switches.refl (d : Dev) : d.Switches d := ⟨fun _ h => h, rfl, rfl⟩

theorem Dev.Switches.trans (h : a.Switches d) (g : d.Switches e) : a.Switches e :=
  ⟨fun k hk => g.goesOn k (h.goesOn k hk), g.postQ.trans h.postQ, g.heldPosts.trans h.heldPosts⟩

/-- One thread's record changes to one that goes on if the old one did. -/
theorem Dev.Switches.of_thread (ht : ∀ k, e.thread k = if k = t then y else d.thread k) (hy : (d.thread t).GoesOn → y.GoesOn)
    (hq : e.dsp.postQ = d.dsp.postQ) (hh : e.dsp.heldPosts = d.dsp.heldPosts) : d.Switches e := by
  refine ⟨fun k hk => ?_, hq, hh⟩
  rw [ht k]
  split
  · next h => subst h; exact hy hk
  · exact hk

theorem Dev.spill_switches (d : Dev) (v : Nat) : d.Switches (d.spill v) :=
  .of_thread (y := { d.thread v with slot := none }) (spill_thread d v) id rfl rfl

/-- The registers that a thread is read back with change neither its state nor its hold nor its core. -/
theorem Dev.withRegs_goesOn (h : (d.thread t).GoesOn) : (d.withRegs t).GoesOn := by
  unfold Dev.withRegs
  split
  · obtain ⟨g, pc, wt, cas, hx⟩ := fromImage_frame (d.thread t) (d.memRead (d.regsAt t) 272)
    rw [hx]
    exact h
  · exact h

theorem Dev.takeSlot_switches (d : Dev) (t c : Nat) : d.Switches (d.takeSlot t c) := by
  unfold Dev.takeSlot
  split
  · next k _ =>
    exact .of_thread (fun j => thread_modThread _ t j fun _ => { d.withRegs t with home := c, slot := some k, resAge := d.dsp.age }) Dev.withRegs_goesOn rfl rfl
  · exact .refl d

theorem Dev.makeRoom_switches (d : Dev) (c : Nat) : d.Switches (d.makeRoom c) := by
  unfold Dev.makeRoom
  split
  · exact .refl d
  · split
    · exact Dev.spill_switches d _
    · exact .refl d

theorem Dev.makeResident_switches (d : Dev) (t c : Nat) : d.Switches (d.makeResident t c) := by
  unfold Dev.makeResident
  dsimp only
  split
  · exact .of_thread (fun k => thread_modThread d t k fun x => { x with home := c }) id rfl rfl
  · split
    · exact .refl d
    · refine (Dev.Switches.trans ?_ (Dev.makeRoom_switches _ c)).trans (Dev.takeSlot_switches _ t c)
      split
      · exact Dev.spill_switches d t
      · exact .refl d

theorem Dev.runOn_switches (d : Dev) (t c : Nat) : d.Switches (d.runOn t c) :=
  (Dev.makeResident_switches d t c).trans
    (.of_thread (fun k => thread_modThread (d.makeResident t c) t k fun x => { x with st := .running, core := some c, home := c, runStart := d.ctl.ticks })
      (fun h => ⟨h.1, .inr ⟨rfl, nofun⟩⟩) rfl rfl)

theorem Thread.readied_goesOn (x : Thread) (n : Int) : (x.readied n).GoesOn := ⟨rfl, .inl ⟨rfl, rfl⟩⟩

theorem Dev.toHead_switches (d : Dev) (t : Nat) : d.Switches (d.toHead t) :=
  .of_thread (fun k => thread_modThread _ t k fun x => x.readied (d.dsp.head - 1)) (fun _ => Thread.readied_goesOn _ _) rfl rfl

theorem Dev.toTail_switches (d : Dev) (t : Nat) : d.Switches (d.toTail t) :=
  .of_thread (fun k => thread_modThread _ t k fun x => x.readied (d.dsp.tail + 1)) (fun _ => Thread.readied_goesOn _ _) rfl rfl

/-- A chain of preemptions: each thread that loses its core is READY, each that takes one runs. -/
theorem Dev.preempt_switches (n : Nat) : ∀ (d : Dev) (t : Nat), d.Switches (Dev.preempt n d t) := by
  induction n with
  | zero => exact fun d _ => .refl d
  | succ n ih =>
    intro d t
    unfold Dev.preempt
    split
    · next c v _ => exact ((Dev.toHead_switches d v).trans (Dev.runOn_switches _ t c)).trans (ih _ v)
    · exact .refl d

theorem Dev.makeReady_switches (d : Dev) (t : Nat) : d.Switches (d.makeReady t) := (Dev.toTail_switches d t).trans (Dev.preempt_switches 64 _ t)

/-- A thread made READY goes on, whatever it was before. -/
theorem Dev.makeReady_goesOn (d : Dev) (t : Nat) : ((d.makeReady t).thread t).GoesOn := by
  have ready : (d.toTail t).thread t = (d.thread t).readied (d.dsp.tail + 1) := Dev.thread_putThread _ _ _
  exact (Dev.preempt_switches 64 (d.toTail t) t).goesOn t (ready ▸ Thread.readied_goesOn _ _)

/-- Outside threads, the dispatcher, local memory and device memory, nothing changes when a thread becomes READY. -/
theorem Dev.makeReady_eq (d : Dev) (t : Nat) : d.makeReady t =
    { d with dsp := (d.makeReady t).dsp, thr := (d.makeReady t).thr, loc := (d.makeReady t).loc, locErr := (d.makeReady t).locErr,
             spillErr := (d.makeReady t).spillErr, mem := (d.makeReady t).mem, poison := (d.makeReady t).poison } := by
  have h := Dev.makeReady_frame d t
  generalize d.makeReady t = e at h ⊢
  cases e
  simpa only [Dev.mk.injEq, true_and, and_true] using h

/-- A live thread made READY is READY or runs, with all registers as they were (R174, R180). -/
theorem Dev.makeReady_readied (hl : (d.thread t).live = true) : d.Readied (d.makeReady t) t := by
  obtain ⟨hold, place⟩ := Dev.makeReady_goesOn d t
  have moved := Dev.makeReady_switches d t
  exact ⟨hold, place, makeReady_sameRegs d t hl, moved.postQ, moved.heldPosts, Dev.makeReady_eq d t⟩

end Switches

/-! ## Posts are folded into flags (R173 to R175) -/

section Fold
variable {d : Dev} {y : Thread} {t c u : Nat} {mask : Word} {rest : List (Nat × Word)}

/-- A thread whose wait is over: the flags of its mask are taken from it and stand in its register (R148). -/
def Thread.waitOver (y z : Thread) : Thread :=
  { z with flags := y.flags &&& ~~~y.mask, wt := false, deadline := none }.setG y.waitRd (BitVec.ofNat 64 (y.flags &&& y.mask).toNat)

/-- The end of a wait leaves the thread's state as it is. -/
theorem Thread.waitOver_live (y z : Thread) : (y.waitOver z).live = z.live := by
  obtain ⟨g, hg⟩ := Thread.setG_eq { z with flags := y.flags &&& ~~~y.mask, wt := false, deadline := none } y.waitRd (BitVec.ofNat 64 (y.flags &&& y.mask).toNat)
  rw [Thread.waitOver, hg]
  rfl

/-- The record of a thread whose registers change is what the change makes of it, wherever its registers stand. -/
theorem Dev.modRegs_thread (d : Dev) (t : Nat) (f : Thread → Thread) : (d.modRegs t f).thread t = f (d.withRegs t) := by
  unfold Dev.modRegs
  dsimp only
  split
  · rw [spillRegs_thread, Dev.thread_putThread]
  · exact Dev.thread_putThread d t _

theorem Dev.withRegs_live (d : Dev) (t : Nat) : (d.withRegs t).live = (d.thread t).live := by
  obtain ⟨-, -, hst, -⟩ := withRegs_flags d t
  rw [Thread.live, hst]
  rfl

/-- A WAITING thread whose condition holds takes its flags and becomes READY. -/
theorem Dev.wake_satisfied (hw : y.st = .waiting) (hs : y.satisfied = true) :
    Dev.Readied ((d.putThread u y).modRegs u y.waitOver) ((d.putThread u y).wake u) u := by
  have woken : (d.putThread u y).wake u = ((d.putThread u y).modRegs u y.waitOver).makeReady u := by
    unfold Dev.wake
    rw [Dev.thread_putThread]
    refine (if_pos (by simp [hw, hs])).trans ?_
    unfold Thread.waitOver
    rw [BitVec.ofNat_toNat]
  have live : y.live = true := by rw [Thread.live, hw]
  rw [woken]
  exact Dev.makeReady_readied (by rw [Dev.modRegs_thread, Thread.waitOver_live, Dev.withRegs_live, Dev.thread_putThread, live])

/-- Any other thread stays as it is. -/
theorem Dev.wake_other (h : ¬(y.st = .waiting ∧ y.satisfied = true)) : (d.putThread u y).wake u = d.putThread u y := by
  unfold Dev.wake
  rw [Dev.thread_putThread]
  exact if_neg (by simpa using h)

/-- A post to a live thread is ORed into its flags, which may end its wait. -/
theorem Dev.fold_live (hl : (d.thread t).live = true) (mask : Word) :
    d.fold t mask = (d.putThread t { d.thread t with flags := (d.thread t).flags ||| mask }).wake t := if_pos hl

/-- The merge path's pending word is folded and gone (R175). -/
theorem Dev.mergeFold_live (hl : (d.thread t).live = true) (hp : (d.thread t).pending ≠ 0) : d.mergeFold t =
    (d.putThread t { d.thread t with pending := 0, flags := (d.thread t).flags ||| (d.thread t).pending }).wake t := by
  have folded : d.mergeFold t = (d.putThread t { d.thread t with pending := 0 }).fold t (d.thread t).pending := if_neg hp
  rw [folded, Dev.fold_live (by rw [Dev.thread_putThread]; exact hl), Dev.thread_putThread, Dev.putThread_putThread]

/-- The oldest entry of a core's queue is folded and gone (R177). -/
theorem Dev.postFold_live (hq : d.postQueue c = (u, mask) :: rest) (hl : (d.thread u).live = true) : d.postFold c =
    ((d.putPostQueue c rest).putThread u { d.thread u with flags := (d.thread u).flags ||| mask }).wake u := by
  unfold Dev.postFold
  rw [hq]
  exact Dev.fold_live (d := d.putPostQueue c rest) hl mask

end Fold

/-! ## An entry of a queue is free (R172, R178, R186) -/

/-- The device with other held posts. -/
def Dev.withHeld (d : Dev) (q : List HeldPost) : Dev := { d with dsp := { d.dsp with heldPosts := q } }

/-- The device with one more entry in a core's post queue, for a post that was held (R178). -/
def Dev.withEntry (d : Dev) (c : Nat) (h : HeldPost) : Dev := d.putPostQueue c (d.postQueue c ++ [(h.target, h.mask)])

@[simp] theorem Dev.postQueue_withEntry (d : Dev) (c : Nat) (h : HeldPost) : (d.withEntry c h).postQueue c = d.postQueue c ++ [(h.target, h.mask)] :=
  Tab.get_put_same _ _ _ _

/-- A post with no entry that stands for its target gets its own (R177). -/
theorem joinPost_new {q : List (Nat × Word)} {u : Nat} (mask : Word) (h : q.any (·.1 == u) = false) : joinPost q u mask = q ++ [(u, mask)] :=
  if_neg (Bool.eq_false_iff.mp h)

section Free
variable {d : Dev} {h : HeldPost} {rest : List HeldPost} {c u : Nat}

/-- The first of all held posts is the first of its core and of its poster: with room in its core's queue it is put there or discarded, and its poster goes on. -/
theorem Dev.entryFree_head (hq : d.dsp.heldPosts = h :: rest) (hc : d.heldCore h = c) (hroom : (d.postQueue c).length < 64) : d.entryFree c =
    ((if d.heldLive h then (d.withHeld rest).enqueuePost h.target h.mask else d.withHeld rest).releasePoster h.poster).stallLine := by
  have leads : d.dsp.leads h = true := by simp [Dsp.leads, hq]
  have first : d.firstHeld c = some h := by
    unfold Dev.firstHeld
    rw [hq]
    exact List.find?_cons_of_pos (by simp [hc, leads])
  have erased : d.dsp.heldPosts.erase h = rest := by rw [hq, List.erase_cons_head]
  unfold Dev.entryFree
  rw [first]
  dsimp only
  rw [if_pos (by simp [hroom]), erased]
  rfl

/-- A held post whose target still runs the program that it was made to is put behind the other entries of its queue. -/
theorem Dev.entryFree_live (hq : d.dsp.heldPosts = h :: rest) (hhome : (d.thread h.target).home = c) (hl : (d.thread h.target).live = true)
    (hinc : (d.thread h.target).inc = h.inc) (hroom : (d.postQueue c).length < 64) (hnew : (d.postQueue c).any (·.1 == h.target) = false) : d.entryFree c =
    (((d.withHeld rest).withEntry c h).releasePoster h.poster).stallLine := by
  have live : d.heldLive h = true := by simp [Dev.heldLive, hl, hinc]
  have queued : (d.withHeld rest).enqueuePost h.target h.mask = (d.withHeld rest).withEntry c h := by
    subst hhome
    exact congrArg ((d.withHeld rest).putPostQueue _) (joinPost_new h.mask hnew)
  rw [Dev.entryFree_head hq ((if_pos live).trans hhome) hroom, if_pos live, queued]

/-- A held post whose target has ended is discarded (R172). -/
theorem Dev.entryFree_ended (hq : d.dsp.heldPosts = h :: rest) (hc : h.core = c) (hl : (d.thread h.target).live = false)
    (hroom : (d.postQueue c).length < 64) : d.entryFree c = ((d.withHeld rest).releasePoster h.poster).stallLine := by
  have ended : ¬d.heldLive h = true := by simp [Dev.heldLive, hl]
  rw [Dev.entryFree_head hq ((if_neg ended).trans hc) hroom, if_neg ended]

/-- A thread held with its post becomes READY. -/
theorem Dev.releasePoster_thread (hh : (d.thread u).hold = .post) : d.releasePoster (.thread u) = d.makeReady u := if_pos (by simp [hh])

/-- Of the device the line of DISPATCH_STALL alone may fall, and it is at 0 when no post is recorded as held too long (R186). -/
theorem Dev.stallLine_eq (d : Dev) : ∃ flt, d.stallLine = { d with flt := flt } ∧ (d.dsp.heldPosts.any (·.stalled) = false → flt.live.getLsbD 5 = false) := by
  unfold Dev.stallLine
  split
  · next h => exact ⟨d.flt, rfl, fun hn => nomatch h.symm.trans hn⟩
  · exact ⟨{ d.flt with live := d.flt.live &&& ~~~(1#64 <<< 5) }, rfl, fun _ => by simp⟩

/-- A poster made READY goes on, with the posts as they are. -/
theorem Dev.makeReady_stallLine (d : Dev) (u : Nat) :
    (d.makeReady u).stallLine.dsp.postQ = d.dsp.postQ ∧ (d.makeReady u).stallLine.dsp.heldPosts = d.dsp.heldPosts ∧
      ((d.makeReady u).stallLine.thread u).GoesOn ∧ ((d.thread u).live = true → d.SameRegs (d.makeReady u).stallLine) := by
  obtain ⟨flt, line, -⟩ := (d.makeReady u).stallLine_eq
  have moved := Dev.makeReady_switches d u
  rw [line]
  exact ⟨moved.postQ, moved.heldPosts, Dev.makeReady_goesOn d u, makeReady_sameRegs d u⟩

end Free

/-- A thread that goes on is not held, and is READY or running. -/
theorem Thread.GoesOn.free {x : Thread} (h : x.GoesOn) : x.hold = .nothing ∧ (x.st = .ready ∨ x.st = .running) :=
  ⟨h.1, h.2.imp And.left And.left⟩

/-- Settles O21: a fold is an OR and a wake, and a wake is the end of the wait or nothing; the first held post has its entry, or is discarded, before its poster goes on. -/
theorem postsReachThreads : Obligations.PostsReachThreads := by
  unfold Obligations.PostsReachThreads
  intro s c t d x woken
  have wakes (u : Nat) (y : Thread) (e : Dev) : woken u y e ((e.putThread u y).wake u) := by
    dsimp only [woken]
    split
    · next h => exact Dev.wake_satisfied h.1 h.2
    · next h => exact Dev.wake_other h
  refine ⟨fun hl hp => ?_, fun u mask rest hq hl => ?_, fun h rest hq hhome hl hinc hroom hnew => ?_, fun h rest u hq hc hposter hhold hl hroom => ?_⟩
  · exact completes_ok (congrArg (ok s) (Dev.mergeFold_live hl hp)) (wakes t _ d)
  · exact completes_ok (congrArg (ok s) (Dev.postFold_live hq hl)) (wakes u _ _)
  · have freed := Dev.entryFree_live hq hhome hl hinc hroom hnew
    have behind := (d.withHeld rest).postQueue_withEntry c h
    refine ⟨fun u hposter => ?_, fun u hposter hhold => ?_⟩
    · rw [hposter] at freed
      obtain ⟨flt, line, low⟩ := ((d.withHeld rest).withEntry c h).stallLine_eq
      exact completes_ok (congrArg (ok s) (freed.trans line)) ⟨behind, rfl, low, rfl⟩
    · rw [hposter, Dev.releasePoster_thread (d := (d.withHeld rest).withEntry c h) hhold] at freed
      obtain ⟨postQ, held, goes, same⟩ := Dev.makeReady_stallLine ((d.withHeld rest).withEntry c h) u
      obtain ⟨hold, st⟩ := goes.free
      exact completes_ok (congrArg (ok s) freed) ⟨(congrArg (Tab.get [] · c) postQ).trans behind, held, hold, st, same⟩
  · have freed := Dev.entryFree_ended hq hc hl hroom
    rw [hposter, Dev.releasePoster_thread (d := d.withHeld rest) hhold] at freed
    obtain ⟨postQ, held, goes, -⟩ := Dev.makeReady_stallLine (d.withHeld rest) u
    obtain ⟨hold, st⟩ := goes.free
    exact completes_ok (congrArg (ok s) freed) ⟨postQ, held, hold, st⟩

end Sys2Proof.Machine

/-! The time base (chapter 15): what a fault line leaves of the collector, the servo's states and samples, the pins, PTP and the TIME unit, then O50. -/

namespace Sys2Proof.Machine

/-! ## Fault lines (R571 to R579) -/

theorem one_shiftLeft_getLsbD_of_ne {i k : Nat} (h : i ≠ k) : (1#64 <<< k).getLsbD i = false := by
  simp only [BitVec.getLsbD_shiftLeft, BitVec.getLsbD_one, Bool.and_eq_false_iff, Bool.not_eq_false', decide_eq_true_eq, decide_eq_false_iff_not]
  omega

theorem one_shiftLeft_getLsbD_self {i : Nat} (h : i < 64) : (1#64 <<< i).getLsbD i = true := by
  simp [h]

/-- The bypass's switches clear the lines of the ring's breaks alone (R512). -/
theorem Dev.updateBypass_flt (d : Dev) : d.updateBypass.flt.status = d.flt.status ∧
    ∀ i, i ≠ 45 → i ≠ 46 → d.updateBypass.flt.live.getLsbD i = d.flt.live.getLsbD i := by
  have cleared (i : Nat) (hA : i ≠ 45) (hB : i ≠ 46) :
      (d.flt.live &&& ~~~((if d.casc.dup then 0#64 else 1#64 <<< 45) ||| (1#64 <<< 46))).getLsbD i = d.flt.live.getLsbD i := by
    by_cases hi : i < 64
    · split <;> simp only [BitVec.getLsbD_and, BitVec.getLsbD_not, BitVec.getLsbD_or, one_shiftLeft_getLsbD_of_ne hA, one_shiftLeft_getLsbD_of_ne hB,
        BitVec.getLsbD_zero, hi, decide_true, Bool.or_self, Bool.not_false, Bool.and_true]
    · rw [BitVec.getLsbD_of_ge _ _ (Nat.not_lt.mp hi), BitVec.getLsbD_of_ge _ _ (Nat.not_lt.mp hi)]
  unfold Dev.updateBypass
  dsimp only
  split
  · exact ⟨rfl, fun _ _ _ => rfl⟩
  · split
    · exact ⟨rfl, cleared⟩
    · simp only [Dev.emit_frame]
      exact ⟨trivial, cleared⟩

/-- So do the actions of a HALT (R575). -/
theorem Dev.haltActions_flt (d : Dev) : d.haltActions.flt.status = d.flt.status ∧
    ∀ i, i ≠ 45 → i ≠ 46 → d.haltActions.flt.live.getLsbD i = d.flt.live.getLsbD i := by
  have switched := (((d.discardQueues fun _ => true).serveLink 1).serveLink 2).updateBypass_flt
  simp only [Dev.serveLink_frame, Dev.discardQueues_frame] at switched
  unfold Dev.haltActions
  dsimp only
  split
  · simpa only [Dev.emit_frame] using switched
  · exact switched

/-- A latch cycle moves no line but those of the ring's breaks, and a line that latches in it has its sticky bit set (R572). -/
theorem Dev.latch_flt (d : Dev) (srcs : BitVec 64) : (d.fresh srcs ≠ [] → (d.latch srcs).flt.status = d.flt.status ||| srcs) ∧
    ∀ i, i ≠ 45 → i ≠ 46 → (d.latch srcs).flt.live.getLsbD i = d.flt.live.getLsbD i := by
  unfold Dev.latch
  dsimp only
  split
  · next hnone => exact ⟨fun h => absurd hnone h, fun _ _ _ => rfl⟩
  · split
    · refine ⟨fun _ => (Dev.haltActions_flt _).1.trans ?_, fun i hA hB => ((Dev.haltActions_flt _).2 i hA hB).trans ?_⟩ <;> split <;> simp
    · split <;> simp

theorem Dev.raise_live (d : Dev) (k : Nat) {i : Nat} (hA : i ≠ 45) (hB : i ≠ 46) : (d.raise k).flt.live.getLsbD i = d.flt.live.getLsbD i :=
  (d.latch_flt _).2 i hA hB

/-- A source with no reaction in force sets its sticky bit (R572). -/
theorem Dev.raise_status {d : Dev} {i : Nat} (hi : i < 64) (h : d.flt.latched.get 0 i = 0) : (d.raise i).flt.status.getLsbD i = true := by
  have latches : d.fresh (1#64 <<< i) ≠ [] := List.ne_nil_of_mem (a := i) (by simp [Dev.fresh, hi, h])
  rw [Dev.raise, (d.latch_flt _).1 latches, BitVec.getLsbD_or, one_shiftLeft_getLsbD_self hi, Bool.or_true]

/-- A line driven high reads high. -/
theorem Dev.setLine_high (d : Dev) {i : Nat} (hi : i < 64) (hA : i ≠ 45) (hB : i ≠ 46) : (d.setLine i true).flt.live.getLsbD i = true := by
  unfold Dev.setLine
  rw [if_pos rfl]
  split
  · assumption
  · rw [Dev.raise_live _ _ hA hB]
    simp [one_shiftLeft_getLsbD_self hi]

/-- A line driven low reads low. -/
theorem Dev.setLine_low (d : Dev) (i : Nat) : (d.setLine i false).flt.live.getLsbD i = false := by
  by_cases hi : i < 64
  · simp [Dev.setLine, hi]
  · exact BitVec.getLsbD_of_ge _ _ (Nat.not_lt.mp hi)

/-! ## The servo's states (Table 15.1) -/

/-- The device with the servo in a state entered now. -/
def Dev.inServo (d : Dev) (st : Nat) : Dev := { d with tb := { d.tb with servo := st, lastChg := d.media } }

theorem Dev.enterServo_same {d : Dev} {st : Nat} (h : d.tb.servo = st) : d.enterServo st = d := if_pos h

theorem Dev.enterServo_other {d : Dev} {st : Nat} (h : d.tb.servo ≠ st) : d.enterServo st =
    if st = 2 then (d.inServo st).setLine 41 false else if d.tb.servo = 2 then (d.inServo st).setLine 41 true else d.inServo st := if_neg h

/-- Of the time base a change of state moves the state and the moment of the last change. -/
theorem Dev.enterServo_tb {d : Dev} {st : Nat} (h : d.tb.servo ≠ st) : (d.enterServo st).tb = { d.tb with servo := st, lastChg := d.media } := by
  rw [Dev.enterServo_other h]
  (repeat' split) <;> simp [Dev.inServo]

/-- Between states other than LOCKED nothing but the state moves. -/
theorem Dev.enterServo_quiet {d : Dev} {st : Nat} (h : d.tb.servo ≠ st) (hst : st ≠ 2) (hs : d.tb.servo ≠ 2) : d.enterServo st = d.inServo st :=
  (Dev.enterServo_other h).trans ((if_neg hst).trans (if_neg hs))

/-- Leaving LOCKED raises TIME_LOCK's line (R460). -/
theorem Dev.enterServo_leaves {d : Dev} {st : Nat} (hs : d.tb.servo = 2) (hst : st ≠ 2) : (d.enterServo st).flt.live.getLsbD 41 = true := by
  rw [Dev.enterServo_other (by omega), if_neg hst, if_pos hs]
  exact Dev.setLine_high _ (by decide) (by decide) (by decide)

/-- From another state no line moves. -/
theorem Dev.enterServo_flt {d : Dev} {st : Nat} (hs : d.tb.servo ≠ 2) (hst : st ≠ 2) : (d.enterServo st).flt = d.flt := by
  by_cases h : d.tb.servo = st
  · rw [Dev.enterServo_same h]
  · rw [Dev.enterServo_quiet h hst hs]
    rfl

/-- Entering LOCKED lowers it. -/
theorem Dev.enterServo_locked {d : Dev} (h : d.tb.servo ≠ 2) : (d.enterServo 2).flt.live.getLsbD 41 = false := by
  rw [Dev.enterServo_other h, if_pos rfl]
  exact Dev.setLine_low _ 41

/-! ## A step of the counter (R459, R463) -/

theorem TimeBase.total_setTotal {t : TimeBase} {v : Nat} (h : v < 2 ^ 48 * 1000000000 * 2 ^ 32) : (t.setTotal v).total = v := by
  have hsec : v / 2 ^ 32 / 1000000000 < 2 ^ 48 := by omega
  simp only [TimeBase.total, TimeBase.setTotal, Nat.mod_eq_of_lt hsec]
  omega

/-- The counter after a step, modulo its range. -/
theorem Dev.stepCounter_total (d : Dev) (delta : Int) :
    ((d.stepCounter delta).tb.total : Int) = ((d.tb.total : Int) + delta) % (2 ^ 48 * 1000000000 * 2 ^ 32) := by
  have hlow : 0 ≤ ((d.tb.total : Int) + delta) % (2 ^ 48 * 1000000000 * 2 ^ 32) := Int.emod_nonneg _ (by decide)
  have hhigh : ((d.tb.total : Int) + delta) % (2 ^ 48 * 1000000000 * 2 ^ 32) < 2 ^ 48 * 1000000000 * 2 ^ 32 := Int.emod_lt_of_pos _ (by decide)
  have stepped : (d.stepCounter delta).tb.total = (((d.tb.total : Int) + delta) % (2 ^ 48 * 1000000000 * 2 ^ 32)).toNat :=
    TimeBase.total_setTotal (t := d.tb) (by omega)
  rw [stepped, Int.toNat_of_nonneg hlow]

/-! ## A sample (R459) -/

/-- The device that has taken its sample and stepped the counter by it. -/
def Dev.stepped (d : Dev) (z : Int) : Dev :=
  let d1 := ({ d with tb := { d.tb with sample := none, lastSmp := some d.ctl.ticks } } : Dev).stepCounter (-(z * 256))
  { d1 with tb := { d1.tb with run := 0 } }

/-- The device whose servo has moved its integrator and its output by a sample, with a run of good samples. -/
def Dev.steered (d : Dev) (z : Int) (run : Nat) : Dev :=
  let integ := clampPpm (d.tb.integ + z * 2 ^ (63 - d.tb.ki))
  let y := clampPpm (integ + z * 2 ^ (63 - d.tb.kp))
  { d with tb := { d.tb with sample := none, lastSmp := some d.ctl.ticks, integ := integ, y := y, run := run } }

section Sample
variable {d : Dev} {z : Int}

theorem Dev.tbConsume_none (h : d.tb.sample = none) : d.tbConsume = d := by rw [Dev.tbConsume, h]

theorem Dev.tbConsume_some (h : d.tb.sample = some z) : d.tbConsume = d.servoSample z := by rw [Dev.tbConsume, h]

theorem Dev.servoSample_steps (h : d.tb.stepLimit * 1000 * 2 ^ 24 < z.natAbs) : d.servoSample z = (d.stepped z).enterServo 1 := if_pos h

theorem Dev.servoSample_steers (h : z.natAbs ≤ d.tb.stepLimit * 1000 * 2 ^ 24) {st run : Nat} (ha : d.tb.afterSample z = (st, run)) :
    d.servoSample z = (d.steered z run).enterServo st := by
  rw [Dev.servoSample, if_neg (Nat.not_lt.mpr h), ha]
  rfl

end Sample

/-- The counter after the sample is taken off, modulo its range. -/
theorem Dev.stepped_total (d : Dev) (z : Int) : ((d.stepped z).tb.total : Int) = ((d.tb.total : Int) - z * 256) % (2 ^ 48 * 1000000000 * 2 ^ 32) := by
  have stepped := Dev.stepCounter_total { d with tb := { d.tb with sample := none, lastSmp := some d.ctl.ticks } } (-(z * 256))
  rw [← Int.sub_eq_add_neg] at stepped
  exact stepped

/-- The cadence clock's lag takes the step up while anything is started (R463). -/
theorem Dev.stepped_lag (d : Dev) (z : Int) : (d.stepped z).tb.lag = if d.anyStarted then d.tb.lag - z * 256 else d.tb.lag := by
  rw [Int.sub_eq_add_neg]
  rfl

/-- A step keeps the integrator and the output (R459) and leaves the servo ACQUIRING. -/
theorem Dev.stepped_acquires (d : Dev) (z : Int) : ∃ chg, ((d.stepped z).enterServo 1).tb = { (d.stepped z).tb with servo := 1, lastChg := chg } := by
  by_cases h : (d.stepped z).tb.servo = 1
  · exact ⟨_, by rw [Dev.enterServo_same h, ← h]⟩
  · exact ⟨_, Dev.enterServo_tb h⟩

section AfterSample
variable {t : TimeBase} {z : Int}

theorem TimeBase.afterSample_acquiring (hs : t.servo = 1) (hz : z.natAbs ≤ t.lockLimit * 2 ^ 24) (hr : t.run + 1 < 16) : t.afterSample z = (1, t.run + 1) := by
  simp only [TimeBase.afterSample, hs, hz, hr, reduceIte]

theorem TimeBase.afterSample_locks (hs : t.servo = 1) (hz : z.natAbs ≤ t.lockLimit * 2 ^ 24) (hr : 16 ≤ t.run + 1) : t.afterSample z = (2, 0) := by
  simp only [TimeBase.afterSample, hs, hz, Nat.not_lt.mpr hr, reduceIte]

theorem TimeBase.afterSample_coarse (hs : t.servo = 1) (hz : ¬ z.natAbs ≤ t.lockLimit * 2 ^ 24) : t.afterSample z = (1, 0) := by
  simp only [TimeBase.afterSample, hs, hz, reduceIte]

theorem TimeBase.afterSample_locked (hs : t.servo = 2) (hz : z.natAbs ≤ 4 * t.lockLimit * 2 ^ 24) : t.afterSample z = (2, 0) := by
  simp only [TimeBase.afterSample, hs, hz, reduceIte]

theorem TimeBase.afterSample_unlocks (hs : t.servo = 2) (hz : 4 * t.lockLimit * 2 ^ 24 < z.natAbs) : t.afterSample z = (1, 0) := by
  simp only [TimeBase.afterSample, hs, Nat.not_le.mpr hz, reduceIte]

theorem TimeBase.afterSample_starts (hs : t.servo = 0 ∨ t.servo = 3) : t.afterSample z = (1, 0) := by
  obtain hs | hs := hs <;> simp [TimeBase.afterSample, hs]

end AfterSample

/-! ## Holdover (Table 15.1) -/

/-- The device whose output is fixed at the integrator's value. -/
def Dev.holding (d : Dev) : Dev := { d with tb := { d.tb with y := d.tb.integ, run := 0 } }

section Holdover
variable {d : Dev} {k : Nat}

theorem Dev.tbHoldover_not_due (hk : d.tb.lastSmp = some k) (h : d.ctl.ticks < k + d.tb.holdTicks ∨ d.tb.servo = 0 ∨ d.tb.servo = 3) : d.tbHoldover = d := by
  have idle : ((d.tb.servo = 1 || d.tb.servo = 2) && k + d.tb.holdTicks ≤ d.ctl.ticks : Bool) = false := by
    simp only [Bool.and_eq_false_iff, Bool.or_eq_false_iff, decide_eq_false_iff_not]
    omega
  rw [Dev.tbHoldover, hk]
  exact if_neg (Bool.eq_false_iff.mp idle)

theorem Dev.tbHoldover_due (hk : d.tb.lastSmp = some k) (h : k + d.tb.holdTicks ≤ d.ctl.ticks) (hs : d.tb.servo = 1 ∨ d.tb.servo = 2) :
    d.tbHoldover = d.holding.enterServo 3 := by
  rw [Dev.tbHoldover, hk]
  exact if_pos (by simpa [h] using hs)

end Holdover

/-! ## PPS_IN (R461, R471) -/

/-- The time base with an edge of PPS_IN latched. -/
def TimeBase.latchedPps (t : TimeBase) (now : Nat) : TimeBase :=
  { t with ppsNs := t.ns, ppsSec := t.sec % 2 ^ 32, ppsValid := true, ppsEdge := some now, ppsGap := false }

/-- The offset that an edge shows, in ns, in the half second about 0. -/
def TimeBase.ppsOffset (t : TimeBase) : Int :=
  let e := (t.ns : Int) - t.ppsDelay
  if 500000000 ≤ e then e - 1000000000 else e

/-- The time base after an edge: it is latched, and commits its offset as a sample when it is the source. -/
def TimeBase.afterPps (t : TimeBase) (now : Nat) : TimeBase :=
  let v := t.ppsOffset * 2 ^ 24
  if t.source = 1 then
    { t.latchedPps now with offLo := loW (ofSigned 64 v), offHi := hiW (ofSigned 64 v), sample := some v, overrun := t.overrun || t.sample.isSome }
  else t.latchedPps now

section PpsIn
variable {d : Dev} {k : Nat}

theorem Dev.ppsInEdge_off (h : d.tb.ppsInOn = false) : d.ppsInEdge = d := if_pos (by simp [h])

/-- The device with an edge latched, and checked against a whole second of the counter. -/
def Dev.ppsChecked (d : Dev) : Dev :=
  let d1 : Dev := { d with tb := d.tb.latchedPps d.ctl.ticks }
  if d.tb.stepLimit * 1000 < min d.tb.ns (1000000000 - d.tb.ns) then d1.raise 42 else d1

theorem Dev.ppsChecked_tb (d : Dev) : d.ppsChecked.tb = d.tb.latchedPps d.ctl.ticks := by
  unfold Dev.ppsChecked
  dsimp only
  split
  · exact (Dev.raise_frame _ _).2.1
  · rfl

theorem Dev.ppsInEdge_on (h : d.tb.ppsInOn = true) : d.ppsInEdge = { d.ppsChecked with tb := d.tb.afterPps d.ctl.ticks } := by
  have edge : d.ppsInEdge =
      let v := d.tb.ppsOffset * 2 ^ 24
      if d.tb.source = 1 then
        ({ d.ppsChecked with tb := { d.ppsChecked.tb with offLo := loW (ofSigned 64 v), offHi := hiW (ofSigned 64 v) } } : Dev).commitSample v
      else d.ppsChecked := if_neg (by simp [h])
  rw [edge, TimeBase.afterPps]
  split
  · simp only [Dev.commitSample, Dev.ppsChecked_tb]
    rfl
  · rw [← Dev.ppsChecked_tb]

theorem Dev.ppsGapCheck_not_due (hk : d.tb.ppsEdge = some k) (h : d.ctl.ticks < k + 3300000000 ∨ d.tb.ppsInOn = false ∨ d.tb.ppsGap = true) : d.ppsGapCheck = d := by
  rw [Dev.ppsGapCheck, hk]
  refine if_neg ?_
  obtain h | h | h := h <;> simp [h]

theorem Dev.ppsGapCheck_due (hk : d.tb.ppsEdge = some k) (h : k + 3300000000 ≤ d.ctl.ticks) (hon : d.tb.ppsInOn = true) (hgap : d.tb.ppsGap = false) :
    d.ppsGapCheck = ({ d with tb := { d.tb with ppsGap := true } } : Dev).raise 42 := by
  rw [Dev.ppsGapCheck, hk]
  exact if_pos (by simp [h, hon, hgap])

end PpsIn

/-! ## The counter's writes and reads, PPS_OUT and the time of day -/

section Counter
variable {d : Dev} {k : Nat}

theorem Dev.tbOffsetHi_ignored (h : d.tb.source ≠ 0) (v : Word) : d.tbOffsetHi v = d := if_pos (by simp [h])

theorem Dev.tbOffsetHi_commits (h : d.tb.source = 0) (v : Word) : d.tbOffsetHi v =
    ({ d with tb := { d.tb with offHi := v } } : Dev).commitSample (toSigned 64 (d.tb.offLo.toNat + v.toNat * 2 ^ 32)) := if_neg (by simp [h])

theorem Dev.tbCoarseSet_started (h : d.anyStarted = true) (v : Word) : d.tbCoarseSet v = { d with tb := { d.tb with setIgn := true } } := if_pos h

theorem Dev.tbCoarseSet_idle (h : d.anyStarted = false) (v : Word) : d.tbCoarseSet v =
    let sec := (v.toNat % 2 ^ 16) * 2 ^ 32 + (d.tb.wrLo.getD 0).toNat
    ({ d with tb := { d.tb with sec := sec, lastSec := sec, steps := satAdd 10 d.tb.steps 1 } } : Dev).recomputeGates := if_neg (by simp [h])

/-- The time base at a new second, with the line of the time of day due. -/
def TimeBase.newSecond (t : TimeBase) : TimeBase := { t with lastSec := t.sec, todSec := if t.tod = 0 then none else some t.sec }

theorem Dev.ppsOutEdge_early (h : d.tb.sec ≤ d.tb.lastSec) : d.ppsOutEdge = d := if_pos h

theorem Dev.ppsOutEdge_second (h : d.tb.lastSec < d.tb.sec) : d.ppsOutEdge =
    if d.tb.ppsOutOn then
      ({ d with tb := { d.tb.newSecond with ppsOut := true, ppsFall := some (d.tb.sec * 1000000000 + d.tb.ppsWidth * 1000) } } : Dev).emit (.pin "PPS_OUT" true)
    else { d with tb := d.tb.newSecond } := if_neg (Nat.not_le.mpr h)

theorem Dev.ppsOutFall_eq (hk : d.tb.ppsFall = some k) : d.ppsOutFall =
    if k ≤ d.tb.sec * 1000000000 + d.tb.ns then ({ d with tb := { d.tb with ppsOut := false, ppsFall := none } } : Dev).emit (.pin "PPS_OUT" false) else d := by
  rw [Dev.ppsOutFall, hk]

theorem Dev.todStart_due (hk : d.tb.todSec = some k) (hon : d.tb.tod ≠ 0) (h : k * 1000000000 + 10000000 ≤ d.tb.sec * 1000000000 + d.tb.ns) (utc : Nat) :
    d.todStart utc = ({ d with tb := { d.tb with todSec := none } } : Dev).emit (.tod (if d.tb.tod = 1 then 9600 else 115200) (todLine k utc d.tb.servo)) := by
  rw [Dev.todStart, hk]
  exact if_pos (by simp [hon, h])

end Counter

/-! ## PTP time-stamps (R466, R469) -/

section Ptp
variable {d : Dev} {p : Nat} {g : Group} {m : PtpMsg}

theorem Dev.ptpPort_off (h : d.ptpOn p = false ∨ d.portUp p = false) : d.ptpPort p = none := if_neg (by obtain h | h := h <;> simp [h])

theorem Dev.ptpPort_on (hon : d.ptpOn p = true) (hup : d.portUp p = true) (hg : d.portGroup p = some g) : d.ptpPort p = some g := by
  rw [← hg]
  exact if_pos (by simp [hon, hup])

/-- With no frame dropped, a message is received. -/
theorem exec_ptpMessageRx {s : State} (h : s.dev.absent = []) (p : Fin 128) (m : PtpMsg) : exec (.ptpMessageRx p m) s = ok s (s.dev.ptpRx p m) := by
  show ok s (Dev.unlessDropped _ _ _) = _
  rw [Dev.unlessDropped, h]
  rfl

theorem Dev.ptpRx_off (h : d.ptpPort p = none) (m : PtpMsg) : d.ptpRx p m = d := by rw [Dev.ptpRx, h]

theorem Dev.ptpRx_on (h : d.ptpPort p = some g) (m : PtpMsg) :
    d.ptpRx p m = d.emit (.notice "PTP_RX" p (d.tb.stamp30 - (ptpConstants g).2 * 3) (b2n m.sync)) := by rw [Dev.ptpRx, h]

theorem Dev.ptpTx_off (h : d.ptpPort p = none) (m : PtpMsg) : d.ptpTx p m = d := by rw [Dev.ptpTx, h]

theorem Dev.ptpTx_on (h : d.ptpPort p = some g) (m : PtpMsg) : d.ptpTx p m =
    let stamp := d.tb.stamp30 + (ptpConstants g).1 * 3
    let d1 := d.emit (.notice "PTP_TX" p stamp (b2n m.sync))
    if m.sync && byteAt (d.tb.ptp.get [] p) 5 == 1 then d1.emit (.ptpSync p (ptpStamped m stamp) (m.via == .udp4)) else d1 := by
  rw [Dev.ptpTx, h]

end Ptp

/-! ## The TIME unit's descriptors (R473, R474) -/

/-- A field of PTP_PORT lies outside Table 15.4. -/
def badPtpPort (x : Desc) : Bool :=
  x.get 0x21 1 > 1 || x.get 0x22 1 > 127 || x.get 0x23 1 > 1 || x.get 0x24 1 > 2 || x.get 0x25 1 > 1 || !inRange (-7) 0 (toSigned 8 (x.get 0x26 1)) ||
    !inRange (-3) 1 (toSigned 8 (x.get 0x27 1)) || !inRange (-7) 0 (toSigned 8 (x.get 0x28 1)) || !inRange 2 10 (x.get 0x29 1 : Nat) ||
    !inRange (-10000000) 10000000 (toSigned 64 (x.get 0x30 8))

/-- PTP_PORT would enable a fifth port. -/
def Dev.fifthPort (d : Dev) (x : Desc) : Bool :=
  x.get 0x21 1 == 1 && !d.ptpOn (x.get 0x20 1) && 4 ≤ (d.tb.ptp.filter fun e => byteAt e.2 1 == 1).length

/-- A field of OUTPUTS lies outside Table 15.4. -/
def badOutputs (x : Desc) : Bool :=
  x.get 0x20 1 > 2 || x.get 0x21 1 > 1 || x.get 0x22 2 = 0 || x.get 0x24 1 > 2 || x.get 0x25 1 > 1 || !inRange (-1000000) 1000000 (toSigned 32 (x.get 0x28 4))

theorem inRange_iff (lo hi v : Int) : inRange lo hi v = true ↔ lo ≤ v ∧ v ≤ hi := by simp [inRange]

theorem badPtpPort_iff (x : Desc) : badPtpPort x = false ↔
    x.get 0x21 1 ≤ 1 ∧ x.get 0x22 1 ≤ 127 ∧ x.get 0x23 1 ≤ 1 ∧ x.get 0x24 1 ≤ 2 ∧ x.get 0x25 1 ≤ 1 ∧
      (-7 ≤ toSigned 8 (x.get 0x26 1) ∧ toSigned 8 (x.get 0x26 1) ≤ 0) ∧ (-3 ≤ toSigned 8 (x.get 0x27 1) ∧ toSigned 8 (x.get 0x27 1) ≤ 1) ∧
      (-7 ≤ toSigned 8 (x.get 0x28 1) ∧ toSigned 8 (x.get 0x28 1) ≤ 0) ∧ 2 ≤ x.get 0x29 1 ∧ x.get 0x29 1 ≤ 10 ∧
      (-10000000 ≤ toSigned 64 (x.get 0x30 8) ∧ toSigned 64 (x.get 0x30 8) ≤ 10000000) := by
  simp [badPtpPort, inRange_iff, and_assoc]

theorem badOutputs_iff (x : Desc) : badOutputs x = false ↔
    x.get 0x20 1 ≤ 2 ∧ x.get 0x21 1 ≤ 1 ∧ x.get 0x22 2 ≠ 0 ∧ x.get 0x24 1 ≤ 2 ∧ x.get 0x25 1 ≤ 1 ∧
      (-1000000 ≤ toSigned 32 (x.get 0x28 4) ∧ toSigned 32 (x.get 0x28 4) ≤ 1000000) := by
  simp [badOutputs, inRange_iff, and_assoc]

theorem Dev.fifthPort_iff (d : Dev) (x : Desc) : d.fifthPort x = true ↔
    x.get 0x21 1 = 1 ∧ d.ptpOn (x.get 0x20 1) = false ∧ 4 ≤ (d.tb.ptp.filter fun z => byteAt z.2 1 == 1).length := by
  simp [Dev.fifthPort, and_assoc]

/-- The outputs as the descriptor sets them: a pin disabled is low, and an edge check goes on only where PPS_IN stays enabled (R471). -/
def TimeBase.withOutputs (t : TimeBase) (x : Desc) : TimeBase :=
  let stay := t.ppsInOn && x.get 0x25 1 == 1
  let low := x.get 0x21 1 == 0
  { t with outs := x.bytes.drop 0x20, ppsEdge := if stay then t.ppsEdge else none, ppsGap := stay && t.ppsGap, ppsOut := t.ppsOut && !low
           ppsFall := if low then none else t.ppsFall, todSec := if x.get 0x24 1 = 0 then none else t.todSec }

section Descriptors
variable {e : Dev} {x : Desc}

theorem Dev.timePtpPort_bad (h : badPtpPort x = true) : e.timePtpPort x = e.complete x stBadDesc 0 := Dev.checked_fail (if_pos h)

theorem Dev.timePtpPort_full (h : badPtpPort x = false) (hf : e.fifthPort x = true) : e.timePtpPort x = e.complete x stCapacity 0 :=
  Dev.checked_fail ((if_neg (Bool.eq_false_iff.mp h)).trans (if_pos hf))

theorem Dev.timePtpPort_sets (h : badPtpPort x = false) (hf : e.fifthPort x = false) : e.timePtpPort x =
    ({ e with tb := { e.tb with ptp := e.tb.ptp.put [] (x.get 0x20 1) (x.bytes.drop 0x20) } } : Dev).complete x stOK 0 :=
  Dev.checked_run ((if_neg (Bool.eq_false_iff.mp h)).trans (if_neg (Bool.eq_false_iff.mp hf)))

theorem Dev.timeOutputs_bad (h : badOutputs x = true) : e.timeOutputs x = e.complete x stBadDesc 0 := Dev.checked_fail (if_pos h)

theorem Dev.timeOutputs_sets (h : badOutputs x = false) : e.timeOutputs x =
    ({ e with tb := e.tb.withOutputs x, out := if e.tb.ppsOut && x.get 0x21 1 == 0 then e.out ++ [.pin "PPS_OUT" false] else e.out } : Dev).complete x stOK 0 := by
  refine (Dev.checked_run (cs := [(badOutputs x, stBadDesc)]) (if_neg (Bool.eq_false_iff.mp h))).trans (congrArg (Dev.complete · x stOK 0) ?_)
  split
  · exact Dev.emit_of_link_zero _ rfl
  · rfl

end Descriptors

/-- Settles O50: each clause by the lemma of its operation; a sample is a step or a move of the integrator, and then a change of state. -/
theorem timeKeeping : Obligations.TimeKeeping := by
  unfold Obligations.TimeKeeping
  intro s x e v p m utc d t tbIs ended within
  refine ⟨fun hx => ?_, fun hx => ?_, fun h => ?_, fun h => ?_, fun h => ?_, fun z hz => ?_, fun k hk => ?_, ?_, fun h => ?_, fun h => ?_, fun h => ?_, fun h => ?_,
    fun k hk => ?_, ?_, fun h => ?_, fun g hon hup hg => ?_⟩
  · have run : exec .timePtpPort s = ok s (e.timePtpPort x) := congrArg (ok s) (hx.runUnit Dev.timePtpPort)
    intro q good full
    have hgood : badPtpPort x = false ↔ good := badPtpPort_iff x
    have hfull : e.fifthPort x = true ↔ full := e.fifthPort_iff x
    refine ⟨fun hbad => ?_, fun hg hf => ?_, fun hg hf => ?_⟩
    · exact run.trans (congrArg (ok s) (Dev.timePtpPort_bad (Bool.not_eq_false _ ▸ hgood.not.mpr hbad)))
    · exact run.trans (congrArg (ok s) (Dev.timePtpPort_full (hgood.mpr hg) (hfull.mpr hf)))
    · exact run.trans (congrArg (ok s) (Dev.timePtpPort_sets (hgood.mpr hg) (Bool.eq_false_iff.mpr (hfull.not.mpr hf))))
  · have run : exec .timeOutputs s = ok s (e.timeOutputs x) := congrArg (ok s) (hx.runUnit Dev.timeOutputs)
    intro good stay low tod t1 out1
    have hgood : badOutputs x = false ↔ good := badOutputs_iff x
    refine ⟨fun hbad => ?_, fun hg => ?_⟩
    · exact run.trans (congrArg (ok s) (Dev.timeOutputs_bad (Bool.not_eq_false _ ▸ hgood.not.mpr hbad)))
    · exact run.trans (congrArg (ok s) (Dev.timeOutputs_sets (hgood.mpr hg)))
  · exact congrArg (ok s) (Dev.tbOffsetHi_ignored h v)
  · exact congrArg (ok s) (Dev.tbOffsetHi_commits h v)
  · exact congrArg (ok s) (Dev.tbConsume_none h)
  · have run : exec .servoSample s = ok s (d.servoSample z) := congrArg (ok s) (Dev.tbConsume_some hz)
    intro t0 lost
    have unlocked (f : Dev) (ht : f.tb.servo = t.servo) (hf : f.flt = d.flt) : lost (f.enterServo 1) := by
      dsimp only [lost]
      split
      · next hs => exact Dev.enterServo_leaves (ht.trans hs) (by decide)
      · next hs => exact (Dev.enterServo_flt (ht ▸ hs) (by decide)).trans hf
    refine ⟨fun hfar => ?_, fun hnear => ?_⟩
    · obtain ⟨chg, htb⟩ := d.stepped_acquires z
      refine completes_ok (run.trans (congrArg (ok s) (Dev.servoSample_steps hfar))) ?_
      rw [htb]
      refine ⟨?_, rfl, rfl, rfl, rfl, ?_, rfl, rfl, unlocked _ rfl rfl⟩
      · exact d.stepped_total z
      · exact d.stepped_lag z
    · intro integ y fine stays goes
      have steers {st n : Nat} (ha : t.afterSample z = (st, n)) : exec .servoSample s = ok s ((d.steered z n).enterServo st) :=
        run.trans (congrArg (ok s) (Dev.servoSample_steers hnear ha))
      have keeps {n : Nat} (ha : t.afterSample z = (t.servo, n)) : stays n := (steers ha).trans (congrArg (ok s) (Dev.enterServo_same rfl))
      have enters {st : Nat} {P : Dev → Prop} (hst : t.servo ≠ st) (ha : t.afterSample z = (st, 0)) (hP : P ((d.steered z 0).enterServo st)) : goes st P :=
        completes_ok (steers ha) ⟨Dev.enterServo_tb hst, hP⟩
      refine ⟨fun hs hf hr => ?_, fun hs hf hr => ?_, fun hs hf => ?_, fun hs hf => ?_, fun hs hf => ?_, fun hs => ?_⟩
      · exact keeps (hs ▸ TimeBase.afterSample_acquiring hs hf hr)
      · exact enters (by omega) (TimeBase.afterSample_locks hs hf hr) (Dev.enterServo_locked (d := d.steered z 0) (show t.servo ≠ 2 by omega))
      · exact keeps (hs ▸ TimeBase.afterSample_coarse hs hf)
      · exact keeps (hs ▸ TimeBase.afterSample_locked hs hf)
      · exact enters (by omega) (TimeBase.afterSample_unlocks hs hf) (unlocked _ rfl rfl)
      · exact enters (by omega) (TimeBase.afterSample_starts hs) (unlocked _ rfl rfl)
  · refine ⟨fun h => ?_, fun hdue hs => ?_, fun hdue hs => ?_⟩
    · exact congrArg (ok s) (Dev.tbHoldover_not_due hk h)
    · have enters : d.holding.enterServo 3 = d.holding.inServo 3 := Dev.enterServo_quiet (show t.servo ≠ 3 by omega) (by decide) (show t.servo ≠ 2 by omega)
      exact congrArg (ok s) ((Dev.tbHoldover_due hk hdue (.inl hs)).trans enters)
    · refine completes_ok (congrArg (ok s) (Dev.tbHoldover_due hk hdue (.inr hs))) ⟨Dev.enterServo_tb (show t.servo ≠ 3 by omega), ?_⟩
      exact Dev.enterServo_leaves (d := d.holding) hs (by decide)
  · exact congrArg (ok s) (Dev.emit_of_link_zero _ rfl)
  · exact congrArg (ok s) (Dev.tbCoarseSet_started h v)
  · exact congrArg (ok s) (Dev.tbCoarseSet_idle h v)
  · exact congrArg (ok s) (Dev.ppsInEdge_off h)
  · intro t1 off z t2
    have run := congrArg (ok s) (Dev.ppsInEdge_on h)
    refine ⟨fun hwhole => ?_, fun hfar hl => ?_⟩
    · rw [Dev.ppsChecked, if_neg (Nat.not_lt.mpr hwhole)] at run
      exact run
    · refine completes_ok run ⟨rfl, ?_⟩
      rw [Dev.ppsChecked, if_pos hfar]
      exact Dev.raise_status (by decide) hl
  · refine ⟨fun h => ?_, fun hdue hon hgap hl => ?_⟩
    · exact congrArg (ok s) (Dev.ppsGapCheck_not_due hk h)
    · exact completes_ok (congrArg (ok s) (Dev.ppsGapCheck_due hk hdue hon hgap)) ⟨(Dev.raise_frame _ _).2.1, Dev.raise_status (by decide) hl⟩
  · intro now t1
    refine ⟨fun h => ?_, fun h hoff => ?_, fun h hon => ?_, fun k hk h => ?_, fun k hk h => ?_, fun k hk hon h => ?_⟩
    · exact congrArg (ok s) (Dev.ppsOutEdge_early h)
    · exact congrArg (ok s) ((Dev.ppsOutEdge_second h).trans (if_neg (by rw [hoff]; decide)))
    · exact congrArg (ok s) ((Dev.ppsOutEdge_second h).trans ((if_pos hon).trans (Dev.emit_of_link_zero _ rfl)))
    · exact congrArg (ok s) ((Dev.ppsOutFall_eq hk).trans ((if_pos h).trans (Dev.emit_of_link_zero _ rfl)))
    · exact congrArg (ok s) ((Dev.ppsOutFall_eq hk).trans (if_neg (Nat.not_le.mpr h)))
    · exact congrArg (ok s) ((Dev.todStart_due hk hon h utc).trans (Dev.emit_of_link_zero _ rfl))
  · have hp := Dev.ptpPort_off h
    exact ⟨fun ha => (exec_ptpMessageRx ha p m).trans (congrArg (ok s) (Dev.ptpRx_off hp m)), congrArg (ok s) (Dev.ptpTx_off hp m)⟩
  · have hp := Dev.ptpPort_on hon hup hg
    intro sync stamp one
    refine ⟨fun ha => ?_, fun h => ?_, fun h => ?_⟩
    · exact (exec_ptpMessageRx ha p m).trans (congrArg (ok s) (Dev.ptpRx_on hp m))
    · exact congrArg (ok s) ((Dev.ptpTx_on hp m).trans (if_neg (Bool.eq_false_iff.mp h)))
    · exact congrArg (ok s) ((Dev.ptpTx_on hp m).trans (if_pos h))

end Sys2Proof.Machine

/-! The Praline island's exchange (chapter 22): its mailbox messages, the lines that its status drives and the replies of PRL_UART, then O58. -/

namespace Sys2Proof.Machine

/-! ## What the device has driven out stays in its output -/

section Output
variable {l : List OutEv} {d : Dev}

theorem Dev.emit_keeps_out (h : l <+: d.out) (e : OutEv) : l <+: (d.emit e).out := by
  unfold Dev.emit
  split
  · exact h.trans ⟨_, rfl⟩
  · exact h

theorem Dev.serveLink_keeps_out (h : l <+: d.out) (link : Nat) : l <+: (d.serveLink link).out := by
  unfold Dev.serveLink
  split
  · exact h.trans ⟨_, rfl⟩
  · exact h

theorem Dev.raiseVector_keeps_out (h : l <+: d.out) (fn vec : Nat) : l <+: (d.raiseVector fn vec).out := by
  obtain ⟨_, _, raised⟩ := d.raiseVector_eq fn vec
  rw [raised]
  exact h.trans ⟨_, rfl⟩

theorem Dev.cascPut_keeps_out (h : l <+: d.out) (ringB : Bool) (fr : CascFrame) : l <+: (d.cascPut ringB fr).out := by
  unfold Dev.cascPut
  split
  · exact h
  · split
    · exact Dev.emit_keeps_out h _
    · split
      · exact Dev.emit_keeps_out h _
      · exact h

theorem Dev.broadcast_keeps_out (h : l <+: d.out) : l <+: d.broadcast.out := Dev.cascPut_keeps_out (Dev.cascPut_keeps_out h _ _) _ _

theorem Dev.updateBypass_keeps_out (h : l <+: d.out) : l <+: d.updateBypass.out := by
  unfold Dev.updateBypass
  dsimp only
  split
  · exact h
  · split
    · exact h
    · refine Dev.emit_keeps_out (Dev.emit_keeps_out ?_ _) _
      exact h

theorem Dev.haltActions_keeps_out (h : l <+: d.out) : l <+: d.haltActions.out := by
  have discarded : l <+: (d.discardQueues fun _ => true).out := by simpa using h
  have switched := Dev.updateBypass_keeps_out (Dev.serveLink_keeps_out (Dev.serveLink_keeps_out discarded 1) 2)
  unfold Dev.haltActions
  dsimp only
  split
  · exact Dev.emit_keeps_out switched _
  · exact switched

theorem Dev.latch_keeps_out (h : l <+: d.out) (srcs : BitVec 64) : l <+: (d.latch srcs).out := by
  have told {e : Dev} (he : l <+: e.out) (c : Prop) [Decidable c] : l <+: (if c then e else (e.raiseVector 0 1).broadcast).out := by
    split
    · exact he
    · exact Dev.broadcast_keeps_out (Dev.raiseVector_keeps_out he 0 1)
  unfold Dev.latch
  dsimp only
  split
  · exact h
  · split
    · refine Dev.haltActions_keeps_out (told ?_ _)
      exact h
    · refine told ?_ _
      exact h

/-- A line that moves takes nothing out of the output. -/
theorem Dev.setLine_keeps_out (h : l <+: d.out) (i : Nat) (b : Bool) : l <+: (d.setLine i b).out := by
  unfold Dev.setLine
  split
  · split
    · exact h
    · refine Dev.latch_keeps_out ?_ _
      exact h
  · exact h

end Output

/-! ## Lines that follow a level -/

/-- A line reads the level that it was driven to. -/
theorem Dev.setLine_level (d : Dev) {i : Nat} (b : Bool) (hi : i < 64) (hA : i ≠ 45) (hB : i ≠ 46) : (d.setLine i b).flt.live.getLsbD i = b := by
  cases b with
  | true => exact d.setLine_high hi hA hB
  | false => exact d.setLine_low i

/-- Every other line but those of the ring's breaks stays. -/
theorem Dev.setLine_other (d : Dev) {i k : Nat} (b : Bool) (h : i ≠ k) (hA : i ≠ 45) (hB : i ≠ 46) :
    (d.setLine k b).flt.live.getLsbD i = d.flt.live.getLsbD i := by
  unfold Dev.setLine
  split
  · split
    · rfl
    · rw [Dev.raise_live _ _ hA hB, BitVec.getLsbD_or, one_shiftLeft_getLsbD_of_ne h, Bool.or_false]
  · rw [BitVec.getLsbD_and, BitVec.getLsbD_not, one_shiftLeft_getLsbD_of_ne h]
    by_cases hi : i < 64
    · simp [hi]
    · simp [BitVec.getLsbD_of_ge d.flt.live i (Nat.not_lt.mp hi)]

/-! ## What the hub makes of a status (R608) -/

section StatusLines
variable (d : Dev) (st : Nat)

theorem Dev.statusLines_prl : (d.statusLines st).prl = d.prl := by simp [Dev.statusLines]

theorem Dev.statusLines_keeps_out : d.out <+: (d.statusLines st).out := Dev.setLine_keeps_out (Dev.setLine_keeps_out ⟨[], List.append_nil _⟩ _ _) _ _

/-- PRALINE_LINK follows bits 1:0. -/
theorem Dev.statusLines_link : (d.statusLines st).flt.live.getLsbD 51 = true ↔ bits st 0 2 ≠ 0 := by
  rw [Dev.statusLines, Dev.setLine_other _ _ (by decide) (by decide) (by decide), Dev.setLine_level _ _ (by decide) (by decide) (by decide), bne_iff_ne]

/-- PRALINE_STATUS follows bits 15:2. -/
theorem Dev.statusLines_praline : (d.statusLines st).flt.live.getLsbD 50 = true ↔ bits st 2 14 ≠ 0 := by
  rw [Dev.statusLines, Dev.setLine_level _ _ (by decide) (by decide) (by decide), bne_iff_ne]

end StatusLines

/-! ## The log (R615, R616, R619) -/

theorem recHeader_length (len typ seq counter mt : Nat) : (recHeader len typ seq counter mt).length = 32 := by simp [recHeader]

theorem fit_eq_self {n : Nat} {bs : List Byte} (h : bs.length = n) : fit n bs = bs := by
  rw [fit, List.take_append_of_le_length h.ge, List.take_of_length_le h.le]

/-- The second of two parts that were written in a row is read back behind the first. -/
theorem readBytes_writeBytes_append (m : Tab Byte) (a : Nat) (xs ys : List Byte) :
    readBytes (writeBytes m a (xs ++ ys)) (a + xs.length) ys.length = ys := by
  refine List.ext_getElem (readBytes_length _ _ _) fun i hi hy => ?_
  have inside : xs.length + i < (xs ++ ys).length := by simpa using hy
  simp only [readBytes_eq, List.getElem_map, List.getElem_range]
  rw [Nat.add_assoc, writeBytes_inside _ _ _ _ inside, List.getElem_append_right (Nat.le_add_right _ _)]
  simp only [Nat.add_sub_cancel_left]

/-- A release frees bytes of the ring and takes none. -/
theorem Prl.freeBytes_le_of_released_le (p : Prl) {r : Nat} (h : p.released ≤ r) : p.freeBytes ≤ ({ p with released := r } : Prl).freeBytes := by
  have bytes (l : List (Nat × Nat × Nat)) : l.foldl (fun n e => n + e.2.2) 0 = (l.map fun e => e.2.2).sum := by
    rw [List.sum_eq_foldl, List.foldl_map]
  have held : (p.recs.filter fun e => r < e.1).Sublist (p.recs.filter fun e => p.released < e.1) :=
    List.monotone_filter_right _ fun e he => decide_eq_true (h.trans_lt (of_decide_eq_true he))
  simp only [Prl.freeBytes, bytes]
  exact Nat.sub_le_sub_left ((held.map _).sum_le_sum fun _ _ => Nat.zero_le _) _

theorem Prl.writePad_released (p : Prl) (n : Nat) : (p.writePad n).released = p.released := by
  unfold Prl.writePad
  dsimp only
  split <;> rfl

/-- Writing a record releases none. -/
theorem Prl.write_released (p : Prl) (typ : Nat) (body : List Byte) : (p.write typ body).released = p.released := by
  unfold Prl.write
  dsimp only
  split
  · rfl
  · exact p.writePad_released _

/-- A record with room before the end of the ring and in the log goes in as one, with no PAD. -/
theorem Prl.write_fits {p : Prl} {body : List Byte} (typ : Nat) (hs : p.logStopped = false) (hend : p.wptr + recLen body ≤ logRing) (hroom : recLen body ≤ p.freeBytes) :
    p.write typ body =
      let q := p.putRec (recHeader (recLen body) typ p.head p.counter p.hubNow ++ fit (recLen body - 32) body)
      { q with logFull := q.logFull || q.freeBytes < logReserve } := by
  have noPad : p.padLen (recLen body) = 0 := if_neg (Nat.not_lt.mpr hend)
  have takes : p.takes (recLen body) = true := by simp [Prl.takes, hs, noPad, hroom]
  simp only [Prl.write, takes, Prl.writePad, noPad, Bool.not_true, Bool.false_eq_true, reduceIte]

/-- With room, a record of a whole number of 16-byte units takes the next sequence number and its body lies behind its header. -/
theorem Prl.write_record {p : Prl} {body : List Byte} (typ : Nat) (hs : p.logStopped = false) (h16 : 16 ∣ body.length)
    (hend : p.wptr + (32 + body.length) ≤ logRing) (hroom : 32 + body.length ≤ p.freeBytes) :
    (p.write typ body).head = p.head + 1 ∧ readBytes (p.write typ body).ring (p.wptr + 32) body.length = body := by
  have len : recLen body = 32 + body.length := by unfold recLen; omega
  rw [Prl.write_fits typ hs (len ▸ hend) (len ▸ hroom), fit_eq_self (by omega)]
  refine ⟨rfl, ?_⟩
  rw [← recHeader_length (recLen body) typ p.head p.counter p.hubNow]
  exact readBytes_writeBytes_append _ _ _ _

/-! ## Mailbox messages (R608, R615, R619, R621) -/

section Mailbox
variable {p : Prl} {msg : List Byte}

theorem Prl.timeRx_takes (hp : p.powered = true) (hm : byteAt msg 0 = 1) : p.timeRx msg = { p with hubTime := some (fieldLE msg 8 8, p.ns) } :=
  if_pos (by simp [hp, hm])

theorem Prl.timeRx_discards (h : p.powered = false ∨ byteAt msg 0 ≠ 1) : p.timeRx msg = p :=
  if_neg (by obtain h | h := h <;> simp [h])

theorem Prl.timeLapse_eq {mt t0 : Nat} (h : p.hubTime = some (mt, t0)) : p.timeLapse = if t0 + 2000000000 ≤ p.ns then { p with hubTime := none } else p := by
  rw [Prl.timeLapse, h]

/-- The island accepts a RELEASE: it lies below the latest signed seal and above the last one (R619). -/
def Prl.acceptsRelease (p : Prl) (msg : List Byte) : Bool :=
  p.powered && byteAt msg 0 == 2 && decide (fieldLE msg 8 8 < p.sealSeq) && decide (p.released < fieldLE msg 8 8)

theorem Prl.acceptsRelease_iff : p.acceptsRelease msg = true ↔
    p.powered = true ∧ byteAt msg 0 = 2 ∧ fieldLE msg 8 8 < p.sealSeq ∧ p.released < fieldLE msg 8 8 := by
  simp [Prl.acceptsRelease, and_assoc]

theorem Prl.releaseRx_ignored (h : p.acceptsRelease msg = false) : p.releaseRx msg = p := if_neg (Bool.eq_false_iff.mp h)

theorem Prl.releaseRx_accepted (h : p.acceptsRelease msg = true) :
    p.releaseRx msg = ({ p with released := fieldLE msg 8 8 } : Prl).write 8 (toLE 8 (fieldLE msg 8 8) ++ zeros 8) := if_pos h

/-- An accepted RELEASE is recorded where the log has room for it. -/
theorem Prl.releaseRx_record (h : p.acceptsRelease msg = true) (hs : p.logStopped = false) (hend : p.wptr + 48 ≤ logRing) (hroom : 48 ≤ p.freeBytes) :
    (p.releaseRx msg).head = p.head + 1 ∧ readBytes (p.releaseRx msg).ring (p.wptr + 32) 16 = toLE 8 (fieldLE msg 8 8) ++ zeros 8 := by
  obtain ⟨-, -, -, newer⟩ := Prl.acceptsRelease_iff.mp h
  have len : (toLE 8 (fieldLE msg 8 8) ++ zeros 8).length = 16 := by simp [zeros]
  rw [Prl.releaseRx_accepted h, ← len]
  refine Prl.write_record (p := { p with released := fieldLE msg 8 8 }) 8 hs (by simp [len]) (by rw [len]; exact hend) ?_
  rw [len]
  exact hroom.trans (p.freeBytes_le_of_released_le newer.le)

end Mailbox

section Hub
variable {d : Dev}

/-- A TIME message is due and the hub runs (R621). -/
def Dev.sendsTime (d : Dev) : Bool := d.prl.hubSec < d.tb.sec && d.ctl.pwrOk && !d.ctl.booting && !d.ctl.bootFailed

theorem Dev.sendsTime_iff : d.sendsTime = true ↔ d.prl.hubSec < d.tb.sec ∧ d.ctl.pwrOk = true ∧ d.ctl.booting = false ∧ d.ctl.bootFailed = false := by
  simp [Dev.sendsTime, and_assoc]

theorem Dev.hubTimeSend_idle (h : d.sendsTime = false) : d.hubTimeSend = d := if_neg (Bool.eq_false_iff.mp h)

theorem Dev.hubTimeSend_sends (h : d.sendsTime = true) : d.hubTimeSend =
    { d with prl := { d.prl with hubSec := d.tb.sec }, out := d.out ++ [.mailbox false (toLE 1 1 ++ zeros 7 ++ toLE 8 d.media ++ zeros 48)] } := if_pos h

/-- A status message is due: the word has changed, or a second has ended (R608). -/
def Prl.sendsStatus (p : Prl) : Bool := p.powered && (p.status != p.sentStat || p.sentSec < p.secDone)

theorem Prl.sendsStatus_iff {p : Prl} : p.sendsStatus = true ↔ p.powered = true ∧ (p.status ≠ p.sentStat ∨ p.sentSec < p.secDone) := by
  simp [Prl.sendsStatus]

/-- The device whose island has sent its status. -/
def Dev.statusSent (d : Dev) : Dev :=
  { d with prl := { d.prl with sentStat := d.prl.status, sentSec := d.prl.secDone }, out := d.out ++ [.mailbox true (toLE 4 d.prl.status)] }

/-- The device whose hub has received it. -/
def Dev.statusHeard (d : Dev) : Dev :=
  { d.statusSent with prl := { d.statusSent.prl with hubStat := d.prl.status, hubStatAt := d.ctl.ticks } }

theorem Dev.prlStatus_idle (h : d.prl.sendsStatus = false) : d.prlStatus = d := if_neg (Bool.eq_false_iff.mp h)

theorem Dev.prlStatus_sends (h : d.prl.sendsStatus = true) : d.prlStatus = if d.ctl.pwrOk then d.statusHeard.statusLines d.prl.status else d.statusSent :=
  if_pos h

theorem Dev.statusHeard_out_mem (d : Dev) (st : Nat) : OutEv.mailbox true (toLE 4 d.prl.status) ∈ (d.statusHeard.statusLines st).out :=
  (d.statusHeard.statusLines_keeps_out st).subset (List.mem_append_right _ (List.mem_singleton_self _))

theorem Dev.prlLink_heard (h : d.ctl.pwrOk = false ∨ d.ctl.ticks < d.prl.hubStatAt + 9000000000) : d.prlLink = d :=
  if_neg (by obtain h | h := h <;> simp [h])

theorem Dev.prlLink_silent (hon : d.ctl.pwrOk = true) (h : d.prl.hubStatAt + 9000000000 ≤ d.ctl.ticks) : d.prlLink = d.setLine 51 true :=
  if_pos (by simp [hon, h])

end Hub

/-! ## PRL_UART (R622, R623) -/

section Uart
variable {d : Dev}

theorem Dev.uart_unpowered (h : d.prl.powered = false) (q : Prl) (reply : List Byte) : d.uart q reply = d := if_neg (by simp [h])

theorem Dev.uart_powered (h : d.prl.powered = true) (q : Prl) (reply : List Byte) : d.uart q reply = { d with prl := q, out := d.out ++ [.uart reply] } :=
  if_pos h

theorem Dev.uartStage_bad {good : Bool} (h : good = false) (c : Nat × Nat × Nat) : d.uartStage good c = d.uart d.prl (uartEnd 0x04) := if_pos (by simp [h])

theorem Dev.uartStage_sealed {good : Bool} (h : good = true) (hs : d.prl.sealHigh = false) (c : Nat × Nat × Nat) :
    d.uartStage good c = d.uart d.prl (uartEnd 0x0D) := (if_neg (by simp [h])).trans (if_pos (by simp [hs]))

theorem Dev.uartStage_open {good : Bool} (h : good = true) (hs : d.prl.sealHigh = true) (c : Nat × Nat × Nat) :
    d.uartStage good c = d.uart { d.prl with staged := d.prl.staged ++ [c] } (uartEnd 0) := (if_neg (by simp [h])).trans (if_neg (by simp [hs]))

/-- Without power no staging command is answered. -/
theorem Dev.uartStage_unpowered (h : d.prl.powered = false) (good : Bool) (c : Nat × Nat × Nat) : d.uartStage good c = d := by
  unfold Dev.uartStage
  split
  · exact Dev.uart_unpowered h _ _
  · split <;> exact Dev.uart_unpowered h _ _

theorem Dev.uartCommit_sealed (h : d.prl.sealHigh = false) : d.uartCommit = d.uart d.prl (uartEnd 0x0D) := if_pos (by simp [h])

theorem Dev.uartCommit_open (h : d.prl.sealHigh = true) :
    d.uartCommit = d.uart { d.prl with committed := d.prl.committed ++ d.prl.staged, staged := [] } (uartEnd 0) := if_neg (by simp [h])

theorem Dev.uartCommit_unpowered (h : d.prl.powered = false) : d.uartCommit = d := by
  unfold Dev.uartCommit
  split <;> exact Dev.uart_unpowered h _ _

theorem Dev.uartRead_bad_count {first n : Nat} (h : n = 0 ∨ 256 < n) : d.uartRead first n = d.uart d.prl (uartEnd 0x04) :=
  congrArg (d.uart d.prl) (if_pos (by obtain h | h := h <;> simp [h]))

theorem Dev.uartRead_gone {first : Nat} (h : d.prl.record first = none) : d.uartRead first 1 = d.uart d.prl (uartEnd 0x04) := by
  simp [Dev.uartRead, h, stBadDesc]

theorem Dev.uartRead_held {first : Nat} {r : List Byte} (h : d.prl.record first = some r) :
    d.uartRead first 1 = d.uart d.prl (uartLine (hexBytes r) ++ uartEnd 0) := by
  simp [Dev.uartRead, h, stOK]

end Uart

/-- Settles O58: each clause by the lemma of its operation; the RELEASE record by what the log does with room, the status by the lines that it drives, the commands of PRL_UART by their
one reply (`answers`, `staged`). -/
theorem pralineExchange : Obligations.PralineExchange := by
  unfold Obligations.PralineExchange
  intro s msg first n flow rate sec k w d p now prlIs same replies uart stages
  have island {i : Instr} {f : Prl → Prl} {q : Prl} (run : exec i s = ok s (d.onPrl f)) (hf : f p = q) : prlIs i q :=
    run.trans (congrArg (ok s ∘ fun q => { d with prl := q }) hf)
  refine ⟨fun hp hm => ?_, fun h => ?_, fun mt t0 ht => ⟨fun h => ?_, fun h => ?_⟩, ?_, ?_, ?_, fun h => ?_, fun hon h => ?_, fun hp => ?_, fun hp => ?_⟩
  · exact island rfl (Prl.timeRx_takes hp hm)
  · exact island rfl (Prl.timeRx_discards h)
  · exact island rfl ((Prl.timeLapse_eq ht).trans (if_neg (Nat.not_le.mpr h)))
  · exact island rfl ((Prl.timeLapse_eq ht).trans (if_pos h))
  · intro r takes
    have htakes : p.acceptsRelease msg = true ↔ takes := Prl.acceptsRelease_iff
    refine ⟨fun h => ?_, fun h => ?_⟩
    · exact island rfl (Prl.releaseRx_ignored (Bool.eq_false_iff.mpr (htakes.not.mpr h)))
    · refine completes_ok (d := { d with prl := p.releaseRx msg }) rfl ⟨?_, rfl, Prl.releaseRx_record (htakes.mpr h)⟩
      dsimp only
      rw [Prl.releaseRx_accepted (htakes.mpr h), Prl.write_released]
  · intro sends
    have hsends : d.sendsTime = true ↔ sends := Dev.sendsTime_iff
    exact ⟨fun h => congrArg (ok s) (Dev.hubTimeSend_idle (Bool.eq_false_iff.mpr (hsends.not.mpr h))), fun h => congrArg (ok s) (Dev.hubTimeSend_sends (hsends.mpr h))⟩
  · intro changed st sent
    have hchanged : p.sendsStatus = true ↔ changed := Prl.sendsStatus_iff
    refine ⟨fun h => ?_, fun h hoff => ?_, fun h hon => ?_⟩
    · exact congrArg (ok s) (Dev.prlStatus_idle (Bool.eq_false_iff.mpr (hchanged.not.mpr h)))
    · exact congrArg (ok s) ((Dev.prlStatus_sends (hchanged.mpr h)).trans (if_neg (Bool.eq_false_iff.mp hoff)))
    · refine completes_ok (congrArg (ok s) ((Dev.prlStatus_sends (hchanged.mpr h)).trans (if_pos hon))) ⟨?_, ?_, ?_, ?_⟩
      · exact Dev.statusLines_prl _ _
      · exact d.statusHeard_out_mem _
      · exact Dev.statusLines_link _ _
      · exact Dev.statusLines_praline _ _
  · exact congrArg (ok s) (Dev.prlLink_heard h)
  · refine completes_ok (congrArg (ok s) (Dev.prlLink_silent hon h)) ⟨?_, ?_⟩
    · exact Dev.setLine_high _ (by decide) (by decide) (by decide)
    · simp [p, d]
  · have silent (q : Prl) (reply : List Byte) : ok s (d.uart q reply) = ok s d := congrArg (ok s) (Dev.uart_unpowered hp q reply)
    have unstaged (good : Bool) (c : Nat × Nat × Nat) : ok s (d.uartStage good c) = ok s d := congrArg (ok s) (Dev.uartStage_unpowered hp good c)
    simp only [uart, List.forall_mem_cons]
    exact ⟨silent _ _, silent _ _, silent _ _, silent _ _, unstaged _ _, unstaged _ _, unstaged _ _, congrArg (ok s) (Dev.uartCommit_unpowered hp), silent _ _, by simp⟩
  · have answers {i : Instr} {q : Prl} {bs : List Byte} {e : Dev} (run : exec i s = ok s e) (he : e = d.uart q bs) : replies i q bs :=
      run.trans (congrArg (ok s) (he.trans (Dev.uart_powered hp q bs)))
    have staged {i : Instr} {g : Bool} {good : Prop} {c : Nat × Nat × Nat} (run : exec i s = ok s (d.uartStage g c)) (hg : g = true ↔ good) : stages i good c :=
      ⟨fun h => answers run (Dev.uartStage_bad (Bool.eq_false_iff.mpr (hg.not.mpr h)) c), fun h hs => answers run (Dev.uartStage_sealed (hg.mpr h) hs c),
        fun h hs => answers run (Dev.uartStage_open (hg.mpr h) hs c)⟩
    refine ⟨answers rfl rfl, answers rfl rfl, answers rfl rfl, fun h => ?_, fun h => ?_, fun r h => ?_, ?_, ?_, ?_, ?_, fun h => ?_, fun h => ?_, answers rfl rfl⟩
    · exact answers rfl (Dev.uartRead_bad_count h)
    · exact answers rfl (Dev.uartRead_gone h)
    · exact answers rfl (Dev.uartRead_held h)
    · exact staged rfl decide_eq_true_iff
    · exact staged rfl (by simp [and_assoc])
    · exact staged rfl (by simp [and_assoc])
    · exact staged rfl (by simp)
    · exact answers rfl (Dev.uartCommit_sealed h)
    · exact answers rfl (Dev.uartCommit_open h)

end Sys2Proof.Machine

/-! The whole machine: every command ends in `ok` with a sound device, or in the one fault of a malformed operand; then O1 to O5. -/

namespace Sys2Proof.Machine

/-! ## What a command answers -/

theorem sound_of_ok {s t : State} {d : Dev} (h : ok s d = .next t) (hd : d.Sound) : t.dev.Sound := by
  cases h
  exact hd

/-- A command answers with the queue as it was, or it handed over a list of the wrong length. -/
theorem exec_ok_or_malformed (i : Instr) (s : State) : (∃ d, exec i s = ok s d) ∨ i.wf = false ∧ exec i s = .fault .malformedOperand := by
  cases i with
  | cadenceWindow counts =>
    by_cases hl : counts.length = 32
    · exact .inl ⟨_, if_pos hl⟩
    · exact .inr ⟨by simpa [Instr.wf] using hl, if_neg hl⟩
  | cadenceControlCycle temps avs =>
    by_cases hl : temps.length = 32
    · exact .inl ⟨_, if_pos hl⟩
    · exact .inr ⟨by simpa [Instr.wf] using hl, if_neg hl⟩
  | _ => exact .inl ⟨_, rfl⟩

/-- Each arm is one operation on the device, and each operation keeps the device sound. -/
theorem exec_sound {i : Instr} {s t : State} (hS : s.dev.Sound) (h : exec i s = .next t) : t.dev.Sound := by
  cases i with
  | coreWindowRead c off => exact sound_of_ok h (Dev.emit_sound _ _ (Dev.coreWindow_sound _ _ _ hS))
  | cadenceWindow counts =>
    by_cases hl : counts.length = 32
    · exact sound_of_ok ((if_pos hl).symm.trans h) (by simp [hS])
    · exact nomatch (if_neg hl).symm.trans h
  | cadenceControlCycle temps avs =>
    by_cases hl : temps.length = 32
    · exact sound_of_ok ((if_pos hl).symm.trans h) (by simp [hS])
    · exact nomatch (if_neg hl).symm.trans h
  | detectPoll l | bringupStagePass l | bringupStageTimeout l | bringupRetry l | laneLockLoss l => cases l <;> exact sound_of_ok h (by simp [hS])
  | laneReadmit x =>
    refine sound_of_ok h ?_
    cases x.lane <;> simp [hS]
  | _ => exact sound_of_ok h (by simp +contextual (maxDischargeDepth := 30) [hS])

/-- Settles O1: `step` matches on the queue. -/
theorem stepRunsTheFront : Obligations.StepRunsTheFront := by
  intro s c rest h
  rw [step, h]

/-- Settles O2: a meaning ends in `ok` or in a fault. -/
theorem execLeavesTheQueue : Obligations.ExecLeavesTheQueue := by
  intro i s t h
  obtain ⟨d, e⟩ | ⟨-, e⟩ := exec_ok_or_malformed i s
  · cases e.symm.trans h
    rfl
  · exact nomatch e.symm.trans h

/-- Settles O3: the one fault is that of a list of the wrong length. -/
theorem everyCommandRuns : Obligations.EveryCommandRuns := by
  intro i s hw
  obtain ⟨d, e⟩ | ⟨hf, -⟩ := exec_ok_or_malformed i s
  · exact ⟨_, e⟩
  · exact nomatch hf.symm.trans hw

/-- Settles O4: a step is a command, each of which keeps the device sound, or a tick. -/
theorem stepKeepsSound : Obligations.StepKeepsSound := by
  intro s t hS h
  unfold step at h
  split at h
  · cases h
    exact Dev.tick_sound _ hS
  · refine exec_sound ?_ h
    exact hS

/-! ## A tick -/

/-- The device when a tick has passed and no link has sent anything yet. -/
def Dev.timed (d : Dev) : Dev :=
  { d with ctl := { d.ctl with ticks := d.ctl.ticks + 1 }, tb := if d.tb.refTb && d.ctl.pwrOk then d.tb.advance else d.tb, prl := d.prl.advance }

theorem Dev.tick_eq (d : Dev) : d.tick = ((d.timed.serveLink 1).serveLink 2).serveTwin := rfl

theorem Dev.serveLink_eq (d : Dev) (l : Nat) : ∃ w o, d.serveLink l = { d with waiting := w, out := o } := by
  unfold Dev.serveLink
  split
  · exact ⟨_, _, rfl⟩
  · exact ⟨d.waiting, d.out, rfl⟩

theorem Dev.serveTwin_eq (d : Dev) : ∃ w o, d.serveTwin = { d with waiting := w, out := o } := by
  unfold Dev.serveTwin
  split
  · exact ⟨_, d.out, rfl⟩
  · exact d.serveLink_eq 3

/-- A tick changes the time, the crystal and what the links have sent. -/
theorem Dev.tick_timed (d : Dev) : ∃ w o, d.tick = { d.timed with waiting := w, out := o } := by
  obtain ⟨w1, o1, h1⟩ := d.timed.serveLink_eq 1
  obtain ⟨w2, o2, h2⟩ := (d.timed.serveLink 1).serveLink_eq 2
  obtain ⟨w3, o3, h3⟩ := ((d.timed.serveLink 1).serveLink 2).serveTwin_eq
  exact ⟨w3, o3, by rw [Dev.tick_eq, h3, h2, h1]⟩

theorem Dev.nextOn_none {d : Dev} {l : Nat} (h : ∀ e ∈ d.waiting, e.link ≠ l) : d.nextOn l = none := by
  have none_left : (d.waiting.filter fun e => e.link == l) = [] := List.filter_eq_nil_iff.mpr fun e he => by simpa using h e he
  rw [Dev.nextOn, none_left, List.foldl_nil]

theorem Dev.serveLink_idle {d : Dev} {l : Nat} (h : ∀ e ∈ d.waiting, e.link ≠ l) : d.serveLink l = d := by
  rw [Dev.serveLink, Dev.nextOn_none h]

theorem Dev.serveTwin_idle {d : Dev} (h : ∀ e ∈ d.waiting, e.link ≠ 3) : d.serveTwin = d := by
  unfold Dev.serveTwin
  split
  · rw [List.filter_eq_self.mpr fun e he => by simpa using h e he]
  · exact Dev.serveLink_idle h

/-- What waits for the links was waiting before. -/
theorem Dev.serveLink_waiting_mem {d : Dev} {l : Nat} {e : OutEv} (h : e ∈ (d.serveLink l).waiting) : e ∈ d.waiting := by
  unfold Dev.serveLink at h
  split at h
  · exact List.mem_of_mem_erase h
  · exact h

theorem OutEv.link_le (a : OutEv) : a.link ≤ 3 := by
  cases a <;> simp [OutEv.link]
  split <;> decide

/-- Where all that waits waits for one link, a tick serves that link alone. -/
theorem Dev.tick_one_link {d : Dev} {l : Nat} (hl : l = 1 ∨ l = 2 ∨ l = 3) (h : ∀ e ∈ d.waiting, e.link = l) (hup : l = 3 → d.twin.lanesUp ≠ []) :
    d.tick = d.timed.serveLink l := by
  have idle {k : Nat} (hk : k ≠ l) : ∀ e ∈ d.timed.waiting, e.link ≠ k := fun e he hek => hk (hek.symm.trans (h e he))
  have idle_after {k : Nat} (hk : k ≠ l) : ∀ e ∈ (d.timed.serveLink l).waiting, e.link ≠ k := fun e he => idle hk e (Dev.serveLink_waiting_mem he)
  rw [Dev.tick_eq]
  rcases hl with rfl | rfl | rfl
  · rw [Dev.serveLink_idle (idle_after (by decide)), Dev.serveTwin_idle (idle_after (by decide))]
  · rw [Dev.serveLink_idle (idle (by decide)), Dev.serveTwin_idle (idle_after (by decide))]
  · rw [Dev.serveLink_idle (idle (by decide)), Dev.serveLink_idle (idle (by decide)), Dev.serveTwin, if_neg (by simpa [Dev.timed] using hup rfl)]

theorem Dev.serveLink_single {d : Dev} {a : OutEv} (h : d.waiting = [a]) : d.serveLink a.link = { d with waiting := [], out := d.out ++ [a] } := by
  simp [Dev.serveLink, Dev.nextOn, h]

/-- Of two messages for a link the more urgent one goes, the earlier one where they are alike. -/
theorem Dev.serveLink_pair {d : Dev} {a b : OutEv} (h : d.waiting = [a, b]) (hl : b.link = a.link) (hab : a ≠ b) :
    d.serveLink a.link = if b.urgency < a.urgency then { d with waiting := [a], out := d.out ++ [b] } else { d with waiting := [b], out := d.out ++ [a] } := by
  have next : d.nextOn a.link = if b.urgency < a.urgency then some b else some a := by simp [Dev.nextOn, h, hl]
  unfold Dev.serveLink
  rw [next, h]
  by_cases hu : b.urgency < a.urgency
  · simp [hu, hab]
  · simp [hu]

/-- Twin messages that wait while no lane is in service are lost (R378). -/
theorem Dev.tick_twin_down {d : Dev} {a : OutEv} (h : d.waiting = [a]) (ha : a.link = 3) (hup : d.twin.lanesUp = []) : d.tick = { d.timed with waiting := [] } := by
  have idle {k : Nat} (hk : k ≠ 3) : ∀ e ∈ d.timed.waiting, e.link ≠ k := by
    intro e he hek
    rw [show d.timed.waiting = [a] from h, List.mem_singleton] at he
    exact hk (by rw [← hek, he, ha])
  rw [Dev.tick_eq, Dev.serveLink_idle (idle (by decide)), Dev.serveLink_idle (idle (by decide)), Dev.serveTwin, if_pos (by simp [Dev.timed, hup])]
  simp [show d.timed.waiting = [a] from h, ha]

theorem TimeBase.total_setTotal_mod (t : TimeBase) (v : Nat) : (t.setTotal v).total = v % (2 ^ 48 * 1000000000 * 2 ^ 32) := by
  simp only [TimeBase.total, TimeBase.setTotal]
  omega

theorem TimeBase.advance_total (t : TimeBase) : t.advance.total = (t.total + t.step) % (2 ^ 48 * 1000000000 * 2 ^ 32) := by
  rw [← t.total_setTotal_mod]
  simp only [TimeBase.total, TimeBase.advance]

/-- A tick of the counter changes nothing of the time base but the counter and the lag. -/
theorem TimeBase.advance_rest (t : TimeBase) :
    { t.advance with sec := 0, ns := 0, frac := 0, lag := 0 } = { t with sec := 0, ns := 0, frac := 0, lag := 0 } := by
  cases t
  rfl

theorem convergeLag_le (lag : Int) (inc : Nat) : (convergeLag lag inc).natAbs ≤ lag.natAbs := by
  simp only [convergeLag]
  split
  · omega
  · split <;> omega

/-! ## The state after reset -/

theorem Dev.reset_sound : Dev.reset.Sound := by
  refine ⟨Tab.wf_nil 0, Tab.wf_nil 0, ?_, by decide⟩
  intro p hp
  rw [List.mem_singleton.mp hp]
  decide

theorem Dev.reset_memByte (a : Nat) : Dev.reset.memByte a = 0 := by
  simp [Dev.memByte, Dev.reset, Tab.get, baseByte]

theorem Dev.reset_window {k : Nat} (h : 0 < k) : Dev.reset.window k = {} := by
  simp [Dev.window, Dev.reset, Tab.get, Nat.ne_of_lt h]

theorem Dev.readReg_block {d : Dev} {a v : Nat} (h : a % 4 = 0 ∧ a < 0x2000000 ∧ d.readBlock a = v) :
    d.readReg a = (v, if a = 0x200000 then d.tbReadNow else d) := by
  obtain ⟨hm, hlt, rfl⟩ := h
  have ha : a / 4 * 4 = a := by omega
  simp only [Dev.readReg, ha, if_neg (Nat.not_le.mpr hlt)]

/-- The registers of a ring's slice read as those of a ring at its reset state. -/
theorem Dev.reset_readSlice (f : Nat) :
    Dev.reset.readSlice .pf f 0x10 = 0x44 ∧ Dev.reset.readSlice .pf f 0x14 = 0 ∧ Dev.reset.readSlice .pf f 0x28 = 0 := by
  have hr : Dev.reset.ring f = {} := rfl
  simp [Dev.readSlice, hr, Dev.reaches]
  decide

theorem Dev.tick_tb (d : Dev) : d.tick.tb = if d.tb.refTb && d.ctl.pwrOk then d.tb.advance else d.tb := by
  obtain ⟨w, o, h⟩ := d.tick_timed
  rw [h]
  rfl

/-- Settles O5: the reset state by evaluation, a tick by the links that it serves. -/
theorem afterReset : Obligations.AfterReset := by
  refine ⟨⟨Dev.reset_sound, rfl, fun p hp => Dev.readReg_block ?_, fun f _ => Dev.reset_readSlice f, fun t _ => ⟨rfl, rfl⟩, rfl,
    fun k hk => congrArg Window.len (Dev.reset_window hk), rfl, rfl, rfl, Dev.reset_memByte⟩, fun s hp => ⟨s.dev.tick, by rw [step, hp], ?_, ?_, ?_, ?_, ?_, ?_, ?_⟩⟩
  · revert p
    set_option maxRecDepth 2000 in
    decide
  · obtain ⟨w, o, h⟩ := s.dev.tick_timed
    rw [h]
    rfl
  · intro h
    rw [Dev.tick_tb, if_neg (by rcases h with h | h <;> simp [h])]
  · intro href hpwr
    rw [Dev.tick_tb, if_pos (by simp [href, hpwr])]
    exact ⟨s.dev.tb.advance_total, s.dev.tb.advance_rest, convergeLag_le _ _⟩
  · intro hw
    rw [Dev.tick_one_link (.inl rfl) (by simp [hw]) (by simp), Dev.serveLink_idle (by simp [Dev.timed, hw])]
    exact ⟨hw, rfl⟩
  · intro a hw ha
    have hl : a.link = 1 ∨ a.link = 2 ∨ a.link = 3 := by have := a.link_le; omega
    by_cases hdown : a.link = 3 ∧ s.dev.twin.lanesUp = []
    · rw [Dev.tick_twin_down hw hdown.1 hdown.2, if_pos hdown]
      exact ⟨rfl, rfl⟩
    · rw [Dev.tick_one_link hl (by simp [hw]) (fun h3 hup => hdown ⟨h3, hup⟩), Dev.serveLink_single (show s.dev.timed.waiting = [a] from hw), if_neg hdown]
      exact ⟨rfl, rfl⟩
  · intro a b hw ha hb hup hab
    have hl : a.link = 1 ∨ a.link = 2 ∨ a.link = 3 := by have := a.link_le; omega
    rw [Dev.tick_one_link hl (by simp [hw, hb]) hup, Dev.serveLink_pair (show s.dev.timed.waiting = [a, b] from hw) hb hab]
    exact ⟨fun hu => by rw [if_pos hu]; exact ⟨rfl, rfl⟩, fun hu => by rw [if_neg (Nat.not_lt.mpr hu)]; exact ⟨rfl, rfl⟩⟩
  · obtain ⟨w, o, h⟩ := s.dev.tick_timed
    rw [h]
    rfl

end Sys2Proof.Machine

/-! Instructions on registers (chapter 4): the arithmetic of words as numbers, the instructions that write one register, branches and jumps; then O6, O7, O8 and O13. -/

namespace Sys2Proof.Machine

/-! ## Words as numbers (R145, R146) -/

section Words
variable (a b : DWord)

theorem sub_eq_ofInt : a - b = BitVec.ofInt 64 (a.toInt - b.toInt) := by
  rw [sub_eq_add_neg, Int.sub_eq_add_neg, BitVec.ofInt_add, BitVec.ofInt_neg, BitVec.ofInt_toInt, BitVec.ofInt_toInt]

theorem shiftLeft_eq_ofNat (n : Nat) : a <<< n = BitVec.ofNat 64 (a.toNat * 2 ^ n) :=
  BitVec.eq_of_toNat_eq (by simp [Nat.shiftLeft_eq])

theorem ushiftRight_eq_ofNat (n : Nat) : a >>> n = BitVec.ofNat 64 (a.toNat / 2 ^ n) := by
  rw [← Nat.shiftRight_eq_div_pow, ← BitVec.toNat_ushiftRight, BitVec.ofNat_toNat, BitVec.setWidth_eq]

theorem sshiftRight_eq_ofInt (n : Nat) : a.sshiftRight n = BitVec.ofInt 64 (a.toInt / (2 : Int) ^ n) := by
  rw [BitVec.sshiftRight_eq, Int.shiftRight_eq_div_pow]
  norm_cast

theorem bit64_slt : bit64 (a.slt b) = if a.toInt < b.toInt then 1 else 0 := by
  simp only [bit64, BitVec.slt_eq_decide, decide_eq_true_eq]

theorem bit64_ult : bit64 (a.ult b) = if a.toNat < b.toNat then 1 else 0 := by
  simp only [bit64, BitVec.ult_eq_decide, decide_eq_true_eq]

theorem bne_eq_decide : (a != b) = decide (a ≠ b) := by rw [bne, beq_eq_decide, decide_not]

theorem not_slt_eq_decide : (!a.slt b) = decide (b.toInt ≤ a.toInt) := by simp [BitVec.slt_eq_decide, ← decide_not]

theorem not_ult_eq_decide : (!a.ult b) = decide (b.toNat ≤ a.toNat) := by simp [BitVec.ult_eq_decide, ← decide_not]

theorem slt_choice (x y : DWord) : (if a.slt b then x else y) = if a.toInt < b.toInt then x else y := by
  simp only [BitVec.slt_eq_decide, decide_eq_true_eq]

theorem ult_choice (x y : DWord) : (if a.ult b then x else y) = if a.toNat < b.toNat then x else y := by
  simp only [BitVec.ult_eq_decide, decide_eq_true_eq]

theorem min_signed : (if a.slt b then a else b) = BitVec.ofInt 64 (min a.toInt b.toInt) := by
  rw [slt_choice]
  split
  · rw [min_eq_left (by omega), BitVec.ofInt_toInt]
  · rw [min_eq_right (by omega), BitVec.ofInt_toInt]

theorem max_signed : (if a.slt b then b else a) = BitVec.ofInt 64 (max a.toInt b.toInt) := by
  rw [slt_choice]
  split
  · rw [max_eq_right (by omega), BitVec.ofInt_toInt]
  · rw [max_eq_left (by omega), BitVec.ofInt_toInt]

theorem min_unsigned : (if a.ult b then a else b) = BitVec.ofNat 64 (min a.toNat b.toNat) := by
  rw [ult_choice]
  split
  · rw [min_eq_left (by omega), BitVec.ofNat_toNat, BitVec.setWidth_eq]
  · rw [min_eq_right (by omega), BitVec.ofNat_toNat, BitVec.setWidth_eq]

theorem max_unsigned : (if a.ult b then b else a) = BitVec.ofNat 64 (max a.toNat b.toNat) := by
  rw [ult_choice]
  split
  · rw [max_eq_right (by omega), BitVec.ofNat_toNat, BitVec.setWidth_eq]
  · rw [max_eq_left (by omega), BitVec.ofNat_toNat, BitVec.setWidth_eq]

theorem eq_zero_iff_toNat : b = 0 ↔ b.toNat = 0 := (BitVec.toNat_inj (y := 0#64)).symm

/-- Division by 0 gives all ones (R145). -/
theorem divU_eq : divU a b = if b.toNat = 0 then BitVec.ofNat 64 (2 ^ 64 - 1) else BitVec.ofNat 64 (a.toNat / b.toNat) := by
  simp only [divU, eq_zero_iff_toNat]
  split
  · rfl
  · rw [← BitVec.toNat_udiv, BitVec.ofNat_toNat, BitVec.setWidth_eq]

theorem remU_eq : remU a b = if b.toNat = 0 then a else BitVec.ofNat 64 (a.toNat % b.toNat) := by
  simp only [remU, eq_zero_iff_toNat]
  split
  · rfl
  · rw [← BitVec.toNat_umod, BitVec.ofNat_toNat, BitVec.setWidth_eq]

theorem add_sext (imm : BitVec 16) : a + sext imm = BitVec.ofInt 64 (a.toInt + imm.toInt) := by
  rw [BitVec.ofInt_add, BitVec.ofInt_toInt]
  rfl

theorem zext_eq_ofNat (imm : BitVec 16) : zext imm = BitVec.ofNat 64 imm.toNat := (BitVec.ofNat_toNat 64 imm).symm

theorem bit64_slt_sext (imm : BitVec 16) : bit64 (a.slt (sext imm)) = if a.toInt < imm.toInt then 1 else 0 := by
  rw [bit64_slt, sext, BitVec.toInt_signExtend_of_le (by decide)]

/-- SHI's kinds 0 to 2 as its immediate names them. -/
theorem shiftBy_eq {v : Nat} (h : v < 192) : (shiftBy (bits v 6 2) a (v % 64)).getD 0 =
    if v < 64 then BitVec.ofNat 64 (a.toNat * 2 ^ (v % 64)) else if v < 128 then BitVec.ofNat 64 (a.toNat / 2 ^ (v % 64))
    else BitVec.ofInt 64 (a.toInt / (2 : Int) ^ (v % 64)) := by
  have kind : bits v 6 2 = v / 64 := by simp only [bits]; omega
  rw [kind]
  by_cases h1 : v < 64
  · rw [if_pos h1, Nat.div_eq_of_lt h1]
    exact shiftLeft_eq_ofNat a _
  · by_cases h2 : v < 128
    · rw [if_neg h1, if_pos h2, show v / 64 = 1 by omega]
      exact ushiftRight_eq_ofNat a _
    · rw [if_neg h1, if_neg h2, show v / 64 = 2 by omega]
      exact sshiftRight_eq_ofInt a _

/-- LIH: the extension word over the low half. -/
theorem append_low (ext : BitVec 32) : ext ++ a.setWidth 32 = BitVec.ofNat 64 (ext.toNat * 2 ^ 32 + a.toNat % 2 ^ 32) := by
  apply BitVec.eq_of_toNat_eq
  have hlow : a.toNat % 2 ^ 32 < 2 ^ 32 := Nat.mod_lt _ (by decide)
  have hext := ext.isLt
  rw [BitVec.toNat_append, BitVec.toNat_setWidth, Nat.shiftLeft_eq, Nat.mul_comm, ← Nat.two_pow_add_eq_or_of_lt hlow, BitVec.toNat_ofNat]
  omega

end Words

/-! ## Instructions that write one register -/

section Registers
variable {s : State} {i : Instr} {c : Fin 128} {rd : Nat} {t : Nat} {v : DWord}

/-- An instruction of the ALU writes its result. -/
theorem exec_alu {f : Thread → DWord} (run : exec i s = ok s (s.dev.alu i c rd f)) (hv : f (s.dev.thread t) = v) (h : s.dev.Runs i c t 4) :
    exec i s = .next { s with dev := s.dev.putThread t (((s.dev.thread t).setG rd v).next 4) } := by
  rw [run, Dev.alu, Dev.svetu_runs (le_refl 4) h, hv]
  rfl

/-- An instruction that only puts its thread, and whose checks pass. -/
theorem exec_put {len : Nat} {cs : Nat → Thread → List (Bool × Nat)} {f : Nat → Thread → Thread}
    (run : exec i s = ok s (s.dev.svetu i c fun t x => s.dev.orTrap t (cs t x) (s.dev.putThread t (f t x)))) (hl : 4 ≤ len) (h : s.dev.Runs i c t len)
    (hcs : firstTrap (cs t (s.dev.thread t)) = none) : exec i s = .next { s with dev := s.dev.putThread t (f t (s.dev.thread t)) } := by
  rw [run, Dev.svetu_runs hl h, Dev.orTrap_run hcs]
  rfl

end Registers

/-- Settles O6: each row is the ALU with its own function, and the function is the row's number. -/
theorem registerArithmetic : Obligations.RegisterArithmetic := by
  intro s c rd ra rb t x a b n
  simp only [List.forall_mem_cons]
  exact ⟨exec_alu rfl (BitVec.add_def a b), exec_alu rfl (sub_eq_ofInt a b), exec_alu rfl rfl, exec_alu rfl rfl, exec_alu rfl rfl,
    exec_alu rfl (shiftLeft_eq_ofNat a n), exec_alu rfl (ushiftRight_eq_ofNat a n), exec_alu rfl (sshiftRight_eq_ofInt a n),
    exec_alu rfl (bit64_slt a b), exec_alu rfl (bit64_ult a b), exec_alu rfl (min_signed a b), exec_alu rfl (max_signed a b),
    exec_alu rfl (min_unsigned a b), exec_alu rfl (max_unsigned a b), exec_alu rfl rfl, exec_alu rfl rfl, exec_alu rfl (divU_eq a b),
    exec_alu rfl (remU_eq a b), by simp⟩

/-- An extension word lies in the segment where the whole instruction does (R150). -/
theorem extTraps_none {d : Dev} {i : Instr} {c : Fin 128} {t : Nat} (h : d.Runs i c t 8) : firstTrap ((d.thread t).extTraps 0) = none := by
  obtain ⟨-, -, hin, -⟩ := h
  have fits : (d.thread t).beyond 8 = false := by
    rcases hin with hf | hf
    · simp [Thread.beyond, hf]
    · simp only [Thread.beyond, decide_eq_false (by omega : ¬0x10000 < (d.thread t).pc.toNat + 8), Bool.and_false]
  rw [firstTrap_none]
  simp [Thread.extTraps, fits]

theorem flagsReg_eq (x : Thread) : x.flagsReg = (if x.wt then 1 else 0) + (if x.cas then 2 else 0) := by
  cases hw : x.wt <;> cases hc : x.cas <;> simp [Thread.flagsReg, b2n, hw, hc]

/-- Settles O7: the immediates are the ALU; the others put their thread once their one check has passed. -/
theorem immediatesAndSpecials : Obligations.ImmediatesAndSpecials := by
  intro s c rd ra imm ext t x a n
  refine ⟨?_, fun h himm => ?_, fun h => exec_put rfl (le_refl 4) h rfl, fun h => exec_put rfl (by decide) h (extTraps_none h), fun h => ?_⟩
  · simp only [List.forall_mem_cons]
    refine ⟨exec_alu rfl (add_sext a imm), exec_alu rfl (by rw [zext_eq_ofNat]), exec_alu rfl (by rw [zext_eq_ofNat]), exec_alu rfl (by rw [zext_eq_ofNat]),
      exec_alu rfl (bit64_slt_sext a imm), exec_alu rfl (bit64_ult a _), fun h => exec_put rfl (le_refl 4) h rfl, fun h => exec_put rfl (le_refl 4) h rfl,
      fun h => exec_put rfl (le_refl 4) h rfl, fun h => exec_put rfl (le_refl 4) h rfl, fun h => exec_put rfl (le_refl 4) h rfl, fun h => ?_, by simp⟩
    rw [← flagsReg_eq]
    exact exec_put rfl (le_refl 4) h rfl
  · have legal : (decide (256 ≤ imm.toNat) || bits imm.toNat 6 2 == 3) = false := by
      simp only [bits, Bool.or_eq_false_iff, decide_eq_false_iff_not, beq_eq_false_iff_ne]
      omega
    rw [← shiftBy_eq a himm]
    exact exec_put rfl (le_refl 4) h (by rw [legal]; rfl)
  · rw [← append_low]
    exact exec_put rfl (by decide) h (extTraps_none h)

/-! ## The frame of a register's write -/

theorem Thread.setG_next_rest (x : Thread) (rd : Nat) (v : DWord) :
    ((x.setG rd v).next 4).wt = x.wt ∧ ((x.setG rd v).next 4).cas = x.cas ∧ ((x.setG rd v).next 4).flags = x.flags ∧ ((x.setG rd v).next 4).pc = x.pc + 4 := by
  obtain ⟨g, hg⟩ := x.setG_eq rd v
  rw [hg]
  exact ⟨rfl, rfl, rfl, rfl⟩

/-- What a command leaves when it writes one register of thread `t` and goes on. -/
theorem frame_of_putThread {s u : State} {i : Instr} {t rd : Nat} {v : DWord} (hu : exec i s = .next u)
    (run : exec i s = .next { s with dev := s.dev.putThread t (((s.dev.thread t).setG rd v).next 4) }) :
    (∀ r : Nat, r ≠ rd → (u.dev.thread t).gpr r = (s.dev.thread t).gpr r) ∧ (u.dev.thread t).gpr 0 = 0 ∧
    (u.dev.thread t).wt = (s.dev.thread t).wt ∧ (u.dev.thread t).cas = (s.dev.thread t).cas ∧ (u.dev.thread t).flags = (s.dev.thread t).flags ∧
    (u.dev.thread t).pc = (s.dev.thread t).pc + 4 ∧ (∀ k : Nat, k ≠ t → u.dev.thread k = s.dev.thread k) ∧
    u.dev = { s.dev with thr := u.dev.thr } ∧ ∀ a, u.dev.memByte a = s.dev.memByte a := by
  cases hu.symm.trans run
  obtain ⟨hwt, hcas, hflags, hpc⟩ := Thread.setG_next_rest (s.dev.thread t) rd v
  simp only [Dev.thread_putThread]
  exact ⟨fun r hr => Thread.gpr_setG_other _ _ hr, rfl, hwt, hcas, hflags, hpc, fun k hk => Dev.thread_putThread_other _ _ hk, rfl, fun a => rfl⟩

/-- Settles O8: each instruction puts its thread with one register written. -/
theorem registerInstructionsFrame : Obligations.RegisterInstructionsFrame := by
  intro s u c rd ra rb imm sel t
  have alu {i : Instr} {f : Thread → DWord} (run : exec i s = ok s (s.dev.alu i c rd f)) (h : s.dev.Runs i c t 4) (hu : exec i s = .next u) :=
    frame_of_putThread hu (exec_alu run rfl h)
  simp only [List.forall_mem_cons]
  refine ⟨alu rfl, alu rfl, alu rfl, alu rfl, alu rfl, alu rfl, alu rfl, alu rfl, alu rfl, alu rfl, alu rfl, alu rfl, alu rfl, alu rfl, alu rfl, alu rfl, alu rfl,
    alu rfl, alu rfl, alu rfl, alu rfl, alu rfl, alu rfl, alu rfl, fun h hu => frame_of_putThread hu (exec_put rfl (le_refl 4) h rfl), fun h hu => ?_, by simp⟩
  have legal : firstTrap [(((0 : BitVec 13) != 0) || decide (4 < (BitVec.ofNat 8 sel).toNat), cIllegal)] = none := by
    clear h hu
    revert sel
    decide
  exact frame_of_putThread hu (exec_put rfl (le_refl 4) h legal)

/-! ## Branches and jumps -/

theorem branchTarget_eq (x : Thread) (off : BitVec 16) : x.branchTarget off = x.pc + BitVec.ofInt 64 (4 * off.toInt) := by
  rw [Int.mul_comm, BitVec.ofInt_mul]
  rfl

/-- A target at a word's distance from an aligned pc is aligned. -/
theorem branchTarget_aligned {x : Thread} (h : x.pc.toNat % 4 = 0) (off : BitVec 16) : (x.branchTarget off).toNat % 4 = 0 := by
  rw [Thread.branchTarget, BitVec.toNat_add, BitVec.toNat_mul]
  have four : (4 : DWord).toNat = 4 := rfl
  rw [four]
  omega

theorem Dev.goto_aligned {d : Dev} {t : Nat} (x : Thread) {target : DWord} (h : target.toNat % 4 = 0) :
    d.goto t x target = d.putThread t { x with pc := target } :=
  Dev.orTrap_run (by rw [h]; rfl)

/-- A conditional branch from an aligned pc. -/
theorem exec_branch {s : State} {i : Instr} {c : Fin 128} {ra rb : Fin 32} {off : BitVec 16} {t : Nat} {taken : DWord → DWord → Bool} {b : Bool}
    (run : exec i s = ok s (s.dev.branch i c ra rb off taken)) (hpc : (s.dev.thread t).pc.toNat % 4 = 0)
    (hb : taken ((s.dev.thread t).gpr ra) ((s.dev.thread t).gpr rb) = b) (h : s.dev.Runs i c t 4) :
    exec i s = .next { s with dev := s.dev.putThread t { s.dev.thread t with
      pc := if b then (s.dev.thread t).pc + BitVec.ofInt 64 (4 * off.toInt) else (s.dev.thread t).pc + 4 } } := by
  rw [run, Dev.branch, Dev.svetu_runs (le_refl 4) h, hb, ← branchTarget_eq]
  cases b with
  | false => rfl
  | true => exact congrArg (ok s) (Dev.goto_aligned _ (branchTarget_aligned hpc off))

/-- Settles O13: a branch goes to its target or on; a target of JALR is checked first. -/
theorem branchesAndJumps : Obligations.BranchesAndJumps := by
  intro s c rd ra rb off t x a b target jump
  refine ⟨fun hpc => ⟨?_, fun h => ?_⟩, fun h => ?_⟩
  · simp only [List.forall_mem_cons]
    exact ⟨exec_branch rfl hpc rfl, exec_branch rfl hpc (bne_eq_decide a b), exec_branch rfl hpc BitVec.slt_eq_decide, exec_branch rfl hpc (not_slt_eq_decide a b),
      exec_branch rfl hpc BitVec.ult_eq_decide, exec_branch rfl hpc (not_ult_eq_decide a b), by simp⟩
  · refine congrArg (ok s) ((Dev.svetu_runs (le_refl 4) h).trans ((Dev.orTrap_run rfl).trans ?_))
    rw [Dev.goto_aligned _ (branchTarget_aligned hpc off), branchTarget_eq]
    rfl
  · have run : exec (.jalr c rd ra off) s = ok s (s.dev.orTrap t [(jump.toNat % 4 != 0, cAlign)] (s.dev.putThread t { x.link rd with pc := jump })) :=
      congrArg (ok s) (Dev.svetu_runs (le_refl 4) h)
    rw [run]
    by_cases hj : jump.toNat % 4 = 0
    · rw [if_pos hj, Dev.orTrap_run (by simp [hj])]
      rfl
    · rw [if_neg hj, Dev.orTrap_trap (cause := cAlign) (by rw [bne_iff_ne.mpr hj]; rfl)]
      rfl

end Sys2Proof.Machine

/-! Loads, stores and atomics (chapter 4): what an access checks, what it leaves, and the traps in their order; then O9, O10, O11 and O19. -/

namespace Sys2Proof.Machine

/-! ## Sizes -/

/-- A loaded value as LD extends it (R146). -/
theorem extendTo_signed (size : BitVec 2) (v : Nat) : extendTo (sizeBytes size) v true = (BitVec.ofNat (8 * 2 ^ size.toNat) v).signExtend 64 := by
  unfold sizeBytes
  have hk := size.isLt
  generalize size.toNat = k at hk
  interval_cases k
  · rfl
  · rfl
  · rfl
  · exact (BitVec.signExtend_eq _).symm

theorem extendTo_unsigned (n v : Nat) : extendTo n v false = BitVec.ofNat 64 v := by
  unfold extendTo
  split
  case h_4 => rfl
  all_goals contradiction

/-! ## Bytes of numbers -/

/-- The bytes that spell a number are its bytes. -/
theorem ofNat_leNat_div (bs : List Byte) : ∀ (i : Nat) (h : i < bs.length), BitVec.ofNat 8 (leNat bs / 256 ^ i) = bs[i] := by
  induction bs with
  | nil => intro i h; simp at h
  | cons b bs ih =>
    intro i h
    have hb : b.toNat < 256 := b.isLt
    cases i with
    | zero =>
      apply BitVec.eq_of_toNat_eq
      simp only [leNat, Nat.pow_zero, Nat.div_one, BitVec.toNat_ofNat, List.getElem_cons_zero]
      omega
    | succ i =>
      have rest : (b.toNat + 256 * leNat bs) / 256 = leNat bs := by omega
      rw [leNat, Nat.pow_succ', ← Nat.div_div_eq_div_mul, rest, List.getElem_cons_succ]
      exact ih i (by simpa using h)

/-- The low bytes of a number do not depend on what lies above them. -/
theorem ofNat_mod_div {n i : Nat} (h : i < n) (v : Nat) : BitVec.ofNat 8 (v % 256 ^ n / 256 ^ i) = BitVec.ofNat 8 (v / 256 ^ i) := by
  obtain ⟨k, rfl⟩ : ∃ k, n = i + (k + 1) := ⟨n - i - 1, by omega⟩
  apply BitVec.eq_of_toNat_eq
  rw [BitVec.toNat_ofNat, BitVec.toNat_ofNat, Nat.pow_add, Nat.mod_mul_right_div_self, Nat.mod_mod_of_dvd _ (dvd_pow_self 256 (by omega))]

/-! ## What an access checks (R150) -/

section Access
variable {d : Dev} {x : Thread} {a n : Nat} {store : Bool}

theorem Dev.accessTraps_local (ha : a % n = 0) (hin : a + n ≤ x.localSize) (hecc : (store && n == 8) = true ∨ d.localBad (x.segBase + a) n = false) :
    firstTrap (d.accessTraps x 0 a n store) = none := by
  rw [firstTrap_none]
  rcases hecc with h | h <;> simp [Dev.accessTraps, Thread.inLocal, ha, hin, h]

theorem Dev.accessTraps_device (ha : a % n = 0) (hdev : d.deviceOk x a n (!store) store = true) : firstTrap (d.accessTraps x 1 a n store) = none := by
  rw [firstTrap_none]
  simp [Dev.accessTraps, ha, hdev]

theorem Dev.accessTraps_register (ha : a % 4 = 0) (hfw : x.firmware = true) (hin : a + 4 ≤ 0x4000000) : firstTrap (d.accessTraps x 2 a 4 store) = none := by
  rw [firstTrap_none]
  simp [Dev.accessTraps, ha, hfw, hin]

end Access

/-! ## Loads -/

section Loads
variable {s : State} {i : Instr} {c : Fin 128} {rd ra : Fin 32} {size space : BitVec 2} {off : BitVec 12} {t : Nat} {signed : Bool}

/-- A load that none of its checks traps. -/
theorem exec_load (run : exec i s = ok s (s.dev.load i c rd ra size space off signed)) (h : s.dev.Runs i c t 4)
    (hn : firstTrap (s.dev.accessTraps (s.dev.thread t) space ((s.dev.thread t).effAddr ra off) (sizeBytes size) false) = none) :
    exec i s = ok s (s.dev.doLoad t (s.dev.thread t) rd (sizeBytes size) space ((s.dev.thread t).effAddr ra off) signed) := by
  rw [run, Dev.load, Dev.svetu_runs (le_refl 4) h]
  exact congrArg (ok s) (Dev.orTrap_run hn)

end Loads

/-- A load from register space reads the register, with what that read does. -/
theorem Dev.doLoad_register (d : Dev) (t : Nat) (x : Thread) (rd n a : Nat) (signed : Bool) :
    d.doLoad t x rd n 2 a signed = (d.readReg a).2.modThread t fun y => (y.setG rd (extendTo 4 (d.readReg a).1 signed)).next 4 := rfl

/-- Settles O9: with every check passed, a load is its access. -/
theorem loads : Obligations.Loads := by
  intro s c rd ra size off t x a n signed ha
  have extended (v : Nat) : extendTo n v true = signed v := extendTo_signed size v
  refine ⟨fun hin hecc => ?_, fun hdev => ?_, fun hfw hsize hin => ?_⟩
  · intro v
    rw [← extended, ← extendTo_unsigned n]
    exact ⟨fun h => exec_load rfl h (Dev.accessTraps_local ha hin (.inr hecc)), fun h => exec_load rfl h (Dev.accessTraps_local ha hin (.inr hecc))⟩
  · intro v
    rw [← extended, ← extendTo_unsigned n, show v = leNat (s.dev.memRead a n) by rw [Dev.memRead_eq]]
    exact ⟨fun h => exec_load rfl h (Dev.accessTraps_device ha hdev), fun h => exec_load rfl h (Dev.accessTraps_device ha hdev)⟩
  · intro r
    subst hsize
    have extended4 : extendTo 4 r.1 true = signed r.1 := extended r.1
    rw [← extended4, ← extendTo_unsigned 4]
    exact ⟨fun h => (exec_load rfl h (Dev.accessTraps_register ha hfw hin)).trans (congrArg (ok s) (Dev.doLoad_register _ _ _ _ _ _ _)),
      fun h => (exec_load rfl h (Dev.accessTraps_register ha hfw hin)).trans (congrArg (ok s) (Dev.doLoad_register _ _ _ _ _ _ _))⟩

/-! ## Stores -/

section Stores
variable {s : State} {c : Fin 128} {rd ra : Fin 32} {size space : BitVec 2} {off : BitVec 12} {t : Nat}

/-- A store that none of its checks traps. -/
theorem exec_store (h : s.dev.Runs (.st c rd ra size space off) c t 4)
    (hn : firstTrap (s.dev.accessTraps (s.dev.thread t) space ((s.dev.thread t).effAddr ra off) (sizeBytes size) true) = none) :
    exec (.st c rd ra size space off) s = ok s (s.dev.doStore t (s.dev.thread t) rd (sizeBytes size) space ((s.dev.thread t).effAddr ra off)) :=
  congrArg (ok s) ((Dev.svetu_runs (le_refl 4) h).trans (Dev.orTrap_run hn))

end Stores

/-- A store of a whole word removes its error (R136). -/
theorem Dev.localWrite_whole (d : Dev) (x : Thread) (a : Nat) {bs : List Byte} (h : bs.length = 8) : (x.segBase + a) / 8 ∉ (d.localWrite x a bs).locErr := by
  simp [Dev.localWrite, h]

theorem Dev.le_capacity_of_deviceOk {d : Dev} {x : Thread} {a n : Nat} {r w : Bool} (h : d.deviceOk x a n r w = true) : a + n ≤ d.capacity := by
  simp only [Dev.deviceOk, Bool.and_eq_true, decide_eq_true_eq] at h
  exact h.1

@[simp] theorem Dev.thread_memWrite (d : Dev) (a : Nat) (bs : List Byte) (k : Nat) : (d.memWrite a bs).thread k = d.thread k := by
  simp [Dev.thread]

/-- A write of memory after a thread was put touches three fields alone. -/
theorem Dev.memWrite_putThread_eq (d : Dev) (t a : Nat) (x : Thread) (bs : List Byte) : (d.putThread t x).memWrite a bs =
    { d with thr := ((d.putThread t x).memWrite a bs).thr, mem := ((d.putThread t x).memWrite a bs).mem, poison := ((d.putThread t x).memWrite a bs).poison } := by
  obtain ⟨m, p, h⟩ := (d.putThread t x).memWrite_eq a bs
  rw [h]
  rfl

/-- Settles O10: with every check passed, a store is its write. -/
theorem stores : Obligations.Stores := by
  intro s c rd ra size off t x a n byte ha
  refine ⟨fun hin hecc h => ?_, fun hdev h => ?_, fun hfw hsize hin h => ?_⟩
  · have hn : firstTrap (s.dev.accessTraps x 0 a n true) = none := Dev.accessTraps_local ha hin (hecc.imp (by simp [·]) id)
    refine completes_ok (exec_store h hn) ⟨fun i hi => ?_, fun j hj => ?_, fun h8 => ?_, Dev.thread_putThread _ _ _, fun k hk => Dev.thread_putThread_other _ _ hk, rfl⟩
    · exact (writeBytes_inside _ _ _ i (by rw [toLE_length]; exact hi)).trans (toLE_get n _ i hi)
    · exact writeBytes_other _ _ _ _ (by rw [toLE_length]; exact hj)
    · have whole : (toLE n (x.gpr rd).toNat).length = 8 := by simpa using h8
      exact Dev.localWrite_whole _ x a whole
  · have hn : firstTrap (s.dev.accessTraps x 1 a n true) = none := Dev.accessTraps_device ha hdev
    have hc : a + (toLE n (x.gpr rd).toNat).length ≤ (s.dev.putThread t (x.next 4)).capacity := by
      rw [toLE_length]
      exact Dev.le_capacity_of_deviceOk hdev
    refine completes_ok (exec_store h hn) ⟨fun i hi => ?_, fun j hj => ?_, ?_, fun k hk => ?_, Dev.memWrite_putThread_eq _ _ _ _ _⟩
    · exact (Dev.memByte_memWrite_inside _ _ _ i (by rw [toLE_length]; exact hi) hc).trans (toLE_get n _ i hi)
    · exact Dev.memByte_memWrite_other _ _ _ _ (by rw [toLE_length]; exact hj)
    · exact (Dev.thread_memWrite _ _ _ t).trans (Dev.thread_putThread _ _ _)
    · exact (Dev.thread_memWrite _ _ _ k).trans (Dev.thread_putThread_other _ _ hk)
  · subst hsize
    exact exec_store h (Dev.accessTraps_register ha hfw hin)

/-! ## Atomics and fences (R139, R140) -/

section Amo
variable {d : Dev} {t a n w : Nat} {y : Thread}

/-- Memory written under an operation, and the thread that awaits the old value. -/
theorem Dev.memWrite_putThread_frame (hc : a + n ≤ d.capacity) :
    (∀ i, i < n → ((d.memWrite a (toLE n w)).putThread t y).memByte (a + i) = BitVec.ofNat 8 (w / 256 ^ i)) ∧
    (∀ j, j < a ∨ a + n ≤ j → ((d.memWrite a (toLE n w)).putThread t y).memByte j = d.memByte j) ∧
    ((d.memWrite a (toLE n w)).putThread t y).thread t = y ∧ (∀ k, k ≠ t → ((d.memWrite a (toLE n w)).putThread t y).thread k = d.thread k) ∧
    (d.memWrite a (toLE n w)).putThread t y =
      { d with thr := ((d.memWrite a (toLE n w)).putThread t y).thr, mem := ((d.memWrite a (toLE n w)).putThread t y).mem,
               poison := ((d.memWrite a (toLE n w)).putThread t y).poison } := by
  refine ⟨fun i hi => ?_, fun j hj => ?_, Dev.thread_putThread _ _ _, fun k hk => ?_, ?_⟩
  · exact (Dev.memByte_memWrite_inside d a (toLE n w) i (by rw [toLE_length]; exact hi) (by rw [toLE_length]; exact hc)).trans (toLE_get n w i hi)
  · exact Dev.memByte_memWrite_other d a (toLE n w) j (by rw [toLE_length]; exact hj)
  · exact (Dev.thread_putThread_other _ _ hk).trans (Dev.thread_memWrite d a _ k)
  · obtain ⟨m, p, h⟩ := d.memWrite_eq a (toLE n w)
    rw [h]
    rfl

/-- The bytes that a read spells. -/
theorem Dev.memByte_of_read (d : Dev) (a : Nat) {n i : Nat} (h : i < n) :
    d.memByte (a + i) = BitVec.ofNat 8 (leNat ((List.range n).map fun i => d.memByte (a + i)) / 256 ^ i) := by
  rw [ofNat_leNat_div _ i (by simpa using h)]
  simp

/-- What a kind of AMO other than compare-and-swap stores, byte for byte. -/
theorem amoValue_byte {kind : BitVec 3} (h : kind.toNat < 5) (old b : Nat) {i : Nat} (hi : i < n) (x : Nat) :
    BitVec.ofNat 8 (amoValue kind old b / 256 ^ i) = BitVec.ofNat 8 ((if kind = 0 then b else if kind = 1 then (old + b) % 256 ^ n else if kind = 2 then old &&& b
      else if kind = 3 then old ||| b else if kind = 4 then max old b else x) / 256 ^ i) := by
  obtain rfl | rfl | rfl | rfl | rfl : kind = 0 ∨ kind = 1 ∨ kind = 2 ∨ kind = 3 ∨ kind = 4 := by
    revert kind
    decide
  · rfl
  · exact (ofNat_mod_div hi _).symm
  · rfl
  · rfl
  · rfl

end Amo

/-- Settles O11: an operation writes memory and awaits the old value; a compare-and-swap that misses writes nothing. -/
theorem atomicsAndFence : Obligations.AtomicsAndFence := by
  refine ⟨?_, fun s c imm t h himm => ?_⟩
  · intro s c rd ra rb kind wide t h x a n old b hit new hkind ha hdev
    have legal : (((0 : BitVec 7) != 0) || decide (6 ≤ kind.toNat)) = false := by simp; omega
    have run : exec (.amo c rd ra rb kind wide 0) s = ok s (s.dev.doAmo t x rd rb n kind a) := by
      refine congrArg (ok s) ((Dev.svetu_runs (le_refl 4) h).trans (Dev.orTrap_run ?_))
      rw [legal, show ((s.dev.thread t).gpr ra).toNat % (if wide then 8 else 4) = 0 from ha, show s.dev.deviceOk _ _ _ true true = true from hdev]
      rfl
    have hc := Dev.le_capacity_of_deviceOk hdev
    have read : leNat (s.dev.memRead a n) = old := by rw [Dev.memRead_eq]
    by_cases h5 : kind = 5
    · have cas : s.dev.doAmo t x rd rb n kind a = (if decide hit then s.dev.memWrite a (toLE n b) else s.dev).putThread t (x.await rd (BitVec.ofNat 64 old) (some (decide hit))) := by
        rw [Dev.doAmo, if_pos h5, read]
        rfl
      have stored : new = if hit then b else old := by simp only [new, h5]; rfl
      rw [stored, if_pos h5]
      by_cases hh : hit
      · rw [decide_eq_true hh, if_pos rfl] at cas
        obtain ⟨hin, hout, hthr, hoth, hframe⟩ := Dev.memWrite_putThread_frame (w := b) (t := t) (y := x.await rd (BitVec.ofNat 64 old) (some true)) hc
        rw [if_pos hh, decide_eq_true hh]
        exact completes_ok (run.trans (congrArg (ok s) cas)) ⟨hin, hout, hthr, hoth, hframe⟩
      · rw [decide_eq_false hh, if_neg Bool.false_ne_true] at cas
        rw [if_neg hh, decide_eq_false hh]
        exact completes_ok (run.trans (congrArg (ok s) cas))
          ⟨fun i hi => s.dev.memByte_of_read a hi, fun j _ => rfl, Dev.thread_putThread _ _ _, fun k hk => Dev.thread_putThread_other _ _ hk, rfl⟩
    · have swap : s.dev.doAmo t x rd rb n kind a =
          (s.dev.memWrite a (toLE n (amoValue kind old b))).putThread t (x.await rd (BitVec.ofNat 64 old) none) := by
        rw [Dev.doAmo, if_neg h5, read]
      obtain ⟨hin, hout, hthr, hoth, hframe⟩ := Dev.memWrite_putThread_frame (w := amoValue kind old b) (t := t) (y := x.await rd (BitVec.ofNat 64 old) none) hc
      refine completes_ok (run.trans (congrArg (ok s) swap)) ⟨fun i hi => (hin i hi).trans (amoValue_byte (by have : kind.toNat ≠ 5 := fun h => h5 (BitVec.eq_of_toNat_eq h); omega) old b hi _), hout, ?_, hoth, hframe⟩
      rw [hthr, if_neg h5]
      rfl
  · intro x y
    have legal : (((0 : BitVec 18) != 0) || decide (2 ≤ imm.toNat)) = false := by simp; omega
    have awaits : (imm.getLsbD 0 && x.issued != 0) = true ↔ imm = 1 ∧ x.issued ≠ 0 := by
      obtain rfl | rfl : imm = 0 ∨ imm = 1 := by
        have : imm.toNat = 0 ∨ imm.toNat = 1 := by omega
        exact this.imp (fun h => BitVec.eq_of_toNat_eq h) (fun h => BitVec.eq_of_toNat_eq h)
      · simp
      · simp
    refine congrArg (ok s) ((Dev.svetu_runs (le_refl 4) h).trans ((Dev.orTrap_run (by rw [legal]; rfl)).trans ?_))
    by_cases hw : imm = 1 ∧ x.issued ≠ 0
    · rw [if_pos (awaits.mpr hw), show y = _ from if_pos hw]
    · rw [if_neg (awaits.not.mpr hw), show y = _ from if_neg hw]

/-! ## The order of traps (R150, Table 4.6) -/

section Traps
variable {d : Dev} {x : Thread} {a n : Nat} {space : BitVec 2} {store : Bool}

theorem Dev.accessTraps_reserved : firstTrap (d.accessTraps x 3 a n store) = some cIllegal := by simp [Dev.accessTraps]

theorem Dev.accessTraps_program (h : x.firmware = false) : firstTrap (d.accessTraps x 2 a n store) = some cPriv := by simp [Dev.accessTraps, h]

theorem Dev.accessTraps_misaligned (hs : space.toNat < 2) (h : a % n ≠ 0) : firstTrap (d.accessTraps x space a n store) = some cAlign := by
  obtain rfl | rfl : space = 0 ∨ space = 1 := by
    revert space
    decide
  · simp [Dev.accessTraps, bne_iff_ne.mpr h]
  · simp [Dev.accessTraps, bne_iff_ne.mpr h]

theorem Dev.accessTraps_beyond (ha : a % n = 0) (h : x.localSize < a + n) : firstTrap (d.accessTraps x 0 a n store) = some cBounds := by
  simp [Dev.accessTraps, Thread.inLocal, ha, Nat.not_le.mpr h]

theorem Dev.accessTraps_noDevice (ha : a % n = 0) (h : d.deviceOk x a n (!store) store = false) : firstTrap (d.accessTraps x 1 a n store) = some cBounds := by
  simp [Dev.accessTraps, ha, h]

theorem Dev.accessTraps_ecc (ha : a % n = 0) (hin : a + n ≤ x.localSize) (hbad : d.localBad (x.segBase + a) n = true) (hw : (store && n == 8) = false) :
    firstTrap (d.accessTraps x 0 a n store) = some cEcc := by
  simp [Dev.accessTraps, Thread.inLocal, ha, hin, hbad, hw]

/-- A program reaches no address at and above 2^48, and nobody one beyond the installed memory (R130, R131). -/
theorem Dev.deviceOk_false {r w : Bool} (h : 2 ^ 48 ≤ a ∧ x.firmware = false ∨ d.capacity < a + n) : d.deviceOk x a n r w = false := by
  rcases h with ⟨ha, hf⟩ | hc
  · simp only [Dev.deviceOk, hf, decide_eq_false (Nat.not_lt.mpr ha), Bool.false_and, Bool.or_false, Bool.and_false]
  · simp [Dev.deviceOk, Nat.not_le.mpr hc]

end Traps

/-- An access of a size is not of a whole word where it is a load, or of fewer than 8 bytes. -/
theorem not_wholeWord {size : BitVec 2} {store : Bool} (h : sizeBytes size < 8 ∨ store = false) : (store && sizeBytes size == 8) = false := by
  rcases h with h | h
  · simp [Nat.ne_of_lt h]
  · simp [h]

/-- Settles O19: the first cause that holds of an access; a fetch comes before the instruction. -/
theorem trapOrder : Obligations.TrapOrder := by
  intro s c rd ra rb size space off t d x a n
  have order {i : Instr} {store : Bool} (hload : store = true → i = .st c rd ra size space off) (h : d.Runs i c t 4)
      (trapped : ∀ cause, firstTrap (d.accessTraps x space a n store) = some cause → exec i s = .next { s with dev := d.trap t cause 0 }) :
      (space = 3 → exec i s = .next { s with dev := d.trap t 1 0 }) ∧
      (space = 2 → x.firmware = false → exec i s = .next { s with dev := d.trap t 2 0 }) ∧
      (space.toNat < 2 → a % n ≠ 0 → exec i s = .next { s with dev := d.trap t 3 0 }) ∧
      (space = 0 → a % n = 0 → x.localSize < a + n → exec i s = .next { s with dev := d.trap t 4 0 }) ∧
      (space = 1 → a % n = 0 → (2 ^ 48 ≤ a ∧ x.firmware = false ∨ d.capacity < a + n) → exec i s = .next { s with dev := d.trap t 4 0 }) ∧
      (space = 0 → a % n = 0 → a + n ≤ x.localSize → d.localBad (x.segBase + a) n = true → (n < 8 ∨ i ≠ .st c rd ra size space off) →
        exec i s = .next { s with dev := d.trap t 6 0 }) := by
    refine ⟨?_, ?_, fun hs ha => trapped _ (Dev.accessTraps_misaligned hs ha), ?_, ?_, ?_⟩
    · rintro rfl
      exact trapped _ Dev.accessTraps_reserved
    · rintro rfl hfw
      exact trapped _ (Dev.accessTraps_program hfw)
    · rintro rfl ha hout
      exact trapped _ (Dev.accessTraps_beyond ha hout)
    · rintro rfl ha hdev
      exact trapped _ (Dev.accessTraps_noDevice ha (Dev.deviceOk_false hdev))
    · rintro rfl ha hin hbad hsize
      have load : n < 8 ∨ store = false := hsize.imp_right fun hi => Bool.eq_false_iff.mpr fun hst => hi (hload hst)
      exact trapped _ (Dev.accessTraps_ecc ha hin hbad (not_wholeWord load))
  have taken {i : Instr} {cs : List (Bool × Nat)} {k : Dev} (run : exec i s = ok s (d.orTrap t cs k)) (cause : Nat) (hc : firstTrap cs = some cause) :
      exec i s = .next { s with dev := d.trap t cause 0 } := run.trans (congrArg (ok s) (Dev.orTrap_trap hc))
  refine ⟨?_, fun hrun hfw hpc => ?_, fun hrun hpc hbad => ?_⟩
  · simp only [List.forall_mem_cons]
    exact ⟨fun h => order (by simp) h (taken (congrArg (ok s) (Dev.svetu_runs (le_refl 4) h))),
      fun h => order (by simp) h (taken (congrArg (ok s) (Dev.svetu_runs (le_refl 4) h))),
      fun h => order (fun _ => rfl) h (taken (congrArg (ok s) (Dev.svetu_runs (le_refl 4) h))), by simp⟩
  · have beyond : x.beyond 4 = true := by simp [Thread.beyond, hfw, hpc]
    refine congrArg (ok s) ?_
    rw [Dev.alu, Dev.svetu, show s.dev.running c = some t from hrun]
    exact if_pos beyond
  · have inside : x.beyond 4 = false := by
      rcases hpc with hf | hp
      · simp [Thread.beyond, hf]
      · simp [Thread.beyond, Nat.not_lt.mpr hp]
    refine congrArg (ok s) ?_
    rw [Dev.alu, Dev.svetu, show s.dev.running c = some t from hrun]
    refine (if_neg (Bool.eq_false_iff.mp inside)).trans ?_
    rw [show s.dev.fetched c (s.dev.thread t) = none from hbad]
    rfl

end Sys2Proof.Machine

/-! ISSUE, WAIT, YIELD, END and TRAP (chapter 4): what each leaves of its thread, its unit's queue and its ring entry, and what a trap reports; then O15, O16, O18 and O22. -/

namespace Sys2Proof.Machine

/-! ## ISSUE (R153, R155) -/

/-- `n` descriptors more name the thread, and `m` more were issued by it. -/
def Thread.counted (x : Thread) (n m : Nat) : Thread := { x with outst := x.outst + n, issued := x.issued + m }

section Issue
variable {d : Dev} {y : Desc} {z : Thread} {t : Nat}

/-- A descriptor counts for the thread that it names (R153). -/
theorem Dev.nameNotify_thread (d : Dev) (y : Desc) (u : Nat) :
    (d.nameNotify y).thread u = (d.thread u).counted (if u = y.notify ∧ u ≠ 0xFFFF then 1 else 0) 0 := by
  unfold Dev.nameNotify
  by_cases hn : y.notify = 0xFFFF
  · rw [if_pos hn, if_neg fun h => h.2 (h.1.trans hn)]
    rfl
  · rw [if_neg hn, thread_modThread]
    by_cases hu : u = y.notify
    · rw [if_pos hu, if_pos ⟨hu, hu ▸ hn⟩, hu]
      rfl
    · rw [if_neg hu, if_neg fun h => hu h.1]
      rfl

@[simp] theorem Dev.unitQueue_nameNotify (d : Dev) (y : Desc) (k : Nat) : (d.nameNotify y).unitQueue k = d.unitQueue k := by
  unfold Dev.nameNotify
  split <;> rfl

theorem Dev.nameNotify_eq (d : Dev) (y : Desc) : ∃ thr, d.nameNotify y = { d with thr := thr } := by
  unfold Dev.nameNotify
  split
  · exact ⟨d.thr, rfl⟩
  · exact ⟨_, rfl⟩

/-- A descriptor of a unit of the table joins that unit's queue, and counts for the thread that issues it. -/
theorem Dev.acceptIssue_known (hk : y.known = true) :
    d.acceptIssue y = (d.modThread y.tid fun x => x.counted 0 1).putUnitQueue y.unit (d.unitQueue y.unit ++ [y]) := if_pos hk

theorem Dev.acceptIssue_thread (hk : y.known = true) (u : Nat) : (d.acceptIssue y).thread u = (d.thread u).counted 0 (if u = y.tid then 1 else 0) := by
  rw [Dev.acceptIssue_known hk]
  refine (thread_modThread d y.tid u fun x => x.counted 0 1).trans ?_
  by_cases h : u = y.tid
  · rw [if_pos h, if_pos h, h]
  · rw [if_neg h, if_neg h]
    rfl

theorem Dev.acceptIssue_unitQueue (hk : y.known = true) : (d.acceptIssue y).unitQueue y.unit = d.unitQueue y.unit ++ [y] := by
  rw [Dev.acceptIssue_known hk]
  exact Tab.get_put_same _ _ _ _

theorem Dev.acceptIssue_unitQueue_other (hk : y.known = true) {k : Nat} (h : k ≠ y.unit) : (d.acceptIssue y).unitQueue k = d.unitQueue k := by
  rw [Dev.acceptIssue_known hk]
  exact Tab.get_put_other _ _ _ h

/-- The threads of a device whose thread `t` has handed a descriptor over. -/
theorem Dev.handedOver_thread (hk : y.known = true) (u : Nat) : (((d.putThread t z).nameNotify y).acceptIssue y).thread u =
    (if u = t then z else d.thread u).counted (if u = y.notify ∧ u ≠ 0xFFFF then 1 else 0) (if u = y.tid then 1 else 0) := by
  have put : (d.putThread t z).thread u = if u = t then z else d.thread u := thread_modThread d t u fun _ => z
  rw [Dev.acceptIssue_thread hk, Dev.nameNotify_thread, put]
  rfl

/-- Handing a descriptor over touches threads and queues alone. -/
theorem Dev.handedOver_eq (hk : y.known = true) : ∃ thr q, ((d.putThread t z).nameNotify y).acceptIssue y = { d with thr := thr, unitQ := q } := by
  obtain ⟨thr, hn⟩ := (d.putThread t z).nameNotify_eq y
  rw [Dev.acceptIssue_known hk, hn]
  exact ⟨_, _, rfl⟩

/-- ISSUE on a descriptor that passes its checks. -/
theorem exec_issue {s : State} {c : Fin 128} {rd ra : Fin 32} {imm : BitVec 8} (h : s.dev.Runs (.issue c rd ra 0 imm) c t 4) (himm : imm.toNat < 2)
    (hc : firstTrap (s.dev.issueTraps t (s.dev.thread t) ((s.dev.thread t).gpr ra).toNat) = none) :
    exec (.issue c rd ra 0 imm) s = ok s (s.dev.doIssue t (s.dev.thread t) rd (s.dev.descAt t (s.dev.thread t) ((s.dev.thread t).gpr ra).toNat) (imm.getLsbD 0)) := by
  refine congrArg (ok s) ((Dev.svetu_runs (le_refl 4) h).trans (Dev.orTrap_run ?_))
  rw [show (((0 : BitVec 8) != 0) || decide (2 ≤ imm.toNat)) = false by simp; omega, firstTrap_cons_false]
  exact hc

end Issue

/-- Settles O15: with room in the queue the descriptor is named and accepted; with none the immediate decides. -/
theorem issueHandsOver : Obligations.IssueHandsOver := by
  intro s c rd ra imm t h himm x a y hc
  have run : exec (.issue c rd ra 0 imm) s = ok s (s.dev.doIssue t x rd y (imm.getLsbD 0)) := exec_issue h himm hc
  refine ⟨fun hroom hk => ?_, fun hfull => ⟨fun h1 => ?_, fun h0 => ?_⟩⟩
  · have accepted : s.dev.doIssue t x rd y (imm.getLsbD 0) = ((s.dev.putThread t ((x.setG rd 0).next 4)).nameNotify y).acceptIssue y :=
      if_neg (Bool.eq_false_iff.mp hroom)
    have thread (u : Nat) := Dev.handedOver_thread (d := s.dev) (t := t) (z := (x.setG rd 0).next 4) hk u
    have own := thread t
    rw [if_pos rfl, if_pos (show t = y.tid from rfl)] at own
    obtain ⟨g, hg⟩ : ∃ g, x.setG rd 0 = { x with g := g } := x.setG_eq rd 0
    obtain ⟨thr, q, frame⟩ := Dev.handedOver_eq (d := s.dev) (t := t) (z := (x.setG rd 0).next 4) hk
    refine completes_ok (run.trans (congrArg (ok s) accepted)) ⟨?_, fun k hk' => ?_, fun r hr => ?_, ?_, ?_, ?_, fun u hu => ?_, fun u hu hn => ?_, ?_⟩
    · rw [Dev.acceptIssue_unitQueue hk, Dev.unitQueue_nameNotify]
      rfl
    · rw [Dev.acceptIssue_unitQueue_other hk hk', Dev.unitQueue_nameNotify]
      rfl
    · rw [own]
      exact Thread.gpr_setG_other x 0 hr
    · rw [own]
      exact (Thread.gpr_setG_same x rd 0).trans (ite_self 0)
    · rw [own, hg]
      rfl
    · rw [own, hg]
      rfl
    · rw [thread]
      have out : (if u = t then (x.setG rd 0).next 4 else s.dev.thread u).outst = (s.dev.thread u).outst := by
        split
        · next h => rw [hg, h]; rfl
        · rfl
      refine congrArg₂ (· + ·) out ?_
      simp only [hu, ne_eq, not_false_eq_true, and_true, eq_comm]
    · rw [thread, if_neg hu, if_neg fun h => hn h.1, if_neg (show u ≠ y.tid from hu)]
      rfl
    · rw [frame]
  · have answered : s.dev.doIssue t x rd y (imm.getLsbD 0) = s.dev.putThread t ((x.setG rd 1).next 4) := by
      rw [Dev.doIssue, if_pos hfull, h1]
      rfl
    exact run.trans (congrArg (ok s) answered)
  · have waits : s.dev.doIssue t x rd y (imm.getLsbD 0) = (s.dev.putThread t { x.next 4 with st := .held, hold := .issue rd y, core := none }).nameNotify y := by
      rw [Dev.doIssue, if_pos hfull, h0]
      rfl
    exact run.trans (congrArg (ok s) waits)

/-! ## WAIT (R148) -/

/-- Settles O16: an illegal form traps; else the flags decide. -/
theorem waitForFlags : Obligations.WaitForFlags := by
  intro s c rd ra rb sub t h x mask ns y
  have hmask : (x.gpr ra).setWidth 32 = mask := (BitVec.ofNat_toNat 32 _).symm
  have run : exec (.wait c rd ra rb sub 0) s = ok s (s.dev.orTrap t [(decide (1 < sub.toNat) || (mask == 0 && sub == 0 && ns == 0), cIllegal)]
      (s.dev.putThread t (if y.satisfied then y.takeFlags else y.sleep s.dev.nowNs ns))) := by
    rw [← hmask]
    exact congrArg (ok s) (Dev.svetu_runs (le_refl 4) h)
  have goes {z : Thread} (hlegal : ¬1 < sub.toNat) (hempty : ¬(mask = 0 ∧ sub = 0 ∧ ns = 0)) (hz : (if y.satisfied then y.takeFlags else y.sleep s.dev.nowNs ns) = z) :
      exec (.wait c rd ra rb sub 0) s = .next { s with dev := s.dev.putThread t z } := by
    have legal : (decide (1 < sub.toNat) || (mask == 0 && sub == 0 && ns == 0)) = false := by simpa [hlegal, and_assoc] using hempty
    rw [run, legal, hz]
    rfl
  have one_ne : (1 : BitVec 3) ≠ 0 := by decide
  have taken (hs : y.satisfied = true) : (if y.satisfied then y.takeFlags else y.sleep s.dev.nowNs ns) =
      { y with flags := x.flags &&& ~~~mask, wt := false }.setG rd (BitVec.ofNat 64 (x.flags &&& mask).toNat) := by
    rw [if_pos hs, BitVec.ofNat_toNat]
    rfl
  refine ⟨fun hbad => ?_, fun h0 hf => ?_, fun h1 hf => ?_, fun hw => ?_⟩
  · have illegal : (decide (1 < sub.toNat) || (mask == 0 && sub == 0 && ns == 0)) = true := by
      rcases hbad with hs | ⟨hs, hm, hn⟩
      · simp [hs]
      · simp [hs, hm, hn]
    rw [run, illegal]
    rfl
  · subst h0
    refine goes (by decide) (fun he => hf ((congrArg (x.flags &&& ·) he.1).trans BitVec.and_zero)) (taken ?_)
    simpa [Thread.satisfied, y, Thread.next] using hf
  · subst h1
    refine goes (by decide) (fun he => one_ne he.2.1) (taken ?_)
    simpa [Thread.satisfied, y, Thread.next] using hf
  · have asleep (hs : y.satisfied = false) : (if y.satisfied then y.takeFlags else y.sleep s.dev.nowNs ns) = y.sleep s.dev.nowNs ns :=
      if_neg (Bool.eq_false_iff.mp hs)
    rcases hw with ⟨rfl, hf, hne⟩ | ⟨rfl, hf⟩
    · refine goes (by decide) (fun he => hne.elim (· he.1) (· he.2.2)) (asleep ?_)
      simpa [Thread.satisfied, y, Thread.next] using hf
    · refine goes (by decide) (fun he => one_ne he.2.1) (asleep ?_)
      simpa [Thread.satisfied, y, Thread.next] using hf

/-! ## YIELD, END and TRAP (R101, R151) -/

section Ends
variable {d : Dev} {t status value fn tag sq : Nat}

/-- A thread that has ended and keeps its number until its entry retires. -/
def Thread.ended (x : Thread) : Thread := { x with st := .held, hold := .retire, core := none, deadline := none, pending := 0, slot := none }

/-- A running thread has no descriptor that it still issues. -/
theorem Dev.dropIssue_running (h : (d.thread t).st = .running) : d.dropIssue t = d := by
  simp [Dev.dropIssue, h]

/-- A running program ends: its entry retires. -/
theorem Dev.endThread_entry (h : (d.thread t).st = .running) (ho : (d.thread t).origin = some (fn, tag, sq)) :
    d.endThread t status value = (d.putThread t (d.thread t).ended).retire fn ⟨status, 1, t, tag, sq, value, d.upNs⟩ (some t) := by
  unfold Dev.endThread
  rw [Dev.dropIssue_running h]
  dsimp only
  split
  · next heq =>
    cases ho.symm.trans heq
    rfl
  · next heq => exact nomatch ho.symm.trans heq

/-- A running firmware thread ends: it stands for no entry, and is free where no descriptor names it. -/
theorem Dev.endThread_free (h : (d.thread t).st = .running) (ho : (d.thread t).origin = none) (hn : (d.thread t).outst = 0) :
    d.endThread t status value = d.putThread t {} := by
  unfold Dev.endThread
  rw [Dev.dropIssue_running h]
  dsimp only
  split
  · next heq => exact nomatch ho.symm.trans heq
  · unfold Dev.freeThread
    rw [Dev.thread_putThread]
    dsimp only
    rw [if_pos hn]
    exact Dev.putThread_putThread d t _ _

end Ends

/-- A program's own trap: the record stands in g1 and its entry retires ABORTED (R151). -/
theorem Dev.trap_program {d : Dev} {t fn tag sq cause code : Nat} (hst : (d.thread t).st = .running) (hfw : (d.thread t).firmware = false)
    (ho : (d.thread t).origin = some (fn, tag, sq)) (hc : cause ≠ cEcc) :
    d.trap t cause code =
      (d.putThread t ((d.thread t).setG 1 (BitVec.ofNat 64 (trapRecord cause code (d.thread t).pc))).ended).retire fn
        ⟨stAborted, 1, t, tag, sq, trapRecord cause code (d.thread t).pc, d.upNs⟩ (some t) := by
  obtain ⟨g, hg⟩ := (d.thread t).setG_eq 1 (BitVec.ofNat 64 (trapRecord cause code (d.thread t).pc))
  unfold Dev.trap
  dsimp only
  rw [if_neg hc, if_neg (Bool.eq_false_iff.mp hfw), Dev.endThread_entry (fn := fn) (tag := tag) (sq := sq), Dev.thread_putThread, Dev.putThread_putThread]
  · rfl
  · rw [Dev.thread_putThread, hg]
    exact hst
  · rw [Dev.thread_putThread, hg]
    exact ho

/-- Settles O18: YIELD puts the thread at its order's tail; END and a program's TRAP retire its entry. -/
theorem yieldEndTrap : Obligations.YieldEndTrap := by
  intro s c imm t d x ended recd
  refine ⟨fun h => ?_, fun fn tag sq ho => ⟨fun h => ?_, fun h hfw => ?_⟩⟩
  · refine completes_ok (congrArg (ok s) ((Dev.svetu_runs (le_refl 4) h).trans (Dev.toTail_putThread d t (x.next 4)))) ?_
    exact ⟨Dev.thread_putThread _ _ _, fun k hk => Dev.thread_putThread_other _ _ hk, rfl⟩
  · obtain ⟨-, hst, -, -⟩ := id h
    exact congrArg (ok s) ((Dev.svetu_runs (le_refl 4) h).trans (Dev.endThread_entry hst ho))
  · obtain ⟨-, hst, -, -⟩ := id h
    exact congrArg (ok s) ((Dev.svetu_runs (le_refl 4) h).trans ((Dev.orTrap_run (by simp)).trans (Dev.trap_program hst hfw ho (by decide))))

/-! ## What a trap reports (R136, R152) -/

theorem Tab.get_foldl_put {α : Type} [DecidableEq α] (z : α) (f : Nat → α) (l : List Nat) : ∀ (m : Tab α) (i : Nat),
    Tab.get z (l.foldl (fun t i => t.put z i (f i)) m) i = if i ∈ l then f i else Tab.get z m i := by
  induction l with
  | nil => simp
  | cons a l ih =>
    intro m i
    rw [List.foldl_cons, ih]
    by_cases hl : i ∈ l
    · simp [hl]
    · by_cases ha : i = a
      · subst ha
        simp [hl, Tab.get_put_same]
      · simp [hl, ha, Tab.get_put_other]

theorem Dev.updateBypass_latched (d : Dev) : d.updateBypass.flt.latched = d.flt.latched := by
  unfold Dev.updateBypass
  dsimp only
  split
  · rfl
  · split
    · rfl
    · simp

/-- The actions of a HALT change no class that is in force. -/
theorem Dev.haltActions_latched (d : Dev) : d.haltActions.flt.latched = d.flt.latched := by
  have switched := (((d.discardQueues fun _ => true).serveLink 1).serveLink 2).updateBypass_latched
  simp only [Dev.serveLink_frame, Dev.discardQueues_frame] at switched
  unfold Dev.haltActions
  dsimp only
  split
  · simpa only [Dev.emit_frame] using switched
  · exact switched

/-- A source that latches is in force with its class (R576). -/
theorem Dev.raise_latched {d : Dev} {i : Nat} (hi : i < 64) (h : d.flt.latched.get 0 i = 0) : (d.raise i).flt.latched.get 0 i = d.flt.classOf i + 1 := by
  have fresh : i ∈ d.fresh (1#64 <<< i) := by simp [Dev.fresh, hi, h]
  have latches : d.fresh (1#64 <<< i) ≠ [] := List.ne_nil_of_mem fresh
  have put : Tab.get 0 ((d.fresh (1#64 <<< i)).foldl (fun t i => t.put 0 i (d.flt.classOf i + 1)) d.flt.latched) i = d.flt.classOf i + 1 :=
    (Tab.get_foldl_put 0 (fun i => d.flt.classOf i + 1) _ _ _).trans (if_pos fresh)
  unfold Dev.raise Dev.latch
  dsimp only
  rw [if_neg latches]
  split
  · rw [Dev.haltActions_latched]
    split
    · exact put
    · simpa using put
  · split
    · exact put
    · simpa using put

/-- A fault writes no log. -/
theorem Dev.raise_log (d : Dev) (i : Nat) : (d.raise i).hub.log = d.hub.log := by
  have unsent (e : Dev) : (e.raiseVector 0 1).broadcast.hub.log = e.hub.log := by
    obtain ⟨pba, l, he⟩ := e.raiseVector_eq 0 1
    rw [(Dev.broadcast_frame _).2.2.2.1, he]
  unfold Dev.raise Dev.latch
  dsimp only
  split
  · rfl
  · split
    · rw [(Dev.haltActions_frame _).2.2.1]
      split
      · rfl
      · rw [unsent]
    · split
      · rfl
      · rw [unsent]

theorem Dev.raise_thread (d : Dev) (i k : Nat) : (d.raise i).thread k = d.thread k := by simp [Dev.thread]

theorem getLast?_lastN {α : Type} (l : List α) (x : α) : (lastN 64 (l ++ [x])).getLast? = some x := by
  rw [lastN, List.getLast?_drop, if_neg (by simp), List.getLast?_concat]

theorem length_lastN_le {α : Type} (n : Nat) (l : List α) : (lastN n l).length ≤ n := by
  rw [lastN, List.length_drop]
  omega

/-- A firmware thread that no entry and no descriptor names ends by its own trap: its log entry is written, it is free, and source 6 is raised (R152). -/
theorem Dev.trap_firmware {d : Dev} {t cause code : Nat} (hst : (d.thread t).st = .running) (hfw : (d.thread t).firmware = true)
    (ho : (d.thread t).origin = none) (hn : (d.thread t).outst = 0) (hc : cause ≠ cEcc) :
    d.trap t cause code = ((d.logTrap (trapRecord cause code (d.thread t).pc)).putThread t {}).raise 6 := by
  unfold Dev.trap
  dsimp only
  rw [if_neg hc, if_pos hfw, Dev.endThread_free (d := d.logTrap _) hst ho hn]

/-- The record's fields, as the log entry takes them apart. -/
theorem trapRecord_fields (code : Nat) (pc : DWord) (h : code < 2 ^ 8) :
    trapRecord cSwtrap code pc % 2 ^ 16 = 7 + code * 2 ^ 8 ∧ trapRecord cSwtrap code pc / 2 ^ 32 = pc.toNat % 2 ^ 32 := by
  have := Nat.mod_lt pc.toNat (show 0 < 2 ^ 32 by decide)
  unfold trapRecord cSwtrap
  omega

/-- Settles O22: a firmware trap is logged and latches source 6; a program's double-bit error ends it and latches source 7. -/
theorem trapsAreReported : Obligations.TrapsAreReported := by
  intro s c rd ra imm off t d x a
  refine ⟨fun h hfw ho hn hl => ?_, fun h hfw ha hin hbad hl => ?_⟩
  · obtain ⟨-, hst, -, -⟩ := id h
    have trapped : d.trap t cSwtrap imm.toNat = _ := Dev.trap_firmware hst hfw ho hn (by decide)
    obtain ⟨hsource, harg⟩ := trapRecord_fields imm.toNat x.pc imm.isLt
    refine completes_ok (congrArg (ok s) ((Dev.svetu_runs (le_refl 4) h).trans ((Dev.orTrap_run (by simp)).trans trapped))) ?_
    rw [Dev.raise_log]
    refine ⟨⟨_, getLast?_lastN _ _, rfl, Nat.succ_pos _, hsource, harg⟩, length_lastN_le _ _, Dev.raise_status (by decide) hl, Dev.raise_latched (by decide) hl, ?_,
      fun k hk => ?_, fun j => Dev.memByte_congr ?_ ?_ j⟩
    · exact (Dev.raise_thread _ _ _).trans (Dev.thread_putThread _ _ _)
    · exact (Dev.raise_thread _ _ _).trans (Dev.thread_putThread_other _ _ hk)
    · simp only [Dev.raise_frame]
      rfl
    · simp only [Dev.raise_frame]
      rfl
  · have traps : firstTrap (d.accessTraps x 0 a 8 false) = some cEcc := Dev.accessTraps_ecc ha hin hbad rfl
    refine completes_ok (congrArg (ok s) ((Dev.svetu_runs (le_refl 4) h).trans (Dev.orTrap_trap traps))) ?_
    unfold Dev.trap
    dsimp only
    rw [if_pos rfl, if_neg (Bool.eq_false_iff.mp hfw)]
    refine ⟨Dev.raise_status (by decide) ?_, Dev.memByte_congr ?_ ?_⟩
    · simp only [Dev.endThread_frame]
      exact hl
    · simp only [Dev.raise_frame, Dev.endThread_frame]
      rfl
    · simp only [Dev.raise_frame, Dev.endThread_frame]
      rfl

end Sys2Proof.Machine

/-! # Holds and waits end, and cores are given to threads (R139, R147, R148, R155, R179 to R186) -/

namespace Sys2Proof.Machine

/-! ## The registers above g31

They exist in no instruction; a thread's record in the model has room for them, and no dispatch writes there. -/

/-- No register at and above 32 differs, in any thread's record. -/
def Dev.KeepsHigh (d e : Dev) : Prop := ∀ k r, 32 ≤ r → (e.thread k).gpr r = (d.thread k).gpr r

section High
variable {a d e : Dev} {y : Thread} {t u v c r : Nat}

theorem Dev.KeepsHigh.refl (d : Dev) : d.KeepsHigh d := fun _ _ _ => rfl

theorem Dev.KeepsHigh.trans (h : a.KeepsHigh d) (g : d.KeepsHigh e) : a.KeepsHigh e := fun k r hr => (g k r hr).trans (h k r hr)

theorem Dev.KeepsHigh.of_thread (ht : ∀ k, e.thread k = if k = t then y else d.thread k) (hy : ∀ r, 32 ≤ r → y.gpr r = (d.thread t).gpr r) : d.KeepsHigh e := by
  intro k r hr
  rw [ht k]
  split
  · next h => exact h ▸ hy r hr
  · rfl

theorem Dev.withRegs_gpr_high (d : Dev) (t : Nat) (hr : 32 ≤ r) : (d.withRegs t).gpr r = (d.thread t).gpr r := by
  unfold Dev.withRegs
  split
  · exact fromImage_gpr_high _ _ hr
  · rfl

theorem Dev.spill_keepsHigh (d : Dev) (v : Nat) : d.KeepsHigh (d.spill v) := .of_thread (spill_thread d v) fun _ _ => rfl

theorem Dev.makeRoom_keepsHigh (d : Dev) (c : Nat) : d.KeepsHigh (d.makeRoom c) := by
  unfold Dev.makeRoom
  split
  · exact .refl d
  · split
    · exact d.spill_keepsHigh _
    · exact .refl d

theorem Dev.takeSlot_keepsHigh (d : Dev) (t c : Nat) : d.KeepsHigh (d.takeSlot t c) := by
  unfold Dev.takeSlot
  split
  · next k _ =>
    exact .of_thread (fun j => thread_modThread _ t j fun _ => { d.withRegs t with home := c, slot := some k, resAge := d.dsp.age }) fun _ => d.withRegs_gpr_high t
  · exact .refl d

theorem Dev.makeResident_keepsHigh (d : Dev) (t c : Nat) : d.KeepsHigh (d.makeResident t c) := by
  unfold Dev.makeResident
  dsimp only
  split
  · exact .of_thread (fun k => thread_modThread d t k fun x => { x with home := c }) fun _ _ => rfl
  · split
    · exact .refl d
    · refine (Dev.KeepsHigh.trans ?_ (Dev.makeRoom_keepsHigh _ c)).trans (Dev.takeSlot_keepsHigh _ t c)
      split
      · exact d.spill_keepsHigh t
      · exact .refl d

theorem Dev.runOn_keepsHigh (d : Dev) (t c : Nat) : d.KeepsHigh (d.runOn t c) :=
  (d.makeResident_keepsHigh t c).trans
    (.of_thread (fun k => thread_modThread (d.makeResident t c) t k fun x => { x with st := .running, core := some c, home := c, runStart := d.ctl.ticks }) fun _ _ => rfl)

theorem Dev.preempt_keepsHigh (n : Nat) : ∀ (d : Dev) (t : Nat), d.KeepsHigh (Dev.preempt n d t) := by
  induction n with
  | zero => exact fun d _ => .refl d
  | succ n ih =>
    intro d t
    unfold Dev.preempt
    split
    · next c v _ =>
      have head : d.KeepsHigh (d.toHead v) := .of_thread (fun k => thread_modThread _ v k fun x => x.readied (d.dsp.head - 1)) fun _ _ => rfl
      exact (head.trans (Dev.runOn_keepsHigh _ t c)).trans (ih _ v)
    · exact .refl d

theorem Dev.toTail_keepsHigh (d : Dev) (t : Nat) : d.KeepsHigh (d.toTail t) :=
  .of_thread (fun k => thread_modThread _ t k fun x => x.readied (d.dsp.tail + 1)) fun _ _ => rfl

theorem Dev.makeReady_keepsHigh (d : Dev) (t : Nat) : d.KeepsHigh (d.makeReady t) := (d.toTail_keepsHigh t).trans (Dev.preempt_keepsHigh 64 _ t)

/-- A live thread made READY reads every register as before. -/
theorem Dev.makeReady_gpr (hl : (d.thread t).live = true) (k r : Nat) : ((d.makeReady t).withRegs k).gpr r = (d.withRegs k).gpr r := by
  rcases lt_or_ge r 32 with hr | hr
  · exact (makeReady_sameRegs d t hl k).1 r hr
  · rw [Dev.withRegs_gpr_high _ _ hr, Dev.withRegs_gpr_high _ _ hr, d.makeReady_keepsHigh t k r hr]

/-- A descriptor joining its queue changes no register. -/
theorem Dev.acceptIssue_gpr {x : Desc} (hk : x.known = true) (k r : Nat) : ((d.acceptIssue x).withRegs k).gpr r = (d.withRegs k).gpr r := by
  have regs : Dev.SameRegs d (d.acceptIssue x) := by
    rw [Dev.acceptIssue_known hk]
    exact sameRegs_put (fun j => thread_modThread d x.tid j fun y => y.counted 0 1) ⟨rfl, rfl⟩ rfl rfl ⟨rfl, rfl, rfl, rfl, rfl, rfl⟩ rfl
  rcases lt_or_ge r 32 with hr | hr
  · exact (regs k).1 r hr
  · rw [Dev.withRegs_gpr_high _ _ hr, Dev.withRegs_gpr_high _ _ hr, Dev.acceptIssue_thread hk]
    rfl

/-- A register written wherever the thread's registers stand reads as written, and the others as before. -/
theorem Dev.modRegs_setG_gpr (d : Dev) (t rd r : Nat) (v : DWord) :
    ((d.modRegs t fun y => y.setG rd v).withRegs t).gpr r = ((d.withRegs t).setG rd v).gpr r := by
  have place : ((d.withRegs t).setG rd v).spilled = (d.thread t).spilled := by
    obtain ⟨g, hg⟩ := (d.withRegs t).setG_eq rd v
    rw [hg]
    unfold Dev.withRegs
    split
    · obtain ⟨g', pc, wt, cas, hx⟩ := fromImage_frame (d.thread t) (d.memRead (d.regsAt t) 272)
      rw [hx]
      rfl
    · rfl
  rcases lt_or_ge r 32 with hr | hr
  · exact (modRegs_withRegs d t (fun y => y.setG rd v) place).1 r hr
  · rw [Dev.withRegs_gpr_high _ _ hr, Dev.modRegs_thread]

/-- A live thread whose registers change stays live. -/
theorem Dev.modRegs_live {f : Thread → Thread} (hl : (d.thread t).live = true) (hf : (f (d.withRegs t)).st = (d.withRegs t).st) : ((d.modRegs t f).thread t).live = true := by
  rw [Dev.modRegs_thread]
  unfold Thread.live at hl ⊢
  rw [hf, (withRegs_flags d t).2.2.1]
  exact hl

end High

/-! ## Ends of holds and waits -/

section Ends
variable {d : Dev} {t : Nat}

/-- A register's number in the flags' width is the flags. -/
theorem setWidth_flags (w : Word) : w.setWidth 64 = BitVec.ofNat 64 w.toNat := (BitVec.ofNat_toNat 64 w).symm

theorem Dev.loadReturn_data {rd : Nat} {v : DWord} {cas : Option Bool} (hst : (d.thread t).st = .held) (hh : (d.thread t).hold = .data rd v cas) :
    d.loadReturn t = d.putThread t { (d.thread t).setG rd v with st := .running, hold := .nothing, cas := cas.getD (d.thread t).cas } := by
  have moved : ({ d.thread t with st := .running, hold := .nothing } : Thread).setG rd v = { (d.thread t).setG rd v with st := .running, hold := .nothing } := by
    unfold Thread.setG
    split <;> rfl
  unfold Dev.loadReturn
  dsimp only
  rw [hst, hh]
  dsimp only
  rw [moved]
  cases cas with
  | none =>
    obtain ⟨g, hg⟩ := (d.thread t).setG_eq rd v
    rw [hg]
    rfl
  | some b => rfl

theorem Dev.fenceDone_over {drain : Bool} (hst : (d.thread t).st = .held) (hh : (d.thread t).hold = .fence drain) (hi : drain = true → (d.thread t).issued = 0) :
    d.fenceDone t = d.makeReady t := by
  unfold Dev.fenceDone
  dsimp only
  rw [hst, hh]
  cases drain with
  | false => rfl
  | true => simp [hi rfl]

theorem Dev.issueSpace_room {rd : Nat} {y : Desc} (hst : (d.thread t).st = .held) (hh : (d.thread t).hold = .issue rd y) (hr : d.issueFull y = false) :
    d.issueSpace t = ((d.modRegs t fun z => z.setG rd 0).acceptIssue y).makeReady t := by
  unfold Dev.issueSpace
  dsimp only
  rw [hst, hh]
  simp [hr]

theorem Dev.waitTimeout_over {limit : Nat} (hst : (d.thread t).st = .waiting) (hl : (d.thread t).deadline = some limit) (hn : limit ≤ d.nowNs) :
    d.waitTimeout t = (d.modRegs t fun y => { y with wt := true, deadline := none }.setG (d.thread t).waitRd
      (BitVec.ofNat 64 ((d.thread t).flags &&& (d.thread t).mask).toNat)).makeReady t := by
  unfold Dev.waitTimeout
  dsimp only
  rw [hst, hl, setWidth_flags]
  exact if_pos hn

end Ends

/-! ## Dispatch -/

section Dispatch
variable {d : Dev} {t c v : Nat}

theorem readyLe_iff (p q : Nat × Thread) : readyLe p q = true ↔ p.2.prio < q.2.prio ∨ p.2.prio = q.2.prio ∧ p.2.ready ≤ q.2.ready := by
  unfold readyLe
  split
  · next h => simp [h]
  · next h => simp [h]

theorem readyLe_total (p q : Nat × Thread) : readyLe p q = true ∨ readyLe q p = true := by
  simp only [readyLe_iff]
  omega

theorem readyLe_trans (p q r : Nat × Thread) (h : readyLe p q = true) (g : readyLe q r = true) : readyLe p r = true := by
  simp only [readyLe_iff] at *
  omega

/-- The READY thread that comes before every other one of a core is the one the core runs. -/
theorem Dev.nextReady_first (hm : (t, d.thread t) ∈ d.thr) (hst : (d.thread t).st = .ready) (hi : d.idleCore t = some c)
    (hfirst : ∀ p ∈ d.thr, p.1 ≠ t → p.2.st = .ready → d.idleCore p.1 = some c →
      (d.thread t).prio < p.2.prio ∨ (d.thread t).prio = p.2.prio ∧ (d.thread t).ready < p.2.ready) : d.nextReady c = some t := by
  have mem : (t, d.thread t) ∈ d.thr.filter fun p => p.2.st == .ready && d.idleCore p.1 == some c := List.mem_filter.mpr ⟨hm, by simp [hst, hi]⟩
  obtain ⟨p, hp⟩ : ∃ p, firstBest readyLe (d.thr.filter fun p => p.2.st == .ready && d.idleCore p.1 == some c) = some p := by
    cases hl : d.thr.filter fun p => p.2.st == .ready && d.idleCore p.1 == some c with
    | nil => exact absurd (hl ▸ mem) List.not_mem_nil
    | cons q l => exact firstBest_isSome q l
  have best := firstBest_le readyLe_total readyLe_trans hp _ mem
  obtain ⟨hpm, hpr⟩ := List.mem_filter.mp (firstBest_mem hp)
  have same : p.1 = t := by
    by_contra hne
    simp only [Bool.and_eq_true, beq_iff_eq] at hpr
    have before := hfirst p hpm hne hpr.1 hpr.2
    rw [readyLe_iff] at best
    dsimp only at best
    omega
  rw [Dev.nextReady, hp, Option.map_some, same]

theorem Dev.dispatch_first (hb : d.coreBusy c = false) (hc : d.ctl.islBusy ≠ some (26 + c / 64)) (hn : d.nextReady c = some t) : d.dispatch c = d.runOn t c := by
  unfold Dev.dispatch
  rw [hn, if_neg (by simp [hb, hc])]

/-- What a core runs is RUNNING there from now. -/
theorem Dev.runOn_thread (d : Dev) (t c : Nat) : (d.runOn t c).thread t =
    { (d.makeResident t c).thread t with st := .running, core := some c, home := c, runStart := d.ctl.ticks } := Dev.thread_putThread _ _ _

theorem Dev.runOn_eq (d : Dev) (t c : Nat) : d.runOn t c =
    { d with dsp := (d.runOn t c).dsp, thr := (d.runOn t c).thr, loc := (d.runOn t c).loc, locErr := (d.runOn t c).locErr,
             spillErr := (d.runOn t c).spillErr, mem := (d.runOn t c).mem, poison := (d.runOn t c).poison } := by
  have h := Dev.runOn_frame d t c
  generalize d.runOn t c = e at h ⊢
  cases e
  simpa only [Dev.mk.injEq, true_and, and_true] using h

theorem Dev.sliceEnd_over (hr : d.running c = some v) (hover : (d.thread v).runStart + (if d.dsp.sliceUs = 0 then 1 else d.dsp.sliceUs) * 3000 ≤ d.ctl.ticks)
    (hw : ∃ p ∈ d.thr, p.2.st = .ready ∧ p.2.prio = (d.thread v).prio ∧ p.2.allows c = true ∧ d.idleCore p.1 = none) : d.sliceEnd c = d.toTail v := by
  obtain ⟨p, hp, hst, hprio, hallows, hidle⟩ := hw
  have waits : d.thr.any (fun p => p.2.st == .ready && p.2.prio == (d.thread v).prio && p.2.allows c && (d.idleCore p.1).isNone) = true :=
    List.any_eq_true.mpr ⟨p, hp, by simp [hst, hprio, hallows, hidle]⟩
  unfold Dev.sliceEnd
  rw [hr]
  dsimp only
  rw [waits, Bool.and_true]
  exact if_pos (decide_eq_true hover)

theorem Dev.setLine_thread (d : Dev) (i : Nat) (b : Bool) (k : Nat) : (d.setLine i b).thread k = d.thread k := by simp [Dev.thread]

theorem Dsp.stallTicks_eq (s : Dsp) : s.stallTicks = max 1 (min 1000000 s.stallUs) * 3000 := by
  unfold Dsp.stallTicks clampN
  split
  · omega
  · split <;> omega

theorem HeldPost.overdue_thread (u target n core : Nat) (mask : Word) {since now limit : Nat} (h : since + limit < now) :
    (⟨.thread u, target, n, core, mask, since, false⟩ : HeldPost).overdue now limit = true := by simp [HeldPost.overdue, h]

/-- A thread's post that is held beyond the limit and comes last is the one that is recorded (R186). -/
theorem Dev.dispatchStall_last {l : List HeldPost} {u target n core since : Nat} {mask : Word}
    (hh : d.dsp.heldPosts = l ++ [⟨.thread u, target, n, core, mask, since, false⟩]) (hs : since + d.dsp.stallTicks < d.ctl.ticks) :
    d.dispatchStall = { d with dsp := { d.dsp with
      heldPosts := d.dsp.heldPosts.map (fun (g : HeldPost) => { g with stalled := g.stalled || g.overdue d.ctl.ticks d.dsp.stallTicks }),
      last := stallWord ⟨.thread u, target, n, core, mask, since, false⟩ } }.setLine 5 true := by
  have late : (d.dsp.heldPosts.filter fun h => h.overdue d.ctl.ticks d.dsp.stallTicks).getLast? = some ⟨.thread u, target, n, core, mask, since, false⟩ := by
    rw [hh, List.filter_append, List.filter_singleton, HeldPost.overdue_thread _ _ _ _ _ hs]
    exact List.getLast?_concat
  unfold Dev.dispatchStall
  dsimp only
  rw [late]

end Dispatch

/-- Settles O20: the ends of holds and waits, the thread a core takes, the end of a slice, and the record of a held post. -/
theorem holdsEndAndCoresAreGiven : Obligations.HoldsEndAndCoresAreGiven := by
  refine ⟨fun s t => ?_, fun s c => ?_⟩
  · intro d x
    refine ⟨fun rd v cas hst hh => ?_, fun drain hst hh hi => ?_, fun rd y hst hh hr hk => ?_, fun limit hst hl hn => ?_⟩
    · refine completes_ok (congrArg (ok s) (Dev.loadReturn_data hst hh)) ⟨Dev.thread_putThread _ _ _, fun k hk => Dev.thread_putThread_other _ _ hk, rfl⟩
    · exact completes_ok (congrArg (ok s) (Dev.fenceDone_over hst hh hi)) (Dev.makeReady_readied (by rw [Thread.live, hst]))
    · have live : ((d.modRegs t fun z => z.setG rd 0).thread t).live = true := by
        refine Dev.modRegs_live (by rw [Thread.live, hst]) ?_
        obtain ⟨g, hg⟩ := (d.withRegs t).setG_eq rd 0
        rw [hg]
      have accepted : (((d.modRegs t fun z => z.setG rd 0).acceptIssue y).thread t).live = true := by
        rw [Dev.acceptIssue_thread hk]
        exact live
      have gpr (r : Nat) : ((((d.modRegs t fun z => z.setG rd 0).acceptIssue y).makeReady t).withRegs t).gpr r = ((d.withRegs t).setG rd 0).gpr r := by
        rw [Dev.makeReady_gpr accepted, Dev.acceptIssue_gpr hk, Dev.modRegs_setG_gpr]
      have queue (k : Nat) : (((d.modRegs t fun z => z.setG rd 0).acceptIssue y).makeReady t).unitQueue k = ((d.modRegs t fun z => z.setG rd 0).acceptIssue y).unitQueue k := by
        simp [Dev.unitQueue]
      have unmoved (k : Nat) : (d.modRegs t fun z => z.setG rd 0).unitQueue k = d.unitQueue k := by simp [Dev.unitQueue]
      obtain ⟨hold, place⟩ := Dev.makeReady_goesOn ((d.modRegs t fun z => z.setG rd 0).acceptIssue y) t
      refine completes_ok (congrArg (ok s) (Dev.issueSpace_room hst hh hr)) ⟨?_, fun r _ hne => ?_, ?_, fun k hne => ?_, hold, place.imp And.left And.left⟩
      · rw [gpr, Thread.gpr_setG_same]
        exact ite_self 0
      · rw [gpr, Thread.gpr_setG_other _ _ hne]
      · rw [queue, Dev.acceptIssue_unitQueue hk, unmoved]
      · rw [queue, Dev.acceptIssue_unitQueue_other hk hne, unmoved]
    · refine completes_ok (congrArg (ok s) (Dev.waitTimeout_over hst hl hn)) (Dev.makeReady_readied (Dev.modRegs_live (by rw [Thread.live, hst]) ?_))
      obtain ⟨g, hg⟩ := ({ d.withRegs t with wt := true, deadline := none } : Thread).setG_eq (d.thread t).waitRd
        (BitVec.ofNat 64 ((d.thread t).flags &&& (d.thread t).mask).toNat)
      rw [hg]
  · intro d
    refine ⟨fun t hb hc hm hst hi hfirst => ?_, fun v hr hover hw => ?_, fun l u target n core mask since hh hs => ?_⟩
    · have hn := Dev.nextReady_first hm hst hi hfirst
      refine completes_ok (congrArg (ok s) (Dev.dispatch_first hb hc hn)) ?_
      rw [Dev.runOn_thread]
      exact ⟨rfl, rfl, rfl, rfl, (runOn_keeps d t c (by rw [Thread.live, hst])).1, Dev.runOn_eq d t c⟩
    · exact completes_ok (congrArg (ok s) (Dev.sliceEnd_over hr hover hw))
        ⟨Dev.thread_putThread _ _ _, fun k hk => Dev.thread_putThread_other _ _ hk, rfl⟩
    · have past : since + d.dsp.stallTicks < d.ctl.ticks := by rwa [Dsp.stallTicks_eq]
      refine completes_ok (congrArg (ok s) (Dev.dispatchStall_last hh past)) ⟨Dev.setLine_high _ (by decide) (by decide) (by decide), ?_, ?_, fun k => Dev.setLine_thread _ _ _ k⟩
      · simp only [Dev.setLine_frame]
        rfl
      · have late : HeldPost.overdue _ d.ctl.ticks d.dsp.stallTicks = true := HeldPost.overdue_thread u target n core mask past
        simp only [Dev.setLine_frame]
        rw [show s.dev.dsp.heldPosts = _ from hh, List.map_append, List.map_singleton, List.getLast?_concat, late]
        rfl

end Sys2Proof.Machine

/-! # Completion of descriptors: a refused descriptor and the notification (R157 to R159) -/

namespace Sys2Proof.Machine

section Status
variable {d : Dev} {x : Desc} {u op status mt : Nat}

/-- The device with the status word of a completion written, where one is asked for (R158). -/
def Dev.statusWritten (d : Dev) (x : Desc) (status mt : Nat) : Dev :=
  if x.statusAddr = 0 then d else d.memWrite x.statusAddr (statusWord x status mt)

/-- The device with the notify post of a completion made, unless the descriptor wants none (R159). -/
def Dev.notified (d : Dev) (x : Desc) (status : Nat) : Dev :=
  if x.notify = 0xFFFF || (x.notifyErr && (status == stOK || status == stLate)) then d else d.postBy x.path x.notify (flagMask x.flag)

theorem Dev.complete_steps (hb : x.bytes ≠ []) : d.complete x status mt = ((d.statusWritten x status mt).notified x status).settle x :=
  if_neg (by simpa using hb)

theorem Dev.statusWritten_thread (k : Nat) : (d.statusWritten x status mt).thread k = d.thread k := by
  unfold Dev.statusWritten Dev.thread
  split <;> simp

theorem Dev.statusWritten_dsp : (d.statusWritten x status mt).dsp = d.dsp := by
  unfold Dev.statusWritten
  split <;> simp

/-- The first byte at the status address is the status (Table 4.9). -/
theorem Dev.memByte_complete_status (hb : x.bytes ≠ []) (h : x.statusAddr ≠ 0) (hc : x.statusAddr + 16 ≤ d.capacity) :
    (d.complete x status mt).memByte x.statusAddr = BitVec.ofNat 8 status := by
  have word : (statusWord x status mt)[0]'(by simp) = BitVec.ofNat 8 status := by simp [statusWord, toLE]
  have written : (d.statusWritten x status mt).memByte x.statusAddr = BitVec.ofNat 8 status := by
    rw [Dev.statusWritten, if_neg h]
    exact (Dev.memByte_memWrite_inside d x.statusAddr _ 0 (by simp) (by simpa using hc)).trans word
  rw [Dev.complete_steps hb]
  refine (Dev.memByte_congr ?_ ?_ _).trans written
  · unfold Dev.notified
    split <;> simp
  · unfold Dev.notified
    split <;> simp

/-- A unit whose queue holds one descriptor, of no operation of the unit that the descriptor names, completes it with UNSUPPORTED (R157 step 1). -/
theorem Dev.runUnit_unknown {sp : Dev → Desc → OpSpec} {run : Dev → Desc → Dev} (hq : d.unitQueue u = [x]) (hk : x.opKnown = false) :
    d.runUnit u op sp run = (d.putUnitQueue u []).complete x stUnsupported 0 := by
  have empty : ((d.putUnitQueue u []).complete x stUnsupported 0).unitQueue u = [] := by simp [Dev.unitQueue, Dev.putUnitQueue]
  have skipped : d.unitHead u = (d.putUnitQueue u []).complete x stUnsupported 0 := by
    rw [Dev.unitHead, hq, List.length_singleton, Dev.skipUnknown, hq]
    simp only [hk]
    rfl
  unfold Dev.runUnit
  dsimp only
  rw [skipped, Dev.takeHead, empty]

end Status

/-- A descriptor that names unit 0 and operation 1, has a status word at 4096 and is too short for any operation. -/
def strayDesc : Desc := { bytes := (zeros 32).set 1 1 |>.set 0x19 16 }

/-- A device in whose unit 1 that descriptor waits. -/
def strayDev : Dev := { Dev.reset with unitQ := [(1, [strayDesc])] }

/-- Refutes O23: the unit byte of the descriptor at a unit's head may name another unit. With unit 0 in it the descriptor is of no known operation, and is
completed with UNSUPPORTED (12), not with the BAD_DESCRIPTOR (4) that the check of CAPTURE CONFIGURE answers. -/
theorem not_refusedDescriptors : ¬ Obligations.RefusedDescriptors := by
  intro h
  have taken : strayDev.takeHead 1 1 = some (strayDesc, strayDev.putUnitQueue 1 []) := rfl
  have bad : (strayDev.putUnitQueue 1 []).check157 strayDesc (capConfigureSpec (strayDev.putUnitQueue 1 []) strayDesc) = some 4 := by
    refine if_pos ?_
    rfl
  have named : strayDesc.statusAddr ≠ 0 := by decide
  have fits : strayDesc.statusAddr + 16 ≤ strayDev.capacity := by decide
  obtain ⟨d, run, status, -⟩ := h ⟨[], strayDev⟩ strayDesc (strayDev.putUnitQueue 1 []) 4 (.captureConfigure, 1, 1, capConfigureSpec) List.mem_cons_self
    taken bad named fits
  have fits : strayDesc.statusAddr + 16 ≤ (strayDev.putUnitQueue 1 []).capacity := fits
  have done : strayDev.runUnit 1 1 capConfigureSpec Dev.capConfigure = (strayDev.putUnitQueue 1 []).complete strayDesc stUnsupported 0 :=
    Dev.runUnit_unknown rfl (by decide)
  cases run
  rw [done, Dev.memByte_complete_status (List.cons_ne_nil _ _) named fits] at status
  exact absurd status (by decide)

/-! ## The notification -/

/-- A thread with that many fewer descriptors that name it and that it has issued. -/
def Thread.discounted (x : Thread) (named issued : Nat) : Thread := { x with outst := x.outst - named, issued := x.issued - issued }

/-- A thread with flags posted on the merge path. -/
def Thread.posted (x : Thread) (mask : Word) : Thread := { x with pending := x.pending ||| mask }

section Notify
variable {d : Dev} {x : Desc} {status mt : Nat}

theorem Thread.live_ne_draining {y : Thread} (h : y.live = true) : y.st ≠ .draining := by
  intro hd
  simp [Thread.live, hd] at h

theorem Dev.mergePost_thread {t : Nat} (mask : Word) (hl : (d.thread t).live = true) (k : Nat) :
    (d.mergePost t mask).thread k = if k = t then (d.thread t).posted mask else d.thread k := by
  rw [Dev.mergePost, if_pos hl]
  exact thread_modThread d t k fun y => y.posted mask

/-- A descriptor fewer for the thread that issued it, if it is still the same (R139). -/
theorem Dev.unissue_thread (d : Dev) (x : Desc) (k : Nat) : (d.modThread x.tid fun t => if t.inc = x.inc then { t with issued := t.issued - 1 } else t).thread k =
    (d.thread k).discounted 0 (if k = x.tid ∧ (d.thread x.tid).inc = x.inc then 1 else 0) := by
  rw [thread_modThread]
  by_cases hk : k = x.tid
  · subst hk
    by_cases hi : (d.thread x.tid).inc = x.inc <;> simp [hi, Thread.discounted]
  · simp [hk, Thread.discounted]

/-- A descriptor fewer for a live notify thread (R153). -/
theorem Dev.unname_live (hn : x.notify ≠ 0xFFFF) (hl : (d.thread x.notify).live = true) : d.unname x = d.putThread x.notify ((d.thread x.notify).discounted 1 0) := by
  have stays : ¬ (decide ((d.thread x.notify).st = .draining) && decide ((d.thread x.notify).outst ≤ 1)) = true := by
    rw [decide_eq_false (Thread.live_ne_draining hl)]
    exact Bool.false_ne_true
  exact (if_neg hn).trans (if_neg stays)

/-- The counts of the issuing thread, if it is still the same, and of the notify thread (R139, R153, R170). -/
theorem Dev.settle_thread (hn : x.notify ≠ 0xFFFF) (hl : (d.thread x.notify).live = true) (k : Nat) : (d.settle x).thread k =
    (d.thread k).discounted (if k = x.notify then 1 else 0) (if k = x.tid ∧ (d.thread x.tid).inc = x.inc then 1 else 0) := by
  have unissued := d.unissue_thread x
  unfold Dev.settle
  rw [Dev.unname_live hn (by rw [unissued]; exact hl)]
  by_cases hk : k = x.notify
  · subst hk
    rw [Dev.thread_putThread, unissued, if_pos rfl]
    rfl
  · rw [Dev.thread_putThread_other _ _ hk, unissued, if_neg hk]

/-- CAPTURE, MF, ENC and DEC complete by the merge path (R175). -/
theorem Desc.path_merges (h : x.unit = 1 ∨ x.unit = 2 ∨ x.unit = 4 ∨ x.unit = 5) : mergeUnit x.path = true := by
  rcases h with h | h | h | h <;> simp [Desc.path, mergeUnit, h]

/-- NOTIFY_ERR holds the post of this status back (R159). -/
def Desc.holdsBack (x : Desc) (status : Nat) : Bool := x.notifyErr && (status == stOK || status == stLate)

/-- The notification of a unit of the merge path is the thread's pending flags alone. -/
theorem Dev.notified_thread (hm : mergeUnit x.path = true) (hn : x.notify ≠ 0xFFFF) (hf : x.flag < 32) (hl : (d.thread x.notify).live = true) (k : Nat) :
    (d.notified x status).thread k =
      if k = x.notify ∧ x.holdsBack status = false then (d.thread x.notify).posted (1#32 <<< x.flag) else d.thread k := by
  have notified : d.notified x status = if x.holdsBack status = true then d else d.mergePost x.notify (1#32 <<< x.flag) := by
    simp [Dev.notified, Dev.postBy, Desc.holdsBack, flagMask, hm, hn, hf]
  rw [notified]
  cases x.holdsBack status with
  | true => simp
  | false => simp [Dev.mergePost_thread _ hl]

theorem Dev.notified_dsp (hm : mergeUnit x.path = true) : (d.notified x status).dsp = d.dsp := by
  unfold Dev.notified Dev.postBy
  rw [hm]
  split <;> simp

/-- The threads after a completion on the merge path. -/
theorem Dev.complete_thread (hb : x.bytes ≠ []) (hm : mergeUnit x.path = true) (hn : x.notify ≠ 0xFFFF) (hf : x.flag < 32) (hl : (d.thread x.notify).live = true)
    (k : Nat) : (d.complete x status mt).thread k =
      (if k = x.notify ∧ x.holdsBack status = false then (d.thread x.notify).posted (1#32 <<< x.flag) else d.thread k).discounted
        (if k = x.notify then 1 else 0) (if k = x.tid ∧ (d.thread x.tid).inc = x.inc then 1 else 0) := by
  have written (k : Nat) : (d.statusWritten x status mt).thread k = d.thread k := Dev.statusWritten_thread k
  have notified (k : Nat) : ((d.statusWritten x status mt).notified x status).thread k = _ := Dev.notified_thread hm hn hf (by rwa [written]) k
  have same (k : Nat) : (((d.statusWritten x status mt).notified x status).thread k).inc = (d.thread k).inc ∧
      (((d.statusWritten x status mt).notified x status).thread k).live = (d.thread k).live := by
    rw [notified, written, written]
    split
    · next h => exact ⟨by rw [h.1]; rfl, by rw [h.1]; rfl⟩
    · exact ⟨rfl, rfl⟩
  rw [Dev.complete_steps hb, Dev.settle_thread hn (by rw [(same _).2, hl]), (same _).1, notified, written, written]

end Notify

/-- Settles O24: the completion is the status word, the post on the merge path unless NOTIFY_ERR holds it back, and the two counts. -/
theorem completionNotifies : Obligations.CompletionNotifies := by
  intro d x st mt hb hu hn hf hl e
  have hm := Desc.path_merges hu
  have ht (k : Nat) : e.thread k = _ := Dev.complete_thread hb hm hn hf hl k
  have low : st < 2 ↔ (st == stOK || st == stLate) = true := by
    simp only [stOK, stLate, Bool.or_eq_true, beq_iff_eq]
    omega
  refine ⟨fun h => ?_, fun h hst => ?_, ?_, ?_, ?_, fun k hi hk => ?_⟩
  · have posts : x.holdsBack st = false := by
      rw [Desc.holdsBack, Bool.and_eq_false_iff]
      exact h.imp id fun h => Bool.eq_false_iff.mpr fun g => absurd (low.mpr g) (Nat.not_lt.mpr h)
    rw [ht, if_pos ⟨rfl, posts⟩]
    rfl
  · have held : x.holdsBack st = true := by rw [Desc.holdsBack, h, low.mp hst]; rfl
    rw [ht, if_neg (by simp [held])]
    rfl
  · rw [ht, if_pos rfl]
    split <;> rfl
  · have counted : (e.thread x.tid).issued = (d.thread x.tid).issued - if x.tid = x.tid ∧ (d.thread x.tid).inc = x.inc then 1 else 0 := by
      rw [ht]
      by_cases h : x.tid = x.notify ∧ x.holdsBack st = false
      · rw [if_pos h, h.1]
        rfl
      · rw [if_neg h]
        rfl
    rw [counted]
    by_cases hi : (d.thread x.tid).inc = x.inc <;> simp [hi]
  · show (d.complete x st mt).dsp = d.dsp
    rw [Dev.complete_steps hb]
    exact (Dev.settle_frame _ x).2.2.2.2.2.1.trans ((Dev.notified_dsp hm).trans Dev.statusWritten_dsp)
  · rw [ht, if_neg (by simp [hk]), if_neg hk, if_neg (by simp [hi])]
    rfl

end Sys2Proof.Machine

/-! # Rings: their registers and their entries (R93 to R108) -/

namespace Sys2Proof.Machine

/-! ## One completion entry -/

theorem clampLog_eq (k : Nat) : clampLog k = max 4 (min 12 k) := by
  unfold clampLog clampN
  split
  · omega
  · split <;> omega

/-- Where the next completion entry of a ring stands in host memory (R102). -/
def Ring.compAddr (r : Ring) : Nat := r.cqBaseLo.toNat + r.cqBaseHi.toNat * 2 ^ 32 + r.cqTail.toNat % 2 ^ clampLog r.cqLog * 32

/-- The next completion entry of a ring, as it is written. -/
def Ring.compEntry (r : Ring) (c : Comp) : OutEv := .host r.compAddr (c.bytes r.cqTail.toNat (clampLog r.cqLog))

/-- An enabled, ACTIVE ring delivers (R108). -/
theorem Ring.delivers_active {r : Ring} (he : r.enable = true) (hst : r.st = .active) : r.delivers = true := by simp [Ring.delivers, he, hst]

/-- A ring with one completion entry more written, and what it says of vector 2. -/
def Ring.completed (r : Ring) (pending : Bool) (due : Option Nat) : Ring := { r with cqTail := r.cqTail + 1, v2pending := pending, v2due := due }

section Comp
variable {d : Dev} {fn : Nat} {c : Comp} {r : Ring}

/-- A vector raised behind what is driven out. -/
theorem Dev.raiseVector_behind (d : Dev) (e : OutEv) (r : Ring) (vec : Nat) : ∃ pba l,
    (Dev.putRing { d with out := d.out ++ [e] } fn r).raiseVector fn vec = { d.putRing fn r with hub := { d.hub with pba := pba }, out := d.out ++ e :: l } := by
  obtain ⟨pba, l, hv⟩ := Dev.raiseVector_eq (Dev.putRing { d with out := d.out ++ [e] } fn r) fn vec
  refine ⟨pba, l, hv.trans ?_⟩
  simp only [Dev.putRing, List.append_assoc, List.singleton_append]

/-- A completion entry that is written: the ring's tail moves, and a vector may follow (R102, R105). -/
theorem Dev.writeComp_eq (d : Dev) (fn : Nat) (c : Comp) : ∃ p q pba l, d.writeComp fn c =
    { d.putRing fn ((d.ring fn).completed p q) with hub := { d.hub with pba := pba }, out := d.out ++ (d.ring fn).compEntry c :: l } := by
  unfold Dev.writeComp
  dsimp only
  rw [Dev.emit_of_link_zero d rfl]
  split
  · exact ⟨(d.ring fn).v2pending, (d.ring fn).v2due, d.hub.pba, [], rfl⟩
  · split
    · obtain ⟨pba, l, hv⟩ := d.raiseVector_behind ((d.ring fn).compEntry c) ((d.ring fn).completed true (d.ring fn).v2due) 2
      exact ⟨true, (d.ring fn).v2due, pba, l, hv⟩
    · exact ⟨(d.ring fn).v2pending, some (d.ctl.ticks + (d.ring fn).coalesce * 3000), d.hub.pba, [], rfl⟩

/-- Without a vector pending or due and without a delay, the vector follows at once. -/
theorem Dev.writeComp_vector (hp : (d.ring fn).v2pending = false) (hq : (d.ring fn).v2due = none) (hc : (d.ring fn).coalesce = 0) : ∃ pba l, d.writeComp fn c =
    { d.putRing fn ((d.ring fn).completed true none) with hub := { d.hub with pba := pba }, out := d.out ++ (d.ring fn).compEntry c :: l } := by
  unfold Dev.writeComp
  dsimp only
  rw [Dev.emit_of_link_zero d rfl, if_neg (by simp [hp, hq]), if_pos hc]
  obtain ⟨pba, l, hv⟩ := d.raiseVector_behind ((d.ring fn).compEntry c) ((d.ring fn).completed true (d.ring fn).v2due) 2
  rw [← hq]
  exact ⟨pba, l, hv⟩

/-- The first completion that is held leaves a ring that is served and has room (R103). -/
theorem Dev.pump_held {cs : List Comp} (n : Nat) (hd : (d.ring fn).delivers = true) (hr : (d.ring fn).room = true) (hh : (d.ring fn).held = c :: cs) :
    Dev.pump fn (n + 1) d = Dev.pump fn n ((d.putRing fn { d.ring fn with held := cs }).writeComp fn c) := by
  rw [Dev.pump]
  dsimp only
  rw [if_pos hd, hr, hh]
  rfl

/-- With nothing held, the first retirement does, and lets its thread go. -/
theorem Dev.pump_retired {t : Option Nat} {cs : List (Comp × Option Nat)} (n : Nat) (hd : (d.ring fn).delivers = true) (hr : (d.ring fn).room = true)
    (hh : (d.ring fn).held = []) (hq : (d.ring fn).retq = (c, t) :: cs) :
    Dev.pump fn (n + 1) d = Dev.pump fn n (((d.putRing fn { d.ring fn with retq := cs }).writeComp fn c).releaseRetired t) := by
  rw [Dev.pump]
  dsimp only
  rw [if_pos hd, hr, hh, hq]
  rfl

theorem Dev.pumpAll_nothing (hh : (d.ring fn).held = []) (hq : (d.ring fn).retq = []) : d.pumpAll fn = d := by
  rw [Dev.pumpAll, hh, hq]
  rfl

theorem Dev.pumpAll_held (hd : (d.ring fn).delivers = true) (hr : (d.ring fn).room = true) (hh : (d.ring fn).held = [c]) (hq : (d.ring fn).retq = []) :
    d.pumpAll fn = (d.putRing fn { d.ring fn with held := [] }).writeComp fn c := by
  rw [Dev.pumpAll, hh, hq]
  exact Dev.pump_held 0 hd hr hh

theorem Dev.pumpAll_retired (hd : (d.ring fn).delivers = true) (hr : (d.ring fn).room = true) (hh : (d.ring fn).held = []) (hq : (d.ring fn).retq = [(c, none)]) :
    d.pumpAll fn = (d.putRing fn { d.ring fn with retq := [] }).writeComp fn c := by
  rw [Dev.pumpAll, hh, hq]
  exact Dev.pump_retired 0 hd hr hh hq

theorem Dev.putRing_ring (d : Dev) (fn : Nat) (r : Ring) (h : r = d.ring fn) (k : Nat) : (d.putRing fn r).ring k = d.ring k := by
  by_cases hk : k = fn
  · rw [hk, Dev.ring_putRing, h]
  · exact Dev.ring_putRing_other d r hk

end Comp

/-! ## The rings in ERROR -/

theorem Tab.mem_of_get {α : Type} {z : α} {m : Tab α} {k : Nat} (h : Tab.get z m k ≠ z) : (k, Tab.get z m k) ∈ m := by
  induction m with
  | nil => exact absurd rfl h
  | cons p m ih =>
    by_cases hp : p.1 = k
    · subst hp
      simp [Tab.get]
    · rw [Tab.get, if_neg hp] at h ⊢
      exact List.mem_cons_of_mem _ (ih h)

section Errors
variable {d : Dev} {fn : Nat} {r : Ring}

theorem Dev.anyError_of_ring (h : (d.ring fn).st = .error) : d.rings.any (fun e => e.2.st == .error) = true := by
  have stands : Tab.get ({} : Ring) d.rings fn ≠ {} := fun e => by
    rw [Dev.ring, e] at h
    exact absurd h (by decide)
  exact List.any_eq_true.mpr ⟨_, Tab.mem_of_get stands, beq_iff_eq.mpr h⟩

theorem Dev.noError_putRing (h : d.rings.any (fun e => e.2.st == .error) = false) (hr : r.st ≠ .error) :
    (d.putRing fn r).rings.any (fun e => e.2.st == .error) = false := by
  rw [List.any_eq_false] at h ⊢
  intro p hp
  rcases Tab.mem_put hp with rfl | hp
  · simpa using hr
  · exact h p hp

theorem Dev.submitLine_ring (k : Nat) : d.submitLine.ring k = d.ring k := by
  unfold Dev.submitLine Dev.ring
  simp

theorem Dev.memByte_submitLine (j : Nat) : d.submitLine.memByte j = d.memByte j := by
  unfold Dev.submitLine
  exact Dev.memByte_congr (by simp) (by simp) j

theorem Dev.submitLine_error (h : (d.ring fn).st = .error) : d.submitLine.flt.live.getLsbD 4 = true := by
  rw [Dev.submitLine, Dev.anyError_of_ring h]
  exact Dev.setLine_high _ (by decide) (by decide) (by decide)

theorem Dev.submitLine_fine (h : d.rings.any (fun e => e.2.st == .error) = false) : d.submitLine = d.setLine 4 false := by rw [Dev.submitLine, h]

end Errors

/-! ## The registers -/

section Registers
variable {d : Dev} {who : Requester} {fn : Nat} {v : Word}

theorem Dev.sqTail_within (hw : d.reaches who fn = true) (h : (d.ring fn).st = .error ∨ (v - (d.ring fn).sqHead).toNat ≤ 2 ^ clampLog (d.ring fn).sqLog) :
    d.sqTail who fn v = d.putRing fn { d.ring fn with sqTail := v } := by
  unfold Dev.sqTail Dev.checkTail
  rw [if_pos hw]
  dsimp only
  rw [Dev.modRing_eq, Dev.ring_putRing]
  refine if_neg ?_
  rcases h with h | h
  · simp [h]
  · rw [Ring.overrun, decide_eq_false (Nat.not_lt.mpr h), Bool.and_false]
    exact Bool.false_ne_true

theorem Dev.sqTail_beyond (hw : d.reaches who fn = true) (hst : (d.ring fn).st ≠ .error) (h : 2 ^ clampLog (d.ring fn).sqLog < (v - (d.ring fn).sqHead).toNat) :
    d.sqTail who fn v = ((d.putRing fn { d.ring fn with sqTail := v, st := .error }).raiseVector fn 3).submitLine := by
  unfold Dev.sqTail Dev.checkTail
  rw [if_pos hw]
  dsimp only
  rw [Dev.modRing_eq, Dev.ring_putRing, Dev.putRing_putRing]
  refine if_pos ?_
  rw [Ring.overrun, decide_eq_true h, Bool.and_true]
  simpa using hst

theorem Dev.ringOn_off (hw : d.reaches who fn = true) (he : (d.ring fn).enable = false) (hh : (d.ring fn).held = []) (hq : (d.ring fn).retq = []) :
    d.ringOn who fn = (d.putRing fn { d.ring fn with enable := true, st := .active }).submitLine := by
  unfold Dev.ringOn
  rw [if_pos (by simp [hw, he]), Dev.modRing_eq, Dev.pumpAll_nothing (by simpa using hh) (by simpa using hq)]

theorem Dev.ringOff_on (hw : d.reaches who fn = true) (he : (d.ring fn).enable = true) (hn : (d.ring fn).wait = .nothing) :
    d.ringOff who fn = (d.putRing fn { d.ring fn with enable := false, st := .disabled }).submitLine := by
  have same : { d.ring fn with enable := false, st := .disabled, wait := RingWait.dropImage .nothing } =
      ({ d.ring fn with enable := false, st := .disabled } : Ring) := by
    rw [← hn]
    simp [RingWait.dropImage, hn]
  unfold Dev.ringOff
  rw [if_pos (by simp [hw, he]), Dev.modRing_eq, hn, same]

theorem Dev.cqHead_reached (hw : d.reaches who fn = true) : d.cqHead who fn v = (d.putRing fn { d.ring fn with cqHead := v, v2pending := false }).pumpAll fn := if_pos hw

theorem Dev.coalesceEnd_due {t : Nat} (hq : (d.ring fn).v2due = some t) (ht : t ≤ d.ctl.ticks) :
    d.coalesceEnd fn = (d.putRing fn { d.ring fn with v2due := none, v2pending := true }).raiseVector fn 2 := by
  unfold Dev.coalesceEnd
  rw [hq]
  exact if_pos ht

/-- An unmasked vector goes out while the link is up (R651). -/
theorem Dev.raiseVector_sent {vec : Nat} (hl : d.hub.linkUp = true) (hm : (d.hub.msix.get 1 (fn * 128 + vec * 4 + 3)).getLsbD 0 = false) :
    d.raiseVector fn vec = { d with out := d.out ++ [.msix fn vec] } := by
  unfold Dev.raiseVector
  rw [hl, hm]
  exact Dev.emit_of_link_zero d (e := .msix fn vec) rfl

end Registers

/-- Settles O25: each register write is the ring's change, what waits is delivered, and the line follows the rings in ERROR. -/
theorem ringRegisters : Obligations.RingRegisters := by
  intro s who fn v d r m base
  have hm : clampLog r.cqLog = m := clampLog_eq _
  refine ⟨fun h => ?_, fun hw => ?_, fun due hq ht hl hmask => ?_⟩
  · have off : (d.reaches who fn && (d.ring fn).enable) = false := by rw [h, Bool.false_and]
    have on : (d.reaches who fn && !(d.ring fn).enable) = false := by rw [h, Bool.false_and]
    exact ⟨congrArg (ok s) (if_neg (Bool.eq_false_iff.mp h)), congrArg (ok s) (if_neg (Bool.eq_false_iff.mp h)),
      congrArg (ok s) (if_neg (Bool.eq_false_iff.mp on)), congrArg (ok s) (if_neg (Bool.eq_false_iff.mp off))⟩
  · refine ⟨fun h => ?_, fun hst h => ?_, fun he hh hq hfine => ?_, fun he hn => ?_, fun hh hq => ?_, fun c hh hq he hst hv hc hroom => ?_⟩
    · exact congrArg (ok s) (Dev.sqTail_within hw (by rwa [clampLog_eq]))
    · refine completes_ok (congrArg (ok s) (Dev.sqTail_beyond hw hst (by rwa [clampLog_eq]))) ?_
      obtain ⟨pba, l, hv⟩ := (d.putRing fn { r with sqTail := v, st := .error }).raiseVector_eq fn 3
      have rings (k : Nat) : ((d.putRing fn { r with sqTail := v, st := .error }).raiseVector fn 3).ring k = (d.putRing fn { r with sqTail := v, st := .error }).ring k := by
        rw [hv]
        rfl
      refine ⟨?_, fun k hk => ?_, ?_, fun j => ?_⟩
      · rw [Dev.submitLine_ring, rings, Dev.ring_putRing]
      · rw [Dev.submitLine_ring, rings, Dev.ring_putRing_other _ _ hk]
      · exact Dev.submitLine_error (fn := fn) (by rw [rings, Dev.ring_putRing])
      · rw [Dev.memByte_submitLine, hv]
        rfl
    · have fine := Dev.noError_putRing (fn := fn) (r := { r with enable := true, st := .active }) hfine nofun
      refine completes_ok (congrArg (ok s) ((Dev.ringOn_off hw he hh hq).trans (Dev.submitLine_fine fine))) ⟨?_, fun k hk => ?_, Dev.setLine_low _ _, rfl⟩
      · exact Dev.ring_putRing _ _ _
      · exact Dev.ring_putRing_other _ _ hk
    · refine completes_ok (congrArg (ok s) (Dev.ringOff_on hw he hn)) ⟨?_, fun k hk => ?_, fun j => ?_⟩
      · rw [Dev.submitLine_ring, Dev.ring_putRing]
      · rw [Dev.submitLine_ring, Dev.ring_putRing_other _ _ hk]
      · rw [Dev.memByte_submitLine]
        rfl
    · exact congrArg (ok s) ((Dev.cqHead_reached hw).trans (Dev.pumpAll_nothing (by simpa using hh) (by simpa using hq)))
    · have written : d.cqHead who fn v = ((d.putRing fn { r with cqHead := v, v2pending := false, held := [] }).writeComp fn c) := by
        rw [Dev.cqHead_reached hw, Dev.pumpAll_held (c := c), Dev.ring_putRing, Dev.putRing_putRing]
        · rw [Dev.ring_putRing]
          exact Ring.delivers_active he hst
        · rw [Dev.ring_putRing, Ring.room, hm]
          exact decide_eq_true hroom
        · rw [Dev.ring_putRing]
          exact hh
        · rw [Dev.ring_putRing]
          exact hq
      obtain ⟨pba, l, hw⟩ := Dev.writeComp_vector (d := d.putRing fn { r with cqHead := v, v2pending := false, held := [] }) (fn := fn) (c := c)
        (by simp) (by simpa using hv) (by simpa using hc)
      refine completes_ok (congrArg (ok s) (written.trans hw)) ⟨?_, ⟨l, ?_⟩, fun j => rfl⟩
      · refine (Dev.ring_putRing _ _ _).trans ?_
        rw [Dev.ring_putRing, Ring.completed, ← hv]
      · rw [Dev.ring_putRing, Ring.compEntry, Ring.compAddr, hm]
        rfl
  · refine congrArg (ok s) ((Dev.coalesceEnd_due hq ht).trans (Dev.raiseVector_sent hl ?_))
    exact hmask

/-! ## Entries that retire at once -/

/-- From `d` to `e`, the entry at the head of a ring has been read as `read` says and has retired with `c`: its completion entry is written, and no other ring, no
thread and no memory has changed. -/
def Dev.EntryRetired (d : Dev) (fn : Nat) (read : OutEv) (c : Comp) (e : Dev) : Prop :=
  (e.ring fn).sqHead = (d.ring fn).sqHead + 1 ∧ (e.ring fn).wait = .nothing ∧ (e.ring fn).cqTail = (d.ring fn).cqTail + 1 ∧
  (∃ l, e.out = d.out ++ read :: OutEv.host ((d.ring fn).cqBaseLo.toNat + (d.ring fn).cqBaseHi.toNat * 2 ^ 32 +
      (d.ring fn).cqTail.toNat % 2 ^ max 4 (min 12 (d.ring fn).cqLog) * 32) (c.bytes (d.ring fn).cqTail.toNat (max 4 (min 12 (d.ring fn).cqLog))) :: l) ∧
  (∀ k, k ≠ fn → e.ring k = d.ring k) ∧ (∀ k, e.thread k = d.thread k) ∧ ∀ j, e.memByte j = d.memByte j

/-- A ring whose completion goes out at once: it is served, nothing waits before the entry, and the completion ring has room. -/
structure Ring.Ready (r : Ring) : Prop where
  enabled : r.enable = true
  active : r.st = .active
  noneHeld : r.held = []
  noneQueued : r.retq = []
  hasRoom : r.room = true

section Entries
variable {d e : Dev} {fn : Nat} {read : OutEv} {b : List Byte} {kind tag status : Nat}

/-- An entry that retires into a ring with room is the ring's change, the completion entry, and vector 2. -/
theorem Dev.entryDone_eq (h : (e.ring fn).Ready) : ∃ p q pba l, e.entryDone fn kind tag status =
    { e.putRing fn ({ e.ring fn with wait := .nothing, sqHead := (e.ring fn).sqHead + 1 }.completed p q) with
      hub := { e.hub with pba := pba }, out := e.out ++ (e.ring fn).compEntry ⟨status, kind, 0xFFFF, tag, (e.ring fn).sqHead.toNat, 0, e.upNs⟩ :: l } := by
  obtain ⟨henable, hactive, hheld, hretq, hroom⟩ := h
  have written : e.entryDone fn kind tag status = (e.putRing fn { e.ring fn with wait := .nothing, sqHead := (e.ring fn).sqHead + 1, retq := [] }).writeComp fn
      ⟨status, kind, 0xFFFF, tag, (e.ring fn).sqHead.toNat, 0, e.upNs⟩ := by
    unfold Dev.entryDone Dev.retire
    dsimp only
    simp only [Dev.modRing_eq, Dev.ring_putRing, Dev.putRing_putRing]
    rw [Dev.pumpAll_retired (c := ⟨status, kind, 0xFFFF, tag, (e.ring fn).sqHead.toNat, 0, e.upNs⟩), Dev.ring_putRing, Dev.putRing_putRing]
    · rw [Dev.ring_putRing]
      exact Ring.delivers_active henable hactive
    · rw [Dev.ring_putRing]
      exact hroom
    · rw [Dev.ring_putRing]
      exact hheld
    · rw [Dev.ring_putRing, hretq]
      rfl
  obtain ⟨p, q, pba, l, hw⟩ := Dev.writeComp_eq (e.putRing fn { e.ring fn with wait := .nothing, sqHead := (e.ring fn).sqHead + 1, retq := [] }) fn
    ⟨status, kind, 0xFFFF, tag, (e.ring fn).sqHead.toNat, 0, e.upNs⟩
  refine ⟨p, q, pba, l, written.trans (hw.trans ?_)⟩
  rw [Dev.ring_putRing, Dev.putRing_putRing, ← hretq]
  rfl

/-- What an entry that retires at once leaves, where the device differs from `d` in the hub and the dispatcher and has driven out the read. -/
theorem Dev.entryDone_retired (he : ∃ hub dsp, e = { d with hub := hub, dsp := dsp, out := d.out ++ [read] }) (h : (d.ring fn).Ready) :
    d.EntryRetired fn read ⟨status, kind, 0xFFFF, tag, (d.ring fn).sqHead.toNat, 0, d.upNs⟩ (e.entryDone fn kind tag status) := by
  obtain ⟨hub, dsp, rfl⟩ := he
  obtain ⟨p, q, pba, l, hd⟩ := Dev.entryDone_eq (e := { d with hub := hub, dsp := dsp, out := d.out ++ [read] }) (kind := kind) (tag := tag) (status := status) h
  rw [hd, Dev.EntryRetired, ← clampLog_eq]
  have ring : Dev.ring _ fn = _ := Dev.ring_putRing { d with hub := hub, dsp := dsp, out := d.out ++ [read] } fn
    ({ d.ring fn with wait := .nothing, sqHead := (d.ring fn).sqHead + 1 }.completed p q)
  refine ⟨congrArg Ring.sqHead ring, congrArg Ring.wait ring, congrArg Ring.cqTail ring, ⟨l, ?_⟩, fun k hk => Dev.ring_putRing_other _ _ hk, fun k => rfl, fun j => rfl⟩
  exact List.append_assoc ..

/-- What the last entry leaves of the hub and the dispatcher. -/
theorem Dev.entryDone_hub (h : (e.ring fn).Ready) : (e.entryDone fn kind tag status).hub.turn = e.hub.turn ∧ (e.entryDone fn kind tag status).hub.aer = e.hub.aer ∧
    (e.entryDone fn kind tag status).dsp = e.dsp := by
  obtain ⟨p, q, pba, l, hd⟩ := Dev.entryDone_eq (kind := kind) (tag := tag) (status := status) h
  rw [hd]
  exact ⟨rfl, rfl, rfl⟩

theorem Dev.mayFetch_ready (h : d.mayFetch fn = true) (hq : (d.ring fn).retq = []) (hr : (d.ring fn).room = true) : (d.ring fn).Ready := by
  simp only [Dev.mayFetch, Bool.and_eq_true, beq_iff_eq, List.isEmpty_iff] at h
  obtain ⟨⟨⟨⟨⟨he, hst⟩, hh⟩, -⟩, -⟩, -⟩ := h
  exact ⟨he, hst, hh, hq, hr⟩

/-- The ring whose turn it is may be fetched for. -/
theorem Dev.mayFetch_of_served (h : d.nextServed = some fn) : d.mayFetch fn = true := by
  have := List.find?_some h
  simp only [Dev.fetchable, Bool.and_eq_true] at this
  exact this.1.1

/-- The device after the read of the slot at a ring's head. -/
def Dev.slotRead (d : Dev) (fn : Nat) : Dev := { d with hub := { d.hub with turn := fn }, out := d.out ++ [.hostRead (d.ring fn).headAddr 64] }

theorem Dev.fetchEntry_served (h : d.nextServed = some fn) (hb : b.length = 64) : d.fetchEntry fn b = (d.slotRead fn).takeEntry fn b := by
  unfold Dev.fetchEntry
  rw [if_pos h, Dev.emit_of_link_zero _ rfl, show fit 64 b = b by simp [fit, hb]]
  rfl

theorem Dev.takeEntry_unknown (h : 2 < byteAt b 0) : e.takeEntry fn b = e.entryDone fn (byteAt b 0) (fieldLE b 4 4) stBadDesc := by
  obtain ⟨n, hn⟩ := Nat.exists_eq_add_of_lt h
  unfold Dev.takeEntry
  dsimp only
  rw [show byteAt b 0 = n + 3 by omega]
  rfl

theorem Dev.takeEntry_post (h : byteAt b 0 = 2) : e.takeEntry fn b = e.postEntry fn (fieldLE b 4 4) (fieldLE b 8 2) (BitVec.ofNat 32 (fieldLE b 0x10 4)) := by
  unfold Dev.takeEntry
  dsimp only
  rw [h]
  rfl

theorem Dev.takeEntry_program (h : byteAt b 0 = 1) : e.takeEntry fn b =
    if badProgram b then e.entryDone fn 1 (fieldLE b 4 4) stBadDesc else e.modRing fn fun (r : Ring) => { r with wait := .program b } := by
  unfold Dev.takeEntry
  dsimp only
  rw [h]
  rfl

theorem Dev.takeEntry_none (h : byteAt b 0 = 0) : e.takeEntry fn b = e.entryDone fn 0 (fieldLE b 4 4) stOK := by
  unfold Dev.takeEntry
  dsimp only
  rw [h]
  rfl

variable {tg : Nat} {mask : Word}

theorem Dev.postEntry_foreign (h : 4095 < tg ∨ (e.thread tg).st = .free ∨ (e.thread tg).fn ≠ fn) : e.postEntry fn tag tg mask = e.entryDone fn 2 tag stNotOwner :=
  if_pos (by rcases h with h | h | h <;> simp [h])

theorem Dev.postEntry_draining (hu : tg ≤ 4095) (hst : (e.thread tg).st = .draining) (hf : (e.thread tg).fn = fn) : e.postEntry fn tag tg mask = e.entryDone fn 2 tag stOK :=
  (if_neg (by simp [hst, hf]; omega)).trans (if_pos (by simp [Thread.live, hst]))

theorem Dev.postEntry_room (hu : tg ≤ 4095) (hl : (e.thread tg).live = true) (hf : (e.thread tg).fn = fn) (hr : e.postRoom tg = true) :
    e.postEntry fn tag tg mask = (e.enqueuePost tg mask).entryDone fn 2 tag stOK := by
  have stands : (e.thread tg).st ≠ .free := fun h => by simp [Thread.live, h] at hl
  exact (if_neg (by simp [stands, hf]; omega)).trans ((if_neg (by simp [hl])).trans (if_pos hr))

theorem Dev.imageFail_fails {f : ImageFail} (hw : (d.ring fn).wait = .program b) (hm : d.mayFetch fn = true) (ht : d.freeProgram ≠ none) :
    d.imageFail fn f = ((d.readImage b).aerReport 0 (aerBit f)).entryDone fn 1 (fieldLE b 4 4) (if f == .timeout then stTimeout else stBadDesc) := by
  obtain ⟨t, ht⟩ := Option.ne_none_iff_exists'.mp ht
  unfold Dev.imageFail
  rw [hw, ht]
  exact if_pos hm

theorem Dev.readImage_eq (d : Dev) (b : List Byte) : d.readImage b = { d with out := d.out ++ [.hostRead (fieldLE b 8 8) (fieldLE b 0x10 4)] } :=
  Dev.emit_of_link_zero d rfl

end Entries

/-- Settles O26: each kind of entry is a retirement after the read of its slot, but for a program, which waits for its image. -/
theorem submissionEntries : Obligations.SubmissionEntries := by
  intro s fn b hb d r m base slot done room
  have headSlot : OutEv.hostRead (d.ring fn).headAddr 64 = slot := by
    rw [Ring.headAddr, clampLog_eq]
  have ready (hm : d.mayFetch fn = true) (hr : room) : (d.ring fn).Ready :=
    Dev.mayFetch_ready hm hr.2.1 (by rw [Ring.room, clampLog_eq]; exact decide_eq_true hr.2.2)
  refine ⟨fun h => congrArg (ok s) (if_neg h), fun hn hr => ?_, fun hw hm hr ht f => ?_⟩
  · have hready := ready (Dev.mayFetch_of_served hn) hr
    have read : ∃ hub dsp, d.slotRead fn = { d with hub := hub, dsp := dsp, out := d.out ++ [slot] } := ⟨_, d.dsp, by rw [← headSlot]; rfl⟩
    have fetched {k : Dev} (h : (d.slotRead fn).takeEntry fn b = k) : exec (.sqEntryFetch fn b) s = .next { s with dev := k } :=
      congrArg (ok s) ((Dev.fetchEntry_served hn hb).trans h)
    refine ⟨fun h => ?_, fun h => ?_, fun h hbad => ?_, fun h hbad => ?_, fun h => ?_⟩
    · exact ⟨_, fetched (Dev.takeEntry_none h), Dev.entryDone_retired read hready, (Dev.entryDone_hub (e := d.slotRead fn) hready).1⟩
    · exact ⟨_, fetched (Dev.takeEntry_unknown h), Dev.entryDone_retired read hready⟩
    · exact ⟨_, fetched ((Dev.takeEntry_program h).trans (if_pos hbad)), Dev.entryDone_retired read hready⟩
    · refine (fetched ((Dev.takeEntry_program h).trans (if_neg (by simp [hbad])))).trans ?_
      rw [← headSlot]
      rfl
    · intro u
      refine ⟨fun h' => ?_, fun hu hst hf => ?_, fun hu hl hf hp => ?_⟩
      · exact ⟨_, fetched ((Dev.takeEntry_post h).trans (Dev.postEntry_foreign h')), Dev.entryDone_retired read hready⟩
      · exact ⟨_, fetched ((Dev.takeEntry_post h).trans (Dev.postEntry_draining hu hst hf)), Dev.entryDone_retired read hready⟩
      · have posted : ∃ hub dsp, (d.slotRead fn).enqueuePost u (BitVec.ofNat 32 (fieldLE b 0x10 4)) = { d with hub := hub, dsp := dsp, out := d.out ++ [slot] } :=
          ⟨{ d.hub with turn := fn }, (d.enqueuePost u (BitVec.ofNat 32 (fieldLE b 0x10 4))).dsp, by rw [← headSlot]; rfl⟩
        exact ⟨_, fetched ((Dev.takeEntry_post h).trans (Dev.postEntry_room hu hl hf hp)), Dev.entryDone_retired posted hready,
          (Dev.entryDone_hub (e := (d.slotRead fn).enqueuePost u _) hready).2.2⟩
  · have hready := ready hm hr
    have reported : ∃ hub dsp, (d.readImage b).aerReport 0 (aerBit f) = { d with hub := hub, dsp := dsp, out := d.out ++ [.hostRead (fieldLE b 8 8) (fieldLE b 0x10 4)] } := by
      rw [Dev.readImage_eq]
      exact ⟨_, d.dsp, rfl⟩
    have status : (if f == .timeout then stTimeout else stBadDesc) = if f = .timeout then 0x0A else 0x04 := by cases f <;> rfl
    have fails := Dev.imageFail_fails (f := f) hw hm ht
    rw [status] at fails
    refine ⟨_, congrArg (ok s) fails, Dev.entryDone_retired reported hready, ?_⟩
    rw [Dev.readImage_eq, (Dev.entryDone_hub (e := Dev.aerReport { d with out := d.out ++ [.hostRead (fieldLE b 8 8) (fieldLE b 0x10 4)] } 0 (aerBit f)) hready).2.1]
    cases f <;> simp [Dev.aerReport, aerBit]

end Sys2Proof.Machine

/-! # Accesses of the host (R86, R87, R106, R107, R646, R647, R650, R673) -/

namespace Sys2Proof.Machine

/-! ## Register writes -/

section Slices
variable {d : Dev} {fn : Fin 64} {k : Nat} {v : Word}

/-- A word of a ring slice by the PF's view of BAR2. -/
theorem slice_toNat (fn : Fin 64) (hk : k < 0x4000) : (BitVec.ofNat 26 (fn * 0x4000 + k)).toNat = fn * 0x4000 + k := by
  have := fn.isLt
  rw [BitVec.toNat_ofNat, Nat.mod_eq_of_lt (by omega)]

theorem Dev.hostWrite_slice (hk : k < 0x4000) (h4 : k % 4 = 0) : d.hostWrite .pf .bar2 (BitVec.ofNat 26 (fn * 0x4000 + k)).toNat v 15 = d.writeSlice .pf fn k v := by
  have := fn.isLt
  have word : (fn.val * 0x4000 + k) / 4 * 4 = fn * 0x4000 + k := by omega
  unfold Dev.hostWrite
  dsimp only
  rw [slice_toNat fn hk, word, if_neg (by decide), if_pos (by omega), show (fn.val * 0x4000 + k) / 0x4000 = fn by omega, show (fn.val * 0x4000 + k) % 0x4000 = k by omega]

/-- A write of the PF to the DSP block of BAR0. -/
theorem Dev.writeReg_dsp {a : Nat} (hlo : 0x400000 ≤ a) (hhi : a < 0x500000) (h4 : a % 4 = 0) : d.writeReg .pf a v = d.writeDsp .pf (a - 0x400000) v := by
  have word : a / 4 * 4 = a := by omega
  unfold Dev.writeReg
  dsimp only
  rw [word, if_neg (by decide), if_neg (by omega), if_neg (by omega), if_neg (by omega), if_neg (by omega), if_pos hhi]

/-- DSP_SLICE_US takes the low 16 bits (Table 5.9). -/
theorem Dev.hostWrite_slice_us : d.hostWrite .pf .bar0 (0x400014 : BitVec 26).toNat v 15 = { d with dsp := { d.dsp with sliceUs := v.toNat % 65536 } } := by
  have field : bits v.toNat 0 16 = v.toNat % 65536 := by simp [bits]
  rw [← field]
  unfold Dev.hostWrite
  dsimp only
  rw [if_neg (by decide), Dev.writeReg_dsp (by decide) (by decide) (by decide), show (0x400014 : BitVec 26).toNat - 0x400000 = 0x14 by decide]
  rfl

theorem Ring.config_enabled {r : Ring} (h : r.enable = true) (o : Nat) (v : Word) : r.config o v = r := if_pos h

/-- Clearing bits 11:0 rounds down to 4 KiB. -/
theorem page_of_word (v : Word) : v &&& 0xFFFFF000#32 = BitVec.ofNat 32 (v.toNat / 4096 * 4096) := by
  have mask : ∀ i < 32, (0xFFFFF000#32).getLsbD i = decide (12 ≤ i) := by decide
  apply BitVec.eq_of_getLsbD_eq
  intro i hi
  rw [BitVec.getLsbD_and, mask i hi, BitVec.getLsbD_ofNat, decide_eq_true hi, Bool.true_and, show 4096 = 2 ^ 12 from rfl, Nat.testBit_mul_two_pow,
    Nat.testBit_div_two_pow, Bool.and_comm]
  by_cases h : 12 ≤ i
  · rw [Nat.sub_add_cancel h]
    rfl
  · simp [h]

end Slices

/-! ## The device-memory aperture -/

section Aperture
variable {d : Dev} {a : Nat}

/-- The bytes that a write with enables makes, one after another. -/
def Dev.bytesPut (d : Dev) (bs : List (Nat × Byte)) : Dev := bs.foldl (fun e p => e.bar4Byte p.1 p.2) d

theorem Dev.bytesPut_nil (d : Dev) : d.bytesPut [] = d := rfl
theorem Dev.bytesPut_one (d : Dev) (a : Nat) (b : Byte) : d.bytesPut [(a, b)] = d.bar4Byte a b := by
  rw [Dev.bytesPut, List.foldl_cons, List.foldl_nil]

theorem enabledBytes_cons (a : Nat) (b : Byte) (on : Bool) (data : List Byte) (en : List Bool) :
    enabledBytes a (b :: data) (on :: en) = (if on then [(a, b)] else []) ++ enabledBytes (a + 1) data en := by
  have rest : (((data.zip en).zipIdx 1).filter fun e => e.1.2).map (fun e => (a + e.2, e.1.1)) = enabledBytes (a + 1) data en := by
    rw [show 1 = 0 + 1 from rfl, List.zipIdx_succ, List.filter_map, List.map_map]
    refine List.map_congr_left fun e _ => ?_
    simp only [Function.comp, Prod.mk.injEq, and_true]
    omega
  rw [← rest, enabledBytes, List.zip_cons_cons, List.zipIdx_cons, List.filter_cons]
  cases on <;> rfl

theorem Dev.bar4Byte_memByte (b : Byte) (h : a < d.capacity) (j : Nat) : (d.bar4Byte a b).memByte j = if j = a then b else d.memByte j := by
  rw [Dev.bar4Byte, if_pos h]
  by_cases hj : j = a
  · subst hj
    rw [if_pos rfl]
    exact Dev.memByte_memPut_inside d j [b] 0 (by simp)
  · rw [if_neg hj]
    exact Dev.memByte_memPut_other d a [b] j (by simp; omega)

theorem Dev.bar4Byte_eq (d : Dev) (a : Nat) (b : Byte) : ∃ mem, d.bar4Byte a b = { d with mem := mem } := by
  unfold Dev.bar4Byte
  split
  · exact ⟨_, rfl⟩
  · exact ⟨d.mem, rfl⟩

theorem Dev.bytesPut_eq (bs : List (Nat × Byte)) : ∀ d : Dev, ∃ mem, d.bytesPut bs = { d with mem := mem } := by
  induction bs with
  | nil => exact fun d => ⟨d.mem, rfl⟩
  | cons p bs ih =>
    intro d
    obtain ⟨m, hm⟩ := d.bar4Byte_eq p.1 p.2
    obtain ⟨m', hm'⟩ := ih (d.bar4Byte p.1 p.2)
    exact ⟨m', hm'.trans (by rw [hm])⟩

theorem Dev.capacity_bytesPut (d : Dev) (bs : List (Nat × Byte)) : (d.bytesPut bs).capacity = d.capacity := by
  obtain ⟨m, hm⟩ := Dev.bytesPut_eq bs d
  simp only [hm, Dev.capacity, Dev.mcAt]

/-- A byte of an aperture write, where its enable is set (R673). -/
theorem Dev.bytesPut_memByte (data : List Byte) : ∀ (d : Dev) (a : Nat) (en : List Bool), data.length = en.length → a + data.length ≤ d.capacity → ∀ j,
    (d.bytesPut (enabledBytes a data en)).memByte j =
      if a ≤ j ∧ j < a + data.length ∧ en.getD (j - a) false = true then data.getD (j - a) 0 else d.memByte j := by
  induction data with
  | nil =>
    intro d a en _ _ j
    rw [if_neg (by simp; omega), enabledBytes, List.zip_nil_left]
    exact congrArg (Dev.memByte · j) d.bytesPut_nil
  | cons b data ih =>
    intro d a en hl hc j
    cases en with
    | nil => cases hl
    | cons on en =>
      rw [List.length_cons] at hc ⊢
      have first (j : Nat) : (d.bytesPut (if on then [(a, b)] else [])).memByte j = if j = a ∧ on = true then b else d.memByte j := by
        cases on with
        | false =>
          rw [if_neg (by simp), Dev.bytesPut_nil]
          simp
        | true =>
          rw [if_pos rfl, Dev.bytesPut_one, d.bar4Byte_memByte b (by omega)]
          simp
      have rest : d.bytesPut (enabledBytes a (b :: data) (on :: en)) = (d.bytesPut (if on then [(a, b)] else [])).bytesPut (enabledBytes (a + 1) data en) := by
        rw [enabledBytes_cons]
        exact List.foldl_append
      rw [rest, ih _ (a + 1) en (by simpa using hl) (by rw [Dev.capacity_bytesPut]; omega), first]
      rcases Nat.lt_trichotomy j a with hj | rfl | hj
      · rw [if_neg (by omega), if_neg (by omega), if_neg (by omega)]
      · rw [if_neg (by omega), Nat.sub_self]
        cases on <;> simp
      · obtain ⟨n, rfl⟩ := Nat.exists_eq_add_of_lt hj
        rw [show a + n + 1 - (a + 1) = n by omega, show a + n + 1 - a = n + 1 by omega, List.getD_cons_succ, List.getD_cons_succ, if_neg (show ¬ (a + n + 1 = a ∧ on = true) by omega)]
        have same : (a + 1 ≤ a + n + 1 ∧ a + n + 1 < a + 1 + data.length ∧ en.getD n false = true) ↔
            (a ≤ a + n + 1 ∧ a + n + 1 < a + (data.length + 1) ∧ en.getD n false = true) := by
          refine ⟨fun h => ⟨by omega, by omega, h.2.2⟩, fun h => ⟨by omega, by omega, h.2.2⟩⟩
        simp only [same]

theorem Dev.bar4_write {data : List Byte} {en : List Bool} (h : d.memDead = false) :
    d.bar4 true a data en = (d.bytesPut (enabledBytes a data en)).unpoison ((enabledBytes a data en).map (·.1)) := if_neg (Bool.eq_false_iff.mp h)

theorem Dev.bar4_read {data : List Byte} {en : List Bool} (h : d.memDead = false) (hc : a + data.length ≤ d.capacity) :
    d.bar4 false a data en = { d with out := d.out ++ [.readData ((List.range data.length).map fun i => d.memByte (a + i))] } := by
  have inside : ((List.range data.length).map fun i => if a + i < d.capacity then d.memByte (a + i) else 0) = (List.range data.length).map fun i => d.memByte (a + i) :=
    List.map_congr_left fun i hi => if_pos (by have := List.mem_range.mp hi; omega)
  unfold Dev.bar4
  rw [h]
  exact (Dev.emit_of_link_zero d (e := .readData _) rfl).trans (by rw [← inside]; rfl)

end Aperture

/-! ## The core windows -/

theorem toLE_leNat (bs : List Byte) : toLE bs.length (leNat bs) = bs := by
  refine List.ext_getElem (toLE_length _ _) fun i h1 h2 => ?_
  rw [toLE_get _ _ _ h2, ofNat_leNat_div bs i h2]

/-- A word of local memory without a double-bit error is read as its bytes (R650). -/
theorem Dev.coreWindow_word {d : Dev} {c off : Nat} (h : (c * 0x40000 + off / 4 * 4) / 8 ∉ d.locErr) :
    (d.coreWindow c off).2 = d ∧ toLE 4 (d.coreWindow c off).1 = (List.range 4).map fun i => Tab.get 0 d.loc (c * 0x40000 + off / 4 * 4 + i) := by
  refine ⟨if_neg (by simpa using h), ?_⟩
  have bytes := toLE_leNat (readBytes d.loc (c * 0x40000 + off / 4 * 4) 4)
  rw [readBytes_length] at bytes
  exact bytes.trans (readBytes_eq _ _ _)

/-- Settles O29: each access by the route that the register map gives it. -/
theorem hostAccesses : Obligations.HostAccesses := by
  intro s fn n off v be sp addr data en c o d h slice word
  have slices {k : Nat} (hk : k < 0x4000) (h4 : k % 4 = 0) {e : Dev} (he : d.writeSlice .pf fn k v = e) :
      exec (.registerWrite .pf .bar2 (slice k) v 15) s = .next { s with dev := e } := congrArg (ok s) ((Dev.hostWrite_slice hk h4).trans he)
  refine ⟨fun hbe => ?_, ?_, ?_, ?_, fun hv => ?_, fun hv => ?_, fun he => ?_, fun he => ?_, fun hr => ?_, fun hr => ?_, ?_, fun hd hl hc => ⟨?_, ?_⟩, fun hw => ?_⟩
  · exact congrArg (ok s) (if_pos (by simpa using hbe))
  · exact congrArg (ok s) rfl
  · exact slices (by decide) (by decide) rfl
  · exact slices (by decide) (by decide) rfl
  · exact slices (by decide) (by decide) (if_pos hv)
  · exact slices (by decide) (by decide) (if_neg (Bool.eq_false_iff.mp hv))
  · have kept {k : Nat} (hk : k < 0x4000) (h4 : k % 4 = 0) (hw : d.writeSlice .pf fn k v = d.putRing fn ((d.ring fn).config k v)) :
        Completes (.registerWrite .pf .bar2 (slice k) v 15) s fun e => (∀ q, e.ring q = d.ring q) ∧ e = { d with rings := e.rings } := by
      refine completes_ok (slices hk h4 hw) ⟨fun q => ?_, rfl⟩
      rw [Ring.config_enabled he]
      exact Dev.putRing_ring d fn _ rfl q
    simp only [List.forall_mem_cons]
    exact ⟨kept (by decide) (by decide) rfl, kept (by decide) (by decide) rfl, kept (by decide) (by decide) rfl, kept (by decide) (by decide) rfl,
      kept (by decide) (by decide) rfl, by simp⟩
  · refine completes_ok (slices (by decide) (by decide) (e := d.putRing fn ((d.ring fn).config 0 v)) rfl) ⟨?_, fun k hk => Dev.ring_putRing_other _ _ hk, rfl⟩
    rw [Dev.ring_putRing, Ring.config, if_neg (Bool.eq_false_iff.mp he)]
    dsimp only
    rw [page_of_word]
  · exact congrArg (ok s) (if_neg (show ¬ d.hub.req = true by simp [show d.hub.req = false from hr]))
  · exact congrArg (ok s) (if_pos (show d.hub.req = true from hr))
  · exact congrArg (ok s) Dev.hostWrite_slice_us
  · have byte := Dev.bytesPut_memByte data d addr.toNat en hl hc
    obtain ⟨m, hm⟩ := Dev.bytesPut_eq (enabledBytes addr.toNat data en) d
    refine completes_ok (congrArg (ok s) (Dev.bar4_write hd)) ⟨fun i hi => ?_, fun j hj => ?_, ?_⟩
    · refine (byte _).trans ?_
      simp only [Nat.add_sub_cancel_left, Nat.le_add_right, Nat.add_lt_add_iff_left, hi, true_and]
    · exact (byte j).trans (if_neg (by omega))
    · rw [hm]
      rfl
  · exact congrArg (ok s) (Dev.bar4_read hd hc)
  · obtain ⟨same, read⟩ := Dev.coreWindow_word hw
    refine congrArg (ok s) ?_
    rw [same, read]
    exact Dev.emit_of_link_zero d rfl

end Sys2Proof.Machine

/-! # A control cycle of the cadence controller, and the return of a shed channel (R53 to R60, R79) -/

namespace Sys2Proof.Machine

/-! ## What a cycle measures -/

theorem zipIdx_eq_map_range {α : Type} (l : List α) (z : α) : l.zipIdx = (List.range l.length).map fun i => (l.getD i z, i) := by
  refine List.ext_getElem (by simp) fun i h1 h2 => ?_
  have hi : i < l.length := by simpa using h1
  simp [hi]

/-- A table that takes a list's items at their places reads as the list. -/
theorem Tab.get_foldl_zipIdx {α : Type} [DecidableEq α] (z : α) (l : List α) (m : Tab α) (i : Nat) :
    Tab.get z (l.zipIdx.foldl (fun t e => t.put z e.2 e.1) m) i = if i < l.length then l.getD i z else Tab.get z m i := by
  rw [zipIdx_eq_map_range l z, List.foldl_map, Tab.get_foldl_put z (fun i => l.getD i z)]
  simp

/-- The device with a cycle's time and temperatures (R54, R55). -/
def Dev.measured (d : Dev) (temps : List Int) : Dev :=
  { d with fab := { d.fab with lastCycle := some d.ctl.ticks, temps := temps.zipIdx.foldl (fun (t : Tab Int) (e : Int × Nat) => t.put 0 e.2 e.1) d.fab.temps } }

/-- The device with the surplus of each pipe computed (R60). -/
def Dev.withSurplus (d : Dev) : Dev :=
  { d with fab := { d.fab with surplus := (List.range 16).foldl (fun t p => t.put 0 p (d.surplusOf p)) d.fab.surplus } }

theorem Dev.withSurplus_get (d : Dev) {p : Nat} (hp : p < 16) : d.withSurplus.fab.surplus.get 0 p = min 1100 (3000 * d.cadMean p / floorOf p - 3000) := by
  unfold Dev.withSurplus
  dsimp only
  rw [Tab.get_foldl_put 0 d.surplusOf, if_pos (List.mem_range.mpr hp), Dev.surplusOf]

section Cycle
variable {d : Dev} {temps : List Int} {a : AvsReply}

theorem Dev.cycleActs_eq (d : Dev) (temps : List Int) (a : AvsReply) : d.cycleActs temps a =
    (List.range 16).foldl Dev.shedPass
      (((((d.measured temps).setLine 9 (temps.any fun t => decide (125 < t) || decide (t < -55))).writeVdd a).readBack a).withSurplus) := rfl

/-- With every temperature in range line 9 is at 0 (R58). -/
theorem temps_in_range (h : ∀ t ∈ temps, -55 ≤ t ∧ t ≤ 125) : (temps.any fun t => decide (125 < t) || decide (t < -55)) = false := by
  rw [List.any_eq_false]
  intro t ht
  have := h t ht
  simp
  omega

/-- The bound of Table 2.1 over the temperatures of a cycle (R55). -/
theorem Dev.bound21_measured (hl : temps.length = 32) : (d.measured temps).bound21 = (temps.map vddBound).foldl max 0 := by
  have read : ∀ n < 32, (d.measured temps).fab.temps.get 0 n = temps.getD n 0 := fun n hn => by
    rw [Dev.measured, Tab.get_foldl_zipIdx, if_pos (by omega)]
  have same : temps = (List.range 32).map fun n => (d.measured temps).fab.temps.get 0 n := by
    refine List.ext_getElem (by simp [hl]) fun i h1 h2 => ?_
    rw [List.getElem_map, List.getElem_range, read i (by omega), List.getD_eq_getElem _ _ h1]
  conv_rhs => rw [same, List.map_map, List.foldl_map]
  rfl

/-- With no island short there is no shed pass. -/
theorem Dev.shedPass_fit (n : Nat) (h : d.fab.shortRun.get 0 n < 16) : d.shedPass n = d :=
  if_neg (by simp [Dev.isShort, Nat.not_le.mpr h])

theorem Dev.shedPasses_fit (l : List Nat) (h : ∀ n ∈ l, d.fab.shortRun.get 0 n < 16) : l.foldl Dev.shedPass d = d := by
  induction l with
  | nil => rfl
  | cons n l ih =>
    rw [List.foldl_cons, Dev.shedPass_fit n (h n List.mem_cons_self)]
    exact ih fun k hk => h k (List.mem_cons_of_mem _ hk)

/-- Out of DORMANT the controller regards every island (R54). -/
theorem Dev.powered_all (h : d.ctl.power = 0) : d.powered = List.range 32 := by
  rw [Dev.powered, List.filter_eq_self]
  intro n _
  simp [Dev.unpowered, h]

/-! ## The set-point (R54 to R58) -/

/-- An island whose cadence is below 1.03 times its floor. -/
def Dev.SlowIsland (d : Dev) : Prop := ∃ n, n < 32 ∧ d.cadMean n * 100 < 103 * floorOf n

/-- Every island's cadence is at or above 1.06 times its floor. -/
def Dev.AllFast (d : Dev) : Prop := ∀ n, n < 32 → 106 * floorOf n ≤ d.cadMean n * 100

/-- The cycle's decision out of DORMANT. -/
theorem Dev.nextVdd_eq (hp : d.ctl.power = 0) [Decidable d.SlowIsland] [Decidable d.AllFast] : d.nextVdd =
    if d.flt.status.getLsbD 9 = true ∨ d.fab.setMv < d.bound21 ∨ d.SlowIsland then min 850 (d.fab.setMv + 5)
    else if d.AllFast then (if d.bound21 + 5 ≤ d.fab.setMv ∧ 605 ≤ d.fab.setMv then d.fab.setMv - 5 else d.fab.setMv)
    else d.fab.setMv := by
  have slow : (d.powered.any fun n => decide (d.cadMean n * 100 < 103 * floorOf n)) = decide d.SlowIsland := by
    rw [Dev.powered_all hp, Bool.eq_iff_iff, decide_eq_true_iff]
    simp [Dev.SlowIsland]
  have fast : (d.powered.all fun n => decide (106 * floorOf n ≤ d.cadMean n * 100)) = decide d.AllFast := by
    rw [Dev.powered_all hp, Bool.eq_iff_iff, decide_eq_true_iff]
    simp [Dev.AllFast]
  have stays : (d.ctl.power == 3 && decide (d.fab.setMv < 800)) = false := by rw [hp]; rfl
  unfold Dev.nextVdd
  dsimp only
  rw [slow, fast, stays, Bool.or_false]
  by_cases h9 : d.flt.status.getLsbD 9 = true
  · rw [if_pos h9, if_pos (.inl h9)]
  · rw [if_neg h9]
    by_cases hb : d.fab.setMv < d.bound21
    · rw [if_pos (decide_eq_true hb), if_pos (.inr (.inl hb))]
    · rw [if_neg (by simpa using hb)]
      by_cases hs : d.SlowIsland
      · rw [if_pos (decide_eq_true hs), if_pos (.inr (.inr hs))]
      · rw [if_neg (show ¬ decide d.SlowIsland = true by rwa [decide_eq_true_iff]), if_neg (not_or.mpr ⟨h9, not_or.mpr ⟨hb, hs⟩⟩)]
        simp

/-- The device with a set-point that the regulator has acknowledged. -/
def Dev.setTo (d : Dev) (w : Nat) : Dev :=
  { d with fab := { d.fab with setMv := w, nackRun := 0 }, out := if w = d.fab.setMv then d.out else d.out ++ [.avs w] }

/-- With AVS_BUS at 0 and the write acknowledged the set-point is the one decided, and a change goes to the regulator (R53, R57). -/
theorem Dev.writeVdd_acked (h10 : d.flt.live.getLsbD 10 = false) (hn : d.fab.nackRun = 0) (ha : a.writeAck = true) : d.writeVdd a = d.setTo d.nextVdd := by
  unfold Dev.writeVdd Dev.setTo
  dsimp only
  rw [h10, Bool.false_or]
  by_cases h : d.nextVdd = d.fab.setMv
  · have same : { d.fab with setMv := d.nextVdd, nackRun := 0 } = d.fab := by rw [h, ← hn]
    rw [if_pos (decide_eq_true h), if_pos h, same]
  · rw [if_neg (by simpa using h), if_pos ha, if_neg h]
    exact Dev.emit_of_link_zero _ rfl

/-- A read-back within 15 mV ends the runs (R57). -/
theorem Dev.readBack_near (h10 : d.flt.live.getLsbD 10 = false) (hn : d.fab.nackRun = 0) (hr : ((a.readMv : Int) - d.fab.setMv).natAbs ≤ 15) :
    d.readBack a = { d with fab := { d.fab with badRun := 0, goodRun := 0 } } := by
  unfold Dev.readBack
  dsimp only
  rw [h10, hn, decide_eq_true hr, Bool.not_true, Bool.and_false]
  simp

end Cycle

theorem Dev.controlCycle_due {d : Dev} {temps : List Int} {a : AvsReply} (h : ∀ z, d.fab.lastCycle = some z → z + 30000 ≤ d.ctl.ticks) :
    d.controlCycle temps a = d.cycleActs temps a := by
  have due : d.cycleDue = true := by
    unfold Dev.cycleDue
    split
    · next z hz => exact decide_eq_true (h z hz)
    · rfl
  exact if_pos due

theorem Dev.controlCycle_early {d : Dev} {temps : List Int} {a : AvsReply} {z : Nat} (hz : d.fab.lastCycle = some z) (h : d.ctl.ticks < z + 30000) :
    d.controlCycle temps a = d := by
  have early : d.cycleDue = false := by
    unfold Dev.cycleDue
    rw [hz]
    exact decide_eq_false (Nat.not_le.mpr h)
  exact if_neg (Bool.eq_false_iff.mp early)

/-- The one channel that is shed, for cadence alone, comes back when its pipes are fast again (R79). -/
theorem Dev.shedRestore_only {d : Dev} {n : Nat} (hs : d.fab.shed = [(1, n)]) (h8 : d.flt.status.getLsbD 8 = false)
    (hf : ∀ p ∈ (d.channel n).pipes, 103 * floorOf p ≤ d.cadMean p * 100) (hl : d.linked n = false) : d.shedRestore n =
    ({ d with fab := { d.fab with shed := [] } } : Dev).putChannel n { d.channel n with shed := false, shedFrom := 0, keyDuty := true } := by
  have none_left : (d.fab.shed.filter fun e => e != (1, n)) = [] := by rw [hs]; simp
  have none_of : (d.fab.shed.filter fun e => e.2 != n) = [] := by rw [hs]; simp
  have restored : d.restoreChannel 1 n = ({ d with fab := { d.fab with shed := [] } } : Dev).putChannel n { d.channel n with shed := false, shedFrom := 0, keyDuty := true } := by
    unfold Dev.restoreChannel Dev.unshed
    dsimp only
    rw [none_left, none_of, if_neg (by rw [hs]; simp), if_neg (by simp), if_neg (Bool.eq_false_iff.mp hl)]
    rfl
  have last : d.lastShed 1 n false = true := by
    unfold Dev.lastShed
    rw [hs]
    simp
  have fast : ((d.channel n).pipes.all fun p => decide (103 * floorOf p ≤ d.cadMean p * 100)) = true := by simpa using hf
  have waits : d.fab.shed.contains (1, n) = true := by rw [hs]; simp
  unfold Dev.shedRestore
  dsimp only
  rw [waits, h8, fast, last, if_pos (show (true && !false && true && true) = true from rfl), restored]
  exact if_neg (by simp [Dev.putChannel])

/-- The runs of the read-back end. -/
def Dev.runsEnded (d : Dev) : Dev := { d with fab := { d.fab with badRun := 0, goodRun := 0 } }

/-- What a cycle in good order does once it has measured: the decision, its write and read-back, the surplus, and no shed. -/
theorem Dev.cycle_of_measured {m : Dev} {a : AvsReply} (h10 : m.flt.live.getLsbD 10 = false) (hn : m.fab.nackRun = 0) (ha : a.writeAck = true)
    (hr : ((a.readMv : Int) - m.nextVdd).natAbs ≤ 15) (hfit : ∀ n, n < 32 → m.fab.shortRun.get 0 n < 16) :
    (List.range 16).foldl Dev.shedPass ((m.writeVdd a).readBack a).withSurplus = (m.setTo m.nextVdd).runsEnded.withSurplus := by
  rw [Dev.writeVdd_acked h10 hn ha, Dev.readBack_near (d := m.setTo m.nextVdd) h10 rfl hr]
  exact Dev.shedPasses_fit _ fun n hn => hfit n (by have := List.mem_range.mp hn; omega)

/-- The device that has measured temperatures in range: line 9 is at 0 (R58). -/
def Dev.inRange (d : Dev) (temps : List Int) : Dev :=
  { d.measured temps with flt := { d.flt with live := d.flt.live &&& ~~~(1#64 <<< 9) } }

theorem Dev.cycleActs_inRange {d : Dev} {temps : List Int} (a : AvsReply) (ht : ∀ t ∈ temps, -55 ≤ t ∧ t ≤ 125) :
    d.cycleActs temps a = (List.range 16).foldl Dev.shedPass (((d.inRange temps).writeVdd a).readBack a).withSurplus := by
  rw [Dev.cycleActs_eq, temps_in_range ht]
  rfl

theorem Dev.inRange_live {d : Dev} {temps : List Int} {i : Nat} (h : d.flt.live.getLsbD i = false) : (d.inRange temps).flt.live.getLsbD i = false := by
  rw [Dev.inRange, BitVec.getLsbD_and, h, Bool.false_and]

/-- Settles O32: a due cycle in good order measures, decides, writes and computes the surplus; a channel shed alone comes back. -/
theorem cadenceControl : Obligations.CadenceControl := by
  intro s temps avs ch d v b slow fast
  refine ⟨fun z hl hz he => ?_, fun hl hdue ht hp h10 hn hv ha hra hfit w hup hdown hsame hr => ?_, ?_⟩
  · exact (if_pos hl).trans (congrArg (ok s) (Dev.controlCycle_early hz he))
  · classical
    have bound : (d.inRange temps).bound21 = b := Dev.bound21_measured hl
    have decided : (d.inRange temps).nextVdd = w := by
      rw [Dev.nextVdd_eq (d := d.inRange temps) hp, bound]
      by_cases up : d.flt.status.getLsbD 9 = true ∨ v < b ∨ slow
      · exact (if_pos up).trans (hup up).symm
      · obtain ⟨h9, hrest⟩ := not_or.mp up
        obtain ⟨hb, hs⟩ := not_or.mp hrest
        refine (if_neg up).trans ?_
        by_cases hf : fast
        · exact (if_pos hf).trans (hdown (Bool.eq_false_iff.mpr h9) (Nat.not_lt.mp hb) hf hs).symm
        · exact (if_neg hf).trans (hsame (Bool.eq_false_iff.mpr h9) (Nat.not_lt.mp hb) hf hs).symm
    have acts : d.cycleActs temps avs = ((d.inRange temps).setTo w).runsEnded.withSurplus := by
      rw [Dev.cycleActs_inRange avs ht, Dev.cycle_of_measured (Dev.inRange_live h10) hn ha (by rwa [decided]) hfit, decided]
    refine ⟨_, (if_pos hl).trans (congrArg (ok s) ((Dev.controlCycle_due hdue).trans acts)), rfl, rfl, rfl, fun n hn => ?_, fun p hp => ?_, ?_, rfl⟩
    · exact (Tab.get_foldl_zipIdx 0 temps d.fab.temps n).trans (if_pos (by omega))
    · have mean : ((d.inRange temps).setTo w).runsEnded.cadMean p = d.cadMean p := rfl
      rw [Dev.withSurplus_get _ hp, mean]
    · exact Dev.setLine_low d 9
  · intro c hs h8 hf hl
    exact congrArg (ok s) (Dev.shedRestore_only hs h8 hf hl)

end Sys2Proof.Machine

/-! # Capture: configuration, descriptors that wait for a tick, and reception (R189 to R212) -/

namespace Sys2Proof.Machine

/-! ## A unit's own checks, and descriptors that wait for their point (R157, R161, R162) -/

section Checks
variable {d k : Dev} {x : Desc} {c : Bool × Nat} {cs : List (Bool × Nat)}

theorem Dev.checked_nil : d.checked x [] k = k := rfl
theorem Dev.checked_first (h : c.1 = true) : d.checked x (c :: cs) k = d.complete x c.2 0 := Dev.checked_fail (if_pos h)
theorem Dev.checked_next (h : c.1 = false) : d.checked x (c :: cs) k = d.checked x cs k := by
  unfold Dev.checked
  rw [show firstFail (c :: cs) = firstFail cs from if_neg (Bool.eq_false_iff.mp h)]

/-- A unit takes a descriptor of the operation asked for. -/
theorem Dev.Takes.op_eq {d e : Dev} {u op : Nat} {sp : Dev → Desc → OpSpec} (h : d.Takes u op sp x e) : x.op = op :=
  (Dev.takeHead_some h.1).choose_spec.2.1

/-- Nothing pending is of the kind that is aborted. -/
theorem Dev.abortPend_none {sel : Pend → Bool} (h : ∀ p ∈ d.pend, sel p = false) : d.abortPend sel = d := by
  have none_of : d.pend.filter sel = [] := List.filter_eq_nil_iff.mpr fun p hp => by simp [h p hp]
  have all_of : (d.pend.filter fun p => !sel p) = d.pend := List.filter_eq_self.mpr fun p hp => by simp [h p hp]
  rw [Dev.abortPend, none_of, all_of]
  rfl

/-- A descriptor as it waits, accepted at a tick of the device. -/
def Desc.waiting (x : Desc) (obj since : Nat) (late : Bool) : Pend :=
  { d := x, unit := x.unit, op := x.op, obj := obj, t := x.eff, late := late, since := since }

variable {obj : Nat} {passed : Nat → Bool} {ahead : Nat → Nat} {twinned : Bool}

/-- A time that has passed ends a STRICT descriptor (R162). -/
theorem Dev.holdPend_strict (h : x.eff ≠ 0) (hp : passed x.eff = true) (hs : x.strict = true) :
    d.holdPend x obj passed ahead twinned = d.complete x stTimeout 0 := by
  unfold Dev.holdPend
  dsimp only
  rw [if_pos (by simpa using h), hp, hs]
  rfl

/-- Any other descriptor with a time waits, late where its time has passed. -/
theorem Dev.holdPend_timed (h : x.eff ≠ 0) (hs : (passed x.eff && x.strict) = false) :
    d.holdPend x obj passed ahead twinned = { d with pend := d.pend ++ [x.waiting obj d.ctl.ticks (passed x.eff)] } := by
  unfold Dev.holdPend
  dsimp only
  rw [if_pos (by simpa using h), hs]
  rfl

/-- One without a time waits for the next point, where the object is not twinned. -/
theorem Dev.holdPend_untimed (h : x.eff = 0) (ht : twinned = false) :
    d.holdPend x obj passed ahead twinned = { d with pend := d.pend ++ [x.waiting obj d.ctl.ticks false] } := by
  unfold Dev.holdPend
  dsimp only
  rw [if_neg (by simp [h]), ht]
  rfl

end Checks

/-! ## CAPTURE START, STOP and SUBST (R210, R212) -/

section Hold
variable {d : Dev} {x : Desc}

/-- The media time has passed for an input: a tick has opened at or after it (R37). -/
theorem Cap.passedBy_lastPoint (c : Cap) (t : Nat) : passedBy c.lastPoint t = true ↔ c.nextTick ≠ 0 ∧ t ≤ c.mt (c.nextTick - 1) := by
  unfold Cap.lastPoint
  by_cases h : c.nextTick = 0 <;> simp [passedBy, h]

/-- The input may be commanded: it is configured, a START is not dozing, and a SUBST names a mode. -/
def Dev.capReady (d : Dev) (x : Desc) : Prop :=
  (d.capIn (x.get 0x20 2)).st ≠ .unconfigured ∧ (x.op = 2 → d.dozing = false) ∧ (x.op = 4 → x.get 0x26 1 ≤ 1)

theorem Dev.capHold_busy (h : (d.capIn (x.get 0x20 2)).st = .unconfigured ∨ (x.op = 2 ∧ d.dozing = true)) : d.capHold x = d.complete x stBusy 0 :=
  Dev.checked_first (by rcases h with h | ⟨h, h'⟩ <;> simp [*])

theorem Dev.capHold_bad (h : (d.capIn (x.get 0x20 2)).st ≠ .unconfigured) (ho : x.op = 4) (hb : 1 < x.get 0x26 1) : d.capHold x = d.complete x stBadDesc 0 := by
  unfold Dev.capHold
  dsimp only
  rw [Dev.checked_next (by simp [h, ho]), Dev.checked_first (by simp [ho, hb])]

theorem Dev.capHold_ready (h : d.capReady x) : d.capHold x =
    d.holdPend x (x.get 0x20 2) (passedBy (d.capIn (x.get 0x20 2)).lastPoint)
      (fun n => (d.capIn (x.get 0x20 2)).mt ((d.capIn (x.get 0x20 2)).nextTick + n)) (d.twinnedInput (x.get 0x20 2)) := by
  obtain ⟨hst, hstart, hsubst⟩ := h
  unfold Dev.capHold
  dsimp only
  rw [Dev.checked_next, Dev.checked_next, Dev.checked_nil]
  · by_cases ho : x.op = 4
    · simp [ho, Nat.not_lt.mpr (hsubst ho)]
    · simp [ho]
  · by_cases ho : x.op = 2
    · simp [ho, hst, hstart ho]
    · simp [ho, hst]

end Hold

/-- Settles O34: the two checks, then the descriptor waits as R162 has it. -/
theorem captureStartStopSubst : Obligations.CaptureStartStopSubst := by
  intro s x e p hp ht
  have run : exec p.1 s = ok s (s.dev.runUnit 1 p.2.1 p.2.2 Dev.capHold) := by
    simp only [List.mem_cons, List.not_mem_nil, or_false] at hp
    rcases hp with rfl | rfl | rfl <;> rfl
  have ends {k : Dev} (h : e.capHold x = k) : exec p.1 s = .next { s with dev := k } := run.trans (congrArg (ok s) ((ht.runUnit Dev.capHold).trans h))
  rw [← ht.op_eq]
  intro i c past may waits
  have hpast : passedBy c.lastPoint x.eff = true ↔ past := c.passedBy_lastPoint x.eff
  refine ⟨fun h => ends (Dev.capHold_busy h), fun h ho hb => ends (Dev.capHold_bad h ho hb), fun h he hp hs => ?_, fun h he hp hs => ?_, fun h he hp => ?_, fun h he htw => ?_⟩
  · exact ends ((Dev.capHold_ready h).trans (Dev.holdPend_strict he (hpast.mpr hp) hs))
  · have late := (Dev.capHold_ready h).trans (Dev.holdPend_timed he (by rw [hs, Bool.and_false]))
    rw [hpast.mpr hp] at late
    exact ends late
  · have early : passedBy c.lastPoint x.eff = false := Bool.eq_false_iff.mpr (hpast.not.mpr hp)
    have timed := (Dev.capHold_ready h).trans (Dev.holdPend_timed he (by rw [early, Bool.false_and]))
    rw [early] at timed
    exact ends timed
  · exact ends ((Dev.capHold_ready h).trans (Dev.holdPend_untimed he htw))

/-! ## CAPTURE CONFIGURE (R205, R212) -/

theorem Dev.complete_capIn (d : Dev) (x : Desc) (status mt k : Nat) : (d.complete x status mt).capIn k = d.capIn k := by simp [Dev.capIn]

section Configure
variable {d : Dev} {x : Desc}

/-- The input is not running. -/
def Cap.idle (c : Cap) : Prop := c.st = .unconfigured ∨ c.st = .stopped

theorem Cap.idle_iff (c : Cap) : (c.st != .unconfigured && c.st != .stopped) = false ↔ c.idle := by
  simp only [Cap.idle, Bool.and_eq_false_iff, bne_eq_false_iff_eq]

theorem Dev.capConfigure_busy (h : ¬ (d.capIn (x.get 0x20 2)).idle) : d.capConfigure x = d.complete x stBusy 0 :=
  Dev.checked_first (by rwa [← Cap.idle_iff, Bool.not_eq_false] at h)

section Idle
variable (h : (d.capIn (x.get 0x20 2)).idle)
include h

theorem Dev.capConfigure_badField (hb : capBadField x = true) : d.capConfigure x = d.complete x stBadDesc 0 :=
  (Dev.checked_next ((Cap.idle_iff _).mpr h)).trans (Dev.checked_first hb)

theorem Dev.capConfigure_badFormat (hb : capBadField x = false) (hf : capBadFormat x = true) : d.capConfigure x = d.complete x stFormat 0 :=
  (Dev.checked_next ((Cap.idle_iff _).mpr h)).trans ((Dev.checked_next hb).trans (Dev.checked_first hf))

theorem Dev.capConfigure_badGeometry (hb : capBadField x = false) (hf : capBadFormat x = false) (hg : capBadGeometry x = true) :
    d.capConfigure x = d.complete x stGeometry 0 :=
  (Dev.checked_next ((Cap.idle_iff _).mpr h)).trans ((Dev.checked_next hb).trans ((Dev.checked_next hf).trans (Dev.checked_first hg)))

theorem Dev.capConfigure_full (hb : capBadField x = false) (hf : capBadFormat x = false) (hg : capBadGeometry x = false) (hc : d.capFull x = true) :
    d.capConfigure x = d.complete x stCapacity 0 :=
  (Dev.checked_next ((Cap.idle_iff _).mpr h)).trans ((Dev.checked_next hb).trans ((Dev.checked_next hf).trans ((Dev.checked_next hg).trans (Dev.checked_first hc))))

/-- The input that an accepted CONFIGURE leaves, with its first output tick. -/
def Cap.configured (c : Cap) (x : Desc) (tick : Nat) : Cap :=
  { c with cfg := x.bytes, st := .stopped, rx := true, subst := x.get 0x26 1, freeze := x.get 0x7C 4, slateAdr := x.get 0x48 8,
           slots := [], seenAt := [], opened := false, nextLine := 0, conceal := [], cand := false, everSeen := false, good := none,
           run := 0, src := .slate, lastBad := [], slateRows := [], sdiSlot := none, verdicts := [], ancSeen := [], theirs := [], ancWait := [], shown := false,
           mapV := [], sdiWait := [], tick := tick }

omit h in
/-- An input that is not SDI binds no lanes. -/
theorem Cap.configured_sdiLanes (c : Cap) (tick : Nat) (hk : x.get 0x22 1 ≠ 1) : (c.configured x tick).sdiLanes = [] := by
  have kind : (c.configured x tick).kind ≠ 1 := hk
  rw [Cap.sdiLanes, if_neg (by simp [kind])]

/-- An accepted CONFIGURE of an input that has no lanes and nothing pending, and gets no lanes. -/
theorem Dev.capConfigure_stops (hb : capBadField x = false) (hf : capBadFormat x = false) (hg : capBadGeometry x = false) (hc : d.capFull x = false)
    (hl : (d.capIn (x.get 0x20 2)).sdiLanes = []) (hk : x.get 0x22 1 ≠ 1) (hp : ∀ p ∈ d.pend, ¬ (p.unit = 1 ∧ p.obj = x.get 0x20 2)) :
    d.capConfigure x = ((d.putCapIn (x.get 0x20 2) ((d.capIn (x.get 0x20 2)).configured x (gridAtOrAfter (x.get 0x34 4) (x.get 0x38 4) d.cadence))).cutTaps 1
      (x.get 0x20 2)).complete x stOK 0 := by
  have nothing : d.abortPend (fun p => p.unit == 1 && p.obj == x.get 0x20 2) = d := Dev.abortPend_none fun p hm => by simpa using hp p hm
  have unbound := Cap.configured_sdiLanes (d.capIn (x.get 0x20 2)) (gridAtOrAfter (x.get 0x34 4) (x.get 0x38 4) d.cadence) hk
  unfold Cap.configured at unbound ⊢
  unfold Dev.capConfigure
  dsimp only
  rw [Dev.checked_next ((Cap.idle_iff _).mpr h), Dev.checked_next hb, Dev.checked_next hf, Dev.checked_next hg, Dev.checked_next hc, Dev.checked_nil, nothing, hl,
    List.foldl_nil, unbound, List.foldl_nil]

end Idle

/-- The fields of Table 6.4 that O33 names. -/
theorem capBadField_of_range (h : 2 < x.get 0x22 1 ∨ 1 < x.get 0x23 1 ∨ x.get 0x28 2 % 2 ≠ 0 ∨ x.get 0x28 2 < 16 ∨ 7680 < x.get 0x28 2 ∨ x.get 0x2A 2 < 16 ∨
    4320 < x.get 0x2A 2 ∨ x.get 0x3C 4 < 50000 ∨ 100000000 < x.get 0x3C 4 ∨ x.get 0x40 8 % 4096 ≠ 0 ∨ 10000 < x.get 0x7A 2) : capBadField x = true := by
  unfold capBadField
  rcases h with h | h | h | h | h | h | h | h | h | h | h <;> simp only [h, bne_iff_ne.mpr, ne_eq, not_false_eq_true, decide_true, Bool.or_true, Bool.true_or]

end Configure

/-- Settles O33: the five checks in their order, and the input that an accepted CONFIGURE leaves. -/
theorem captureConfiguration : Obligations.CaptureConfiguration := by
  intro s x e ht i c idle ends
  have run {k : Dev} (h : e.capConfigure x = k) : exec .captureConfigure s = .next { s with dev := k } := congrArg (ok s) ((ht.runUnit Dev.capConfigure).trans h)
  refine ⟨fun h => run (Dev.capConfigure_busy h), fun h hb => run (Dev.capConfigure_badField h ?_), fun h hb hf => run (Dev.capConfigure_badFormat h hb hf),
    fun h hb hf hg => run (Dev.capConfigure_badGeometry h hb hf hg), fun h hb hf hg hc => run (Dev.capConfigure_full h hb hf hg hc), ?_⟩
  · exact capBadField_of_range hb
  · intro h hb hf hg hc hl hk hp
    have stops := Dev.capConfigure_stops h hb hf hg hc hl hk hp
    have input (k : Nat) : (Dev.complete _ x stOK 0).capIn k = (e.putCapIn i (c.configured x (gridAtOrAfter (x.get 0x34 4) (x.get 0x38 4) e.cadence))).capIn k :=
      Dev.complete_capIn ((e.putCapIn i (c.configured x (gridAtOrAfter (x.get 0x34 4) (x.get 0x38 4) e.cadence))).cutTaps 1 i) x stOK 0 k
    refine completes_ok (run stops) ?_
    obtain ⟨thr, dsp, mem, poison, hd⟩ := Dev.complete_eq ((e.putCapIn i (c.configured x (gridAtOrAfter (x.get 0x34 4) (x.get 0x38 4) e.cadence))).cutTaps 1 i) x stOK 0
    rw [input, Dev.capIn_putCapIn]
    refine ⟨rfl, rfl, rfl, rfl, rfl, rfl, rfl, rfl, rfl, rfl, rfl, fun k hk => (input k).trans (Dev.capIn_putCapIn_other e _ hk), ?_⟩
    rw [hd]
    rfl

/-! ## A run of samples in the store (R192, R204) -/

/-- An item of a list that is put together of parts of equal length. -/
theorem getElem?_flatMap_parts {α β : Type} {c j i : Nat} {f : α → List β} {l : List α} (z : α) (hf : ∀ v, (f v).length = c) (hj : j < l.length) (hi : i < c) :
    (l.flatMap f)[c * j + i]? = (f (l.getD j z))[i]? := by
  have parts : l.flatMap f = (List.range l.length).flatMap (fun k => f (l.getD k z)) ++ [] := by
    rw [List.append_nil, ← List.flatMap_map (f := fun k => l.getD k z) (g := f)]
    congr 1
    exact List.ext_getElem (by simp) fun k h1 h2 => by simp [h1]
  rw [parts]
  exact getElem?_of_parts (f := fun k => f (l.getD k z)) [] (fun _ => hf _) hj hi

/-- The slot after a run of samples of a line (R192). -/
def Cap.arrived (c : Cap) (sl : Nat) (g : LineSeg) : Cap := { c with slots := c.slots.put {} sl ((c.slotAt sl).arrive c.width g) }

theorem Cap.slotAt_arrived (c : Cap) (sl : Nat) (g : LineSeg) : (c.arrived sl g).slotAt sl = (c.slotAt sl).arrive c.width g := Tab.get_put_same _ _ _ _

/-- The runs of a line that have come cover it. -/
def Slot.covered (s : Slot) (width : Nat) (g : LineSeg) : Bool :=
  (List.range width).all fun p => ((g.x, g.y.length) :: s.groups.get [] g.line).any fun r => decide (r.1 ≤ p ∧ p < r.1 + r.2)

theorem Slot.arrive_lines {s : Slot} {g : LineSeg} (width : Nat) (h : g.line ∉ s.lines) :
    (s.arrive width g).lines = if s.covered width g then s.lines ++ [g.line] else s.lines := by
  have cover : ((List.range width).all fun x => ((g.x, g.y.length) :: s.groups.get [] g.line).any fun r => r.1 ≤ x && x < r.1 + r.2) = s.covered width g := by
    simp only [Slot.covered, Bool.decide_and]
  unfold Slot.arrive
  dsimp only
  rw [if_neg (by simpa using h), cover]
  split <;> rfl

section Store
variable {d : Dev} {i sl : Nat} {g : LineSeg}

/-- Where a run of luma samples of a slot stands. -/
def Cap.lumaAddr (c : Cap) (sl : Nat) (g : LineSeg) : Nat := c.storeAddr + sl * c.geom.slotSize + g.line * c.geom.pitch 0 + 2 * g.x

/-- The bytes of a run of luma samples: 16-bit containers with the store's 12 bits. -/
def Cap.lumaBytes (c : Cap) (g : LineSeg) : List Byte := (g.y.map c.scale).flatMap fun v => toLE 2 (v % 4096)

@[simp] theorem Cap.lumaBytes_length (c : Cap) (g : LineSeg) : (c.lumaBytes g).length = 2 * g.y.length := by
  simp [Cap.lumaBytes, List.length_flatMap, Nat.mul_comm, Function.comp_def]

theorem Cap.lumaBytes_get (c : Cap) {j k : Nat} (hj : j < g.y.length) (hk : k < 2) :
    (c.lumaBytes g)[2 * j + k]? = some (BitVec.ofNat 8 (c.scale (g.y.getD j 0) % 4096 / 256 ^ k)) := by
  rw [Cap.lumaBytes, getElem?_flatMap_parts (c.scale 0) (fun v => toLE_length 2 _) (by simpa using hj) hk, List.getD_map, toLE_getElem? 2 _ hk]

/-- The device with a run of luma samples in the store. -/
def Dev.lumaRow (d : Dev) (c : Cap) (sl : Nat) (g : LineSeg) : Dev := if g.y = [] then d else d.memWrite (c.lumaAddr sl g) (c.lumaBytes g)

theorem Dev.lumaRow_eq (d : Dev) (c : Cap) (sl : Nat) (g : LineSeg) : ∃ mem poison, d.lumaRow c sl g = { d with mem := mem, poison := poison } := by
  unfold Dev.lumaRow
  split
  · exact ⟨d.mem, d.poison, rfl⟩
  · exact d.memWrite_eq _ _

theorem Dev.lumaRow_byte {c : Cap} {j k : Nat} (hc : c.lumaAddr sl g + 2 * g.y.length ≤ d.capacity) (hj : j < g.y.length) (hk : k < 2) :
    (d.lumaRow c sl g).memByte (c.lumaAddr sl g + (2 * j + k)) = BitVec.ofNat 8 (c.scale (g.y.getD j 0) % 4096 / 256 ^ k) := by
  have some : g.y ≠ [] := List.ne_nil_of_length_pos (by omega)
  obtain ⟨hi, hb⟩ := List.getElem?_eq_some_iff.mp (c.lumaBytes_get hj hk)
  rw [Dev.lumaRow, if_neg some, ← hb]
  exact Dev.memByte_memWrite_inside d _ _ _ hi (by simpa using hc)

theorem Dev.lumaRow_other {c : Cap} {k : Nat} (hk : k < c.lumaAddr sl g ∨ c.lumaAddr sl g + 2 * g.y.length ≤ k) : (d.lumaRow c sl g).memByte k = d.memByte k := by
  unfold Dev.lumaRow
  split
  · rfl
  · exact Dev.memByte_memWrite_other d _ _ _ (by simpa using hk)

/-- A run of luma samples alone is its bytes in the store, and the slot's account of it. -/
theorem Dev.placeSeg_luma (hcb : g.cb = []) (hcr : g.cr = []) (hl : g.line < (d.capIn i).height) (hw : g.x + g.y.length ≤ (d.capIn i).width) :
    d.placeSeg i sl g = (d.lumaRow (d.capIn i) sl g).putCapIn i ((d.capIn i).arrived sl g) := by
  have luma : d.putStoreRow ((d.capIn i).slotAddr sl) (d.capIn i).geom 0 g.line g.x (g.y.map (d.capIn i).scale) = d.lumaRow (d.capIn i) sl g := by
    have empty : (g.y.map (d.capIn i).scale).isEmpty = decide (g.y = []) := by cases g.y <;> rfl
    unfold Dev.putStoreRow Dev.lumaRow
    rw [empty]
    simp only [decide_eq_true_eq]
    rfl
  have chroma (e : Dev) (b p y x : Nat) (q : Geom) : e.putStoreRow b q p y x [] = e := rfl
  have input : (d.lumaRow (d.capIn i) sl g).capIn i = d.capIn i := by
    obtain ⟨m, p, h⟩ := d.lumaRow_eq (d.capIn i) sl g
    rw [h]
    rfl
  unfold Dev.placeSeg
  dsimp only
  rw [if_pos (by simp [hl, hw]), hcb, hcr, List.map_nil, chroma, chroma, luma, Dev.modCapIn_eq, input]
  rfl

end Store

/-! ## What arrives (R190 to R193, R208, R209, R412) -/

theorem Dev.unlessDropped_none {d : Dev} (h : d.absent = []) (sel : NetAddr → Bool) (f : Dev → Dev) : d.unlessDropped sel f = f d := by
  unfold Dev.unlessDropped
  rw [h]
  rfl

section Arrivals
variable {d : Dev} {i sl : Nat} {pkt : VideoPkt}

theorem Dev.sendMap_unpaired (h : d.paired = false) (i item : Nat) (kind : List Byte) : d.sendMap i item kind = d := if_neg (by simp [h])

theorem Cap.slotFor_held {c : Cap} {stamp key s : Nat} (hb : key ∉ c.lastBad) (hh : c.holding stamp = some s) (hk : (c.slotAt s).key = key) :
    c.slotFor stamp key = (some s, c) := by
  unfold Cap.slotFor
  rw [if_neg (by simpa using hb), hh]
  simp [hk]

/-- An input that has heard a packet on a path. -/
def Cap.heard (c : Cap) (pathB : Bool) (now : Nat) : Cap := if pathB then { c with upB := true, lastB := now } else { c with upA := true, lastA := now }

/-- An input that has counted the first copy of a packet. -/
def Cap.firstCopy (c : Cap) (seq now : Nat) : Cap := { c with seenAt := c.seenAt.put 0 seq (now + 1) }

theorem Cap.heard_seenAt (c : Cap) (pathB : Bool) (now : Nat) : (c.heard pathB now).seenAt = c.seenAt := by cases pathB <;> rfl

theorem Dev.mergeCopy_first {pathB : Bool} {seq : Nat} (h : (d.capIn i).seenAt.get 0 seq = 0) :
    d.mergeCopy i pathB seq = (true, d.putCapIn i (((d.capIn i).heard pathB d.ctl.ticks).firstCopy seq d.ctl.ticks)) := by
  have seen : ((d.capIn i).heard pathB d.ctl.ticks).seenAt.get 0 seq = 0 := by
    rw [Cap.heard_seenAt]
    exact h
  unfold Cap.heard at seen
  unfold Dev.mergeCopy
  dsimp only
  rw [seen]
  rfl

theorem Dev.mergeCopy_later {pathB : Bool} {seq t : Nat} (h : (d.capIn i).seenAt.get 0 seq = t + 1) : d.mergeCopy i pathB seq = (false, d.putCapIn i
    (if t + ((d.capIn i).heard pathB d.ctl.ticks).skewUs * 3000 < d.ctl.ticks then
      { (d.capIn i).heard pathB d.ctl.ticks with late := satAdd 16 ((d.capIn i).heard pathB d.ctl.ticks).late 1 } else (d.capIn i).heard pathB d.ctl.ticks)) := by
  have seen : ((d.capIn i).heard pathB d.ctl.ticks).seenAt.get 0 seq = t + 1 := by
    rw [Cap.heard_seenAt]
    exact h
  unfold Cap.heard at seen
  unfold Dev.mergeCopy
  dsimp only
  rw [seen]
  rfl

theorem Dev.videoRx_elsewhere {pathB : Bool} (h : pkt.addr ≠ (d.capIn i).pathAddr pathB) : d.videoRx i pathB pkt = d := if_pos (by simp [h])

/-- A packet that is the input's, on a path that it has. -/
theorem Dev.videoRx_heard {pathB new : Bool} {e : Dev} (hrx : (d.capIn i).rx = true) (hk : (d.capIn i).kind = 0) (hp : pathB = true → (d.capIn i).links = 2)
    (ha : pkt.addr = (d.capIn i).pathAddr pathB) (hm : d.mergeCopy i pathB pkt.seq = (new, e)) :
    d.videoRx i pathB pkt = if new then (e.placeVideo i pkt).sendMap i pkt.seq [] else e := by
  unfold Dev.videoRx
  dsimp only
  rw [if_neg, hm]
  cases pathB with
  | false => simp [hrx, hk, ha]
  | true => simp [hrx, hk, ha, hp rfl]

/-- A packet of one run of luma samples for a slot that holds its raster. -/
theorem Dev.placeVideo_luma {g : LineSeg} (hb : pkt.ts ∉ (d.capIn i).lastBad) (hh : (d.capIn i).holding (d.rtpStamp (d.capIn i) pkt.ts) = some sl)
    (hk : ((d.capIn i).slotAt sl).key = pkt.ts) (hf : pkt.fmtOk = true) (hs : pkt.segs = [g]) : d.placeVideo i pkt = (d.putCapIn i (d.capIn i)).placeSeg i sl g := by
  unfold Dev.placeVideo
  dsimp only
  rw [Cap.slotFor_held hb hh hk]
  dsimp only
  rw [if_pos hf, hs, List.foldl_cons, List.foldl_nil]

theorem Dev.putStoreRow_twin (d : Dev) (base : Nat) (g : Geom) (plane y x : Nat) (vs : List Nat) : (d.putStoreRow base g plane y x vs).twin = d.twin := by
  unfold Dev.putStoreRow
  split
  · rfl
  · simp

theorem Dev.placeSeg_twin (d : Dev) (i s : Nat) (g : LineSeg) : (d.placeSeg i s g).twin = d.twin := by
  unfold Dev.placeSeg
  dsimp only
  split
  · simp only [Dev.modCapIn_eq, Dev.putCapIn_frame, Dev.putStoreRow_twin]
  · rfl

/-- An SDI line inside a raster, which every link carried well. -/
theorem Dev.sdiRx_good {ln : SdiLine} (hp : d.paired = false) (hrx : (d.capIn i).rx = true) (hk : (d.capIn i).kind = 1) (hn : ln.first = false) (hf : ln.fmtOk = true)
    (hc : ln.crcOk = List.replicate (d.capIn i).links true) (hl : ∀ k ∈ (d.capIn i).sdiLanes, (d.groupAt k).stage = .active) (hs : (d.capIn i).sdiSlot = some sl) :
    d.sdiRx i ln = (d.putCapIn i (d.capIn i)).placeSeg i sl ln.seg := by
  have carried : (ln.crcOk.length == (d.capIn i).links && ln.crcOk.all id && (d.capIn i).sdiLanes.all fun k => ((d.putCapIn i (d.capIn i)).groupAt k).stage == .active) = true := by
    have lanes : ((d.capIn i).sdiLanes.all fun k => ((d.putCapIn i (d.capIn i)).groupAt k).stage == .active) = true :=
      List.all_eq_true.mpr fun k hm => beq_iff_eq.mpr (hl k hm)
    rw [hc, lanes]
    simp
  have unpaired : ((d.putCapIn i (d.capIn i)).placeSeg i sl ln.seg).paired = false := by
    rw [Dev.paired, Dev.placeSeg_twin]
    exact hp
  unfold Dev.sdiRx
  dsimp only
  rw [if_neg (by simp [hrx, hk]), hn, if_neg Bool.false_ne_true, hs]
  dsimp only
  rw [if_neg (by simp [hf]), if_pos carried, Dev.sendMap_unpaired unpaired]

theorem Dev.pathTimeout_silent (h : (d.capIn i).lastB + 30000000 ≤ d.ctl.ticks) : d.pathTimeout i true = d.putCapIn i { d.capIn i with upB := false } := by
  unfold Dev.pathTimeout
  rw [Dev.modCapIn_eq]
  dsimp only
  rw [if_pos rfl, if_pos h, if_pos rfl]

/-- A new ancillary packet of an ST 2110 input is read at once outside a pair. -/
theorem Dev.ancRx_read {p : AncPkt} (hp : d.paired = false) (hrx : (d.capIn i).rx = true) (hk : (d.capIn i).kind = 0) (hu : (d.capIn i).get 0x74 2 ≠ 0)
    (ha : (d.capIn i).hearsAnc p.addr = true) (hs : p.seq ∉ (d.capIn i).ancSeen) :
    d.ancRx i p = (d.putCapIn i { d.capIn i with ancSeen := (d.capIn i).ancSeen ++ [p.seq] }).readAncAt i (d.rtpStamp (d.capIn i) p.ts) p := by
  have unpaired : (d.putCapIn i { d.capIn i with ancSeen := (d.capIn i).ancSeen ++ [p.seq] }).paired = false := hp
  have leads : (d.putCapIn i { d.capIn i with ancSeen := (d.capIn i).ancSeen ++ [p.seq] }).follows i = false := by simp [Dev.follows, unpaired]
  have early : (d.putCapIn i { d.capIn i with ancSeen := (d.capIn i).ancSeen ++ [p.seq] }).ancLate (d.capIn i) p = false := by simp [Dev.ancLate, unpaired]
  unfold Dev.ancRx
  dsimp only
  rw [if_neg (by simp [hrx, hk, hu, ha, hs]), if_neg (by simp [hk]), if_neg (by simp [early]), Dev.sendMap_unpaired unpaired, if_neg (by simp [leads]), Dev.readAnc,
    Dev.capIn_putCapIn, Dev.ancStamp, if_neg (by simp [Cap.kind, Cap.get] at hk ⊢; omega)]
  rfl

theorem Dev.readAncAt_damaged {p : AncPkt} {stamp : Nat} (hs : p.scte = true) (hd : p.sumOk = false) :
    d.readAncAt i stamp p = d.putCapIn i { d.capIn i with bad := satAdd 16 (d.capIn i).bad 1 } := by
  unfold Dev.readAncAt
  simp [hs, hd]

theorem Dev.readAncAt_one {p : AncPkt} {o : SpliceOp} {stamp : Nat} (hs : p.scte = true) (hd : p.sumOk = true) (ho : p.ops = [o]) :
    d.readAncAt i stamp p = d.spliceOp i stamp o := by
  unfold Dev.readAncAt
  simp [hs, hd, ho]

theorem Dev.spliceOp_foreign {o : SpliceOp} {stamp : Nat} (h : o.opId ≠ 0x0101) :
    d.spliceOp i stamp o = d.putCapIn i { d.capIn i with ignored := satAdd 16 (d.capIn i).ignored 1 } := if_neg (by simp [h])

/-- A splice request of kind 1 with one fed channel that takes a key picture and has no flow for a cue. -/
theorem Dev.spliceOp_key {o : SpliceOp} {stamp n : Nat} (h : o.opId = 0x0101) (hk : o.kind = 1) (hf : d.fedBy i = [n]) (hs : (d.channel n).spliceKey = true)
    (hr : (d.channel n).st = .running) (hc : d.carried (d.channel n).flow = none) : d.spliceOp i stamp o =
      { d with pend := d.pend ++ [{ unit := 4, op := 4, obj := n, t := stamp + o.preRoll * 1000000, internal := true, event := o.eventId, since := d.ctl.ticks }] } := by
  have uncued (q : List Pend) : ({ d with pend := q } : Dev).carried (d.channel n).flow = none := hc
  unfold Dev.spliceOp
  dsimp only
  rw [if_pos (by simp [h, hk]), hf, List.foldl_cons, List.foldl_nil, hk, if_pos (by decide)]
  unfold Dev.spliceTo
  dsimp only
  have waits : (!(d.channel n).spliceKey || (d.channel n).st != .running) = false := by simp [hs, hr]
  rw [waits, if_neg Bool.false_ne_true, if_neg (by decide : ¬ (1 : Nat) = 5), uncued]
  exact if_neg (by simp)

theorem Dev.audioRx_one {p : AudioPkt} {k : Nat} (h : d.audioFlows p = [k]) :
    d.audioRx p = d.modFlowAt k fun f => { f with audio := f.audio ++ [(d.audioTime p.ts, p.bytes)] } := by
  unfold Dev.audioRx
  rw [h]
  rfl

end Arrivals

theorem Dev.capacity_putCapIn (d : Dev) (i : Nat) (c : Cap) : (d.putCapIn i c).capacity = d.capacity := by
  simp only [Dev.capacity, Dev.mcAt, Dev.putCapIn]

/-- An input's store is laid out by its configuration. -/
theorem Cap.lumaAddr_congr {c c' : Cap} (h : c'.cfg = c.cfg) (sl : Nat) (g : LineSeg) : c'.lumaAddr sl g = c.lumaAddr sl g := by
  simp only [Cap.lumaAddr, Cap.storeAddr, Cap.geom, Cap.width, Cap.height, Cap.half, Cap.get, h]

theorem Cap.arrived_cap_eq (d : Dev) (i sl : Nat) (g : LineSeg) (c : Cap) : ∃ cap mem poison, (d.lumaRow c sl g).putCapIn i (c.arrived sl g) =
    { d with cap := cap, mem := mem, poison := poison } := by
  obtain ⟨mem, poison, h⟩ := d.lumaRow_eq c sl g
  rw [h]
  exact ⟨_, mem, poison, rfl⟩

/-- Settles O35: an arriving run is one row of the store and the slot's account of it; the rest are the cases of reception. -/
theorem captureReception : Obligations.CaptureReception := by
  intro s i g sl hpair habs d c a sample fits runs covered stored
  have placed {c' : Cap} (hcfg : c'.cfg = c.cfg) (hslots : c'.slots = c.slots) (hf : fits) :
      stored ((d.putCapIn i c').placeSeg i sl g) ∧ ((d.putCapIn i c').placeSeg i sl g).capIn i = c'.arrived sl g := by
    obtain ⟨hcb, hcr, hl, hw, hc, hnew⟩ := hf
    have input : (d.putCapIn i c').capIn i = c' := Dev.capIn_putCapIn _ _ _
    have width : c'.width = c.width := by simp only [Cap.width, Cap.get, hcfg]
    have height : c'.height = c.height := by simp only [Cap.height, Cap.get, hcfg]
    have scale (v : Nat) : c'.scale v = c.scale v := by simp only [Cap.scale, Cap.depth, Cap.get, hcfg]
    have slot : c'.slotAt sl = c.slotAt sl := by simp only [Cap.slotAt, hslots]
    have addr : c'.lumaAddr sl g = a := Cap.lumaAddr_congr hcfg sl g
    have row := Dev.placeSeg_luma (d := d.putCapIn i c') (i := i) (sl := sl) hcb hcr (by rw [input, height]; exact hl) (by rw [input, width]; exact hw)
    rw [input] at row
    have inside : c'.lumaAddr sl g + 2 * g.y.length ≤ (d.putCapIn i c').capacity := by
      rw [Dev.capacity_putCapIn, addr]
      exact hc
    have byte {j k : Nat} (hj : j < g.y.length) (hk : k < 2) :
        ((d.putCapIn i c').placeSeg i sl g).memByte (a + (2 * j + k)) = BitVec.ofNat 8 (sample j / 256 ^ k) := by
      rw [row, ← addr]
      exact (Dev.lumaRow_byte inside hj hk).trans (by rw [scale]; rfl)
    have other : ((d.putCapIn i c').placeSeg i sl g).capIn i = c'.arrived sl g := by
      rw [row]
      exact Dev.capIn_putCapIn _ _ _
    obtain ⟨cap, mem, poison, whole⟩ := Cap.arrived_cap_eq (d.putCapIn i c') i sl g c'
    refine ⟨⟨fun j hj => ⟨?_, ?_⟩, fun k hk => ?_, ?_, fun k hk => ?_, ?_⟩, other⟩
    · exact (byte hj (k := 0) (by decide)).trans (by rw [Nat.pow_zero, Nat.div_one])
    · exact (byte hj (k := 1) (by decide)).trans (by rw [Nat.pow_one])
    · rw [row]
      exact Dev.lumaRow_other (by rwa [addr])
    · rw [other, Cap.slotAt_arrived, width, slot]
      exact Slot.arrive_lines c.width hnew
    · rw [row, Dev.capIn_putCapIn_other _ _ hk]
      obtain ⟨m, q, h⟩ := (d.putCapIn i c').lumaRow_eq c' sl g
      rw [h]
      exact Dev.capIn_putCapIn_other d c' hk
    · rw [row, whole]
      rfl
  refine ⟨?_, ?_, ?_, ?_, ?_⟩
  · intro pkt hrx hk hs hfmt
    have run {b : Bool} {k : Dev} (h : d.videoRx i b pkt = k) : exec (.st2110PacketRx i b pkt) s = .next { s with dev := k } :=
      congrArg (ok s) ((Dev.unlessDropped_none habs _ _).trans h)
    refine ⟨?_, ?_, ?_⟩
    · intro ha hb hn hh hkey hf
      let c1 := (c.heard false d.ctl.ticks).firstCopy pkt.seq d.ctl.ticks
      obtain ⟨store, input⟩ := placed (c' := c1) rfl rfl hf
      have cap : (d.putCapIn i c1).capIn i = c1 := Dev.capIn_putCapIn _ _ _
      have put : (d.putCapIn i c1).placeVideo i pkt = (d.putCapIn i c1).placeSeg i sl g :=
        (Dev.placeVideo_luma (d := d.putCapIn i c1) (i := i) (sl := sl) (by rw [cap]; exact hb) (by rw [cap]; exact hh) (by rw [cap]; exact hkey) hfmt hs).trans
          (by rw [cap, Dev.putCapIn_putCapIn])
      have alone : ((d.putCapIn i c1).placeSeg i sl g).paired = false := by
        rw [Dev.paired, Dev.placeSeg_twin]
        exact hpair
      have rx := Dev.videoRx_heard hrx hk (fun h => absurd h Bool.false_ne_true) ha (Dev.mergeCopy_first (pathB := false) hn)
      rw [if_pos rfl, put, Dev.sendMap_unpaired alone] at rx
      refine completes_ok (run rx) ⟨store, ?_⟩
      rw [input]
      exact ⟨Tab.get_put_same 0 (c.heard false d.ctl.ticks).seenAt pkt.seq (d.ctl.ticks + 1), rfl, rfl, rfl⟩
    · intro t ha hn hl late
      have rx := Dev.videoRx_heard hrx hk (fun _ => hl) ha (Dev.mergeCopy_later (pathB := true) hn)
      rw [if_neg Bool.false_ne_true] at rx
      refine (run rx).trans ?_
      by_cases hlate : t + c.skewUs * 3000 < d.ctl.ticks
      · have spread : t + (c.heard true d.ctl.ticks).skewUs * 3000 < d.ctl.ticks := hlate
        have counted : late = min 65535 (c.late + 1) := if_pos hlate
        rw [counted, if_pos spread]
        rfl
      · have spread : ¬ t + (c.heard true d.ctl.ticks).skewUs * 3000 < d.ctl.ticks := hlate
        have counted : late = c.late := if_neg hlate
        rw [counted, if_neg spread]
        rfl
    · exact fun b ha => run (Dev.videoRx_elsewhere ha)
  · intro ln hrx hk hn hf hg hc hl hsl hfit
    have rx := Dev.sdiRx_good (ln := ln) hpair hrx hk hn hf hc hl hsl
    rw [hg] at rx
    exact completes_ok (congrArg (ok s) rx) (placed rfl rfl hfit).1
  · exact fun h => congrArg (ok s) (Dev.pathTimeout_silent h)
  · intro pkt hrx hk hu ha hn hscte
    let heard : Cap := { c with ancSeen := c.ancSeen ++ [pkt.seq] }
    have cap : (d.putCapIn i heard).capIn i = heard := Dev.capIn_putCapIn _ _ _
    have run {k : Dev} (h : (d.putCapIn i heard).readAncAt i (d.rtpStamp c pkt.ts) pkt = k) : exec (.ancPacketRx i pkt) s = .next { s with dev := k } :=
      congrArg (ok s) ((Dev.unlessDropped_none habs _ _).trans ((Dev.ancRx_read hpair hrx hk hu ha hn).trans h))
    refine ⟨fun hd => run ?_, fun o hd ho hid => run ?_, fun o n hd ho hid hkind hfed hkey hrun hcar => ?_⟩
    · rw [Dev.readAncAt_damaged hscte hd, cap, Dev.putCapIn_putCapIn]
      rfl
    · rw [Dev.readAncAt_one hscte hd ho, Dev.spliceOp_foreign hid, cap, Dev.putCapIn_putCapIn]
      rfl
    · have one := (Dev.readAncAt_one (d := d.putCapIn i heard) (i := i) (stamp := d.rtpStamp c pkt.ts) hscte hd ho).trans
        (Dev.spliceOp_key (d := d.putCapIn i heard) hid hkind hfed hkey hrun hcar)
      exact completes_ok (run one) ⟨rfl, cap, rfl⟩
  · exact fun pkt k h => congrArg (ok s) ((Dev.unlessDropped_none habs _ _).trans (Dev.audioRx_one h))

end Sys2Proof.Machine

/-! # The compositor: descriptors, ticks, rows and late rows (R219 to R245) -/

namespace Sys2Proof.Machine

/-! ## The MF descriptors (R219, R235, R243 to R245) -/

theorem Dev.complete_sceneAt (d : Dev) (x : Desc) (status mt k : Nat) : (d.complete x status mt).sceneAt k = d.sceneAt k := by simp [Dev.sceneAt]

section MfCommands
variable {d : Dev} {x : Desc}

/-- A descriptor without a time waits for its scene's next tick, outside a pair. -/
theorem Dev.mfHold_untimed {q obj : Nat} (h : x.eff = 0) (ht : d.twinnedScene q = false) :
    d.mfHold x q obj = { d with pend := d.pend ++ [{ d := x, unit := x.unit, op := x.op, obj := obj, t := 0, since := d.ctl.ticks }] } := by
  unfold Dev.mfHold
  dsimp only
  rw [Dev.holdPend_untimed h ht, Desc.waiting, h]

/-- The scene neither runs nor starts. -/
def Scene.idle (c : Scene) : Prop := c.running = false ∧ c.starting = false

theorem Scene.idle_iff (c : Scene) : (c.running || c.starting) = false ↔ c.idle := by simp [Scene.idle]

/-- The fields of Table 7.6 that O37 names. -/
theorem mfBadScene_of_range (h : 2 < x.get 0x23 1 ∨ x.get 0x24 2 % 2 ≠ 0 ∨ x.get 0x24 2 < 16 ∨ 7680 < x.get 0x24 2 ∨ x.get 0x3A 1 = 0 ∨ 8 < x.get 0x3A 1 ∨
    100000000 < x.get 0x30 4) : mfBadScene x = true := by
  unfold mfBadScene
  rcases h with h | h | h | h | h | h | h <;> simp only [h, bne_iff_ne.mpr, ne_eq, not_false_eq_true, decide_true, Bool.or_true, Bool.true_or]

theorem Dev.mfConfigure_busy (h : ¬ (d.sceneAt x.sceneIx).idle) : d.mfConfigure x = d.complete x stBusy 0 :=
  Dev.checked_first (by rwa [← Scene.idle_iff, Bool.not_eq_false] at h)

section Idle
variable (h : (d.sceneAt x.sceneIx).idle)
include h

theorem Dev.mfConfigure_badField (hb : mfBadScene x = true) : d.mfConfigure x = d.complete x stBadDesc 0 :=
  (Dev.checked_next ((Scene.idle_iff _).mpr h)).trans (Dev.checked_first hb)

variable (hb : mfBadScene x = false)
include hb

theorem Dev.mfConfigure_badRate (hr : d.sceneRateBad x.sceneIx (x.get 0x28 4) (x.get 0x2C 4) = true) : d.mfConfigure x = d.complete x stFormat 0 :=
  (Dev.checked_next ((Scene.idle_iff _).mpr h)).trans ((Dev.checked_next hb).trans (Dev.checked_first hr))

variable (hr : d.sceneRateBad x.sceneIx (x.get 0x28 4) (x.get 0x2C 4) = false)
include hr

theorem Dev.mfConfigure_badOutput {j : Nat} (hj : j < x.get 0x3A 1) (ho : badOutput (x.get 0x24 2) (x.get 0x26 2) (x.entry j) = true) :
    d.mfConfigure x = d.complete x stGeometry 0 :=
  (Dev.checked_next ((Scene.idle_iff _).mpr h)).trans ((Dev.checked_next hb).trans ((Dev.checked_next hr).trans
    (Dev.checked_first (List.any_eq_true.mpr ⟨j, List.mem_range.mpr hj, ho⟩))))

omit h hb hr in
/-- The scene that an accepted SCENE_CONFIGURE leaves, with its first tick. -/
def Desc.sceneOf (x : Desc) (tick : Nat) : Scene :=
  { cfg := x.bytes, tick := tick, outs := (List.range (x.get 0x3A 1)).foldl (fun t j => t.put [] j (x.entry j)) [] }

theorem Dev.mfConfigure_configured (ho : ∀ j, j < x.get 0x3A 1 → badOutput (x.get 0x24 2) (x.get 0x26 2) (x.entry j) = false) (hp : ∀ p ∈ d.pend, p.unit ≠ 2) :
    d.mfConfigure x = (d.putSceneAt x.sceneIx (x.sceneOf (gridAtOrAfter (x.get 0x28 4) (x.get 0x2C 4) d.cadence))).complete x stOK 0 := by
  have nothing : d.abortPend (scenePend x.sceneIx) = d := Dev.abortPend_none fun p hm => by simp [scenePend, hp p hm]
  have fit : ((List.range (x.get 0x3A 1)).any fun j => badOutput (x.get 0x24 2) (x.get 0x26 2) (x.entry j)) = false :=
    List.any_eq_false.mpr fun j hj => Bool.eq_false_iff.mp (ho j (List.mem_range.mp hj))
  unfold Dev.mfConfigure
  dsimp only
  rw [Dev.checked_next ((Scene.idle_iff _).mpr h), Dev.checked_next hb, Dev.checked_next hr, Dev.checked_next fit, Dev.checked_nil, nothing]
  rfl

end Idle

theorem Desc.sceneOf_out (x : Desc) (tick j : Nat) : (x.sceneOf tick).out j = if j < x.get 0x3A 1 then x.entry j else [] := by
  rw [Scene.out, Desc.sceneOf, Tab.get_foldl_put]
  simp [Tab.get]

theorem Dev.mfStart_busy (h : (d.sceneAt x.sceneIx).cfg = [] ∨ (d.sceneAt x.sceneIx).running = true ∨ (d.sceneAt x.sceneIx).starting = true ∨ d.dozing = true) :
    d.mfStart x = d.complete x stBusy 0 := Dev.checked_first (by simpa [or_assoc] using h)

theorem Dev.clusterAt_bookScene (d : Dev) (q cost : Nat) :
    (d.bookScene q cost).clusterAt (q / 16) = { d.clusterAt (q / 16) with booked := (d.clusterAt (q / 16)).booked.put 0 q cost } := Dev.clusterAt_putClusterAt _ _ _

theorem Dev.clusterAt_bookScene_other (d : Dev) {q k : Nat} (cost : Nat) (h : k ≠ q / 16) : (d.bookScene q cost).clusterAt k = d.clusterAt k :=
  Dev.clusterAt_putClusterAt_other _ _ h

/-- What a SCENE_START books. -/
def Scene.cost (c : Scene) : Nat := sceneCost c.width c.height c.num c.den

section Start
variable (hc : (d.sceneAt x.sceneIx).cfg ≠ []) (h : (d.sceneAt x.sceneIx).idle) (hz : d.dozing = false)
include hc h hz

theorem Dev.mfStart_full (hf : 8000000 < d.mfBooked (x.sceneIx / 16) + (d.sceneAt x.sceneIx).cost) : d.mfStart x = d.complete x stCapacity 0 :=
  (Dev.checked_next (by simp [hc, h.1, h.2, hz])).trans (Dev.checked_first (decide_eq_true hf))

theorem Dev.mfStart_booked (hf : d.mfBooked (x.sceneIx / 16) + (d.sceneAt x.sceneIx).cost ≤ 8000000) (he : x.eff = 0) (ht : d.twinnedScene x.sceneIx = false) :
    d.mfStart x = ((d.mfHold x x.sceneIx x.sceneIx).bookScene x.sceneIx (d.sceneAt x.sceneIx).cost).putSceneAt x.sceneIx { d.sceneAt x.sceneIx with starting := true } := by
  have held : (d.mfHold x x.sceneIx x.sceneIx).pend.length ≠ d.pend.length := by
    rw [Dev.mfHold_untimed he ht]
    simp
  unfold Dev.mfStart
  dsimp only
  rw [Dev.checked_next (by simp [hc, h.1, h.2, hz]), Dev.checked_next (decide_eq_false (Nat.not_lt.mpr hf)), Dev.checked_nil, if_neg held]
  rfl

end Start

theorem Dev.mfStop_busy (h : (d.sceneAt x.sceneIx).cfg = [] ∨ d.outputRead x.sceneIx none = true) : d.mfStop x = d.complete x stBusy 0 :=
  Dev.checked_first (by simpa using h)

theorem Dev.mfStop_held (hc : (d.sceneAt x.sceneIx).cfg ≠ []) (hr : d.outputRead x.sceneIx none = false) : d.mfStop x = d.mfHold x x.sceneIx x.sceneIx :=
  Dev.checked_next (by simp [hc, hr])

/-- The commits that wait for a layer. -/
def Dev.layerPend (d : Dev) (ix : Nat) : List Pend := d.pend.filter fun p => p.unit == 2 && p.op == 4 && p.obj == ix

theorem Dev.mfLayer_busy (h : (d.sceneAt (x.layerIx / 8)).cfg = [] ∨ 8 ≤ (d.layerPend x.layerIx).length) : d.mfLayer x = d.complete x stBusy 0 :=
  Dev.checked_first (by simpa [Dev.layerPend] using h)

section Layer
variable (hc : (d.sceneAt (x.layerIx / 8)).cfg ≠ []) (hl : (d.layerPend x.layerIx).length < 8)
include hc hl

theorem Dev.mfLayer_badEnable (h : 1 < x.get 0x23 1) : d.mfLayer x = d.complete x stBadDesc 0 :=
  (Dev.checked_next (by simpa [hc, Dev.layerPend] using hl)).trans (Dev.checked_first (Bool.or_eq_true_iff.mpr (.inl (decide_eq_true h))))

theorem Dev.mfLayer_badField (h : x.get 0x23 1 = 1) (hb : badLayer { cfg := x.bytes } = true) : d.mfLayer x = d.complete x stBadDesc 0 := by
  have on : Layer.enabled { cfg := x.bytes } = true := beq_iff_eq.mpr h
  exact (Dev.checked_next (by simpa [hc, Dev.layerPend] using hl)).trans (Dev.checked_first (by simp [on, hb]))

theorem Dev.mfLayer_disabling (h : x.get 0x23 1 = 0) : d.mfLayer x = d.mfHold x (x.layerIx / 8) x.layerIx := by
  have one : Layer.get { cfg := x.bytes } 0x23 1 = 0 := h
  have off : Layer.enabled { cfg := x.bytes } = false := by rw [Layer.enabled, one]; rfl
  unfold Dev.mfLayer
  dsimp only
  rw [off, one, Dev.checked_next, Dev.checked_next, Dev.checked_next, Dev.checked_next, Dev.checked_nil]
  · rfl
  · rfl
  · rfl
  · simpa [hc, Dev.layerPend] using hl

end Layer

/-- The fields of Table 7.7 that O37 names. -/
theorem badLayer_of_range (h : 1 < x.get 0x24 1 ∨ 7 < x.get 0x25 1 ∨ 1023 < x.get 0x44 2 ∨ 4 < x.get 0x46 1) : badLayer { cfg := x.bytes } = true := by
  have fields : Layer.source { cfg := x.bytes } > 1 ∨ Layer.format { cfg := x.bytes } > 7 ∨ Layer.alpha { cfg := x.bytes } > 1023 ∨ Layer.csc { cfg := x.bytes } > 4 := h
  unfold badLayer
  rcases fields with h | h | h | h <;> simp only [h, decide_true, Bool.or_true, Bool.true_or]

theorem Dev.mfOutput_busy (h : (d.sceneAt x.sceneIx).cfg = [] ∨ d.outputRead x.sceneIx (some (x.get 0x23 1)) = true) : d.mfOutput x = d.complete x stBusy 0 :=
  Dev.checked_first (by simpa using h)

section Output
variable (hc : (d.sceneAt x.sceneIx).cfg ≠ []) (hr : d.outputRead x.sceneIx (some (x.get 0x23 1)) = false)
include hc hr

theorem Dev.mfOutput_beyond (h : (d.sceneAt x.sceneIx).outCount ≤ x.get 0x23 1) : d.mfOutput x = d.complete x stBadDesc 0 :=
  (Dev.checked_next (by simp [hc, hr])).trans (Dev.checked_first (by simp [h]))

variable (hj : x.get 0x23 1 < (d.sceneAt x.sceneIx).outCount) (hb : badEntry (x.entry 0) = false)
include hj hb

theorem Dev.mfOutput_badGeometry (h : badOutput (d.sceneAt x.sceneIx).width (d.sceneAt x.sceneIx).height (x.entry 0) = true) :
    d.mfOutput x = d.complete x stGeometry 0 :=
  (Dev.checked_next (by simp [hc, hr])).trans ((Dev.checked_next (by simp [hb, hj])).trans (Dev.checked_first h))

theorem Dev.mfOutput_held (h : badOutput (d.sceneAt x.sceneIx).width (d.sceneAt x.sceneIx).height (x.entry 0) = false) :
    d.mfOutput x = d.mfHold x x.sceneIx (x.sceneIx * 8 + x.get 0x23 1) :=
  (Dev.checked_next (by simp [hc, hr])).trans ((Dev.checked_next (by simp [hb, hj])).trans (Dev.checked_next h))

end Output
end MfCommands

/-- Settles O37: each descriptor's checks in their order, then what it leaves. -/
theorem compositorCommands : Obligations.CompositorCommands := by
  intro s x e q c n cost ended held
  refine ⟨fun ht => ?_, fun ht => ?_, fun ht => ?_, fun ht => ?_, fun ht => ?_⟩
  · have run {k : Dev} (h : e.mfConfigure x = k) : exec .mfSceneConfigure s = .next { s with dev := k } := congrArg (ok s) ((ht.runUnit Dev.mfConfigure).trans h)
    refine ⟨fun h => run (Dev.mfConfigure_busy fun i => by simp [c, q, i.1, i.2] at h), fun h h' hb => run (Dev.mfConfigure_badField ⟨h, h'⟩ (mfBadScene_of_range hb)),
      fun h h' hb hr => run (Dev.mfConfigure_badRate ⟨h, h'⟩ hb hr), fun h h' hb hr ⟨j, hj, ho⟩ => run (Dev.mfConfigure_badOutput ⟨h, h'⟩ hb hr hj ho),
      fun h h' hb hr ho hp => completes_ok (run (Dev.mfConfigure_configured ⟨h, h'⟩ hb hr ho hp)) ?_⟩
    obtain ⟨thr, dsp, mem, poison, hd⟩ := Dev.complete_eq (e.putSceneAt q (x.sceneOf (gridAtOrAfter (x.get 0x28 4) (x.get 0x2C 4) e.cadence))) x stOK 0
    rw [Dev.complete_sceneAt, Dev.sceneAt_putSceneAt]
    refine ⟨rfl, rfl, fun j hj => ?_, fun j hj => ?_, rfl, fun k hk => (Dev.complete_sceneAt _ _ _ _ _).trans (Dev.sceneAt_putSceneAt_other _ _ hk), ?_⟩
    · rw [Desc.sceneOf_out, if_pos hj]
    · rw [Desc.sceneOf_out, if_neg (Nat.not_lt.mpr hj)]
    · rw [hd]
      rfl
  · have run {k : Dev} (h : e.mfStart x = k) : exec .mfSceneStart s = .next { s with dev := k } := congrArg (ok s) ((ht.runUnit Dev.mfStart).trans h)
    refine ⟨fun h => run (Dev.mfStart_busy h), fun hc h h' hz => ⟨fun hf => run (Dev.mfStart_full hc ⟨h, h'⟩ hz hf), fun hf he htw =>
      completes_ok (run (Dev.mfStart_booked hc ⟨h, h'⟩ hz hf he htw)) ?_⟩⟩
    rw [Dev.mfHold_untimed he htw]
    refine ⟨rfl, Dev.sceneAt_putSceneAt _ _ _, ?_, fun k hk => Dev.sceneAt_putSceneAt_other _ _ hk, fun k hk => ?_, rfl⟩
    · exact (congrArg (fun y : Cluster => y.booked.get 0 q) (Dev.clusterAt_bookScene _ q cost)).trans (Tab.get_put_same _ _ _ _)
    · exact Dev.clusterAt_bookScene_other _ cost hk
  · have run {k : Dev} (h : e.mfStop x = k) : exec .mfSceneStop s = .next { s with dev := k } := congrArg (ok s) ((ht.runUnit Dev.mfStop).trans h)
    exact ⟨fun h => run (Dev.mfStop_busy h), fun hc hr he htw => run ((Dev.mfStop_held hc hr).trans (Dev.mfHold_untimed he htw))⟩
  · have run {k : Dev} (h : e.mfLayer x = k) : exec .mfLayerCommit s = .next { s with dev := k } := congrArg (ok s) ((ht.runUnit Dev.mfLayer).trans h)
    exact ⟨fun h => run (Dev.mfLayer_busy h), fun hc hl => ⟨fun h => run (Dev.mfLayer_badEnable hc hl h),
      fun h hb => run (Dev.mfLayer_badField hc hl h (badLayer_of_range hb)),
      fun h he htw => run ((Dev.mfLayer_disabling hc hl h).trans (Dev.mfHold_untimed he htw))⟩⟩
  · have run {k : Dev} (h : e.mfOutput x = k) : exec .mfOutputCommit s = .next { s with dev := k } := congrArg (ok s) ((ht.runUnit Dev.mfOutput).trans h)
    exact ⟨fun h => run (Dev.mfOutput_busy h), fun hc hr => ⟨fun h => run (Dev.mfOutput_beyond hc hr h),
      fun hj hb hg => run (Dev.mfOutput_badGeometry hc hr hj hb hg),
      fun hj hb hg he htw => run ((Dev.mfOutput_held hc hr hj hb hg).trans (Dev.mfHold_untimed he htw))⟩⟩

/-- The device after an operation, from its run. -/
theorem eq_of_ok_next {s : State} {d e : Dev} (h : ok s d = .next { s with dev := e }) : d = e := congrArg State.dev (Host.Outcome.next.inj h)

/-! ## A late row (R204, R241) -/

/-- An output of one sample: width 1, height 1, enabled, format 4:2:2, at address 0. -/
def dotOutput : List Byte := [1, 0, 1, 0, 0, 1]

/-- A scene of one sample with that output, and a raster of tick 0 that has no row yet. -/
def dotScene : Scene := { cfg := zeros 0x24 ++ [1, 0, 1, 0], work := [{ outs := [(0, dotOutput)] }] }

/-- A device with that scene, whose raster's row is late; the sample of the slot before is stored with bits 15:12 set. -/
def dotDev : Dev := { Dev.reset with scene := [(0, dotScene)], tb := { ns := 50000000 }, mem := writeBytes [] 12289 [0xFF] }

/-- Refutes O38: a late row is copied sample by sample (bits 11:0, R204), so a container of the slot before that holds more than twelve bits is not copied whole. -/
theorem not_composition : ¬ Obligations.Composition := by
  intro h
  obtain ⟨-, -, late⟩ := h ⟨[], dotDev⟩ 0 0
  obtain ⟨e, run, -, -, -, copied⟩ := late { outs := [(0, dotOutput)] } dotOutput 0 0 rfl rfl rfl (by decide) (by decide) (by decide) rfl (by decide +kernel) rfl (by decide +kernel)
  rw [← eq_of_ok_next run] at copied
  exact absurd copied (by decide +kernel)

end Sys2Proof.Machine

/-! # The encoder: descriptors and pipes (R276 to R299) -/

namespace Sys2Proof.Machine

/-! ## A LOAD in a pair (R284, R390) -/

/-- Zeros with bytes laid over them. -/
def laidBytes (n : Nat) (ps : List (Nat × Byte)) : List Byte := ps.foldl (fun b p => b.set p.1 p.2) (zeros n)

/-- A LOAD of channel 0 (HEVC, 1920 x 1080 at 50 Hz) that makes it twinned: byte 0x4E, TWIN, is 1. -/
def twinLoad : Desc :=
  { bytes := laidBytes 0x800 [(0, 4), (1, 1), (3, 8), (0x10, 0xFF), (0x11, 0xFF), (0x22, 1), (0x23, 1), (0x24, 41), (0x26, 8), (0x27, 64), (0x28, 0x80),
      (0x29, 7), (0x2A, 0x38), (0x2B, 4), (0x2C, 50), (0x30, 1), (0x3F, 1), (0x40, 1), (0x4B, 4), (0x4E, 1), (0x4F, 3), (0x53, 0x80), (0x5B, 0x90), (0x63, 0xA0),
      (0x6A, 0x20), (0x101, 1), (0x103, 1), (0x109, 0x12), (0x10A, 0x7A), (0x119, 9), (0x11A, 0x3D), (0x121, 9), (0x122, 0x3D), (0x128, 20), (0x129, 40), (0x12A, 30),
      (0x12D, 1), (0x12E, 32), (0x131, 1)] }

/-- A half of a pair whose ENC unit holds that LOAD. -/
def loadingDev : Dev := { Dev.reset with twin := { st := .paired }, unitQ := [(4, [twinLoad])] }

/-- Refutes O39: a half of a pair tells its partner the new context of a twinned channel, so a LOAD there also puts a message on the link, which the statement's
frame does not allow. -/
theorem not_encoderCommands : ¬ Obligations.EncoderCommands := by
  intro h
  have taken : loadingDev.Takes 4 1 encLoadSpec twinLoad (loadingDev.putUnitQueue 4 []) := ⟨rfl, by decide +kernel⟩
  obtain ⟨load, -⟩ := h ⟨[], loadingDev⟩ twinLoad (loadingDev.putUnitQueue 4 [])
  obtain ⟨-, -, accepted⟩ := load taken
  obtain ⟨-, -, leaves⟩ := accepted (by decide +kernel) (by decide +kernel)
  obtain ⟨d, run, -, -, frame⟩ := leaves (by decide +kernel) (by decide +kernel) (by decide +kernel)
  have quiet : d.waiting = [] := congrArg Dev.waiting frame
  rw [← eq_of_ok_next run] at quiet
  have told : (loadingDev.runUnit 4 1 encLoadSpec Dev.encLoad).waiting.length = 1 := by decide +kernel
  exact absurd told (by rw [quiet]; decide)

end Sys2Proof.Machine

/-! # Pipes and deadlines (R289 to R293, R384) -/

namespace Sys2Proof.Machine

/-- A channel of class 1 in coding, whose next picture is due at once. -/
def dueChan : Chan := { st := .running, ctx := zeros 0x38 ++ [1] }

/-- A device with that channel, for whose next picture a snapshot is at hand. -/
def snappedDev : Dev := { Dev.reset with chan := [(0, dueChan)], twin := { chs := [(0, { snap := some (0, {}, {}, []) })] } }

/-- Refutes O40: a picture for which a snapshot is at hand, and whose first row has not started when it is due, is a failed copy attempt. It is left to the skip
path, and is no miss although the channel is not shed. -/
theorem not_pipesAndDeadlines : ¬ Obligations.PipesAndDeadlines := by
  intro h
  obtain ⟨-, -, -, -, -, -, missed, -⟩ := h ⟨[], snappedDev⟩ 0 0
  obtain ⟨e, run, -, -, misses, -⟩ := missed (by decide +kernel) (by decide +kernel) (by decide +kernel) (by decide +kernel) (by decide +kernel) (by decide +kernel)
    (by decide +kernel) (by decide +kernel) (by decide +kernel) (by decide +kernel) (by decide +kernel) (by decide +kernel)
  rw [← eq_of_ok_next run] at misses
  have none_counted : ((snappedDev.deadline (0 : Fin 512) (snappedDev.channel (0 : Fin 512)).j).channel (0 : Fin 512)).misses = 0 := by decide +kernel
  have one_asked : (if (snappedDev.channel (0 : Fin 512)).shed then (snappedDev.channel (0 : Fin 512)).misses else (snappedDev.channel (0 : Fin 512)).misses + 1) = 1 := by
    decide +kernel
  exact absurd (none_counted.symm.trans (misses.trans one_asked)) (by decide)

end Sys2Proof.Machine

/-! # The blit engines (R249 to R266) -/

namespace Sys2Proof.Machine

/-! ## Accepting a job (R252, R253) -/

section Accept
variable {d : Dev} {x : Desc}

/-- The fields of Table 8.2 that O41 names. -/
theorem blitBad_of_range (h : 3 < x.get 0x20 1 ∨ 1 < x.get 0x21 1 ∨ 1 < x.get 0x22 1 ∨ x.get 0x24 1 = 0 ∨ 7 < x.get 0x24 1 ∨ x.get 0x28 2 = 0 ∨ 32767 < x.get 0x28 2 ∨
    x.get 0x2A 2 = 0 ∨ 32767 < x.get 0x2A 2 ∨ x.get 0x2A 2 < x.get 0x2C 2) : blitBad x = true := by
  have fields : x.get 0x20 1 > 3 ∨ x.get 0x21 1 > 1 ∨ x.get 0x22 1 > 1 ∨ x.bDst.fmt = 0 ∨ 7 < x.bDst.fmt ∨ x.bW = 0 ∨ x.bW > 32767 ∨ x.bH = 0 ∨ x.bH > 32767 ∨ x.get 0x2C 2 > x.bH := h
  unfold blitBad badSurf
  rcases fields with h | h | h | h | h | h | h | h | h | h <;> simp only [h, decide_true, Bool.or_true, Bool.true_or]

theorem Dev.blitAccept_bad (h : blitBad x = true) : d.blitAccept x = d.complete x stBadDesc 0 := Dev.checked_first h

theorem Dev.blitAccept_format (hb : blitBad x = false) (h : blitFormat x = true) : d.blitAccept x = d.complete x stFormat 0 :=
  (Dev.checked_next hb).trans (Dev.checked_first h)

section Good
variable (hb : blitBad x = false) (hf : blitFormat x = false)
include hb hf

theorem Dev.blitAccept_geometry (h : blitGeometry x = true) : d.blitAccept x = d.complete x stGeometry 0 :=
  (Dev.checked_next hb).trans ((Dev.checked_next hf).trans (Dev.checked_first h))

variable (hg : blitGeometry x = false)
include hg

theorem Dev.blitAccept_starts (hj : (d.engine (x.get 0x20 1)).job = none) (hq : (d.engine (x.get 0x20 1)).queue = []) : d.blitAccept x =
    d.putEngine (x.get 0x20 1) { d.engine (x.get 0x20 1) with job := some x, row := 0, chunk := 0, moved := 0, gapEnd := none, rows := 0 } := by
  unfold Dev.blitAccept
  rw [Dev.checked_next hb, Dev.checked_next hf, Dev.checked_next hg, Dev.checked_nil, Dev.modEngine_eq]
  dsimp only
  rw [hj, hq]
  rfl

theorem Dev.blitAccept_waits (hj : (d.engine (x.get 0x20 1)).job ≠ none) : d.blitAccept x =
    d.putEngine (x.get 0x20 1) { d.engine (x.get 0x20 1) with queue := (d.engine (x.get 0x20 1)).queue ++ [x] } := by
  unfold Dev.blitAccept
  rw [Dev.checked_next hb, Dev.checked_next hf, Dev.checked_next hg, Dev.checked_nil, Dev.modEngine_eq]
  dsimp only
  rw [if_neg (by simpa using hj)]

end Good

/-- A COPY between formats, or a CONVERT of a pair that Table 8.3 does not hold. -/
theorem blitFormat_of_pair (h : (x.op = 2 ∧ x.get 0x23 1 ≠ x.get 0x24 1) ∨ (x.op = 3 ∧ x.get 0x24 1 ≠ 7 ∧ ¬ (x.get 0x23 1 ≤ 3 ∧ x.get 0x24 1 ≤ 3) ∧
    ¬ (4 ≤ x.get 0x23 1 ∧ x.get 0x23 1 ≤ 6 ∧ 4 ≤ x.get 0x24 1 ∧ x.get 0x24 1 ≤ 6))) : blitFormat x = true := by
  unfold blitFormat
  rcases h with ⟨ho, hp⟩ | ⟨ho, h7, hlow, hhigh⟩
  · simp [ho, hp]
  · have pair : convertOk (x.get 0x23 1) (x.get 0x24 1) = false := by
      rw [Bool.eq_false_iff]
      unfold convertOk
      simp only [ne_eq, Bool.or_eq_true, Bool.and_eq_true, beq_iff_eq, decide_eq_true_eq]
      tauto
    simp [ho, pair]

end Accept

/-! ## Chunks (R254 to R256, R260 to R265) -/

section Chunks
variable {d : Dev} {i : Nat} {x : Desc} {c : Chunk}

/-- The engine after a chunk that is not a row's last one. -/
def Blit.moved1 (b : Blit) (gap : Option Nat) : Blit := { b with moved := b.moved + 1, chunk := b.chunk + 1, gapEnd := gap }

/-- The engine after the last chunk of a row. -/
def Blit.rowDone (b : Blit) (gap : Option Nat) : Blit := { b with moved := b.moved + 1, chunk := 0, row := b.row + 1, rows := b.row + 1, gapEnd := gap }

/-- The gap that follows a chunk (R260). -/
def Dev.gapAfter (d : Dev) (b : Blit) (x : Desc) : Option Nat :=
  if (b.moved + 1) % 16 = 0 ∧ x.get 0x2E 2 ≠ 0 then some (d.ctl.ticks + 3 * x.get 0x2E 2) else none

/-- A chunk is written. -/
def Dev.chunkWritten (d : Dev) (x : Desc) (c : Chunk) : Dev := d.memWrite (x.bDst.rowAddr c.plane c.row + c.off) (d.chunkBytes x c)

theorem Dev.gapAfter_eq (d : Dev) (b : Blit) (x : Desc) :
    (if ((b.moved + 1) % 16 = 0 && x.get 0x2E 2 != 0) = true then some (d.ctl.ticks + 3 * x.get 0x2E 2) else none) = d.gapAfter b x := by
  simp [Dev.gapAfter]

variable (hj : (d.engine i).job = some x) (hg : (d.engine i).gapEnd = none) (hi : d.ctl.islBusy ≠ some (24 + i / 2))
  (hc : (x.chunks (d.engine i).row)[(d.engine i).chunk]? = some c)
include hj hg hi hc

theorem Dev.blitChunk_poisoned (hp : ((x.chunkNeeds c).any fun r => d.poisoned r.1 r.2) = true) : d.blitChunk i = d.blitFail i x stInternal := by
  unfold Dev.blitChunk
  dsimp only
  rw [hj]
  dsimp only
  rw [hg, if_neg (by simpa using hi), hc]
  exact if_pos hp

variable (hp : ((x.chunkNeeds c).any fun r => d.poisoned r.1 r.2) = false)
include hp

theorem Dev.blitChunk_inside (hn : (d.engine i).chunk + 1 < (x.chunks (d.engine i).row).length) :
    d.blitChunk i = (d.chunkWritten x c).putEngine i ((d.engine i).moved1 (d.gapAfter (d.engine i) x)) := by
  have more : decide ((x.chunks (d.engine i).row).length ≤ (d.engine i).chunk + 1) = false := decide_eq_false (Nat.not_le.mpr hn)
  unfold Dev.blitChunk
  dsimp only
  rw [hj]
  dsimp only
  rw [hg, if_neg (by simpa using hi), hc]
  dsimp only
  rw [hp, more, Dev.gapAfter_eq]
  unfold Blit.moved1
  rw [hj]
  rfl

/-- The last chunk of a row, in a job without a watermark. -/
theorem Dev.blitChunk_row (hn : (d.engine i).chunk + 1 = (x.chunks (d.engine i).row).length) (hw : x.get 0x2C 2 = 0) (hr : (d.engine i).row + 1 < x.bH) :
    d.blitChunk i = (d.chunkWritten x c).putEngine i ((d.engine i).rowDone (d.gapAfter (d.engine i) x)) := by
  have last : decide ((x.chunks (d.engine i).row).length ≤ (d.engine i).chunk + 1) = true := decide_eq_true (Nat.le_of_eq hn.symm)
  unfold Dev.blitChunk
  dsimp only
  rw [hj]
  dsimp only
  rw [hg, if_neg (by simpa using hi), hc]
  dsimp only
  rw [hp, last, Dev.gapAfter_eq, if_neg Bool.false_ne_true, if_neg (by decide), if_pos (by exact hr), Dev.watermark, if_neg (by simp [hw])]
  unfold Blit.rowDone
  rw [hj]
  rfl

/-- The last chunk of a job without a watermark. -/
theorem Dev.blitChunk_done (hn : (d.engine i).chunk + 1 = (x.chunks (d.engine i).row).length) (hw : x.get 0x2C 2 = 0) (hr : x.bH ≤ (d.engine i).row + 1) :
    d.blitChunk i = ((d.chunkWritten x c).putEngine i
      { ((d.engine i).rowDone none).next with jobs := ((d.engine i).jobs + 1) % 2 ^ 32 }).complete x stOK 0 := by
  have last : decide ((x.chunks (d.engine i).row).length ≤ (d.engine i).chunk + 1) = true := decide_eq_true (Nat.le_of_eq hn.symm)
  unfold Dev.blitChunk
  dsimp only
  rw [hj]
  dsimp only
  rw [hg, if_neg (by simpa using hi), hc]
  dsimp only
  rw [hp, last, if_neg Bool.false_ne_true, if_neg (by decide), if_neg (by exact Nat.not_lt.mpr hr), Dev.watermark, if_neg (by simp [hw])]
  unfold Blit.rowDone
  rw [hj]
  rfl

end Chunks

theorem Blit.next_idle {b : Blit} (h : b.queue = []) : b.next = { b with job := none, gapEnd := none } := by
  unfold Blit.next
  split
  · next he => exact absurd (he.symm.trans h) (List.cons_ne_nil _ _)
  · rfl

theorem Dev.chunkWritten_eq (d : Dev) (x : Desc) (c : Chunk) : ∃ mem poison, d.chunkWritten x c = { d with mem := mem, poison := poison } := d.memWrite_eq _ _

theorem Dev.chunkWritten_engine (d : Dev) (x : Desc) (c : Chunk) (k : Nat) : (d.chunkWritten x c).engine k = d.engine k := by
  obtain ⟨mem, poison, h⟩ := d.chunkWritten_eq x c
  rw [h]
  rfl

theorem Dev.chunkWritten_byte {d : Dev} {x : Desc} {c : Chunk} {j : Nat} {bs : List Byte} (ha : x.bDst.rowAddr c.plane c.row + c.off + c.len ≤ d.capacity)
    (hb : d.chunkBytes x c = bs) (hl : bs.length = c.len) (hj : j < c.len) :
    (d.chunkWritten x c).memByte (x.bDst.rowAddr c.plane c.row + c.off + j) = bs[j]'(by omega) := by
  subst hb
  exact Dev.memByte_memWrite_inside d _ _ _ _ (by rwa [hl])

theorem Dev.chunkWritten_other {d : Dev} {x : Desc} {c : Chunk} {j : Nat}
    (h : j < x.bDst.rowAddr c.plane c.row + c.off ∨ x.bDst.rowAddr c.plane c.row + c.off + (d.chunkBytes x c).length ≤ j) :
    (d.chunkWritten x c).memByte j = d.memByte j := Dev.memByte_memWrite_other d _ _ _ h

theorem Dev.complete_engine (d : Dev) (x : Desc) (status mt k : Nat) : (d.complete x status mt).engine k = d.engine k := by simp [Dev.engine]

theorem Dev.raise_engine (d : Dev) (n k : Nat) : (d.raise n).engine k = d.engine k := by simp [Dev.engine]

theorem Dev.memByte_raise (d : Dev) (n j : Nat) : (d.raise n).memByte j = d.memByte j := Dev.memByte_congr (by simp) (by simp) j

/-- A FILL of format 7 writes the low byte of FILL. -/
theorem Dev.chunkBytes_fill {d : Dev} {x : Desc} (c : Chunk) (ho : x.op = 1) (hf : x.get 0x24 1 = 7) :
    d.chunkBytes x c = List.replicate c.len (BitVec.ofNat 8 (x.get 0x58 8)) := by
  have fmt : x.bDst.fmt = 7 := hf
  have bpp : x.bDst.bpp = 1 := by rw [Surf.bpp, fmt]; rfl
  have packed : x.bDst.planar = false := by rw [Surf.planar, fmt]; rfl
  unfold Dev.chunkBytes
  dsimp only
  rw [ho, bpp, packed, Nat.div_one]
  have one (v : Nat) : toLE 1 v = [BitVec.ofNat 8 v] := rfl
  rw [if_neg Bool.false_ne_true, one, List.flatMap_def, List.map_const', List.length_range, List.flatten_replicate_singleton]
  rfl

/-- A COPY writes the bytes of its source. -/
theorem Dev.chunkBytes_copy {d : Dev} {x : Desc} (c : Chunk) (ho : x.op = 2) : d.chunkBytes x c = d.memRead (x.bSrc.rowAddr c.plane c.row + c.off) c.len := by
  unfold Dev.chunkBytes
  rw [ho]
  rfl

theorem Desc.chunkNeeds_fill {x : Desc} (c : Chunk) (ho : x.op = 1) : x.chunkNeeds c = [] := by
  unfold Desc.chunkNeeds
  rw [ho]
  rfl

theorem Desc.chunkNeeds_copy {x : Desc} (c : Chunk) (ho : x.op = 2) : x.chunkNeeds c = [(x.bSrc.rowAddr c.plane c.row + c.off, c.len)] := by
  unfold Desc.chunkNeeds
  rw [ho]
  rfl

/-- Settles O41: the checks of R253 and the job's place; then a chunk by what it is of its row, and the end of a gap. -/
theorem blitEngines : Obligations.BlitEngines := by
  refine ⟨?_, ?_⟩
  · intro s x e p hp ht
    have run : exec p.1 s = ok s (s.dev.runUnit 3 p.2 blitSpec Dev.blitAccept) := by
      simp only [List.mem_cons, List.not_mem_nil, or_false] at hp
      rcases hp with rfl | rfl | rfl <;> rfl
    have ends {k : Dev} (h : e.blitAccept x = k) : exec p.1 s = .next { s with dev := k } := run.trans (congrArg (ok s) ((ht.runUnit Dev.blitAccept).trans h))
    rw [← ht.op_eq]
    intro i b src dst out
    exact ⟨fun h => ends (Dev.blitAccept_bad (blitBad_of_range h)), fun hb => ⟨fun h => ends (Dev.blitAccept_format hb (blitFormat_of_pair h)),
      fun hf h => ends (Dev.blitAccept_geometry hb hf h), fun hf hg => ⟨fun hj hq => ends (Dev.blitAccept_starts hb hf hg hj hq),
        fun hj => ends (Dev.blitAccept_waits hb hf hg hj)⟩⟩⟩
  · intro s i x d b cs goes gap
    refine ⟨?_, ?_⟩
    · intro c ⟨hj, hg, hi⟩ hc a src
      refine ⟨?_, ?_, ?_⟩
      · intro hn ha
        refine ⟨?_, ?_⟩
        · intro ho hf
          have clean : ((x.chunkNeeds c).any fun r => d.poisoned r.1 r.2) = false := by rw [Desc.chunkNeeds_fill c ho]; rfl
          have bytes := Dev.chunkBytes_fill (d := d) c ho hf
          refine completes_ok (congrArg (ok s) (Dev.blitChunk_inside hj hg hi hc clean hn)) ⟨fun j hjl => ?_, fun j hjo => ?_, Dev.engine_putEngine _ _ _, fun k hk => ?_, ?_⟩
          · refine (Dev.chunkWritten_byte ha bytes (List.length_replicate ..) hjl).trans ?_
            rw [List.getElem_replicate]
          · exact Dev.chunkWritten_other (by rw [bytes, List.length_replicate]; exact hjo)
          · rw [Dev.engine_putEngine_other _ _ hk]
            exact Dev.chunkWritten_engine _ _ _ _
          · obtain ⟨mem, poison, h⟩ := d.chunkWritten_eq x c
            rw [h]
            rfl
        · intro ho hpo
          have clean : ((x.chunkNeeds c).any fun r => d.poisoned r.1 r.2) = false := by
            rw [Desc.chunkNeeds_copy c ho, List.any_cons, List.any_nil, Bool.or_false]
            exact hpo
          have bytes := Dev.chunkBytes_copy (d := d) c ho
          rw [Dev.memRead_eq] at bytes
          refine completes_ok (congrArg (ok s) (Dev.blitChunk_inside hj hg hi hc clean hn)) ⟨fun j hjl => ?_, fun j hjo => ?_, Dev.engine_putEngine _ _ _, ?_⟩
          · refine (Dev.chunkWritten_byte ha bytes (by simp) hjl).trans ?_
            rw [List.getElem_map, List.getElem_range]
          · exact Dev.chunkWritten_other (by rw [bytes, List.length_map, List.length_range]; exact hjo)
          · obtain ⟨mem, poison, h⟩ := d.chunkWritten_eq x c
            rw [h]
            rfl
      · intro hn ho hw
        have clean : ((x.chunkNeeds c).any fun r => d.poisoned r.1 r.2) = false := by rw [Desc.chunkNeeds_fill c ho]; rfl
        obtain ⟨mem, poison, written⟩ := d.chunkWritten_eq x c
        refine ⟨fun hr => completes_ok (congrArg (ok s) (Dev.blitChunk_row hj hg hi hc clean hn hw hr)) ⟨Dev.engine_putEngine _ _ _, ?_⟩,
          fun hr hq => completes_ok (congrArg (ok s) (Dev.blitChunk_done hj hg hi hc clean hn hw hr)) ?_⟩
        · rw [written]
          rfl
        · obtain ⟨thr, dsp, mem', poison', ended⟩ := Dev.complete_eq ((d.chunkWritten x c).putEngine i
            { ((d.engine i).rowDone none).next with jobs := ((d.engine i).jobs + 1) % 2 ^ 32 }) x stOK 0
          have next : ((d.engine i).rowDone none).next = { (d.engine i).rowDone none with job := none, gapEnd := none } := Blit.next_idle hq
          have engine : Dev.engine (Dev.complete ((d.chunkWritten x c).putEngine i
              { ((d.engine i).rowDone none).next with jobs := ((d.engine i).jobs + 1) % 2 ^ 32 }) x stOK 0) i = _ :=
            (Dev.complete_engine _ _ _ _ _).trans (Dev.engine_putEngine _ _ _)
          rw [engine, next]
          refine ⟨rfl, rfl, rfl, rfl, ?_⟩
          rw [next] at ended
          rw [ended, written]
          rfl
      · intro ho hpo hq hl
        have foul : ((x.chunkNeeds c).any fun r => d.poisoned r.1 r.2) = true := by
          rw [Desc.chunkNeeds_copy c ho, List.any_cons, List.any_nil, Bool.or_false]
          exact hpo
        have next : (d.engine i).next = { d.engine i with job := none, gapEnd := none } := Blit.next_idle hq
        have engine : (d.blitFail i x stInternal).engine i = { (d.engine i).next with aborts := ((d.engine i).aborts + 1) % 2 ^ 32 } :=
          (Dev.raise_engine _ _ _).trans ((Dev.complete_engine _ _ _ _ _).trans (Dev.engine_putEngine _ _ _))
        refine completes_ok (congrArg (ok s) (Dev.blitChunk_poisoned hj hg hi hc foul)) ?_
        rw [engine, next]
        refine ⟨rfl, rfl, rfl, Dev.raise_status (by decide) ?_, fun j hjo => ?_⟩
        · rw [(Dev.complete_frame _ _ _ _).2.2.1]
          exact hl
        · exact (Dev.memByte_raise _ 29 j).trans (Dev.memByte_complete_other _ _ _ _ _ hjo)
    · intro t ht
      refine congrArg (ok s) ?_
      unfold Dev.gapExpiry
      dsimp only
      rw [ht]

end Sys2Proof.Machine

/-! # The contribution decoder (R335 to R351) -/

namespace Sys2Proof.Machine

/-! ## The DEC descriptors (R339, R347 to R350) -/

theorem Dev.complete_stream (d : Dev) (x : Desc) (status mt k : Nat) : (d.complete x status mt).stream k = d.stream k := by simp [Dev.stream]

section DecCommands
variable {d : Dev} {x : Desc}

/-- The fields of Table 11.4 that O42 names. -/
theorem Dev.decBadField_of_range (d : Dev) (h : 3 < x.get 0x22 1 ∨ 3 < x.get 0x23 1 ∨ 2 < x.get 0x24 1 ∨ x.get 0x3C 4 % 65536 ≠ 0 ∨ x.get 0x3C 4 < 2 ^ 20 ∨
    2 ^ 28 < x.get 0x3C 4) : d.decBadField x = true := by
  unfold Dev.decBadField
  rcases h with h | h | h | h | h | h <;> simp only [h, bne_iff_ne.mpr, ne_eq, not_false_eq_true, decide_true, Bool.or_true, Bool.true_or]

theorem Dev.decConfigure_busy (h : (d.stream (x.get 0x20 2)).active = true) : d.decConfigure x = d.complete x stBusy 0 := Dev.checked_first h

section Inactive
variable (h : (d.stream (x.get 0x20 2)).active = false)
include h

theorem Dev.decConfigure_badField (hb : d.decBadField x = true) : d.decConfigure x = d.complete x stBadDesc 0 :=
  (Dev.checked_next h).trans (Dev.checked_first hb)

variable (hb : d.decBadField x = false)
include hb

theorem Dev.decConfigure_badFormat (hf : d.decBadFormat x = true) : d.decConfigure x = d.complete x stFormat 0 :=
  (Dev.checked_next h).trans ((Dev.checked_next hb).trans (Dev.checked_first hf))

variable (hf : d.decBadFormat x = false)
include hf

theorem Dev.decConfigure_badGeometry (hg : d.decBadGeometry x = true) : d.decConfigure x = d.complete x stGeometry 0 :=
  (Dev.checked_next h).trans ((Dev.checked_next hb).trans ((Dev.checked_next hf).trans (Dev.checked_first hg)))

theorem Dev.decConfigure_stops (hg : d.decBadGeometry x = false) (hp : ∀ p ∈ d.pend, p.unit ≠ 5) :
    d.decConfigure x = (d.putStream (x.get 0x20 2) { (d.stream (x.get 0x20 2)).halt with cfg := x.bytes }).complete x stOK 0 := by
  have nothing : d.abortPend (fun p => p.unit == 5 && p.obj == x.get 0x20 2) = d := Dev.abortPend_none fun p hm => by simp [hp p hm]
  unfold Dev.decConfigure
  dsimp only
  rw [Dev.checked_next h, Dev.checked_next hb, Dev.checked_next hf, Dev.checked_next hg, Dev.checked_nil, nothing]

end Inactive

/-- A descriptor without a time waits for the bound input's next tick, outside a pair. -/
theorem Dev.decHold_untimed (he : x.eff = 0) (ht : d.decTwinned (x.get 0x20 2) = false) :
    d.decHold x = { d with pend := d.pend ++ [{ d := x, unit := x.unit, op := x.op, obj := x.get 0x20 2, t := 0, since := d.ctl.ticks }] } := by
  unfold Dev.decHold
  dsimp only
  rw [Dev.holdPend_untimed he ht, Desc.waiting, he]

theorem Dev.decStart_busy (h : (d.stream (x.get 0x20 2)).st ≠ .stopped ∨ d.dozing = true) : d.decStart x = d.complete x stBusy 0 :=
  Dev.checked_first (by simpa using h)

section Start
variable (hs : (d.stream (x.get 0x20 2)).st = .stopped) (hz : d.dozing = false)
include hs hz

/-- What a pipe has booked with a START of the stream. -/
def Dev.decBookedWith (d : Dev) (k : Nat) : Nat := d.decBooked (d.stream k).pipe - (d.stream k).booked + (d.capIn (d.stream k).input).decCost

theorem Dev.decStart_full (hf : 3000000 < d.decBookedWith (x.get 0x20 2)) : d.decStart x = d.complete x stCapacity 0 :=
  (Dev.checked_next (by simp [hs, hz])).trans (Dev.checked_first (decide_eq_true hf))

theorem Dev.decStart_booked (hf : d.decBookedWith (x.get 0x20 2) ≤ 3000000) (he : x.eff = 0) (ht : d.decTwinned (x.get 0x20 2) = false) :
    d.decStart x = (d.decHold x).putStream (x.get 0x20 2)
      { d.stream (x.get 0x20 2) with starting := true, booked := (d.capIn (d.stream (x.get 0x20 2)).input).decCost } := by
  have held : (d.decHold x).pend.length ≠ d.pend.length := by
    rw [Dev.decHold_untimed he ht]
    simp
  have same : (d.decHold x).stream (x.get 0x20 2) = d.stream (x.get 0x20 2) := by
    rw [Dev.decHold_untimed he ht]
    rfl
  unfold Dev.decStart
  dsimp only
  rw [Dev.checked_next (by simp [hs, hz]), Dev.checked_next (decide_eq_false (Nat.not_lt.mpr hf)), Dev.checked_nil, if_neg held, Dev.modStream_eq, same]

end Start

theorem Dev.decStop_busy (h : (d.stream (x.get 0x20 2)).st = .unconfigured) : d.decStop x = d.complete x stBusy 0 := Dev.checked_first (by simp [h])

theorem Dev.decStop_held (h : (d.stream (x.get 0x20 2)).st ≠ .unconfigured) : d.decStop x = d.decHold x := Dev.checked_next (by simp [h])

end DecCommands

/-- Settles O42: each descriptor's checks in their order, then what it leaves. -/
theorem decoderCommands : Obligations.DecoderCommands := by
  intro s x e k y cost ended waiting
  refine ⟨fun ht => ?_, fun ht => ?_, fun ht => ?_⟩
  · have run {k : Dev} (h : e.decConfigure x = k) : exec .decConfigure s = .next { s with dev := k } := congrArg (ok s) ((ht.runUnit Dev.decConfigure).trans h)
    refine ⟨fun h => run (Dev.decConfigure_busy h), fun h hb => run (Dev.decConfigure_badField h (e.decBadField_of_range hb)),
      fun h hb hf => run (Dev.decConfigure_badFormat h hb hf), fun h hb hf hg => run (Dev.decConfigure_badGeometry h hb hf hg),
      fun h hb hf hg hp => completes_ok (run (Dev.decConfigure_stops h hb hf hg hp)) ?_⟩
    obtain ⟨thr, dsp, mem, poison, hd⟩ := Dev.complete_eq (e.putStream k { y.halt with cfg := x.bytes }) x stOK 0
    rw [Dev.complete_stream, Dev.stream_putStream]
    refine ⟨rfl, rfl, rfl, rfl, fun j hj => (Dev.complete_stream _ _ _ _ _).trans (Dev.stream_putStream_other _ _ hj), ?_⟩
    rw [hd]
    rfl
  · have run {k : Dev} (h : e.decStart x = k) : exec .decStart s = .next { s with dev := k } := congrArg (ok s) ((ht.runUnit Dev.decStart).trans h)
    refine ⟨fun h => run (Dev.decStart_busy h), fun hs hz => ⟨fun hf => run (Dev.decStart_full hs hz hf), fun hf he htw => ?_⟩⟩
    have booked := Dev.decStart_booked hs hz hf he htw
    rw [Dev.decHold_untimed he htw] at booked
    exact run booked
  · have run {k : Dev} (h : e.decStop x = k) : exec .decStop s = .next { s with dev := k } := congrArg (ok s) ((ht.runUnit Dev.decStop).trans h)
    exact ⟨fun h => run (Dev.decStop_busy h), fun h he htw => run ((Dev.decStop_held h).trans (Dev.decHold_untimed he htw))⟩

/-! ## The bitstream buffer (R336, R341, R346) -/

section Bitstream
variable {d : Dev} {k : Nat}

theorem Dev.decPacket_ignored {pathB : Bool} {p : DecPkt} (h : (d.stream k).active = false ∨ (d.stream k).hears pathB p = false) : d.decPacket k pathB p = d :=
  if_pos (by rcases h with h | h <;> simp [h])

/-- The first copy of a packet marks its path up. -/
theorem Dev.decPath_first {seq : Nat} (h : (d.stream k).seenAt.get 0 seq = 0) : d.decPath k false seq =
    d.putCapIn (d.stream k).input { d.capIn (d.stream k).input with upA := true, lastA := d.ctl.ticks } := by
  unfold Dev.decPath
  dsimp only
  rw [h]
  rfl

/-- A stream that has seen a packet at a tick. -/
def Dec.saw (s : Dec) (key now : Nat) : Dec := { s with seenAt := s.seenAt.put 0 key (now + 1) }

/-- Outside a pair the first copy of a packet that is not declared counts at once. -/
theorem Dev.decArrive_counts {p : DecPkt} (hp : d.paired = false) (hs : (d.stream k).seenAt.get 0 p.key = 0) (hd : (d.stream k).declared = []) :
    d.decArrive k p = (d.putStream k ((d.stream k).saw p.key d.ctl.ticks)).bufferPkt k p := by
  have alone : (d.putStream k ((d.stream k).saw p.key d.ctl.ticks)).paired = false := hp
  have leads : d.decFollows k = false := by simp [Dev.decFollows, Dev.follows, hp]
  unfold Dec.saw at alone ⊢
  unfold Dev.decArrive
  dsimp only
  rw [hs, if_neg (by decide), Dev.sendMap_unpaired alone, if_neg (by simp [hd]), if_neg (by simp [leads]), if_neg (by simp [hp])]

/-- A packet of the stream that counts as received. -/
theorem Dev.decPacket_counts {p : DecPkt} (ha : (d.stream k).active = true) (hh : (d.stream k).hears false p = true) (hp : d.paired = false)
    (hs : (d.stream k).seenAt.get 0 p.key = 0) (hd : (d.stream k).declared = []) : d.decPacket k false p =
    ((d.putCapIn (d.stream k).input { d.capIn (d.stream k).input with upA := true, lastA := d.ctl.ticks }).putStream k ((d.stream k).saw p.key d.ctl.ticks)).bufferPkt k p := by
  unfold Dev.decPacket
  dsimp only
  rw [ha, hh, if_neg (by decide), Dev.decPath_first hs]
  exact Dev.decArrive_counts hp hs hd

/-- The stream after bytes that fit have entered its buffer. -/
def Dec.filled (s : Dec) (raw : List Byte) (pics : Nat) : Dec :=
  { s with bsPtr := (s.bsPtr + (s.carried raw pics).1.length) % max 1 s.bsSize, fill := s.fill + (s.carried raw pics).1.length, bufPics := s.bufPics + (s.carried raw pics).2 }

/-- The stream after bytes that did not fit. -/
def Dec.emptied (s : Dec) (raw : List Byte) (pics : Nat) : Dec :=
  { ({ s with bsPtr := (s.bsPtr + (s.carried raw pics).1.length) % max 1 s.bsSize } : Dec).seek with
    fill := (s.carried raw pics).1.length, bufPics := (s.carried raw pics).2, discard := (s.discard + s.bufPics) % 2 ^ 32 }

theorem Dev.bufferBytes_fits {raw : List Byte} {pics : Nat} (h : (d.stream k).fill + ((d.stream k).carried raw pics).1.length ≤ (d.stream k).bsSize) :
    d.bufferBytes k raw pics = (d.putBitstream (d.stream k) ((d.stream k).carried raw pics).1).putStream k ((d.stream k).filled raw pics) := by
  have room : decide ((d.stream k).bsSize < (d.stream k).fill + ((d.stream k).carried raw pics).1.length) = false := decide_eq_false (Nat.not_lt.mpr h)
  unfold Dev.bufferBytes Dec.filled
  dsimp only
  rw [room]
  rfl

theorem Dev.bufferBytes_full {raw : List Byte} {pics : Nat} (h : (d.stream k).bsSize < (d.stream k).fill + ((d.stream k).carried raw pics).1.length) :
    d.bufferBytes k raw pics = ((d.putBitstream (d.stream k) ((d.stream k).carried raw pics).1).putStream k ((d.stream k).emptied raw pics)).raise 33 := by
  have full : decide ((d.stream k).bsSize < (d.stream k).fill + ((d.stream k).carried raw pics).1.length) = true := decide_eq_true h
  unfold Dev.bufferBytes Dec.emptied
  dsimp only
  rw [full]
  rfl

theorem Dev.raise_stream (d : Dev) (n k : Nat) : (d.raise n).stream k = d.stream k := by simp [Dev.stream]

theorem Dev.putBitstream_eq (d : Dev) (s : Dec) (bs : List Byte) : ∃ mem poison, d.putBitstream s bs = { d with mem := mem, poison := poison } := by
  have first : ∃ mem poison, (if bs.isEmpty then d else d.memWrite (s.bsAddr + s.bsPtr) (bs.take (s.bsSize - s.bsPtr))) = { d with mem := mem, poison := poison } := by
    split
    · exact ⟨d.mem, d.poison, rfl⟩
    · exact d.memWrite_eq _ _
  obtain ⟨m, p, h⟩ := first
  unfold Dev.putBitstream
  dsimp only
  rw [h]
  split
  · obtain ⟨m', p', h'⟩ := Dev.memWrite_eq { d with mem := m, poison := p } s.bsAddr (bs.drop (s.bsSize - s.bsPtr))
    exact ⟨m', p', h'⟩
  · exact ⟨m, p, rfl⟩

theorem Dev.capacity_memWrite (d : Dev) (a : Nat) (bs : List Byte) : (d.memWrite a bs).capacity = d.capacity := by
  obtain ⟨m, p, h⟩ := d.memWrite_eq a bs
  simp only [h, Dev.capacity, Dev.mcAt]

/-- What does not fit behind the pointer goes to the start of the buffer; nothing else is written. -/
theorem Dev.putBitstream_other {s : Dec} {bs : List Byte} {j : Nat} (hn : bs.length ≤ s.bsSize) (h : j < s.bsAddr ∨ s.bsAddr + s.bsSize ≤ j) :
    (d.putBitstream s bs).memByte j = d.memByte j := by
  have first : (if bs.isEmpty then d else d.memWrite (s.bsAddr + s.bsPtr) (bs.take (s.bsSize - s.bsPtr))).memByte j = d.memByte j := by
    split
    · rfl
    · exact Dev.memByte_memWrite_other d _ _ _ (by rw [List.length_take]; omega)
  unfold Dev.putBitstream
  dsimp only
  split
  · exact (Dev.memByte_memWrite_other _ _ _ _ (by rw [List.length_drop]; omega)).trans first
  · exact first

/-- The ring holds the bytes from the pointer on. -/
theorem Dev.putBitstream_byte {s : Dec} {bs : List Byte} {i : Nat} (hi : i < bs.length) (hn : bs.length ≤ s.bsSize) (hp : s.bsPtr < s.bsSize)
    (hc : s.bsAddr + s.bsSize ≤ d.capacity) : (d.putBitstream s bs).memByte (s.bsAddr + (s.bsPtr + i) % s.bsSize) = bs.getD i 0 := by
  have some : bs.isEmpty = false := by cases bs <;> simp_all
  have taken : (bs.take (s.bsSize - s.bsPtr)).length = min (s.bsSize - s.bsPtr) bs.length := List.length_take ..
  have first : s.bsAddr + s.bsPtr + (bs.take (s.bsSize - s.bsPtr)).length ≤ d.capacity := by omega
  unfold Dev.putBitstream
  dsimp only
  rw [some, if_neg Bool.false_ne_true]
  rcases Nat.lt_or_ge (s.bsPtr + i) s.bsSize with h | h
  · have here : (d.memWrite (s.bsAddr + s.bsPtr) (bs.take (s.bsSize - s.bsPtr))).memByte (s.bsAddr + (s.bsPtr + i) % s.bsSize) = bs.getD i 0 := by
      rw [Nat.mod_eq_of_lt h, ← Nat.add_assoc, Dev.memByte_memWrite_inside d _ _ i (by omega) first, List.getElem_take, List.getD_eq_getElem _ _ hi]
    split
    · refine (Dev.memByte_memWrite_other _ _ _ _ ?_).trans here
      rw [Nat.mod_eq_of_lt h, List.length_drop]
      omega
    · exact here
  · have wrapped : (s.bsPtr + i) % s.bsSize = i - (s.bsSize - s.bsPtr) := by
      rw [Nat.mod_eq_sub_mod h, Nat.mod_eq_of_lt (by omega)]
      omega
    have second : s.bsAddr + (bs.drop (s.bsSize - s.bsPtr)).length ≤ (d.memWrite (s.bsAddr + s.bsPtr) (bs.take (s.bsSize - s.bsPtr))).capacity := by
      rw [Dev.capacity_memWrite, List.length_drop]
      omega
    rw [if_pos (by omega), wrapped, Dev.memByte_memWrite_inside _ _ _ _ (by rw [List.length_drop]; omega) second, List.getElem_drop,
      List.getD_eq_getElem _ _ hi]
    congr 1
    omega

theorem Dev.bufferBytes_fecs (d : Dev) (k : Nat) (raw : List Byte) (pics : Nat) : ((d.bufferBytes k raw pics).stream k).fecs = (d.stream k).fecs := by
  rcases Nat.lt_or_ge (d.stream k).bsSize ((d.stream k).fill + ((d.stream k).carried raw pics).1.length) with h | h
  · rw [Dev.bufferBytes_full h, Dev.raise_stream, Dev.stream_putStream]
    rfl
  · rw [Dev.bufferBytes_fits h, Dev.stream_putStream]
    rfl

/-- Losses of continuity are raised. -/
def Dev.lossRaised (d : Dev) (n : Nat) : Dev := if 0 < n then d.raise 33 else d

theorem Dev.lossRaised_stream (d : Dev) (n k : Nat) : (d.lossRaised n).stream k = d.stream k := by
  unfold Dev.lossRaised
  split
  · exact Dev.raise_stream _ _ _
  · rfl

theorem Dev.memByte_lossRaised (d : Dev) (n j : Nat) : (d.lossRaised n).memByte j = d.memByte j := by
  unfold Dev.lossRaised
  split
  · exact Dev.memByte_raise _ _ _
  · rfl

/-- A source's bit stays set when the source is raised again. -/
theorem Dev.lossRaised_status {n : Nat} (h : d.flt.status.getLsbD 33 = true) : (d.lossRaised n).flt.status.getLsbD 33 = true := by
  unfold Dev.lossRaised
  split
  · by_cases hl : d.fresh (1#64 <<< 33) = []
    · rw [Dev.raise, Dev.latch, if_pos hl]
      exact h
    · rw [Dev.raise, (Dev.latch_flt d _).1 hl, BitVec.getLsbD_or, h, Bool.true_or]
  · exact h

theorem Dec.repairs_of_hears {s : Dec} {pathB : Bool} {p : DecPkt} {f : FecHdr} (hf : p.fec = some f) (h : s.hears pathB p = true) : s.repairs = true := by
  unfold Dec.hears at h
  rw [hf] at h
  simp only [Bool.and_eq_true] at h
  exact h.2.1.1

theorem Dec.carried_congr {s s' : Dec} (h : s'.cfg = s.cfg) (bs : List Byte) (pics : Nat) : s'.carried bs pics = s.carried bs pics := by
  have transport : s'.transport = s.transport := by simp only [Dec.transport, Dec.get, h]
  have pid : s'.pid = s.pid := by simp only [Dec.pid, Dec.get, h]
  unfold Dec.carried
  rw [transport, pid]

/-- The stream with a media packet among those that FEC covers. -/
def Dec.counted (s : Dec) (p : DecPkt) : Dec :=
  { s with lost := satAdd 16 s.lost p.contLost, media := if s.repairs then s.media.put [] p.seq p.bytes else s.media }

/-- A media packet of a stream that holds no FEC packet. -/
theorem Dev.bufferPkt_media {p : DecPkt} (hf : p.fec = none) (he : (d.stream k).fecs = []) :
    d.bufferPkt k p = ((d.putStream k ((d.stream k).counted p)).bufferBytes k p.bytes p.pics).lossRaised p.contLost := by
  have joined : (if (d.stream k).repairs then (d.modStream k fun s => { s with lost := satAdd 16 s.lost p.contLost }).modStream k fun s =>
      { s with media := s.media.put [] p.seq p.bytes } else d.modStream k fun s => { s with lost := satAdd 16 s.lost p.contLost }) =
      d.putStream k ((d.stream k).counted p) := by
    unfold Dec.counted
    split
    · rw [Dev.modStream_eq, Dev.modStream_eq, Dev.stream_putStream, Dev.putStream_putStream]
    · rfl
  have none_held : ((((d.putStream k ((d.stream k).counted p)).bufferBytes k p.bytes p.pics).lossRaised p.contLost).stream k).fecs = [] := by
    rw [Dev.lossRaised_stream, Dev.bufferBytes_fecs, Dev.stream_putStream]
    exact he
  unfold Dev.lossRaised at none_held ⊢
  unfold Dev.bufferPkt
  dsimp only
  rw [hf]
  dsimp only
  rw [joined, none_held]
  exact ite_self _

/-- A FEC packet, on a stream that holds no other, restores the one packet of its that is missing. -/
theorem Dev.bufferPkt_fec {p : DecPkt} {f : FecHdr} {m : Nat} (hf : p.fec = some f) (he : (d.stream k).fecs = []) (hr : (d.stream k).repairs = true)
    (hc : p.contLost = 0) (hm : f.covers.filter (fun r => ((d.stream k).media.get [] r).isEmpty) = [m]) : ∃ s : Dec,
    d.bufferPkt k p = (d.putStream k s).bufferBytes k ((f.covers.filter (· != m)).foldl (fun b r => xorBytes b ((d.stream k).media.get [] r)) p.bytes) 0 ∧
    s.recovered = satAdd 16 (d.stream k).recovered 1 ∧ s.fill = (d.stream k).fill ∧ s.cfg = (d.stream k).cfg ∧
    s.media = (d.stream k).media.put [] m ((f.covers.filter (· != m)).foldl (fun b r => xorBytes b ((d.stream k).media.get [] r)) p.bytes) := by
  let held : Dec := { d.stream k with lost := satAdd 16 (d.stream k).lost 0, fecs := [(f, p.bytes)] }
  have found : held.restorable = some (m, (f.covers.filter (· != m)).foldl (fun b r => xorBytes b ((d.stream k).media.get [] r)) p.bytes) := by
    unfold Dec.restorable
    rw [List.findSome?_cons]
    dsimp only
    rw [hm]
  have arrived : d.bufferPkt k p = Dev.repair k 1 (d.putStream k held) := by
    unfold Dev.bufferPkt
    dsimp only
    rw [hf, hc, if_neg (Nat.lt_irrefl 0), if_pos hr]
    dsimp only
    rw [Dev.modStream_eq, Dev.modStream_eq, Dev.stream_putStream, Dev.putStream_putStream, he, Dev.stream_putStream]
    rfl
  rw [arrived, Dev.repair, Dev.stream_putStream, found]
  dsimp only
  rw [Dev.modStream_eq, Dev.stream_putStream, Dev.putStream_putStream]
  exact ⟨_, rfl, rfl, rfl, rfl, rfl⟩

end Bitstream

/-! ## A decoded picture (R337 to R345) -/

/-- A device whose streams are another's, but for what the output of pictures changes in stream k: its decoded picture buffer and the concealed pictures counted. -/
def Dev.OutputOf (e d : Dev) (k : Nat) : Prop :=
  (∃ c l, e.stream k = { d.stream k with concealed := c, dpb := l }) ∧ ∀ j, j ≠ k → e.stream j = d.stream j

section Output
variable {d e f : Dev} {k : Nat}

theorem Dev.OutputOf.of_dec (h : e.dec = d.dec) : e.OutputOf d k := by
  have same (j : Nat) : e.stream j = d.stream j := by rw [Dev.stream, Dev.stream, h]
  exact ⟨⟨(d.stream k).concealed, (d.stream k).dpb, same k⟩, fun j _ => same j⟩

theorem Dev.OutputOf.trans (h : e.OutputOf d k) (h' : f.OutputOf e k) : f.OutputOf d k := by
  obtain ⟨⟨c, l, hk⟩, ho⟩ := h
  obtain ⟨⟨c', l', hk'⟩, ho'⟩ := h'
  exact ⟨⟨c', l', by rw [hk', hk]⟩, fun j hj => (ho' j hj).trans (ho j hj)⟩

theorem Dev.OutputOf.ite {b : Prop} [Decidable b] (h : e.OutputOf d k) (h' : f.OutputOf d k) : (if b then e else f).OutputOf d k := by
  split
  · exact h
  · exact h'

theorem Dev.OutputOf.counted (d : Dev) (k : Nat) : (d.modStream k fun s => { s with concealed := (s.concealed + 1) % 2 ^ 32 }).OutputOf d k :=
  ⟨⟨_, (d.stream k).dpb, Dev.stream_putStream _ _ _⟩, fun _ hj => Dev.stream_putStream_other _ _ hj⟩

theorem Dev.OutputOf.shown (d : Dev) (k : Nat) (f : DpbPic → DpbPic) : (d.modStream k fun s => { s with dpb := s.dpb.map f }).OutputOf d k :=
  ⟨⟨(d.stream k).concealed, _, Dev.stream_putStream _ _ _⟩, fun _ hj => Dev.stream_putStream_other _ _ hj⟩

theorem Dev.putStoreRow_dec (d : Dev) (base : Nat) (g : Geom) (plane y x : Nat) (vs : List Nat) : (d.putStoreRow base g plane y x vs).dec = d.dec := by
  unfold Dev.putStoreRow
  split
  · rfl
  · simp

theorem Dev.placeSeg_dec (d : Dev) (i s : Nat) (g : LineSeg) : (d.placeSeg i s g).dec = d.dec := by
  unfold Dev.placeSeg
  dsimp only
  split
  · simp only [Dev.modCapIn_eq, Dev.putCapIn_frame, Dev.putStoreRow_dec]
  · rfl

theorem Dev.placeSegs_dec (i s : Nat) (l : List LineSeg) : ∀ d : Dev, (l.foldl (fun e g => e.placeSeg i s g) d).dec = d.dec := by
  induction l with
  | nil => exact fun _ => rfl
  | cons g l ih => exact fun d => (ih _).trans (Dev.placeSeg_dec d i s g)

theorem Dev.decStore_output (d : Dev) (k : Nat) (q : DpbPic) (segs : List LineSeg) (counts : Bool) : (d.decStore k q segs counts).OutputOf d k := by
  unfold Dev.decStore
  dsimp only
  split
  · exact .of_dec rfl
  split
  · exact .of_dec rfl
  · rename_i n _
    have stored (b : Bool) (e : Dev) (h : e.dec = d.dec) : (if b then segs.foldl (fun e g => e.placeSeg (d.stream k).input n g) e else e).dec = d.dec := by
      split
      · exact (Dev.placeSegs_dec _ _ _ _).trans h
      · exact h
    refine .ite (.trans (.of_dec (stored q.fmtOk _ ?_)) (.counted _ k)) (.of_dec (stored q.fmtOk _ ?_))
    · rfl
    · rfl

theorem Dev.decRelease_output (d : Dev) (k : Nat) : (d.decRelease k).OutputOf d k := by
  unfold Dev.decRelease
  split
  · exact .of_dec rfl
  · exact (Dev.OutputOf.shown d k _).trans (Dev.decStore_output _ k _ _ _)

theorem Dev.decReleases_output (k : Nat) (l : List Nat) : ∀ d : Dev, (l.foldl (fun e _ => e.decRelease k) d).OutputOf d k := by
  induction l with
  | nil => exact fun d => .of_dec rfl
  | cons _ l ih => exact fun d => (Dev.decRelease_output d k).trans (ih _)

theorem Dev.decOutput_output (d : Dev) (k : Nat) (q : DpbPic) (segs : List LineSeg) (counts : Bool) (n : Nat) : (d.decOutput k q segs counts n).OutputOf d k := by
  unfold Dev.decOutput
  refine Dev.OutputOf.trans ?_ (Dev.decReleases_output k _ _)
  split
  · exact .of_dec rfl
  · exact Dev.decStore_output _ _ _ _ _

theorem Dev.putDecRef_dec (d : Dev) (k : Nat) (q : DpbPic) : (d.putDecRef k q).dec = d.dec := by
  unfold Dev.putDecRef
  dsimp only
  split
  · rfl
  · simp

end Output

section Picture
variable {d : Dev} {k : Nat} {s : Dec} {start : Bool} {p : DecPic}

/-- The picture used a substitute or has a concealed region. -/
def Dec.hitBy (s : Dec) (p : DecPic) : Bool := s.badOf p != [] || (s.missRefs p).length != 0

theorem Dec.hitBy_iff (s : Dec) (p : DecPic) : s.hitBy p = true ↔ s.badOf p ≠ [] ∨ s.missRefs p ≠ [] := by simp [Dec.hitBy]

/-- The stream when a picture has been decoded, before the output. -/
def Dev.decodedStream (d : Dev) (s : Dec) (start : Bool) (p : DecPic) (q : DpbPic) : Dec :=
  { (s.marks start (s.hitBy p) p).2 with
    st := .decoding, pics := (s.pics + 1) % 2 ^ 32, missing := satAdd 16 s.missing (s.missRefs p).length
    syntaxErr := satAdd 16 s.syntaxErr ((s.badOf p).length + b2n (s.stamps.contains (d.decStamp s p.ts)))
    stamps := s.stamps ++ [d.decStamp s p.ts], decoded := s.decoded ++ [(d.decTime s p.ts, q.segs)]
    dpb := (s.dpb.filter fun e => p.keep.contains e.id || e.waits) ++ [q] }

/-- The picture as it joins the decoded picture buffer. -/
def Dev.decodedPic (d : Dev) (s : Dec) (start : Bool) (p : DecPic) : DpbPic :=
  { id := p.id, t := d.decTime s p.ts, stamp := d.decStamp s p.ts, key := (s.pics + 1) % 2 ^ 32, fmtOk := (d.capIn s.input).decFits p
    own := (s.marks start (s.hitBy p) p).1, marked := (s.marks start (s.hitBy p) p).1 || (s.marks start (s.hitBy p) p).2.mark
    write := !s.stamps.contains (d.decStamp s p.ts), waits := !p.immediate
    segs := s.samples p (d.decTime s p.ts) s.decoded (s.badOf p), refs := p.refs.map (s.refEntry p (d.decTime s p.ts)) }

/-- The device when a picture has been decoded, before the output. -/
def Dev.decodedDev (d : Dev) (k : Nat) (s : Dec) (start : Bool) (p : DecPic) : Dev :=
  (if s.hitBy p then (d.putStream k (d.decodedStream s start p (d.decodedPic s start p))).raise 33
    else d.putStream k (d.decodedStream s start p (d.decodedPic s start p))).putDecRef k (d.decodedPic s start p)

theorem Dev.decDecode_eq : d.decDecode k s start p =
    (d.decodedDev k s start p).decOutput k (d.decodedPic s start p) (d.decodedPic s start p).segs (s.marks start (s.hitBy p) p).1 p.releases := rfl

theorem Dev.decodedDev_stream (j : Nat) :
    (d.decodedDev k s start p).stream j = (d.putStream k (d.decodedStream s start p (d.decodedPic s start p))).stream j := by
  unfold Dev.decodedDev
  rw [Dev.stream, Dev.putDecRef_dec]
  split
  · exact Dev.raise_stream _ _ _
  · rfl

theorem Dev.putDecRef_cap (d : Dev) (k : Nat) (q : DpbPic) : (d.putDecRef k q).cap = d.cap := by
  unfold Dev.putDecRef
  dsimp only
  split
  · rfl
  · simp

theorem Dev.decodedDev_cap : (d.decodedDev k s start p).cap = d.cap := by
  unfold Dev.decodedDev
  rw [Dev.putDecRef_cap]
  split
  · simp
  · rfl

/-- What the stream holds of a decoded picture, and no other stream is touched. -/
theorem Dev.decDecode_stream : (∃ c l, (d.decDecode k s start p).stream k = { d.decodedStream s start p (d.decodedPic s start p) with concealed := c, dpb := l }) ∧
    ∀ j, j ≠ k → (d.decDecode k s start p).stream j = d.stream j := by
  obtain ⟨⟨c, l, hk⟩, ho⟩ := Dev.decOutput_output (d.decodedDev k s start p) k (d.decodedPic s start p) (d.decodedPic s start p).segs (s.marks start (s.hitBy p) p).1 p.releases
  rw [Dev.decodedDev_stream, Dev.stream_putStream] at hk
  exact ⟨⟨c, l, hk⟩, fun j hj => (ho j hj).trans ((Dev.decodedDev_stream j).trans (Dev.stream_putStream_other _ _ hj))⟩

/-- What R344 makes of a picture touches the marks alone. -/
theorem Dec.marks_eq (s : Dec) (start hit : Bool) (p : DecPic) : ∃ m r l, (s.marks start hit p).2 = { s with mark := m, periods := r, raslMark := l } := by
  unfold Dec.marks
  split
  · exact ⟨_, _, _, rfl⟩
  · exact ⟨_, _, _, rfl⟩

theorem Dev.decodedStream_keeps (d : Dev) (s : Dec) (start : Bool) (p : DecPic) (q : DpbPic) : (d.decodedStream s start p q).cfg = s.cfg ∧
    (d.decodedStream s start p q).fill = s.fill ∧ (d.decodedStream s start p q).concealed = s.concealed := by
  obtain ⟨m, r, b, marks⟩ := Dec.marks_eq s start (s.hitBy p) p
  unfold Dev.decodedStream
  rw [marks]
  exact ⟨rfl, rfl, rfl⟩

theorem Dec.marks_xs {hit : Bool} (h : s.codec = 3) : s.marks start hit p = (hit, { s with mark := hit }) := if_pos h

theorem Dec.marks_hit (h : s.codec ≠ 3) (hr : p.rasl = false) : (s.marks start true p).2.mark = true := by
  unfold Dec.marks
  rw [if_neg h, hr]
  simp

end Picture

theorem Dec.not_seeking {s : Dec} (h : s.st = .decoding) : s.st ≠ .seeking := by
  rw [h]
  decide

/-! ## What becomes of a picture (R335, R340) -/

section Judged
variable {d : Dev} {k : Nat} {p : DecPic} (ha : (d.stream k).active = true) (hs : d.decServes (d.stream k).pipe = true) (hc : p.cont = false)
include ha hs hc

theorem Dev.decPicture_discarded (h : (d.stream k).st = .seeking) (ho : (d.stream k).opens p = false) : d.decPicture k p =
    d.putStream k { d.stream k with fill := (d.stream k).fill - p.nbytes, bufPics := (d.stream k).bufPics - 1, discard := ((d.stream k).discard + 1) % 2 ^ 32 } := by
  unfold Dev.decPicture
  dsimp only
  rw [if_neg (by simp [ha, hs]), if_neg (by simp [hc]), if_pos (by simp [h, ho])]

theorem Dev.decPicture_skipped (h : (d.stream k).st ≠ .seeking) (hd : (d.stream k).decodable p = false) : d.decPicture k p =
    d.putStream k { d.stream k with fill := (d.stream k).fill - p.nbytes, bufPics := (d.stream k).bufPics - 1 } := by
  unfold Dev.decPicture
  dsimp only
  rw [if_neg (by simp [ha, hs]), if_neg (by simp [hc]), if_neg (by simp [h]), if_pos (by simp [hd])]

theorem Dev.decPicture_decodes (h : (d.stream k).st ≠ .seeking ∨ (d.stream k).opens p = true) (hd : (d.stream k).decodable p = true) : d.decPicture k p =
    d.decDecode k { d.stream k with fill := (d.stream k).fill - p.nbytes, bufPics := (d.stream k).bufPics - 1 } ((d.stream k).st == .seeking) p := by
  unfold Dev.decPicture
  dsimp only
  rw [if_neg (by simp [ha, hs]), if_neg (by simp [hc]), if_neg (by rcases h with h | h <;> simp [h]), if_neg (by simp [hd])]

end Judged

/-! ## A picture's slot of the store (R335, R338, R345) -/

section Store
variable {d : Dev} {i n k : Nat}

theorem Slot.arrive_names (s : Slot) (width : Nat) (g : LineSeg) : (s.arrive width g).stamp = s.stamp ∧ (s.arrive width g).marked = s.marked := by
  unfold Slot.arrive
  dsimp only
  split
  · exact ⟨rfl, rfl⟩
  split <;> exact ⟨rfl, rfl⟩

theorem Dev.putStoreRow_cap (d : Dev) (base : Nat) (g : Geom) (plane y x : Nat) (vs : List Nat) : (d.putStoreRow base g plane y x vs).cap = d.cap := by
  unfold Dev.putStoreRow
  split
  · rfl
  · simp

/-- A run of samples keeps its slot's stamp and mark. -/
theorem Dev.placeSeg_names (d : Dev) (i n : Nat) (g : LineSeg) : (((d.placeSeg i n g).capIn i).slotAt n).stamp = ((d.capIn i).slotAt n).stamp ∧
    (((d.placeSeg i n g).capIn i).slotAt n).marked = ((d.capIn i).slotAt n).marked := by
  have rows (e : Dev) (h : e.cap = d.cap) : (((e.modCapIn i fun c => { c with slots := c.slots.put {} n ((c.slotAt n).arrive c.width g) }).capIn i).slotAt n).stamp =
      ((d.capIn i).slotAt n).stamp ∧ (((e.modCapIn i fun c => { c with slots := c.slots.put {} n ((c.slotAt n).arrive c.width g) }).capIn i).slotAt n).marked =
      ((d.capIn i).slotAt n).marked := by
    have same : e.capIn i = d.capIn i := by rw [Dev.capIn, Dev.capIn, h]
    have slot : Cap.slotAt { d.capIn i with slots := (d.capIn i).slots.put {} n (((d.capIn i).slotAt n).arrive (d.capIn i).width g) } n =
        ((d.capIn i).slotAt n).arrive (d.capIn i).width g := Tab.get_put_same _ _ _ _
    rw [Dev.modCapIn_eq, Dev.capIn_putCapIn, same, slot]
    exact Slot.arrive_names _ _ _
  unfold Dev.placeSeg
  dsimp only
  split
  · exact rows _ (by simp only [Dev.putStoreRow_cap])
  · exact ⟨rfl, rfl⟩

theorem Dev.placeSegs_names (i n : Nat) (l : List LineSeg) : ∀ d : Dev,
    (((l.foldl (fun e g => e.placeSeg i n g) d).capIn i).slotAt n).stamp = ((d.capIn i).slotAt n).stamp ∧
    (((l.foldl (fun e g => e.placeSeg i n g) d).capIn i).slotAt n).marked = ((d.capIn i).slotAt n).marked := by
  induction l with
  | nil => exact fun _ => ⟨rfl, rfl⟩
  | cons g l ih => exact fun d => ⟨(ih _).1.trans (d.placeSeg_names i n g).1, (ih _).2.trans (d.placeSeg_names i n g).2⟩

/-- A raster that no slot holds and that does not come too early takes a slot. -/
theorem Cap.slotFor_takes {c : Cap} {stamp key : Nat} (hb : key ∉ c.lastBad) (hh : c.holding stamp = none) (he : c.tooEarly stamp = false) (hv : c.victim = some n) :
    c.slotFor stamp key = (some n, { c with slots := c.slots.put {} n { stamp := some stamp, key := key }, good := if c.good == some n then none else c.good }) := by
  unfold Cap.slotFor Cap.take
  rw [if_neg (by simpa using hb), hh, he, hv]
  rfl

/-- A picture of the input's format whose raster takes slot n. -/
theorem Dev.decStore_takes {q : DpbPic} {segs : List LineSeg} {counts : Bool} (hw : q.write = true) (hf : q.fmtOk = true) (hrx : (d.capIn (d.stream k).input).rx = true)
    (hk : (d.capIn (d.stream k).input).kind = 2) (hb : q.key ∉ (d.capIn (d.stream k).input).lastBad) (hh : (d.capIn (d.stream k).input).holding q.stamp = none)
    (he : (d.capIn (d.stream k).input).tooEarly q.stamp = false) (hv : (d.capIn (d.stream k).input).victim = some n) :
    (((d.decStore k q segs counts).capIn (d.stream k).input).slotAt n).stamp = some q.stamp ∧
    (((d.decStore k q segs counts).capIn (d.stream k).input).slotAt n).marked = q.marked ∧
    ((d.decStore k q segs counts).stream k).concealed = if counts then ((d.stream k).concealed + 1) % 2 ^ 32 else (d.stream k).concealed := by
  unfold Dev.decStore
  dsimp only
  rw [if_neg (by simp [hw, hrx, hk]), Cap.slotFor_takes hb hh he hv]
  dsimp only
  rw [hf, if_pos rfl, Bool.and_true]
  generalize hd : Dev.putCapIn (Dev.putCapIn d _ _) _ _ = d2
  have names := Dev.placeSegs_names (d.stream k).input n segs d2
  have taken : ((d2.capIn (d.stream k).input).slotAt n).stamp = some q.stamp ∧ ((d2.capIn (d.stream k).input).slotAt n).marked = q.marked := by
    subst hd
    rw [Dev.capIn_putCapIn]
    simp [Cap.slotAt, Tab.get_put_same]
  have dec : (segs.foldl (fun e g => e.placeSeg (d.stream k).input n g) d2).stream k = d.stream k := by
    rw [Dev.stream, Dev.placeSegs_dec, ← hd]
    rfl
  have stored : (((segs.foldl (fun e g => e.placeSeg (d.stream k).input n g) d2).capIn (d.stream k).input).slotAt n).stamp = some q.stamp ∧
      (((segs.foldl (fun e g => e.placeSeg (d.stream k).input n g) d2).capIn (d.stream k).input).slotAt n).marked = q.marked :=
    ⟨names.1.trans taken.1, names.2.trans taken.2⟩
  cases counts with
  | false => exact ⟨stored.1, stored.2, congrArg Dec.concealed dec⟩
  | true => exact ⟨stored.1, stored.2, (congrArg Dec.concealed (Dev.stream_putStream _ _ _)).trans (by rw [dec]; rfl)⟩

end Store

/-! ## A decode pipe's memory (R351) -/

section Memory
variable {d : Dev} {p : Nat}

theorem Dev.dpEcc_uncorrected (h : (((d.modDecPipeAt p fun q => { q with uncorrected := true }).raise 34).contains 34) = true) :
    d.dpEcc p false = ((d.modDecPipeAt p fun q => { q with uncorrected := true }).raise 34).modDecPipeAt p fun q => { q with out := true } := by
  unfold Dev.dpEcc
  dsimp only
  rw [if_neg Bool.false_ne_true, if_pos h]

theorem Dev.raise_contains {d : Dev} {i : Nat} (hi : i < 64) (h : d.flt.latched.get 0 i = 0) (hc : d.flt.classOf i = 2) : (d.raise i).contains i = true := by
  rw [Dev.contains, Dev.raise_latched hi h, hc]
  rfl

theorem Dev.raise_decPipeAt (d : Dev) (n k : Nat) : (d.raise n).decPipeAt k = d.decPipeAt k := by simp [Dev.decPipeAt]

theorem Dev.dpTest_passed (ho : (d.decPipeAt p).out = true) (hs : d.flt.status.getLsbD 34 = false) :
    d.dpTest p true = (d.modDecPipeAt p fun q => { q with out := false }).decSeekAll p := by
  unfold Dev.dpTest
  rw [ho, hs]
  rfl

/-- The only stream of a device seeks when its pipe is back. -/
theorem Dev.decSeekAll_one {k : Nat} {y : Dec} (hd : d.dec = [(k, y)]) (ha : y.active = true) (hp : y.pipe = p) :
    (d.modDecPipeAt p fun q => { q with out := false }).decSeekAll p = (d.putDecPipeAt p { d.decPipeAt p with out := false }).putStream k y.seek := by
  have seeks : d.dec.mapAll ({} : Dec) (fun _ s => if s.active && s.pipe == p then s.seek else s) = d.dec.put {} k (if y.active && y.pipe == p then y.seek else y) := by
    rw [hd]
    rfl
  rw [if_pos (by simp [ha, hp])] at seeks
  exact congrArg (fun t => { d.putDecPipeAt p { d.decPipeAt p with out := false } with dec := t }) seeks

theorem Dev.dpTest_failed (ho : (d.decPipeAt p).out = true) (hs : d.flt.status.getLsbD 34 = false) :
    d.dpTest p false = (d.modDecPipeAt p fun q => { q with uncorrected := true }).raise 34 := by
  unfold Dev.dpTest
  rw [ho, hs]
  rfl

end Memory

/-! ## What a packet leaves -/

/-- The input with its path A heard. -/
def Dev.inputHeard (d : Dev) (i : Nat) : Dev := d.putCapIn i { d.capIn i with upA := true, lastA := d.ctl.ticks }

/-- The device after bytes have entered the buffer of stream k, which reads z before them and z' after. -/
def Dev.buffered (d : Dev) (k : Nat) (z z' : Dec) (bs : List Byte) : Dev :=
  (((d.inputHeard (d.stream k).input).putStream k z).putBitstream z bs).putStream k z'

section Buffered
variable {d : Dev} {k : Nat} {z z' : Dec} {bs : List Byte}

theorem Dev.buffered_eq (d : Dev) (k : Nat) (z z' : Dec) (bs : List Byte) : ∃ mem poison, d.buffered k z z' bs =
    { ((d.inputHeard (d.stream k).input).putStream k z).putStream k z' with mem := mem, poison := poison } := by
  obtain ⟨mem, poison, h⟩ := Dev.putBitstream_eq ((d.inputHeard (d.stream k).input).putStream k z) z bs
  unfold Dev.buffered
  rw [h]
  exact ⟨mem, poison, rfl⟩

theorem Dev.buffered_stream : (d.buffered k z z' bs).stream k = z' := Dev.stream_putStream _ _ _

theorem Dev.buffered_stream_other {j : Nat} (h : j ≠ k) : (d.buffered k z z' bs).stream j = d.stream j := by
  obtain ⟨mem, poison, e⟩ := d.buffered_eq k z z' bs
  rw [e]
  exact (Dev.stream_putStream_other _ _ h).trans (Dev.stream_putStream_other _ _ h)

theorem Dev.buffered_capIn : (d.buffered k z z' bs).capIn (d.stream k).input = { d.capIn (d.stream k).input with upA := true, lastA := d.ctl.ticks } := by
  obtain ⟨mem, poison, e⟩ := d.buffered_eq k z z' bs
  rw [e]
  exact Dev.capIn_putCapIn d _ _

theorem Dev.buffered_frame : d.buffered k z z' bs =
    { d with dec := (d.buffered k z z' bs).dec, cap := (d.buffered k z z' bs).cap, mem := (d.buffered k z z' bs).mem, poison := (d.buffered k z z' bs).poison } := by
  obtain ⟨mem, poison, e⟩ := d.buffered_eq k z z' bs
  rw [e]
  rfl

theorem Dev.buffered_byte {i : Nat} (hi : i < bs.length) (hn : bs.length ≤ z.bsSize) (hp : z.bsPtr < z.bsSize) (hc : z.bsAddr + z.bsSize ≤ d.capacity) :
    (d.buffered k z z' bs).memByte (z.bsAddr + (z.bsPtr + i) % z.bsSize) = bs.getD i 0 := by
  have capacity : ((d.inputHeard (d.stream k).input).putStream k z).capacity = d.capacity := by
    simp only [Dev.capacity, Dev.mcAt, Dev.putStream, Dev.inputHeard, Dev.putCapIn]
  exact Dev.putBitstream_byte hi hn hp (by rwa [capacity])

theorem Dev.buffered_other {j : Nat} (hn : bs.length ≤ z.bsSize) (h : j < z.bsAddr ∨ z.bsAddr + z.bsSize ≤ j) : (d.buffered k z z' bs).memByte j = d.memByte j :=
  Dev.putBitstream_other (d := (d.inputHeard (d.stream k).input).putStream k z) hn h

end Buffered

section Received
variable {d : Dev} {k : Nat} {pkt : DecPkt} (hp : d.paired = false) (ha : (d.stream k).active = true) (hh : (d.stream k).hears false pkt = true)
  (hd : (d.stream k).declared = []) (he : (d.stream k).fecs = [])
include hp ha hh hd he

section Media
variable (hf : pkt.fec = none) (hs : (d.stream k).seenAt.get 0 pkt.seq = 0)
include hf hs

theorem Dev.decPacket_media : d.decPacket k false pkt = (((d.inputHeard (d.stream k).input).putStream k
    (((d.stream k).saw pkt.seq d.ctl.ticks).counted pkt)).bufferBytes k pkt.bytes pkt.pics).lossRaised pkt.contLost := by
  have key : pkt.key = pkt.seq := by rw [DecPkt.key, hf]; rfl
  have counts := Dev.decPacket_counts ha hh hp (by rw [key]; exact hs) hd
  rw [key] at counts
  have media := Dev.bufferPkt_media (d := (d.inputHeard (d.stream k).input).putStream k ((d.stream k).saw pkt.seq d.ctl.ticks)) (k := k) hf
    (by rw [Dev.stream_putStream]; exact he)
  rw [Dev.stream_putStream, Dev.putStream_putStream] at media
  exact counts.trans media

/-- The device after a packet that fits, before the losses are raised. -/
theorem Dev.decPacket_fits (hl : pkt.contLost = 0) (h : (d.stream k).fill + ((d.stream k).carried pkt.bytes pkt.pics).1.length ≤ (d.stream k).bsSize) :
    d.decPacket k false pkt = d.buffered k (((d.stream k).saw pkt.seq d.ctl.ticks).counted pkt)
      ((((d.stream k).saw pkt.seq d.ctl.ticks).counted pkt).filled pkt.bytes pkt.pics) ((d.stream k).carried pkt.bytes pkt.pics).1 := by
  have stream : ((d.inputHeard (d.stream k).input).putStream k (((d.stream k).saw pkt.seq d.ctl.ticks).counted pkt)).stream k =
    ((d.stream k).saw pkt.seq d.ctl.ticks).counted pkt := Dev.stream_putStream _ _ _
  rw [Dev.decPacket_media hp ha hh hd he hf hs, Dev.bufferBytes_fits (by rw [stream]; exact h), stream, hl, Dev.lossRaised, if_neg (Nat.lt_irrefl 0)]
  rfl

theorem Dev.decPacket_full (h : (d.stream k).bsSize < (d.stream k).fill + ((d.stream k).carried pkt.bytes pkt.pics).1.length) :
    d.decPacket k false pkt = ((d.buffered k (((d.stream k).saw pkt.seq d.ctl.ticks).counted pkt)
      ((((d.stream k).saw pkt.seq d.ctl.ticks).counted pkt).emptied pkt.bytes pkt.pics) ((d.stream k).carried pkt.bytes pkt.pics).1).raise 33).lossRaised pkt.contLost := by
  have stream : ((d.inputHeard (d.stream k).input).putStream k (((d.stream k).saw pkt.seq d.ctl.ticks).counted pkt)).stream k =
    ((d.stream k).saw pkt.seq d.ctl.ticks).counted pkt := Dev.stream_putStream _ _ _
  rw [Dev.decPacket_media hp ha hh hd he hf hs, Dev.bufferBytes_full (by rw [stream]; exact h), stream]
  rfl

end Media

/-- A FEC packet restores the packet m that is missing. -/
theorem Dev.decPacket_fec {f : FecHdr} {m : Nat} {bytes : List Byte} (hf : pkt.fec = some f) (hs : (d.stream k).seenAt.get 0 pkt.key = 0) (hl : pkt.contLost = 0)
    (hm : f.covers.filter (fun r => ((d.stream k).media.get [] r).isEmpty) = [m])
    (hb : (f.covers.filter (· != m)).foldl (fun b r => xorBytes b ((d.stream k).media.get [] r)) pkt.bytes = bytes)
    (h : (d.stream k).fill + ((d.stream k).carried bytes 0).1.length ≤ (d.stream k).bsSize) :
    ∃ z : Dec, d.decPacket k false pkt = d.buffered k z (z.filled bytes 0) ((d.stream k).carried bytes 0).1 ∧
    z.recovered = satAdd 16 (d.stream k).recovered 1 ∧ z.fill = (d.stream k).fill ∧ z.cfg = (d.stream k).cfg ∧ z.media = (d.stream k).media.put [] m bytes := by
  subst hb
  have stream : ((d.inputHeard (d.stream k).input).putStream k ((d.stream k).saw pkt.key d.ctl.ticks)).stream k = (d.stream k).saw pkt.key d.ctl.ticks :=
    Dev.stream_putStream _ _ _
  obtain ⟨z, buffered, hrec, hfill, hcfg, hmedia⟩ := Dev.bufferPkt_fec (d := (d.inputHeard (d.stream k).input).putStream k ((d.stream k).saw pkt.key d.ctl.ticks)) (k := k)
    hf (by rw [stream]; exact he) (by rw [stream]; exact Dec.repairs_of_hears hf hh) hl (by rw [stream]; exact hm)
  rw [stream] at hrec hfill hcfg hmedia
  rw [stream, Dev.putStream_putStream] at buffered
  have carried (b : List Byte) : z.carried b 0 = (d.stream k).carried b 0 := Dec.carried_congr hcfg _ _
  have size : z.bsSize = (d.stream k).bsSize := by simp only [Dec.bsSize, Dec.get, hcfg]; rfl
  refine ⟨z, ?_, hrec, hfill, hcfg, hmedia⟩
  refine (Dev.decPacket_counts ha hh hp hs hd).trans (buffered.trans ?_)
  have restored : ((d.inputHeard (d.stream k).input).putStream k z).stream k = z := Dev.stream_putStream _ _ _
  refine (Dev.bufferBytes_fits (by rw [restored, carried, hfill, size]; exact h)).trans ?_
  rw [restored, carried]
  rfl

end Received

/-- The stream after a media packet that fits. -/
theorem Dec.filled_counted {y : Dec} {pkt : DecPkt} (now : Nat) (hl : pkt.contLost = 0) (hp : y.bsPtr < y.bsSize) : ((y.saw pkt.seq now).counted pkt).filled pkt.bytes pkt.pics =
    { y with seenAt := y.seenAt.put 0 pkt.seq (now + 1), lost := min 65535 y.lost
             media := if y.repairs then y.media.put [] pkt.seq pkt.bytes else y.media
             fill := y.fill + (y.carried pkt.bytes pkt.pics).1.length, bufPics := y.bufPics + (y.carried pkt.bytes pkt.pics).2
             bsPtr := (y.bsPtr + (y.carried pkt.bytes pkt.pics).1.length) % y.bsSize } := by
  have size : max 1 y.bsSize = y.bsSize := by omega
  have lost : satAdd 16 y.lost pkt.contLost = min 65535 y.lost := by rw [hl]; rfl
  rw [← lost]
  conv_rhs => rw [← size]
  rfl

/-- The slot of a JPEG XS picture that is output at once. -/
theorem Dev.decPicture_slot {d : Dev} {k n : Nat} {pic : DecPic} (ha : (d.stream k).active = true) (hserv : d.decServes (d.stream k).pipe = true) (hcont : pic.cont = false)
    (hst : (d.stream k).st = .decoding) (h3 : (d.stream k).codec = 3) (hd : (d.stream k).decodable pic = true) (him : pic.immediate = true) (hrel : pic.releases = 0)
    (hnew : d.decStamp (d.stream k) pic.ts ∉ (d.stream k).stamps) (hrx : (d.capIn (d.stream k).input).rx = true) (hk : (d.capIn (d.stream k).input).kind = 2)
    (hb : ((d.stream k).pics + 1) % 2 ^ 32 ∉ (d.capIn (d.stream k).input).lastBad)
    (hh : (d.capIn (d.stream k).input).holding (d.decStamp (d.stream k) pic.ts) = none)
    (he : (d.capIn (d.stream k).input).tooEarly (d.decStamp (d.stream k) pic.ts) = false) (hv : (d.capIn (d.stream k).input).victim = some n)
    (hfit : (d.capIn (d.stream k).input).decFits pic = true) :
    (((d.decPicture k pic).capIn (d.stream k).input).slotAt n).stamp = some (d.decStamp (d.stream k) pic.ts) ∧
    (((d.decPicture k pic).capIn (d.stream k).input).slotAt n).marked = (d.stream k).hitBy pic ∧
    ((d.decPicture k pic).stream k).concealed = if (d.stream k).hitBy pic then ((d.stream k).concealed + 1) % 2 ^ 32 else (d.stream k).concealed := by
  let y := d.stream k
  let z : Dec := { y with fill := y.fill - pic.nbytes, bufPics := y.bufPics - 1 }
  let w := d.decodedDev k z (y.st == .seeking) pic
  let pic1 := d.decodedPic z (y.st == .seeking) pic
  have xs := Dec.marks_xs (s := z) (start := y.st == .seeking) (p := pic) (hit := z.hitBy pic) h3
  have shown : d.decDecode k z (y.st == .seeking) pic = w.decStore k pic1 pic1.segs (z.hitBy pic) := by
    rw [Dev.decDecode_eq, Dev.decOutput, hrel, if_neg (by simp [Dev.decodedPic, him]), xs, List.range_zero, List.foldl_nil]
  have stream : w.stream k = d.decodedStream z (y.st == .seeking) pic pic1 := (Dev.decodedDev_stream k).trans (Dev.stream_putStream _ _ _)
  obtain ⟨same_cfg, -, same_count⟩ := Dev.decodedStream_keeps d z (y.st == .seeking) pic pic1
  have input : (w.stream k).input = y.input := by
    rw [stream, Dec.input, Dec.get, same_cfg]
    rfl
  have cap : w.capIn y.input = d.capIn y.input := by rw [Dev.capIn, Dev.decodedDev_cap]; rfl
  have marked : pic1.marked = z.hitBy pic := by
    have both : pic1.marked = (z.hitBy pic || z.hitBy pic) := congrArg (fun m : Bool × Dec => m.1 || m.2.mark) xs
    rw [both, Bool.or_self]
  have before : (w.stream k).concealed = y.concealed := by
    rw [stream]
    exact same_count
  have fresh : z.stamps.contains (d.decStamp z pic.ts) = false := by
    rw [List.contains_eq_mem]
    exact decide_eq_false hnew
  have written : pic1.write = true := congrArg (!·) fresh
  have takes := Dev.decStore_takes (d := w) (k := k) (n := n) (q := pic1) (segs := pic1.segs) (counts := z.hitBy pic)
    written hfit (by rw [input, cap]; exact hrx) (by rw [input, cap]; exact hk) (by rw [input, cap]; exact hb)
    (by rw [input, cap]; exact hh) (by rw [input, cap]; exact he) (by rw [input, cap]; exact hv)
  rw [input, marked, before] at takes
  rw [Dev.decPicture_decodes ha hserv hcont (.inl (Dec.not_seeking hst)) hd]
  exact (congrArg (fun e : Dev => ((e.capIn y.input).slotAt n).stamp = some pic1.stamp ∧ ((e.capIn y.input).slotAt n).marked = z.hitBy pic ∧
    (e.stream k).concealed = if z.hitBy pic then (y.concealed + 1) % 2 ^ 32 else y.concealed) shown).mpr takes

/-- What a packet carries is laid in the stream's own buffer. -/
theorem Dec.counted_buffer (y : Dec) (pkt : DecPkt) (now : Nat) : ((y.saw pkt.seq now).counted pkt).bsSize = y.bsSize ∧
    ((y.saw pkt.seq now).counted pkt).bsAddr = y.bsAddr ∧ ((y.saw pkt.seq now).counted pkt).bsPtr = y.bsPtr := ⟨rfl, rfl, rfl⟩

/-- Settles O43: a packet that counts enters the buffer, which fits or not; FEC restores; a picture is judged, decoded and shown; a pipe's memory. -/
theorem decoderReception : Obligations.DecoderReception := by
  intro s k p pkt pic hpair habs d y q got n hit
  have rx {g : Dev} (h : d.decPacket k false pkt = g) : exec (.decPacketRx k false pkt) s = .next { s with dev := g } :=
    congrArg (ok s) ((Dev.unlessDropped_none habs _ _).trans h)
  have judged {g : Dev} (h : d.decPicture k pic = g) : exec (.decPictureDecoded k pic) s = .next { s with dev := g } := congrArg (ok s) h
  refine ⟨fun h => rx (Dev.decPacket_ignored h), ?_, ?_, ?_, ?_, ?_, ?_⟩
  · intro ha hh hf hs hd he hn
    obtain ⟨size, addr, ptr⟩ := Dec.counted_buffer y pkt d.ctl.ticks
    refine ⟨fun hfit hl hp hc => ?_, fun hfull hlat => ?_⟩
    · have arrived := Dev.decPacket_fits hpair ha hh hd he hf hs hl hfit
      rw [Dec.filled_counted _ hl hp] at arrived
      refine completes_ok (rx arrived) ⟨Dev.buffered_stream, fun i hi => ?_, fun j hj => ?_, Dev.buffered_capIn, fun j hj => Dev.buffered_stream_other hj, Dev.buffered_frame⟩
      · rw [← size, ← addr, ← ptr]
        exact Dev.buffered_byte hi (by rwa [size]) (by rwa [size, ptr]) (by rwa [size, addr])
      · exact Dev.buffered_other (by rwa [size]) (by rwa [size, addr])
    · have arrived := Dev.decPacket_full hpair ha hh hd he hf hs hfull
      refine completes_ok (rx arrived) ?_
      rw [Dev.lossRaised_stream, Dev.raise_stream, Dev.buffered_stream]
      refine ⟨rfl, rfl, rfl, rfl, rfl, ?_, fun j hj => ?_, fun j hj => ?_⟩
      · exact Dev.lossRaised_status (Dev.raise_status (by decide) (by rw [Dev.buffered_frame]; exact hlat))
      · rw [Dev.lossRaised_stream, Dev.raise_stream, Dev.buffered_stream_other hj]
      · rw [Dev.memByte_lossRaised, Dev.memByte_raise]
        exact Dev.buffered_other (by rwa [size]) (by rwa [size, addr])
  · intro f m ha hh hf hs hd he hl hm hmk bytes hfit
    obtain ⟨z, arrived, hrec, hfill, hcfg, hmedia⟩ := Dev.decPacket_fec hpair ha hh hd he hf hs hl hm rfl hfit
    refine completes_ok (rx arrived) ⟨?_, ?_, ?_, fun j hj => Dev.buffered_stream_other hj⟩
    · rw [Dev.buffered_stream]
      exact hrec
    · rw [Dev.buffered_stream]
      exact hmedia
    · rw [Dev.buffered_stream]
      exact congrArg₂ (· + ·) hfill (congrArg (fun c : List Byte × Nat => c.1.length) (Dec.carried_congr hcfg bytes 0))
  · intro ha hserv hcont
    let z : Dec := { y with fill := y.fill - pic.nbytes, bufPics := y.bufPics - 1 }
    refine ⟨fun hst hx hi hr => judged (Dev.decPicture_discarded ha hserv hcont hst (by simp [Dec.opens, y, hx, hi, hr])),
      fun hst hd => judged (Dev.decPicture_skipped ha hserv hcont (Dec.not_seeking hst) hd), fun hst hd => ?_, ?_⟩
    · have opens : y.st ≠ .seeking ∨ y.opens pic = true := by
        rcases hst with h | ⟨h, h'⟩
        · exact .inl (Dec.not_seeking h)
        · exact .inr (by simp [Dec.opens, h, h'])
      obtain ⟨⟨c, l, hk⟩, ho⟩ := Dev.decDecode_stream (d := d) (k := k) (s := z) (start := y.st == .seeking) (p := pic)
      refine completes_ok (judged (Dev.decPicture_decodes ha hserv hcont opens hd)) ?_
      rw [hk]
      refine ⟨rfl, rfl, (Dev.decodedStream_keeps d z _ pic (d.decodedPic z (y.st == .seeking) pic)).2.1, rfl, fun h3 => ?_, fun h3 hr hh => ?_, ho⟩
      · exact (congrArg (fun m : Bool × Dec => m.2.mark) (Dec.marks_xs (s := z) h3)).trans (Bool.eq_iff_iff.mpr ((Dec.hitBy_iff z pic).trans decide_eq_true_iff.symm))
      · exact (congrArg (fun b => (z.marks (y.st == .seeking) b pic).2.mark) ((Dec.hitBy_iff z pic).mpr hh)).trans (Dec.marks_hit h3 hr)
    · intro n hst h3 hd him hrel hnew hrx hk hb hh he hv hfit
      obtain ⟨hstamp, hmark, hcount⟩ := Dev.decPicture_slot ha hserv hcont hst h3 hd him hrel hnew hrx hk hb hh he hv hfit
      have judges : y.hitBy pic = decide hit := Bool.eq_iff_iff.mpr ((Dec.hitBy_iff y pic).trans decide_eq_true_iff.symm)
      refine completes_ok (judged rfl) ⟨hstamp, hmark.trans judges, hcount.trans ?_⟩
      rw [judges]
      simp only [decide_eq_true_eq]
      rfl
  · exact congrArg (ok s) rfl
  · intro hl hc
    have taken := Dev.dpEcc_uncorrected (d := d) (p := p) (Dev.raise_contains (by decide) hl hc)
    refine completes_ok (congrArg (ok s) taken) ⟨?_, ?_, fun j => ?_, fun j => ?_⟩
    · rw [Dev.modDecPipeAt_eq, Dev.decPipeAt_putDecPipeAt, Dev.raise_decPipeAt, Dev.modDecPipeAt_eq, Dev.decPipeAt_putDecPipeAt]
    · exact Dev.raise_status (by decide) hl
    · exact Dev.raise_stream _ _ _
    · exact Dev.memByte_raise _ _ _
  · intro ho hst
    refine ⟨fun hdec ha hpipe => ?_, fun hl => ?_⟩
    · refine completes_ok (congrArg (ok s) ((Dev.dpTest_passed ho hst).trans (Dev.decSeekAll_one hdec ha hpipe))) ⟨?_, ?_, ?_, rfl⟩
      · exact congrArg DecPipe.out (Dev.decPipeAt_putDecPipeAt d p { q with out := false })
      · rw [Dev.stream_putStream]
        rfl
      · rw [Dev.stream_putStream]
        rfl
    · refine completes_ok (congrArg (ok s) (Dev.dpTest_failed ho hst)) ⟨?_, Dev.raise_status (by decide) hl⟩
      rw [Dev.raise_decPipeAt, Dev.modDecPipeAt_eq, Dev.decPipeAt_putDecPipeAt]

end Sys2Proof.Machine

/-! # The twin pair: what the halves tell one another about channels (R366 to R390) -/

namespace Sys2Proof.Machine

/-! ## The state of a twinned channel -/

section TwinState
variable {d : Dev} {n : Nat}

theorem Dev.fromPartner_hears {f : Dev → Dev} (hc : d.twin.cfg ≠ []) (hi : d.ctl.islBusy ≠ some 30) : d.fromPartner f = f d.heard := by
  unfold Dev.fromPartner
  rw [if_neg (by simp [hc, hi])]

@[simp] theorem Dev.twinCh_putTwinCh (d : Dev) (n : Nat) (t : TwinCh) : (d.putTwinCh n t).twinCh n = t := Tab.get_put_same _ _ _ _

theorem Dev.twinCh_putTwinCh_other (d : Dev) (t : TwinCh) {k n : Nat} (h : k ≠ n) : (d.putTwinCh n t).twinCh k = d.twinCh k := Tab.get_put_other _ _ _ h

theorem Dev.putTwinCh_putTwinCh (d : Dev) (n : Nat) (t u : TwinCh) : (d.putTwinCh n t).putTwinCh n u = d.putTwinCh n u := by
  simp [Dev.putTwinCh]

theorem Dev.modTwinCh_eq (d : Dev) (n : Nat) (f : TwinCh → TwinCh) : d.modTwinCh n f = d.putTwinCh n (f (d.twinCh n)) := rfl

/-- What another operation than the twin unit's leaves alone. -/
theorem Dev.twinCh_of_twin {d e : Dev} (h : e.twin = d.twin) (k : Nat) : e.twinCh k = d.twinCh k := by rw [Dev.twinCh, Dev.twinCh, h]

theorem Dev.holdInternal_chs (d : Dev) (op n : Nat) : (d.holdInternal op n).twin.chs = d.twin.chs := by
  unfold Dev.holdInternal
  dsimp only
  split
  · rfl
  split
  · simp
  · simp

theorem Dev.holdInternal_twinCh (d : Dev) (op n k : Nat) : (d.holdInternal op n).twinCh k = d.twinCh k := by rw [Dev.twinCh, Dev.twinCh, Dev.holdInternal_chs]

/-- A copy is wanted of the channel, and of no other. -/
theorem Dev.wantCopy_twinCh (d : Dev) (n : Nat) : (d.wantCopy n).twinCh n = { d.twinCh n with copy := true } := by
  unfold Dev.wantCopy
  dsimp only
  split
  · rw [Dev.holdInternal_twinCh, Dev.modTwinCh_eq, Dev.twinCh_putTwinCh]
  · rw [Dev.modTwinCh_eq, Dev.twinCh_putTwinCh]

theorem Dev.wantCopy_twinCh_other (d : Dev) {n k : Nat} (h : k ≠ n) : (d.wantCopy n).twinCh k = d.twinCh k := by
  unfold Dev.wantCopy
  dsimp only
  split
  · rw [Dev.holdInternal_twinCh, Dev.modTwinCh_eq, Dev.twinCh_putTwinCh_other _ _ h]
  · rw [Dev.modTwinCh_eq, Dev.twinCh_putTwinCh_other _ _ h]

theorem Dev.muted_twinCh (d : Dev) (n k : Nat) : ((d.raise 36).muteFrom n).twinCh k = d.twinCh k := Dev.twinCh_of_twin (by simp [Dev.muteFrom]) k

/-- The state that a first mismatch at media time mt leaves its channel in. -/
def TwinCh.mismatched (t : TwinCh) (mt : Nat) : TwinCh :=
  { t with bad := mt, episodes := satAdd 16 t.episodes 1, phase := if t.follower then 2 else t.phase }

theorem TwinCh.mismatched_episodes (t : TwinCh) (mt : Nat) : (t.mismatched mt).episodes = min 65535 (t.episodes + 1) := rfl

/-- A first mismatch counts as an episode of its channel alone, and a copy is wanted (R381, R382). -/
theorem Dev.diverge_twinCh (d : Dev) (n mt : Nat) : (d.diverge n mt).twinCh n = { (d.twinCh n).mismatched mt with copy := true } := by
  unfold Dev.diverge
  dsimp only
  rw [Dev.wantCopy_twinCh]
  split
  · next hf => simp only [Dev.muted_twinCh, Dev.twinCh_putTwinCh, TwinCh.mismatched, hf, if_true]
  · next hf => simp only [Dev.twinCh_putTwinCh, TwinCh.mismatched, hf, if_false, Bool.false_eq_true]

theorem Dev.diverge_twinCh_other (d : Dev) (mt : Nat) {n k : Nat} (h : k ≠ n) : (d.diverge n mt).twinCh k = d.twinCh k := by
  unfold Dev.diverge
  dsimp only
  rw [Dev.wantCopy_twinCh_other _ h]
  split
  · rw [Dev.muted_twinCh, Dev.twinCh_putTwinCh_other _ _ h]
  · rw [Dev.twinCh_putTwinCh_other _ _ h]

end TwinState

/-! ## Matching (R366, R390) -/

section Matching
variable {d : Dev} {p : Pend} {unit op obj user mt own : Nat} {ctx : BitVec 64}

/-- A proposal of something else than an encoder START, which one waiting descriptor meets. -/
theorem Dev.proposalRx_met (hp : d.paired = true) (hs : ¬ (unit = 4 ∧ op = 2)) (hd : d.pend = [p]) (hu : p.unit = unit) (ho : p.op = op) (hj : p.obj = obj)
    (hx : p.d.user = user) (hw : p.twin = .waiting own) : d.proposalRx unit op obj user mt ctx =
    { d with pend := [{ p with twin := .agreed (max own mt), late := d.pointPassed unit op obj (max own mt) }] } := by
  have no_start : (decide (unit = 4) && decide (op = 2)) = false := by simpa using hs
  unfold Dev.proposalRx
  simp only [hp, no_start, Bool.not_true, Bool.false_eq_true, if_false, hd]
  subst hu ho hj hx
  rw [if_pos (by simp [hw])]
  simp [hw]

/-- A proposal that none meets is kept; one of the partner's own commands is answered as well. -/
theorem Dev.proposalRx_kept (hp : d.paired = true) (hs : ¬ (unit = 4 ∧ op = 2)) (hd : d.pend = []) (hi : ¬ (unit = 4 ∧ (op = 8 ∨ op = 9))) :
    d.proposalRx unit op obj user mt ctx = { d with twin := { d.twin with proposals := d.twin.proposals ++ [⟨unit, op, obj, user, mt, d.ctl.ticks⟩] } } := by
  have no_start : (decide (unit = 4) && decide (op = 2)) = false := by simpa using hs
  unfold Dev.proposalRx
  simp only [hp, no_start, Bool.not_true, Bool.false_eq_true, if_false, hd, List.any_nil]
  unfold Dev.answerInternal
  by_cases h4 : unit = 4
  · have h8 : op ≠ 8 := fun h => hi ⟨h4, .inl h⟩
    have h9 : op ≠ 9 := fun h => hi ⟨h4, .inr h⟩
    split
    · rfl
    · rw [if_neg (by simp [h8]), if_neg (by simp [h9])]
  · rw [if_pos (by simp [h4])]

/-- A proposal of an encoder START says what context the partner holds. -/
theorem Dev.proposalRx_start (hp : d.paired = true) (hd : d.pend = []) : d.proposalRx 4 2 obj user mt ctx =
    { d with twin := { (d.putTwinCh obj { d.twinCh obj with partner := max 1 (d.twinCh obj).partner, partnerDig := some ctx }).twin with
                       proposals := d.twin.proposals ++ [⟨4, 2, obj, user, mt, d.ctl.ticks⟩] } } := by
  unfold Dev.proposalRx
  simp only [hp, decide_true, Bool.and_self, if_true, Bool.not_true, Bool.false_eq_true, if_false, Dev.modTwinCh_eq]
  rw [if_neg (by simp [show ∀ t, (d.putTwinCh obj t).pend = [] from fun _ => hd])]
  unfold Dev.answerInternal
  split
  · rfl
  · rw [if_neg (by simp), if_neg (by simp)]
    rfl

/-- A descriptor that waits alone for its match. -/
def Dev.WaitsAlone (d : Dev) (p : Pend) (own : Nat) : Prop := d.pend = [p] ∧ p.internal = false ∧ p.twin = .waiting own ∧ d.twin.proposals = []

theorem Dev.matchTimeout_gone (h : d.WaitsAlone p own) (ht : p.since + d.twin.matchUs * 3000 ≤ d.ctl.ticks) :
    d.matchTimeout = (({ d with pend := [] } : Dev).releaseFor p).complete p.d stTimeout 0 := by
  obtain ⟨hp, hi, hw, hq⟩ := h
  unfold Dev.matchTimeout
  dsimp only
  rw [hp, hq]
  simp only [List.filter_cons, List.filter_nil, hi, hw, ht, decide_true, Bool.not_false, Bool.and_self, Bool.not_true, if_true, if_false, Bool.false_eq_true]
  rw [← hq]
  rfl

theorem Dev.matchTimeout_early (h : d.WaitsAlone p own) (ht : d.ctl.ticks < p.since + d.twin.matchUs * 3000) : d.matchTimeout = d := by
  obtain ⟨hp, hi, hw, hq⟩ := h
  unfold Dev.matchTimeout
  dsimp only
  rw [hp, hq]
  simp only [List.filter_cons, List.filter_nil, hi, hw, Nat.not_le.mpr ht, decide_false, Bool.and_false, Bool.not_false, if_true, if_false, Bool.false_eq_true]
  rw [← hp, ← hq]
  rfl

theorem Dev.releaseFor_other (h : p.op ≠ 2) : d.releaseFor p = d := by
  unfold Dev.releaseFor
  split
  · rfl
  split
  · next h2 => exact absurd h2 h
  · next h2 => exact absurd h2 h
  · next h2 => exact absurd h2 h
  · rfl

theorem Dev.releaseFor_scene (hn : d.pend = []) (ho : p.op = 2) (hu : p.unit = 2) (hr : (d.sceneAt p.obj).running = false) :
    d.releaseFor p = (d.bookScene p.obj 0).modSceneAt p.obj fun c => { c with starting := false } := by
  unfold Dev.releaseFor
  simp only [hn, List.any_nil, Bool.false_eq_true, if_false, ho, hu, hr]

theorem Dev.releaseFor_channel (hn : d.pend = []) (ho : p.op = 2) (hu : p.unit = 4) :
    d.releaseFor p = d.modChannel p.obj fun c => { c with startPend := false } := by
  unfold Dev.releaseFor
  simp only [hn, List.any_nil, Bool.false_eq_true, if_false, ho, hu]

theorem Dev.releaseFor_stream (hn : d.pend = []) (ho : p.op = 2) (hu : p.unit = 5) (hr : (d.stream p.obj).active = false) :
    d.releaseFor p = d.modStream p.obj fun c => { c with starting := false, booked := 0 } := by
  unfold Dev.releaseFor
  simp only [hn, List.any_nil, Bool.false_eq_true, if_false, ho, hu, hr]

end Matching

/-! ## Misses, sheds and records (R370, R371, R375, R384) -/

section Notices
variable {d : Dev} {n mt : Nat}

theorem Dev.missRx_mirrored {q : Pic} {rows : Nat} (hl : d.linked n = true) (ha : (d.channel n).active = true) (hf : (d.channel n).flight = [q]) (hm : q.mt = mt)
    (hr : q.released ≤ rows) (hn : q.limit = none) :
    d.missRx n mt rows = d.putChannel n { d.channel n with flight := [{ q with limit := some (rows, true) }] } := by
  unfold Dev.missRx
  dsimp only
  rw [if_neg (by simp [hl, ha]), if_pos (by simp [hf, hm])]
  simp [Dev.modChannel, hf, hm, hr, hn]

/-- The shed of the partner, mirrored from its media time on. -/
def Chan.shedBy (c : Chan) (mt : Nat) : Chan :=
  { c with shed := true, shedFrom := if c.shed then min c.shedFrom mt else mt
           flight := c.flight.map fun p => if mt ≤ p.mt && p.released = 0 && p.limit.isNone then { p with limit := some (0, false) } else p }

theorem Dev.shedRx_mirrored (hl : d.linked n = true) (ha : (d.channel n).active = true) (hs : (3, n) ∉ d.fab.shed) :
    d.shedRx n mt = Dev.putChannel { d with fab := { d.fab with shed := d.fab.shed ++ [(3, n)] } } n ((d.channel n).shedBy mt) := by
  unfold Dev.shedRx
  dsimp only
  rw [if_neg (by simp [hl, ha, hs])]
  rfl

theorem Dev.channelState_idle {code : Nat} {dig : BitVec 64} (hp : d.paired = true) (hc : code < 2) :
    d.channelState n code dig = d.putTwinCh n { d.twinCh n with partner := code, partnerDig := if code = 0 then none else some dig, owed := false } := by
  unfold Dev.channelState
  dsimp only
  rw [if_neg (by simp [hp]), if_neg (by simp; omega), Dev.modTwinCh_eq, Dev.modTwinCh_eq, Dev.putTwinCh_putTwinCh, Dev.twinCh_putTwinCh]

/-- The record of the partner says whether it follows too. -/
def TwinCh.heard (t : TwinCh) (r : HistRecord) (muted : Bool) : TwinCh := { t with follower := t.follower && !(bitN r.flags 5 && !muted) }

theorem Dev.ownRecord_putTwinCh (d : Dev) (n : Nat) (t : TwinCh) (k mt : Nat) : (d.putTwinCh n t).ownRecord k mt = d.ownRecord k mt := rfl

theorem Dev.theirRecord_kept {r : HistRecord} (h : d.ownRecord n r.mt = none) :
    d.theirRecord n r = d.putTwinCh n { (d.twinCh n).heard r (d.channel n).muted with theirs := lastN 1024 ((d.twinCh n).theirs ++ [r]) } := by
  unfold Dev.theirRecord
  dsimp only
  rw [Dev.modTwinCh_eq, Dev.ownRecord_putTwinCh, h]
  simp only [Dev.modTwinCh_eq, Dev.putTwinCh_putTwinCh, Dev.twinCh_putTwinCh]
  rfl

theorem Dev.theirRecord_compared {r own : HistRecord} (h : d.ownRecord n r.mt = some own) (hp : (d.twinCh n).phase ≠ 3) (hc : (d.twinCh n).copy = false) :
    d.theirRecord n r = let f := d.putTwinCh n ((d.twinCh n).heard r (d.channel n).muted)
      if histAgrees own r then f else f.diverge n own.mt := by
  unfold Dev.theirRecord
  dsimp only
  rw [Dev.modTwinCh_eq, Dev.ownRecord_putTwinCh, h]
  dsimp only
  unfold Dev.compareRecords
  dsimp only
  rw [Dev.twinCh_putTwinCh, if_neg (by simp [hp]), if_neg (by simp [hc])]
  rfl

end Notices

section Frames
variable {d : Dev} {n : Nat}

@[simp] theorem Dev.heard_twinCh (d : Dev) (k : Nat) : d.heard.twinCh k = d.twinCh k := rfl
@[simp] theorem Dev.heard_channel (d : Dev) (k : Nat) : d.heard.channel k = d.channel k := rfl
@[simp] theorem Dev.heard_paired (d : Dev) : d.heard.paired = d.paired := rfl
@[simp] theorem Dev.heard_linked (d : Dev) (k : Nat) : d.heard.linked k = d.linked k := rfl
@[simp] theorem Dev.heard_ownRecord (d : Dev) (k mt : Nat) : d.heard.ownRecord k mt = d.ownRecord k mt := rfl

end Frames

/-- Settles O46: each clause is the lemma of its notice, on the device that has heard its partner. -/
theorem channelReconciliation : Obligations.ChannelReconciliation := by
  unfold Obligations.ChannelReconciliation
  intro s ch p hc hi
  dsimp only
  have run {i : Instr} {f : Dev → Dev} {k : Dev} (hx : exec i s = ok s (s.dev.fromPartner f)) (h : f s.dev.heard = k) : exec i s = .next { s with dev := k } :=
    hx.trans (congrArg (ok s) ((Dev.fromPartner_hears hc hi).trans h))
  have timeout {k : Dev} (h : s.dev.matchTimeout = k) : exec .matchTimeout s = .next { s with dev := k } := congrArg (ok s) h
  refine ⟨fun hp unit op obj user mt own ctx hs => ⟨fun hd hu ho hj hx hw => ?_, fun hd hn => ?_⟩, fun hp hd obj user mt ctx => ?_,
    fun own hd hn hw hq => ⟨fun ht => ⟨fun ho => ?_, fun ho hu => ?_, fun ho hu hr => ?_, fun ho hu hr => ?_⟩, fun ht => ?_⟩,
    fun hl ha => ⟨fun q mt rows hf hm hr hn => ?_, fun mt hs => ?_, fun mt => ?_, fun mt snap num refs hf hph hk => ?_⟩, fun hp code dig hcode => ?_,
    fun hl r => ⟨fun ho => ?_, fun own ho hph hcp => ⟨fun hg => ?_, fun hg => ?_⟩⟩⟩
  · exact ⟨_, run rfl (Dev.proposalRx_met hp hs hd hu ho hj hx hw), rfl, rfl, rfl⟩
  · exact run rfl (Dev.proposalRx_kept hp hs hd hn)
  · refine ⟨_, run rfl (Dev.proposalRx_start hp hd), ?_, rfl, rfl⟩
    exact Dev.twinCh_putTwinCh s.dev.heard obj _
  · exact timeout ((Dev.matchTimeout_gone ⟨hd, hn, hw, hq⟩ ht).trans (congrArg (fun e : Dev => e.complete p.d stTimeout 0) (Dev.releaseFor_other ho)))
  · exact timeout ((Dev.matchTimeout_gone ⟨hd, hn, hw, hq⟩ ht).trans (congrArg (fun e : Dev => e.complete p.d stTimeout 0) (Dev.releaseFor_channel rfl ho hu)))
  · exact timeout ((Dev.matchTimeout_gone ⟨hd, hn, hw, hq⟩ ht).trans (congrArg (fun e : Dev => e.complete p.d stTimeout 0) (Dev.releaseFor_scene rfl ho hu hr)))
  · exact timeout ((Dev.matchTimeout_gone ⟨hd, hn, hw, hq⟩ ht).trans (congrArg (fun e : Dev => e.complete p.d stTimeout 0) (Dev.releaseFor_stream rfl ho hu hr)))
  · exact timeout (Dev.matchTimeout_early ⟨hd, hn, hw, hq⟩ ht)
  · exact run rfl (Dev.missRx_mirrored hl ha hf hm hr hn)
  · refine ⟨_, run rfl (Dev.shedRx_mirrored hl ha hs), ?_, ?_, rfl, fun k hk => Dev.channel_putChannel_other (h := hk) .., rfl⟩
    · rw [Dev.channel_putChannel]; rfl
    · rw [Dev.channel_putChannel]; rfl
  · have diverged : s.dev.heard.channelNotice ch (.resync mt) = s.dev.heard.diverge ch mt := if_pos (by simp [hl, ha])
    refine ⟨_, run rfl diverged, ?_, ?_, ?_, fun k hk => ?_⟩
    · rw [Dev.diverge_twinCh]; rfl
    · rw [Dev.diverge_twinCh]; exact TwinCh.mismatched_episodes _ mt
    · rw [Dev.diverge_twinCh]
    · rw [Dev.diverge_twinCh_other _ _ hk, Dev.heard_twinCh]
  · refine run rfl ?_
    unfold Dev.snapshotRx
    dsimp only
    rw [if_neg (by simp [hl, ha, hf, hph]), if_pos (by rw [Bool.true_and]; exact decide_eq_true hk)]
    rfl
  · exact run rfl (Dev.channelState_idle hp hcode)
  · refine ⟨_, run rfl ((if_pos hl).trans (Dev.theirRecord_kept ho)), ?_, rfl⟩
    rw [Dev.twinCh_putTwinCh]; rfl
  · refine ⟨_, run rfl ((if_pos hl).trans (Dev.theirRecord_compared ho hph hcp)), ?_, ?_⟩
    · rw [if_pos hg, Dev.twinCh_putTwinCh]; rfl
    · rw [if_pos hg]; rfl
  · refine ⟨_, run rfl ((if_pos hl).trans (Dev.theirRecord_compared ho hph hcp)), ?_, ?_, ?_⟩ <;>
      rw [if_neg (by simp [hg]), Dev.diverge_twinCh]
    · rfl
    · rw [Dev.twinCh_putTwinCh]; exact TwinCh.mismatched_episodes _ own.mt

end Sys2Proof.Machine

/-! # The twin pair: what the halves tell one another about inputs and streams (R359 to R363) -/

namespace Sys2Proof.Machine

/-! ## Requests -/

/-- A message that waits for its link. -/
theorem Dev.emit_waits (d : Dev) {e : OutEv} (h : e.link ≠ 0) : d.emit e = { d with waiting := d.waiting ++ [e] } := if_neg h

/-- Messages that wait for their link do so in order. -/
theorem Dev.foldl_emit_waits {α : Type} (msg : α → OutEv) (h : ∀ a, (msg a).link ≠ 0) (as : List α) (d : Dev) :
    as.foldl (fun e a => e.emit (msg a)) d = { d with waiting := d.waiting ++ as.map msg } := by
  induction as generalizing d with
  | nil => simp
  | cons a as ih => rw [List.foldl_cons, ih, Dev.emit_waits d (h a), List.map_cons]; simp

section Inputs
variable {d : Dev} {i : Nat}

/-- The input after the partner's map, with nothing that waits for it (R359). -/
def Cap.mapped (c : Cap) (held anc : List Nat) : Cap :=
  { c with mapV := (c.mapV.filter fun z => !c.holds z && !(held.filter fun z => !c.holds z).contains z) ++ held.filter fun z => !c.holds z
           theirs := c.theirs ++ anc.filter fun z => !c.theirs.contains z }

theorem Dev.mapRx_input (hp : d.paired = true) (ht : d.twinnedInput i = true) (hk : (d.capIn i).kind ≠ 2) (hw : (d.capIn i).ancWait = []) (held anc : List Nat) :
    d.mapRx i held anc =
    { d.putCapIn i ((d.capIn i).mapped held anc) with
      waiting := d.waiting ++ (held.filter fun z => !(d.capIn i).holds z).map (fun z => .twin 5 i z []) ++
        (anc.filter fun z => !(d.capIn i).ancSeen.contains z).map (fun z => .twin 5 i z [1]) } := by
  have idle : { d.capIn i with ancWait := [] } = d.capIn i := by rw [← hw]
  unfold Dev.mapRx
  dsimp only
  rw [if_neg (by simp [hp, ht]), if_neg hk, Dev.foldl_emit_waits (fun z => .twin 5 i z []) (fun _ => by simp [OutEv.link]),
    Dev.foldl_emit_waits (fun z => .twin 5 i z [1]) (fun _ => by simp [OutEv.link]), hw]
  simp only [List.filter_nil, List.foldl_nil]
  rw [← hw]
  rfl

theorem Dev.mapRx_stream {k : Nat} (hp : d.paired = true) (ht : d.twinnedInput i = true) (hk : (d.capIn i).kind = 2) (hs : d.streamOf i = some k) (held anc : List Nat) :
    ∃ at' : Tab Nat, d.mapRx i held anc =
    { d.putStream k { d.stream k with theirs := (d.stream k).theirs ++ held.filter fun z => !(d.stream k).theirs.contains z, theirAt := at' } with
      waiting := d.waiting ++ (held.filter fun z => (d.stream k).seenAt.get 0 z == 0).map (fun z => .twin 5 i z [2]) } := by
  unfold Dev.mapRx
  dsimp only
  rw [if_neg (by simp [hp, ht]), if_pos hk]
  unfold Dev.streamMap
  rw [hs]
  dsimp only
  rw [Dev.foldl_emit_waits (fun z => .twin 5 i z [2]) (fun _ => by simp [OutEv.link])]
  exact ⟨_, rfl⟩

/-- A fetched packet of video goes where its stamp puts it. -/
theorem Dev.fetchRx_video {pkt : VideoPkt} (hp : d.paired = true) (ht : d.twinnedInput i = true) (hr : (d.capIn i).rx = true) (hk : (d.capIn i).kind = 0)
    (hh : (d.capIn i).holds pkt.seq = false) :
    d.fetchRx i (.video pkt) = (d.countFetch.putCapIn i ((d.capIn i).firstCopy pkt.seq d.ctl.ticks)).placeVideo i pkt := by
  unfold Dev.fetchRx
  rw [if_neg (by simp [hp, ht])]
  dsimp only
  unfold Dev.fetchVideo
  dsimp only
  rw [if_neg (by simp [hr, hk, hh]), if_neg (by simp [hk])]
  rfl

/-- A fetched packet that holds no message is noted by the half that follows. -/
theorem Dev.fetchRx_anc {pkt : AncPkt} (hp : d.paired = true) (ht : d.twinnedInput i = true) (hr : (d.capIn i).rx = true) (hk : (d.capIn i).kind = 0)
    (hu : (d.capIn i).get 0x74 2 ≠ 0) (hn : pkt.seq ∉ (d.capIn i).ancSeen) (hs : pkt.scte = false) (hj : d.ctl.senior = false) :
    d.fetchRx i (.anc pkt) = d.countFetch.putCapIn i { d.capIn i with ancSeen := (d.capIn i).ancSeen ++ [pkt.seq] } := by
  have follows (e : Cap) : (d.countFetch.putCapIn i e).follows i = true :=
    show d.follows i = true by rw [Dev.follows, hp, hj, ht]; rfl
  unfold Dev.fetchRx
  rw [if_neg (by simp [hp, ht])]
  dsimp only
  unfold Dev.fetchAnc
  dsimp only
  rw [if_neg (by simp [hr, hk, hu, hn]), if_pos (follows _)]
  unfold Dev.readAnc Dev.readAncAt
  dsimp only
  rw [hs]
  rfl

/-- A fetched packet of a stream of the half that follows waits for its declaration, and the partner learns of it. -/
theorem Dev.fetchRx_dec {pkt : DecPkt} {k : Nat} (hp : d.paired = true) (ht : d.twinnedInput i = true) (hs : d.streamOf i = some k) (hi : (d.stream k).input = i)
    (ha : (d.stream k).active = true) (hj : d.ctl.senior = false) (hd : (d.stream k).declared = []) (hn : (d.stream k).seenAt.get 0 pkt.key = 0) :
    d.fetchRx i (.dec pkt) = (((d.countFetch.putStream k { d.stream k with seenAt := (d.stream k).seenAt.put 0 pkt.key (d.ctl.ticks + 1) }).emit
      (.twin 4 i pkt.key [2]))).putStream k
        { d.stream k with seenAt := (d.stream k).seenAt.put 0 pkt.key (d.ctl.ticks + 1), waiting := (d.stream k).waiting ++ [pkt] } := by
  have follows : d.countFetch.decFollows k = true := by
    change d.follows (d.stream k).input = true
    rw [Dev.follows, hp, hj, hi, ht]; rfl
  have seen : (d.countFetch.stream k).seenAt.get 0 pkt.key = 0 := hn
  have undeclared : (d.countFetch.stream k).declared = [] := hd
  have tells (e : Dec) : (d.countFetch.putStream k e).sendMap i pkt.key [2] = (d.countFetch.putStream k e).emit (.twin 4 i pkt.key [2]) :=
    if_pos (show (d.paired && d.twinnedInput i) = true by rw [hp, ht]; rfl)
  unfold Dev.fetchRx
  rw [if_neg (by simp [hp, ht])]
  dsimp only
  unfold Dev.fetchDec
  rw [hs]
  dsimp only
  rw [if_pos (by simp [ha, hn])]
  unfold Dev.decArrive
  dsimp only
  rw [if_neg (by simp [seen]), if_neg (by simp [undeclared]), if_pos (by simp [undeclared, follows])]
  exact congrArg (fun e : Dev => e.putStream k { d.stream k with seenAt := (d.stream k).seenAt.put 0 pkt.key (d.ctl.ticks + 1), waiting := (d.stream k).waiting ++ [pkt] })
    ((congrArg (fun j => (d.countFetch.putStream k _).sendMap j pkt.key [2]) hi).trans (tells _))

/-- Digests of one raster that agree are done with; those that differ are counted and latch source 36 (R363). -/
theorem Dev.digestRx_met {mt : Nat} {dig : BitVec 64} {q : Nat × Nat × BitVec 64} (hp : d.paired = true) (ht : d.twinnedInput i = true)
    (hq : d.twin.digests.find? (fun q => q.1 == i && q.2.1 == mt) = some q) : d.digestRx i mt dig =
    if q.2.2 = dig then { d with twin := { d.twin with digests := d.twin.digests.erase q } }
    else Dev.raise { d with twin := { d.twin with digests := d.twin.digests.erase q, inMis := satAdd 8 d.twin.inMis 1 } } 36 := by
  unfold Dev.digestRx
  rw [if_neg (by simp [hp, ht]), hq]
  simp only [beq_iff_eq]

theorem Dev.digestRx_kept {mt : Nat} {dig : BitVec 64} (hp : d.paired = true) (ht : d.twinnedInput i = true)
    (hq : d.twin.digests.find? (fun q => q.1 == i && q.2.1 == mt) = none) : d.digestRx i mt dig =
    { d with twin := { d.twin with digests := d.twin.digests ++ [(i, mt, dig)] } } := by
  unfold Dev.digestRx
  rw [if_neg (by simp [hp, ht]), hq]

/-- The verdict on a line of a network input; what this half lacks of a present one is asked for (R360). -/
theorem Dev.verdictRx_line {line stamp : Nat} {present : Bool} {o : Option Nat} (hf : d.follows i = true) (hk : (d.capIn i).kind = 0) (hl : present = true → line ≠ 0)
    (ho : (if line = 0 then (d.capIn i).holding stamp else (d.capIn i).candidate (d.capIn i).tick) = o) : d.verdictRx i line present stamp =
    { d.putCapIn i { d.capIn i with verdicts := (d.capIn i).verdicts ++ [(line, present)] } with
      waiting := match o with
        | none => d.waiting
        | some s => if !present || ((d.capIn i).slotAt s).lines.contains line then d.waiting
          else d.waiting ++ ((d.capIn i).mapV.filter fun z => !(d.capIn i).holds z).map (fun z => .twin 5 i z []) } := by
  have first : (decide (line = 0) && present) = false := by cases present <;> simp_all
  unfold Dev.verdictRx
  simp only [hf, first, Bool.not_true, Bool.false_eq_true, if_false]
  split
  · next none_held =>
    obtain rfl : none = o := none_held.symm.trans ho
    rfl
  · next s held =>
    obtain rfl : some s = o := held.symm.trans ho
    dsimp only
    split
    · rfl
    · rw [if_neg (by simp [hk]), Dev.foldl_emit_waits (fun z => .twin 5 i z []) (fun _ => by simp [OutEv.link])]
      rfl

/-- The raster of an SDI input that takes the senior's stamp, with the verdict on it. -/
def Cap.stamped (c : Cap) (sl stamp : Nat) : Cap :=
  { c with slots := c.slots.put {} sl { c.slotAt sl with stamp := some stamp, fixed := true }, verdicts := c.verdicts ++ [(0, true)] }

theorem Cap.stamped_slotAt (c : Cap) (sl stamp : Nat) : (c.stamped sl stamp).slotAt sl = { c.slotAt sl with stamp := some stamp, fixed := true } := by
  simp only [Cap.stamped, Cap.slotAt, Tab.get_put_same]

theorem Cap.firstCopy_seen (c : Cap) (seq now : Nat) : (c.firstCopy seq now).seenAt.get 0 seq = now + 1 := Tab.get_put_same 0 c.seenAt seq (now + 1)

theorem Dev.verdictRx_sdi {sl stamp : Nat} (hf : d.follows i = true) (hk : (d.capIn i).kind = 1) (hw : (d.capIn i).sdiWait = []) (hs : (d.capIn i).nearestSlot stamp = some sl) :
    ∃ ws, d.verdictRx i 0 true stamp = { d.putCapIn i ((d.capIn i).stamped sl stamp) with waiting := ws } := by
  have stamps : d.seniorStamp i stamp = d.putCapIn i { d.capIn i with slots := (d.capIn i).slots.put {} sl { (d.capIn i).slotAt sl with stamp := some stamp, fixed := true } } := by
    unfold Dev.seniorStamp
    dsimp only
    rw [if_pos hk, hs]
    dsimp only
    rw [if_pos hk]
    unfold Dev.readSdi
    dsimp only
    rw [Dev.capIn_putCapIn]
    dsimp only
    rw [hw, Dev.putCapIn_putCapIn]
    rfl
  unfold Dev.verdictRx
  simp only [hf, stamps, Bool.not_true, Bool.false_eq_true, if_false, decide_true, Bool.and_self, if_true, Dev.capIn_putCapIn, Dev.putCapIn_putCapIn]
  split
  · exact ⟨_, rfl⟩
  · split
    · exact ⟨_, rfl⟩
    split
    · rw [Dev.emit_waits _ (by simp [OutEv.link])]
      exact ⟨_, rfl⟩
    · next network => exact absurd hk network

/-- A fetched run of luma samples stands in the store; the input and the count of fetched items change with it. -/
theorem Dev.fetchRx_luma {pkt : VideoPkt} {g : LineSeg} {sl : Nat} (hp : d.paired = true) (ht : d.twinnedInput i = true) (hr : (d.capIn i).rx = true)
    (hk : (d.capIn i).kind = 0) (hh : (d.capIn i).holds pkt.seq = false) (hf : pkt.fmtOk = true) (hb : pkt.ts ∉ (d.capIn i).lastBad) (hs : pkt.segs = [g])
    (hcb : g.cb = []) (hcr : g.cr = []) (hd : (d.capIn i).holding (d.rtpStamp (d.capIn i) pkt.ts) = some sl) (hy : ((d.capIn i).slotAt sl).key = pkt.ts)
    (hl : g.line < (d.capIn i).height) (hw : g.x + g.y.length ≤ (d.capIn i).width) :
    let c := (d.capIn i).firstCopy pkt.seq d.ctl.ticks
    d.fetchRx i (.video pkt) = ((d.countFetch.putCapIn i c).lumaRow c sl g).putCapIn i (c.arrived sl g) := by
  have input (e : Dev) (c : Cap) : (e.putCapIn i c).capIn i = c := Dev.capIn_putCapIn _ _ _
  dsimp only
  rw [Dev.fetchRx_video hp ht hr hk hh, Dev.placeVideo_luma (g := g) (sl := sl) (by rw [input]; exact hb) (by rw [input]; exact hd) (by rw [input]; exact hy) hf hs, input,
    Dev.putCapIn_putCapIn, Dev.placeSeg_luma hcb hcr (by rw [input]; exact hl) (by rw [input]; exact hw), input]

end Inputs

/-! ## Declarations (R362) -/

section Declarations
variable {d : Dev} {k seq : Nat} {p : DecPkt}

/-- A stream that has a declaration and nothing that waits. -/
def Dec.declaredNow (s : Dec) (seq : Nat) (received : Bool) : Dec := { s with declared := [(seq, received)], waiting := [] }

theorem Dec.declaredNow_filled {s : Dec} (seq : Nat) (raw : List Byte) (pics : Nat) (h : s.bsPtr < s.bsSize) : (s.declaredNow seq true).filled raw pics =
    { s with declared := [(seq, true)], waiting := [], fill := s.fill + (s.carried raw pics).1.length, bufPics := s.bufPics + (s.carried raw pics).2
             bsPtr := (s.bsPtr + (s.carried raw pics).1.length) % s.bsSize } := by
  have size : max 1 (s.declaredNow seq true).bsSize = s.bsSize := Nat.max_eq_right (by have : (s.declaredNow seq true).bsSize = s.bsSize := rfl; omega)
  unfold Dec.filled
  rw [size]
  rfl

theorem Dev.declaration_waited {received : Bool} (ha : (d.stream k).active = true) (hf : d.decFollows k = true) (hd : (d.stream k).declared = []) (hw : (d.stream k).waiting = [p])
    (hq : p.key = seq) : d.declaration k seq received =
    if received then (d.putStream k ((d.stream k).declaredNow seq received)).bufferPkt k p else d.putStream k ((d.stream k).declaredNow seq received) := by
  unfold Dev.declaration
  dsimp only
  rw [if_neg (by simp [ha, hf, hd]), hd, hw, List.find?_cons_of_pos (by simp [hq]), List.filter_cons_of_neg (by simp [hq])]
  rfl

/-- A media packet of a stream without FEC, whose continuity is whole. -/
theorem Dev.bufferPkt_plain (hf : p.fec = none) (hr : (d.stream k).repairs = false) (hc : p.contLost = 0) (hl : (d.stream k).lost ≤ 65535) :
    d.bufferPkt k p = (d.putStream k (d.stream k)).bufferBytes k p.bytes p.pics := by
  have whole : satAdd 16 (d.stream k).lost 0 = (d.stream k).lost := Nat.min_eq_right hl
  unfold Dev.bufferPkt
  dsimp only
  rw [hf, hr, hc]
  dsimp only
  rw [if_neg Bool.false_ne_true, if_neg (Nat.lt_irrefl 0), if_neg Bool.false_ne_true, Dev.modStream_eq, whole]

/-- A packet that is declared received enters the bitstream buffer. -/
theorem Dev.declaration_received (ha : (d.stream k).active = true) (hd' : d.decFollows k = true) (hd : (d.stream k).declared = []) (hw : (d.stream k).waiting = [p])
    (hq : p.key = seq) (hf : p.fec = none) (hr : (d.stream k).repairs = false) (hc : p.contLost = 0) (hl : (d.stream k).lost ≤ 65535)
    (hn : (d.stream k).fill + ((d.stream k).carried p.bytes p.pics).1.length ≤ (d.stream k).bsSize) :
    let z := (d.stream k).declaredNow seq true
    d.declaration k seq true = ((d.putStream k z).putBitstream z ((d.stream k).carried p.bytes p.pics).1).putStream k (z.filled p.bytes p.pics) := by
  dsimp only
  have stream : (d.putStream k ((d.stream k).declaredNow seq true)).stream k = (d.stream k).declaredNow seq true := Dev.stream_putStream _ _ _
  rw [Dev.declaration_waited ha hd' hd hw hq, if_pos rfl, Dev.bufferPkt_plain hf (by rw [stream]; exact hr) hc (by rw [stream]; exact hl), stream, Dev.putStream_putStream,
    Dev.bufferBytes_fits (by rw [stream]; exact hn), stream]
  rfl

/-- What a packet that is declared received leaves: the stream with its bytes in the buffer, and all else as it was. -/
theorem Dev.declaration_enters (ha : (d.stream k).active = true) (hd' : d.decFollows k = true) (hd : (d.stream k).declared = []) (hw : (d.stream k).waiting = [p])
    (hq : p.key = seq) (hf : p.fec = none) (hr : (d.stream k).repairs = false) (hc : p.contLost = 0) (hl : (d.stream k).lost ≤ 65535)
    (hn : (d.stream k).fill + ((d.stream k).carried p.bytes p.pics).1.length ≤ (d.stream k).bsSize) (hp : (d.stream k).bsPtr < (d.stream k).bsSize) :
    let e := d.declaration k seq true
    let y := d.stream k
    e.stream k = { y with declared := [(seq, true)], waiting := [], fill := y.fill + (y.carried p.bytes p.pics).1.length, bufPics := y.bufPics + (y.carried p.bytes p.pics).2
                          bsPtr := (y.bsPtr + (y.carried p.bytes p.pics).1.length) % y.bsSize } ∧
    (∀ j, j ≠ k → e.stream j = d.stream j) ∧ (∀ j, j < y.bsAddr ∨ y.bsAddr + y.bsSize ≤ j → e.memByte j = d.memByte j) ∧
    e = { d with dec := e.dec, mem := e.mem, poison := e.poison } := by
  have shape := Dev.declaration_received ha hd' hd hw hq hf hr hc hl hn
  dsimp only at shape ⊢
  have filled := Dec.declaredNow_filled seq p.bytes p.pics hp
  have size : ((d.stream k).declaredNow seq true).bsSize = (d.stream k).bsSize := rfl
  have place : ((d.stream k).declaredNow seq true).bsAddr = (d.stream k).bsAddr := rfl
  generalize (d.stream k).declaredNow seq true = z at shape filled size place
  generalize hbs : ((d.stream k).carried p.bytes p.pics).1 = bs at *
  obtain ⟨mem, poison, whole⟩ := Dev.putBitstream_eq (d.putStream k z) z bs
  rw [shape]
  refine ⟨?_, fun j hj => ?_, fun j hj => ?_, ?_⟩
  · rw [Dev.stream_putStream]
    exact filled
  · rw [Dev.stream_putStream_other _ _ hj, whole]
    exact Dev.stream_putStream_other d z hj
  · exact Dev.putBitstream_other (d := d.putStream k z) (s := z) (bs := bs) (by omega) (by omega)
  · rw [whole]
    rfl

theorem Dev.declareLost_declared {later : Nat} (ha : (d.stream k).active = true) (hp : d.paired = true) (hs : d.ctl.senior = true) (ht : d.decTwinned k = true)
    (hn : (d.stream k).seenAt.get 0 seq = 0) (hh : seq ∉ (d.stream k).theirs) (hd : (seq, false) ∉ (d.stream k).declared) (hl : (d.stream k).laterArrival seq = some later)
    (hw : later + (d.stream k).skewUs * 3000 ≤ d.ctl.ticks + 1) :
    d.declareLost k seq = { d.putStream k { d.stream k with declared := (d.stream k).declared ++ [(seq, false)] } with waiting := d.waiting ++ [.twin 10 k seq [0]] } := by
  unfold Dev.declareLost
  dsimp only
  rw [if_neg (by simp [ha, hp, hs, ht, hn, hh, hd]), hl]
  dsimp only
  rw [if_pos hw, Dev.emit_waits _ (by simp [OutEv.link])]
  rfl

end Declarations

/-- Settles O45: each clause is the lemma of its message, on the device that has heard its partner. -/
theorem inputReconciliation : Obligations.InputReconciliation := by
  unfold Obligations.InputReconciliation
  intro s i k hc hi
  dsimp only
  have run {j : Instr} {f : Dev → Dev} {e : Dev} (hx : exec j s = ok s (s.dev.fromPartner f)) (h : f s.dev.heard = e) : exec j s = .next { s with dev := e } :=
    hx.trans (congrArg (ok s) ((Dev.fromPartner_hears hc hi).trans h))
  refine ⟨fun hp ht => ⟨fun held anc hk hw => ?_, fun held anc hk hs => ?_, fun pkt g sl hr hk hh hf hb hs hcb hcr hd hy hl hw hcap => ?_,
      fun pkt hr hk hu hn hs hj => ?_, fun pkt hs hin ha hj hd hn => ?_, fun mt dig => ⟨fun q hq => ⟨fun he => ?_, fun he hl => ?_⟩, fun hq => ?_⟩⟩,
    fun hf line stamp present => ⟨fun hk hl => ?_, fun sl hk hw hs => ?_⟩, fun seq p ha hf hd hw hq => ⟨?_, fun hfec hr hct hfit hptr hlost => ?_⟩,
    fun seq later ha hp hs ht hn hh hd hl hw => ?_⟩
  · refine ⟨_, run rfl (Dev.mapRx_input (d := s.dev.heard) hp ht hk hw held anc), rfl, ?_, fun j hj => ?_, rfl⟩
    · exact Dev.capIn_putCapIn s.dev.heard i _
    · exact Dev.capIn_putCapIn_other s.dev.heard _ hj
  · obtain ⟨at', h⟩ := Dev.mapRx_stream (d := s.dev.heard) hp ht hk hs held anc
    refine ⟨_, run rfl h, rfl, ?_, fun j hj => ?_, rfl⟩
    · exact congrArg (fun z : Dec => { z with theirAt := (s.dev.stream k).theirAt }) (Dev.stream_putStream s.dev.heard k _)
    · exact Dev.stream_putStream_other s.dev.heard _ hj
  · have row := Dev.fetchRx_luma (d := s.dev.heard) hp ht hr hk hh hf hb hs hcb hcr hd hy hl hw
    dsimp only at row
    generalize hz : (s.dev.heard.capIn i).firstCopy pkt.seq s.dev.heard.ctl.ticks = z at row
    have hcfg : z.cfg = (s.dev.capIn i).cfg := by rw [← hz]; rfl
    have scale (v : Nat) : z.scale v = (s.dev.capIn i).scale v := by simp only [Cap.scale, Cap.depth, Cap.get, hcfg]
    have addr : z.lumaAddr sl g = (s.dev.capIn i).lumaAddr sl g := Cap.lumaAddr_congr hcfg sl g
    have seen : z.seenAt.get 0 pkt.seq = s.dev.ctl.ticks + 1 := by rw [← hz]; exact Cap.firstCopy_seen _ _ _
    have capacity : (s.dev.heard.countFetch.putCapIn i z).capacity = s.dev.capacity := by
      simp only [Dev.capacity, Dev.mcAt, Dev.putCapIn, Dev.countFetch, Dev.heard, Dev.nextFree]
    obtain ⟨cap, mem, poison, whole⟩ := Cap.arrived_cap_eq (s.dev.heard.countFetch.putCapIn i z) i sl g z
    refine ⟨_, run rfl row, fun j hj => ?_, fun j hj => ?_, ?_, ?_, ?_⟩
    · have byte := Dev.lumaRow_byte (d := s.dev.heard.countFetch.putCapIn i z) (c := z) (sl := sl) (g := g) (by rw [capacity, addr]; exact hcap) hj (k := 0) (by decide)
      rw [addr, scale, Nat.pow_zero, Nat.div_one] at byte
      exact byte
    · exact (Dev.lumaRow_other (by rw [addr]; exact hj) : ((s.dev.heard.countFetch.putCapIn i z).lumaRow z sl g).memByte j = _)
    · rw [Dev.capIn_putCapIn]
      exact seen
    · rw [whole]
      rfl
    · rw [whole]
      rfl
  · exact run rfl (Dev.fetchRx_anc (d := s.dev.heard) hp ht hr hk hu hn hs hj)
  · have wait := Dev.fetchRx_dec (d := s.dev.heard) hp ht hs hin ha hj hd hn
    rw [Dev.emit_waits _ (by simp [OutEv.link])] at wait
    refine ⟨_, run rfl wait, Dev.stream_putStream _ _ _, fun j hj' => ?_, rfl, rfl⟩
    exact (Dev.stream_putStream_other _ _ hj').trans (Dev.stream_putStream_other s.dev.heard.countFetch _ hj')
  · exact run rfl ((Dev.digestRx_met (d := s.dev.heard) hp ht hq).trans (if_pos he))
  · refine ⟨_, run rfl ((Dev.digestRx_met (d := s.dev.heard) hp ht hq).trans (if_neg he)), ?_, Dev.raise_status (by decide) hl⟩
    simp only [Dev.raise_frame]
    rfl
  · exact run rfl (Dev.digestRx_kept (d := s.dev.heard) hp ht hq)
  · obtain ⟨o, ho⟩ : ∃ o, (if line = 0 then (s.dev.heard.capIn i).holding stamp else (s.dev.heard.capIn i).candidate (s.dev.heard.capIn i).tick) = o := ⟨_, rfl⟩
    have candidate (h : present = true) : (s.dev.capIn i).candidate (s.dev.capIn i).tick = o := (if_neg (hl h)).symm.trans ho
    refine ⟨_, run rfl (Dev.verdictRx_line (d := s.dev.heard) hf hk hl ho), ?_, fun j hj => ?_, fun hn => ?_, fun sl hpr hcand hnew => ?_, rfl⟩
    · exact Dev.capIn_putCapIn s.dev.heard i _
    · exact Dev.capIn_putCapIn_other s.dev.heard _ hj
    · cases o with
      | none => rfl
      | some sl =>
        cases present with
        | false => rfl
        | true => exact absurd (hn.resolve_left (by decide)) (by rw [candidate rfl]; simp)
    · obtain rfl : some sl = o := hcand.symm.trans (candidate hpr)
      have new : ¬ (!present || ((s.dev.capIn i).slotAt sl).lines.contains line) = true := by rw [hpr]; simpa using hnew
      exact if_neg new
  · obtain ⟨ws, h⟩ := Dev.verdictRx_sdi (d := s.dev.heard) hf hk hw hs
    have input := Dev.capIn_putCapIn s.dev.heard i ((s.dev.heard.capIn i).stamped sl stamp)
    refine ⟨_, run rfl h, ?_, ?_, fun j hj => ?_, rfl⟩
    · exact (congrArg (fun z : Cap => z.slotAt sl) input).trans (Cap.stamped_slotAt _ _ _)
    · exact congrArg (fun z : Cap => z.verdicts) input
    · exact Dev.capIn_putCapIn_other s.dev.heard _ hj
  · exact run rfl (Dev.declaration_waited (d := s.dev.heard) ha hf hd hw hq)
  · exact ⟨_, run rfl rfl, Dev.declaration_enters (d := s.dev.heard) ha hf hd hw hq hfec hr hct hlost hfit hptr⟩
  · have lost := Dev.declareLost_declared ha hp hs ht hn hh hd hl hw
    refine ⟨_, congrArg (ok s) lost, ?_, rfl, rfl⟩
    exact Dev.stream_putStream s.dev k _

end Sys2Proof.Machine

/-! # The twin pair is made and ended (R355 to R357, R378, R389) -/

namespace Sys2Proof.Machine

/-! ## What other units leave of the pair -/

/-- The pair's state and the level of TWIN_PARTITION. -/
def Dev.pairView (d : Dev) : Twin × Bool := (d.twin, d.flt.live.getLsbD 35)

section View
variable (d : Dev)

theorem Dev.pairView_congr {d e : Dev} (ht : e.twin = d.twin) (hf : e.flt = d.flt) : e.pairView = d.pairView := by rw [Dev.pairView, Dev.pairView, ht, hf]

theorem Dev.pairView_parts {d e : Dev} (h : e.pairView = d.pairView) : e.twin = d.twin ∧ e.flt.live.getLsbD 35 = d.flt.live.getLsbD 35 :=
  ⟨congrArg Prod.fst h, congrArg Prod.snd h⟩

theorem Dev.raise_pairView (n : Nat) : (d.raise n).pairView = d.pairView :=
  Prod.ext (by simp [Dev.pairView]) (d.raise_live n (by decide) (by decide))

theorem Dev.complete_pairView (x : Desc) (status mt : Nat) : (d.complete x status mt).pairView = d.pairView := Dev.pairView_congr (by simp) (by simp)

theorem Dev.releaseFor_pairView (p : Pend) : (d.releaseFor p).pairView = d.pairView := by
  unfold Dev.releaseFor
  split
  · rfl
  split
  · split
    · rfl
    · exact Dev.pairView_congr (by simp [Dev.bookScene]) (by simp [Dev.bookScene])
  · exact Dev.pairView_congr (by simp) (by simp)
  · split
    · rfl
    · exact Dev.pairView_congr (by simp) (by simp)
  · rfl

theorem Dev.endUnmatched_pairView (ps : List Pend) (status : Nat) : (d.endUnmatched ps status).pairView = d.pairView :=
  foldl_proj Dev.pairView (fun e p => ((e.releaseFor p).complete_pairView p.d status 0).trans (e.releaseFor_pairView p)) ps d

theorem Dev.unshed_pairView (n : Nat) : (d.unshed n).pairView = d.pairView := rfl

theorem Dev.splitWaiting_pairView : d.splitWaiting.pairView = d.pairView :=
  (Dev.endUnmatched_pairView _ _ _).trans (foldl_proj Dev.pairView (fun e (p : Pend) => e.unshed_pairView p.obj) _ _)

theorem Dev.spliceTo_pairView (stamp kind event mt n : Nat) : (d.spliceTo stamp kind event mt n).pairView = d.pairView := by
  unfold Dev.spliceTo
  dsimp only
  (repeat' split) <;> rfl

theorem Dev.spliceOp_pairView (i stamp : Nat) (o : SpliceOp) : (d.spliceOp i stamp o).pairView = d.pairView := by
  unfold Dev.spliceOp
  split
  · exact foldl_proj Dev.pairView (fun e n => e.spliceTo_pairView _ _ _ _ n) _ _
  · rfl

theorem Dev.readAnc_pairView (i : Nat) (p : AncPkt) : (d.readAnc i p).pairView = d.pairView := by
  unfold Dev.readAnc Dev.readAncAt
  dsimp only
  split
  · rfl
  split
  · rfl
  · exact foldl_proj Dev.pairView (fun e o => e.spliceOp_pairView _ _ o) _ _

theorem Dev.bufferBytes_pairView (k : Nat) (raw : List Byte) (pics : Nat) : (d.bufferBytes k raw pics).pairView = d.pairView := by
  have stored (s z : Dec) (bs : List Byte) : ((d.putBitstream s bs).putStream k z).pairView = d.pairView := by
    obtain ⟨mem, poison, h⟩ := Dev.putBitstream_eq d s bs
    rw [h]
    rfl
  rcases Nat.lt_or_ge (d.stream k).bsSize ((d.stream k).fill + ((d.stream k).carried raw pics).1.length) with h | h
  · rw [Dev.bufferBytes_full h, Dev.raise_pairView, stored]
  · rw [Dev.bufferBytes_fits h, stored]

theorem Dev.modStream_pairView (k : Nat) (f : Dec → Dec) : (d.modStream k f).pairView = d.pairView := rfl

theorem Dev.repair_pairView (k : Nat) : ∀ (n : Nat) (d : Dev), (Dev.repair k n d).pairView = d.pairView
  | 0, _ => rfl
  | n + 1, d => by
    unfold Dev.repair
    split
    · rw [Dev.repair_pairView k n, Dev.bufferBytes_pairView]
      rfl
    · rfl

theorem Dev.bufferPkt_pairView (k : Nat) (p : DecPkt) : (d.bufferPkt k p).pairView = d.pairView := by
  unfold Dev.bufferPkt
  dsimp only
  (repeat' split) <;> simp only [Dev.repair_pairView, Dev.raise_pairView, Dev.bufferBytes_pairView, Dev.modStream_pairView]

theorem Dev.judgeAlone_pairView : d.judgeAlone.pairView = d.pairView := by
  have heard (e : Dev) (i : Nat) : (if (e.capIn i).ancWait.isEmpty then e
      else (e.capIn i).ancWait.foldl (fun e p => e.readAnc i p) (e.putCapIn i { e.capIn i with ancWait := [] })).pairView = e.pairView := by
    split
    · rfl
    · exact foldl_proj Dev.pairView (fun e p => e.readAnc_pairView i p) _ _
  have flushed (e : Dev) (k : Nat) : (e.flushWaiting k).pairView = e.pairView := by
    refine (foldl_proj Dev.pairView (fun e p => e.bufferPkt_pairView k p) _ _).trans ?_
    split <;> rfl
  exact (foldl_proj Dev.pairView flushed _ _).trans (foldl_proj Dev.pairView heard _ _)

end View

/-! ## The pair's states -/

section Pair
variable {d : Dev} {x : Desc}

theorem Dev.setPair_twin (d : Dev) (st : PairState) : (d.setPair st).twin = { d.twin with st := st } := by simp [Dev.setPair]

/-- TWIN_PARTITION stands while the pair is PARTITIONED or REJECTED. -/
theorem Dev.setPair_line (d : Dev) (st : PairState) : (d.setPair st).flt.live.getLsbD 35 = (st == .partitioned || st == .rejected) :=
  Dev.setLine_level _ _ (by decide) (by decide) (by decide)

theorem Dev.setPair_group (d : Dev) (st : PairState) (k : Nat) : (d.setPair st).groupAt k = d.groupAt k := by simp [Dev.setPair, Dev.groupAt]

/-- Noting split points leaves the rest of the pair's state. -/
theorem Dev.foldl_modTwinCh (f : Nat × Chan → TwinCh → TwinCh) (qs : List (Nat × Chan)) (d : Dev) :
    let e := qs.foldl (fun e q => e.modTwinCh q.1 (f q)) d
    e.twin.partMt = d.twin.partMt ∧ e.twin.halt = d.twin.halt :=
  have kept := foldl_proj (f := fun e q => e.modTwinCh q.1 (f q)) (fun e => (e.twin.partMt, e.twin.halt)) (fun _ _ => rfl) qs d
  ⟨congrArg Prod.fst kept, congrArg Prod.snd kept⟩

theorem Dev.splitAlone_twin (d : Dev) : ((d.setPair .partitioned).splitWaiting).judgeAlone.twin = { d.twin with st := .partitioned } ∧
    ((d.setPair .partitioned).splitWaiting).judgeAlone.flt.live.getLsbD 35 = true := by
  obtain ⟨htwin, hline⟩ := Dev.pairView_parts ((Dev.judgeAlone_pairView _).trans (Dev.splitWaiting_pairView (d.setPair .partitioned)))
  rw [htwin, hline, Dev.setPair_twin, Dev.setPair_line]
  exact ⟨rfl, rfl⟩

/-- The half whose twinned channels have noted their split points (R378). -/
def Dev.splitNoted (d : Dev) (mt : Nat) : Dev :=
  let d1 := { d with twin := { d.twin with partMt := mt, proposals := [], digests := [], unheard := [], chs := d.twin.chs.mapAll ({} : TwinCh) fun _ t => { t with split := if t.owed then t.split else 0 } } }
  (d.chan.filter fun e => e.2.twin == 1 && e.2.active).foldl (fun e q => e.modTwinCh q.1 fun t => { t with split := if t.owed then t.split else d.splitPoint q.1 }) d1

theorem Dev.partition_eq (hp : d.paired = true) : d.partition = (((d.splitNoted d.media).setPair .partitioned).splitWaiting).judgeAlone := if_neg (by simp [hp])

theorem Dev.splitNoted_parts (d : Dev) (mt : Nat) : (d.splitNoted mt).twin.partMt = mt ∧ (d.splitNoted mt).twin.halt = d.twin.halt :=
  Dev.foldl_modTwinCh (fun q t => { t with split := if t.owed then t.split else d.splitPoint q.1 }) _ _

/-- The link is declared down (R378). -/
theorem Dev.partition_parts (hp : d.paired = true) : d.partition.twin.st = .partitioned ∧ d.partition.twin.partMt = d.media ∧ d.partition.twin.halt = d.twin.halt ∧
    d.partition.flt.live.getLsbD 35 = true := by
  obtain ⟨htwin, hline⟩ := Dev.splitAlone_twin (d.splitNoted d.media)
  obtain ⟨hm, hh⟩ := d.splitNoted_parts d.media
  rw [Dev.partition_eq hp, htwin, hline]
  exact ⟨rfl, hm, hh, rfl⟩

/-- Lanes become a group that is looked for (R482). -/
theorem Dev.bindGroup_group (d : Dev) (first width proto k : Nat) (cfg : List Byte) : (d.bindGroup first width proto cfg).groupAt k =
    if k = first then { proto := proto, width := width, cfg := cfg, stage := .detect, since := d.ctl.ticks } else d.groupAt k := by
  have bound : (d.bindGroup first width proto cfg).groupAt k =
      (d.putGroupAt first { proto := proto, width := width, cfg := cfg, stage := .detect, since := d.ctl.ticks }).groupAt k := by
    refine (foldl_proj (fun e => e.groupAt k) ?_ _ _).trans rfl
    exact fun _ _ => rfl
  rw [bound]
  split
  · next h => rw [h, Dev.groupAt_putGroupAt]
  · next h => exact Dev.groupAt_putGroupAt_other _ _ h

theorem Dev.bindGroup_twin (d : Dev) (first width proto : Nat) (cfg : List Byte) : (d.bindGroup first width proto cfg).twin = d.twin := by
  refine (foldl_proj (fun e => e.twin) ?_ _ _).trans rfl
  exact fun _ _ => rfl

/-- The device that attempts to pair over lanes l to l + 3 (R389). -/
def Dev.linked4 (d : Dev) (x : Desc) : Dev :=
  (Dev.bindGroup { d with twin := { d.twin with cfg := x.bytes, cause := 0, lanesUp := [], halt := false } } (x.get 0x20 2) 4 3 []).setPair .linking

theorem Dev.linked4_twin (d : Dev) (x : Desc) : (d.linked4 x).twin = { d.twin with st := .linking, cfg := x.bytes, cause := 0, lanesUp := [], halt := false } := by
  rw [Dev.linked4, Dev.setPair_twin, Dev.bindGroup_twin]

theorem Dev.linked4_line (d : Dev) (x : Desc) : (d.linked4 x).flt.live.getLsbD 35 = false := Dev.setPair_line _ _

theorem Dev.linked4_group (d : Dev) (x : Desc) (k : Nat) : (d.linked4 x).groupAt k =
    if k = x.get 0x20 2 then { proto := 3, width := 4, stage := .detect, since := d.ctl.ticks } else d.groupAt k := by
  rw [Dev.linked4, Dev.setPair_group, Dev.bindGroup_group]
  rfl

theorem Dev.complete_groupAt (d : Dev) (x : Desc) (status mt k : Nat) : (d.complete x status mt).groupAt k = d.groupAt k := by simp [Dev.groupAt]

/-- A field of a pairing descriptor is out of its range (Table 12.4). -/
def Desc.badPair (x : Desc) : Bool :=
  x.get 0x20 2 % 4 != 0 || x.get 0x20 2 > 252 || x.get 0x22 2 < 10 || x.get 0x22 2 > 10000 || x.get 0x24 2 < 100 || x.get 0x26 1 = 0 || x.get 0x26 1 > 8 || x.get 0x28 8 % 4096 != 0

theorem Desc.badPair_iff (x : Desc) : x.badPair = true ↔ (x.get 0x20 2 % 4 ≠ 0 ∨ 252 < x.get 0x20 2 ∨ x.get 0x22 2 < 10 ∨ 10000 < x.get 0x22 2 ∨ x.get 0x24 2 < 100 ∨ x.get 0x26 1 = 0 ∨
    8 < x.get 0x26 1 ∨ x.get 0x28 8 % 4096 ≠ 0) := by
  simp only [Desc.badPair, Bool.or_eq_true, bne_iff_ne, decide_eq_true_eq, gt_iff_lt, or_assoc]

theorem Dev.twinConfigure_unpaired (hs : d.twin.st = .unpaired) (hz : d.dozing = false) : d.twinConfigure x =
    d.checked x [(x.badPair, 0x04), (((List.range 4).any fun i => (d.groupOf (x.get 0x20 2 + i)).isSome) || d.octetFull (x.get 0x20 2 / 8) 112500000, 0x02)]
      ((d.linked4 x).complete x 0 0) := by
  have mine : (if d.twin.st == .rejected then d.unbindGroup d.twin.firstLane else d) = d := if_neg (by simp [hs])
  unfold Dev.twinConfigure
  dsimp only
  rw [mine, Dev.checked_next (by simp [hs, hz])]
  rfl

theorem Dev.twinConfigure_busy (h : d.twin.st = .linking ∨ d.twin.st = .paired ∨ d.twin.st = .partitioned ∨ d.dozing = true) : d.twinConfigure x = d.complete x 0x06 0 := by
  unfold Dev.twinConfigure
  dsimp only
  exact Dev.checked_first (by rcases h with h | h | h | h <;> simp [h])

theorem Dev.twinStop_parts (d : Dev) : d.twinStop.twin.st = .unpaired ∧ d.twinStop.twin.cfg = [] ∧ d.twinStop.twin.lanesUp = [] ∧ d.twinStop.flt.live.getLsbD 35 = false := by
  unfold Dev.twinStop
  dsimp only
  rw [Dev.setPair_twin, Dev.setPair_line]
  exact ⟨rfl, rfl, rfl, rfl⟩

end Pair

/-! ## The pairing record (R356) -/

section Pairing
variable {d : Dev} {l : Nat} {r : PairingRecord}

theorem Dev.capsDone_group (d : Dev) (l : Nat) (lanes : List Nat) : ((d.capsDone l lanes).groupAt l).stage = .active := by
  have put : (d.capsDone l lanes).groupAt l = (d.putGroupAt l { d.groupAt l with stage := .active, passed := [], been := true }).groupAt l := by
    refine (foldl_proj (fun e => e.groupAt l) ?_ _ _).trans rfl
    exact fun _ _ => rfl
  rw [put, Dev.groupAt_putGroupAt]

theorem Dev.capsDone_twin (d : Dev) (l : Nat) (lanes : List Nat) : (d.capsDone l lanes).twin = { d.twin with lanesUp := lanes } := by
  refine (foldl_proj (fun e => e.twin) ?_ _ _).trans rfl
  exact fun _ _ => rfl

theorem Dev.capsDone_trust (d : Dev) (l : Nat) (lanes : List Nat) : (d.capsDone l lanes).trust = d.trust := by
  refine (foldl_proj (fun e => e.trust) ?_ _ _).trans rfl
  exact fun _ _ => rfl

/-- The pair's state with the group, the trust engine and the fault word. -/
def Dev.pairingView (d : Dev) : (PairState × List Nat × Nat × List Byte) × Tab Group × Trust × Flt :=
  ((d.twin.st, d.twin.lanesUp, d.twin.cause, d.twin.meas0), d.group, d.trust, d.flt)

theorem Dev.emit_pairingView (d : Dev) (e : OutEv) : (d.emit e).pairingView = d.pairingView := by simp [Dev.pairingView]

theorem Dev.holdInternal_pairingView (d : Dev) (op n : Nat) : (d.holdInternal op n).pairingView = d.pairingView := by
  unfold Dev.holdInternal
  dsimp only
  split
  · rfl
  split
  · exact d.emit_pairingView _
  · exact d.emit_pairingView _

theorem Dev.tellChannel_pairingView (d : Dev) (n : Nat) : (d.tellChannel n).pairingView = d.pairingView := by
  unfold Dev.tellChannel
  split
  · exact d.emit_pairingView _
  · rfl

theorem Dev.wantCopy_pairingView (d : Dev) (n : Nat) : (d.wantCopy n).pairingView = d.pairingView := by
  unfold Dev.wantCopy
  dsimp only
  split
  · exact Dev.holdInternal_pairingView _ _ _
  · rfl

/-- The twin side of an accepted pair, before its channels are told of (R356). -/
def Dev.nowPaired (d : Dev) (r : PairingRecord) (rejoins : Bool) : Dev :=
  (Dev.extend { d with twin := { d.twin with
    cause := 0, meas0 := r.meas0, pairedAt := d.ctl.ticks, unheard := []
    chs := d.twin.chs.mapAll ({} : TwinCh) fun _ x => { x with partner := 0, partnerDig := none, owed := x.owed || (rejoins && x.split != 0) } } } 6 r.meas0).setPair .paired

theorem Dev.pairAccepted_view (d : Dev) (r : PairingRecord) (rejoins : Bool) : (d.pairAccepted r rejoins).pairingView = (d.nowPaired r rejoins).pairingView := by
  refine foldl_proj Dev.pairingView (fun e q => ?_) _ _
  split
  · rw [Dev.wantCopy_pairingView, Dev.tellChannel_pairingView]
  · exact e.tellChannel_pairingView q.1

/-- The half whose group has done CAPS, with its own record on the way (R356). -/
def Dev.capsAnswered (d : Dev) : Dev := (d.capsDone d.twin.firstLane ((List.range 4).map (d.twin.firstLane + ·))).sendPairing

theorem Dev.capsAnswered_parts (d : Dev) : d.capsAnswered.twin = { d.twin with lanesUp := (List.range 4).map (d.twin.firstLane + ·) } ∧ d.capsAnswered.trust = d.trust ∧
    (d.capsAnswered.groupAt d.twin.firstLane).stage = .active := by
  have frame := Dev.emit_frame (d.capsDone d.twin.firstLane ((List.range 4).map (d.twin.firstLane + ·)))
    (.twin 12 0 0 ([0xB0#8] ++ toLE 1 (b2n d.ctl.senior) ++ d.meas 0 ++ d.meas 1 ++ d.meas 2 ++ toLE 4 d.trust.bootCount ++ toLE 2 (fieldLE d.casc.cfg 0x20 2)))
  have sent (e : Dev) : e.sendPairing.twin = e.twin ∧ e.sendPairing.trust = e.trust ∧ e.sendPairing.group = e.group := by
    unfold Dev.sendPairing
    simp
  obtain ⟨htwin, htrust, hgroup⟩ := sent (d.capsDone d.twin.firstLane ((List.range 4).map (d.twin.firstLane + ·)))
  refine ⟨htwin.trans (Dev.capsDone_twin _ _ _), htrust.trans (Dev.capsDone_trust _ _ _), ?_⟩
  rw [Dev.capsAnswered, Dev.groupAt, hgroup]
  exact Dev.capsDone_group _ _ _

theorem Dev.pairing_linking (hs : d.twin.st = .linking) (hp : (d.groupAt d.twin.firstLane).proto = 3) (hg : (d.groupAt d.twin.firstLane).stage = .caps)
    (hr : (d.groupAt d.twin.firstLane).retryAt = none) (hh : d.twin.halt = false) (hd : d.halted = false) : d.pairing r =
    if d.rejectCause r = 0 then d.capsAnswered.pairAccepted r false
    else Dev.setPair { d.capsAnswered with twin := { d.capsAnswered.twin with cause := d.rejectCause r } } .rejected := by
  have unpaired : d.paired = false := by simp [Dev.paired, hs]
  unfold Dev.pairing Dev.judgePairing
  simp only [unpaired, Bool.false_and, Bool.false_eq_true, if_false, hs, hp, hg, hr, hh, hd]
  simp only [show (Stage.caps == Stage.caps) = true from rfl, if_true]
  rw [if_neg (by simp), if_neg (by simp)]
  by_cases hc : d.rejectCause r = 0
  · rw [if_neg (by simp [hc]), if_pos hc]
    rfl
  · rw [if_pos (by simp [hc]), if_neg hc]
    rfl

theorem Dev.nowPaired_parts (d : Dev) (r : PairingRecord) (rejoins : Bool) : let f := d.nowPaired r rejoins
    f.twin.st = .paired ∧ f.twin.lanesUp = d.twin.lanesUp ∧ f.twin.cause = 0 ∧ f.twin.meas0 = r.meas0 ∧ f.group = d.group ∧ f.flt.live.getLsbD 35 = false ∧
    f.trust.meas.get [] 6 = Config.shake256 (d.meas 6 ++ r.meas0) 64 := by
  have trust (e : Dev) : (e.setPair .paired).trust = e.trust ∧ (e.setPair .paired).group = e.group := by simp [Dev.setPair]
  dsimp only
  rw [Dev.nowPaired, Dev.setPair_line, Dev.setPair_twin, (trust _).1, (trust _).2]
  exact ⟨rfl, rfl, rfl, rfl, rfl, rfl, Tab.get_put_same _ _ _ _⟩

theorem Dev.pairingView_parts {d e : Dev} (h : e.pairingView = d.pairingView) : e.twin.st = d.twin.st ∧ e.twin.lanesUp = d.twin.lanesUp ∧ e.twin.cause = d.twin.cause ∧
    e.twin.meas0 = d.twin.meas0 ∧ e.group = d.group ∧ e.trust = d.trust ∧ e.flt = d.flt := by
  simpa only [Dev.pairingView, Prod.mk.injEq, and_assoc] using h

theorem Dev.rejectCause_eq (d : Dev) (r : PairingRecord) : d.rejectCause r = if r.senior = d.ctl.senior then 1 else if r.revision ≠ 0xB0 then 2
    else if r.meas0 ≠ d.meas 0 ∨ r.meas1 ≠ d.meas 1 ∨ r.meas2 ≠ d.meas 2 then 3 else 0 := by
  unfold Dev.rejectCause
  simp only [beq_iff_eq, bne_iff_ne, Bool.or_eq_true, or_assoc]

/-- What the judgement of a pairing record leaves: the pair, its line, its group and what it measures. -/
theorem Dev.pairing_parts (hs : d.twin.st = .linking) (hp : (d.groupAt d.twin.firstLane).proto = 3) (hg : (d.groupAt d.twin.firstLane).stage = .caps)
    (hr : (d.groupAt d.twin.firstLane).retryAt = none) (hh : d.twin.halt = false) (hd : d.halted = false) :
    let f := d.pairing r
    f.twin.cause = d.rejectCause r ∧ f.twin.st = (if d.rejectCause r = 0 then .paired else .rejected) ∧ f.flt.live.getLsbD 35 = decide (d.rejectCause r ≠ 0) ∧
    (f.groupAt d.twin.firstLane).stage = .active ∧ f.twin.lanesUp = (List.range 4).map (d.twin.firstLane + ·) ∧
    (d.rejectCause r = 0 → f.twin.meas0 = r.meas0 ∧ f.trust.meas.get [] 6 = Config.shake256 (d.meas 6 ++ r.meas0) 64) := by
  obtain ⟨htwin, htrust, hgroup⟩ := d.capsAnswered_parts
  dsimp only
  rw [Dev.pairing_linking hs hp hg hr hh hd]
  generalize d.capsAnswered = e at *
  by_cases hc : d.rejectCause r = 0
  · obtain ⟨hst, hlanes, hcause, hmeas, hgroups, htr, hflt⟩ := Dev.pairingView_parts (e.pairAccepted_view r false)
    obtain ⟨nst, nlanes, ncause, nmeas, ngroup, nline, nslot⟩ := e.nowPaired_parts r false
    have slot : e.meas 6 = d.meas 6 := by rw [Dev.meas, Dev.meas, htrust]
    rw [if_pos hc, if_pos hc, hst, hlanes, hcause, hmeas, htr, hflt, Dev.groupAt, hgroups, nst, nlanes, ncause, nmeas, ngroup, nline, nslot, slot, htwin]
    exact ⟨hc.symm, rfl, by simp [hc], hgroup, rfl, fun _ => ⟨rfl, rfl⟩⟩
  · rw [if_neg hc, if_neg hc, Dev.setPair_twin, Dev.setPair_line, Dev.setPair_group]
    exact ⟨rfl, rfl, by simp [hc], hgroup, congrArg Twin.lanesUp htwin, fun h => absurd h hc⟩

end Pairing

/-- Settles O44: the pair's parts after CONFIGURE, UNPAIR, RESYNC, a pairing record and a dead link. -/
theorem pairingAndPartition : Obligations.PairingAndPartition := by
  unfold Obligations.PairingAndPartition
  intro s x e r
  dsimp only
  refine ⟨fun ht => ⟨fun hs => ?_, fun hs hz => ⟨fun hb => ?_, fun hb hc => ?_, fun hb hg ho => ?_⟩⟩, fun ht => ⟨fun hb => ?_, fun hb => ?_⟩,
    fun ht => ⟨fun hn => ?_, fun hp hr htw => ?_⟩, fun hc hi hs hp hg hr hh hd => ?_, fun hn => ?_, fun hp hdead => ?_, fun hp hl hh hi => ?_, fun hc hi hp => ?_⟩
  · exact congrArg (ok s) ((ht.runUnit Dev.twinConfigure).trans (Dev.twinConfigure_busy hs))
  · exact congrArg (ok s) ((ht.runUnit Dev.twinConfigure).trans ((Dev.twinConfigure_unpaired hs hz).trans (Dev.checked_first (x.badPair_iff.mpr hb))))
  · refine congrArg (ok s) ((ht.runUnit Dev.twinConfigure).trans ((Dev.twinConfigure_unpaired hs hz).trans ((Dev.checked_next ?_).trans (Dev.checked_first ?_))))
    · exact Bool.eq_false_iff.mpr fun h => hb (x.badPair_iff.mp h)
    · rw [Bool.or_eq_true, List.any_eq_true]
      refine hc.imp_left fun ⟨i, hi, hg⟩ => ⟨i, List.mem_range.mpr hi, Option.isSome_iff_ne_none.mpr hg⟩
  · have accepted : e.twinConfigure x = (e.linked4 x).complete x 0 0 := by
      refine (Dev.twinConfigure_unpaired hs hz).trans ((Dev.checked_next ?_).trans (Dev.checked_next ?_))
      · exact Bool.eq_false_iff.mpr fun h => hb (x.badPair_iff.mp h)
      · rw [ho, Bool.or_false, List.any_eq_false]
        exact fun i hi => by simp [hg i (List.mem_range.mp hi)]
    refine ⟨_, congrArg (ok s) ((ht.runUnit Dev.twinConfigure).trans accepted), ?_⟩
    obtain ⟨htwin, hline⟩ := Dev.pairView_parts ((e.linked4 x).complete_pairView x 0 0)
    have group (k : Nat) : ((e.linked4 x).complete x 0 0).groupAt k = _ := (Dev.complete_groupAt _ _ _ _ k).trans (e.linked4_group x k)
    rw [htwin, hline, e.linked4_twin, e.linked4_line, group]
    exact ⟨rfl, rfl, rfl, if_pos rfl, fun k hk => (group k).trans (if_neg hk), rfl⟩
  · exact congrArg (ok s) ((ht.runUnit Dev.twinUnpair).trans (Dev.checked_first hb))
  · refine ⟨_, congrArg (ok s) ((ht.runUnit Dev.twinUnpair).trans (Dev.checked_next hb)), ?_⟩
    obtain ⟨htwin, hline⟩ := Dev.pairView_parts (e.twinStop.complete_pairView x stOK 0)
    rw [Dev.checked_nil, htwin, hline]
    exact e.twinStop_parts
  · refine congrArg (ok s) ((ht.runUnit Dev.twinResync).trans (Dev.checked_first ?_))
    by_contra pass
    exact hn (by simpa [Dev.paired, and_assoc] using pass)
  · refine ⟨_, congrArg (ok s) ((ht.runUnit Dev.twinResync).trans (Dev.checked_next ?_)), ?_⟩
    · simp [Dev.paired, hp, hr, htw]
    obtain ⟨htwin, -⟩ := Dev.pairView_parts (((e.emit (.twin 16 (x.get 0x20 2) (e.channel (x.get 0x20 2)).nextRelease [])).diverge (x.get 0x20 2)
      (e.channel (x.get 0x20 2)).nextRelease).complete_pairView x stOK 0)
    have told (k : Nat) : (e.emit (.twin 16 (x.get 0x20 2) (e.channel (x.get 0x20 2)).nextRelease [])).twinCh k = e.twinCh k := Dev.twinCh_of_twin (by simp) k
    rw [Dev.checked_nil]
    have here (k : Nat) := Dev.twinCh_of_twin htwin k
    rw [here, Dev.diverge_twinCh, told]
    exact ⟨rfl, TwinCh.mismatched_episodes _ (e.channel (x.get 0x20 2)).nextRelease, rfl, rfl, fun k hk => (here k).trans ((Dev.diverge_twinCh_other _ _ hk).trans (told k))⟩
  · have parts := Dev.pairing_parts (d := s.dev.heard) (r := r) hs hp hg hr hh hd
    rw [Dev.rejectCause_eq] at parts
    exact ⟨_, congrArg (ok s) (Dev.fromPartner_hears hc hi), parts⟩
  · refine congrArg (ok s) (if_pos ?_)
    simpa using hn
  · refine ⟨_, congrArg (ok s) ((if_neg (by simp [hp])).trans (if_pos ?_)), ?_⟩
    · rcases hdead with h | h <;> simp [h]
    · obtain ⟨hst, hmt, -, hline⟩ := Dev.partition_parts (d := s.dev) (by simp [Dev.paired, hp])
      exact ⟨hst, hmt, hline⟩
  · refine congrArg (ok s) ((if_pos (by simp [hp])).trans ((if_neg (by simp [hl])).trans (if_pos ?_)))
    simp [hp, hh, hi]
  · obtain ⟨hst, hmt, hhalt, hline⟩ := Dev.partition_parts (d := { s.dev.heard with twin := { s.dev.heard.twin with halt := true } }) (by simp [Dev.paired, Dev.heard, Dev.nextFree, hp])
    exact ⟨_, congrArg (ok s) (Dev.fromPartner_hears hc hi), hhalt, hst, hmt, hline⟩

end Sys2Proof.Machine

/-! # The packager (chapter 13) -/

namespace Sys2Proof.Machine

/-! ## One packet (R400, R402, R413) -/

section OnePacket
variable {d : Dev} {k : Nat} {x : PktCtx} {body : List Byte}

/-- The frame of a flow's datagram on its first queue. -/
def Dev.frameA (d : Dev) (k : Nat) (body : List Byte) : List Byte := (d.flowAt k).frame false (Config.portMac (d.queueAt (d.flowAt k).queueA).port) 0 body

/-- The packet of a flow with a single queue, as it is handed over. -/
def Dev.packetA (d : Dev) (k : Nat) (x : PktCtx) (body : List Byte) : Packet :=
  { flow := k, copyB := false, fec := false, udp := body.length, frame := (d.frameA k body).length + 4, mt := x.mt, num := x.num, den := x.den, idx := (d.flowAt k).pktIdx
    opens := x.opens, covers := x.covers, bytes := d.frameA k body }

/-- A flow that has built one more packet. -/
def Flow.built (f : Flow) : Flow := { f with pkts := (f.pkts + 1) % 2 ^ 32, pktIdx := f.pktIdx + 1 }

/-- A packet whose picture is muted is withheld and counted. -/
theorem Dev.sendPacket_muted (hm : x.muted = true) (hp : x.pad = false) :
    d.sendPacket k x false 0 body = (d.tapUnit 2 k (some x.mt) body true).putFlowAt k { (d.flowAt k).built with muted := min 65535 ((d.flowAt k).muted + 1) } := by
  unfold Dev.sendPacket
  dsimp only
  rw [if_pos hm, hm, hp, Bool.true_or, Bool.true_or]
  rfl

/-- A packet that the buffer has room for goes to its queue. -/
theorem Dev.sendPacket_fits (hq : (d.flowAt k).queueB = 0xFFFF) (hm : x.muted = false) (hl : x.lost = false) (hp : x.pad = false)
    (hf : (d.flowAt k).full ≠ some x.mt) (hb : (d.flowAt k).buffered + (d.packetA k x body).frame ≤ (d.flowAt k).get 0x40 4) :
    d.sendPacket k x false 0 body =
    ({ d.tapUnit 2 k (some x.mt) body false with tmIn := d.tmIn ++ [((d.flowAt k).queueA, d.packetA k x body)] } : Dev).putFlowAt k
      { (d.flowAt k).built with buffered := (d.flowAt k).buffered + (d.packetA k x body).frame } := by
  have fits : ((d.flowAt k).full != some x.mt && decide ((d.flowAt k).buffered + ((d.frameA k body).length + 4) ≤ (d.flowAt k).get 0x40 4)) = true := by
    simpa [Dev.packetA, hf] using hb
  unfold Dev.frameA at fits
  unfold Dev.sendPacket
  simp only [hq, if_true, List.map_cons, List.map_nil, List.sum_cons, List.sum_nil, Nat.add_zero, hm, hl, hp, fits, Bool.false_eq_true, if_false, Bool.false_or, Bool.not_true]
  rfl

/-- The same of a flow whose state is at hand. -/
theorem Dev.putFlowAt_sendPacket_muted {w : Flow} (hm : x.muted = true) (hp : x.pad = false) : (d.putFlowAt k w).sendPacket k x false 0 body =
    { d.putFlowAt k { w.built with muted := min 65535 (w.muted + 1) } with chk := (d.tapUnit 2 k (some x.mt) body true).chk } := by
  have put (y z : Flow) : ((d.putFlowAt k y).tapUnit 2 k (some x.mt) body true).putFlowAt k z =
      { (d.putFlowAt k y).putFlowAt k z with chk := (d.tapUnit 2 k (some x.mt) body true).chk } := rfl
  rw [Dev.sendPacket_muted hm hp, Dev.flowAt_putFlowAt, put, Dev.putFlowAt_putFlowAt]

/-- The packet of a flow with a given state. -/
def Flow.packet (w : Flow) (mac k : Nat) (x : PktCtx) (body : List Byte) : Packet :=
  { flow := k, copyB := false, fec := false, udp := body.length, frame := (w.frame false mac 0 body).length + 4, mt := x.mt, num := x.num, den := x.den, idx := w.pktIdx
    opens := x.opens, covers := x.covers, bytes := w.frame false mac 0 body }

theorem Dev.putFlowAt_sendPacket_fits {w : Flow} (hq : w.queueB = 0xFFFF) (hm : x.muted = false) (hl : x.lost = false) (hp : x.pad = false) (hf : w.full ≠ some x.mt)
    (hb : w.buffered + ((w.frame false (Config.portMac (d.queueAt w.queueA).port) 0 body).length + 4) ≤ w.get 0x40 4) : (d.putFlowAt k w).sendPacket k x false 0 body =
    { d.putFlowAt k { w.built with buffered := w.buffered + ((w.frame false (Config.portMac (d.queueAt w.queueA).port) 0 body).length + 4) } with
      chk := (d.tapUnit 2 k (some x.mt) body false).chk, tmIn := d.tmIn ++ [(w.queueA, w.packet (Config.portMac (d.queueAt w.queueA).port) k x body)] } := by
  have flow : (d.putFlowAt k w).flowAt k = w := Dev.flowAt_putFlowAt _ _ _
  have frame : (d.putFlowAt k w).frameA k body = w.frame false (Config.portMac (d.queueAt w.queueA).port) 0 body := by
    rw [Dev.frameA, flow]
    rfl
  have packet : (d.putFlowAt k w).packetA k x body = w.packet (Config.portMac (d.queueAt w.queueA).port) k x body := by
    rw [Dev.packetA, frame, flow]
    rfl
  have put (y z : Flow) (ps : List (Nat × Packet)) : ({ (d.putFlowAt k y).tapUnit 2 k (some x.mt) body false with tmIn := ps } : Dev).putFlowAt k z =
      { (d.putFlowAt k y).putFlowAt k z with chk := (d.tapUnit 2 k (some x.mt) body false).chk, tmIn := ps } := rfl
  rw [Dev.sendPacket_fits (by rw [flow]; exact hq) hm hl hp (by rw [flow]; exact hf) (by rw [flow, packet]; exact hb), flow, packet, put, Dev.putFlowAt_putFlowAt]
  rfl

end OnePacket

/-! ## Records (R397, R402) -/

section Records
variable {d : Dev} {n len : Nat} {r : EsRec} {rest : List EsRec}

theorem Dev.memRead_length (d : Dev) (a n : Nat) : (d.memRead a n).length = n := by simp [Dev.memRead_eq]

/-- A media packet of an RTP flow (R399, R401). -/
theorem Dev.sendMedia_rtp {k ts : Nat} {x : PktCtx} {marker : Bool} {body : List Byte} (hk : (d.flowAt k).kind = 0) (hx : x.mode0 = false) (ho : x.opens = none) :
    d.sendMedia k x marker ts body = (d.putFlowAt k { d.flowAt k with count := ((d.flowAt k).count + 1) % 2 ^ 64 }).sendPacket k x false 0
      (rtpHeader ((d.flowAt k).get 0x26 1) marker ((d.flowAt k).get 0x2C 2 + (d.flowAt k).count) ts ((d.flowAt k).get 0x28 4) ++ body) := by
  have same : { x with mode0 := false, opens := none } = x := by rw [← ho, ← hx]
  unfold Dev.sendMedia
  dsimp only
  rw [hx, if_neg Bool.false_ne_true, same, if_neg (show ¬ (d.flowAt k).kind = 2 by simp [hk]), if_neg (by simp [hk])]

/-- What the packets of a record share. -/
def Chan.packetCtx (c : Chan) (r : EsRec) : PktCtx := { mt := r.mt, num := c.num, den := c.den, muted := r.muted, lost := r.lost }

theorem Dev.packetise_unbound (hr : (d.channel n).records = r :: rest) (hb : d.bound n (d.channel n).flow = false) :
    d.packetise n = d.putChannel n { d.channel n with records := rest } := by
  unfold Dev.packetise
  dsimp only
  rw [hr]
  dsimp only
  rw [if_pos (by simp [hb])]

/-- The RTP packet of a record's one NAL unit (R399, R401). -/
def Dev.rtpBody (d : Dev) (n : Nat) (r : EsRec) (len : Nat) : List Byte :=
  let c := d.channel n
  let w := d.flowAt c.flow
  rtpHeader (w.get 0x26 1) (bitN r.flags 1) (w.get 0x2C 2 + w.count) (w.get 0x30 4 + r.mt * 9 / 100000) (w.get 0x28 4) ++ d.memRead (c.esAddr + r.at_ + 36) len

/-- A record of one NAL unit that fits into a packet of an RTP flow. -/
theorem Dev.packetise_single (hr : (d.channel n).records = r :: rest) (hb : d.bound n (d.channel n).flow = true) (hl : r.lost = false) (hf : bitN r.flags 0 = false)
    (ht : (d.flowAt (d.channel n).flow).tsBase = some ((d.channel n).mt (d.channel n).k0)) (hk : (d.flowAt (d.channel n).flow).kind = 0) (hc : (d.channel n).codec ≠ 3)
    (hn : r.nals = [len]) (hm : len ≤ (d.flowAt (d.channel n).flow).maxPayload) :
    let c := d.channel n
    let w := d.flowAt c.flow
    d.packetise n = ((d.putChannel n { c with records := rest }).putFlowAt c.flow { w with count := (w.count + 1) % 2 ^ 64 }).sendPacket c.flow (c.packetCtx r) false 0 (d.rtpBody n r len) := by
  have whole : ({ d.flowAt (d.channel n).flow with } : Flow).rebase ((d.channel n).mt (d.channel n).k0) = d.flowAt (d.channel n).flow := if_pos ht
  have nal (c : Chan) (k : Nat) (w : Flow) : ((d.putChannel n c).putFlowAt k w).recordNals (d.channel n) r = [d.memRead ((d.channel n).esAddr + r.at_ + 36) len] := by
    rw [Dev.recordNals, hn]
    rfl
  have packet (final : Bool) : nalPackets (d.channel n).codec (d.flowAt (d.channel n).flow).maxPayload final (d.memRead ((d.channel n).esAddr + r.at_ + 36) len) =
      [d.memRead ((d.channel n).esAddr + r.at_ + 36) len] := by
    unfold nalPackets
    exact if_pos (by rw [Dev.memRead_length]; exact hm)
  have kept : (d.putChannel n { d.channel n with records := rest }).flowAt (d.channel n).flow = d.flowAt (d.channel n).flow := rfl
  dsimp only
  unfold Dev.packetise
  dsimp only
  rw [hr]
  dsimp only
  rw [if_neg (by simp [hb]), hl, if_neg Bool.false_ne_true, hf, if_neg Bool.false_ne_true, Dev.modFlowAt_eq, kept, whole, Dev.flowAt_putFlowAt, if_pos hk, nal]
  unfold Dev.packKind0
  dsimp only
  rw [if_neg hc, Dev.flowAt_putFlowAt]
  simp only [List.zipIdx_cons, List.zipIdx_nil, List.flatMap_cons, List.flatMap_nil, packet, List.append_nil, List.foldl_cons, List.foldl_nil, List.length_singleton]
  rw [Dev.sendMedia_rtp (by rw [Dev.flowAt_putFlowAt]; exact hk) rfl rfl, Dev.flowAt_putFlowAt, Dev.putFlowAt_putFlowAt]
  rw [Chan.packetCtx, hl, show (bitN r.flags 1 && (0 + 1 == 0 + 1)) = bitN r.flags 1 from Bool.and_true _]
  rfl

/-- The device after a record of a channel has become packets of a flow. -/
def Dev.packed (d : Dev) (n k : Nat) (c : Chan) (z : Flow) (chk : Tab Chk) (ps : List (Nat × Packet)) : Dev :=
  { (d.putChannel n c).putFlowAt k z with chk := chk, tmIn := ps }

theorem Dev.packed_parts (d : Dev) (n k : Nat) (c : Chan) (z : Flow) (chk : Tab Chk) (ps : List (Nat × Packet)) : let g := d.packed n k c z chk ps
    g.tmIn = ps ∧ g.flowAt k = z ∧ (∀ j, j ≠ k → g.flowAt j = d.flowAt j) ∧ g.channel n = c ∧ g = { d with chan := g.chan, flow := g.flow, tmIn := ps, chk := chk } :=
  ⟨rfl, Dev.flowAt_putFlowAt _ _ _, fun _ hj => Dev.flowAt_putFlowAt_other (d.putChannel n c) z hj, Dev.channel_putChannel d n c, rfl⟩

/-- A flow that has counted one more media packet. -/
def Flow.counted (w : Flow) : Flow := { w with count := (w.count + 1) % 2 ^ 64 }

theorem Dev.packetise_muted (hr : (d.channel n).records = r :: rest) (hb : d.bound n (d.channel n).flow = true) (hl : r.lost = false) (hf : bitN r.flags 0 = false)
    (ht : (d.flowAt (d.channel n).flow).tsBase = some ((d.channel n).mt (d.channel n).k0)) (hk : (d.flowAt (d.channel n).flow).kind = 0) (hc : (d.channel n).codec ≠ 3)
    (hn : r.nals = [len]) (hm : len ≤ (d.flowAt (d.channel n).flow).maxPayload) (hmu : r.muted = true) :
    let c := d.channel n
    let w := d.flowAt c.flow
    d.packetise n = d.packed n c.flow { c with records := rest } { w.counted.built with muted := min 65535 (w.muted + 1) }
      (d.tapUnit 2 c.flow (some r.mt) (d.rtpBody n r len) true).chk d.tmIn :=
  (Dev.packetise_single hr hb hl hf ht hk hc hn hm).trans (Dev.putFlowAt_sendPacket_muted hmu rfl)

theorem Dev.packetise_sent (hr : (d.channel n).records = r :: rest) (hb : d.bound n (d.channel n).flow = true) (hl : r.lost = false) (hf : bitN r.flags 0 = false)
    (ht : (d.flowAt (d.channel n).flow).tsBase = some ((d.channel n).mt (d.channel n).k0)) (hk : (d.flowAt (d.channel n).flow).kind = 0) (hc : (d.channel n).codec ≠ 3)
    (hn : r.nals = [len]) (hm : len ≤ (d.flowAt (d.channel n).flow).maxPayload) (hmu : r.muted = false) (hq : (d.flowAt (d.channel n).flow).queueB = 0xFFFF) :
    let c := d.channel n
    let w := d.flowAt c.flow
    let mac := Config.portMac (d.queueAt w.queueA).port
    let need := (w.frame false mac 0 (d.rtpBody n r len)).length + 4
    w.full ≠ some r.mt → w.buffered + need ≤ w.get 0x40 4 →
    d.packetise n = d.packed n c.flow { c with records := rest } { w.counted.built with buffered := w.buffered + need }
      (d.tapUnit 2 c.flow (some r.mt) (d.rtpBody n r len) false).chk (d.tmIn ++ [(w.queueA, w.counted.packet mac c.flow (c.packetCtx r) (d.rtpBody n r len))]) :=
  fun hfull hroom => (Dev.packetise_single hr hb hl hf ht hk hc hn hm).trans (Dev.putFlowAt_sendPacket_fits hq hmu hl rfl hfull hroom)

end Records

/-- The first audio packet of a flow, when it is due (R412). -/
theorem Dev.forwardAudio_sent {d : Dev} {k m : Nat} {bs : List Byte} {rest : List (Nat × List Byte)} (ha : (d.flowAt k).audio = (m, bs) :: rest) (hk : (d.flowAt k).kind = 3)
    (hq : (d.flowAt k).queueB = 0xFFFF) (hd : m + (d.flowAt k).get 0x5C 4 ≤ d.cadence) (hf : (d.flowAt k).full ≠ some m) :
    let w := d.flowAt k
    let mac := Config.portMac (d.queueAt w.queueA).port
    w.buffered + (w.frame false mac 0 bs).length + 4 ≤ w.get 0x40 4 →
    d.forwardAudio k = { d.putFlowAt k { ({ w with audio := rest } : Flow).counted.built with buffered := w.buffered + (w.frame false mac 0 bs).length + 4 } with
      chk := (d.tapUnit 2 k (some m) bs false).chk, tmIn := d.tmIn ++ [(w.queueA, w.packet mac k { mt := m } bs)] } := by
  intro w mac hb
  unfold Dev.forwardAudio
  dsimp only
  rw [ha]
  dsimp only
  rw [if_pos (by simp [hk, hd])]
  exact Dev.putFlowAt_sendPacket_fits (w := ({ w with audio := rest } : Flow).counted) hq rfl rfl rfl hf hb

/-! ## The PKG unit (R415, R416) -/

section Descriptors
variable {d : Dev} {x : Desc} {n : Nat}

theorem pkgBadField_of (h : 3 < x.get 0x22 1 ∨ 2 < x.get 0x23 1 ∨ 63 < x.get 0x24 1 ∨ x.get 0x25 1 = 0 ∨ (x.get 0x22 1 = 1 ∧ x.get 0x26 1 ≠ 33) ∨ x.get 0x38 8 % 4096 ≠ 0 ∨
    x.get 0x40 4 % 65536 ≠ 0 ∨ x.get 0x40 4 < 262144) : pkgBadField x = true := by
  unfold pkgBadField
  dsimp only
  rcases h with h | h | h | h | ⟨h, h'⟩ | h | h | h
  · simp only [gt_iff_lt, h, decide_true, Bool.true_or]
  · simp only [gt_iff_lt, h, decide_true, Bool.true_or, Bool.or_true]
  · simp only [gt_iff_lt, h, decide_true, Bool.true_or, Bool.or_true]
  · simp only [h, decide_true, Bool.true_or, Bool.or_true]
  · simp only [h, bne_iff_ne.mpr h', Bool.true_or, Bool.or_true]
  · simp only [bne_iff_ne.mpr h, Bool.true_or, Bool.or_true]
  · simp only [bne_iff_ne.mpr h, Bool.true_or, Bool.or_true]
  · simp only [h, decide_true, Bool.true_or, Bool.or_true]

/-- A SPLICE for a flow that carries no running transport stream with cues is refused (R410). -/
theorem Dev.pkgSplice_busy (h : (d.flowAt (x.get 0x20 2)).kind = 0 ∨ (d.flowAt (x.get 0x20 2)).kind = 3 ∨ (d.flowAt (x.get 0x20 2)).pidScte = 0 ∨ d.carried (x.get 0x20 2) = none) :
    d.pkgSplice x = d.complete x 0x06 0 := by
  unfold Dev.pkgSplice
  dsimp only
  refine Dev.checked_first ?_
  rcases h with h | h | h | h <;> simp [h]

theorem Dev.twinCheck_timed {obj : Nat} (h : x.eff ≠ 0) : d.twinCheck x obj = none := if_pos (by simpa using h)

theorem Desc.spliceOk (ht : x.get 0x22 1 = 1 ∨ x.get 0x22 1 = 3 ∨ x.get 0x22 1 = 5) (hm : x.eff ≤ x.get 0x28 8) :
    (!(x.get 0x22 1 == 1 || x.get 0x22 1 == 3 || x.get 0x22 1 == 5) || decide (x.get 0x28 8 < x.eff)) = false := by
  rcases ht with h | h | h <;> simp [h, hm]

/-- A SPLICE for one that does is checked further, and then waits. -/
theorem Dev.pkgSplice_running (hk : (d.flowAt (x.get 0x20 2)).kind = 1 ∨ (d.flowAt (x.get 0x20 2)).kind = 2) (hs : (d.flowAt (x.get 0x20 2)).pidScte ≠ 0)
    (hc : d.carried (x.get 0x20 2) = some n) (hr : (d.channel n).st = .running) : d.pkgSplice x =
    let tw := if d.twinnedChannel n then d.twinCheck x (x.get 0x20 2) else none
    d.checked x [(!(x.get 0x22 1 == 1 || x.get 0x22 1 == 3 || x.get 0x22 1 == 5) || decide (x.get 0x28 8 < x.eff), 0x04), (tw.isSome, tw.getD 0)]
      (d.holdPend x (x.get 0x20 2) (d.channel n).packed (d.channel n).packAhead (d.twinnedChannel n)) := by
  have twinned : d.twinnedFlow (x.get 0x20 2) = d.twinnedChannel n := by rw [Dev.twinnedFlow, hc]
  unfold Dev.pkgSplice
  dsimp only
  rw [Dev.checked_next, twinned, hc]
  · rfl
  · rw [hc]
    rcases hk with h | h <;> simp [h, hs, hr]

end Descriptors

/-- Settles O47: descriptors by their checks in order; a record and an audio packet by the one packet that they become. -/
theorem packaging : Obligations.Packaging := by
  unfold Obligations.Packaging
  intro s x e
  dsimp only
  have run {u op : Nat} {sp : Dev → Desc → OpSpec} {i : Instr} {f : Dev → Desc → Dev} {k : Dev} (ht : s.dev.Takes u op sp x e)
      (hx : exec i s = ok s (s.dev.runUnit u op sp f)) (h : f e x = k) : exec i s = .next { s with dev := k } := hx.trans (congrArg (ok s) ((ht.runUnit f).trans h))
  refine ⟨fun ht => ⟨fun hf => ?_, fun hf => ⟨fun hb => ?_, fun hb => ⟨fun hr => ?_, fun hk hr => ?_⟩⟩⟩, fun ht => ⟨fun hu => ?_, fun hu hp => ?_⟩,
    fun ht => ⟨fun hf => ?_, fun n hk hs hc hr => ⟨fun hb => ?_, fun htype hmt => ⟨fun h0 htw hst => ?_, fun h0 htw => ?_, fun h1 hpass => ?_, fun h1 hpass => ⟨fun hst => ?_, fun hst => ?_⟩⟩⟩⟩,
    fun n r rest hr => ⟨fun hb => ?_, fun len hb hl hf ht hk hc hn hm hq => ⟨fun hmu => ?_, fun hmu hfull hroom => ?_⟩⟩, fun k m bs rest ha hk hq => ⟨fun hd => ?_, fun hd hfull hroom => ?_⟩⟩
  · exact run ht rfl (Dev.checked_first hf)
  · exact run ht rfl ((Dev.checked_next hf).trans (Dev.checked_first (pkgBadField_of hb)))
  · refine run ht rfl ((Dev.checked_next hf).trans ((Dev.checked_next hb).trans (Dev.checked_next ?_)))
    rcases hr with h | h <;> simp [h]
  · exact run ht rfl ((Dev.checked_next hf).trans ((Dev.checked_next hb).trans (Dev.checked_first (by simp [hk, hr]))))
  · refine run ht rfl (Dev.checked_first (List.any_eq_true.mpr ?_))
    obtain ⟨q, hq, hst, hfl⟩ := hu
    exact ⟨q, hq, by rcases hst with h | h <;> simp [h, hfl]⟩
  · have unused : (e.chan.any fun q => (q.2.st == .running || q.2.st == .stopping) && q.2.flow == x.get 0x20 2) = false := by
      refine List.any_eq_false.mpr fun q hq => ?_
      by_cases hfl : q.2.flow = x.get 0x20 2
      · simp [hu q hq hfl]
      · simp [hfl]
    refine run ht rfl ((Dev.checked_next unused).trans ?_)
    rw [Dev.checked_nil, Dev.abortPend_none fun p h => by simp [hp p h]]
    rfl
  · exact run ht rfl (Dev.pkgSplice_busy hf)
  · refine run ht rfl ((Dev.pkgSplice_running hk hs hc hr).trans (Dev.checked_first ?_))
    rcases hb with ⟨h1, h3, h5⟩ | h
    · simp [h1, h3, h5]
    · simp [h]
  · refine run ht rfl ((Dev.pkgSplice_running hk hs hc hr).trans ((Dev.checked_next (Desc.spliceOk htype hmt)).trans ?_))
    have split : e.twinCheck x (x.get 0x20 2) = some 0x03 := by
      unfold Dev.twinCheck
      rw [if_neg (by simp [h0]), if_pos hst]
      rfl
    rw [htw, if_pos rfl, split]
    exact Dev.checked_first rfl
  · refine run ht rfl ((Dev.pkgSplice_running hk hs hc hr).trans ((Dev.checked_next (Desc.spliceOk htype hmt)).trans ?_))
    rcases htw with htw | ⟨hsp, hpa⟩
    · rw [htw, if_neg Bool.false_ne_true]
      exact (Dev.checked_next rfl).trans (Dev.holdPend_untimed h0 rfl)
    · have passed : e.twinCheck x (x.get 0x20 2) = none := by
        unfold Dev.twinCheck
        rw [if_neg (by simp [h0]), if_neg hsp, if_neg (by simp [hpa])]
      rw [passed, ite_self]
      refine (Dev.checked_next rfl).trans ?_
      unfold Dev.holdPend
      dsimp only
      rw [Dev.checked_nil, if_neg (by simp [h0]), if_neg (by simp [hpa])]
  · refine run ht rfl ((Dev.pkgSplice_running hk hs hc hr).trans ((Dev.checked_next (Desc.spliceOk htype hmt)).trans ?_))
    rw [Dev.twinCheck_timed h1, ite_self]
    refine (Dev.checked_next rfl).trans ((Dev.holdPend_timed h1 (by simp [hpass])).trans ?_)
    rw [hpass]
    rfl
  · refine run ht rfl ((Dev.pkgSplice_running hk hs hc hr).trans ((Dev.checked_next (Desc.spliceOk htype hmt)).trans ?_))
    rw [Dev.twinCheck_timed h1, ite_self]
    exact (Dev.checked_next rfl).trans (Dev.holdPend_strict h1 hpass hst)
  · refine run ht rfl ((Dev.pkgSplice_running hk hs hc hr).trans ((Dev.checked_next (Desc.spliceOk htype hmt)).trans ?_))
    rw [Dev.twinCheck_timed h1, ite_self]
    refine (Dev.checked_next rfl).trans ((Dev.holdPend_timed h1 (by simp [hst])).trans ?_)
    rw [hpass]
    rfl
  · exact congrArg (ok s) (Dev.packetise_unbound hr hb)
  · exact ⟨_, congrArg (ok s) (Dev.packetise_muted hr hb hl hf ht hk hc hn hm hmu), Dev.packed_parts _ _ _ _ _ _ _⟩
  · exact ⟨_, congrArg (ok s) (Dev.packetise_sent hr hb hl hf ht hk hc hn hm hmu hq hfull hroom), Dev.packed_parts _ _ _ _ _ _ _⟩
  · refine congrArg (ok s) ?_
    unfold Dev.forwardAudio
    dsimp only
    rw [ha]
    dsimp only
    rw [if_neg (by simp [hd])]
  · exact ⟨_, congrArg (ok s) (Dev.forwardAudio_sent ha hk hq hd hfull hroom), rfl, Dev.flowAt_putFlowAt _ _ _, fun j hj => Dev.flowAt_putFlowAt_other s.dev _ hj, rfl⟩

end Sys2Proof.Machine

/-! # Traffic management: descriptors (R428, R437, R444, R445, R448, R449) -/

namespace Sys2Proof.Machine

/-! ## QUEUE, SHAPE and RELEASE -/

section Queues
variable {d : Dev} {x : Desc}

/-- Nothing pending is the unit's. -/
theorem Dev.abortPend_tm {sel : Pend → Bool} (h : ∀ p ∈ d.pend, p.unit ≠ 7) (hs : ∀ p, sel p = true → p.unit = 7) : d.abortPend sel = d :=
  Dev.abortPend_none fun p hp => Bool.eq_false_iff.mpr fun hsel => h p hp (hs p hsel)

/-- The fields of a QUEUE descriptor are within Table 14.3. -/
def Desc.queueOk (x : Desc) : Prop :=
  x.get 0x23 1 ≤ 7 ∧ 1 ≤ x.get 0x24 2 ∧ x.get 0x24 2 ≤ 4096 ∧ shaperOk (x.get 0x28 4) (x.get 0x2C 4) = true ∧ 16384 ≤ x.get 0x30 4 ∧ x.get 0x30 4 ≤ 67108864 ∧
    ((x.get 0x26 1 = 0 ∧ x.get 0x34 2 = 0 ∧ x.get 0x38 4 = 0) ∨ (x.get 0x26 1 = 1 ∧ x.get 0x34 2 ≠ 0 ∧ x.get 0x38 4 ≤ 1000000000))

def Desc.queueBad (x : Desc) : Bool :=
  x.get 0x23 1 > 7 || x.get 0x24 2 = 0 || x.get 0x24 2 > 4096 || x.get 0x26 1 > 1 || !shaperOk (x.get 0x28 4) (x.get 0x2C 4) ||
    x.get 0x30 4 < 16384 || x.get 0x30 4 > 67108864 || (if x.get 0x26 1 == 1 then x.get 0x34 2 = 0 || x.get 0x38 4 > 1000000000 else x.get 0x34 2 != 0 || x.get 0x38 4 != 0)

theorem Desc.queueBad_eq_false (x : Desc) : x.queueBad = false ↔ x.queueOk := by
  unfold Desc.queueBad Desc.queueOk
  cases shaperOk (x.get 0x28 4) (x.get 0x2C 4) with
  | false => simp
  | true =>
    by_cases h1 : x.get 0x26 1 = 1
    · simp [h1]
      omega
    · simp [h1]
      omega

/-- QUEUE for a queue that nothing waits for. -/
theorem Dev.tmQueue_idle (hi : ∀ p ∈ d.pend, p.unit ≠ 7) : d.tmQueue x =
    let q := d.queueAt (x.get 0x20 2)
    d.checked x [(!q.pkts.isEmpty, 0x06), (x.queueBad, 0x04)] ((d.putQueueAt (x.get 0x20 2) { q with
      cfg := x.bytes, rate := if rateOf (x.get 0x28 4) = 0 then 0 else x.get 0x28 4, burst := x.get 0x2C 4, weight := x.get 0x24 2
      tok := ⟨(x.get 0x2C 4 * 8000000000 : Nat), d.media⟩, s := 0, f := 0 }).complete x 0 0) := by
  unfold Dev.tmQueue
  dsimp only
  rw [Dev.abortPend_tm hi fun p hp => by simp only [Bool.and_eq_true, beq_iff_eq] at hp; exact hp.1.1.1]
  rfl

theorem Dev.tmQueue_checks (d : Dev) (x : Desc) : ∃ k, d.tmQueue x = d.checked x [(!(d.queueAt (x.get 0x20 2)).pkts.isEmpty, 0x06), (x.queueBad, 0x04)] k := ⟨_, rfl⟩

/-- The object of a SHAPE has not been configured. -/
def Dev.shapeUnset (d : Dev) (x : Desc) : Bool := if x.get 0x20 1 == 1 then !(d.portAt (x.get 0x22 2)).set else !(d.queueAt (x.get 0x22 2)).configured

theorem Dev.shapeUnset_iff : d.shapeUnset x = true ↔
    (x.get 0x20 1 = 1 ∧ (d.portAt (x.get 0x22 2)).set = false) ∨ (x.get 0x20 1 ≠ 1 ∧ (d.queueAt (x.get 0x22 2)).cfg = []) := by
  unfold Dev.shapeUnset Queue.configured
  by_cases h : x.get 0x20 1 = 1 <;> simp [h]

def Desc.shapeOk (x : Desc) : Prop := x.get 0x21 1 ≤ 1 ∧ shaperOk (x.get 0x28 4) (x.get 0x2C 4) = true ∧
  ((x.get 0x20 1 = 1 ∧ x.get 0x24 1 ≤ 7 ∧ x.get 0x26 2 = 0) ∨ (x.get 0x20 1 = 0 ∧ x.get 0x24 1 = 0 ∧ x.get 0x26 2 ≤ 4096))

def Desc.shapeBad (x : Desc) : Bool :=
  x.get 0x20 1 > 1 || x.get 0x21 1 > 1 || (if x.get 0x20 1 == 1 then x.get 0x24 1 > 7 || x.get 0x26 2 != 0 else x.get 0x24 1 != 0 || x.get 0x26 2 > 4096) ||
    !shaperOk (x.get 0x28 4) (x.get 0x2C 4)

theorem Desc.shapeBad_eq_false (x : Desc) : x.shapeBad = false ↔ x.shapeOk := by
  unfold Desc.shapeBad Desc.shapeOk
  cases shaperOk (x.get 0x28 4) (x.get 0x2C 4) with
  | false => simp
  | true =>
    by_cases h1 : x.get 0x20 1 = 1
    · simp [h1]
    · simp [h1]
      omega

/-- A SHAPE that waits for the microsecond boundary t. -/
def Dev.shapeWaits (d : Dev) (x : Desc) (t : Nat) (late : Bool) : Dev :=
  { d with pend := d.pend ++ [{ d := x, unit := 7, op := 2, obj := x.get 0x22 2, t := t, late := late, since := d.ctl.ticks }] }

theorem Dev.tmShape_checks (d : Dev) (x : Desc) : ∃ k, d.tmShape x = d.checked x [(d.shapeUnset x, 0x06), (x.shapeBad, 0x04),
    ((x.eff != 0 && decide (x.eff < d.media)) && x.strict, 0x0A)] k := ⟨_, rfl⟩

theorem Dev.tmShape_accepted (hu : d.shapeUnset x = false) (hb : x.shapeBad = false) : d.tmShape x =
    let late := x.eff != 0 && decide (x.eff < d.media)
    d.checked x [(late && x.strict, 0x0A)] (d.shapeWaits x (if x.eff = 0 || late then (d.media / 1000 + 1) * 1000 else ceilDiv x.eff 1000 * 1000) late) :=
  (Dev.checked_next hu).trans (Dev.checked_next hb)

/-- The queue is some flow's. -/
theorem Dev.tmRelease_used {i : Nat} : (d.flow.any fun e => e.2.configured && (e.2.queueA == i || e.2.queueB == i)) = true ↔
    ∃ q ∈ d.flow, q.2.configured = true ∧ (q.2.queueA = i ∨ q.2.queueB = i) := by simp [List.any_eq_true]

end Queues

/-! ## A SHAPE takes effect (R437) -/

section Shapes
variable {d : Dev} {p : Pend}

theorem Dev.shapeDue_early (hd : d.pend = [p]) (ht : d.media < p.t) : d.shapeDue = d := by
  unfold Dev.shapeDue
  dsimp only
  rw [hd]
  simp only [List.filter_cons, List.filter_nil, Nat.not_le.mpr ht, decide_false, Bool.and_false, Bool.not_false, Bool.false_eq_true, if_false, if_true, List.foldl_nil]
  rw [← hd]

theorem Dev.shapeDue_now (hd : d.pend = [p]) (hu : p.unit = 7) (ho : p.op = 2) (ht : p.t ≤ d.media) :
    d.shapeDue = (({ d with pend := [] } : Dev).applyShape p).complete p.d (if p.late then 1 else 0) p.t := by
  unfold Dev.shapeDue
  dsimp only
  rw [hd]
  simp only [List.filter_cons, List.filter_nil, hu, ho, ht, decide_true, beq_self_eq_true, Bool.and_self, Bool.not_true, Bool.false_eq_true, if_false, if_true, List.foldl_cons,
    List.foldl_nil]
  rfl

end Shapes

/-! ## PORT (R437, R448) -/

section Ports
variable {d : Dev} {x : Desc}

/-- The fields of one class of a PORT descriptor are within Table 14.5. -/
def Desc.classOk (x : Desc) (c : Nat) : Prop := shaperOk (x.get (0x38 + 8 * c) 4) (x.get (0x3C + 8 * c) 4) = true ∧
  (bitN (x.get 0x22 1) c = true → x.get (0x24 + 2 * c) 2 = 0) ∧ (bitN (x.get 0x22 1) c = false → 1 ≤ x.get (0x24 + 2 * c) 2 ∧ x.get (0x24 + 2 * c) 2 ≤ 4096)

def Desc.classBad (x : Desc) (c : Nat) : Bool :=
  (if bitN (x.get 0x22 1) c then x.get (0x24 + 2 * c) 2 != 0 else x.get (0x24 + 2 * c) 2 = 0 || 4096 < x.get (0x24 + 2 * c) 2) ||
    !shaperOk (x.get (0x38 + 8 * c) 4) (x.get (0x3C + 8 * c) 4)

theorem Desc.classBad_eq_false (x : Desc) (c : Nat) : x.classBad c = false ↔ x.classOk c := by
  unfold Desc.classBad Desc.classOk
  cases shaperOk (x.get (0x38 + 8 * c) 4) (x.get (0x3C + 8 * c) 4) <;> cases bitN (x.get 0x22 1) c <;> simp
  omega

def Desc.portBad (x : Desc) : Bool := toSigned 8 (x.get 0x21 1) < -32 || 63 < toSigned 8 (x.get 0x21 1) || (List.range 8).any x.classBad

theorem Desc.portBad_eq_false (x : Desc) : x.portBad = false ↔ -32 ≤ toSigned 8 (x.get 0x21 1) ∧ toSigned 8 (x.get 0x21 1) ≤ 63 ∧ ∀ c, c < 8 → x.classOk c := by
  simp only [Desc.portBad, Bool.or_eq_false_iff, decide_eq_false_iff_not, Int.not_lt, List.any_eq_false, List.mem_range, Bool.not_eq_true, Desc.classBad_eq_false, and_assoc]

theorem Dev.tmPort_checks (d : Dev) (x : Desc) : d.tmPort x = d.checked x [(x.portBad, 0x04)]
    (if (d.portAt (x.get 0x20 1)).tx.isSome then { d with pend := d.pend ++ [{ d := x, unit := 7, op := 3, obj := x.get 0x20 1, since := d.ctl.ticks }] }
     else (d.applyPort x).complete x 0 0) := rfl

/-- A class as a PORT descriptor leaves it. -/
def Desc.newClass (x : Desc) (t c : Nat) (k : PortClass) : PortClass :=
  { k with weight := x.get (0x24 + 2 * c) 2, rate := if rateOf (x.get (0x38 + 8 * c) 4) = 0 then 0 else x.get (0x38 + 8 * c) 4, burst := x.get (0x3C + 8 * c) 4
           tok := reshape k.tok k.rate k.burst (x.get (0x3C + 8 * c) 4) t false }

/-- The port that a PORT descriptor leaves. -/
def Desc.newPort (x : Desc) (t : Nat) (p : TmPort) : TmPort :=
  (List.range 8).foldl (fun p c => p.putClass c (x.newClass t c (p.class_ c))) { p with set := true, overhead := toSigned 8 (x.get 0x21 1), strict := x.get 0x22 1 }

theorem TmPort.class_putClass (p : TmPort) (c : Nat) (k : PortClass) : (p.putClass c k).class_ c = k := Tab.get_put_same _ _ _ _
theorem TmPort.class_putClass_other (p : TmPort) (k : PortClass) {b c : Nat} (h : b ≠ c) : (p.putClass c k).class_ b = p.class_ b := Tab.get_put_other _ _ _ h

/-- Classes changed one after another each change by their own. -/
theorem TmPort.class_foldl (g : Nat → PortClass → PortClass) (b : Nat) : ∀ (cs : List Nat) (_ : cs.Nodup) (p : TmPort),
    (cs.foldl (fun p c => p.putClass c (g c (p.class_ c))) p).class_ b = if b ∈ cs then g b (p.class_ b) else p.class_ b
  | [], _, p => by simp
  | c :: cs, hn, p => by
    obtain ⟨hc, hs⟩ := List.nodup_cons.mp hn
    rw [List.foldl_cons, TmPort.class_foldl g b cs hs]
    by_cases hb : b = c
    · subst hb
      rw [if_neg hc, if_pos (List.mem_cons_self ..), TmPort.class_putClass]
    · rw [TmPort.class_putClass_other _ _ hb]
      simp [hb]

theorem Desc.newPort_class (x : Desc) (t : Nat) (p : TmPort) {c : Nat} (h : c < 8) : (x.newPort t p).class_ c = x.newClass t c (p.class_ c) :=
  (TmPort.class_foldl (x.newClass t) c (List.range 8) List.nodup_range _).trans (if_pos (List.mem_range.mpr h))

/-- What a PORT descriptor leaves of a port besides its classes. -/
theorem Desc.newPort_rest (x : Desc) (t : Nat) (p : TmPort) : (x.newPort t p).set = true ∧ (x.newPort t p).overhead = toSigned 8 (x.get 0x21 1) ∧
    (x.newPort t p).strict = x.get 0x22 1 ∧ (x.newPort t p).oper = p.oper ∧ (x.newPort t p).admin = p.admin ∧ (x.newPort t p).gateMask = p.gateMask ∧
    (x.newPort t p).tx = p.tx := by
  have kept (cs : List Nat) (q : TmPort) : let r := cs.foldl (fun p c => p.putClass c (x.newClass t c (p.class_ c))) q
      r.set = q.set ∧ r.overhead = q.overhead ∧ r.strict = q.strict ∧ r.oper = q.oper ∧ r.admin = q.admin ∧ r.gateMask = q.gateMask ∧ r.tx = q.tx := by
    induction cs generalizing q with
    | nil => exact ⟨rfl, rfl, rfl, rfl, rfl, rfl, rfl⟩
    | cons c cs ih => exact ih _
  exact kept _ _

theorem Dev.complete_portAt (d : Dev) (x : Desc) (status mt k : Nat) : (d.complete x status mt).portAt k = d.portAt k := by simp [Dev.portAt]

theorem Dev.applyPort_idle (hi : ∀ p ∈ d.pend, p.unit ≠ 7) :
    d.applyPort x = (d.cutTaps 3 (x.get 0x20 1)).putPortAt (x.get 0x20 1) (x.newPort d.media (d.portAt (x.get 0x20 1))) := by
  unfold Dev.applyPort
  dsimp only
  rw [Dev.abortPend_tm hi fun p hp => by simp only [Bool.and_eq_true, beq_iff_eq] at hp; exact hp.1.1.1]
  rfl

end Ports

/-! ## GATE (R444, R445) -/

section Gates
variable {d : Dev} {x : Desc}

/-- The fields of a GATE descriptor and its entries are within Tables 14.6 and 14.7. -/
def Dev.gateOk (d : Dev) (x : Desc) : Prop :=
  x.get 0x22 2 ≤ 1024 ∧ 1000 ≤ x.get 0x30 4 ∧ x.get 0x30 4 ≤ 1000000000 ∧ x.get 0x38 8 % 8 = 0 ∧ (x.get 0x22 2 = 0 → x.get 0x38 8 = 0) ∧
    ∀ q ∈ d.gateEntries x, q.2.1 = 0 ∧ 64 ≤ q.2.2 ∧ q.2.2 ≤ 1000000000

def Dev.gateBad (d : Dev) (x : Desc) : Bool :=
  x.get 0x22 2 > 1024 || x.get 0x30 4 < 1000 || x.get 0x30 4 > 1000000000 || x.get 0x38 8 % 8 != 0 || (x.get 0x22 2 = 0 && x.get 0x38 8 != 0) ||
    (d.gateEntries x).any fun e => e.2.1 != 0 || e.2.2 < 64 || e.2.2 > 1000000000

theorem Dev.gateBad_eq_false (d : Dev) (x : Desc) : d.gateBad x = false ↔ d.gateOk x := by
  have entry (q : Nat × Nat × Nat) : ¬ (q.2.1 != 0 || decide (q.2.2 < 64) || decide (q.2.2 > 1000000000)) = true ↔ q.2.1 = 0 ∧ 64 ≤ q.2.2 ∧ q.2.2 ≤ 1000000000 := by
    simp [and_assoc]
  simp only [Dev.gateBad, Dev.gateOk, Bool.or_eq_false_iff, decide_eq_false_iff_not, gt_iff_lt, Nat.not_lt, bne_eq_false_iff_eq, Bool.and_eq_false_imp, decide_eq_true_eq, List.any_eq_false,
    and_assoc] at entry ⊢
  simp only [entry]

/-- The list of a GATE descriptor, n cycles behind its base time (R444). -/
def Dev.gateList (d : Dev) (x : Desc) (n : Nat) : GateList :=
  { base := x.get 0x28 8, cycle := x.get 0x30 4, entries := (d.gateEntries x).map fun q => (q.1, q.2.2), start := x.get 0x28 8 + n * x.get 0x30 4, n := n }

/-- The cycles that a list starts late. -/
def Dev.gateCycles (d : Dev) (x : Desc) : Nat := if d.media + 2000 ≤ x.get 0x28 8 then 0 else ceilDiv (d.media + 2000 - x.get 0x28 8) (x.get 0x30 4)

/-- The port without the list that waited. -/
def Dev.gateCleared (d : Dev) (p : Nat) : Dev :=
  match (d.portAt p).admin with
  | some (_, y) => (d.complete y 0x0B 0).modPortAt p fun q => { q with admin := none }
  | none => d

theorem Dev.tmGate_checks (d : Dev) (x : Desc) : ∃ k, d.tmGate x = d.checked x [(d.poisoned (x.get 0x38 8) (x.get 0x22 2 * 8), 0x06), (d.gateBad x, 0x04)] k := ⟨_, rfl⟩

theorem Dev.tmGate_accepted (hp : d.poisoned (x.get 0x38 8) (x.get 0x22 2 * 8) = false) (hg : d.gateOk x) : d.tmGate x =
    if (d.gateCycles x != 0 && x.strict) = true then ((d.gateCleared (x.get 0x20 1)).raise 40).complete x 0x0A 0
    else (d.gateCleared (x.get 0x20 1)).modPortAt (x.get 0x20 1) fun q => { q with admin := some (d.gateList x (d.gateCycles x), x) } := by
  have cycle : max (x.get 0x30 4) 1 = x.get 0x30 4 := Nat.max_eq_left (by have := hg.2.1; omega)
  unfold Dev.tmGate
  dsimp only
  rw [cycle]
  exact (Dev.checked_next hp).trans (Dev.checked_next ((d.gateBad_eq_false x).mpr hg))

theorem Dev.gateCleared_none {p : Nat} (h : (d.portAt p).admin = none) : d.gateCleared p = d := by
  unfold Dev.gateCleared
  rw [h]

theorem Dev.gateCleared_some {p : Nat} {g : GateList} {y : Desc} (h : (d.portAt p).admin = some (g, y)) :
    d.gateCleared p = (d.complete y 0x0B 0).putPortAt p { d.portAt p with admin := none } := by
  have port : (d.complete y 0x0B 0).portAt p = d.portAt p := by simp [Dev.portAt]
  unfold Dev.gateCleared
  rw [h]
  dsimp only
  rw [Dev.modPortAt_eq, port]

end Gates

/-! ## POLICER (R428, R433) -/

section Policers
variable {d : Dev} {x : Desc}

def Desc.policerOk (x : Desc) : Prop :=
  x.get 0x23 1 ≤ 1 ∧ x.get 0x24 1 ≤ 1 ∧ x.get 0x28 1 ≤ 63 ∧ x.get 0x29 1 ≤ 63 ∧ x.get 0x2A 1 ≤ 63 ∧ x.get 0x2B 1 ≤ 1 ∧
    (x.get 0x2B 1 = 0 → x.get 0x2C 2 = 0 ∧ zeroBytes x.bytes 0x40 16 = true) ∧ x.get 0x2E 1 ≤ 1 ∧ rateOk (x.get 0x30 4) = true ∧ rateOk (x.get 0x38 4) = true ∧
    1536 ≤ x.get 0x34 4 ∧ x.get 0x34 4 ≤ 16777216 ∧ x.get 0x3C 4 ≤ 16777216 ∧ (x.get 0x23 1 = 0 → x.get 0x38 4 = 0) ∧
    (x.get 0x23 1 = 1 → rateOf (x.get 0x30 4) ≤ rateOf (x.get 0x38 4) ∧ x.get 0x34 4 ≤ x.get 0x3C 4) ∧ (x.get 0x24 1 = 0 → zeroBytes x.bytes 0x50 16 = true)

def Desc.policerBad (x : Desc) : Bool :=
  x.get 0x23 1 > 1 || x.get 0x24 1 > 1 || x.get 0x28 1 > 63 || x.get 0x29 1 > 63 || x.get 0x2A 1 > 63 || x.get 0x2B 1 > 1 ||
    (x.get 0x2B 1 == 0 && (x.get 0x2C 2 != 0 || !zeroBytes x.bytes 0x40 16)) ||
    x.get 0x2E 1 > 1 || !rateOk (x.get 0x30 4) || x.get 0x34 4 < 1536 || x.get 0x34 4 > 16777216 || x.get 0x3C 4 > 16777216 || !rateOk (x.get 0x38 4) ||
    (if x.get 0x23 1 = 0 then x.get 0x38 4 != 0 else rateOf (x.get 0x38 4) < rateOf (x.get 0x30 4) || x.get 0x3C 4 < x.get 0x34 4) ||
    (x.get 0x24 1 == 0 && !zeroBytes x.bytes 0x50 16)

theorem Desc.policerBad_eq_false (x : Desc) : x.policerBad = false ↔ x.policerOk := by
  have rates : (if x.get 0x23 1 = 0 then x.get 0x38 4 != 0 else rateOf (x.get 0x38 4) < rateOf (x.get 0x30 4) || x.get 0x3C 4 < x.get 0x34 4) = false ↔
      (x.get 0x23 1 = 0 → x.get 0x38 4 = 0) ∧ (x.get 0x23 1 ≠ 0 → rateOf (x.get 0x30 4) ≤ rateOf (x.get 0x38 4) ∧ x.get 0x34 4 ≤ x.get 0x3C 4) := by
    split
    · next h => simp [h]
    · next h => simp [h]
  have mode (h : x.get 0x23 1 ≤ 1) : x.get 0x23 1 ≠ 0 ↔ x.get 0x23 1 = 1 := by omega
  simp only [Desc.policerBad, Desc.policerOk, Bool.or_eq_false_iff, rates, decide_eq_false_iff_not, gt_iff_lt, Nat.not_lt, Bool.and_eq_false_imp, beq_iff_eq, Bool.not_eq_false',
    bne_eq_false_iff_eq, and_assoc]
  constructor
  · rintro ⟨h1, h2, h3, h4, h5, h6, h7, h8, h9, h10, h11, h12, h13, h14, h15, h16⟩
    exact ⟨h1, h2, h3, h4, h5, h6, h7, h8, h9, h13, h10, h11, h12, h14, fun h => h15 ((mode h1).mpr h), h16⟩
  · rintro ⟨h1, h2, h3, h4, h5, h6, h7, h8, h9, h10, h11, h12, h13, h14, h15, h16⟩
    exact ⟨h1, h2, h3, h4, h5, h6, h7, h8, h9, h11, h12, h13, h10, h14, fun h => h15 ((mode h1).mp h), h16⟩

/-- Another policer takes the same frames. -/
def Dev.policerClash (d : Dev) (x : Desc) : Prop := ∃ q ∈ d.pol, q.1 ≠ x.get 0x20 2 ∧ q.2.cfg ≠ [] ∧ q.2.port = x.get 0x22 1 ∧ q.2.get 0x2B 1 = x.get 0x2B 1 ∧
  (x.get 0x2B 1 = 0 ∨ (q.2.get 0x40 16 = x.get 0x40 16 ∧ q.2.get 0x2C 2 = x.get 0x2C 2))

def Dev.policerClashes (d : Dev) (x : Desc) : Bool := d.pol.any fun e => e.1 != x.get 0x20 2 && !e.2.cfg.isEmpty && e.2.port == x.get 0x22 1 &&
  e.2.get 0x2B 1 == x.get 0x2B 1 && (x.get 0x2B 1 == 0 || (e.2.get 0x40 16 == x.get 0x40 16 && e.2.get 0x2C 2 == x.get 0x2C 2))

theorem Dev.policerClashes_iff (d : Dev) (x : Desc) : d.policerClashes x = true ↔ d.policerClash x := by
  simp only [Dev.policerClashes, Dev.policerClash, List.any_eq_true, Bool.and_eq_true, Bool.or_eq_true, bne_iff_ne, beq_iff_eq, Bool.not_eq_true', List.isEmpty_eq_false_iff, and_assoc]

theorem Dev.tmPolicer_checks (d : Dev) (x : Desc) : ∃ k, d.tmPolicer x = d.checked x [(x.policerBad || d.policerClashes x, 0x04)] k := ⟨_, rfl⟩

/-- A filled policer differs in its buckets alone. -/
theorem Policer.fill_rest (y : Policer) (t : Nat) : (y.fill t).green = y.green ∧ (y.fill t).yellow = y.yellow ∧ (y.fill t).red = y.red := by
  unfold Policer.fill
  dsimp only
  split <;> exact ⟨rfl, rfl, rfl⟩

theorem Dev.tmPolicer_accepted (hg : x.policerOk) (hc : ¬ d.policerClash x) :
    let y := d.policer (x.get 0x20 2)
    let kept (b : Bucket) (cap : Nat) : Bucket := ⟨min b.level (cap * 8000000000 : Nat), d.media⟩
    let full (cap : Nat) : Bucket := ⟨(cap * 8000000000 : Nat), d.media⟩
    d.tmPolicer x =
    if (y.cfg.isEmpty || x.get 0x2E 1 == 1) = true then (d.putPolicer (x.get 0x20 2) { y with cfg := x.bytes, c := full (x.get 0x34 4), e := full (x.get 0x3C 4) }).complete x 0 0
    else (d.putPolicer (x.get 0x20 2) { y with cfg := x.bytes, c := kept (y.fill d.media).c (x.get 0x34 4), e := kept (y.fill d.media).e (x.get 0x3C 4) }).complete x 0 0 := by
  have pass : (x.policerBad || d.policerClashes x) = false := by
    rw [(x.policerBad_eq_false).mpr hg, Bool.false_or]
    exact Bool.eq_false_iff.mpr (mt (d.policerClashes_iff x).mp hc)
  dsimp only
  refine (Dev.checked_next pass).trans ?_
  rw [Dev.checked_nil]
  cases hy : (d.policer (x.get 0x20 2)).cfg.isEmpty with
  | true => rfl
  | false =>
    obtain ⟨green, yellow, red⟩ := (d.policer (x.get 0x20 2)).fill_rest d.media
    rw [if_neg Bool.false_ne_true, green, yellow, red]
    cases x.get 0x2E 1 == 1 with
    | true => rfl
    | false => rfl

end Policers

/-- A check that passes on P alone fails without it. -/
theorem check_fails {b : Bool} {P : Prop} (h : b = false ↔ P) (hp : ¬ P) : b = true := by
  cases b with
  | true => rfl
  | false => exact absurd (h.mp rfl) hp

/-- Settles O48: each descriptor by its checks in their order and what its acceptance leaves; a SHAPE by its boundary. -/
theorem trafficCommands : Obligations.TrafficCommands := by
  unfold Obligations.TrafficCommands
  intro s x e
  dsimp only
  have run {u op : Nat} {sp : Dev → Desc → OpSpec} {i : Instr} {f : Dev → Desc → Dev} {k : Dev} (ht : s.dev.Takes u op sp x e)
      (hx : exec i s = ok s (s.dev.runUnit u op sp f)) (h : f e x = k) : exec i s = .next { s with dev := k } := hx.trans (congrArg (ok s) ((ht.runUnit f).trans h))
  refine ⟨fun ht => ?_, fun ht => ?_, fun ht => ?_, fun ht => ?_, fun ht => ?_, fun ht => ?_, fun p hp hu ho => ⟨fun hd => ?_, fun hd hk => ?_, fun hd hk => ?_⟩⟩
  · obtain ⟨k, hk⟩ := e.tmQueue_checks x
    refine ⟨fun hq => run ht rfl (hk.trans (Dev.checked_first (by simpa using hq))), fun hq hg => run ht rfl (hk.trans ((Dev.checked_next (by simp [hq])).trans (Dev.checked_first (check_fails x.queueBad_eq_false hg)))),
      fun hq hg hi => run ht rfl ((Dev.tmQueue_idle hi).trans ((Dev.checked_next (by simp [hq])).trans (Dev.checked_next (x.queueBad_eq_false.mpr hg))))⟩
  · obtain ⟨k, hk⟩ := e.tmShape_checks x
    have set_ {h : ¬ ((x.get 0x20 1 = 1 ∧ (e.portAt (x.get 0x22 2)).set = false) ∨ (x.get 0x20 1 ≠ 1 ∧ (e.queueAt (x.get 0x22 2)).cfg = []))} : e.shapeUnset x = false :=
      Bool.eq_false_iff.mpr (mt Dev.shapeUnset_iff.mp h)
    refine ⟨fun hu => run ht rfl (hk.trans (Dev.checked_first (Dev.shapeUnset_iff.mpr hu))),
      fun hu hg => run ht rfl (hk.trans ((Dev.checked_next (set_ (h := hu))).trans (Dev.checked_first (check_fails x.shapeBad_eq_false hg)))), fun hu hg => ?_⟩
    have accepted := Dev.tmShape_accepted (set_ (h := hu)) (x.shapeBad_eq_false.mpr hg)
    refine ⟨fun h0 => run ht rfl (accepted.trans ?_), fun h1 hin => run ht rfl (accepted.trans ?_), fun h1 hpast hst => run ht rfl (accepted.trans ?_),
      fun h1 hpast hst => run ht rfl (accepted.trans ?_)⟩
    · simp [h0, Dev.checked_next, Dev.checked_nil, Dev.shapeWaits]
    · simp [h1, Nat.not_lt.mpr hin, Dev.checked_next, Dev.checked_nil, Dev.shapeWaits]
    · simp [h1, hpast, hst, Dev.checked_next, Dev.checked_nil, Dev.shapeWaits]
    · exact Dev.checked_first (by simp [h1, hpast, hst])
  · refine ⟨fun hg => run ht rfl ((e.tmPort_checks x).trans (Dev.checked_first (check_fails x.portBad_eq_false hg))),
      fun hg hb => run ht rfl ((e.tmPort_checks x).trans ((Dev.checked_next (x.portBad_eq_false.mpr hg)).trans (if_pos (Option.isSome_iff_ne_none.mpr hb)))), fun hg hb hi => ?_⟩
    have accepted : e.tmPort x = ((e.cutTaps 3 (x.get 0x20 1)).putPortAt (x.get 0x20 1) (x.newPort e.media (e.portAt (x.get 0x20 1)))).complete x 0 0 := by
      refine (e.tmPort_checks x).trans ((Dev.checked_next (x.portBad_eq_false.mpr hg)).trans ((if_neg (by simp [hb])).trans ?_))
      rw [Dev.applyPort_idle hi]
    obtain ⟨thr, dsp, mem, poison, whole⟩ := Dev.complete_eq ((e.cutTaps 3 (x.get 0x20 1)).putPortAt (x.get 0x20 1) (x.newPort e.media (e.portAt (x.get 0x20 1)))) x 0 0
    have port : (((e.cutTaps 3 (x.get 0x20 1)).putPortAt (x.get 0x20 1) (x.newPort e.media (e.portAt (x.get 0x20 1)))).complete x 0 0).portAt (x.get 0x20 1) =
        x.newPort e.media (e.portAt (x.get 0x20 1)) := by
      rw [Dev.complete_portAt, Dev.portAt_putPortAt]
    obtain ⟨hset, hover, hstrict, hoper, hadmin, hmask, htx⟩ := x.newPort_rest e.media (e.portAt (x.get 0x20 1))
    refine ⟨_, run ht rfl accepted, ?_⟩
    beta_reduce
    rw [port]
    refine ⟨hset, hover, hstrict, hoper, hadmin, hmask, htx.trans hb, fun c hc => x.newPort_class _ _ hc, fun j hj => ?_, ?_⟩
    · rw [Dev.complete_portAt]
      exact Dev.portAt_putPortAt_other (e.cutTaps 3 (x.get 0x20 1)) _ hj
    · rw [whole]
      rfl
  · obtain ⟨k, hk⟩ := e.tmGate_checks x
    refine ⟨fun hp => run ht rfl (hk.trans (Dev.checked_first hp)), fun hp => ⟨fun hg => run ht rfl (hk.trans ((Dev.checked_next hp).trans (Dev.checked_first
      (check_fails (e.gateBad_eq_false x) hg)))), fun hg hn hs ha => ?_, fun g0 y hg hn hs ha => ?_, fun hg hn ha => ?_, fun g0 y hg hn ha => ?_⟩⟩
    · refine run ht rfl ((Dev.tmGate_accepted hp hg).trans ((if_pos (Bool.and_eq_true_iff.mpr ⟨bne_iff_ne.mpr hn, hs⟩)).trans ?_))
      rw [Dev.gateCleared_none ha]
    · refine run ht rfl ((Dev.tmGate_accepted hp hg).trans ((if_pos (Bool.and_eq_true_iff.mpr ⟨bne_iff_ne.mpr hn, hs⟩)).trans ?_))
      rw [Dev.gateCleared_some ha]
    · refine run ht rfl ((Dev.tmGate_accepted hp hg).trans ((if_neg ?_).trans ?_))
      · exact fun h => hn.elim (fun h0 => (bne_iff_ne.mp (Bool.and_eq_true_iff.mp h).1) h0) fun hs => by simp [hs] at h
      rw [Dev.gateCleared_none ha]
      rfl
    · refine run ht rfl ((Dev.tmGate_accepted hp hg).trans ((if_neg ?_).trans ?_))
      · exact fun h => hn.elim (fun h0 => (bne_iff_ne.mp (Bool.and_eq_true_iff.mp h).1) h0) fun hs => by simp [hs] at h
      rw [Dev.gateCleared_some ha, Dev.modPortAt_eq, Dev.portAt_putPortAt, Dev.putPortAt_putPortAt]
      rfl
  · obtain ⟨k, hk⟩ := e.tmPolicer_checks x
    refine ⟨fun hg => run ht rfl (hk.trans (Dev.checked_first ?_)), fun hg hc hf => run ht rfl ?_, fun hg hc hy hz => run ht rfl ?_⟩
    · rcases hg with hg | hc
      · rw [check_fails x.policerBad_eq_false hg, Bool.true_or]
      · rw [(e.policerClashes_iff x).mpr hc, Bool.or_true]
    · rw [Dev.tmPolicer_accepted hg hc, if_pos (by rcases hf with h | h <;> simp [h])]
    · rw [Dev.tmPolicer_accepted hg hc, if_neg (by simp [hy, hz])]
  · refine ⟨fun hk hu => run ht rfl (Dev.checked_first ?_), fun hk => run ht rfl ((Dev.checked_next ?_).trans (Dev.checked_first ?_)),
      fun hk hu hq hi => run ht rfl ((Dev.checked_next ?_).trans ((Dev.checked_next ?_).trans ?_)), fun hk => run ht rfl ((Dev.checked_next ?_).trans ((Dev.checked_next ?_).trans ?_))⟩
    · rcases hu with hu | hq
      · simp [hk, Dev.tmRelease_used.mpr hu]
      · simp [hk, hq]
    · simp [show x.get 0x20 1 ≠ 0 by omega]
    · simpa using hk
    · simp only [hk, hq, List.isEmpty_nil, Bool.not_true, Bool.or_false]
      exact Bool.eq_false_iff.mpr fun h => hu (Dev.tmRelease_used.mp (Bool.and_eq_true_iff.mp h).2)
    · simp [hk]
    · rw [Dev.checked_nil, if_pos (by simp [hk]), Dev.abortPend_tm hi fun p hp => by simp only [Bool.and_eq_true, beq_iff_eq] at hp; exact hp.1.1.1]
      rfl
    · simp [hk]
    · simp [hk]
    · rw [Dev.checked_nil, if_neg (by simp [hk])]
      rfl
  · exact congrArg (ok s) (Dev.shapeDue_early hp hd)
  · refine congrArg (ok s) ((Dev.shapeDue_now hp hu ho hd).trans ?_)
    unfold Dev.applyShape
    dsimp only
    rw [if_neg (by simp [hk])]
    rfl
  · refine congrArg (ok s) ((Dev.shapeDue_now hp hu ho hd).trans ?_)
    unfold Dev.applyShape
    dsimp only
    rw [if_pos hk]
    rfl

end Sys2Proof.Machine

/-! # Traffic management: frames in and out (R400, R406) -/

namespace Sys2Proof.Machine

/-- A packet handed over whose UDP payload is all of its bytes: it has no headers. -/
def barePacket : Packet := { udp := 1316, opens := some 0, bytes := zeros 1316 }

/-- A device with that packet at hand for queue 0, whose port is up. -/
def bareDev : Dev :=
  { Dev.reset with tmIn := [(0, barePacket)], queue := [(0, { cfg := [1] })], group := [(0, { proto := 1, width := 1, stage := .active })] }

/-- Refutes O49: a packet whose bytes are its UDP payload alone has no header that holds a checksum, so setting its PCRs puts the two bytes of one in front of it, and the
packet that enters its queue is longer than the one handed over. -/
theorem not_trafficFlow : ¬ Obligations.TrafficFlow := by
  intro h
  obtain ⟨-, -, stamped, -⟩ := h ⟨[], bareDev⟩ 0
  obtain ⟨e, run, z, queued, size, -⟩ := stamped 0 0 barePacket rfl rfl (by decide +kernel) (by decide +kernel) (by decide +kernel) (by decide +kernel) (by decide +kernel)
    (by decide +kernel) (by decide +kernel) (by decide +kernel)
  rw [← eq_of_ok_next run] at queued
  have longer : ((bareDev.stampPcr.enqueue).queueAt 0).pkts.map (·.bytes.length) = [1318] := by decide +kernel
  rw [queued] at longer
  exact absurd (size.symm.trans (List.singleton_injective longer)) (by decide +kernel)

end Sys2Proof.Machine

/-! # The cascade and the memory controllers in odd states (R157, R515, R553) -/

namespace Sys2Proof.Machine

/-! ## A hello on a lane in CAPS whose hop is open under R515 -/

/-- A device whose ring A lane is in CAPS, its hop open under R515 alone; the line of source 46, of class HALT, is at 0 and that of source 45 at 1. -/
def limitDev : Dev :=
  { Dev.reset with
    casc := { cfg := laidBytes 0x60 [(0x24, 1)], a := { stage := .caps, limit := true }, closed := false }
    flt := { live := 1#64 <<< 45, cls := 3#128 <<< 92 } }

/-- The hello of the device with address 1. -/
def helloOne : CascHello := ⟨1, 0, []⟩

/-- Refutes O52: the hello of a lane in CAPS first makes the lines follow their conditions, and where the hop is open under R515 alone that raises CASC_BYPASS_LIMIT before
the hop is cleared. With source 46 of class HALT the bypass closes, and the lane is not ACTIVE. -/
theorem not_cascadeRing : ¬ Obligations.CascadeRing := by
  intro h
  obtain ⟨-, -, -, -, -, -, -, -, -, -, opened, -⟩ := h ⟨[], limitDev⟩ {} {} false ⟨0, none, 0, 0, false, .data, 0, 0, 0, 0, 0, []⟩ helloOne .pf 0
  obtain ⟨-, -, -, hello, -⟩ := opened rfl
  obtain ⟨-, caps, -⟩ := hello rfl rfl (by decide +kernel) (by decide +kernel) rfl (by decide +kernel)
  obtain ⟨f, run, side, -⟩ := caps (by decide +kernel) rfl rfl (by decide +kernel)
  have active : (f.side false).stage = .active := congrArg RingSide.stage side
  rw [← eq_of_ok_next run] at active
  exact absurd active (by decide +kernel)

/-! ## A descriptor of no unit in the queue of the MEM unit -/

/-- A descriptor whose operation byte names FILL and whose unit byte names no unit; its status word goes to 0x1000. -/
def unroutedFill : Desc := { bytes := laidBytes 0x40 [(0, 99), (1, 2), (0x10, 0xFF), (0x11, 0xFF), (0x19, 0x10)], fw := true }

/-- A device whose MEM unit holds that descriptor. -/
def unroutedDev : Dev := { Dev.reset with unitQ := [(10, [unroutedFill])] }

/-- Refutes O53: a descriptor in the queue of the MEM unit whose header names no unit has no operation of it, so it ends with UNSUPPORTED before FILL's own checks, which would
give BAD_DESCRIPTOR for its length of 0. -/
theorem not_memoryControllers : ¬ Obligations.MemoryControllers := by
  intro h
  obtain ⟨-, -, -, -, -, -, -, -, unit⟩ := h ⟨[], unroutedDev⟩ 0 0
  obtain ⟨-, fill⟩ := unit 0 unroutedFill (unroutedDev.putUnitQueue 10 [])
  obtain ⟨refused, -⟩ := fill (by decide +kernel) (by decide +kernel)
  have run : unroutedDev.memRun 0 2 memFillSpec Dev.memFill = (unroutedDev.putUnitQueue 10 []).complete unroutedFill 0x04 0 :=
    eq_of_ok_next (refused (Or.inl (by decide +kernel)))
  have word : (unroutedDev.memRun 0 2 memFillSpec Dev.memFill).memByte 0x1000 = 0x0C#8 := by decide +kernel
  rw [run] at word
  exact absurd word (by decide +kernel)

end Sys2Proof.Machine

/-! # Resets and DORMANT in odd states (R632, R641) -/

namespace Sys2Proof.Machine

/-! ## Reset I of a compositor cluster -/

/-- A running device in which scene 0 has counted five ticks; DEV_CTRL names island 20, its cluster. -/
def countedDev : Dev := { Dev.reset with scene := [(0, { ticks := 5 })], ctl := { pwrOk := true, booting := false, island := 20 } }

/-- Refutes O59: reset I of a cluster also returns SCANROW.TICKS of its scenes to 0 (R11, Table 7.9), which the statement keeps. -/
theorem not_resets : ¬ Obligations.Resets := by
  intro h
  obtain ⟨-, -, -, -, -, -, -, -, -, -, -, -, -, -, -, -, -, -, -, island, -⟩ := h ⟨[], countedDev⟩ .pf false 0 0
  obtain ⟨-, -, -, cluster⟩ := island
  have run := eq_of_ok_next (cluster rfl (by decide +kernel) (by decide) (by decide))
  have cleared : ((countedDev.islandGo .pf).sceneAt 0).ticks = 0 := by decide +kernel
  rw [run] at cleared
  exact absurd cleared (by decide +kernel)

/-! ## A group that has lost lock in the tick of DORMANT -/

/-- A device with nothing started whose lane 0, a group of its own in DETECT, lost lock in this very tick. -/
def lapsedDev : Dev :=
  { Dev.reset with group := [(0, { proto := 1, width := 1, stage := .detect })], lane := [(0, { lostAt := some 0 })], ctl := { pwrOk := true, booting := false } }

/-- Refutes O60: a loss of the same instant changes nothing of a group that enters idle (R493), so it was not midway through its bring-up, although it is not ACTIVE. -/
theorem not_powerAndClocks : ¬ Obligations.PowerAndClocks := by
  intro h
  obtain ⟨-, pf, -⟩ := h ⟨[], lapsedDev⟩ .pf false 0 0 0 0
  obtain ⟨-, -, sets, -⟩ := pf rfl
  obtain ⟨f, run, -, -, groups⟩ := sets rfl (by decide +kernel)
  have midway := congrArg Group.midway (groups 0 _ rfl (by decide))
  rw [← eq_of_ok_next run] at midway
  exact absurd midway (by decide +kernel)

end Sys2Proof.Machine

/-! # The check units (R557 to R567) -/

namespace Sys2Proof.Machine

/-! ## A table changed throughout -/

/-- A fold that writes each listed key once, from what the list holds of it. -/
theorem Tab.get_foldl_puts {α : Type} [DecidableEq α] (z : α) (f : Nat → α → α) (k : Nat) : ∀ (m t : Tab α), List.Pairwise (fun a b => a.1 < b.1) m →
    Tab.get z (m.foldl (fun t p => Tab.put z t p.1 (f p.1 p.2)) t) k = if k ∈ m.map (·.1) then f k (Tab.get z m k) else Tab.get z t k
  | [], _, _ => rfl
  | (j, v) :: m, t, h => by
    obtain ⟨before, sorted⟩ := List.pairwise_cons.mp h
    have fresh : j ∉ m.map (·.1) := fun hj => by
      obtain ⟨p, hp, hpj⟩ := List.mem_map.mp hj
      exact absurd (before p hp) (by simp [hpj])
    rw [List.foldl_cons, Tab.get_foldl_puts z f k m _ sorted]
    by_cases hk : j = k
    · subst hk
      simp [fresh, Tab.get]
    · rw [Tab.get_put_other _ _ _ (Ne.symm hk)]
      simp only [Tab.get, if_neg hk, List.map_cons, List.mem_cons, or_iff_right (Ne.symm hk)]

/-- A canonical table changed throughout by a function that keeps the default. -/
theorem Tab.get_mapAll {α : Type} [DecidableEq α] {z : α} {m : Tab α} (h : Tab.wf z m) {f : Nat → α → α} (hz : ∀ k, f k z = z) (k : Nat) :
    Tab.get z (m.mapAll z f) k = f k (Tab.get z m k) := by
  refine (Tab.get_foldl_puts z f k m m h.1).trans ?_
  split
  · rfl
  · next hk =>
    have unlisted : Tab.get z m k = z := by
      by_contra hv
      exact hk (List.mem_map.mpr ⟨_, Tab.mem_of_get hv, rfl⟩)
    rw [unlisted, hz]

/-! ## Memory just written -/

theorem Dev.memRead_memWrite {d : Dev} {a : Nat} {bs : List Byte} (h : a + bs.length ≤ d.capacity) : (d.memWrite a bs).memRead a bs.length = bs := by
  rw [Dev.memRead_eq]
  refine List.ext_getElem (by simp) fun i h1 h2 => ?_
  rw [List.getElem_map, List.getElem_range]
  exact Dev.memByte_memWrite_inside d a bs i h2 h

/-! ## Mismatches (R565) -/

/-- An object whose result differs from EXPECT, which it is compared with. -/
def Chk.differs (z : Chk) : Prop := z.compare = 1 ∧ z.now.toNat ≠ z.get 0x48 8

/-- An object after a mismatch. -/
def Chk.missed (z : Chk) : Chk := { z with mis := true, misses := min 65535 (z.misses + 1) }

/-- What an object does about a mismatch: source 47, and a post to its thread if it names one. -/
def Dev.toldOf (f : Dev) (z : Chk) : Dev := if z.get 0x44 2 = 0xFFFF then f.raise 47 else (f.raise 47).unitPost 9 (z.get 0x44 2) (flagMask (z.get 0x43 1))

section Objects
variable {d : Dev} {x : Desc} {k : Nat}

theorem Dev.mismatch_eq (d : Dev) (k : Nat) : d.mismatch k = (d.putCheck k (d.check k).missed).toldOf (d.check k) := rfl

theorem Dev.compareEngine_differs (h : (d.check k).differs) : d.compareEngine k = (d.putCheck k (d.check k).missed).toldOf (d.check k) :=
  if_pos (by simp [h.1, h.2])

theorem Dev.compareEngine_agrees (h : ¬ (d.check k).differs) : d.compareEngine k = d := by
  refine if_neg fun hc => h ?_
  simpa [Chk.differs] using hc

theorem Dev.writeFed_set (h : d.writeFed k = true) : (d.check k).set = true := (Bool.and_eq_true_iff.mp h).1

theorem Chk.set_iff (c : Chk) : c.set = true ↔ c.cfg ≠ [] := by simp [Chk.set]

theorem Chk.clip_set {c : Chk} (h : c.set = true) (v : BitVec 64) : c.clip v = BitVec.ofNat 64 (v.toNat % 2 ^ c.model.w) := if_pos h

/-! ## The descriptors (R566, R567) -/


def Desc.namesCheck (x : Desc) : Prop := (x.get 0x20 1 = 0 ∧ x.get 0x21 1 < 8) ∨ (x.get 0x20 1 = 1 ∧ x.get 0x21 1 < 48)

theorem Desc.namesCheck_iff (x : Desc) : x.namesCheck ↔ x.get 0x20 1 ≤ 1 ∧ x.get 0x21 1 < if x.get 0x20 1 = 0 then 8 else 48 := by
  unfold Desc.namesCheck
  split <;> omega

theorem Desc.namesCheck_iff_release (x : Desc) : (x.get 0x20 1 > 1 || (if x.get 0x20 1 = 1 then 48 else 8) ≤ x.get 0x21 1) = false ↔ x.namesCheck := by
  rw [Desc.namesCheck, Bool.or_eq_false_iff, decide_eq_false_iff_not, decide_eq_false_iff_not]
  split <;> omega

theorem Dev.checkBad_of_unnamed (d : Dev) (h : ¬ x.namesCheck) : d.checkBad x = true := by
  have limits : 1 < x.get 0x20 1 ∨ (if x.get 0x20 1 = 0 then 8 else 48) ≤ x.get 0x21 1 := by
    rw [Desc.namesCheck_iff] at h
    omega
  unfold Dev.checkBad
  rcases limits with h | h <;> simp [h]

theorem Dev.checkBad_of_range (d : Dev) (h : 4 < x.get 0x22 1 ∨ (x.get 0x22 1 = 0 ∧ (x.get 0x23 1 = 0 ∨ 64 < x.get 0x23 1)) ∨ 2 < x.get 0x42 1 ∨ 31 < x.get 0x43 1) :
    d.checkBad x = true := by
  unfold Dev.checkBad
  rcases h with h | ⟨h0, h | h⟩ | h | h
  · simp [h]
  · simp [h0, h]
  · simp [h0, h]
  · simp [h]
  · simp [h]

/-- The engine that a CONFIGURE names is write-fed. -/
def Dev.namesFed (d : Dev) (x : Desc) : Prop := x.get 0x20 1 = 0 ∧ d.snoopMode (x.get 0x21 1) = false

theorem Dev.namesFed_iff (d : Dev) (x : Desc) : (x.get 0x20 1 = 0 && !d.snoopMode (x.get 0x21 1)) = true ↔ d.namesFed x := by simp [Dev.namesFed]

/-- The object that a descriptor names as CONFIGURE leaves it. -/
def Chk.configured (z : Chk) (x : Desc) : Chk :=
  let z1 : Chk := { z with cfg := x.bytes, bound := false, overrun := false, lost := false, due := [], units := 0, wptr := 0 }
  { z1 with v := BitVec.ofNat 64 z1.model.init }

theorem Dev.checkConfigure_checks (d : Dev) (x : Desc) : d.checkConfigure x = d.checked x
    [(decide (x.get 0x20 1 ≤ 1 ∧ x.get 0x21 1 < if x.get 0x20 1 = 0 then 8 else 48) && (d.check (chkIndex (x.get 0x20 1) (x.get 0x21 1))).set, 0x06), (d.checkBad x, 0x04),
      (!(x.get 0x20 1 = 0 && !d.snoopMode (x.get 0x21 1)) && !d.tapSet (x.get 0x26 1) (x.get 0x40 2), 0x09)]
    ((d.putCheck (chkIndex (x.get 0x20 1) (x.get 0x21 1)) ((d.check (chkIndex (x.get 0x20 1) (x.get 0x21 1))).configured x)).complete x 0 0) := rfl

theorem Dev.checkConfigure_unnamed (h : ¬ x.namesCheck) : d.checkConfigure x = d.complete x 0x04 0 :=
  (d.checkConfigure_checks x).trans ((Dev.checked_next (by rw [decide_eq_false (mt x.namesCheck_iff.mpr h), Bool.false_and])).trans
    (Dev.checked_first (d.checkBad_of_unnamed h)))

theorem Dev.checkConfigure_busy (h : x.namesCheck) (hs : (d.check (chkIndex (x.get 0x20 1) (x.get 0x21 1))).cfg ≠ []) : d.checkConfigure x = d.complete x 0x06 0 :=
  (d.checkConfigure_checks x).trans (Dev.checked_first (by rw [decide_eq_true (x.namesCheck_iff.mp h), (Chk.set_iff _).mpr hs, Bool.true_and]))

section Unset
variable (hs : (d.check (chkIndex (x.get 0x20 1) (x.get 0x21 1))).cfg = [])
include hs

theorem Dev.checkConfigure_bad (hb : d.checkBad x = true) : d.checkConfigure x = d.complete x 0x04 0 :=
  (d.checkConfigure_checks x).trans ((Dev.checked_next (by simp [Chk.set, hs])).trans (Dev.checked_first hb))

theorem Dev.checkConfigure_noTap (hb : d.checkBad x = false) (hf : ¬ d.namesFed x) (ht : d.tapSet (x.get 0x26 1) (x.get 0x40 2) = false) :
    d.checkConfigure x = d.complete x 0x09 0 :=
  (d.checkConfigure_checks x).trans ((Dev.checked_next (by simp [Chk.set, hs])).trans ((Dev.checked_next hb).trans
    (Dev.checked_first (by rw [Bool.eq_false_iff.mpr (mt (d.namesFed_iff x).mp hf), ht]; rfl))))

theorem Dev.checkConfigure_accepted (hb : d.checkBad x = false) (ht : d.namesFed x ∨ d.tapSet (x.get 0x26 1) (x.get 0x40 2) = true) : d.checkConfigure x =
    (d.putCheck (chkIndex (x.get 0x20 1) (x.get 0x21 1)) ((d.check (chkIndex (x.get 0x20 1) (x.get 0x21 1))).configured x)).complete x 0 0 :=
  (d.checkConfigure_checks x).trans ((Dev.checked_next (by simp [Chk.set, hs])).trans ((Dev.checked_next hb).trans (Dev.checked_next (by
    rcases ht with ht | ht
    · rw [(d.namesFed_iff x).mpr ht]; rfl
    · rw [ht, Bool.not_true, Bool.and_false]))))

end Unset

/-- What FEED takes. -/
def Desc.feedOk (x : Desc) : Prop := x.get 0x20 1 ≤ 7 ∧ 1 ≤ x.get 0x30 8 ∧ x.get 0x30 8 ≤ 2 ^ 32

theorem Desc.feedOk_iff (x : Desc) : (x.get 0x20 1 > 7 || x.get 0x30 8 = 0 || 2 ^ 32 < x.get 0x30 8) = false ↔ x.feedOk := by
  simp only [Desc.feedOk, Bool.or_eq_false_iff, decide_eq_false_iff_not]
  omega

theorem Dev.checkFeed_checks (d : Dev) (x : Desc) : d.checkFeed x = d.checked x
    [(x.get 0x20 1 > 7 || x.get 0x30 8 = 0 || 2 ^ 32 < x.get 0x30 8, 0x04), (!d.writeFed (x.get 0x20 1), 0x06)]
    ((d.putCheck (x.get 0x20 1) { d.check (x.get 0x20 1) with v := (d.check (x.get 0x20 1)).feed (d.check (x.get 0x20 1)).v (d.memRead (x.get 0x28 8) (x.get 0x30 8)) }).complete x
      (if d.poisoned (x.get 0x28 8) (x.get 0x30 8) then 0x0F else 0) 0) := rfl

/-- What STORE_VALUE takes. -/
def Desc.storeOk (x : Desc) : Prop := x.get 0x20 1 ≤ 7 ∧ x.get 0x21 1 ≤ 1 ∧ x.get 0x28 8 % 16 = 0

theorem Desc.storeOk_iff (x : Desc) : (x.get 0x20 1 > 7 || x.get 0x21 1 > 1 || x.get 0x28 8 % 16 != 0) = false ↔ x.storeOk := by
  simp only [Desc.storeOk, Bool.or_eq_false_iff, decide_eq_false_iff_not, bne_eq_false_iff_eq]
  omega

/-- The value and the result of an engine in memory. -/
def Dev.checkStored (d : Dev) (x : Desc) : Dev :=
  d.memWrite (x.get 0x28 8) (toLE 8 (d.check (x.get 0x20 1)).v.toNat ++ toLE 8 (d.check (x.get 0x20 1)).now.toNat)

theorem Dev.checkStored_check (d : Dev) (x : Desc) (k : Nat) : (d.checkStored x).check k = d.check k := by simp [Dev.checkStored, Dev.check]

theorem Dev.checkStore_checks (d : Dev) (x : Desc) : d.checkStore x = d.checked x
    [(x.get 0x20 1 > 7 || x.get 0x21 1 > 1 || x.get 0x28 8 % 16 != 0, 0x04), (!d.writeFed (x.get 0x20 1), 0x06)]
    ((if x.get 0x21 1 = 1 then (d.checkStored x).compareEngine (x.get 0x20 1) else d.checkStored x).complete x 0 0) := rfl

theorem Dev.checkLoad_checks (d : Dev) (x : Desc) : d.checkLoad x = d.checked x [(x.get 0x20 1 > 7, 0x04), (!d.writeFed (x.get 0x20 1), 0x06)]
    ((d.putCheck (x.get 0x20 1) { d.check (x.get 0x20 1) with v := (d.check (x.get 0x20 1)).clip (BitVec.ofNat 64 (x.get 0x28 8)) }).complete x 0 0) := rfl

/-- An object as RELEASE leaves it. -/
def Chk.freed (z : Chk) : Chk := { z with cfg := [], bound := false, overrun := false, lost := false, due := [] }

theorem Dev.checkRelease_checks (d : Dev) (x : Desc) : d.checkRelease x = d.checked x [(x.get 0x20 1 > 1 || (if x.get 0x20 1 = 1 then 48 else 8) ≤ x.get 0x21 1, 0x04)]
    ((d.putCheck (chkIndex (x.get 0x20 1) (x.get 0x21 1)) (d.check (chkIndex (x.get 0x20 1) (x.get 0x21 1))).freed).complete x 0 0) := rfl

/-! ## CHK_MODE (R560) -/

theorem Dev.foldl_modeSet (d : Dev) (m j : Nat) : ∀ (l : List Nat) (_ : l.Nodup) (e : Dev) (_ : e.chkMode = m), ∃ chk,
    l.foldl (fun e i => if bitN m i != bitN d.chkMode i && (d.check i).set then e.modCheck i Chk.release else e) e = { e with chk := chk } ∧
      Tab.get {} chk j = if j ∈ l ∧ bitN m j ≠ bitN d.chkMode j ∧ (d.check j).cfg ≠ [] then (e.check j).freed else e.check j
  | [], _, e, _ => ⟨e.chk, rfl, by simp [Dev.check]⟩
  | i :: l, hl, e, hm => by
    obtain ⟨fresh, distinct⟩ := List.nodup_cons.mp hl
    rw [List.foldl_cons]
    obtain ⟨chk, run, at_⟩ := Dev.foldl_modeSet d m j l distinct (if bitN m i != bitN d.chkMode i && (d.check i).set then e.modCheck i Chk.release else e)
      (by split <;> exact hm)
    refine ⟨chk, run.trans ?_, at_.trans ?_⟩
    · split <;> rfl
    · by_cases hj : j = i
      · subst hj
        simp only [fresh, false_and, if_false, List.mem_cons_self, true_and]
        by_cases hc : bitN m j ≠ bitN d.chkMode j ∧ (d.check j).cfg ≠ []
        · rw [if_pos hc, if_pos (by simp [hc.1, Chk.set, hc.2]), Dev.modCheck_eq, Dev.check_putCheck]
          rfl
        · rw [if_neg hc, if_neg (by simpa [Chk.set] using hc)]
      · have same : (if bitN m i != bitN d.chkMode i && (d.check i).set then e.modCheck i Chk.release else e).check j = e.check j := by
          split
          · exact Dev.check_putCheck_other _ _ hj
          · rfl
        rw [same]
        simp [hj]

theorem Dev.chkSetMode_eq (d : Dev) {who : Requester} (v : Word) (hw : isPfOrFw who = true) : ∃ chk, d.chkSetMode who v = { d with chkMode := v.toNat % 256, chk := chk } ∧
    ∀ j, Tab.get {} chk j = if j < 8 ∧ bitN (v.toNat % 256) j ≠ bitN d.chkMode j ∧ (d.check j).cfg ≠ [] then (d.check j).freed else d.check j := by
  have low : bits v.toNat 0 8 = v.toNat % 256 := by simp [bits]
  have set_ (j : Nat) := Dev.foldl_modeSet d (v.toNat % 256) j (List.range 8) List.nodup_range { d with chkMode := v.toNat % 256 } rfl
  obtain ⟨chk, fold, -⟩ := set_ 0
  refine ⟨chk, (if_neg (by simp [hw])).trans ?_, fun j => ?_⟩
  · rw [low]
    exact fold
  · obtain ⟨chk', fold', hj⟩ := set_ j
    rw [show chk = chk' from congrArg Dev.chk (fold.symm.trans fold'), hj]
    exact if_congr (and_congr_left' List.mem_range) rfl rfl

theorem Dev.raise_check (d : Dev) (n k : Nat) : (d.raise n).check k = d.check k := by simp [Dev.check]
theorem Dev.putCheck_flt (d : Dev) (k : Nat) (z : Chk) : (d.putCheck k z).flt = d.flt := rfl

/-! ## Snooped units (R562 to R565) -/

/-- The tap of an object lets its units through. -/
def Dev.onTapNow (d : Dev) (kind tap j : Nat) : Prop :=
  (d.check j).cfg ≠ [] ∧ (j < 8 → d.snoopMode j = true) ∧ (d.check j).get 0x26 1 = kind ∧ (d.check j).get 0x40 2 = tap ∧ (d.check j).lost = false ∧ (d.check j).overrun = false

theorem Dev.onTapNow_iff (d : Dev) (kind tap j : Nat) :
    (d.onTap kind tap j (d.check j) && !(d.check j).lost && !(d.check j).overrun) = true ↔ d.onTapNow kind tap j := by
  have mode : (8 ≤ j ∨ bitN d.chkMode j = true) ↔ (j < 8 → d.snoopMode j = true) := by
    unfold Dev.snoopMode
    by_cases h : j < 8
    · simp [h]
    · simp [h, Nat.not_lt.mp h]
  simp only [Dev.onTap, Bool.and_eq_true, Bool.or_eq_true, Bool.not_eq_true', beq_iff_eq, decide_eq_true_eq, mode, List.isEmpty_eq_false_iff]
  exact ⟨fun ⟨⟨⟨⟨⟨hs, hm⟩, hk⟩, ht⟩, hl⟩, ho⟩ => ⟨hs, hm, hk, ht, hl, ho⟩, fun ⟨hs, hm, hk, ht, hl, ho⟩ => ⟨⟨⟨⟨⟨hs, hm⟩, hk⟩, ht⟩, hl⟩, ho⟩⟩

theorem Dev.tapUnit_check (hw : Tab.wf {} d.chk) (kind tap : Nat) (mt : Option Nat) (bs : List Byte) (w : Bool) (j : Nat) : (d.tapUnit kind tap mt bs w).check j =
    if d.onTap kind tap j (d.check j) && !(d.check j).lost && !(d.check j).overrun then { d.check j with due := (d.check j).due ++ [(mt, bs, w)] } else d.check j :=
  Tab.get_mapAll (f := fun k c => if d.onTap kind tap k c && !c.lost && !c.overrun then { c with due := c.due ++ [(mt, bs, w)] } else c) hw
    (fun _ => if_neg (by simp [Dev.onTap])) j

/-- An object's tap and its own state let it judge a unit. -/
def Dev.judges (d : Dev) (k : Nat) (z : Chk) : Prop :=
  z.cfg ≠ [] ∧ (k < 8 → d.snoopMode k = true) ∧ z.overrun = false ∧ z.lost = false ∧ d.tapSet (z.get 0x26 1) (z.get 0x40 2) = true

theorem Dev.judges_iff (d : Dev) (k : Nat) (z : Chk) :
    (!z.set || (k < 8 && !d.snoopMode k) || z.overrun || z.lost || !d.tapSet (z.get 0x26 1) (z.get 0x40 2)) = false ↔ d.judges k z := by
  simp only [Dev.judges, Bool.or_eq_false_iff, Bool.not_eq_false', Chk.set_iff, Bool.and_eq_false_iff, decide_eq_false_iff_not]
  exact ⟨fun ⟨⟨⟨⟨hs, hm⟩, ho⟩, hl⟩, ht⟩ => ⟨hs, fun hk => hm.elim (absurd hk) id, ho, hl, ht⟩,
    fun ⟨hs, hm, ho, hl, ht⟩ => ⟨⟨⟨⟨hs, (Decidable.em (k < 8)).elim (fun hk => Or.inr (hm hk)) Or.inl⟩, ho⟩, hl⟩, ht⟩⟩

/-- The oldest unit that an object has not judged is the one named. -/
def Chk.names (z : Chk) (mt : Nat) (bs : List Byte) (w : Bool) : Bool :=
  match z.due with | (m, b, v) :: _ => m.getD mt == mt && b == bs && v == w | [] => false

/-- The device after unit (mt, bs) of an object is judged: `z` is the object without that unit. -/
def Dev.snoopJudged (d : Dev) (k mt : Nat) (bs : List Byte) (withheld full whole : Bool) (z : Chk) : Dev :=
  let island := if k < 8 then (if k < 4 then 28 else 29) else if k < 32 then 28 else 29
  if !z.bound && !whole then d.putCheck k { z with bound := true }
  else if full && (d.fab.windows.get [] island).headD 0 < floorOf island then d.putCheck k { z with overrun := true }
  else
    let v := z.feed (if z.segment then BitVec.ofNat 64 z.model.init else z.v) bs
    let c1 := { z with v := v, bound := true }
    let r := c1.now
    let differs := match d.expected z with | some e => r.toNat != e | none => false
    let entry := toLE 8 mt ++ toLE 8 r.toNat ++ toLE 8 bs.length ++ toLE 4 z.units ++ toLE 4 (b2n differs + 2 * b2n withheld)
    let d1 := d.putCheck k { c1 with result := r, units := z.units + 1, wptr := if z.logAddr = 0 then z.wptr else (z.wptr + 32) % z.logSize }
    let d2 := if z.logAddr = 0 then d1 else d1.memWrite (z.logAddr + z.wptr) entry
    if differs then d2.mismatch k else d2

variable {mt : Nat} {bs : List Byte} {withheld full whole : Bool} {z : Chk}

theorem Dev.snoopEnd_eq (d : Dev) (k mt : Nat) (bs : List Byte) (withheld full whole : Bool) : d.snoopEnd k mt bs withheld full whole =
    if !(d.check k).names mt bs withheld || !(d.check k).set || (k < 8 && !d.snoopMode k) || (d.check k).overrun || (d.check k).lost ||
      !d.tapSet ((d.check k).get 0x26 1) ((d.check k).get 0x40 2) then d
    else d.snoopJudged k mt bs withheld full whole { d.check k with due := (d.check k).due.drop 1 } := rfl

theorem Dev.snoopEnd_skips (h : (d.check k).names mt bs withheld = false ∨ ¬ d.judges k (d.check k)) : d.snoopEnd k mt bs withheld full whole = d := by
  refine (d.snoopEnd_eq ..).trans (if_pos ?_)
  rcases h with h | h
  · simp [h]
  · have shape (a b c e f g : Bool) (hb : (b || c || e || f || g) = true) : (a || b || c || e || f || g) = true := by revert hb; cases a <;> simp
    exact shape _ _ _ _ _ _ (Bool.eq_true_of_not_eq_false fun hb => h ((d.judges_iff k _).mp hb))

theorem Dev.snoopEnd_judges (hn : (d.check k).names mt bs withheld = true) (hj : d.judges k (d.check k)) : d.snoopEnd k mt bs withheld full whole =
    d.snoopJudged k mt bs withheld full whole { d.check k with due := (d.check k).due.drop 1 } := by
  refine (d.snoopEnd_eq ..).trans (if_neg ?_)
  have shape (b c e f g : Bool) (hb : (b || c || e || f || g) = false) : ¬ (!true || b || c || e || f || g) = true := by simpa using hb
  rw [hn]
  exact shape _ _ _ _ _ ((d.judges_iff k _).mpr hj)

theorem Dev.snoopJudged_partial (hb : z.bound = false) (hw : whole = false) : d.snoopJudged k mt bs withheld full whole z = d.putCheck k { z with bound := true } :=
  if_pos (by rw [hb, hw]; rfl)

/-- The island of an object. -/
def chkIsland (k : Nat) : Nat := if k < 4 ∨ (8 ≤ k ∧ k < 32) then 28 else 29

theorem chkIsland_eq (k : Nat) : (if k < 8 then (if k < 4 then 28 else 29) else if k < 32 then 28 else 29) = chkIsland k := by
  unfold chkIsland
  split <;> split <;> split <;> omega

theorem Dev.snoopJudged_full (hb : z.bound = true ∨ whole = true) (hf : full = true) (hl : (d.fab.windows.get [] (chkIsland k)).headD 0 < floorOf (chkIsland k)) :
    d.snoopJudged k mt bs withheld full whole z = d.putCheck k { z with overrun := true } := by
  unfold Dev.snoopJudged
  rw [chkIsland_eq]
  refine (if_neg ?_).trans (if_pos ?_)
  · rcases hb with h | h <;> simp [h]
  · rw [hf, decide_eq_true hl, Bool.true_and]

/-- What a unit of an object is compared with, and whether its result differs. -/
def Dev.wanted (d : Dev) (z : Chk) : Nat := if z.compare = 2 then leNat (d.memRead (z.get 0x50 8 + z.units % z.get 0x46 2 * 8) 8) else z.get 0x48 8
def Dev.unitDiffers (d : Dev) (z : Chk) (r : BitVec 64) : Bool := (z.compare == 1 || z.compare == 2) && r.toNat != d.wanted z

theorem Dev.unitDiffers_eq (d : Dev) (z : Chk) (r : BitVec 64) : (match d.expected z with | some e => r.toNat != e | none => false) = d.unitDiffers z r := by
  unfold Dev.unitDiffers Dev.wanted Dev.expected
  by_cases h1 : z.compare = 1
  · simp [h1]
  · by_cases h2 : z.compare = 2
    · simp [h2]
    · simp [h1, h2]

/-- An object after it has fed a unit, and with the unit's result. -/
def Chk.fedUnit (z : Chk) (bs : List Byte) : Chk := { z with v := z.feed (if z.segment then BitVec.ofNat 64 z.model.init else z.v) bs, bound := true }
def Chk.counted (z : Chk) (bs : List Byte) : Chk :=
  { z.fedUnit bs with result := (z.fedUnit bs).now, units := z.units + 1, wptr := if z.logAddr = 0 then z.wptr else (z.wptr + 32) % z.logSize }

/-- The device after a unit is logged. -/
def Dev.snoopLogged (d : Dev) (k mt : Nat) (bs : List Byte) (withheld : Bool) (z : Chk) : Dev :=
  if z.logAddr = 0 then d.putCheck k (z.counted bs)
  else (d.putCheck k (z.counted bs)).memWrite (z.logAddr + z.wptr) (toLE 8 mt ++ toLE 8 (z.fedUnit bs).now.toNat ++ toLE 8 bs.length ++ toLE 4 z.units ++
    toLE 4 (b2n (d.unitDiffers z (z.fedUnit bs).now) + 2 * b2n withheld))

theorem Dev.snoopLogged_check (d : Dev) (k mt : Nat) (bs : List Byte) (withheld : Bool) (z : Chk) (j : Nat) :
    (d.snoopLogged k mt bs withheld z).check j = (d.putCheck k (z.counted bs)).check j := by
  unfold Dev.snoopLogged
  split
  · rfl
  · simp [Dev.check]

theorem Dev.snoopLogged_flt (d : Dev) (k mt : Nat) (bs : List Byte) (withheld : Bool) (z : Chk) : (d.snoopLogged k mt bs withheld z).flt = d.flt := by
  unfold Dev.snoopLogged
  split <;> simp

theorem Dev.snoopJudged_whole (hb : z.bound = true ∨ whole = true)
    (hf : full = false ∨ ¬ (d.fab.windows.get [] (chkIsland k)).headD 0 < floorOf (chkIsland k)) : d.snoopJudged k mt bs withheld full whole z =
    if d.unitDiffers z (z.fedUnit bs).now = true then (d.snoopLogged k mt bs withheld z).mismatch k else d.snoopLogged k mt bs withheld z := by
  unfold Dev.snoopJudged
  rw [chkIsland_eq]
  refine (if_neg ?_).trans ((if_neg ?_).trans ?_)
  · rcases hb with h | h <;> simp [h]
  · rcases hf with h | h
    · simp [h]
    · simp only [decide_eq_false h, Bool.and_false]
      exact Bool.false_ne_true
  dsimp only
  rw [Dev.unitDiffers_eq]
  rfl

theorem Dev.snoopLogged_mismatch (d : Dev) (k mt : Nat) (bs : List Byte) (withheld : Bool) (z : Chk) : (d.snoopLogged k mt bs withheld z).mismatch k =
    ((d.snoopLogged k mt bs withheld z).putCheck k (z.counted bs).missed).toldOf z := by
  rw [Dev.mismatch_eq, Dev.snoopLogged_check, Dev.check_putCheck]
  rfl

end Objects

/-- Settles O54: the descriptors by their checks and what they leave, the registers by who writes them, a snooped unit by whether it is the one to judge. -/
theorem checkUnits : Obligations.CheckUnits := by
  unfold Obligations.CheckUnits
  intro s x e who i v form
  dsimp only
  have run {u op : Nat} {sp : Dev → Desc → OpSpec} {j : Instr} {f : Dev → Desc → Dev} {k : Dev} (ht : s.dev.Takes u op sp x e)
      (hx : exec j s = ok s (s.dev.runUnit u op sp f)) (h : f e x = k) : exec j s = .next { s with dev := k } := hx.trans (congrArg (ok s) ((ht.runUnit f).trans h))
  refine ⟨fun ht => ⟨fun h => run ht rfl (Dev.checkConfigure_unnamed h), fun h hs => run ht rfl (Dev.checkConfigure_busy h hs), fun h hs =>
      ⟨fun hr => run ht rfl (Dev.checkConfigure_bad hs (e.checkBad_of_range hr)), fun hb hf hn => run ht rfl (Dev.checkConfigure_noTap hs hb hf hn),
        fun hb hn => run ht rfl (Dev.checkConfigure_accepted hs hb hn)⟩⟩, fun ht => ?_, fun ht => ?_, fun ht => ?_, fun ht => ?_, ⟨fun hw => ?_, fun hw => ?_⟩, fun kind tap u hwf j => ?_,
      fun k mt bs withheld full whole m rest => ?_⟩
  · have checks := e.checkFeed_checks x
    exact ⟨fun h => run ht rfl (checks.trans (Dev.checked_first (check_fails x.feedOk_iff h))),
      fun h hf => run ht rfl (checks.trans ((Dev.checked_next (x.feedOk_iff.mpr h)).trans (Dev.checked_first (by simp [hf])))),
      fun h hf => run ht rfl (checks.trans ((Dev.checked_next (x.feedOk_iff.mpr h)).trans (Dev.checked_next (by simp [hf]))))⟩
  · have checks := e.checkStore_checks x
    have stored (h : x.storeOk) (hf : e.writeFed (x.get 0x20 1) = true) : e.checkStore x =
        (if x.get 0x21 1 = 1 then (e.checkStored x).compareEngine (x.get 0x20 1) else e.checkStored x).complete x 0 0 :=
      checks.trans ((Dev.checked_next (x.storeOk_iff.mpr h)).trans (Dev.checked_next (by simp [hf])))
    refine ⟨fun h => run ht rfl (checks.trans (Dev.checked_first (check_fails x.storeOk_iff h))),
      fun h hf => run ht rfl (checks.trans ((Dev.checked_next (x.storeOk_iff.mpr h)).trans (Dev.checked_first (by simp [hf])))),
      fun h hf hc => run ht rfl ((stored h hf).trans (congrArg (fun f : Dev => f.complete x 0 0) ?_)), fun h hf h1 hc => run ht rfl ((stored h hf).trans (congrArg (fun f : Dev => f.complete x 0 0) ?_)), fun h hf hr => ?_⟩
    · split
      · next h1 =>
        refine Dev.compareEngine_agrees ?_
        rw [Dev.checkStored_check]
        exact hc.resolve_left (by omega)
      · rfl
    · rw [if_pos h1, Dev.compareEngine_differs (by rw [Dev.checkStored_check]; exact hc), Dev.checkStored_check]
      rfl
    · refine Dev.memRead_memWrite (bs := toLE 8 (e.check (x.get 0x20 1)).v.toNat ++ toLE 8 (e.check (x.get 0x20 1)).now.toNat) ?_
      simpa using hr
  · have checks := e.checkLoad_checks x
    refine ⟨fun h => run ht rfl (checks.trans (Dev.checked_first (decide_eq_true h))),
      fun h hf => run ht rfl (checks.trans ((Dev.checked_next (by simpa using h)).trans (Dev.checked_first (by simp [hf])))),
      fun h hf => run ht rfl (checks.trans ((Dev.checked_next (by simpa using h)).trans ((Dev.checked_next (by simp [hf])).trans ?_)))⟩
    rw [Chk.clip_set (Dev.writeFed_set hf)]
    rfl
  · have checks := e.checkRelease_checks x
    exact ⟨fun h => run ht rfl (checks.trans (Dev.checked_first (check_fails x.namesCheck_iff_release h))),
      fun h => run ht rfl (checks.trans (Dev.checked_next (x.namesCheck_iff_release.mpr h)))⟩
  · have stays {b : Bool} (f : Dev) (h : b = false) : (if !b then s.dev else f) = s.dev := if_pos (by simp [h])
    exact ⟨congrArg (ok s) (stays _ hw), congrArg (ok s) (if_neg (by simp [hw])), congrArg (ok s) (if_neg (by simp [hw])), congrArg (ok s) (if_neg (by simp [hw])),
      congrArg (ok s) (stays _ hw)⟩
  · have goes {b : Bool} {f g : Dev} (h : b = true) : (if !b then f else g) = g := if_neg (by simp [h])
    refine ⟨fun hf => congrArg (ok s) ((goes hw).trans (if_pos hf)), fun hf => congrArg (ok s) ((goes hw).trans (if_neg (by simp [hf]))),
      fun hs => congrArg (ok s) ((if_pos hw).trans ?_), fun hs => ⟨congrArg (ok s) ((if_pos hw).trans ?_), congrArg (ok s) (if_neg (by simp [Chk.set, hs])), congrArg (ok s) (if_neg (by simp [Chk.set, hs]))⟩,
      fun hs => congrArg (ok s) (if_pos (by simp [hw, Chk.set, hs])), fun hs hd => congrArg (ok s) ((if_pos (by simp [hw, Chk.set, hs])).trans (Dev.compareEngine_agrees hd)),
      fun hs hd => congrArg (ok s) ((if_pos (by simp [hw, Chk.set, hs])).trans (Dev.compareEngine_differs hd)), ?_⟩
    · rw [Dev.modCheck_eq, Chk.clip_set ((Chk.set_iff _).mpr hs), BitVec.toNat_append, ← Nat.shiftLeft_add_eq_or_of_lt (BitVec.isLt _), Nat.shiftLeft_eq]
    · rw [Dev.modCheck_eq, Chk.clip, if_neg (by simp [Chk.set, hs])]
    · obtain ⟨chk, set_, at_⟩ := s.dev.chkSetMode_eq v hw
      refine ⟨{ s.dev with chkMode := v.toNat % 256, chk := chk }, congrArg (ok s) set_, rfl, fun j hj => (at_ j).trans (if_neg (by omega)), rfl, fun j hj => (at_ j).trans ?_⟩
      simp only [hj, true_and]
      rfl
  · rw [Dev.tapUnit_check hwf]
    exact ⟨fun h => if_pos ((s.dev.onTapNow_iff kind tap j).mpr h), fun h => if_neg (mt (s.dev.onTapNow_iff kind tap j).mp h)⟩
  · have named (hd : (s.dev.check k).due = (m, bs, withheld) :: rest) (hm : m = none ∨ m = some mt) : (s.dev.check k).names mt bs withheld = true := by
      unfold Chk.names
      rw [hd]
      rcases hm with rfl | rfl <;> simp
    have judged (hd : (s.dev.check k).due = (m, bs, withheld) :: rest) (hm : m = none ∨ m = some mt) (ht : s.dev.judges k (s.dev.check k)) :
        s.dev.snoopEnd k mt bs withheld full whole = s.dev.snoopJudged k mt bs withheld full whole { s.dev.check k with due := rest } := by
      rw [Dev.snoopEnd_judges (named hd hm) ht, hd]
      rfl
    refine ⟨fun hd => congrArg (ok s) (Dev.snoopEnd_skips (Or.inl (by simp [Chk.names, hd]))), fun t b w hd hn => congrArg (ok s) (Dev.snoopEnd_skips (Or.inl ?_)),
      fun ht => congrArg (ok s) (Dev.snoopEnd_skips (Or.inr ht)), fun hd hm ht hb hw => congrArg (ok s) ((judged hd hm ht).trans (Dev.snoopJudged_partial hb hw)),
      fun hd hm ht hb => ⟨fun hf hl => congrArg (ok s) ((judged hd hm ht).trans (Dev.snoopJudged_full hb hf hl)), fun hf => ?_⟩⟩
    · unfold Chk.names
      rw [hd]
      rcases hn with ⟨y, rfl, hy⟩ | hb | hw
      · simp [hy]
      · simp [hb]
      · simp [hw]
    · have ends := (judged hd hm ht).trans (Dev.snoopJudged_whole hb hf)
      refine ⟨fun hn => congrArg (ok s) (ends.trans (if_neg (Bool.eq_false_iff.mp hn))), fun hn => congrArg (ok s) (ends.trans ((if_pos hn).trans (Dev.snoopLogged_mismatch ..))), fun hn ha => ?_⟩
      have told : (Dev.toldOf ((s.dev.snoopLogged k mt bs withheld { s.dev.check k with due := rest }).putCheck k (Chk.counted { s.dev.check k with due := rest } bs).missed)
          { s.dev.check k with due := rest }) = ((s.dev.snoopLogged k mt bs withheld { s.dev.check k with due := rest }).putCheck k
            (Chk.counted { s.dev.check k with due := rest } bs).missed).raise 47 := if_pos ha
      refine ⟨_, congrArg (ok s) (ends.trans ((if_pos hn).trans ((Dev.snoopLogged_mismatch ..).trans told))), ?_, fun j hj => ?_, fun hl => Dev.raise_status (by decide) ?_⟩
      · rw [Dev.raise_check, Dev.check_putCheck]
        rfl
      · rw [Dev.raise_check, Dev.check_putCheck_other _ _ hj, Dev.snoopLogged_check, Dev.check_putCheck_other _ _ hj]
      · rw [Dev.putCheck_flt, Dev.snoopLogged_flt]
        exact hl

end Sys2Proof.Machine

/-! # The fault collector (R571 to R586) -/

namespace Sys2Proof.Machine

/-! ## A latch cycle (R572, R576, R578, R579) -/

/-- The collector and what its reactions drive: all that a latch cycle changes. -/
def Dev.Collects (d f : Dev) : Prop := f = { d with flt := f.flt, hub := f.hub, flow := f.flow, queue := f.queue, casc := f.casc, waiting := f.waiting, out := f.out }

theorem Dev.Collects.latch (d : Dev) (srcs : BitVec 64) : d.Collects (d.latch srcs) := by
  unfold Dev.Collects
  have h := Dev.latch_frame d srcs
  generalize d.latch srcs = e at h ⊢
  cases e
  simpa only [Dev.mk.injEq, true_and, and_true] using h

theorem Dev.Collects.setLine (d : Dev) (i : Nat) (b : Bool) : d.Collects (d.setLine i b) := by
  unfold Dev.Collects
  have h := Dev.setLine_frame d i b
  generalize d.setLine i b = e at h ⊢
  cases e
  simpa only [Dev.mk.injEq, true_and, and_true] using h

section Latch
variable {d : Dev} {srcs : BitVec 64} {i : Nat}

theorem Dev.mem_fresh : i ∈ d.fresh srcs ↔ i < 64 ∧ srcs.getLsbD i = true ∧ d.flt.latched.get 0 i = 0 := by simp [Dev.fresh]

/-- The highest class of the sources that latch. -/
theorem le_foldl_max {α : Type} (g : α → Nat) : ∀ (l : List α) (n : Nat), n ≤ l.foldl (fun m i => max m (g i)) n ∧ ∀ i ∈ l, g i ≤ l.foldl (fun m i => max m (g i)) n
  | [], n => ⟨le_refl n, by simp⟩
  | i :: l, n => by
    obtain ⟨base, each⟩ := le_foldl_max g l (max n (g i))
    refine ⟨le_trans (le_max_left _ _) base, fun j hj => ?_⟩
    rcases List.mem_cons.mp hj with rfl | hj
    · exact le_trans (le_max_right _ _) base
    · exact each j hj

theorem foldl_max_le {α : Type} (g : α → Nat) {b : Nat} : ∀ (l : List α) (n : Nat) (_ : n ≤ b) (_ : ∀ i ∈ l, g i ≤ b), l.foldl (fun m i => max m (g i)) n ≤ b
  | [], _, hn, _ => hn
  | i :: l, n, hn, h => foldl_max_le g l (max n (g i)) (max_le hn (h i (by simp))) fun j hj => h j (by simp [hj])

theorem Flt.classOf_le (f : Flt) (i : Nat) : f.classOf i ≤ 3 := Nat.le_of_lt_succ (Nat.mod_lt _ (by decide))

/-- The collector once its sources have latched, before any reaction. -/
def Dev.latchedWith (d : Dev) (srcs : BitVec 64) : Dev :=
  { d with flt := { d.flt with status := d.flt.status ||| srcs, latched := (d.fresh srcs).foldl (fun t i => t.put 0 i (d.flt.classOf i + 1)) d.flt.latched } }

theorem Dev.latchedWith_get (d : Dev) (srcs : BitVec 64) (i : Nat) :
    (d.latchedWith srcs).flt.latched.get 0 i = if i ∈ d.fresh srcs then d.flt.classOf i + 1 else d.flt.latched.get 0 i :=
  Tab.get_foldl_put 0 (fun i => d.flt.classOf i + 1) _ _ _

theorem Dev.latch_none (h : d.fresh srcs = []) : d.latch srcs = d := if_pos h

/-- Sources of class 0 set their bits and no more. -/
theorem Dev.latch_quiet (h : d.fresh srcs ≠ []) (h0 : ∀ i ∈ d.fresh srcs, d.flt.classOf i = 0) : d.latch srcs = d.latchedWith srcs := by
  have top : (d.fresh srcs).foldl (fun m i => max m (d.flt.classOf i)) 0 = 0 := Nat.le_zero.mp (foldl_max_le _ _ _ (le_refl 0) fun i hi => (h0 i hi).le)
  unfold Dev.latch
  dsimp only
  rw [if_neg h, top]
  rfl

/-- The reactions that follow: one message and one broadcast, then those of a HALT. -/
def Dev.reacted (d : Dev) (top : Nat) (was : Bool) : Dev :=
  let d2 := if top = 0 then d else (d.raiseVector 0 1).broadcast
  if top = 3 && !was then d2.haltActions else d2

theorem Dev.latch_reacted (h : d.fresh srcs ≠ []) :
    d.latch srcs = (d.latchedWith srcs).reacted ((d.fresh srcs).foldl (fun m i => max m (d.flt.classOf i)) 0) d.halted := if_neg h

theorem Dev.reacted_halt (d : Dev) : d.reacted 3 false = ((d.raiseVector 0 1).broadcast).haltActions := by
  unfold Dev.reacted
  dsimp only
  rw [if_pos (by decide), if_neg (by decide)]

theorem Dev.reacted_latched (d : Dev) (top : Nat) (was : Bool) : (d.reacted top was).flt.latched = d.flt.latched := by
  have told : (if top = 0 then d else (d.raiseVector 0 1).broadcast).flt.latched = d.flt.latched := by split <;> simp
  unfold Dev.reacted
  dsimp only
  split
  · exact (Dev.haltActions_latched _).trans told
  · exact told

theorem Dev.latch_get (d : Dev) (srcs : BitVec 64) (i : Nat) :
    (d.latch srcs).flt.latched.get 0 i = if i ∈ d.fresh srcs then d.flt.classOf i + 1 else d.flt.latched.get 0 i := by
  by_cases h : d.fresh srcs = []
  · rw [Dev.latch_none h, h]
    rfl
  · rw [Dev.latch_reacted h, Dev.reacted_latched, Dev.latchedWith_get]

theorem Dev.latch_status_fresh (h : i ∈ d.fresh srcs) : (d.latch srcs).flt.status.getLsbD i = true := by
  obtain ⟨-, hs, -⟩ := Dev.mem_fresh.mp h
  rw [(d.latch_flt srcs).1 (List.ne_nil_of_mem h), BitVec.getLsbD_or, hs, Bool.or_true]

theorem Dev.latch_status_low (h : srcs.getLsbD i = false) : (d.latch srcs).flt.status.getLsbD i = d.flt.status.getLsbD i := by
  by_cases hf : d.fresh srcs = []
  · rw [Dev.latch_none hf]
  · rw [(d.latch_flt srcs).1 hf, BitVec.getLsbD_or, h, Bool.or_false]

/-- A source of class 1 or higher raises vector 1, unless the link is down or the vector is masked. -/
theorem Dev.latch_message (hf : i ∈ d.fresh srcs) (hc : 1 ≤ d.flt.classOf i) (hl : d.hub.linkUp = true) (hm : (d.hub.msix.get 1 7).getLsbD 0 = false) :
    OutEv.msix 0 1 ∈ (d.latch srcs).out := by
  have top : (d.fresh srcs).foldl (fun m i => max m (d.flt.classOf i)) 0 ≠ 0 := by
    have := (le_foldl_max d.flt.classOf (d.fresh srcs) 0).2 i hf
    omega
  have raised : (d.latchedWith srcs).raiseVector 0 1 = (d.latchedWith srcs).emit (.msix 0 1) := by
    unfold Dev.raiseVector
    refine (if_neg ?_).trans (if_neg ?_)
    · exact fun h => Bool.noConfusion ((show (!d.hub.linkUp) = true from h).symm.trans (by rw [hl]))
    · exact fun h => Bool.noConfusion ((show (d.hub.msix.get 1 7).getLsbD 0 = true from h).symm.trans hm)
  have told : [OutEv.msix 0 1] <:+: ((d.latchedWith srcs).raiseVector 0 1).out := by
    rw [raised, Dev.emit_of_link_zero _ rfl]
    exact ⟨d.out, [], List.append_nil _⟩
  have out : ((d.latchedWith srcs).raiseVector 0 1).out <+: (d.latch srcs).out := by
    rw [Dev.latch_reacted (List.ne_nil_of_mem hf)]
    unfold Dev.reacted
    dsimp only
    rw [if_neg top]
    split
    · exact Dev.haltActions_keeps_out (Dev.broadcast_keeps_out (List.prefix_refl _))
    · exact Dev.broadcast_keeps_out (List.prefix_refl _)
  exact out.subset (told.subset (List.mem_singleton_self _))

/-! ## HALT (R575) -/

theorem Dev.halted_of_latched {k : Nat} (h : d.flt.latched.get 0 k = 4) : d.halted = true := by
  refine List.any_eq_true.mpr ⟨_, Tab.mem_of_get (z := 0) (k := k) (by rw [h]; decide), ?_⟩
  simp [h]

theorem Dev.halted_congr {e : Dev} (h : e.flt.latched = d.flt.latched) : e.halted = d.halted := by rw [Dev.halted, Dev.halted, h]

/-- A HALT is a condition of the bypass (Table 17.2). -/
theorem Dev.updateBypass_halted (h : d.halted = true) : d.updateBypass.casc.closed = true := by
  have cause : (d.bypassCause != 0 || !d.ctl.pwrOk) = true := by
    have bit : d.bypassCause ≠ 0 := by
      unfold Dev.bypassCause
      rw [h]
      simp [fld, b2n]
    simp [bit]
  unfold Dev.updateBypass
  dsimp only
  rw [cause]
  split
  · next hc => exact (beq_iff_eq.mp hc).symm
  · rfl

theorem Dev.haltActions_closes (h : d.halted = true) : d.haltActions.casc.closed = true := by
  have switched : (((d.discardQueues fun _ => true).serveLink 1).serveLink 2).updateBypass.casc.closed = true :=
    Dev.updateBypass_halted ((Dev.halted_congr (by simp)).trans h)
  unfold Dev.haltActions
  dsimp only
  split
  · simpa only [Dev.emit_frame] using switched
  · exact switched

theorem Dev.latch_halts (hf : i ∈ d.fresh srcs) (hc : d.flt.classOf i = 3) : (d.latch srcs).halted = true := by
  refine Dev.halted_of_latched (k := i) ?_
  rw [Dev.latch_get, if_pos hf, hc]

theorem Dev.latch_closes (hf : i ∈ d.fresh srcs) (hc : d.flt.classOf i = 3) (hh : d.halted = false) : (d.latch srcs).casc.closed = true := by
  have top : (d.fresh srcs).foldl (fun m i => max m (d.flt.classOf i)) 0 = 3 :=
    le_antisymm (foldl_max_le _ _ _ (by decide) fun j _ => d.flt.classOf_le j) (hc ▸ (le_foldl_max d.flt.classOf (d.fresh srcs) 0).2 i hf)
  have halted : (d.latchedWith srcs).halted = true := Dev.halted_of_latched (k := i) (by rw [Dev.latchedWith_get, if_pos hf, hc])
  rw [Dev.latch_reacted (List.ne_nil_of_mem hf), top, hh, Dev.reacted_halt]
  exact Dev.haltActions_closes ((Dev.halted_congr (by simp)).trans halted)

end Latch

/-! ## Lines that rise together (R571, R578) -/

section Rise
variable {d : Dev} {srcs : BitVec 64} {i : Nat}

/-- The lines that rise: a condition's that is at 1 already does not. -/
def Dev.rising (d : Dev) (srcs : BitVec 64) : BitVec 64 := srcs &&& ~~~(conditionWord &&& d.flt.live)

/-- The conditions among them stay at 1. -/
def Dev.risen (d : Dev) (srcs : BitVec 64) : Dev := { d with flt := { d.flt with live := d.flt.live ||| (d.rising srcs &&& conditionWord) } }

theorem Dev.riseLines_eq (d : Dev) (srcs : BitVec 64) : d.riseLines srcs = (d.risen srcs).latch (d.rising srcs) := rfl

theorem Dev.risen_collects (d : Dev) (srcs word : BitVec 64) : d.Collects ((d.risen srcs).latch word) := Dev.Collects.latch (d.risen srcs) word

theorem Dev.mem_fresh_risen : i ∈ (d.risen srcs).fresh (d.rising srcs) ↔ i < 64 ∧ (d.rising srcs).getLsbD i = true ∧ d.flt.latched.get 0 i = 0 := Dev.mem_fresh

theorem Dev.risen_live (hA : i ≠ 45) (hB : i ≠ 46) : ((d.risen srcs).latch (d.rising srcs)).flt.live.getLsbD i =
    (d.flt.live.getLsbD i || ((d.rising srcs).getLsbD i && conditionWord.getLsbD i)) := by
  rw [((d.risen srcs).latch_flt _).2 i hA hB]
  simp only [Dev.risen, BitVec.getLsbD_or, BitVec.getLsbD_and]

end Rise

/-! ## Classes (R577) -/

theorem two_bits {n : Nat} (w : BitVec n) (m : Nat) : w.toNat / 2 ^ m % 4 = (w.getLsbD m).toNat + 2 * (w.getLsbD (m + 1)).toNat := by
  have high : w.toNat / 2 ^ (m + 1) = w.toNat / 2 ^ m / 2 := by rw [Nat.pow_succ, Nat.div_div_eq_div_mul]
  rw [← BitVec.testBit_toNat, ← BitVec.testBit_toNat, Nat.testBit_eq_decide_div_mod_eq, Nat.testBit_eq_decide_div_mod_eq, high]
  have low : (decide (w.toNat / 2 ^ m % 2 = 1)).toNat = w.toNat / 2 ^ m % 2 := by
    rcases Nat.mod_two_eq_zero_or_one (w.toNat / 2 ^ m) with h | h <;> simp [h]
  have next : (decide (w.toNat / 2 ^ m / 2 % 2 = 1)).toNat = w.toNat / 2 ^ m / 2 % 2 := by
    rcases Nat.mod_two_eq_zero_or_one (w.toNat / 2 ^ m / 2) with h | h <;> simp [h]
  rw [low, next]
  omega

theorem word_pair (v : Word) (m : Nat) : v.toNat / 4 ^ m % 4 = (v.getLsbD (2 * m)).toNat + 2 * (v.getLsbD (2 * m + 1)).toNat := by
  rw [show 4 ^ m = 2 ^ (2 * m) by rw [Nat.pow_mul]]
  exact two_bits v (2 * m)

theorem Flt.classOf_eq_bits (f : Flt) (j : Nat) : f.classOf j = (f.cls.getLsbD (2 * j)).toNat + 2 * (f.cls.getLsbD (2 * j + 1)).toNat := two_bits f.cls (2 * j)

/-- One class written into the word of classes. -/
def putClass (w : BitVec 128) (v : Word) (k i : Nat) : BitVec 128 :=
  (w &&& ~~~(3#128 <<< (2 * (16 * k + i)))) ||| ((v >>> (2 * i)).setWidth 2).setWidth 128 <<< (2 * (16 * k + i))

theorem putClass_getLsbD {w : BitVec 128} {v : Word} {k i b : Nat} (hb : b < 128) :
    (putClass w v k i).getLsbD b = if b / 2 = 16 * k + i then v.getLsbD (b - 32 * k) else w.getLsbD b := by
  have three (n : Nat) : (3#128).getLsbD n = decide (n < 2) := by
    match n with
    | 0 => rfl
    | 1 => rfl
    | n + 2 =>
      have high : (3 : Nat).testBit (n + 2) = false := Nat.testBit_lt_two_pow (Nat.lt_of_lt_of_le (by decide : 3 < 2 ^ 2) (Nat.pow_le_pow_right (by decide) (by omega)))
      rw [← BitVec.testBit_toNat]
      exact high.trans (decide_eq_false (by omega)).symm
  have word : (((v >>> (2 * i)).setWidth 2).setWidth 128 <<< (2 * (16 * k + i))).getLsbD b = (decide (b / 2 = 16 * k + i) && v.getLsbD (b - 32 * k)) := by
    simp only [BitVec.getLsbD_shiftLeft, BitVec.getLsbD_setWidth, BitVec.getLsbD_ushiftRight]
    by_cases h : b / 2 = 16 * k + i
    · have low : b - 2 * (16 * k + i) < 2 := by omega
      rw [show 2 * i + (b - 2 * (16 * k + i)) = b - 32 * k by omega]
      simp [hb, h, low, show ¬ b < 2 * (16 * k + i) by omega, show b - 2 * (16 * k + i) < 128 by omega]
    · by_cases hlt : b < 2 * (16 * k + i)
      · simp [h, hlt]
      · simp [h, show ¬ b - 2 * (16 * k + i) < 2 by omega]
  have mask : (3#128 <<< (2 * (16 * k + i))).getLsbD b = decide (b / 2 = 16 * k + i) := by
    rw [BitVec.getLsbD_shiftLeft, three]
    by_cases h : b / 2 = 16 * k + i
    · simp [hb, h, show ¬ b < 2 * (16 * k + i) by omega, show b - 2 * (16 * k + i) < 2 by omega]
    · by_cases hlt : b < 2 * (16 * k + i)
      · simp [h, hlt]
      · simp [h, show ¬ b - 2 * (16 * k + i) < 2 by omega]
  unfold putClass
  rw [BitVec.getLsbD_or, BitVec.getLsbD_and, BitVec.getLsbD_not, word, mask, decide_eq_true hb]
  by_cases h : b / 2 = 16 * k + i <;> simp [h]

theorem writeClasses_getLsbD (v : Word) (k b : Nat) (hb : b < 128) : ∀ (l : List Nat) (w : BitVec 128), (l.foldl (fun w i =>
      if lockedSources.contains (16 * k + i) then w else putClass w v k i) w).getLsbD b =
    if (∃ i ∈ l, b / 2 = 16 * k + i) ∧ lockedSources.contains (b / 2) = false then v.getLsbD (b - 32 * k) else w.getLsbD b
  | [], w => by simp
  | i :: l, w => by
    rw [List.foldl_cons, writeClasses_getLsbD v k b hb l]
    by_cases hl : (∃ i ∈ l, b / 2 = 16 * k + i) ∧ lockedSources.contains (b / 2) = false
    · obtain ⟨⟨j, hj, he⟩, hc⟩ := hl
      rw [if_pos ⟨⟨j, hj, he⟩, hc⟩, if_pos ⟨⟨j, List.mem_cons_of_mem _ hj, he⟩, hc⟩]
    · rw [if_neg hl]
      by_cases hi : b / 2 = 16 * k + i
      · cases hc : lockedSources.contains (16 * k + i) with
        | true =>
          rw [if_pos rfl, if_neg]
          rintro ⟨-, h⟩
          rw [hi, hc] at h
          exact Bool.noConfusion h
        | false => rw [if_neg (by decide), putClass_getLsbD hb, if_pos hi, if_pos ⟨⟨i, by simp, hi⟩, hi ▸ hc⟩]
      · have stays : (if lockedSources.contains (16 * k + i) then w else putClass w v k i).getLsbD b = w.getLsbD b := by
          split
          · rfl
          · rw [putClass_getLsbD hb, if_neg hi]
        rw [stays, if_neg]
        rintro ⟨⟨j, hj, he⟩, hc⟩
        rcases List.mem_cons.mp hj with rfl | hj
        · exact hi he
        · exact hl ⟨⟨j, hj, he⟩, hc⟩

/-- The classes after a write of FLT_CLASSk. -/
theorem writeClasses_classOf (f : Flt) (v : Word) (k : Fin 4) {j : Nat} (hj : j < 64) : ({ f with cls := writeClasses f.cls k v } : Flt).classOf j =
    if 16 * k.val ≤ j ∧ j < 16 * k.val + 16 ∧ lockedSources.contains j = false then v.toNat / 4 ^ (j - 16 * k.val) % 4 else f.classOf j := by
  have bit (b : Nat) (h : b / 2 = j) : (writeClasses f.cls k v).getLsbD b =
      if 16 * k.val ≤ j ∧ j < 16 * k.val + 16 ∧ lockedSources.contains j = false then v.getLsbD (b - 32 * k) else f.cls.getLsbD b := by
    refine (writeClasses_getLsbD v k b (by omega) (List.range 16) f.cls).trans (if_congr ?_ rfl rfl)
    rw [h]
    refine ⟨fun ⟨⟨i, hi, he⟩, hc⟩ => ?_, fun ⟨h1, h2, hc⟩ => ⟨⟨j - 16 * k.val, List.mem_range.mpr (by omega), by omega⟩, hc⟩⟩
    have := List.mem_range.mp hi
    exact ⟨by omega, by omega, hc⟩
  rw [Flt.classOf_eq_bits, Flt.classOf_eq_bits, bit (2 * j) (by omega), bit (2 * j + 1) (by omega)]
  split
  · rw [word_pair, show 2 * j - 32 * k.val = 2 * (j - 16 * k.val) by omega,
      show 2 * j + 1 - 32 * k.val = 2 * (j - 16 * k.val) + 1 by omega]
  · rfl

/-! ## Clearing sticky bits (R580, R581) -/

section Clear
variable {d : Dev}

theorem Dev.updateBypass_cls (d : Dev) : d.updateBypass.flt.cls = d.flt.cls := by
  unfold Dev.updateBypass
  dsimp only
  split
  · rfl
  · split
    · rfl
    · simp

/-- Choosing by a bit's negation is choosing the other way. -/
theorem ite_not_bool (b : Bool) (m n : Nat) : (if (!b) = true then m else n) = if b = true then n else m := by
  cases b with
  | true => rfl
  | false => rfl

theorem Dev.offerPairing_keeps_waiting {l : List OutEv} (h : l <+: d.waiting) : l <+: d.offerPairing.waiting := by
  unfold Dev.offerPairing
  split
  · rw [Dev.sendPairing, Dev.emit, if_neg (by simp [OutEv.link])]
    exact h.trans ⟨_, rfl⟩
  · exact h

/-- The device with some sticky bits and their reactions gone. -/
def Dev.bitsCleared (d : Dev) (c : BitVec 64) : Dev :=
  { d with flt := { d.flt with status := d.flt.status &&& ~~~c, latched := d.flt.latched.filter fun p => !c.getLsbD p.1 } }.clearEcc c

/-- The last HALT is gone: the bypass follows, and the partner is told. -/
def Dev.haltOver (d : Dev) : Dev := if d.updateBypass.twin.st = .unpaired then d.updateBypass else (d.updateBypass.emit (.twin 11 0 d.updateBypass.media [0])).offerPairing

theorem Dev.haltOver_flt (d : Dev) : d.haltOver.flt = d.updateBypass.flt := by
  unfold Dev.haltOver
  split
  · rfl
  · simp

theorem Dev.haltOver_tells (h : d.twin.st ≠ .unpaired) : OutEv.twin 11 0 d.media [0] ∈ d.haltOver.waiting := by
  have unpaired : d.updateBypass.twin.st ≠ .unpaired := by simpa using h
  have media : d.updateBypass.media = d.media := by simp [Dev.media, Dev.nowNs]
  unfold Dev.haltOver
  rw [if_neg unpaired, media, Dev.emit_waits d.updateBypass (e := .twin 11 0 d.media [0]) (Nat.succ_ne_zero 2)]
  exact (Dev.offerPairing_keeps_waiting (l := d.updateBypass.waiting ++ [.twin 11 0 d.media [0]]) (List.prefix_refl _)).subset (by simp)

theorem Dev.releaseFaults_eq (d : Dev) (mask : BitVec 64) : d.releaseFaults mask =
    if d.halted && !(d.bitsCleared (d.clearable mask)).halted then (d.bitsCleared (d.clearable mask)).haltOver else d.bitsCleared (d.clearable mask) := rfl

theorem Dev.releaseFaults_flt (d : Dev) (mask : BitVec 64) : (d.releaseFaults mask).flt.status = d.flt.status &&& ~~~(d.clearable mask) ∧
    (d.releaseFaults mask).flt.latched = d.flt.latched.filter (fun p => !(d.clearable mask).getLsbD p.1) ∧ (d.releaseFaults mask).flt.cls = d.flt.cls := by
  rw [Dev.releaseFaults_eq]
  split
  · rw [Dev.haltOver_flt, Dev.updateBypass_latched, Dev.updateBypass_cls, (Dev.updateBypass_flt _).1]
    exact ⟨rfl, rfl, rfl⟩
  · exact ⟨rfl, rfl, rfl⟩

theorem Dev.releaseFaults_running (h : d.halted = false) (mask : BitVec 64) : d.releaseFaults mask = d.bitsCleared (d.clearable mask) := by
  rw [Dev.releaseFaults_eq, h, Bool.false_and]
  rfl

theorem Dev.releaseFaults_tells {mask : BitVec 64} (h : d.halted = true) (hf : (d.releaseFaults mask).halted = false) (ht : d.twin.st ≠ .unpaired) :
    OutEv.twin 11 0 d.media [0] ∈ (d.releaseFaults mask).waiting := by
  have over_ : (d.bitsCleared (d.clearable mask)).halted = false := (Dev.halted_congr (d.releaseFaults_flt mask).2.1).symm.trans hf
  rw [Dev.releaseFaults_eq, h, over_]
  exact Dev.haltOver_tells (d := d.bitsCleared (d.clearable mask)) ht

/-! ## The heartbeat and ALIVE (R573, R583) -/

theorem Dev.setLine_status {i : Nat} (hi : i < 64) (hv : d.flt.live.getLsbD i = false) (hl : d.flt.latched.get 0 i = 0) : (d.setLine i true).flt.status.getLsbD i = true := by
  unfold Dev.setLine
  rw [if_pos rfl, if_neg (by simp [hv])]
  exact Dev.raise_status hi hl

theorem Dev.setLine_latched {i : Nat} (hi : i < 64) (hv : d.flt.live.getLsbD i = false) (hl : d.flt.latched.get 0 i = 0) :
    (d.setLine i true).flt.latched.get 0 i = d.flt.classOf i + 1 := by
  unfold Dev.setLine
  rw [if_pos rfl, if_neg (by simp [hv])]
  exact Dev.raise_latched hi hl

theorem Dev.setLine_already {i : Nat} (hv : d.flt.live.getLsbD i = true) : d.setLine i true = d := (if_pos rfl).trans (if_pos hv)

theorem Dev.beating_iff (d : Dev) : d.beating = true ↔ ∃ b, d.flt.beat = some b ∧ d.ctl.ticks ≤ b + 30000000 := by
  unfold Dev.beating
  cases d.flt.beat <;> simp

/-- ALIVE toggles at a new multiple of 500,000 ns while the device is healthy. -/
theorem Dev.aliveAt_toggles {n : Nat} (h : n ≠ d.flt.aliveK) (hh : (d.beating && !d.halted) = true) :
    d.aliveAt n = { d with flt := { d.flt with aliveK := n, alive := !d.flt.alive }, out := d.out ++ [.pin "ALIVE" (!d.flt.alive)] } := by
  unfold Dev.aliveAt
  dsimp only
  rw [if_neg h, if_pos hh, Dev.emit_of_link_zero _ rfl]

theorem Dev.complete_flt (d : Dev) (x : Desc) (status mt : Nat) : (d.complete x status mt).flt = d.flt := by simp

end Clear

/-- Settles O55: lines that rise by one latch cycle, ASSERT and the registers by their own equations, the heartbeat, the watchdog and ALIVE by the tick. -/
theorem faultCollector : Obligations.FaultCollector := by
  unfold Obligations.FaultCollector
  intro s x e who k v srcs hi
  dsimp only
  have run {k : Dev} (ht : s.dev.Takes 15 1 assertSpec x e) (h : e.faultAssert x = k) : exec .faultAssert s = .next { s with dev := k } :=
    congrArg (ok s) ((ht.runUnit Dev.faultAssert).trans h)
  refine ⟨?_, fun ht => ⟨fun h => run ht (Dev.checked_first (by simpa using h)), fun h0 h1 => run ht ((Dev.checked_next (by simp [h0, h1])).trans ?_), fun h0 h1 hv => run ht ((Dev.checked_next
      (by simp [h0, h1])).trans ?_), fun h0 h1 hv => completes_ok (run ht (Dev.checked_next (by simp [h0, h1]))) ?_⟩, fun hw => ⟨congrArg (ok s) (if_neg (by simp [hw])),
    congrArg (ok s) (if_neg (by simp [hw])), congrArg (ok s) (if_neg (by simp [hw]))⟩, fun hw => ⟨?_, fun hl => congrArg (ok s) (if_neg (by simp [hl])), fun hl => ?_, congrArg (ok s) (if_pos hw)⟩,
    fun h => congrArg (ok s) (if_neg (by rcases h with h | h <;> simp [h])), fun hw hb => congrArg (ok s) (if_pos (by simp [hw, hb])), fun b hb => ⟨fun h => ?_, fun h => ?_⟩,
    fun b hb => ⟨fun h => ?_, fun h => ?_⟩, ⟨fun h => congrArg (ok s) (if_pos h), fun h hn => ?_, fun h hh => ?_⟩, ?_, ?_, ?_⟩
  · refine ⟨_, congrArg (ok s) (s.dev.riseLines_eq srcs), s.dev.risen_collects srcs _, fun i h => ?_, fun i h => ⟨Dev.latch_status_low h, ?_⟩, fun i hA hB => Dev.risen_live hA hB,
      fun ⟨i, h, hc⟩ hl hm => Dev.latch_message (Dev.mem_fresh_risen.mpr h) hc hl hm, fun h => ?_,
      fun ⟨i, h, hc⟩ => ⟨Dev.latch_halts (Dev.mem_fresh_risen.mpr h) hc, fun hh => Dev.latch_closes (Dev.mem_fresh_risen.mpr h) hc hh⟩⟩
    · have fresh := Dev.mem_fresh_risen.mpr h
      exact ⟨Dev.latch_status_fresh fresh, (Dev.latch_get _ _ _).trans (if_pos fresh)⟩
    · refine (Dev.latch_get _ _ _).trans (if_neg fun hf => ?_)
      obtain ⟨-, hr, -⟩ := Dev.mem_fresh_risen.mp hf
      exact Bool.noConfusion (hr.symm.trans h)
    · by_cases hn : (s.dev.risen srcs).fresh (s.dev.rising srcs) = []
      · rw [Dev.latch_none hn]
        exact ⟨rfl, rfl, rfl⟩
      · rw [Dev.latch_quiet hn fun i hi => h i (Dev.mem_fresh_risen.mp hi)]
        exact ⟨rfl, rfl, rfl⟩
  · rw [Dev.checked_nil, h1]
    rfl
  · rw [Dev.checked_nil, h1]
    exact congrArg (fun f : Dev => f.complete x 0 0) (Dev.setLine_already hv)
  · rw [Dev.checked_nil, h1, Dev.complete_flt]
    exact ⟨Dev.setLine_high _ (by omega) (by omega) (by omega), fun hl => ⟨Dev.setLine_status (by omega) hv hl, Dev.setLine_latched (by omega) hv hl⟩⟩
  · obtain ⟨status, latched, cls⟩ := s.dev.releaseFaults_flt (if hi then v.setWidth 64 <<< 32 else v.setWidth 64)
    refine ⟨_, congrArg (ok s) (if_pos hw), status, fun i => ?_, cls, fun hh => ?_, fun hh hf ht => Dev.releaseFaults_tells hh hf ht⟩
    · rw [latched]
      refine (Tab.get_filter_key 0 (fun n => !(s.dev.clearable (if hi then v.setWidth 64 <<< 32 else v.setWidth 64)).getLsbD n) s.dev.flt.latched i).trans ?_
      exact ite_not_bool _ _ _
    · rw [Dev.releaseFaults_running hh]
      exact ⟨rfl, rfl, rfl, rfl⟩
  · refine ⟨_, congrArg (ok s) (if_pos (by simp [hw, hl])), fun i hi => (writeClasses_classOf s.dev.flt v k (by omega)).trans ?_, fun j hj =>
      (writeClasses_classOf s.dev.flt v k (by omega)).trans (if_neg (by omega)), rfl⟩
    rw [Nat.add_sub_cancel_left]
    cases hc : lockedSources.contains (16 * k.val + i) with
    | true => rw [if_neg (by simp), if_pos rfl]
    | false => rw [if_pos ⟨by omega, by omega, rfl⟩, if_neg (by decide)]
  · refine congrArg (ok s) ?_
    unfold Dev.watchdog
    rw [hb]
    exact if_neg (by omega)
  · have late : s.dev.watchdog = s.dev.setLine 0 true := by
      unfold Dev.watchdog
      rw [hb]
      exact if_pos h
    exact ⟨_, congrArg (ok s) late, Dev.Collects.setLine _ _ _, Dev.setLine_high _ (by decide) (by decide) (by decide), Dev.setLine_status (by decide)⟩
  · refine congrArg (ok s) ?_
    unfold Dev.beatLapse
    rw [hb]
    exact if_neg (by omega)
  · refine congrArg (ok s) ?_
    unfold Dev.beatLapse
    rw [hb]
    exact if_pos h
  · refine congrArg (ok s) ((if_neg h).trans (if_neg fun hb => hn ?_))
    obtain ⟨beats, runs⟩ := Bool.and_eq_true_iff.mp hb
    exact ⟨(Dev.beating_iff _).mp beats, by simpa using runs⟩
  · exact congrArg (ok s) (Dev.aliveAt_toggles h (Bool.and_eq_true_iff.mpr ⟨(Dev.beating_iff _).mpr hh.1, by simpa using hh.2⟩))
  · exact ⟨_, rfl, Dev.Collects.latch _ _, fun hl => ⟨Dev.raise_status (by decide) hl, Dev.raise_latched (by decide) hl⟩⟩
  · exact ⟨_, rfl, Dev.Collects.setLine _ _ _, Dev.setLine_high _ (by decide) (by decide) (by decide)⟩
  · exact ⟨_, rfl, Dev.Collects.setLine _ _ _, Dev.setLine_high _ (by decide) (by decide) (by decide)⟩

end Sys2Proof.Machine

/-! # The trust engine (O56) -/

namespace Sys2Proof.Machine

/-! ## The TRUST descriptors -/

section Descriptors

variable {d : Dev} {x : Desc}

theorem attestBad_iff : attestBad x = false ↔ x.get 0x20 1 ≤ 2 ∧ (x.get 0x20 1 = 2 → x.get 0x22 2 ≤ 0x3FF) ∧ (x.get 0x20 1 ≠ 2 → x.get 0x22 2 = 0) ∧ 300 ≤ x.get 0x24 2 ∧
    x.get 0x24 2 ≤ 60000 ∧ x.get 0x28 8 % 64 = 0 ∧ 80416 ≤ x.get 0x30 4 := by
  unfold attestBad
  by_cases h : x.get 0x20 1 = 2 <;> simp [h, and_assoc]

theorem attestBusy_iff : ((x.get 0x20 1 == 0 && d.quoteFull) || (x.get 0x20 1 == 1 && d.twin.st != .paired) || (x.get 0x20 1 == 2 && d.casc.cfg.isEmpty)) = true ↔
    (x.get 0x20 1 = 0 ∧ 8 ≤ d.trust.queue.length) ∨ (x.get 0x20 1 = 1 ∧ d.twin.st ≠ .paired) ∨ (x.get 0x20 1 = 2 ∧ d.casc.cfg = []) := by
  simp [Dev.quoteFull, or_assoc]

theorem Dev.askQuote_joins {q : QuoteFor} (h : ¬ 8 ≤ d.trust.queue.length) : d.askQuote q = { d with trust := { d.trust with queue := d.trust.queue ++ [q] } } :=
  if_neg (by simpa [Dev.quoteFull] using h)

theorem Dev.askQuote_full {q : QuoteFor} (h : 8 ≤ d.trust.queue.length) : d.askQuote q = d.refuseQuote q 6 := if_pos (by simpa [Dev.quoteFull] using h)

/-- The device on which an accepted ATTEST waits for its quote. -/
def Dev.attesting (d : Dev) (x : Desc) : Dev := { d with trust := { d.trust with attests := d.trust.attests ++ [(x, d.ctl.ticks, [])] } }

section Accepted

variable (hg : attestBad x = false)
  (hb : ¬ ((x.get 0x20 1 = 0 ∧ 8 ≤ d.trust.queue.length) ∨ (x.get 0x20 1 = 1 ∧ d.twin.st ≠ .paired) ∨ (x.get 0x20 1 = 2 ∧ d.casc.cfg = [])))
include hg hb

theorem Dev.trustAttest_accepts :
    d.trustAttest x = match x.get 0x20 1 with
      | 0 => (d.attesting x).askQuote (.self x)
      | 1 => (d.attesting x).emit (.twin 13 0 d.media ((x.bytes.drop 0x40).take 32))
      | _ => (d.attesting x).sendControl {} 0 (x.get 0x22 2) .quoteRequest ((x.bytes.drop 0x40).take 32) :=
  (Dev.checked_next hg).trans (Dev.checked_next (Bool.eq_false_iff.mpr (mt attestBusy_iff.mp hb)))

theorem Dev.trustAttest_self (hk : x.get 0x20 1 = 0) : d.trustAttest x = { d with trust := { d.trust with attests := d.trust.attests ++ [(x, d.ctl.ticks, [])], queue := d.trust.queue ++ [.self x] } } := by
  rw [Dev.trustAttest_accepts hg hb, hk]
  exact Dev.askQuote_joins fun h => hb (.inl ⟨hk, h⟩)

theorem Dev.trustAttest_partner (hk : x.get 0x20 1 = 1) : d.trustAttest x = { d.attesting x with waiting := d.waiting ++ [.twin 13 0 d.media ((x.bytes.drop 0x40).take 32)] } := by
  rw [Dev.trustAttest_accepts hg hb, hk]
  exact Dev.emit_waits _ (by simp [OutEv.link])

theorem Dev.trustAttest_cascade (hk : x.get 0x20 1 = 2) : d.trustAttest x = (d.attesting x).sendControl {} 0 (x.get 0x22 2) .quoteRequest ((x.bytes.drop 0x40).take 32) := by
  rw [Dev.trustAttest_accepts hg hb, hk]
  rfl

end Accepted

theorem certsBad_iff : (x.get 0x20 8 % 64 != 0 || decide (x.get 0x28 4 < 131072)) = false ↔ x.get 0x20 8 % 64 = 0 ∧ 131072 ≤ x.get 0x28 4 := by simp

theorem measureBad_iff {n : Nat} : (n % 64 != 0 || decide (n < 64) || decide (2 ^ 32 < n)) = false ↔ n % 64 = 0 ∧ 64 ≤ n ∧ n ≤ 2 ^ 32 := by simp [and_assoc]

/-- What MEASURE and the boot find of an extended slot. -/
theorem Dev.extend_meas (d : Dev) (k : Nat) (bs : List Byte) : (d.extend k bs).trust.meas.get [] k = Config.shake256 (d.meas k ++ bs) 64 := Tab.get_put_same _ _ _ _

theorem Dev.extend_meas_other (d : Dev) {j k : Nat} (bs : List Byte) (h : j ≠ k) : (d.extend k bs).trust.meas.get [] j = d.trust.meas.get [] j := Tab.get_put_other _ _ _ h

theorem Dev.complete_trust (d : Dev) (x : Desc) (status mt : Nat) : (d.complete x status mt).trust = d.trust := by
  obtain ⟨thr, dsp, mem, poison, h⟩ := d.complete_eq x status mt
  rw [h]

end Descriptors

/-! ## Quotes -/

section Quotes

variable {d : Dev} {q : QuoteFor} {rest : List QuoteFor}

theorem Dev.quoteStart_idle (h : d.trust.serving = true ∨ d.flt.live.getLsbD 0 = true ∨ d.trust.queue = []) : d.quoteStart = d := by
  unfold Dev.quoteStart
  by_cases busy : (d.trust.serving || d.flt.live.getLsbD 0) = true
  · exact if_pos busy
  · rw [if_neg busy]
    rcases h with h | h | h
    · exact absurd (by simp [h]) busy
    · exact absurd (by simp [h]) busy
    · rw [h]

theorem Dev.quoteStart_keyed (h : ¬ (d.trust.serving = true ∨ d.flt.live.getLsbD 0 = true ∨ d.trust.queue = [])) (hq : d.trust.queue = q :: rest) (hk : d.trust.keyReady = true) :
    d.quoteStart = { d with trust := { d.trust with serving := true, snap := d.quoteBody q.nonce (if (d.flt.live.getLsbD 51 || !d.prl.powered) = true then none else some d.prl.block), blockDue := if (d.flt.live.getLsbD 51 || !d.prl.powered) = true then none else some (d.ctl.ticks + 30000000) } } := by
  unfold Dev.quoteStart
  rw [if_neg fun busy => h (by rcases Bool.or_eq_true_iff.mp busy with hs | hl <;> simp [*]), hq]
  exact if_neg (by simp [hk])

theorem Dev.quoteStart_keyless (h : ¬ (d.trust.serving = true ∨ d.flt.live.getLsbD 0 = true ∨ d.trust.queue = [])) (hq : d.trust.queue = q :: rest) (hk : d.trust.keyReady = false) :
    d.quoteStart = { d with trust := { d.trust with queue := rest } }.refuseQuote q 15 := by
  unfold Dev.quoteStart
  rw [if_neg fun busy => h (by rcases Bool.or_eq_true_iff.mp busy with hs | hl <;> simp [*]), hq]
  exact if_pos (by simp [hk])

theorem Dev.refuseQuote_partner (d : Dev) (nonce : List Byte) (status : Nat) :
    d.refuseQuote (.partner nonce) status = { d with waiting := d.waiting ++ [.twin 14 0 d.media (toLE 1 status)] } := Dev.emit_waits d (by simp [OutEv.link])

/-- The device whose quote in service is over. -/
def Dev.quoteDone (d : Dev) (rest : List QuoteFor) : Dev := { d with trust := { d.trust with serving := false, queue := rest, snap := [], blockDue := none } }

theorem Dev.quoteSigned_idle (h : d.trust.serving = false ∨ d.trust.queue = []) : d.quoteSigned = d := by
  unfold Dev.quoteSigned
  rcases h with h | h
  · rw [h]
  · rw [h]
    cases d.trust.serving with
    | false => rfl
    | true => rfl

theorem Dev.quoteSigned_serving (hs : d.trust.serving = true) (hq : d.trust.queue = q :: rest) : d.quoteSigned =
    if (!d.trust.keyReady) = true then (d.quoteDone rest).refuseQuote q 15
    else match q with
      | .self x =>
        if d.trust.attests.any (·.1 == x) then
          ({ d.quoteDone rest with trust := { (d.quoteDone rest).trust with attests := d.trust.attests.eraseP (·.1 == x) } }.memWrite (x.get 0x28 8) d.quoteBytes).complete x 0 0
        else d.quoteDone rest
      | .partner _ => (d.quoteDone rest).emit (.twin 14 0 d.media d.quoteBytes)
      | .casc a _ => (quoteParts d.quoteBytes).foldl (fun e p => e.sendControl {} 0 a .quotePart p) (d.quoteDone rest) := by
  unfold Dev.quoteSigned
  split
  · next q1 rest1 serving queue =>
    obtain ⟨rfl, rfl⟩ := List.cons.inj (queue.symm.trans hq)
    cases q1 with
    | self x => rfl
    | partner nonce => rfl
    | casc a nonce => rfl
  · next none_ => exact absurd hq (none_ _ _ hs)

theorem Dev.quoteSigned_keyless (hs : d.trust.serving = true) (hq : d.trust.queue = q :: rest) (hk : d.trust.keyReady = false) : d.quoteSigned = (d.quoteDone rest).refuseQuote q 15 :=
  (Dev.quoteSigned_serving hs hq).trans (if_pos (by simp [hk]))

theorem Dev.quoteSigned_keyed (hs : d.trust.serving = true) (hq : d.trust.queue = q :: rest) (hk : d.trust.keyReady = true) :
    d.quoteSigned = match q with
      | .self x =>
        if d.trust.attests.any (·.1 == x) then
          ({ d.quoteDone rest with trust := { (d.quoteDone rest).trust with attests := d.trust.attests.eraseP (·.1 == x) } }.memWrite (x.get 0x28 8) d.quoteBytes).complete x 0 0
        else d.quoteDone rest
      | .partner _ => (d.quoteDone rest).emit (.twin 14 0 d.media d.quoteBytes)
      | .casc a _ => (quoteParts d.quoteBytes).foldl (fun e p => e.sendControl {} 0 a .quotePart p) (d.quoteDone rest) :=
  (Dev.quoteSigned_serving hs hq).trans (if_neg (by simp [hk]))

theorem Dev.quoteSigned_self {y : Desc} {since : Nat} {got : List Byte} (hs : d.trust.serving = true) (hq : d.trust.queue = .self y :: rest) (hk : d.trust.keyReady = true)
    (ha : d.trust.attests = [(y, since, got)]) : d.quoteSigned =
      ({ d with trust := { d.trust with serving := false, queue := rest, snap := [], blockDue := none, attests := [] } }.memWrite (y.get 0x28 8) d.quoteBytes).complete y 0 0 := by
  rw [Dev.quoteSigned_keyed hs hq hk]
  dsimp only
  rw [ha, if_pos (by simp), List.eraseP_cons_of_pos (by simp)]
  rfl

theorem Dev.quoteSigned_partner {nonce : List Byte} (hs : d.trust.serving = true) (hq : d.trust.queue = .partner nonce :: rest) : d.quoteSigned =
    { d.quoteDone rest with waiting := d.waiting ++ [.twin 14 0 d.media (if d.trust.keyReady = true then d.quoteBytes else [0x0F])] } := by
  cases hk : d.trust.keyReady with
  | false =>
    rw [Dev.quoteSigned_keyless hs hq hk, Dev.refuseQuote_partner, if_neg (by decide)]
    rfl
  | true =>
    rw [Dev.quoteSigned_keyed hs hq hk, if_pos rfl]
    exact Dev.emit_waits _ (by simp [OutEv.link])

theorem Dev.blockTimeout_due {due : Nat} (hd : d.trust.blockDue = some due) : d.blockTimeout =
    if (d.trust.serving && decide (due ≤ d.ctl.ticks)) = true then
      { d with trust := { d.trust with blockDue := none, snap := overlay (overlay d.trust.snap 8 (toLE 1 (byteAt d.trust.snap 8 ||| 1))) 0x280 (zeros 29920) } }
    else d := by
  unfold Dev.blockTimeout
  rw [hd]

end Quotes

/-! ## An ATTEST that waits alone -/

section Attests

/-- The requests that stay when some are dropped: the one in service, and those that are kept. -/
def keptQueue (serving : Bool) (queue : List QuoteFor) (keep : QuoteFor → Bool) : List QuoteFor :=
  match serving, queue with
  | true, q :: rest => q :: rest.filter keep
  | _, q => q.filter keep

theorem keptQueue_nil (serving : Bool) (keep : QuoteFor → Bool) : keptQueue serving [] keep = [] := by
  cases serving with
  | false => rfl
  | true => rfl

/-- A request whose ATTEST has not run out. -/
def stays (late : List (Desc × Nat × List Byte)) (q : QuoteFor) : Bool :=
  match q with
  | .self x => !late.any (·.1 == x)
  | _ => true

theorem keptQueue_late (y : Desc) (since : Nat) (got : List Byte) : keptQueue false [.self y] (stays [(y, since, got)]) = [] := by
  simp [keptQueue, stays]

variable {d : Dev} {y : Desc} {since : Nat} {got : List Byte} (ha : d.trust.attests = [(y, since, got)])
include ha

theorem Dev.attestTimeout_early (hl : ¬ since + y.get 0x24 2 * 3000000 ≤ d.ctl.ticks) (hq : d.trust.queue = []) : d.attestTimeout = d := by
  have kept : d.attestTimeout = { d with trust := { d.trust with attests := [(y, since, got)], queue := keptQueue d.trust.serving d.trust.queue (stays []) } } := by
    unfold Dev.attestTimeout
    dsimp only
    rw [ha, List.filter_cons_of_neg (by simpa using hl), List.filter_cons_of_pos (by simpa using hl)]
    rfl
  rw [kept, hq, keptQueue_nil, ← ha, ← hq]

theorem Dev.attestTimeout_late (hl : since + y.get 0x24 2 * 3000000 ≤ d.ctl.ticks) : d.attestTimeout =
    ({ d with trust := { d.trust with attests := [], queue := keptQueue d.trust.serving d.trust.queue (stays [(y, since, got)]) } } : Dev).complete y 0x0A 0 := by
  unfold Dev.attestTimeout
  dsimp only
  rw [ha, List.filter_cons_of_pos (by simpa using hl), List.filter_cons_of_neg (by simpa using hl)]
  rfl

theorem Dev.twinQuote_foreign {bs : List Byte} (h : y.get 0x20 1 ≠ 1) : d.twinQuote bs = d := by
  have none_ : (d.trust.attests.find? fun a => a.1.get 0x20 1 == 1) = none := by simp [ha, h]
  unfold Dev.twinQuote Dev.quoteRefused Dev.quotePart
  dsimp only
  rw [none_]
  exact ite_self _

theorem Dev.twinQuote_refused {b : Byte} (h : y.get 0x20 1 = 1) : d.twinQuote [b] = ({ d with trust := { d.trust with attests := [] } } : Dev).complete y b.toNat 0 := by
  have found : (d.trust.attests.find? fun a => a.1.get 0x20 1 == 1) = some (y, since, got) := by simp [ha, h]
  unfold Dev.twinQuote Dev.quoteRefused
  dsimp only
  rw [if_pos List.length_singleton, found]
  dsimp only
  rw [ha, List.eraseP_cons_of_pos (by simp [h])]
  rfl

theorem Dev.twinQuote_part {bs : List Byte} (h : y.get 0x20 1 = 1) (hb : bs.length ≠ 1) (hl : (got ++ bs).length < 80416) :
    d.twinQuote bs = { d with trust := { d.trust with attests := [(y, since, got ++ bs)] } } := by
  have found : (d.trust.attests.find? fun a => a.1.get 0x20 1 == 1) = some (y, since, got) := by simp [ha, h]
  unfold Dev.twinQuote Dev.quotePart
  dsimp only
  rw [if_neg hb, found]
  dsimp only
  rw [if_pos hl, ha, List.map_cons, if_pos (by simp), List.map_nil]

theorem Dev.twinQuote_whole {bs : List Byte} (h : y.get 0x20 1 = 1) (hb : bs.length ≠ 1) (hl : 80416 ≤ (got ++ bs).length) :
    d.twinQuote bs = (({ d with trust := { d.trust with attests := [] } } : Dev).memWrite (y.get 0x28 8) ((got ++ bs).take 80416)).complete y 0 0 := by
  have found : (d.trust.attests.find? fun a => a.1.get 0x20 1 == 1) = some (y, since, got) := by simp [ha, h]
  unfold Dev.twinQuote Dev.quotePart
  dsimp only
  rw [if_neg hb, found]
  dsimp only
  rw [if_neg (Nat.not_lt.mpr hl), ha, List.eraseP_cons_of_pos (by simp [h])]
  rfl

end Attests

/-! ## Tamper and recovery -/

section Tamper

variable {d : Dev} {sensors : BitVec 3}

theorem bitN_toNat {w : Nat} (v : BitVec w) (i : Nat) : bitN v.toNat i = v.getLsbD i := by
  rw [← BitVec.testBit_toNat, Nat.testBit_eq_decide_div_mod_eq, bitN_eq]

theorem trips_iff (old : Nat) : ((List.range 3).any fun i => bitN sensors.toNat i && !bitN old i) = true ↔ ∃ i, i < 3 ∧ sensors.getLsbD i = true ∧ bitN old i = false := by
  simp [bitN_toNat]

theorem Dev.tamperTrip_trips (hp : d.ctl.pwrOk = true) (ht : ∃ i, i < 3 ∧ sensors.getLsbD i = true ∧ bitN d.trust.sensors i = false) : d.tamperTrip sensors.toNat =
    { d with trust := { d.trust with sensors := sensors.toNat, tamper := min 65535 (d.trust.tamper + 1), keyReady := false } }.setLine 49 true := by
  unfold Dev.tamperTrip
  rw [if_neg (by simp [hp]), if_pos ((trips_iff _).mpr ht)]
  rfl

theorem Dev.tamperTrip_quiet (hp : d.ctl.pwrOk = true) (ht : ¬ ∃ i, i < 3 ∧ sensors.getLsbD i = true ∧ bitN d.trust.sensors i = false) : d.tamperTrip sensors.toNat =
    { d with trust := { d.trust with sensors := sensors.toNat } }.setLine 49 (sensors.toNat != 0) := by
  unfold Dev.tamperTrip
  rw [if_neg (by simp [hp]), if_neg (mt (trips_iff _).mp ht)]

theorem Dev.setLine_trust (d : Dev) (i : Nat) (b : Bool) : (d.setLine i b).trust = d.trust := by simp
theorem Dev.setLine_ctl (d : Dev) (i : Nat) (b : Bool) : (d.setLine i b).ctl = d.ctl := by simp
theorem Dev.setLine_mcAt (d : Dev) (i m : Nat) (b : Bool) : (d.setLine i b).mcAt m = d.mcAt m := by simp [Dev.mcAt]

theorem recoverGo_iff {v : Word} : (v.getLsbD 31 && d.ctl.bootFailed && !(List.range 12).any (fun m => (d.mcAt m).st == 5)) = true ↔
    v.getLsbD 31 = true ∧ d.ctl.bootFailed = true ∧ ∀ m, m < 12 → (d.mcAt m).st ≠ 5 := by
  simp [and_assoc]

end Tamper

/-! ## Images -/

section Images

variable {d : Dev} {img : BootImage} {copyB : Bool} {k : Nat}

theorem Dev.accepts_iff : d.accepts img.typ img = true ↔ img.present = true ∧ fieldLE img.signed 0 4 = 0x4B475349 ∧ fieldLE img.signed 4 1 = img.typ ∧
    (fieldLE img.signed 5 1 ≤ 3 ∨ (fieldLE img.signed 5 1 = 4 ∧ img.typ = 4)) ∧ fieldLE img.signed 6 2 = 0 ∧ zeroBytes img.signed 0x50 48 = true ∧ fieldLE img.signed 8 4 ≤ 64 ∧
    fieldLE img.signed 0x0C 4 % 64 = 0 ∧ fieldLE img.signed 0x0C 4 ≤ 2 ^ 24 ∧ img.signed.length = 128 + fieldLE img.signed 0x0C 4 ∧
    Config.shake256 ((img.signed.drop 0x10).take 64) 64 = d.trust.keyHash.get (Config.keyHash (fieldLE img.signed 5 1)) (fieldLE img.signed 5 1) ∧
    d.trust.revoked.get (Config.keyRevoked (fieldLE img.signed 5 1)) (fieldLE img.signed 5 1) = false ∧ img.sigOk = true ∧ d.trust.fused ≤ fieldLE img.signed 8 4 := by
  have version : imageVersion img = fieldLE img.signed 8 4 := rfl
  rw [← version]
  simp [Dev.accepts, headerOk, Dev.keyOk, shake512, zeroBytes_iff, and_assoc]

/-- The device on which an accepted image is measured and counts as done. -/
def Dev.imageRuns (d : Dev) (k : Nat) (copyB : Bool) (img : BootImage) : Dev :=
  { d.extend k (shake512 img.signed) with trust :=
    { (d.extend k (shake512 img.signed)).trust with
      versions := d.trust.versions.put 0 k (imageVersion img), done := d.trust.done ++ [k], failed := d.trust.failed.filter (· != k),
      boot := if k = 0 then 1 else d.trust.boot, copyB := if k = 0 then copyB else d.trust.copyB } }

theorem Dev.acceptImage_eq : d.acceptImage k copyB img =
    if k = 4 then (List.range 12).foldl (fun e m => e.modMcAt m fun c => { c with rate := d.freeVal % 4 }) (d.imageRuns k copyB img).authLine.nextFree
    else (d.imageRuns k copyB img).authLine := rfl

theorem Dev.acceptImage_required (hk : k ≠ 4) : d.acceptImage k copyB img = (d.imageRuns k copyB img).authLine := Dev.acceptImage_eq.trans (if_neg hk)

theorem Dev.acceptImage_policy : d.acceptImage 4 copyB img =
    (List.range 12).foldl (fun e m => e.modMcAt m fun c => { c with rate := d.freeVal % 4 }) (d.imageRuns 4 copyB img).authLine.nextFree := Dev.acceptImage_eq.trans (if_pos rfl)

theorem Dev.authLine_trust (d : Dev) : d.authLine.trust = d.trust := d.setLine_trust 2 _
theorem Dev.authLine_ctl (d : Dev) : d.authLine.ctl = d.ctl := d.setLine_ctl 2 _
theorem Dev.authLine_live (d : Dev) : d.authLine.flt.live.getLsbD 2 = !d.trust.failed.isEmpty := d.setLine_level _ (by decide) (by decide) (by decide)

/-- What an image that runs leaves in the trust engine. -/
theorem Dev.imageRuns_measured : (d.imageRuns k copyB img).trust.meas.get [] k = Config.shake256 (d.meas k ++ Config.shake256 img.signed 64) 64 ∧
    (d.imageRuns k copyB img).trust.versions.get 0 k = fieldLE img.signed 8 4 ∧ (d.imageRuns k copyB img).trust.done = d.trust.done ++ [k] :=
  ⟨d.extend_meas k _, Tab.get_put_same _ _ _ _, rfl⟩

theorem Dev.foldl_modMcAt_trust (f : Mc → Mc) (ms : List Nat) (d : Dev) : (ms.foldl (fun e m => e.modMcAt m f) d).trust = d.trust := by
  induction ms generalizing d with
  | nil => rfl
  | cons m ms ih => exact ih _

theorem Dev.foldl_modMcAt_other (f : Mc → Mc) {ms : List Nat} {m : Nat} (h : m ∉ ms) (d : Dev) : (ms.foldl (fun e m => e.modMcAt m f) d).mcAt m = d.mcAt m := by
  induction ms generalizing d with
  | nil => rfl
  | cons j ms ih =>
    obtain ⟨hj, hms⟩ := not_or.mp (mt List.mem_cons.mpr h)
    exact (ih hms _).trans (Tab.get_put_other _ _ _ hj)

theorem Dev.foldl_modMcAt_mem (f : Mc → Mc) {ms : List Nat} (hn : ms.Nodup) {m : Nat} (h : m ∈ ms) (d : Dev) : (ms.foldl (fun e m => e.modMcAt m f) d).mcAt m = f (d.mcAt m) := by
  induction ms generalizing d with
  | nil => exact absurd h List.not_mem_nil
  | cons j ms ih =>
    obtain ⟨hj, hms⟩ := List.nodup_cons.mp hn
    by_cases hm : m = j
    · subst hm
      exact (Dev.foldl_modMcAt_other f hj _).trans (Tab.get_put_same _ _ _ _)
    · exact (ih hms ((List.mem_cons.mp h).resolve_left hm) _).trans (congrArg f (Tab.get_put_other _ _ _ hm))

/-- A policy image may set the data rate of every controller. -/
theorem Dev.acceptImage_policy_mcAt {m : Nat} (hm : m < 12) : (d.acceptImage 4 copyB img).mcAt m = { d.mcAt m with rate := Config.freeValue d.freeCtr % 4 } := by
  rw [Dev.acceptImage_policy, Dev.foldl_modMcAt_mem _ List.nodup_range (List.mem_range.mpr hm)]
  exact congrArg (fun c : Mc => { c with rate := d.freeVal % 4 }) ((d.imageRuns 4 copyB img).setLine_mcAt 2 m _)

theorem Dev.acceptImage_policy_trust : (d.acceptImage 4 copyB img).trust = (d.imageRuns 4 copyB img).trust := by
  rw [Dev.acceptImage_policy, Dev.foldl_modMcAt_trust]
  exact Dev.authLine_trust _

/-- The device on which a required image is outstanding. -/
def Dev.imageMissing (d : Dev) (k : Nat) : Dev := { d with trust := { d.trust with failed := d.trust.failed.filter (· != k) ++ [k] } }

theorem Dev.imageMissing_line (d : Dev) (k : Nat) : (d.imageMissing k).authLine.flt.live.getLsbD 2 = true := by
  rw [Dev.authLine_live]
  simp [Dev.imageMissing]

theorem Dev.refuseImage_eq : d.refuseImage k copyB = if (decide (k = 0) && !copyB) = true then (d.imageMissing k).authLine else
    { (d.imageMissing k).authLine with trust := { (d.imageMissing k).authLine.trust with boot := 3 }, ctl := { (d.imageMissing k).authLine.ctl with bootFailed := true } } := rfl

theorem Dev.refuseImage_copyA : d.refuseImage 0 false = (d.imageMissing 0).authLine := Dev.refuseImage_eq.trans (if_pos (by decide))

theorem Dev.refuseImage_other (hk : k ≠ 0) : d.refuseImage k copyB =
    { (d.imageMissing k).authLine with trust := { (d.imageMissing k).authLine.trust with boot := 3 }, ctl := { (d.imageMissing k).authLine.ctl with bootFailed := true } } :=
  Dev.refuseImage_eq.trans (if_neg (by simp [hk]))

/-! What becomes of an image as it is read. -/

theorem Dev.bootImage_ignored (h : d.ctl.booting = false ∨ 4 < img.typ ∨ img.typ ∈ d.trust.done) : d.bootImage copyB img = d :=
  if_pos (by rcases h with h | h | h <;> simp [h])

theorem Dev.bootImage_reads (hb : d.ctl.booting = true) (hp : d.ctl.pwrOk = true) (hr : d.ctl.perstN = true) (hk : img.typ ≤ 4) (hd : img.typ ∉ d.trust.done) :
    (!d.ctl.booting || !d.ctl.pwrOk || !d.ctl.perstN || decide (img.typ > 4) || d.trust.done.contains img.typ) ≠ true := by
  simp [hb, hp, hr, hk, hd]

section Read

variable (hread : (!d.ctl.booting || !d.ctl.pwrOk || !d.ctl.perstN || decide (img.typ > 4) || d.trust.done.contains img.typ) ≠ true)
include hread

theorem Dev.bootImage_firmware (hk : img.typ = 0)
    (hb : d.trust.boot = 0) (hf : d.trust.failed = []) (hd : d.trust.keyDone = true) :
    d.bootImage false img = if d.accepts img.typ img = true then d.acceptImage 0 false img else d.refuseImage 0 false := by
  have key : d.deriveKey = d := if_pos hd
  unfold Dev.bootImage
  dsimp only
  rw [if_neg hread, if_pos hk, if_neg (by simp [hb, hf]), key, hk]

theorem Dev.bootImage_rest (hk : img.typ ≠ 0)
    (hb : d.trust.boot ≠ 0) (hc : copyB = d.trust.copyB) (hd : 0 ∈ d.trust.done) :
    d.bootImage copyB img = if d.accepts img.typ img = true then d.acceptImage img.typ copyB img else if img.typ = 4 then d else d.refuseImage img.typ copyB := by
  unfold Dev.bootImage
  dsimp only
  rw [if_neg hread, if_neg hk, if_neg (by simp [hb, hc, hd])]

end Read

end Images

/-- Settles O56: the descriptors by their checks, the quotes and images by the equation of what is served, refused, signed or measured. -/
theorem trustEngine : Obligations.TrustEngine := by
  unfold Obligations.TrustEngine
  intro s x e who v img bytes sensors
  dsimp only
  have run {op : Nat} {sp : Dev → Desc → OpSpec} {i : Instr} {f : Dev → Desc → Dev} {k : Dev} (ht : s.dev.Takes 14 op sp x e) (hx : exec i s = ok s (s.dev.runUnit 14 op sp f))
      (h : f e x = k) : exec i s = .next { s with dev := k } := hx.trans (congrArg (ok s) ((ht.runUnit f).trans h))
  refine ⟨fun ht => ⟨fun hg => run ht rfl (Dev.checked_first (check_fails attestBad_iff hg)), fun hg hb => run ht rfl ((Dev.checked_next (attestBad_iff.mpr hg)).trans
      (Dev.checked_first (attestBusy_iff.mpr hb))), fun hg hb => ⟨fun hk => run ht rfl (Dev.trustAttest_self (attestBad_iff.mpr hg) hb hk),
        fun hk => run ht rfl (Dev.trustAttest_partner (attestBad_iff.mpr hg) hb hk), fun hk => run ht rfl (Dev.trustAttest_cascade (attestBad_iff.mpr hg) hb hk)⟩⟩,
    fun ht => ⟨fun hg => run ht rfl (Dev.checked_first (check_fails certsBad_iff hg)), fun hg => run ht rfl (Dev.checked_next (certsBad_iff.mpr hg))⟩,
    fun ht => ⟨fun hg => run ht rfl (Dev.checked_first (check_fails measureBad_iff hg)), fun hg hp => run ht rfl ((Dev.checked_next (measureBad_iff.mpr hg)).trans (Dev.checked_first hp)),
      fun hg hp => completes_ok (run ht rfl ((Dev.checked_next (measureBad_iff.mpr hg)).trans (Dev.checked_next hp))) ?_⟩, fun ht => run ht rfl rfl,
    ⟨fun h => congrArg (ok s) (Dev.quoteStart_idle h), fun q rest hl hq => ⟨fun hk => congrArg (ok s) (Dev.quoteStart_keyed hl hq hk), fun y hk hy => congrArg (ok s) ?_, fun n hk hy =>
        congrArg (ok s) ?_, fun a n hk hy => congrArg (ok s) ?_⟩,
      fun q rest y since got hs hq => ⟨fun hk hy ha => congrArg (ok s) (Dev.quoteSigned_self hs (hy ▸ hq) hk ha), fun hk hy => congrArg (ok s) ?_,
        fun n hy => congrArg (ok s) (Dev.quoteSigned_partner hs (hy ▸ hq)), fun a n hy hk => congrArg (ok s) ?_⟩, fun h => congrArg (ok s) (Dev.quoteSigned_idle h)⟩,
    fun due hd => ⟨fun h => congrArg (ok s) ((Dev.blockTimeout_due hd).trans (if_neg ?_)), fun hs hl => congrArg (ok s) ((Dev.blockTimeout_due hd).trans (if_pos ?_))⟩,
    ⟨fun h => congrArg (ok s) (if_pos (by simp [h])), fun hp ht => completes_ok (congrArg (ok s) (Dev.tamperTrip_trips hp ht)) ⟨Dev.setLine_trust _ _ _, Dev.setLine_high _ (by decide) (by decide) (by decide)⟩,
      fun hp ht => completes_ok (congrArg (ok s) (Dev.tamperTrip_quiet hp ht)) ⟨Dev.setLine_trust _ _ _, ?_⟩⟩,
    ⟨fun hw => congrArg (ok s) (if_pos (by simp [hw])), fun hw hg => congrArg (ok s) ((if_neg (by simp [hw])).trans (if_neg (mt recoverGo_iff.mp hg))),
      fun hw hg => congrArg (ok s) ((if_neg (by simp [hw])).trans (if_pos (recoverGo_iff.mpr hg)))⟩,
    fun copyB => ⟨fun h => congrArg (ok s) (Dev.bootImage_ignored h), fun hb hp hr hd => ⟨fun hk h0 hc hf hkd => ?_, fun h1 h3 h0 hc hd0 => ?_, fun hk h0 hc hd0 => ?_⟩⟩,
    fun y since got ha => ⟨fun hl hq => congrArg (ok s) (Dev.attestTimeout_early ha hl hq), fun hl hq => congrArg (ok s) ((Dev.attestTimeout_late ha hl).trans ?_), fun hl hs hq =>
        congrArg (ok s) ((Dev.attestTimeout_late ha hl).trans ?_), fun h => congrArg (ok s) (Dev.twinQuote_foreign ha h),
      fun h => ⟨fun b hb => congrArg (ok s) ((congrArg s.dev.twinQuote hb).trans (Dev.twinQuote_refused ha h)), fun hb hl => congrArg (ok s) (Dev.twinQuote_part ha h hb hl),
        fun hb hl => congrArg (ok s) (Dev.twinQuote_whole ha h hb hl)⟩⟩,
    fun h => congrArg (ok s) (if_neg (by simpa using h)),
    fun h => ⟨fun hl => congrArg (ok s) ((if_pos (by simpa using h)).trans (Dev.askQuote_joins (Nat.not_le.mpr hl))), fun hl => congrArg (ok s) ((if_pos (by simpa using h)).trans
      ((Dev.askQuote_full hl).trans (Dev.refuseQuote_partner _ _ _)))⟩⟩
  · rw [Dev.checked_nil, Dev.complete_trust, Dev.complete_flt]
    exact ⟨e.extend_meas 5 _, fun j hj => e.extend_meas_other _ hj, rfl, rfl, rfl⟩
  · exact (Dev.quoteStart_keyless hl hq hk).trans (by rw [hy]; rfl)
  · exact (Dev.quoteStart_keyless hl hq hk).trans (by rw [hy]; exact Dev.refuseQuote_partner _ _ _)
  · exact (Dev.quoteStart_keyless hl hq hk).trans (by rw [hy]; rfl)
  · exact (Dev.quoteSigned_keyless hs hq hk).trans (by rw [hy]; rfl)
  · exact Dev.quoteSigned_keyed hs (q := .casc a n) (hy ▸ hq) hk
  · simp only [Bool.and_eq_true, decide_eq_true_eq]
    rintro ⟨hs, hl⟩
    rcases h with h | h
    · exact Bool.noConfusion (h.symm.trans hs)
    · omega
  · simp [hs, hl]
  · rw [Dev.setLine_level _ _ (by decide) (by decide) (by decide)]
    simp
  · have reads := Dev.bootImage_reads hb hp hr (by omega) hd
    subst hc
    refine ⟨fun ok_ => completes_ok (congrArg (ok s) ((Dev.bootImage_firmware reads hk h0 hf hkd).trans ((if_pos (Dev.accepts_iff.mpr ok_)).trans (Dev.acceptImage_required (by decide))))) ?_,
      fun bad => completes_ok (congrArg (ok s) ((Dev.bootImage_firmware reads hk h0 hf hkd).trans ((if_neg (mt Dev.accepts_iff.mp bad)).trans Dev.refuseImage_copyA)))
        ⟨?_, Dev.authLine_ctl _, Dev.imageMissing_line _ _⟩⟩
    · rw [Dev.authLine_trust, Dev.authLine_live, hk]
      exact ⟨Dev.imageRuns_measured, rfl, rfl, by simp [Dev.imageRuns, hf]⟩
    · rw [Dev.authLine_trust]
      simp [Dev.imageMissing, hf]
  · have reads := Dev.bootImage_reads hb hp hr (by omega) hd
    refine ⟨fun ok_ hf => completes_ok (congrArg (ok s) ((Dev.bootImage_rest reads (by omega) h0 hc hd0).trans ((if_pos (Dev.accepts_iff.mpr ok_)).trans (Dev.acceptImage_required (by omega))))) ?_,
      fun bad => completes_ok (congrArg (ok s) ((Dev.bootImage_rest reads (by omega) h0 hc hd0).trans ((if_neg (mt Dev.accepts_iff.mp bad)).trans ((if_neg (by omega)).trans
        (Dev.refuseImage_other (by omega)))))) ⟨?_, rfl, ?_, ?_, Dev.imageMissing_line _ _⟩⟩
    · rw [Dev.authLine_trust, Dev.authLine_live, Dev.authLine_ctl]
      exact ⟨Dev.imageRuns_measured, if_neg (by omega), rfl, by simp [Dev.imageRuns, hf]⟩
    · dsimp only
      rw [Dev.authLine_trust]
      exact List.mem_append_right _ (List.mem_singleton_self _)
    · dsimp only
      rw [Dev.authLine_ctl]
      rfl
    · dsimp only
      rw [Dev.authLine_trust]
      rfl
  · have reads := Dev.bootImage_reads hb hp hr (by omega) hd
    refine ⟨fun bad => congrArg (ok s) ((Dev.bootImage_rest reads (by omega) h0 hc hd0).trans ((if_neg (mt Dev.accepts_iff.mp bad)).trans (if_pos hk))), fun ok_ hf =>
      completes_ok (congrArg (ok s) ((Dev.bootImage_rest reads (by omega) h0 hc hd0).trans ((if_pos (Dev.accepts_iff.mpr ok_)).trans (congrArg (fun k => s.dev.acceptImage k copyB img) hk)))) ?_⟩
    rw [Dev.acceptImage_policy_trust, hk]
    exact ⟨Dev.imageRuns_measured, fun m hm => Dev.acceptImage_policy_mcAt hm⟩
  · rw [hq, keptQueue_nil]
  · have kept : keptQueue s.dev.trust.serving s.dev.trust.queue (stays [(y, since, got)]) = [] := by rw [hs, hq, keptQueue_late]
    rw [kept]

end Sys2Proof.Machine

/-! # Metering and the log of the Praline island (O57) -/

namespace Sys2Proof.Machine

/-! ## What writing a record changes -/

section Log

variable {p q r : Prl} {body : List Byte}

/-- One island differs from the other in its log alone. -/
def Prl.Logs (p q : Prl) : Prop :=
  q = { p with logFull := q.logFull, logStopped := q.logStopped, head := q.head, wptr := q.wptr, ring := q.ring, recs := q.recs, chain := q.chain }

theorem Prl.Logs.trans (h : p.Logs q) (h' : q.Logs r) : p.Logs r :=
  Eq.trans h' (congrArg (fun t : Prl => { t with logFull := r.logFull, logStopped := r.logStopped, head := r.head, wptr := r.wptr, ring := r.ring, recs := r.recs, chain := r.chain }) h)

theorem Prl.writePad_logs (p : Prl) (n : Nat) : p.Logs (p.writePad n) := by
  unfold Prl.writePad
  dsimp only
  split
  · rfl
  · rfl

theorem Prl.putRec_logs (p : Prl) (bs : List Byte) : p.Logs (p.putRec bs) := rfl

theorem Prl.logFull_logs (p : Prl) (full : Bool) : p.Logs { p with logFull := full } := rfl

theorem Prl.write_logs (p : Prl) (typ : Nat) (body : List Byte) : p.Logs (p.write typ body) := by
  unfold Prl.write
  dsimp only
  split
  · rfl
  · exact ((p.writePad_logs _).trans (Prl.putRec_logs _ _)).trans (Prl.logFull_logs _ _)

theorem Prl.writeInterval_logs (p : Prl) (body : List Byte) : p.Logs (p.writeInterval body) := by
  unfold Prl.writeInterval
  dsimp only
  split
  · rfl
  · split
    · rfl
    · exact p.write_logs 1 body

/-- What only commits, seals and boundaries change. -/
def Prl.books (p : Prl) : Tab Nat × Nat × List (Nat × Nat × Nat) × List (List Byte × Nat) × Nat × Nat := (p.map, p.audit, p.committed, p.signing, p.ivDone, p.interval)

theorem Prl.Logs.books (h : p.Logs q) : q.books = p.books := (congrArg Prl.books h).trans rfl

/-- Free bytes go down by no more than the record takes. -/
theorem Prl.freeBytes_putRec (p : Prl) (bs : List Byte) : p.freeBytes ≤ (p.putRec bs).freeBytes + bs.length := by
  have bytes (l : List (Nat × Nat × Nat)) : l.foldl (fun n e => n + e.2.2) 0 = (l.map fun e => e.2.2).sum := by
    rw [List.sum_eq_foldl, List.foldl_map]
  have kept (live : Nat × Nat × Nat → Bool) :
      (((p.recs.filter live).filter fun e => p.released < e.1).map fun e => e.2.2).sum ≤ ((p.recs.filter fun e => p.released < e.1).map fun e => e.2.2).sum :=
    ((List.filter_sublist.filter _).map _).sum_le_sum fun _ _ => Nat.zero_le _
  simp only [Prl.freeBytes, Prl.putRec, bytes, List.filter_append, List.map_append, List.sum_append]
  have new : ((([(p.head, p.wptr, bs.length)] : List (Nat × Nat × Nat)).filter fun e => p.released < e.1).map fun e => e.2.2).sum ≤ bs.length := by
    rw [List.filter_cons]
    split
    · simp
    · simp
  have less {room held more : Nat} (h : more ≤ held + bs.length) : room - held ≤ room - more + bs.length := by omega
  exact less (Nat.add_le_add (kept _) new)

/-- The bytes of a record. -/
def Prl.recordBytes (p : Prl) (typ : Nat) (body : List Byte) : List Byte := recHeader (recLen body) typ p.head p.counter p.hubNow ++ fit (recLen body - 32) body

theorem Prl.recordBytes_length : (p.recordBytes typ body).length = recLen body := by
  rw [Prl.recordBytes, List.length_append, recHeader_length, fit_length]
  unfold recLen
  omega

/-- A record that fits goes into the ring as one. -/
def Prl.recorded (p : Prl) (typ : Nat) (body : List Byte) : Prl :=
  let n := recLen body
  let bs := p.recordBytes typ body
  { p with
    ring := writeBytes p.ring p.wptr bs, recs := (p.recs.filter fun r => !(r.2.1 < p.wptr + n && p.wptr < r.2.1 + r.2.2)) ++ [(p.head, p.wptr, n)], head := p.head + 1,
    wptr := (p.wptr + n) % logRing, chain := some (Config.shake256 (p.chainNow ++ bs) 64) }

theorem Prl.putRec_recordBytes : p.putRec (p.recordBytes typ body) = p.recorded typ body := by
  unfold Prl.putRec
  dsimp only
  rw [Prl.recordBytes_length]
  rfl

/-- The log has room for a record of n bytes before the end of the ring. -/
def Prl.Fits (p : Prl) (n : Nat) : Prop := p.logStopped = false ∧ p.wptr + n ≤ logRing ∧ n ≤ p.freeBytes

theorem Prl.Fits.congr {n : Nat} (h : p.Fits n) (hs : q.logStopped = p.logStopped) (hw : q.wptr = p.wptr) (hr : q.recs = p.recs) (hl : q.released = p.released) : q.Fits n := by
  unfold Prl.Fits Prl.freeBytes at *
  rwa [hs, hw, hr, hl]

theorem Prl.write_recorded {n : Nat} (typ : Nat) (hn : recLen body = n) (h : p.Fits n) :
    p.write typ body = { p.recorded typ body with logFull := p.logFull || decide ((p.recorded typ body).freeBytes < logReserve) } := by
  subst hn
  obtain ⟨runs, ends, room⟩ := h
  rw [Prl.write_fits typ runs ends room, ← Prl.putRec_recordBytes]
  rfl

/-- What a record that fits leaves for the next one. -/
theorem Prl.write_next {n : Nat} (typ : Nat) (hn : recLen body = n) (h : p.Fits n) : (p.write typ body).logStopped = false ∧ (p.write typ body).head = p.head + 1 ∧
    (p.write typ body).wptr = (p.wptr + n) % logRing ∧ p.freeBytes ≤ (p.write typ body).freeBytes + n := by
  subst hn
  rw [Prl.write_recorded typ rfl h]
  refine ⟨h.1, rfl, rfl, ?_⟩
  have := p.freeBytes_putRec (p.recordBytes typ body)
  rwa [Prl.recordBytes_length, Prl.putRec_recordBytes] at this

end Log

/-! ## Seconds, taps and heartbeats -/

section Seconds

variable {p : Prl} {ev : TapEvent} {k : Nat}

theorem Prl.secondEnd_still (h : p.powered = false ∨ p.counter < (p.secDone + 1) * 32768) : p.secondEnd = p := by
  refine if_neg ?_
  rw [Bool.and_eq_true, decide_eq_true_eq]
  rintro ⟨on, due⟩
  rcases h with h | h
  · exact Bool.noConfusion (h.symm.trans on)
  · exact absurd due (Nat.not_le.mpr h)

theorem Prl.foldl_modContract_other (f : Contract → Contract) {ks : List Nat} (h : k ∉ ks) (p : Prl) : (ks.foldl (fun q c => q.modContract c f) p).contract k = p.contract k := by
  induction ks generalizing p with
  | nil => rfl
  | cons j ks ih =>
    obtain ⟨hj, hks⟩ := not_or.mp (mt List.mem_cons.mpr h)
    exact (ih hks _).trans (Tab.get_put_other _ _ _ hj)

theorem Prl.foldl_modContract_mem (f : Contract → Contract) {ks : List Nat} (hn : ks.Nodup) (h : k ∈ ks) (p : Prl) :
    (ks.foldl (fun q c => q.modContract c f) p).contract k = f (p.contract k) := by
  induction ks generalizing p with
  | nil => exact absurd h List.not_mem_nil
  | cons j ks ih =>
    obtain ⟨hj, hks⟩ := List.nodup_cons.mp hn
    by_cases hk : k = j
    · subst hk
      exact (Prl.foldl_modContract_other f hj _).trans (Tab.get_put_same _ _ _ _)
    · exact (ih hks ((List.mem_cons.mp h).resolve_left hk) _).trans (congrArg f (Tab.get_put_other _ _ _ hk))

theorem Prl.mem_counted (hk : k < 1024) : k ∈ p.counted ↔ k ∈ p.mapped ∨ 0 < (p.contract k).secPkts := by
  simp [Prl.counted, hk]

theorem Prl.counted_nodup (p : Prl) : p.counted.Nodup := List.nodup_range.filter _

/-- The contracts after a second in which something counts. -/
def Prl.secondCounted (p : Prl) : Prl := p.counted.foldl (fun q c => q.modContract c fun x => x.second (!p.secDown)) p

theorem Prl.secondEnd_counts (hp : p.powered = true) (hd : (p.secDone + 1) * 32768 ≤ p.counter) (ht : p.selfTest = false) :
    p.secondEnd = { p.secondCounted with
      secDone := p.secDone + 1, checkpoint := (p.secDone + 1) * 32768, secDown := p.tapA || p.tapB, ivDown := p.secondCounted.ivDown || p.tapA || p.tapB,
      ivAbsent := p.secondCounted.ivAbsent || p.mainAbsent, ivPresent := p.secondCounted.ivPresent || !p.mainAbsent } := by
  unfold Prl.secondEnd
  rw [if_pos (by simp [hp, hd]), if_neg (by simp [ht])]
  rfl

theorem Prl.foldl_modContract_parts (f : Contract → Contract) (ks : List Nat) (p : Prl) :
    (ks.foldl (fun q c => q.modContract c f) p).counter = p.counter ∧ (ks.foldl (fun q c => q.modContract c f) p).taps = p.taps := by
  induction ks generalizing p with
  | nil => exact ⟨rfl, rfl⟩
  | cons c ks ih => exact ih _

theorem Prl.secondEnd_parts (hp : p.powered = true) (hd : (p.secDone + 1) * 32768 ≤ p.counter) (ht : p.selfTest = false) :
    p.secondEnd.secDone = p.secDone + 1 ∧ p.secondEnd.checkpoint = (p.secDone + 1) * 32768 ∧ p.secondEnd.secDown = (p.tapA || p.tapB) ∧ p.secondEnd.contracts = p.secondCounted.contracts := by
  rw [Prl.secondEnd_counts hp hd ht]
  dsimp only
  exact ⟨rfl, rfl, rfl, rfl⟩

theorem Prl.secondEnd_counted (hp : p.powered = true) (hd : (p.secDone + 1) * 32768 ≤ p.counter) (ht : p.selfTest = false) (hk : k ∈ p.counted) :
    p.secondEnd.contract k = (p.contract k).second (!p.secDown) := by
  obtain ⟨-, -, -, same⟩ := Prl.secondEnd_parts hp hd ht
  have counted : p.secondCounted.contract k = (p.contract k).second (!p.secDown) := Prl.foldl_modContract_mem (fun x => x.second (!p.secDown)) p.counted_nodup hk p
  unfold Prl.contract at counted ⊢
  rw [same, counted]

theorem Prl.secondEnd_uncounted (hp : p.powered = true) (hd : (p.secDone + 1) * 32768 ≤ p.counter) (ht : p.selfTest = false) (hk : k ∉ p.counted) :
    p.secondEnd.contract k = p.contract k := by
  obtain ⟨-, -, -, same⟩ := Prl.secondEnd_parts hp hd ht
  have uncounted : p.secondCounted.contract k = p.contract k := Prl.foldl_modContract_other (fun x => x.second (!p.secDown)) hk p
  unfold Prl.contract at uncounted ⊢
  rw [same, uncounted]

theorem Prl.secondCounted_parts (p : Prl) : p.secondCounted.counter = p.counter ∧ p.secondCounted.taps = p.taps :=
  Prl.foldl_modContract_parts (fun x => x.second (!p.secDown)) p.counted p

theorem Prl.secondEnd_again (hd : p.counter < (p.secDone + 2) * 32768) : p.secondEnd.secondEnd = p.secondEnd := by
  by_cases due : p.powered = true ∧ (p.secDone + 1) * 32768 ≤ p.counter
  · have ended : p.secondEnd.counter = p.counter ∧ p.secondEnd.secDone = p.secDone + 1 := by
      cases ht : p.selfTest with
      | false =>
        rw [Prl.secondEnd_counts due.1 due.2 ht]
        dsimp only
        exact ⟨p.secondCounted_parts.1, rfl⟩
      | true =>
        unfold Prl.secondEnd
        rw [if_pos (by simp [due]), if_pos ht]
        exact ⟨rfl, rfl⟩
    refine Prl.secondEnd_still (.inr ?_)
    rw [ended.1, ended.2]
    exact hd
  · have still : p.secondEnd = p := if_neg (by simpa using due)
    rw [still, still]

theorem selects_iff (m : Nat) : selects m ev = true ↔ bitN m 31 = true ∧ bitN m (if ev.copyB then 11 else 10) = true ∧ (ev.fec = true → bitN m 12 = true) := by
  cases h : ev.fec <;> simp [selects, h, and_assoc]

theorem Prl.tapEvent_unknown (h : ev ∉ p.taps) : p.tapEvent ev = p := if_pos (by simpa using h)

theorem Prl.secondEnd_taps (p : Prl) : p.secondEnd.taps = p.taps := by
  by_cases due : p.powered = true ∧ (p.secDone + 1) * 32768 ≤ p.counter
  · cases ht : p.selfTest with
    | false =>
      rw [Prl.secondEnd_counts due.1 due.2 ht]
      dsimp only
      exact p.secondCounted_parts.2
    | true =>
      unfold Prl.secondEnd
      rw [if_pos (by simp [due]), if_pos ht]
  · rw [show p.secondEnd = p from if_neg (by simpa using due)]

/-- The island on which a tap event has arrived. -/
def Prl.tapped (p : Prl) (taps : List TapEvent) (ev : TapEvent) : Prl :=
  if p.powered && !p.selfTest && selects (p.flowEntry ev.flow) ev then
    ({ p with taps := taps } : Prl).modContract (bits (p.flowEntry ev.flow) 0 10) fun c => { c with secPkts := c.secPkts + 1, secOct := c.secOct + ev.octets }
  else { p with taps := taps }

theorem Prl.tapCounts_iff : (p.powered && !p.selfTest && selects (p.flowEntry ev.flow) ev) = true ↔ p.powered = true ∧ p.selfTest = false ∧ bitN (p.map.get 0 ev.flow) 31 = true ∧
    bitN (p.map.get 0 ev.flow) (if ev.copyB then 11 else 10) = true ∧ (ev.fec = true → bitN (p.map.get 0 ev.flow) 12 = true) := by
  simp only [Bool.and_eq_true, Bool.not_eq_true', selects_iff, Prl.flowEntry, and_assoc]

theorem Prl.tapEvent_arrives (h : ev ∈ p.taps) : p.tapEvent ev = p.secondEnd.tapped (p.taps.erase ev) ev := if_neg (by simpa using h)

theorem Prl.tapEvent_boundary (h : ev ∈ p.taps) (hd : p.counter < (p.secDone + 2) * 32768) : p.tapEvent ev = p.secondEnd.tapEvent ev := by
  rw [Prl.tapEvent_arrives h, Prl.tapEvent_arrives (p.secondEnd_taps ▸ h), Prl.secondEnd_again hd, p.secondEnd_taps]

theorem Prl.setTap_still (tileB down : Bool) (h : p.powered = false ∨ p.counter < (p.secDone + 1) * 32768) :
    p.setTap tileB down = if tileB then { p with tapB := down, secDown := p.secDown || down, ivDown := p.ivDown || down }
      else { p with tapA := down, secDown := p.secDown || down, ivDown := p.ivDown || down } := by
  unfold Prl.setTap
  rw [Prl.secondEnd_still h]
  cases tileB with
  | false => rfl
  | true => rfl

/-- A heartbeat of a tile: its tap is up. -/
theorem Prl.beats_still (tileB : Bool) (now : Nat) (h : p.powered = false ∨ p.counter < (p.secDone + 1) * 32768) :
    (if tileB = true then ({ p with beatB := now } : Prl) else { p with beatA := now }).setTap tileB false =
      if tileB = true then { p with beatB := now, tapB := false } else { p with beatA := now, tapA := false } := by
  cases tileB with
  | false =>
    refine (Prl.setTap_still (p := { p with beatA := now }) false false h).trans ?_
    rw [Bool.or_false, Bool.or_false]
    rfl
  | true =>
    refine (Prl.setTap_still (p := { p with beatB := now }) true false h).trans ?_
    rw [Bool.or_false, Bool.or_false]
    rfl

/-- A tile without a heartbeat: its tap is down. -/
theorem Prl.falls_still (tileB : Bool) (h : p.powered = false ∨ p.counter < (p.secDone + 1) * 32768) :
    p.setTap tileB true = if tileB = true then { p with tapB := true, secDown := true, ivDown := true } else { p with tapA := true, secDown := true, ivDown := true } := by
  rw [Prl.setTap_still _ _ h, Bool.or_true, Bool.or_true]

end Seconds

/-! ## Interval boundaries and seals -/

section Boundary

variable {p : Prl} {k : Nat}

theorem Prl.mapped_congr {q : Prl} (h : q.map = p.map) : q.mapped = p.mapped := by
  unfold Prl.mapped
  rw [h]

theorem Prl.checkTime_none (h : p.hubTime = none) : p.checkTime = { p with timeDis := false, lastTime := none } := by
  have invalid : p.hubValid = false := by
    unfold Prl.hubValid
    rw [h]
  unfold Prl.checkTime
  rw [invalid]
  rfl

theorem Prl.checkTime_books (p : Prl) : p.checkTime.books = p.books := by
  unfold Prl.checkTime
  dsimp only
  split
  · split
    · exact (p.write_logs _ _).books
    · rfl
  · rfl

/-- The island whose log takes records again as the boundary finds room. -/
def Prl.resumed (p : Prl) : Prl :=
  { p with logFull := p.logFull && !decide (logReserve ≤ p.freeBytes), logStopped := p.logStopped && !decide (logReserve ≤ p.freeBytes), ivDone := p.secDone }

/-- What a boundary seals for: ten minutes, and committed changes. -/
def Prl.sealCause (p : Prl) : Nat := b2n (p.secDone % 600 == 0) + 2 * b2n (!p.committed.isEmpty)

theorem Prl.boundary_early (h : ¬ (p.ivDone < p.secDone ∧ p.secDone % p.interval = 0)) : p.boundary = p := by
  refine if_neg ?_
  rw [Bool.and_eq_true, Bool.and_eq_true, decide_eq_true_eq, beq_iff_eq]
  exact fun ⟨⟨_, hd⟩, hm⟩ => h ⟨hd, hm⟩

theorem Prl.boundary_due (hp : p.powered = true) (h : p.ivDone < p.secDone ∧ p.secDone % p.interval = 0) : p.boundary =
    if p.sealCause = 0 then (p.resumed.checkTime.closeInterval false).applyCommitted else (p.resumed.checkTime.closeInterval false).applyCommitted.seal p.sealCause :=
  if_pos (by simp [hp, h])

theorem Prl.sealCause_quiet (hc : p.committed = []) (hs : p.secDone % 600 ≠ 0) : p.sealCause = 0 := by simp [Prl.sealCause, hc, hs, b2n]

theorem Prl.sealCause_committed (hc : p.committed ≠ []) : p.sealCause ≠ 0 := by simp [Prl.sealCause, hc, b2n]

/-- The island at a boundary with no hub time, after which the log has room. -/
def Prl.quietStart (p : Prl) : Prl := { p with logFull := false, logStopped := false, ivDone := p.secDone, timeDis := false, lastTime := none }

theorem Prl.resumed_quiet (ht : p.hubTime = none) (hr : logReserve ≤ p.freeBytes) : p.resumed.checkTime = p.quietStart := by
  refine (Prl.checkTime_none (p := p.resumed) ht).trans ?_
  unfold Prl.resumed
  rw [decide_eq_true hr, Bool.not_true, Bool.and_false, Bool.and_false]
  rfl

/-- The counts of an open interval go. -/
def Contract.closed (c : Contract) : Contract := { c with ivPkts := 0, ivOct := 0, ivSvc := 0, ivOut := 0 }

/-- The island whose interval has closed, behind the record's writing. -/
def Prl.opened (p q : Prl) : Prl :=
  { q with contracts := q.contracts.mapAll ({} : Contract) fun _ c => c.closed, ivDown := p.tapA || p.tapB, ivAbsent := p.mainAbsent, ivPresent := false, ivParam := false }

/-- The island that closes an interval: one that closes early takes what the open second has counted so far. -/
def Prl.closing (p : Prl) (early : Bool) : Prl := if early then { p with contracts := p.contracts.mapAll ({} : Contract) fun _ c => c.foldOpen } else p

theorem Prl.closeInterval_eq (p : Prl) (early : Bool) : p.closeInterval early = (p.closing early).opened
    (if ((p.closing early).mapped.isEmpty || (!(p.closing early).ivPresent && (p.closing early).mainAbsent)) = true then p.closing early
      else (p.closing early).writeInterval ((p.closing early).intervalBody early)) := rfl

theorem Prl.opened_books (p q : Prl) : (p.opened q).books = q.books := rfl

theorem Prl.closeInterval_books (p : Prl) (early : Bool) : (p.closeInterval early).books = p.books := by
  have closing : (p.closing early).books = p.books := by
    unfold Prl.closing
    split
    · rfl
    · rfl
  rw [Prl.closeInterval_eq, Prl.opened_books]
  split
  · exact closing
  · exact (Prl.writeInterval_logs _ _).books.trans closing

theorem Prl.closing_late (p : Prl) : p.closing false = p := if_neg Bool.false_ne_true

theorem Prl.closing_early (hc : p.contracts = []) : p.closing true = p := by
  unfold Prl.closing
  rw [if_pos rfl, hc]
  exact congrArg (fun t => ({ p with contracts := t } : Prl)) hc.symm

theorem Prl.closeInterval_unrecorded {early : Bool} (hc : p.closing early = p) (hm : p.mapped = []) : p.closeInterval early = p.opened p := by
  rw [Prl.closeInterval_eq, hc, if_pos (by simp [hm])]

theorem Prl.closeInterval_recorded (hm : p.mapped ≠ []) (hi : p.ivPresent = true) : p.closeInterval false = p.opened (p.writeInterval (p.intervalBody false)) := by
  rw [Prl.closeInterval_eq, Prl.closing_late, if_neg (by simp [hm, hi])]

theorem Prl.applyCommitted_none (h : p.committed = []) : p.applyCommitted = p := if_pos (by simp [h])

/-- The record of one committed change. -/
def Prl.changeBody (p : Prl) (c : Nat × Nat × Nat) : List Byte :=
  toLE 4 (p.audit + 1) ++ toLE 2 1 ++ zeros 10 ++ (toLE 1 c.1 ++ zeros 1 ++ toLE 2 c.2.1 ++ zeros 4 ++ toLE 8 c.2.2)

theorem Prl.applyCommitted_one {c : Nat × Nat × Nat} (h : p.committed = [c]) :
    p.applyCommitted = ({ p.applyChange c with audit := p.audit + 1, committed := [], ivParam := true } : Prl).write 4 (p.changeBody c) := by
  unfold Prl.applyCommitted
  rw [h, if_neg (by simp)]
  simp only [List.foldl_cons, List.foldl_nil, List.flatMap_cons, List.flatMap_nil, List.append_nil, List.length_singleton]
  rfl

/-! A seal. -/

/-- What a seal leaves once its TOTALS record is written, with the PAD before the SEAL. -/
def Prl.totalled (p : Prl) : Prl := if (p.write 2 p.totalsBody).takes 160 = true then (p.write 2 p.totalsBody).writePad 160 else p.write 2 p.totalsBody

/-- The body of a seal (Table 22.5). -/
def Prl.sealBody (p : Prl) (cause : Nat) : List Byte :=
  toLE 2 0x5053 ++ toLE 2 1 ++ toLE 4 p.status ++ toLE 4 p.audit ++ toLE 2 cause ++ toLE 2 p.mapped.length ++ toLE 8 p.head ++ toLE 8 p.counter ++ toLE 8 p.hubNow ++ fit 24 pralineIdent ++
    fit 64 p.chainNow

theorem Prl.seal_eq (p : Prl) (cause : Nat) : p.seal cause =
    { p.totalled.write 3 (p.totalled.sealBody cause) with signing := p.totalled.signing ++ [(p.totalled.sealBody cause, p.totalled.head)] } := rfl

theorem Prl.totalled_logs (p : Prl) : p.Logs p.totalled := by
  unfold Prl.totalled
  split
  · exact (p.write_logs _ _).trans (Prl.writePad_logs _ _)
  · exact p.write_logs _ _

/-- But for the body to sign, a seal is a change of the log. -/
theorem Prl.seal_logs (p : Prl) (cause : Nat) : p.Logs (p.totalled.write 3 (p.totalled.sealBody cause)) := p.totalled_logs.trans (Prl.write_logs _ _ _)

theorem Prl.sealBody_length (p : Prl) (cause : Nat) : (p.sealBody cause).length = 128 := by simp [Prl.sealBody]

theorem Prl.sealBody_take (p : Prl) (cause : Nat) : (p.sealBody cause).take 4 = toLE 2 0x5053 ++ toLE 2 1 := by
  unfold Prl.sealBody
  simp only [List.append_assoc]
  rw [← List.append_assoc (toLE 2 0x5053)]
  exact List.take_left' rfl

/-- With room for both records, TOTALS and SEAL lie behind one another. -/
theorem Prl.seal_room {cause : Nat} (ht : recLen p.totalsBody = 48) (h : p.Fits 208) : (p.seal cause).head = p.head + 2 ∧ (p.seal cause).wptr = (p.wptr + 208) % logRing ∧
    (p.seal cause).signing = p.signing ++ [(p.totalled.sealBody cause, p.head + 1)] := by
  obtain ⟨runs, ends, room⟩ := h
  obtain ⟨runs1, head1, wptr1, free1⟩ := Prl.write_next 2 ht ⟨runs, by omega, by omega⟩
  have behind : (p.wptr + 48) % logRing = p.wptr + 48 := Nat.mod_eq_of_lt (by omega)
  have noPad : (p.write 2 p.totalsBody).padLen 160 = 0 := if_neg (by omega)
  have padded : (p.write 2 p.totalsBody).writePad 160 = p.write 2 p.totalsBody := if_pos noPad
  have totalled : p.totalled = p.write 2 p.totalsBody := by
    unfold Prl.totalled
    rw [padded]
    exact ite_self _
  obtain ⟨-, head2, wptr2, -⟩ := Prl.write_next (p := p.totalled) 3 (n := 160) (body := p.totalled.sealBody cause) (by rw [recLen, Prl.sealBody_length])
    (totalled ▸ ⟨runs1, by omega, by omega⟩)
  have signing : p.totalled.signing = p.signing := (congrArg Prl.signing p.totalled_logs).trans rfl
  rw [Prl.seal_eq]
  dsimp only
  refine ⟨?_, ?_, ?_⟩
  · rw [head2, totalled, head1]
  · rw [wptr2, totalled, wptr1, behind]
  · rw [signing]
    exact congrArg (fun n => p.signing ++ [(p.totalled.sealBody cause, n)]) (totalled ▸ head1)

/-! Boundaries that write no record, one record, or commit one change. -/

theorem Prl.opened_empty {q : Prl} (hc : q.contracts = []) : p.opened q = { q with ivDown := p.tapA || p.tapB, ivAbsent := p.mainAbsent, ivPresent := false, ivParam := false } := by
  have same : q.contracts.mapAll ({} : Contract) (fun _ c => c.closed) = q.contracts := by
    rw [hc]
    rfl
  unfold Prl.opened
  rw [same]

/-- A boundary with nothing to seal for. -/
theorem Prl.boundary_quiet (hp : p.powered = true) (h : p.ivDone < p.secDone ∧ p.secDone % p.interval = 0) (ht : p.hubTime = none) (hc : p.committed = []) (hs : p.secDone % 600 ≠ 0)
    (hr : logReserve ≤ p.freeBytes) : p.boundary = p.quietStart.closeInterval false := by
  rw [Prl.boundary_due hp h, if_pos (Prl.sealCause_quiet hc hs), Prl.resumed_quiet ht hr]
  refine Prl.applyCommitted_none ?_
  have books := Prl.closeInterval_books p.quietStart false
  simp only [Prl.books, Prod.mk.injEq] at books
  obtain ⟨-, -, committed, -⟩ := books
  exact committed.trans hc

/-- The part of an INTERVAL record for one contract. -/
theorem Prl.intervalBody_one {c : Contract} (hm : p.mapped = [k]) (hc : p.contract k = c) : p.intervalBody false =
    toLE 2 1 ++ toLE 1 p.interval ++ zeros 13 ++ toLE 2 k ++ toLE 1 c.ivSvc ++ toLE 1 c.ivOut ++ toLE 5 c.ivPkts ++ toLE 6 c.ivOct ++
      toLE 1 (b2n p.ivDown + 2 * b2n p.ivAbsent + 8 * b2n p.ivParam) := by
  unfold Prl.intervalBody
  dsimp only
  rw [hm]
  simp only [List.flatMap_cons, List.flatMap_nil, List.append_nil, List.length_singleton, hc, List.append_assoc]
  rfl

theorem Prl.writeInterval_room {body : List Byte} (hn : recLen body = 64) (hf : p.logFull = false) (hend : p.wptr + 64 ≤ logRing) (hr : 64 + logReserve ≤ p.freeBytes) :
    p.writeInterval body = p.write 1 body := by
  have noPad : p.padLen 64 = 0 := if_neg (by omega)
  unfold Prl.writeInterval
  dsimp only
  rw [hn, noPad, if_neg (by simp [hf]), if_neg (by omega)]

theorem Prl.opened_contract {q : Prl} {c : Contract} (hc : q.contracts = [(k, c)]) : (p.opened q).contract k = c.closed := by
  unfold Prl.opened Prl.contract
  dsimp only
  rw [hc]
  exact Tab.get_put_same _ _ _ _

theorem Prl.interval_recorded {c : Contract} (hm : p.mapped = [k]) (hc : p.contracts = [(k, c)]) (hi : p.ivPresent = true) (hf : p.logFull = false) (hl : p.logStopped = false)
    (hend : p.wptr + 64 ≤ logRing) (hr : 64 + logReserve ≤ p.freeBytes) :
    (p.closeInterval false).head = p.head + 1 ∧ (p.closeInterval false).wptr = (p.wptr + 64) % logRing ∧ (p.head, p.wptr, 64) ∈ (p.closeInterval false).recs ∧
    readBytes (p.closeInterval false).ring (p.wptr + 32) 32 = toLE 2 1 ++ toLE 1 p.interval ++ zeros 13 ++ toLE 2 k ++ toLE 1 c.ivSvc ++ toLE 1 c.ivOut ++ toLE 5 c.ivPkts ++
      toLE 6 c.ivOct ++ toLE 1 (b2n p.ivDown + 2 * b2n p.ivAbsent + 8 * b2n p.ivParam) ∧
    (p.closeInterval false).contract k = c.closed := by
  have entry : p.contract k = c := by simp [Prl.contract, hc, Tab.get]
  have body := Prl.intervalBody_one hm entry
  have len32 : (p.intervalBody false).length = 32 := by simp [body, zeros]
  have len : recLen (p.intervalBody false) = 64 := by rw [recLen, len32]
  have written : p.closeInterval false = p.opened (p.write 1 (p.intervalBody false)) := by
    rw [Prl.closeInterval_recorded (by simp [hm]) hi, Prl.writeInterval_room len hf hend hr]
  have fits : p.Fits 64 := ⟨hl, hend, by omega⟩
  obtain ⟨-, head, wptr, -⟩ := Prl.write_next 1 len fits
  obtain ⟨-, read⟩ := Prl.write_record (body := p.intervalBody false) 1 hl ⟨2, len32⟩ (by rw [len32]; exact hend) (by omega)
  rw [len32] at read
  rw [written]
  refine ⟨head, wptr, ?_, read.trans body, Prl.opened_contract ((congrArg Prl.contracts (p.write_logs 1 _)).trans hc)⟩
  show (p.head, p.wptr, 64) ∈ (p.write 1 (p.intervalBody false)).recs
  rw [Prl.write_recorded 1 len fits, ← len]
  exact List.mem_append_right _ (List.mem_singleton_self _)

/-- A committed change takes effect on the map and the interval, and on no other book. -/
theorem Prl.applyChange_books (p : Prl) (c : Nat × Nat × Nat) :
    (p.applyChange c).books = (if c.1 = 0 then p.map.put 0 c.2.1 c.2.2 else p.map, p.audit, p.committed, p.signing, p.ivDone, if c.1 = 0 ∨ c.1 = 1 then p.interval else c.2.2) := by
  obtain ⟨kind, n, v⟩ := c
  match kind with
  | 0 => rfl
  | 1 => rfl
  | kind + 2 => simp [Prl.applyChange, Prl.books]

/-- A boundary at which one change takes effect. -/
theorem Prl.boundary_commits {c : Nat × Nat × Nat} (hp : p.powered = true) (h : p.ivDone < p.secDone ∧ p.secDone % p.interval = 0) (hc : p.committed = [c]) :
    p.boundary.map = (if c.1 = 0 then p.map.put 0 c.2.1 c.2.2 else p.map) ∧ p.boundary.audit = p.audit + 1 ∧ p.boundary.committed = [] ∧
    p.boundary.signing.length = p.signing.length + 1 ∧ p.boundary.ivDone = p.secDone ∧ p.boundary.interval = if c.1 = 0 ∨ c.1 = 1 then p.interval else c.2.2 := by
  rw [Prl.boundary_due hp h, if_neg (Prl.sealCause_committed (by simp [hc]))]
  have closed := (Prl.closeInterval_books p.resumed.checkTime false).trans p.resumed.checkTime_books
  generalize p.resumed.checkTime.closeInterval false = q at closed ⊢
  simp only [Prl.books, Prod.mk.injEq] at closed
  obtain ⟨map, audit, committed, signing, ivDone, interval⟩ := closed
  have change := q.applyChange_books c
  simp only [Prl.books, Prod.mk.injEq] at change
  obtain ⟨map1, audit1, -, signing1, ivDone1, interval1⟩ := change
  rw [Prl.applyCommitted_one (committed.trans hc)]
  have applied := (Prl.write_logs { q.applyChange c with audit := q.audit + 1, committed := [], ivParam := true } 4 (q.changeBody c)).books
  generalize Prl.write _ 4 (q.changeBody c) = r at applied ⊢
  simp only [Prl.books, Prod.mk.injEq] at applied
  obtain ⟨map2, audit2, committed2, signing2, ivDone2, interval2⟩ := applied
  have sealed := (r.seal_logs p.sealCause).books
  simp only [Prl.books, Prod.mk.injEq] at sealed
  obtain ⟨map3, audit3, committed3, -, ivDone3, interval3⟩ := sealed
  have totalled := r.totalled_logs.books
  simp only [Prl.books, Prod.mk.injEq] at totalled
  obtain ⟨-, -, -, signing3, -, -⟩ := totalled
  rw [Prl.seal_eq]
  refine ⟨?_, ?_, committed3.trans committed2, ?_, ?_, ?_⟩
  · exact map3.trans (map2.trans (map1.trans (congrArg (fun m => if c.1 = 0 then Tab.put 0 m c.2.1 c.2.2 else m) map)))
  · exact audit3.trans (audit2.trans (congrArg (· + 1) audit))
  · show (r.totalled.signing ++ [_]).length = _
    rw [List.length_append, signing3, signing2, signing1, signing]
    rfl
  · exact ivDone3.trans (ivDone2.trans (ivDone1.trans ivDone))
  · exact interval3.trans (interval2.trans (interval1.trans (congrArg (fun n => if c.1 = 0 ∨ c.1 = 1 then n else c.2.2) interval)))

end Boundary

/-! ## The seal input, signatures and supplies -/

section Supplies

variable {p : Prl} {d : Dev}

theorem Prl.sealEdge_same {high : Bool} (h : p.sealHigh = high) : p.sealEdge high = p := if_pos (by simp [h])

theorem Prl.sealEdge_off (high : Bool) (h : p.powered = false) : p.sealEdge high = p := if_pos (by simp [h])

/-- The island whose log holds one more record. -/
def Prl.logged (p : Prl) (typ : Nat) (body : List Byte) : Prl := { p.recorded typ body with logFull := p.logFull || decide ((p.recorded typ body).freeBytes < logReserve) }

theorem Prl.logged_eq (p : Prl) (typ : Nat) (body : List Byte) : p.logged typ body =
    let n := 32 + (body.length + 15) / 16 * 16
    let bs := toLE 4 n ++ toLE 2 typ ++ toLE 2 0 ++ toLE 8 p.head ++ toLE 8 p.counter ++ toLE 8 p.hubNow ++ (body ++ zeros (n - 32)).take (n - 32)
    let live := p.recs.filter fun r => !(r.2.1 < p.wptr + n && p.wptr < r.2.1 + r.2.2)
    let q : Prl := { p with
      ring := writeBytes p.ring p.wptr bs, recs := live ++ [(p.head, p.wptr, n)], head := p.head + 1, wptr := (p.wptr + n) % logRing,
      chain := some (Config.shake256 (p.chainNow ++ bs) 64) }
    { q with logFull := q.logFull || decide (q.freeBytes < logReserve) } := rfl

/-- The island whose seal input has moved, before its record. -/
def Prl.sealMoved (p : Prl) (high : Bool) : Prl := { p with sealHigh := high, staged := if high then p.staged else [] }

theorem Prl.sealEdge_moves {high : Bool} (hp : p.powered = true) (h : p.sealHigh ≠ high) :
    p.sealEdge high = ({ p with sealHigh := high, staged := if high then p.staged else [] } : Prl).write 5 (toLE 1 (b2n high) ++ zeros 15) := if_neg (by simp [hp, h])

theorem Prl.sealEdge_logs {high : Bool} (hp : p.powered = true) (h : p.sealHigh ≠ high) (hf : p.Fits 48) :
    p.sealEdge high = (p.sealMoved high).logged 5 (toLE 1 (b2n high) ++ zeros 15) := by
  rw [Prl.sealEdge_moves hp h]
  exact Prl.write_recorded (p := p.sealMoved high) (n := 48) 5 (by simp [recLen, zeros]) (hf.congr rfl rfl rfl rfl)

theorem Prl.signed_idle (h : p.signing = [] ∨ p.keyReady = false) : p.signed = p := by
  unfold Prl.signed
  split
  · next hs => exact if_neg (by rcases h with h | h <;> simp_all)
  · rfl

theorem Prl.signed_done {body : List Byte} {n : Nat} {rest : List (List Byte × Nat)} (hs : p.signing = (body, n) :: rest) (hk : p.keyReady = true) :
    p.signed = { p with signing := rest, block := body ++ (Config.slhSign Config.pralineSecret body ++ zeros 29792).take 29792, sealSeq := n } := by
  unfold Prl.signed
  rw [hs]
  exact if_pos hk

theorem Dev.mainLoss_none (h : d.prl.powered = false ∨ d.ctl.pwrOk = true ∨ d.prl.mainAbsent = true) : d.mainLoss = d := if_neg (by rcases h with h | h | h <;> simp [h])

theorem Dev.mainReturn_none (h : d.prl.powered = false ∨ d.ctl.pwrOk = false ∨ d.prl.mainAbsent = false) : d.mainReturn = d := if_neg (by rcases h with h | h | h <;> simp [h])

/-- The island without its main supply, before its records. -/
def Prl.lost (p : Prl) : Prl := { p with ivDown := p.tapA || p.tapB, ivAbsent := true, ivPresent := false, ivParam := false, mainAbsent := true }

theorem Dev.mainLoss_seals (hp : d.prl.powered = true) (hw : d.ctl.pwrOk = false) (ha : d.prl.mainAbsent = false) (hm : d.prl.mapped = []) (hc : d.prl.contracts = []) :
    d.mainLoss = { d with prl := (d.prl.lost.write 7 (zeros 16)).seal 4 } := by
  have closed := (Prl.closeInterval_unrecorded (Prl.closing_early hc) hm).trans (Prl.opened_empty hc)
  unfold Dev.mainLoss
  rw [if_pos (by simp [hp, hw, ha]), closed]
  rfl

/-- Without contracts a TOTALS record has no entries. -/
theorem Prl.totalsBody_empty (hm : p.mapped = []) (hc : p.contracts = []) : recLen p.totalsBody = 48 := by
  have nothing : ((List.range 1024).filter fun k =>
      p.mapped.contains k || (p.contract k).octets != 0 || (p.contract k).pkts != 0 || (p.contract k).svc != 0 || (p.contract k).outage != 0) = [] := by
    refine List.filter_eq_nil_iff.mpr fun k _ => ?_
    simp [hm, hc, Prl.contract, Tab.get]
  unfold Prl.totalsBody
  dsimp only
  rw [nothing]
  simp [recLen, zeros]

/-- With room for them, the loss of the main supply writes POWER, TOTALS and SEAL. -/
theorem Prl.lost_records (hm : p.mapped = []) (hc : p.contracts = []) (h : p.Fits 256) :
    ((p.lost.write 7 (zeros 16)).seal 4).head = p.head + 3 ∧ ((p.lost.write 7 (zeros 16)).seal 4).wptr = (p.wptr + 256) % logRing ∧
    ∃ body, ((p.lost.write 7 (zeros 16)).seal 4).signing = p.signing ++ [(body, p.head + 2)] ∧ body.take 4 = toLE 2 0x5053 ++ toLE 2 1 := by
  obtain ⟨runs, ends, room⟩ := h
  have logs := p.lost.write_logs 7 (zeros 16)
  obtain ⟨runs1, head1, wptr1, free1⟩ := Prl.write_next (p := p.lost) 7 (n := 48) (body := zeros 16) rfl ⟨runs, (Nat.add_le_add_left (by decide) _).trans ends, le_trans (by decide) room⟩
  have ptr : p.lost.wptr = p.wptr := rfl
  have free : p.lost.freeBytes = p.freeBytes := rfl
  have behind : (p.wptr + 48) % logRing = p.wptr + 48 := Nat.mod_eq_of_lt (by omega)
  rw [ptr, behind] at wptr1
  rw [free] at free1
  have totals : recLen (p.lost.write 7 (zeros 16)).totalsBody = 48 :=
    Prl.totalsBody_empty ((Prl.mapped_congr ((congrArg Prl.map logs).trans rfl)).trans hm) (((congrArg Prl.contracts logs).trans rfl).trans hc)
  obtain ⟨head2, wptr2, signing2⟩ := Prl.seal_room (cause := 4) totals ⟨runs1, by omega, by omega⟩
  have signing1 : (p.lost.write 7 (zeros 16)).signing = p.signing := (congrArg Prl.signing logs).trans rfl
  rw [head1] at head2 signing2
  rw [wptr1] at wptr2
  rw [signing1] at signing2
  exact ⟨head2, wptr2, _, signing2, Prl.sealBody_take _ _⟩

theorem Prl.lost_absent (p : Prl) : ((p.lost.write 7 (zeros 16)).seal 4).mainAbsent = true ∧ ((p.lost.write 7 (zeros 16)).seal 4).ivAbsent = true := by
  have logs := (p.lost.write_logs 7 (zeros 16)).trans (Prl.seal_logs _ 4)
  exact ⟨(congrArg Prl.mainAbsent logs).trans rfl, (congrArg Prl.ivAbsent logs).trans rfl⟩

theorem Dev.mainReturn_records (hp : d.prl.powered = true) (hw : d.ctl.pwrOk = true) (ha : d.prl.mainAbsent = true) :
    d.mainReturn = { d with prl := ({ d.prl with mainAbsent := false, ivPresent := true } : Prl).write 7 (toLE 1 1 ++ zeros 15) } := if_pos (by simp [hp, hw, ha])

/-- The island after its main supply's return, before its record. -/
def Prl.supplied (p : Prl) : Prl := { p with mainAbsent := false, ivPresent := true }

theorem Dev.mainReturn_logs (hp : d.prl.powered = true) (hw : d.ctl.pwrOk = true) (ha : d.prl.mainAbsent = true) (h : d.prl.Fits 48) :
    d.mainReturn = { d with prl := d.prl.supplied.logged 7 (toLE 1 1 ++ zeros 15) } := by
  have written : d.prl.supplied.write 7 (toLE 1 1 ++ zeros 15) = d.prl.supplied.logged 7 (toLE 1 1 ++ zeros 15) :=
    Prl.write_recorded (n := 48) 7 (by simp [recLen, zeros]) (h.congr rfl rfl rfl rfl)
  rw [Dev.mainReturn_records hp hw ha]
  exact congrArg (fun q => ({ d with prl := q } : Dev)) written

/-- The island after its supply's return, before its record. -/
def Prl.restarted (p : Prl) (keyOk good : Bool) (now : Nat) : Prl :=
  { p with
    powered := true, selfTest := !good, keyReady := keyOk, hubTime := none, counter := p.checkpoint + 32768, frac := 0, secDone := (p.checkpoint + 32768) / 32768,
    secDown := p.tapA || p.tapB, lastTime := none, staged := [], beatA := now, beatB := now }

theorem Dev.prlPowerUp_records (keyOk : Bool) (hc : d.prl.contracts = []) : d.prlPowerUp keyOk =
    { d with prl := (d.prl.restarted keyOk (keyOk && pralineIdent == Config.genesisIdent) d.ctl.ticks).write 7 (toLE 1 2 ++ zeros 7 ++ toLE 8 d.prl.checkpoint) } := by
  have same : d.prl.contracts.mapAll ({} : Contract) (fun _ c => { c with secPkts := 0, secOct := 0, earlyPkts := 0, earlyOct := 0 }) = d.prl.contracts := by
    rw [hc]
    rfl
  unfold Dev.prlPowerUp
  dsimp only
  rw [same]
  rfl

theorem Dev.prlPowerUp_logs (keyOk : Bool) (hc : d.prl.contracts = []) (h : d.prl.Fits 48) : d.prlPowerUp keyOk =
    { d with prl := (d.prl.restarted keyOk (keyOk && pralineIdent == Config.genesisIdent) d.ctl.ticks).logged 7 (toLE 1 2 ++ zeros 7 ++ toLE 8 d.prl.checkpoint) } := by
  have written := Prl.write_recorded (p := d.prl.restarted keyOk (keyOk && pralineIdent == Config.genesisIdent) d.ctl.ticks) (n := 48) (body := toLE 1 2 ++ zeros 7 ++ toLE 8 d.prl.checkpoint) 7
    (by simp [recLen, zeros]) (h.congr rfl rfl rfl rfl)
  rw [Dev.prlPowerUp_records keyOk hc]
  exact congrArg (fun q => ({ d with prl := q } : Dev)) written

end Supplies

theorem Contract.second_counts (c : Contract) (down : Bool) :
    (c.second (!down)).secPkts = 0 ∧ (c.second (!down)).secOct = 0 ∧ (c.second (!down)).ivPkts = c.ivPkts + (c.secPkts - c.earlyPkts) ∧ (c.second (!down)).ivOct = c.ivOct + (c.secOct - c.earlyOct) ∧
    (c.second (!down)).pkts = c.pkts + c.secPkts ∧ (c.second (!down)).octets = c.octets + c.secOct ∧
    (c.second (!down)).ivSvc = c.ivSvc + (if down = false ∧ 0 < c.secPkts ∧ c.minRate ≤ c.secOct * 8 then 1 else 0) ∧
    (c.second (!down)).svc = c.svc + (if down = false ∧ 0 < c.secPkts ∧ c.minRate ≤ c.secOct * 8 then 1 else 0) ∧
    (c.second (!down)).ivOut = c.ivOut + (if down = false ∧ c.secPkts = 0 then 1 else 0) ∧ (c.second (!down)).outage = c.outage + (if down = false ∧ c.secPkts = 0 then 1 else 0) := by
  have svc : b2n (!down && decide (0 < c.secPkts) && decide (c.minRate ≤ c.secOct * 8)) = if down = false ∧ 0 < c.secPkts ∧ c.minRate ≤ c.secOct * 8 then 1 else 0 :=
    if_congr (by simp [and_assoc]) rfl rfl
  have out : b2n (!down && c.secPkts == 0) = if down = false ∧ c.secPkts = 0 then 1 else 0 := if_congr (by simp) rfl rfl
  rw [← svc, ← out]
  exact ⟨rfl, rfl, rfl, rfl, rfl, rfl, rfl, rfl, rfl, rfl⟩

/-- Settles O57: each command by the equation of what the island counts, closes, records or seals. -/
theorem pralineMetering : Obligations.PralineMetering := by
  unfold Obligations.PralineMetering
  intro s ev tileB high keyOk
  dsimp only
  have island {i : Instr} {f : Prl → Prl} {q : Prl} (hx : exec i s = ok s (s.dev.onPrl f)) (h : f s.dev.prl = q) : exec i s = .next { s with dev := { s.dev with prl := q } } :=
    hx.trans (congrArg (fun r => ok s { s.dev with prl := r }) h)
  have supplies {i : Instr} {f : Dev} {q q' : Prl} (hx : exec i s = ok s f) (h : f = { s.dev with prl := q }) (hq : q = q') : exec i s = .next { s with dev := { s.dev with prl := q' } } :=
    hx.trans (congrArg (ok s) (hq ▸ h))
  refine ⟨⟨fun h => island rfl (Prl.tapEvent_unknown h), fun h hp hd hd2 f hf => ?_, fun h hs hc => island rfl ?_, fun h hs hc => island rfl ?_⟩,
    fun hp => ⟨island rfl (if_neg (by simp [hp])), island rfl (if_neg (by simp [hp])), island rfl (Prl.secondEnd_still (.inl hp)), island rfl (if_neg (by simp [hp])),
      island rfl (Prl.sealEdge_off high hp), congrArg (ok s) (Dev.mainLoss_none (.inl hp)), congrArg (ok s) (Dev.mainReturn_none (.inl hp))⟩,
    fun hp => ⟨fun hs => island rfl ((if_pos hp).trans ?_), fun hl => island rfl (if_neg ?_), fun hs hl => island rfl ((if_pos ?_).trans ?_), fun hl => island rfl (Prl.secondEnd_still (.inr hl)),
      fun hd ht => completes_ok (island rfl rfl) ?_,
      ⟨fun hd => island rfl (Prl.boundary_early hd), fun hd ⟨ht, hc, hs, hr⟩ hm he => island rfl ?_, fun k c hd ⟨ht, hc, hs, hr⟩ hm he hi hend hroom =>
        completes_ok (island rfl (Prl.boundary_quiet hp hd ht hc hs hr)) ?_, fun fl en hd hc => completes_ok (island rfl rfl) ?_, fun sec hd hc => completes_ok (island rfl rfl) ?_⟩,
      fun h => island rfl (Prl.sealEdge_same h), fun h hf => island rfl ((Prl.sealEdge_logs hp h hf).trans ?_),
      fun hw ha hm hc hf => completes_ok (congrArg (ok s) (Dev.mainLoss_seals hp hw ha hm hc)) ?_, fun h => congrArg (ok s) (Dev.mainLoss_none (.inr h)),
      fun h => congrArg (ok s) (Dev.mainReturn_none (.inr h)), fun hw ha hf => supplies rfl (Dev.mainReturn_logs hp hw ha hf) ?_⟩,
    fun h => island rfl (Prl.signed_idle h), fun body n rest hs hk => island rfl (Prl.signed_done hs hk), fun hc hf => supplies rfl (Dev.prlPowerUp_logs keyOk hc hf) ?_⟩
  · have ended : State.mk s.pending (s.dev.onPrl Prl.secondEnd) = f := Host.Outcome.next.inj hf
    subst ended
    exact congrArg (fun q => ok s { s.dev with prl := q }) (Prl.tapEvent_boundary h hd2)
  · rw [Prl.tapEvent_arrives h, Prl.secondEnd_still hs]
    exact if_neg (mt Prl.tapCounts_iff.mp hc)
  · rw [Prl.tapEvent_arrives h, Prl.secondEnd_still hs]
    exact if_pos (Prl.tapCounts_iff.mpr hc)
  · exact Prl.beats_still tileB _ hs
  · rw [Bool.and_eq_true, decide_eq_true_eq]
    exact fun ⟨_, late⟩ => absurd late (Nat.not_le.mpr hl)
  · simpa [hp] using hl
  · exact Prl.falls_still tileB hs
  · obtain ⟨done, checkpoint, down, -⟩ := Prl.secondEnd_parts hp hd ht
    refine ⟨done, checkpoint, down, fun k hk hm h0 => Prl.secondEnd_uncounted hp hd ht fun hc => ?_, fun k hk hm => ?_⟩
    · exact ((Prl.mem_counted hk).mp hc).elim hm (by omega)
    · rw [Prl.secondEnd_counted hp hd ht ((Prl.mem_counted hk).mpr hm)]
      exact Contract.second_counts _ _
  · rw [Prl.boundary_quiet hp hd ht hc hs hr, Prl.closeInterval_unrecorded (p := s.dev.prl.quietStart) (Prl.closing_late _) hm, Prl.opened_empty (q := s.dev.prl.quietStart) he]
    rfl
  · dsimp only
    exact Prl.interval_recorded (p := s.dev.prl.quietStart) hm he hi rfl rfl hend (Nat.add_comm 64 _ ▸ hroom)
  · obtain ⟨map, audit, committed, signing, ivDone, -⟩ := Prl.boundary_commits hp hd hc
    exact ⟨map, audit, committed, signing, ivDone⟩
  · obtain ⟨-, audit, -, -, -, interval⟩ := Prl.boundary_commits hp hd hc
    exact ⟨interval, audit⟩
  · rfl
  · obtain ⟨runs, ends, room⟩ := hf
    obtain ⟨head, wptr, signing⟩ := Prl.lost_records hm hc ⟨runs, ends, room⟩
    obtain ⟨main, iv⟩ := s.dev.prl.lost_absent
    dsimp only
    exact ⟨main, iv, head, wptr, signing, rfl⟩
  · rw [Prl.logged_eq]
    unfold Prl.supplied
    dsimp only
  · rw [Prl.logged_eq]
    unfold Prl.restarted
    dsimp only

end Sys2Proof.Machine

/-! # Lane groups: what a change of several lanes is, and the stages of a group of one lane (O51) -/

namespace Sys2Proof.Machine

/-! ## Changes of several lanes -/

section MapLanes

variable {d : Dev} {f : Lane → Lane} {ls : List Nat} {k n : Nat}

/-- A change of each of some lanes. -/
def Dev.mapLanes (d : Dev) (ls : List Nat) (f : Lane → Lane) : Dev := ls.foldl (fun e l => e.modLaneAt l f) d

theorem Dev.mapLanes_eq (d : Dev) (ls : List Nat) (f : Lane → Lane) : d.mapLanes ls f = { d with lane := (d.mapLanes ls f).lane } := by
  unfold Dev.mapLanes
  induction ls generalizing d with
  | nil => rfl
  | cons l ls ih => exact (ih (d.modLaneAt l f)).trans rfl

theorem Dev.mapLanes_other (h : k ∉ ls) : (d.mapLanes ls f).laneAt k = d.laneAt k := by
  unfold Dev.mapLanes
  induction ls generalizing d with
  | nil => rfl
  | cons l ls ih =>
    obtain ⟨hl, hls⟩ := not_or.mp (mt List.mem_cons.mpr h)
    exact (ih hls).trans (Dev.laneAt_putLaneAt_other d _ hl)

theorem Dev.mapLanes_mem (hn : ls.Nodup) (h : k ∈ ls) : (d.mapLanes ls f).laneAt k = f (d.laneAt k) := by
  unfold Dev.mapLanes
  induction ls generalizing d with
  | nil => exact absurd h List.not_mem_nil
  | cons l ls ih =>
    obtain ⟨hl, hls⟩ := List.nodup_cons.mp hn
    by_cases hk : k = l
    · subst hk
      exact (Dev.mapLanes_other hl).trans (Dev.laneAt_putLaneAt d k _)
    · exact (ih hls ((List.mem_cons.mp h).resolve_left hk)).trans (congrArg f (Dev.laneAt_putLaneAt_other d _ hk))

theorem Dev.mapLanes_groupAt : (d.mapLanes ls f).groupAt k = d.groupAt k := by rw [Dev.mapLanes_eq]; rfl

theorem groupLanes_nodup (n : Nat) (g : Group) : (groupLanes n g).Nodup := List.nodup_range.map fun _ _ h => Nat.add_left_cancel h

theorem mem_groupLanes {g : Group} : k ∈ groupLanes n g ↔ ∃ i, i < g.width ∧ n + i = k := by simp [groupLanes]

theorem groupLanes_mem {g : Group} {i : Nat} (h : i < g.width) : n + i ∈ groupLanes n g := mem_groupLanes.mpr ⟨i, h, rfl⟩

theorem groupLanes_outside {g : Group} (h : k < n ∨ n + g.width ≤ k) : k ∉ groupLanes n g := fun hk => by
  obtain ⟨i, hi, rfl⟩ := mem_groupLanes.mp hk
  omega

theorem groupLanes_one {g : Group} (h : g.width = 1) : groupLanes n g = [n] := by simp [groupLanes, h]

end MapLanes

/-! ## What bring-up and losses of lock may change -/

section Frame

variable {d e f : Dev}

/-- All that a lane's bring-up and its losses change. -/
def Dev.LaneWork (d f : Dev) : Prop :=
  f = { d with group := f.group, lane := f.lane, flt := f.flt, hub := f.hub, flow := f.flow, queue := f.queue, casc := f.casc, waiting := f.waiting, out := f.out,
               ctl := { d.ctl with octClk := f.ctl.octClk } }

theorem Dev.LaneWork.trans (h : d.LaneWork e) (h' : e.LaneWork f) : d.LaneWork f :=
  Eq.trans h' (congrArg (fun t : Dev => { t with
    group := f.group, lane := f.lane, flt := f.flt, hub := f.hub, flow := f.flow, queue := f.queue, casc := f.casc, waiting := f.waiting, out := f.out,
    ctl := { t.ctl with octClk := f.ctl.octClk } }) h)

theorem Dev.LaneWork.putGroupAt (d : Dev) (k : Nat) (g : Group) : d.LaneWork (d.putGroupAt k g) := rfl
theorem Dev.LaneWork.putLaneAt (d : Dev) (k : Nat) (y : Lane) : d.LaneWork (d.putLaneAt k y) := rfl
theorem Dev.LaneWork.mapLanes (d : Dev) (ls : List Nat) (f : Lane → Lane) : d.LaneWork (d.mapLanes ls f) := by
  rw [Dev.mapLanes_eq]
  rfl

theorem Dev.Collects.laneWork (h : d.Collects f) : d.LaneWork f := by
  have group : f.group = d.group := (congrArg Dev.group h).trans rfl
  have lane : f.lane = d.lane := (congrArg Dev.lane h).trans rfl
  have ctl : f.ctl = d.ctl := (congrArg Dev.ctl h).trans rfl
  unfold Dev.LaneWork
  rw [group, lane, ctl]
  exact h

theorem Dev.LaneWork.portLine (d : Dev) : d.LaneWork d.portLine := (Dev.Collects.setLine d 44 _).laneWork

/-- A port that goes down discards what its queues hold, and no more changes. -/
theorem Dev.discardPort_eq (d : Dev) (p : Nat) : d.discardPort p = { d with flow := (d.discardPort p).flow, queue := (d.discardPort p).queue } := by
  have freed (ps : List Packet) (e : Dev) : e.freePkts ps = { e with flow := (e.freePkts ps).flow } := by
    unfold Dev.freePkts
    induction ps generalizing e with
    | nil => rfl
    | cons p ps ih => exact (ih _).trans rfl
  unfold Dev.discardPort Dev.discardQueues
  dsimp only
  rw [freed]

theorem Dev.LaneWork.discardPort (d : Dev) (p : Nat) : d.LaneWork (d.discardPort p) := by
  rw [Dev.discardPort_eq]
  rfl

theorem Dev.discardPort_groupAt (d : Dev) (p k : Nat) : (d.discardPort p).groupAt k = d.groupAt k := by rw [Dev.discardPort_eq]; rfl
theorem Dev.discardPort_laneAt (d : Dev) (p k : Nat) : (d.discardPort p).laneAt k = d.laneAt k := by rw [Dev.discardPort_eq]; rfl
theorem Dev.discardPort_flt (d : Dev) (p : Nat) : (d.discardPort p).flt = d.flt := by rw [Dev.discardPort_eq]
theorem Dev.portLine_groupAt (d : Dev) (k : Nat) : d.portLine.groupAt k = d.groupAt k := by simp [Dev.portLine, Dev.groupAt]
theorem Dev.portLine_laneAt (d : Dev) (k : Nat) : d.portLine.laneAt k = d.laneAt k := by simp [Dev.portLine, Dev.laneAt]
theorem Dev.raise_groupAt (d : Dev) (i k : Nat) : (d.raise i).groupAt k = d.groupAt k := by simp [Dev.groupAt]
theorem Dev.raise_laneAt (d : Dev) (i k : Nat) : (d.raise i).laneAt k = d.laneAt k := by simp [Dev.laneAt]
theorem Dev.raise_ctl (d : Dev) (i : Nat) : (d.raise i).ctl = d.ctl := by simp
theorem Dev.LaneWork.raise (d : Dev) (i : Nat) : d.LaneWork (d.raise i) := (Dev.Collects.latch d _).laneWork

theorem Dev.latch_keeps_status {k : Nat} {srcs : BitVec 64} (h : d.flt.status.getLsbD k = true) : (d.latch srcs).flt.status.getLsbD k = true := by
  by_cases none_ : d.fresh srcs = []
  · rw [Dev.latch_none none_]
    exact h
  · rw [(d.latch_flt srcs).1 none_, BitVec.getLsbD_or, h, Bool.true_or]

/-- A sticky bit stays while a line moves. -/
theorem Dev.setLine_keeps_status {i k : Nat} {b : Bool} (h : d.flt.status.getLsbD k = true) : (d.setLine i b).flt.status.getLsbD k = true := by
  unfold Dev.setLine
  split
  · split
    · exact h
    · exact Dev.latch_keeps_status h
  · exact h

end Frame

/-! ## Stages -/

section Stages

variable {d e : Dev} {g : Group} {st : Stage} {l n : Nat}

/-- The group as it enters a stage. -/
def Group.entered (g : Group) (st : Stage) (now : Nat) : Group :=
  { g with stage := st, passed := [], since := now, retryAt := none, down := g.down && st != .active, been := g.been || st == .active }

/-- A lane that starts to train. -/
def Lane.trains (y : Lane) (g : Group) : Lane :=
  let y1 := y.fromCache g
  let y2 := if g.own && g.fixedCtle then { y1 with ctle := g.get 0x2E 1 } else y1
  if g.own && !g.lt then { y2 with tx := BitVec.ofNat 32 (g.get 0x32 4) } else y2

theorem Dev.enterTrain_eq (d : Dev) (n : Nat) : d.enterTrain n =
    (d.putGroupAt n { d.groupAt n with warm := (groupLanes n (d.groupAt n)).all fun l => (d.laneAt l).hot (d.groupAt n) }).mapLanes (groupLanes n (d.groupAt n))
      fun y => y.trains (d.groupAt n) := rfl

theorem Dev.enterStage_quiet (h : st = .lock ∨ st = .detect) : d.enterStage n st = d.putGroupAt n ((d.groupAt n).entered st d.ctl.ticks) := by
  rcases h with rfl | rfl
  · rfl
  · rfl

theorem Dev.enterStage_train (d : Dev) (n : Nat) : d.enterStage n .train = (d.putGroupAt n ((d.groupAt n).entered .train d.ctl.ticks)).enterTrain n := rfl

theorem Dev.enterStage_active (d : Dev) (n : Nat) : d.enterStage n .active =
    ((d.putGroupAt n ((d.groupAt n).entered .active d.ctl.ticks)).mapLanes (groupLanes n (d.groupAt n)) fun y => { y with inSvc := true }).portLine := rfl

theorem Dev.enterStage_caps (ha : (d.groupAt n).an = false) (hp : (d.groupAt n).proto ≠ 3) : d.enterStage n .caps = d.enterStage n .active := by
  have through : (Stage.caps == .caps && !(d.groupAt n).an && (d.groupAt n).proto != 3) = true := by simp [ha, hp]
  unfold Dev.enterStage
  dsimp only
  rw [if_pos through]
  rfl

/-- What a group's lanes become as it enters a stage. -/
def Lane.enters (y : Lane) (g : Group) : Stage → Lane
  | .train => y.trains g
  | .active => { y with inSvc := true }
  | _ => y

theorem Dev.putGroupAt_laneAt (d : Dev) (g : Group) (n k : Nat) : (d.putGroupAt n g).laneAt k = d.laneAt k := by simp [Dev.laneAt]
theorem Dev.putLaneAt_groupAt (d : Dev) (y : Lane) (n k : Nat) : (d.putLaneAt n y).groupAt k = d.groupAt k := by simp [Dev.groupAt]

/-- One device is another in which a group has entered a stage. -/
def Dev.Entered (d f : Dev) (n : Nat) (g : Group) (st : Stage) : Prop :=
  f.groupAt n = { g.entered st d.ctl.ticks with warm := (f.groupAt n).warm } ∧ (∀ k, k ≠ n → f.groupAt k = d.groupAt k) ∧
  (∀ k, k ∉ groupLanes n g → f.laneAt k = d.laneAt k) ∧ (∀ k, k ∈ groupLanes n g → f.laneAt k = (d.laneAt k).enters g st) ∧ d.LaneWork f

theorem Dev.enterStage_quiet_parts (h : st = .lock ∨ st = .detect) : d.Entered (d.enterStage n st) n (d.groupAt n) st := by
  have none_ (y : Lane) : y.enters (d.groupAt n) st = y := by
    rcases h with rfl | rfl
    · rfl
    · rfl
  rw [Dev.enterStage_quiet h]
  refine ⟨?_, fun k hk => Dev.groupAt_putGroupAt_other _ _ hk, fun k _ => Dev.putGroupAt_laneAt _ _ _ _, fun k _ => ?_, Dev.LaneWork.putGroupAt _ _ _⟩
  · rw [Dev.groupAt_putGroupAt]
  · rw [Dev.putGroupAt_laneAt, none_]

theorem Dev.enterTrain_parts (d : Dev) (n : Nat) : (d.enterTrain n).groupAt n = { d.groupAt n with warm := ((d.enterTrain n).groupAt n).warm } ∧
    (∀ k, k ≠ n → (d.enterTrain n).groupAt k = d.groupAt k) ∧ (∀ k, k ∉ groupLanes n (d.groupAt n) → (d.enterTrain n).laneAt k = d.laneAt k) ∧
    (∀ k, k ∈ groupLanes n (d.groupAt n) → (d.enterTrain n).laneAt k = (d.laneAt k).trains (d.groupAt n)) ∧ d.LaneWork (d.enterTrain n) := by
  rw [Dev.enterTrain_eq, Dev.mapLanes_groupAt, Dev.groupAt_putGroupAt]
  refine ⟨rfl, fun k hk => ?_, fun k hk => ?_, fun k hk => ?_, (Dev.LaneWork.putGroupAt d n _).trans (Dev.LaneWork.mapLanes _ _ _)⟩
  · rw [Dev.mapLanes_groupAt, Dev.groupAt_putGroupAt_other _ _ hk]
  · rw [Dev.mapLanes_other hk, Dev.putGroupAt_laneAt]
  · rw [Dev.mapLanes_mem (groupLanes_nodup _ _) hk, Dev.putGroupAt_laneAt]

theorem Dev.enterStage_train_parts (d : Dev) (n : Nat) : d.Entered (d.enterStage n .train) n (d.groupAt n) .train := by
  obtain ⟨group, groups, lanes, trains, work⟩ := (d.putGroupAt n ((d.groupAt n).entered .train d.ctl.ticks)).enterTrain_parts n
  rw [Dev.groupAt_putGroupAt] at group lanes trains
  rw [Dev.enterStage_train]
  refine ⟨group, fun k hk => ?_, fun k hk => ?_, fun k hk => ?_, (Dev.LaneWork.putGroupAt d n _).trans work⟩
  · rw [groups k hk, Dev.groupAt_putGroupAt_other _ _ hk]
  · rw [lanes k hk, Dev.putGroupAt_laneAt]
  · rw [trains k hk, Dev.putGroupAt_laneAt]
    rfl

theorem Dev.enterStage_active_parts (d : Dev) (n : Nat) : d.Entered (d.enterStage n .active) n (d.groupAt n) .active := by
  rw [Dev.enterStage_active]
  refine ⟨?_, fun k hk => ?_, fun k hk => ?_, fun k hk => ?_, ((Dev.LaneWork.putGroupAt d n _).trans (Dev.LaneWork.mapLanes _ _ _)).trans (Dev.LaneWork.portLine _)⟩
  · rw [Dev.portLine_groupAt, Dev.mapLanes_groupAt, Dev.groupAt_putGroupAt]
  · rw [Dev.portLine_groupAt, Dev.mapLanes_groupAt, Dev.groupAt_putGroupAt_other _ _ hk]
  · rw [Dev.portLine_laneAt, Dev.mapLanes_other hk, Dev.putGroupAt_laneAt]
  · rw [Dev.portLine_laneAt, Dev.mapLanes_mem (groupLanes_nodup _ _) hk, Dev.putGroupAt_laneAt]
    rfl

end Stages

/-! ## A group of one lane -/

section Alone

variable {d e f : Dev} {g : Group} {st : Stage} {l : Nat} {y z : Lane}

/-- The device after a group of one lane has entered a stage, with its lane as `z` before. -/
def Dev.Brought (d f : Dev) (l : Nat) (g : Group) (st : Stage) (z : Lane) : Prop :=
  f.groupAt l = { g.entered st d.ctl.ticks with warm := (f.groupAt l).warm } ∧ (∀ k, k ≠ l → f.groupAt k = d.groupAt k) ∧ f.laneAt l = z.enters g st ∧
  (∀ k, k ≠ l → f.laneAt k = d.laneAt k) ∧ d.LaneWork f

theorem Dev.Entered.brought (h : e.Entered f l g st) (hw : g.width = 1) (ht : e.ctl.ticks = d.ctl.ticks) (hg : ∀ k, k ≠ l → e.groupAt k = d.groupAt k)
    (hl : ∀ k, k ≠ l → e.laneAt k = d.laneAt k) (hz : e.laneAt l = z) (work : d.LaneWork e) : d.Brought f l g st z := by
  obtain ⟨group, groups, lanes, lane, work'⟩ := h
  rw [groupLanes_one hw] at lanes lane
  refine ⟨ht ▸ group, fun k hk => (groups k hk).trans (hg k hk), ?_, fun k hk => (lanes k (by simpa using hk)).trans (hl k hk), work.trans work'⟩
  rw [lane l (List.mem_singleton_self l), hz]

/-- Which lanes have passed does not matter once the group goes on. -/
theorem Dev.Entered.passed {ls : List Nat} (h : (e.putGroupAt l { g with passed := ls }).Entered f l { g with passed := ls } st) : e.Entered f l g st := by
  obtain ⟨group, groups, lanes, lane, work⟩ := h
  have same (y : Lane) : y.enters { g with passed := ls } st = y.enters g st := by
    cases st with
    | _ => rfl
  refine ⟨group, fun k hk => (groups k hk).trans (Dev.groupAt_putGroupAt_other _ _ hk), fun k hk => (lanes k hk).trans (Dev.putGroupAt_laneAt _ _ _ _), fun k hk => ?_,
    (Dev.LaneWork.putGroupAt _ _ _).trans work⟩
  rw [lane k hk, Dev.putGroupAt_laneAt, same]

theorem Dev.passStage_alone (hg : e.groupAt l = g) (hw : g.width = 1) : e.passStage l l =
    (e.putGroupAt l { g with passed := if g.passed.contains l then g.passed else g.passed ++ [l] }).enterStage l g.nextStage := by
  have all (ls : List Nat) : ([l].all (if ls.contains l then ls else ls ++ [l]).contains) = true := by
    by_cases h : l ∈ ls
    · simp [h]
    · simp [h]
  unfold Dev.passStage
  dsimp only
  rw [hg, groupLanes_one hw, if_pos (all _)]

/-- The one lane passes DETECT without AN. -/
theorem Dev.passStage_detect (hg : e.groupAt l = g) (hw : g.width = 1) (hs : g.stage = .detect) (ha : g.an = false) : e.Entered (e.passStage l l) l g .train := by
  have next : g.nextStage = .train := by simp [Group.nextStage, hs, ha]
  have parts := (e.putGroupAt l { g with passed := if g.passed.contains l then g.passed else g.passed ++ [l] }).enterStage_train_parts l
  rw [Dev.groupAt_putGroupAt] at parts
  rw [Dev.passStage_alone hg hw, next]
  exact parts.passed

theorem Dev.passStage_train (hg : e.groupAt l = g) (hw : g.width = 1) (hs : g.stage = .train) : e.Entered (e.passStage l l) l g .lock := by
  have next : g.nextStage = .lock := by simp [Group.nextStage, hs]
  have parts := Dev.enterStage_quiet_parts (d := e.putGroupAt l { g with passed := if g.passed.contains l then g.passed else g.passed ++ [l] }) (n := l) (.inl rfl : Stage.lock = .lock ∨ _)
  rw [Dev.groupAt_putGroupAt] at parts
  rw [Dev.passStage_alone hg hw, next]
  exact parts.passed

/-- The one lane passes LOCK, and with it CAPS, where neither AN nor the partner has a part. -/
theorem Dev.passStage_lock (hg : e.groupAt l = g) (hw : g.width = 1) (hs : g.stage = .lock) (ha : g.an = false) (hp : g.proto ≠ 3) : e.Entered (e.passStage l l) l g .active := by
  have next : g.nextStage = .caps := by simp [Group.nextStage, hs, ha]
  have parts := (e.putGroupAt l { g with passed := if g.passed.contains l then g.passed else g.passed ++ [l] }).enterStage_active_parts l
  have through := Dev.enterStage_caps (d := e.putGroupAt l { g with passed := if g.passed.contains l then g.passed else g.passed ++ [l] }) (n := l)
    (by rw [Dev.groupAt_putGroupAt]; exact ha) (by rw [Dev.groupAt_putGroupAt]; exact hp)
  rw [Dev.groupAt_putGroupAt] at parts
  rw [Dev.passStage_alone hg hw, next, through]
  exact parts.passed

/-- A change of the one lane before its group goes on. -/
theorem Dev.Entered.brought_put (h : (d.putLaneAt l z).Entered f l g st) (hw : g.width = 1) : d.Brought f l g st z :=
  h.brought hw rfl (fun _ _ => Dev.putLaneAt_groupAt _ _ _ _) (fun _ hk => Dev.laneAt_putLaneAt_other _ _ hk) (Dev.laneAt_putLaneAt _ _ _) (Dev.LaneWork.putLaneAt _ _ _)

theorem Dev.Entered.brought_same (h : d.Entered f l g st) (hw : g.width = 1) : d.Brought f l g st (d.laneAt l) :=
  h.brought hw rfl (fun _ _ => rfl) (fun _ _ => rfl) rfl rfl

end Alone

end Sys2Proof.Machine

/-! # Bring-up, losses of lock and equaliser caches (O51) -/

namespace Sys2Proof.Machine

/-! ## DETECT -/

section Detect

variable {d : Dev} {g : Group} {l n : Nat} {f : DetectFacts}

/-- The device once a lane's octet is found with its clock, or without it. -/
def Dev.clocked (d : Dev) (l : Nat) (clk : Bool) : Dev :=
  { d with ctl := { d.ctl with octClk := if clk then d.ctl.octClk ||| (1#32 <<< (l / 8)) else d.ctl.octClk &&& ~~~(1#32 <<< (l / 8)) } }

theorem Dev.clocked_octetRuns (clk : Bool) (hl : l < 256) : (d.clocked l clk).octetRuns l = clk := by
  have bit : l / 8 < 32 := by omega
  unfold Dev.octetRuns Dev.clocked
  cases clk with
  | false => simp [bit]
  | true => simp [bit]

/-- The device as a poll leaves the lane. -/
def Dev.polling (d : Dev) (l : Nat) (clk : Bool) : Dev := (d.clocked l clk).putLaneAt l { d.laneAt l with polled := some d.ctl.ticks }

theorem Dev.LaneWork.polling (d : Dev) (l : Nat) (clk : Bool) : d.LaneWork (d.polling l clk) := rfl

theorem Group.detects_iff : (g.detects f && f.clk) = true ↔ f.clk = true ∧ if g.proto = 2 ∨ g.get 0x2C 1 = 1 then 3000000 ≤ f.energy else f.term = true := by
  by_cases h : g.proto = 2 ∨ g.get 0x2C 1 = 1
  · simp [Group.detects, h, and_comm]
  · simp [Group.detects, h, and_comm]

variable (ho : d.groupOf l = some (n, g))
include ho

theorem Dev.detectPoll_eq (hs : g.stage = .detect) (hp : ∀ t, (d.laneAt l).polled = some t → t + 3000000 ≤ d.ctl.ticks) : d.detectPoll l f =
    if (g.detects f && f.clk) = true then (d.polling l f.clk).passStage l n else (d.polling l f.clk).putGroupAt n { g with passed := g.passed.filter (· != l) } := by
  unfold Dev.detectPoll
  rw [ho]
  refine (if_neg ?_).trans rfl
  cases h : (d.laneAt l).polled with
  | none => simp [hs]
  | some t => simp [hs, hp t h]

theorem Dev.detectPoll_early {t : Nat} (hp : (d.laneAt l).polled = some t) (ht : d.ctl.ticks < t + 3000000) : d.detectPoll l f = d := by
  unfold Dev.detectPoll
  rw [ho]
  refine if_pos ?_
  simp [hp, ht]

end Detect

/-! ## TRAIN, LOCK and ACTIVE -/

section Pass

variable {d : Dev} {g : Group} {l n : Nat} {f : LaneFacts}

theorem Group.overdue_not {now : Nat} (h : ∀ k, g.limit = some k → now ≤ g.since + k) : g.overdue now = false := by
  unfold Group.overdue
  split
  · next k hk => exact decide_eq_false (Nat.not_lt.mpr (h k hk))
  · rfl

theorem Group.overdue_of {k now : Nat} (hk : g.limit = some k) (h : g.since + k < now) : g.overdue now = true := by
  unfold Group.overdue
  rw [hk]
  exact decide_eq_true h

/-- What passing its stage is for a lane that may. -/
def Dev.stageWork (d : Dev) (l n : Nat) (g : Group) (f : LaneFacts) : Dev :=
  match g.stage with
  | .train => (d.modLaneAt l fun y => (y.trained g f).cached g d.ctl.ticks).passStage l n
  | .lock =>
    if g.proto = 2 then (if f.sdiRate = g.tries d.ctl.ticks then (d.modLaneAt l fun y => { y with sdiRate := f.sdiRate }).passStage l n else d) else d.passStage l n
  | .caps => if g.proto = 3 then d else d.passStage l n
  | .active =>
    if (d.laneAt l).retrain.isSome && (d.laneAt l).relock.isNone then d.modLaneAt l fun y => { (y.trained g f).cached g d.ctl.ticks with relock := some d.ctl.ticks } else d
  | _ => d

theorem Dev.failStage_alone (hg : d.groupAt l = g) (hw : g.width = 1) : d.failStage l =
    (d.putGroupAt l { g with passed := [], retryAt := some (d.ctl.ticks + 30000000) }).putLaneAt l { d.laneAt l with retries := min 65535 ((d.laneAt l).retries + 1) } := by
  unfold Dev.failStage
  dsimp only
  rw [hg, groupLanes_one hw, List.foldl_cons, List.foldl_nil, Dev.modLaneAt_eq, Dev.putGroupAt_laneAt]
  rfl

variable (ho : d.groupOf l = some (n, g))
include ho

theorem Dev.stagePass_still (hc : d.octetRuns l = false) : d.stagePass l f = d := by
  unfold Dev.stagePass
  rw [ho]
  exact if_pos (by simp [hc])

section Runs

variable (hr : g.retryAt = none) (hp : l ∉ g.passed) (hc : d.octetRuns l = true)
include hr hp hc

theorem Dev.stagePass_late (h : g.overdue d.ctl.ticks = true) : d.stagePass l f = d.failStage n := by
  unfold Dev.stagePass
  rw [ho]
  exact (if_neg (by simp [hr, hp, hc])).trans (if_pos h)

theorem Dev.stagePass_runs (h : g.overdue d.ctl.ticks = false) : d.stagePass l f = d.stageWork l n g f := by
  unfold Dev.stagePass
  rw [ho]
  exact (if_neg (by simp [hr, hp, hc])).trans (if_neg (Bool.eq_false_iff.mp h))

end Runs

theorem Dev.stageTimeout_late (hr : g.retryAt = none) (hs : g.stage = .train ∨ g.stage = .lock ∨ g.stage = .caps) (hl : g.limit = none ∨ g.overdue d.ctl.ticks = true) :
    d.stageTimeout l = d.failStage n := by
  unfold Dev.stageTimeout
  rw [ho]
  exact if_pos (by simp [hr, hs, hl, or_assoc])

theorem Dev.stageTimeout_early (hl : g.limit ≠ none) (h : g.overdue d.ctl.ticks = false) : d.stageTimeout l = d := by
  unfold Dev.stageTimeout
  rw [ho]
  exact if_neg (by simp [hl, h])

theorem Dev.bringupRetry_eq {t : Nat} (ht : g.retryAt = some t) : d.bringupRetry l = if t ≤ d.ctl.ticks then d.enterStage n .detect else d := by
  unfold Dev.bringupRetry
  rw [ho]
  dsimp only
  rw [ht]

end Pass

/-! ## Losses of lock -/

section Loss

variable {d : Dev} {g : Group} {l n : Nat} {energy : Bool}

/-- A lane that has lost lock. -/
def Lane.lost (y : Lane) (now : Nat) : Lane := { y with losses := min 65535 (y.losses + 1), chkLock := false, lostAt := some now }

theorem Dev.countLoss_eq (d : Dev) (l : Nat) : d.countLoss l = (d.putLaneAt l ((d.laneAt l).lost d.ctl.ticks)).raise 43 := rfl

theorem Dev.countLoss_laneAt (d : Dev) (l : Nat) : (d.countLoss l).laneAt l = (d.laneAt l).lost d.ctl.ticks := by
  rw [Dev.countLoss_eq, Dev.raise_laneAt, Dev.laneAt_putLaneAt]

theorem Dev.countLoss_laneAt_other {k : Nat} (h : k ≠ l) : (d.countLoss l).laneAt k = d.laneAt k := by
  rw [Dev.countLoss_eq, Dev.raise_laneAt, Dev.laneAt_putLaneAt_other _ _ h]

theorem Dev.countLoss_groupAt (d : Dev) (l k : Nat) : (d.countLoss l).groupAt k = d.groupAt k := by
  rw [Dev.countLoss_eq, Dev.raise_groupAt, Dev.putLaneAt_groupAt]

theorem Dev.countLoss_ctl (d : Dev) (l : Nat) : (d.countLoss l).ctl = d.ctl := by
  rw [Dev.countLoss_eq, Dev.raise_ctl]
  rfl

theorem Dev.countLoss_work (d : Dev) (l : Nat) : d.LaneWork (d.countLoss l) := (Dev.LaneWork.putLaneAt d l _).trans (Dev.LaneWork.raise _ 43)

theorem Dev.countLoss_status (h : d.flt.latched.get 0 43 = 0) : (d.countLoss l).flt.status.getLsbD 43 = true := by
  rw [Dev.countLoss_eq]
  exact Dev.raise_status (by decide) h

theorem Dev.countLoss_twin (d : Dev) (l : Nat) : (d.countLoss l).twin = d.twin := by
  rw [Dev.countLoss_eq]
  simp

theorem Dev.lockLoss_free {t : Bool} (ho : d.groupOf l = none) (hf : (d.laneAt l).freed ≠ some d.ctl.ticks) : d.lockLoss l t = d := by
  have idle : d.completing l = false := by simp [Dev.completing, ho, hf]
  unfold Dev.lockLoss
  rw [if_neg (Bool.eq_false_iff.mp idle), ho]

/-- A port that goes down: its lanes are out of service, and its group trains again. -/
def Dev.portFallen (d : Dev) (n : Nat) : Dev := (d.putGroupAt n { d.groupAt n with down := true }).mapLanes (groupLanes n (d.groupAt n)) fun y => { y with inSvc := false }

theorem Dev.portLoss_eq (d : Dev) (n : Nat) (energy : Bool) : d.portLoss n energy =
    (((d.portFallen n).enterStage n (if energy && !(d.groupAt n).an then .train else .detect)).discardPort ((d.groupAt n).get 0x24 1)).portLine := rfl

theorem Dev.portFallen_groupAt (d : Dev) (n : Nat) : (d.portFallen n).groupAt n = { d.groupAt n with down := true } := by
  rw [Dev.portFallen, Dev.mapLanes_groupAt, Dev.groupAt_putGroupAt]

theorem Dev.portFallen_groupAt_other {k : Nat} (h : k ≠ n) : (d.portFallen n).groupAt k = d.groupAt k := by
  rw [Dev.portFallen, Dev.mapLanes_groupAt, Dev.groupAt_putGroupAt_other _ _ h]

theorem Dev.portFallen_laneAt {k : Nat} (h : k ∈ groupLanes n (d.groupAt n)) : (d.portFallen n).laneAt k = { d.laneAt k with inSvc := false } := by
  rw [Dev.portFallen, Dev.mapLanes_mem (groupLanes_nodup _ _) h, Dev.putGroupAt_laneAt]

theorem Dev.portFallen_laneAt_other {k : Nat} (h : k ∉ groupLanes n (d.groupAt n)) : (d.portFallen n).laneAt k = d.laneAt k := by
  rw [Dev.portFallen, Dev.mapLanes_other h, Dev.putGroupAt_laneAt]

theorem Dev.portFallen_work (d : Dev) (n : Nat) : d.LaneWork (d.portFallen n) := (Dev.LaneWork.putGroupAt d n _).trans (Dev.LaneWork.mapLanes _ _ _)

theorem Dev.portFallen_flt (d : Dev) (n : Nat) : (d.portFallen n).flt = d.flt := by
  rw [Dev.portFallen, Dev.mapLanes_eq]
  rfl

theorem Dev.portFallen_ctl (d : Dev) (n : Nat) : (d.portFallen n).ctl = d.ctl := by
  rw [Dev.portFallen, Dev.mapLanes_eq]
  rfl

/-- A group that trains again after a port's loss. -/
theorem Dev.retrains_parts (d : Dev) (n : Nat) (b : Bool) : d.Entered (d.enterStage n (if b then .train else .detect)) n (d.groupAt n) (if b then .train else .detect) := by
  cases b with
  | false => exact Dev.enterStage_quiet_parts (.inr rfl)
  | true => exact d.enterStage_train_parts n

theorem Dev.retrains_flt (d : Dev) (n : Nat) (b : Bool) : (d.enterStage n (if b then .train else .detect)).flt = d.flt := by
  cases b with
  | false => rfl
  | true =>
    rw [if_pos rfl, Dev.enterStage_train, Dev.enterTrain_eq, Dev.mapLanes_eq]
    rfl

/-- A port that is down drives line 44. -/
theorem Dev.portLine_high (h : (d.groupAt n).down = true) : d.portLine.flt.live.getLsbD 44 = true := by
  have some_ : d.group.any (fun e => e.2.down) = true := by
    have listed : d.groupAt n ≠ {} := fun h0 => Bool.false_ne_true ((congrArg Group.down h0).symm.trans h)
    exact List.any_eq_true.mpr ⟨_, Tab.mem_of_get listed, h⟩
  rw [Dev.portLine, some_]
  exact d.setLine_high (by decide) (by decide) (by decide)

/-- The loss of an Ethernet port raises its line, and keeps what had latched. -/
theorem Dev.portLoss_lines (d : Dev) (n : Nat) (energy : Bool) : (d.portLoss n energy).flt.live.getLsbD 44 = true ∧
    (d.flt.status.getLsbD 43 = true → (d.portLoss n energy).flt.status.getLsbD 43 = true) := by
  rw [Dev.portLoss_eq]
  refine ⟨Dev.portLine_high (n := n) ?_, fun h => Dev.setLine_keeps_status ?_⟩
  · obtain ⟨group, -⟩ := (d.portFallen n).retrains_parts n (energy && !(d.groupAt n).an)
    rw [Dev.discardPort_groupAt, group, Dev.portFallen_groupAt]
    cases energy && !(d.groupAt n).an with
    | false => rfl
    | true => rfl
  · rw [Dev.discardPort_flt, Dev.retrains_flt, Dev.portFallen_flt]
    exact h

/-- The loss of an Ethernet port of one lane. -/
theorem Dev.portLoss_alone (hg : d.groupAt l = g) (hw : g.width = 1) : d.Brought (d.portLoss l energy) l { g with down := true } (if energy && !g.an then .train else .detect)
    { d.laneAt l with inSvc := false } := by
  obtain ⟨group, groups, lanes, lane, work⟩ := (d.portFallen l).retrains_parts l (energy && !(d.groupAt l).an)
  rw [Dev.portFallen_groupAt] at group lanes lane
  rw [Dev.portLoss_eq]
  subst hg
  have one : groupLanes l { d.groupAt l with down := true } = [l] := groupLanes_one hw
  have one' : groupLanes l (d.groupAt l) = [l] := groupLanes_one hw
  refine ⟨?_, fun k hk => ?_, ?_, fun k hk => ?_, ?_⟩
  · rw [Dev.portLine_groupAt, Dev.discardPort_groupAt]
    exact group.trans (by rw [Dev.portFallen_ctl])
  · rw [Dev.portLine_groupAt, Dev.discardPort_groupAt, groups k hk, Dev.portFallen_groupAt_other hk]
  · rw [Dev.portLine_laneAt, Dev.discardPort_laneAt, lane l (by simp [one]), Dev.portFallen_laneAt (by simp [one'])]
  · rw [Dev.portLine_laneAt, Dev.discardPort_laneAt, lanes k (by simpa [one] using hk), Dev.portFallen_laneAt_other (by simpa [one'] using hk)]
  · exact (((d.portFallen_work l).trans work).trans (Dev.LaneWork.discardPort _ _)).trans (Dev.LaneWork.portLine _)

variable (ho : d.groupOf l = some (n, g))
include ho

theorem Dev.lockLoss_completing (ht : g.testAt = some d.ctl.ticks) (hl : (d.laneAt l).lostAt ≠ some d.ctl.ticks) : d.lockLoss l energy = d.countLoss l := by
  have busy : d.completing l = true := by simp [Dev.completing, ho, ht, hl]
  unfold Dev.lockLoss
  rw [if_pos busy]

/-- A loss in ACTIVE, by protocol. -/
theorem Dev.lockLoss_active (hs : g.stage = .active) (ht : g.testAt ≠ some d.ctl.ticks) : d.lockLoss l energy = match g.proto with
    | 1 => (d.countLoss l).portLoss n energy
    | 3 => ((d.countLoss l).modLaneAt l fun y => { y.fromCache g with inSvc := false, retrain := some d.ctl.ticks, relock := none }).setTwinLanes (d.twin.lanesUp.filter (· != l))
    | _ => ((d.countLoss l).modLaneAt l fun y => { y with inSvc := false, sdiRate := 0 }).enterStage n .lock := by
  have idle : d.completing l = false := by simp [Dev.completing, ho, ht, hs]
  unfold Dev.lockLoss
  rw [if_neg (Bool.eq_false_iff.mp idle), ho]
  exact (if_neg (by simp [hs])).trans (if_neg (by simp [hs]))

theorem Dev.lockLoss_relocks (hs : g.stage = .active) (ht : g.testAt ≠ some d.ctl.ticks) (hp : g.proto = 2 ∨ g.proto = 4 ∨ g.proto = 5) : d.lockLoss l energy =
    ((d.countLoss l).putLaneAt l { (d.laneAt l).lost d.ctl.ticks with inSvc := false, sdiRate := 0 }).enterStage n .lock := by
  rw [Dev.lockLoss_active ho hs ht, ← Dev.countLoss_laneAt]
  rcases hp with hp | hp | hp
  · rw [hp]
    rfl
  · rw [hp]
    rfl
  · rw [hp]
    rfl

theorem Dev.lockLoss_port (hs : g.stage = .active) (ht : g.testAt ≠ some d.ctl.ticks) (hp : g.proto = 1) : d.lockLoss l energy = (d.countLoss l).portLoss n energy := by
  rw [Dev.lockLoss_active ho hs ht, hp]
  rfl

/-- A twin lane that loses lock beside others that stay up retrains alone. -/
theorem Dev.lockLoss_twin (hs : g.stage = .active) (ht : g.testAt ≠ some d.ctl.ticks) (hp : g.proto = 3) (hu : d.twin.lanesUp.filter (· != l) ≠ []) : d.lockLoss l energy =
    { (d.countLoss l).putLaneAt l { ((d.laneAt l).lost d.ctl.ticks).fromCache g with inSvc := false, retrain := some d.ctl.ticks, relock := none } with
      twin := { d.twin with lanesUp := d.twin.lanesUp.filter (· != l) } } := by
  rw [Dev.lockLoss_active ho hs ht, hp, ← Dev.countLoss_laneAt, ← d.countLoss_twin l]
  exact if_neg (by rw [d.countLoss_twin l]; simpa using hu)

end Loss

/-! ## Twin lanes that are back, and equaliser caches -/

section Caches

variable {d : Dev} {g : Group} {l n t : Nat}

theorem Lane.fromCache_twin {y : Lane} (hp : g.proto = 3) : y.fromCache g =
    { y with
      ctle := if (y.cache && y.cRate == 112500000) = true then y.cCtle else y.ctle, dfe := if (y.cache && y.cRate == 112500000) = true then y.cDfe else y.dfe
      tx := if (y.cache && y.cRate == 112500000) = true then y.cTx else y.tx } := by
  have rate : y.hot g = (y.cache && y.cRate == 112500000) := by simp [Lane.hot, Lane.rate, Group.kbps, hp]
  unfold Lane.fromCache
  rw [rate]
  cases (y.cache && y.cRate == 112500000) with
  | false => rfl
  | true => rfl

/-- The device on which a twin lane is in service again. -/
def Dev.readmitted (d : Dev) (l : Nat) : Dev :=
  { d with twin := { d.twin with lanesUp := d.twin.lanesUp.filter (· < l) ++ [l] ++ d.twin.lanesUp.filter (l < ·) } }.putLaneAt l { d.laneAt l with inSvc := true, retrain := none, relock := none }

theorem Dev.eqCacheDrop_eq (ht : (d.laneAt l).idleAt = some t) : d.eqCacheDrop l = if t + (d.laneAt l).holdTicks < d.ctl.ticks then d.putLaneAt l (d.laneAt l).plain else d := by
  have stale : (d.laneAt l).stale d.ctl.ticks = decide (t + (d.laneAt l).holdTicks < d.ctl.ticks) := by
    unfold Lane.stale
    rw [ht]
  unfold Dev.eqCacheDrop
  rw [stale]
  exact if_congr decide_eq_true_iff rfl rfl

variable (ho : d.groupOf l = some (n, g)) (hs : g.stage = .active)
include ho

theorem Dev.laneReadmit_error (hr : (d.laneAt l).relock = some t) : d.laneReadmit l true = d.putLaneAt l { d.laneAt l with relock := some d.ctl.ticks } := by
  unfold Dev.laneReadmit
  rw [ho, hr]
  rfl

theorem Dev.laneReadmit_early (hr : (d.laneAt l).relock = some t) (ht : d.ctl.ticks < t + 3000000) : d.laneReadmit l false = d := by
  unfold Dev.laneReadmit
  rw [ho, hr]
  exact (if_neg Bool.false_ne_true).trans (if_neg (by simp [ht]))

include hs

theorem Dev.laneReadmit_back (hr : (d.laneAt l).relock = some t) (hp : g.proto = 3) (ht : t + 3000000 ≤ d.ctl.ticks) : d.laneReadmit l false =
    if d.twin.st == .partitioned then (d.readmitted l).offerPairing else d.readmitted l := by
  have up : (d.putLaneAt l { d.laneAt l with inSvc := true, retrain := none, relock := none }).setTwinLanes (d.twin.lanesUp.filter (· < l) ++ [l] ++ d.twin.lanesUp.filter (l < ·)) =
      d.readmitted l := if_neg (by simp)
  unfold Dev.laneReadmit
  rw [ho, hr]
  refine (if_neg Bool.false_ne_true).trans ((if_pos (by simp [hp, hs, ht])).trans ?_)
  dsimp only
  rw [Dev.modLaneAt_eq, up]
  rfl

theorem Dev.eqCacheWrite_active {f : LaneFacts} (hr : (d.laneAt l).retrain = none) : d.eqCacheWrite l f = d.putLaneAt l
    (if (d.laneAt l).cacheAt + 300000000 ≤ d.ctl.ticks then ((d.laneAt l).adapted g f).cached g d.ctl.ticks else (d.laneAt l).adapted g f) := by
  unfold Dev.eqCacheWrite
  rw [ho]
  exact if_pos (by simp [hs, hr])

end Caches

end Sys2Proof.Machine

/-! # Raw and test groups (O51) -/

namespace Sys2Proof.Machine

/-! ## Raw atoms and slips -/

section Raw

variable {d : Dev} {g : Group} {l n : Nat} {bs : List Byte}

/-- The number that bits spell, the first the least significant. -/
def spelt (b : Nat → Bool) (n : Nat) : Nat := ((List.range n).map fun i => if b i = true then 2 ^ i else 0).sum

theorem spelt_succ (b : Nat → Bool) (n : Nat) : spelt b (n + 1) = 2 ^ n * (b n).toNat + spelt b n := by
  have last : (if b n = true then 2 ^ n else 0) = 2 ^ n * (b n).toNat := by
    cases b n with
    | false => rfl
    | true => exact (Nat.mul_one _).symm
  rw [spelt, List.range_succ, List.map_append, List.sum_append, List.map_singleton, List.sum_singleton, last, Nat.add_comm]
  rfl

theorem spelt_lt (b : Nat → Bool) (n : Nat) : spelt b n < 2 ^ n := by
  induction n with
  | zero => exact Nat.one_pos
  | succ n ih =>
    have bit : 2 ^ n * (b n).toNat ≤ 2 ^ n * 1 := Nat.mul_le_mul_left _ (Bool.toNat_le _)
    rw [spelt_succ, Nat.pow_succ]
    omega

theorem spelt_testBit (b : Nat → Bool) {k n : Nat} (hk : k < n) : (spelt b n).testBit k = b k := by
  induction n with
  | zero => exact absurd hk (Nat.not_lt_zero k)
  | succ n ih =>
    rw [spelt_succ, Nat.testBit_two_pow_mul_add _ (spelt_lt b n)]
    split
    · next h => exact ih h
    · next h =>
      obtain rfl : k = n := by omega
      rw [Nat.sub_self]
      cases b k with
      | false => rfl
      | true => rfl

theorem bytesOf_length (n : Nat) (rx : List Bool) : (bytesOf n rx).length = n := by simp [bytesOf]

theorem bytesOf_getLsbD {rx : List Bool} {n j k : Nat} (hj : j < n) (hk : k < 8) : ((bytesOf n rx)[j]'(by rw [bytesOf_length]; exact hj)).getLsbD k = rx.getD (8 * j + k) false := by
  simp only [bytesOf, List.getElem_map, List.getElem_range]
  rw [BitVec.getLsbD_ofNat, decide_eq_true hk, Bool.true_and]
  exact spelt_testBit (fun i => rx.getD (8 * j + i) false) hk

variable (ho : d.groupOf l = some (n, g)) (hs : g.stage = .active)
include ho

theorem Dev.slip_eq {who : Requester} {v : Word} (hw : isPf who = true) (hp : g.proto = 4) (hf : g.get 0x2F 1 = 0) :
    d.slip who l v = if v.getLsbD 0 = true then d.putLaneAt l { d.laneAt l with slips := (d.laneAt l).slips + 1 } else d := by
  unfold Dev.slip
  rw [ho]
  exact if_congr (by simp [hw, hp, hf]) rfl rfl

include hs

/-- What is left of a raw lane's received bits once the slips are made. -/
def Dev.rawLeft (d : Dev) (l : Nat) (g : Group) (bs : List Byte) : List Bool :=
  ((d.laneAt l).rxBits ++ g.rawRx bs).drop ((d.laneAt l).slips * if g.pam4 then 2 else 1)

/-- The atom that a raw lane sends. -/
def Dev.rawSent (d : Dev) (l : Nat) (g : Group) : OutEv :=
  .laneTx l (symbols g.pam4 (g.txInv (g.rawBits (d.memRead (g.get 0x48 8 + (d.laneAt l).txPtr) 64))))

/-- The lane once its atom is sent and its slips are made. -/
def Dev.rawLane (d : Dev) (l : Nat) (g : Group) (bs : List Byte) : Lane :=
  { d.laneAt l with txPtr := ((d.laneAt l).txPtr + 64) % g.get 0x44 4, slips := 0, rxBits := d.rawLeft l g bs }

section Passes

variable (hp : g.proto = 4) (hb : g.been = true) (hr : g.get 0x40 4 ≠ 0) (ht : g.get 0x44 4 ≠ 0)
  (hl : ((d.laneAt l).slips * if g.pam4 then 2 else 1) ≤ ((d.laneAt l).rxBits ++ g.rawRx bs).length)
include hp hb hr ht hl

theorem Dev.rawAtom_eq : d.rawAtom l bs = if (d.rawLeft l g bs).length < 512 then (d.emit (d.rawSent l g)).putLaneAt l (d.rawLane l g bs)
    else ((d.emit (d.rawSent l g)).memWrite (g.get 0x38 8 + (d.laneAt l).rawPtr) (bytesOf 64 (d.rawLeft l g bs))).putLaneAt l
      { d.rawLane l g bs with rxBits := (d.rawLeft l g bs).drop 512, rawPtr := ((d.laneAt l).rawPtr + 64) % g.get 0x40 4 } := by
  have made : ((d.laneAt l).slips * (if g.pam4 then 2 else 1) - ((d.laneAt l).rxBits ++ g.rawRx bs).length) / (if g.pam4 then 2 else 1) = 0 := by
    rw [Nat.sub_eq_zero_of_le hl, Nat.zero_div]
  unfold Dev.rawAtom
  rw [ho]
  refine (if_pos (by simp [hp, hb, hs])).trans ?_
  dsimp only
  rw [if_neg (by simp [hs]), made, max_eq_right (Nat.one_le_iff_ne_zero.mpr ht), max_eq_right (Nat.one_le_iff_ne_zero.mpr hr)]
  rfl

/-- Too few bits for an atom wait. -/
theorem Dev.rawAtom_waits (h : (d.rawLeft l g bs).length < 512) : d.rawAtom l bs = (d.emit (d.rawSent l g)).putLaneAt l (d.rawLane l g bs) :=
  (Dev.rawAtom_eq ho hs hp hb hr ht hl).trans (if_pos h)

/-- An atom's bits are written into the ring. -/
theorem Dev.rawAtom_writes (h : 512 ≤ (d.rawLeft l g bs).length) : d.rawAtom l bs =
    ((d.emit (d.rawSent l g)).memWrite (g.get 0x38 8 + (d.laneAt l).rawPtr) (bytesOf 64 (d.rawLeft l g bs))).putLaneAt l
      { d.rawLane l g bs with rxBits := (d.rawLeft l g bs).drop 512, rawPtr := ((d.laneAt l).rawPtr + 64) % g.get 0x40 4 } :=
  (Dev.rawAtom_eq ho hs hp hb hr ht hl).trans (if_neg (Nat.not_lt.mpr h))

end Passes

omit ho hs in
/-- What a write of bytes and a change of a lane leave, behind an output. -/
theorem Dev.written_parts (d : Dev) (o : OutEv) (hlink : o.link = 0) (a k : Nat) (bytes : List Byte) (z : Lane) :
    (((d.emit o).memWrite a bytes).putLaneAt k z).laneAt k = z ∧ (∀ j, j ≠ k → (((d.emit o).memWrite a bytes).putLaneAt k z).laneAt j = d.laneAt j) ∧
    (((d.emit o).memWrite a bytes).putLaneAt k z).out = d.out ++ [o] ∧
    (∀ j, j < a ∨ a + bytes.length ≤ j → (((d.emit o).memWrite a bytes).putLaneAt k z).memByte j = d.memByte j) ∧
    (∀ (j : Nat) (hj : j < bytes.length), a + bytes.length ≤ d.capacity → (((d.emit o).memWrite a bytes).putLaneAt k z).memByte (a + j) = bytes[j]) ∧
    (((d.emit o).memWrite a bytes).putLaneAt k z) = { d with
      lane := (((d.emit o).memWrite a bytes).putLaneAt k z).lane, mem := (((d.emit o).memWrite a bytes).putLaneAt k z).mem,
      poison := (((d.emit o).memWrite a bytes).putLaneAt k z).poison, out := (((d.emit o).memWrite a bytes).putLaneAt k z).out } := by
  have emitted : d.emit o = { d with out := d.out ++ [o] } := d.emit_of_link_zero hlink
  have same (j : Nat) : (((d.emit o).memWrite a bytes).putLaneAt k z).memByte j = ((d.emit o).memWrite a bytes).memByte j := Dev.memByte_congr rfl rfl j
  obtain ⟨mem, poison, written⟩ := (d.emit o).memWrite_eq a bytes
  refine ⟨Dev.laneAt_putLaneAt _ _ _, fun j hj => ?_, ?_, fun j hj => ?_, fun j hj hc => ?_, ?_⟩
  · rw [Dev.laneAt_putLaneAt_other _ _ hj, written, emitted]
    rfl
  · rw [written, emitted]
    rfl
  · rw [same, Dev.memByte_memWrite_other _ _ _ _ hj, emitted]
    rfl
  · rw [same, Dev.memByte_memWrite_inside _ _ _ _ hj]
    rw [emitted]
    exact hc
  · rw [written, emitted]
    rfl

end Raw

/-! ## PRBS -/

section Prbs

variable {d : Dev} {g : Group} {l n : Nat}

theorem prbsRun_length (pattern m state : Nat) : (prbsRun pattern m state).1.length = m := by
  induction m generalizing state with
  | zero => rfl
  | succ m ih => exact congrArg (· + 1) (ih _)

/-- Without a loopback the generator sends and the checker sees the received bits. -/
theorem Dev.prbsBits_eq {rx : List Bool} (ho : d.groupOf l = some (n, g)) (hs : g.stage = .active) (hp : g.proto = 5) (hc : g.check = true) (hg : g.pattern ≠ 0) (hl : g.loopback = 0)
    (hrx : rx ≠ []) : d.prbsBits l rx = (d.emit (.laneTx l (symbols g.pam4 (g.txInv (prbsRun g.pattern rx.length (d.laneAt l).gen).1)))).putLaneAt l
      ((g.rxInv rx).foldl (Lane.checkBit g.pattern) { d.laneAt l with gen := (prbsRun g.pattern rx.length (d.laneAt l).gen).2 }) := by
  have sends : (g.txInv (prbsRun g.pattern rx.length (d.laneAt l).gen).1).isEmpty = false := by
    rw [List.isEmpty_eq_false_iff, ← List.length_pos_iff, Group.txInv, List.length_map, prbsRun_length]
    exact List.length_pos_iff.mpr hrx
  have drives : (g.pattern != 0) = true := by simp [hg]
  unfold Dev.prbsBits
  rw [ho]
  refine (if_pos (by simp [hp, hs])).trans ?_
  dsimp only
  rw [hl, drives, if_pos rfl, if_pos rfl]
  show (if (g.txInv (prbsRun g.pattern rx.length (d.laneAt l).gen).1).isEmpty = true then d else d.emit (.laneTx l (symbols g.pam4 (g.txInv
    (prbsRun g.pattern rx.length (d.laneAt l).gen).1)))).putLaneAt l _ = _
  rw [sends, if_neg Bool.false_ne_true, if_pos (by simp [hc, hs])]
  rfl

/-- One bit without an inversion, at an NRZ rate. -/
theorem Dev.prbsBits_one {b : Bool} (ho : d.groupOf l = some (n, g)) (hs : g.stage = .active) (hp : g.proto = 5) (hc : g.check = true) (hg : g.pattern ≠ 0) (hl : g.loopback = 0)
    (hm : g.pam4 = false) (hr : bitN (g.get 0x30 1) 0 = false) (ht : bitN (g.get 0x31 1) 0 = false) :
    d.prbsBits l [b] = (d.emit (.laneTx l [b2n (prbsNext g.pattern (d.laneAt l).gen)])).putLaneAt l
      (({ d.laneAt l with gen := prbsShift (d.laneAt l).gen (prbsNext g.pattern (d.laneAt l).gen) } : Lane).checkBit g.pattern b) := by
  have sent : symbols g.pam4 (g.txInv (prbsRun g.pattern [b].length (d.laneAt l).gen).1) = [b2n (prbsNext g.pattern (d.laneAt l).gen)] := by
    simp [prbsRun, Group.txInv, ht, hm, symbols]
  have seen : g.rxInv [b] = [b] := by simp [Group.rxInv, hr]
  rw [Dev.prbsBits_eq ho hs hp hc hg hl (List.cons_ne_nil b []), sent, seen]
  rfl

variable {y : Lane} {pattern : Nat} {b : Bool}

theorem Lane.checkBit_unlocked (h : y.chkLock = false) : y.checkBit pattern b =
    { y with
      chk := prbsShift y.chk b, win := [], run := if b != prbsNext pattern y.chk then 0 else y.run + 1
      chkLock := decide (64 ≤ if b != prbsNext pattern y.chk then 0 else y.run + 1) } := if_neg (Bool.eq_false_iff.mp h)

theorem Lane.checkBit_locked (h : y.chkLock = true) (hb : y.prbsBits < 2 ^ 48 - 1) (he : y.prbsErr < 2 ^ 48 - 1) : y.checkBit pattern b =
    { y with
      chk := prbsShift y.chk (prbsNext pattern y.chk), win := ((b != prbsNext pattern y.chk) :: y.win).take 1024, run := 0
      chkLock := decide (((((b != prbsNext pattern y.chk) :: y.win).take 1024).filter id).length < 512)
      prbsBits := y.prbsBits + 1, prbsErr := y.prbsErr + if b != prbsNext pattern y.chk then 1 else 0 } := by
  have counts : (decide (y.prbsBits < 2 ^ 48 - 1) && decide (y.prbsErr < 2 ^ 48 - 1)) = true := by rw [decide_eq_true hb, decide_eq_true he, Bool.and_true]
  unfold Lane.checkBit
  dsimp only
  rw [if_pos h, counts, if_pos rfl, if_pos rfl]
  rfl

end Prbs

end Sys2Proof.Machine

/-! # The LANE unit's descriptors (O51) -/

namespace Sys2Proof.Machine

section Descriptors

variable {d : Dev} {x : Desc} {g : Group} {n : Nat}

theorem Dev.complete_laneAt (d : Dev) (x : Desc) (status mt k : Nat) : (d.complete x status mt).laneAt k = d.laneAt k := by simp [Dev.laneAt]

/-! ## CONFIGURE -/

theorem laneBusy_iff : ((List.range (x.get 0x22 1)).any (fun i => (d.groupOf (x.get 0x20 2 + i)).isSome) || (x.get 0x23 1 == 1 && (d.portGroup (x.get 0x24 1)).isSome) || d.dozing) = true ↔
    (∃ i, i < x.get 0x22 1 ∧ d.groupOf (x.get 0x20 2 + i) ≠ none) ∨ (x.get 0x23 1 = 1 ∧ d.portGroup (x.get 0x24 1) ≠ none) ∨ d.dozing = true := by
  simp [Option.isSome_iff_ne_none, or_assoc]

theorem laneBadField_of (h : (x.get 0x22 1 ≠ 1 ∧ x.get 0x22 1 ≠ 2 ∧ x.get 0x22 1 ≠ 4 ∧ x.get 0x22 1 ≠ 8) ∨ (x.get 0x23 1 ≠ 1 ∧ x.get 0x23 1 ≠ 4 ∧ x.get 0x23 1 ≠ 5) ∨
    (x.get 0x23 1 ≠ 1 ∧ x.get 0x22 1 ≠ 1) ∨ 255 < x.get 0x20 2 ∨ x.get 0x20 2 % x.get 0x22 1 ≠ 0 ∨ 48 < x.get 0x2E 1) : laneBadField x = true := by
  unfold laneBadField
  dsimp only
  rcases h with ⟨h1, h2, h4, h8⟩ | ⟨h1, h4, h5⟩ | ⟨hp, hw⟩ | h | h | h
  · simp [h1, h2, h4, h8]
  · simp [h1, h4, h5]
  · simp [hp, hw]
  · simp [h]
  · simp [h]
  · simp [h]

/-- A raw group is one lane. -/
theorem laneBadField_raw (h : laneBadField x = false) (hp : x.get 0x23 1 = 4) : x.get 0x22 1 = 1 := by
  by_contra hw
  exact Bool.noConfusion (h.symm.trans (laneBadField_of (.inr (.inr (.inl ⟨by omega, hw⟩)))))

/-- A lane that is bound to a group. -/
def Lane.bound (y : Lane) (pam4 : Bool) (now : Nat) : Lane :=
  { y.wake now with dfe := if pam4 then (y.wake now).dfe else 0, inSvc := false, chkLock := false, sdiRate := 0, retrain := none, relock := none }

/-- The group that a CONFIGURE makes. -/
def Dev.laneGroup (d : Dev) (x : Desc) : Group := { proto := x.get 0x23 1, width := x.get 0x22 1, cfg := x.bytes, stage := .detect, since := d.ctl.ticks }

/-- A raw lane starts anew. -/
def Lane.rawStart (y : Lane) (x : Desc) : Lane := if x.get 0x23 1 = 4 then { y with rawPtr := 0, txPtr := 0, slips := 0, rxBits := [] } else y

/-- The device whose lanes are bound to a new group. -/
def Dev.laneBound (d : Dev) (x : Desc) : Dev :=
  (d.putGroupAt (x.get 0x20 2) (d.laneGroup x)).mapLanes (groupLanes (x.get 0x20 2) (d.laneGroup x)) fun y => y.bound (d.laneGroup x).pam4 d.ctl.ticks

theorem Dev.laneConfigure_checks (d : Dev) (x : Desc) : d.laneConfigure x = d.checked x
    [((List.range (x.get 0x22 1)).any (fun i => (d.groupOf (x.get 0x20 2 + i)).isSome) || (x.get 0x23 1 == 1 && (d.portGroup (x.get 0x24 1)).isSome) || d.dozing, 6), (laneBadField x, 4),
      (laneBadFormat x, 9), (d.octetFull (x.get 0x20 2 / 8) (x.get 0x28 4), 2)]
    (((d.laneBound x).modLaneAt (x.get 0x20 2) fun y => y.rawStart x).complete x 0 0) := rfl

/-- Lanes behind a change of one that leaves the others. -/
theorem Dev.laneAt_modLaneAt (d : Dev) (n k : Nat) (f : Lane → Lane) : (d.modLaneAt n f).laneAt k = if k = n then f (d.laneAt k) else d.laneAt k := by
  split
  · next h =>
    subst h
    exact Dev.laneAt_putLaneAt _ _ _
  · next h => exact Dev.laneAt_putLaneAt_other _ _ h

theorem Dev.modLaneAt_groupAt (d : Dev) (n k : Nat) (f : Lane → Lane) : (d.modLaneAt n f).groupAt k = d.groupAt k := Dev.putLaneAt_groupAt _ _ _ _

theorem Dev.laneBound_groupAt (d : Dev) (x : Desc) : (d.laneBound x).groupAt (x.get 0x20 2) = d.laneGroup x := by
  rw [Dev.laneBound, Dev.mapLanes_groupAt, Dev.groupAt_putGroupAt]

theorem Dev.laneBound_groupAt_other {k : Nat} (h : k ≠ x.get 0x20 2) : (d.laneBound x).groupAt k = d.groupAt k := by
  rw [Dev.laneBound, Dev.mapLanes_groupAt, Dev.groupAt_putGroupAt_other _ _ h]

/-- The lanes of a new group. -/
theorem Dev.laneConfigured_lane {i : Nat} (hf : laneBadField x = false) (hi : i < x.get 0x22 1) :
    ((d.laneBound x).modLaneAt (x.get 0x20 2) fun y => y.rawStart x).laneAt (x.get 0x20 2 + i) = ((d.laneAt (x.get 0x20 2 + i)).bound (d.laneGroup x).pam4 d.ctl.ticks).rawStart x := by
  have bound : (d.laneBound x).laneAt (x.get 0x20 2 + i) = (d.laneAt (x.get 0x20 2 + i)).bound (d.laneGroup x).pam4 d.ctl.ticks := by
    rw [Dev.laneBound, Dev.mapLanes_mem (groupLanes_nodup _ _) (groupLanes_mem hi), Dev.putGroupAt_laneAt]
  rw [Dev.laneAt_modLaneAt, bound]
  split
  · rfl
  · next h =>
    have other : x.get 0x23 1 ≠ 4 := fun hp => by
      have := laneBadField_raw hf hp
      omega
    exact (if_neg other).symm

theorem Dev.laneConfigured_outside {k : Nat} (hw : x.get 0x22 1 ≠ 0) (hk : k < x.get 0x20 2 ∨ x.get 0x20 2 + x.get 0x22 1 ≤ k) :
    ((d.laneBound x).modLaneAt (x.get 0x20 2) fun y => y.rawStart x).laneAt k = d.laneAt k := by
  rw [Dev.laneAt_modLaneAt, if_neg (by omega), Dev.laneBound, Dev.mapLanes_other (groupLanes_outside hk), Dev.putGroupAt_laneAt]

/-- A group has at least one lane. -/
theorem laneBadField_width (h : laneBadField x = false) : x.get 0x22 1 ≠ 0 := fun hw =>
  Bool.noConfusion (h.symm.trans (laneBadField_of (.inl ⟨by omega, by omega, by omega, by omega⟩)))

/-! ## RELEASE -/

theorem Group.own_proto (h : g.own = true) : g.proto ≠ 0 := fun hp => by simp [Group.own, hp] at h

/-- A lane in electrical idle since its group left it. -/
def Lane.idled (y : Lane) (now : Nat) : Lane :=
  { y with inSvc := false, chkLock := false, sdiRate := 0, idleAt := some (y.idleAt.getD now), retrain := none, relock := none }

theorem Dev.unbindGroup_eq (h : (d.groupAt n).proto ≠ 0) : d.unbindGroup n =
    ((d.putGroupAt n {}).mapLanes (groupLanes n (d.groupAt n)) fun y => y.idled d.ctl.ticks).mapLanes (groupLanes n (d.groupAt n)) fun y => { y with freed := some d.ctl.ticks } := if_neg h

theorem Dev.dropGroup_lane (d : Dev) (n k : Nat) : (d.dropGroup n).laneAt k = (d.unbindGroup n).laneAt k := by
  unfold Dev.dropGroup
  dsimp only
  split
  · rw [Dev.discardPort_laneAt, Dev.portLine_laneAt]
  · rw [Dev.portLine_laneAt]

theorem Dev.dropGroup_group (d : Dev) (n k : Nat) : (d.dropGroup n).groupAt k = (d.unbindGroup n).groupAt k := by
  unfold Dev.dropGroup
  dsimp only
  split
  · rw [Dev.discardPort_groupAt, Dev.portLine_groupAt]
  · rw [Dev.portLine_groupAt]

/-- A group that is released. -/
theorem Dev.dropGroup_parts (h : (d.groupAt n).own = true) : (d.dropGroup n).groupAt n = {} ∧ (∀ k, k ≠ n → (d.dropGroup n).groupAt k = d.groupAt k) ∧
    (∀ i, i < (d.groupAt n).width → (d.dropGroup n).laneAt (n + i) = { (d.laneAt (n + i)).idled d.ctl.ticks with freed := some d.ctl.ticks }) ∧
    ∀ k, (k < n ∨ n + (d.groupAt n).width ≤ k) → (d.dropGroup n).laneAt k = d.laneAt k := by
  refine ⟨?_, fun k hk => ?_, fun i hi => ?_, fun k hk => ?_⟩
  · rw [Dev.dropGroup_group, Dev.unbindGroup_eq (Group.own_proto h), Dev.mapLanes_groupAt, Dev.mapLanes_groupAt, Dev.groupAt_putGroupAt]
  · rw [Dev.dropGroup_group, Dev.unbindGroup_eq (Group.own_proto h), Dev.mapLanes_groupAt, Dev.mapLanes_groupAt, Dev.groupAt_putGroupAt_other _ _ hk]
  · rw [Dev.dropGroup_lane, Dev.unbindGroup_eq (Group.own_proto h), Dev.mapLanes_mem (groupLanes_nodup _ _) (groupLanes_mem hi), Dev.mapLanes_mem (groupLanes_nodup _ _) (groupLanes_mem hi),
      Dev.putGroupAt_laneAt]
  · rw [Dev.dropGroup_lane, Dev.unbindGroup_eq (Group.own_proto h), Dev.mapLanes_other (groupLanes_outside hk), Dev.mapLanes_other (groupLanes_outside hk), Dev.putGroupAt_laneAt]

/-! ## IDLE -/

/-- The group as it enters electrical idle. -/
def Dev.idleGroup (d : Dev) (n : Nat) : Group :=
  { d.groupAt n with
    stage := .idle, passed := [], retryAt := none, down := false, idleAt := d.ctl.ticks, dormant := false
    midway := (d.groupAt n).stage != .active && !(groupLanes n (d.groupAt n)).any fun l => (d.laneAt l).lostAt == some d.ctl.ticks }

theorem Dev.groupIdle_eq (h : (d.groupAt n).stage ≠ .idle) : d.groupIdle n false =
    if (d.groupAt n).proto = 1 then
      (((d.putGroupAt n (d.idleGroup n)).mapLanes (groupLanes n (d.groupAt n)) fun y => { y with inSvc := false, chkLock := false, idleAt := some d.ctl.ticks }).portLine).discardPort
        ((d.groupAt n).get 0x24 1)
    else ((d.putGroupAt n (d.idleGroup n)).mapLanes (groupLanes n (d.groupAt n)) fun y => { y with inSvc := false, chkLock := false, idleAt := some d.ctl.ticks }).portLine :=
  if_neg (by simpa using h)

theorem Dev.groupIdle_parts (h : (d.groupAt n).stage ≠ .idle) : (d.groupIdle n false).groupAt n = d.idleGroup n ∧ (∀ k, k ≠ n → (d.groupIdle n false).groupAt k = d.groupAt k) ∧
    ∀ i, i < (d.groupAt n).width → (d.groupIdle n false).laneAt (n + i) = { d.laneAt (n + i) with inSvc := false, chkLock := false, idleAt := some d.ctl.ticks } := by
  have group (k : Nat) : (d.groupIdle n false).groupAt k = (d.putGroupAt n (d.idleGroup n)).groupAt k := by
    rw [Dev.groupIdle_eq h]
    split
    · rw [Dev.discardPort_groupAt, Dev.portLine_groupAt, Dev.mapLanes_groupAt]
    · rw [Dev.portLine_groupAt, Dev.mapLanes_groupAt]
  refine ⟨?_, fun k hk => ?_, fun i hi => ?_⟩
  · rw [group, Dev.groupAt_putGroupAt]
  · rw [group, Dev.groupAt_putGroupAt_other _ _ hk]
  · rw [Dev.groupIdle_eq h]
    split
    · rw [Dev.discardPort_laneAt, Dev.portLine_laneAt, Dev.mapLanes_mem (groupLanes_nodup _ _) (groupLanes_mem hi), Dev.putGroupAt_laneAt]
    · rw [Dev.portLine_laneAt, Dev.mapLanes_mem (groupLanes_nodup _ _) (groupLanes_mem hi), Dev.putGroupAt_laneAt]

/-- Lanes change and send their bursts. -/
def Dev.bursts (d : Dev) (ls : List Nat) (f : Lane → Lane) : Dev := ls.foldl (fun e l => (e.modLaneAt l f).emit (.notice "LANE_BURST" l 128 0)) d

theorem Dev.bursts_groupAt (d : Dev) (ls : List Nat) (f : Lane → Lane) (k : Nat) : (d.bursts ls f).groupAt k = d.groupAt k :=
  foldl_proj (fun e => e.groupAt k) (fun e l => by rw [Dev.emit_of_link_zero _ rfl]; exact Dev.putLaneAt_groupAt e (f (e.laneAt l)) l k) _ _

theorem Dev.bursts_ctl (d : Dev) (ls : List Nat) (f : Lane → Lane) : (d.bursts ls f).ctl = d.ctl :=
  foldl_proj (fun e => e.ctl) (fun e l => by rw [Dev.emit_of_link_zero _ rfl]; rfl) _ _

theorem Dev.bursts_out (d : Dev) (ls : List Nat) (f : Lane → Lane) : (d.bursts ls f).out = d.out ++ ls.map fun l => .notice "LANE_BURST" l 128 0 := by
  unfold Dev.bursts
  induction ls generalizing d with
  | nil => exact (List.append_nil _).symm
  | cons l ls ih =>
    rw [List.foldl_cons, ih, Dev.emit_of_link_zero _ rfl, List.map_cons]
    exact List.append_assoc _ [_] _

theorem Dev.bursts_lane (ls : List Nat) (f : Lane → Lane) {d e : Dev} (h : d.lane = e.lane) : (d.bursts ls f).lane = (e.mapLanes ls f).lane := by
  unfold Dev.bursts Dev.mapLanes
  induction ls generalizing d e with
  | nil => exact h
  | cons l ls ih =>
    refine ih ?_
    dsimp only
    rw [Dev.emit_of_link_zero _ rfl]
    simp only [Dev.modLaneAt_eq, Dev.putLaneAt, Dev.laneAt, h]

theorem Dev.bursts_laneAt {ls : List Nat} {f : Lane → Lane} {k : Nat} (hn : ls.Nodup) (h : k ∈ ls) : (d.bursts ls f).laneAt k = f (d.laneAt k) := by
  have lane : (d.bursts ls f).laneAt k = (d.mapLanes ls f).laneAt k := by
    simp only [Dev.laneAt, Dev.bursts_lane ls f (rfl : d.lane = d.lane)]
  rw [lane, Dev.mapLanes_mem hn h]

/-- A group leaves electrical idle for LOCK. -/
def Dev.wakesQuick (d : Dev) (n : Nat) : Bool :=
  let g := d.groupAt n
  (groupLanes n g).all (fun l => d.ctl.ticks ≤ g.idleAt + (d.laneAt l).holdTicks && (d.laneAt l).cache) && !g.an && !(g.proto == 1 && g.lt) && !g.midway && d.octetRuns n

theorem Dev.wakesQuick_iff : d.wakesQuick n = true ↔
    (∀ i, i < (d.groupAt n).width → d.ctl.ticks ≤ (d.groupAt n).idleAt + (d.laneAt (n + i)).holdTicks ∧ (d.laneAt (n + i)).cache = true) ∧ (d.groupAt n).an = false ∧
    ¬ ((d.groupAt n).proto = 1 ∧ (d.groupAt n).lt = true) ∧ (d.groupAt n).midway = false ∧ d.octetRuns n = true := by
  simp [Dev.wakesQuick, groupLanes, and_assoc, imp_iff_not_or]

theorem Dev.groupWake_eq (h : (d.groupAt n).stage = .idle) : d.groupWake n =
    ((d.putGroupAt n { d.groupAt n with dormant := false }).bursts (groupLanes n (d.groupAt n)) fun y => y.wake d.ctl.ticks).enterStage n (if d.wakesQuick n then .lock else .detect) :=
  if_neg (by simp [h])

theorem Dev.groupWake_parts (h : (d.groupAt n).stage = .idle) : ((d.groupWake n).groupAt n).stage = (if d.wakesQuick n then .lock else .detect) ∧
    ((d.groupWake n).groupAt n).since = d.ctl.ticks ∧ (∀ k, k ≠ n → (d.groupWake n).groupAt k = d.groupAt k) ∧
    (∀ i, i < (d.groupAt n).width → (d.groupWake n).laneAt (n + i) = (d.laneAt (n + i)).wake d.ctl.ticks) ∧
    (d.groupWake n).out = d.out ++ (List.range (d.groupAt n).width).map fun i => .notice "LANE_BURST" (n + i) 128 0 := by
  have quiet : (if d.wakesQuick n then Stage.lock else .detect) = .lock ∨ (if d.wakesQuick n then Stage.lock else .detect) = .detect := by
    cases d.wakesQuick n with
    | false => exact .inr rfl
    | true => exact .inl rfl
  rw [Dev.groupWake_eq h, Dev.enterStage_quiet quiet, Dev.groupAt_putGroupAt]
  refine ⟨rfl, ?_, fun k hk => ?_, fun i hi => ?_, ?_⟩
  · exact congrArg (fun c => c.ticks) (Dev.bursts_ctl (d.putGroupAt n { d.groupAt n with dormant := false }) (groupLanes n (d.groupAt n)) fun y => y.wake d.ctl.ticks)
  · rw [Dev.groupAt_putGroupAt_other _ _ hk, Dev.bursts_groupAt, Dev.groupAt_putGroupAt_other _ _ hk]
  · rw [Dev.putGroupAt_laneAt, Dev.bursts_laneAt (groupLanes_nodup _ _) (groupLanes_mem hi), Dev.putGroupAt_laneAt]
  · refine (Dev.bursts_out _ _ _).trans ?_
    rw [groupLanes, List.map_map]
    rfl

end Descriptors

end Sys2Proof.Machine

/-! # Lanes (O51) -/

namespace Sys2Proof.Machine

section Clauses

variable {s : State} {d e f : Dev} {g : Group} {st : Stage} {l n : Nat} {y z : Lane}

theorem Dev.Brought.after (h : e.Brought f l g st z) (ht : e.ctl.ticks = d.ctl.ticks) (hg : ∀ k, k ≠ l → e.groupAt k = d.groupAt k) (hl : ∀ k, k ≠ l → e.laneAt k = d.laneAt k)
    (work : d.LaneWork e) : d.Brought f l g st z := by
  obtain ⟨group, groups, lane, lanes, work'⟩ := h
  exact ⟨ht ▸ group, fun k hk => (groups k hk).trans (hg k hk), lane, fun k hk => (lanes k hk).trans (hl k hk), work.trans work'⟩

/-- A group of one lane that has entered a stage, field by field. -/
theorem Dev.Brought.parts {g' : Group} {down : Bool} (hb : d.Brought f l g' st z)
    (hg : ∀ w, { g'.entered st d.ctl.ticks with warm := w } =
      { g with stage := st, passed := [], since := d.ctl.ticks, retryAt := none, down := down, been := g.been || st == .active, warm := w }) :
    f.groupAt l = { g with stage := st, passed := [], since := d.ctl.ticks, retryAt := none, down := down, been := g.been || st == .active, warm := (f.groupAt l).warm } ∧
    (∀ k, k ≠ l → f.groupAt k = d.groupAt k) ∧ f.laneAt l = z.enters g' st ∧ (∀ k, k ≠ l → f.laneAt k = d.laneAt k) ∧
    f = { d with group := f.group, lane := f.lane, flt := f.flt, hub := f.hub, flow := f.flow, queue := f.queue, casc := f.casc, waiting := f.waiting, out := f.out,
                 ctl := { d.ctl with octClk := f.ctl.octClk } } := by
  obtain ⟨group, groups, lane, lanes, work⟩ := hb
  exact ⟨group.trans (hg _), groups, lane, lanes, work⟩

/-- The same of a group whose lane becomes `y`. -/
theorem completes_brought {i : Instr} {g' : Group} {down : Bool} (hx : exec i s = ok s f) (hb : s.dev.Brought f l g' st z)
    (hg : ∀ w, { g'.entered st s.dev.ctl.ticks with warm := w } =
      { g with stage := st, passed := [], since := s.dev.ctl.ticks, retryAt := none, down := down, been := g.been || st == .active, warm := w }) (hz : z.enters g' st = y) :
    Completes i s fun f =>
      f.groupAt l = { g with stage := st, passed := [], since := s.dev.ctl.ticks, retryAt := none, down := down, been := g.been || st == .active, warm := (f.groupAt l).warm } ∧
      (∀ k, k ≠ l → f.groupAt k = s.dev.groupAt k) ∧ f.laneAt l = y ∧ (∀ k, k ≠ l → f.laneAt k = s.dev.laneAt k) ∧
      f = { s.dev with group := f.group, lane := f.lane, flt := f.flt, hub := f.hub, flow := f.flow, queue := f.queue, casc := f.casc, waiting := f.waiting, out := f.out,
                       ctl := { s.dev.ctl with octClk := f.ctl.octClk } } := by
  obtain ⟨group, groups, lane, lanes, work⟩ := hb.parts hg
  exact ⟨f, hx, group, groups, lane.trans hz, lanes, work⟩

/-- Outside ACTIVE a group keeps its fault. -/
theorem Group.entered_down (hs : st ≠ .active) (now : Nat) (w : Bool) : { g.entered st now with warm := w } =
    { g with stage := st, passed := [], since := now, retryAt := none, down := g.down, been := g.been || st == .active, warm := w } := by
  simp [Group.entered, hs]

theorem Group.entered_active (now : Nat) (w : Bool) : { g.entered .active now with warm := w } =
    { g with stage := .active, passed := [], since := now, retryAt := none, down := false, been := g.been || Stage.active == .active, warm := w } := by
  simp [Group.entered]

theorem Lane.trains_cached (hc : y.cache = true) (hp : g.proto ≠ 2) (hr : y.cRate = g.kbps) (hf : g.fixedCtle = false) (ht : g.lt = true) :
    y.trains g = { y with ctle := y.cCtle, dfe := y.cDfe, tx := y.cTx } := by
  have hot : y.hot g = true := by simp [Lane.hot, Lane.rate, hc, hp, hr]
  simp [Lane.trains, Lane.fromCache, hot, hf, ht]

theorem Lane.trains_plain (hc : y.cache = false) (h : g.own = false ∨ (g.fixedCtle = false ∧ g.lt = true)) : y.trains g = y := by
  have cold : y.hot g = false := by simp [Lane.hot, hc]
  rcases h with h | ⟨hf, ht⟩
  · simp [Lane.trains, Lane.fromCache, cold, h]
  · simp [Lane.trains, Lane.fromCache, cold, hf, ht]

/-- Training sets no more than the equaliser. -/
theorem Lane.trains_keeps (y : Lane) (g : Group) : (y.trains g).losses = y.losses ∧ (y.trains g).inSvc = y.inSvc ∧ (y.trains g).chkLock = y.chkLock := by
  have cached : (y.fromCache g).losses = y.losses ∧ (y.fromCache g).inSvc = y.inSvc ∧ (y.fromCache g).chkLock = y.chkLock := by
    unfold Lane.fromCache
    split
    · exact ⟨rfl, rfl, rfl⟩
    · exact ⟨rfl, rfl, rfl⟩
  unfold Lane.trains
  dsimp only
  split
  · split
    · exact cached
    · exact cached
  · split
    · exact cached
    · exact cached

/-- A lane of a port that goes down counts its loss and is out of service, however its group goes on. -/
theorem Lane.fallen_parts (y : Lane) (g : Group) (now : Nat) (b : Bool) : let z := Lane.enters { y.lost now with inSvc := false } g (if b then .train else .detect)
    z.losses = min 65535 (y.losses + 1) ∧ z.inSvc = false ∧ z.chkLock = false := by
  cases b with
  | false => exact ⟨rfl, rfl, rfl⟩
  | true => exact Lane.trains_keeps { y.lost now with inSvc := false } g

theorem Group.entered_fallen (g : Group) (b : Bool) (now : Nat) (w : Bool) : { Group.entered { g with down := true } (if b then .train else .detect) now with warm := w } =
    { g with stage := if b then .train else .detect, passed := [], since := now, retryAt := none, down := true, been := g.been || (if b then Stage.train else .detect) == .active, warm := w } := by
  cases b with
  | false => rfl
  | true => rfl

theorem Lane.trained_eq (y : Lane) (g : Group) (f : LaneFacts) : y.trained g f = { y.adapted g f with tx := if g.lt = true ∨ g.proto = 3 then f.tx else y.tx } := by
  have tx : (if (g.lt || g.proto == 3) = true then f.tx else y.tx) = if g.lt = true ∨ g.proto = 3 then f.tx else y.tx := if_congr (by simp) rfl rfl
  unfold Lane.trained
  rw [tx]

/-- The statement's device after a poll that finds nothing. -/
theorem Dev.polled_lost (d : Dev) (clk : Bool) (g1 : Group) (hl : l < 256) :
    ((d.polling l clk).putGroupAt l g1).groupAt l = g1 ∧ (∀ k, k ≠ l → ((d.polling l clk).putGroupAt l g1).groupAt k = d.groupAt k) ∧
    ((d.polling l clk).putGroupAt l g1).laneAt l = { d.laneAt l with polled := some d.ctl.ticks } ∧ (∀ k, k ≠ l → ((d.polling l clk).putGroupAt l g1).laneAt k = d.laneAt k) ∧
    ((d.polling l clk).putGroupAt l g1).octetRuns l = clk ∧
    ((d.polling l clk).putGroupAt l g1) = { d with
      group := ((d.polling l clk).putGroupAt l g1).group, lane := ((d.polling l clk).putGroupAt l g1).lane, ctl := { d.ctl with octClk := ((d.polling l clk).putGroupAt l g1).ctl.octClk } } := by
  refine ⟨Dev.groupAt_putGroupAt _ _ _, fun k hk => ?_, ?_, fun k hk => ?_, Dev.clocked_octetRuns clk hl, rfl⟩
  · rw [Dev.groupAt_putGroupAt_other _ _ hk, Dev.polling, Dev.putLaneAt_groupAt]
    rfl
  · rw [Dev.putGroupAt_laneAt, Dev.polling, Dev.laneAt_putLaneAt]
  · rw [Dev.putGroupAt_laneAt, Dev.polling, Dev.laneAt_putLaneAt_other _ _ hk]
    rfl

section Alone

variable (ho : d.groupOf l = some (l, g)) (hg : d.groupAt l = g) (hw : g.width = 1)
include ho hg hw

theorem Dev.detectPoll_brought {fd : DetectFacts} (hs : g.stage = .detect) (ha : g.an = false) (hp : ∀ t, (d.laneAt l).polled = some t → t + 3000000 ≤ d.ctl.ticks)
    (hf : (g.detects fd && fd.clk) = true) : d.Brought (d.detectPoll l fd) l g .train { d.laneAt l with polled := some d.ctl.ticks } := by
  have group : (d.polling l fd.clk).groupAt l = g := (Dev.putLaneAt_groupAt _ _ _ _).trans hg
  rw [Dev.detectPoll_eq ho hs hp, if_pos hf]
  exact (Dev.passStage_detect group hw hs ha).brought hw rfl (fun _ _ => Dev.putLaneAt_groupAt _ _ _ _) (fun _ hk => Dev.laneAt_putLaneAt_other _ _ hk) (Dev.laneAt_putLaneAt _ _ _)
    (Dev.LaneWork.polling d l fd.clk)

section Pass

variable {fa : LaneFacts} (hr : g.retryAt = none) (hp : g.passed = []) (hc : d.octetRuns l = true) (hl : ∀ k, g.limit = some k → d.ctl.ticks ≤ g.since + k)
include hr hp hc hl

theorem Dev.stagePass_train (hs : g.stage = .train) : d.Brought (d.stagePass l fa) l g .lock (((d.laneAt l).trained g fa).cached g d.ctl.ticks) := by
  have group : (d.putLaneAt l (((d.laneAt l).trained g fa).cached g d.ctl.ticks)).groupAt l = g := (Dev.putLaneAt_groupAt _ _ _ _).trans hg
  rw [Dev.stagePass_runs ho hr (by simp [hp]) hc (Group.overdue_not hl), Dev.stageWork, hs]
  exact (Dev.passStage_train group hw hs).brought_put hw

theorem Dev.stagePass_lock (hs : g.stage = .lock) (ha : g.an = false) (h3 : g.proto ≠ 3) (h2 : g.proto ≠ 2) : d.Brought (d.stagePass l fa) l g .active (d.laneAt l) := by
  rw [Dev.stagePass_runs ho hr (by simp [hp]) hc (Group.overdue_not hl), Dev.stageWork, hs]
  dsimp only
  rw [if_neg h2]
  exact (Dev.passStage_lock hg hw hs ha h3).brought_same hw

theorem Dev.stagePass_sdi (hs : g.stage = .lock) (h2 : g.proto = 2) (hf : fa.sdiRate = g.tries d.ctl.ticks) :
    d.Brought (d.stagePass l fa) l g .active { d.laneAt l with sdiRate := fa.sdiRate } := by
  have group : (d.putLaneAt l { d.laneAt l with sdiRate := fa.sdiRate }).groupAt l = g := (Dev.putLaneAt_groupAt _ _ _ _).trans hg
  have plain : g.an = false := by simp [Group.an, h2]
  rw [Dev.stagePass_runs ho hr (by simp [hp]) hc (Group.overdue_not hl), Dev.stageWork, hs]
  dsimp only
  rw [if_pos h2, if_pos hf]
  exact (Dev.passStage_lock group hw hs plain (by omega)).brought_put hw

omit hg hw in
theorem Dev.stagePass_unlocked (hs : g.stage = .lock) (h2 : g.proto = 2) (hf : fa.sdiRate ≠ g.tries d.ctl.ticks) : d.stagePass l fa = d := by
  rw [Dev.stagePass_runs ho hr (by simp [hp]) hc (Group.overdue_not hl), Dev.stageWork, hs]
  dsimp only
  rw [if_pos h2, if_neg hf]

end Pass

theorem Dev.bringupRetry_brought {t : Nat} (ht : g.retryAt = some t) (hl : t ≤ d.ctl.ticks) : d.Brought (d.bringupRetry l) l g .detect (d.laneAt l) := by
  have parts := Dev.enterStage_quiet_parts (d := d) (n := l) (.inr rfl : (Stage.detect = .lock) ∨ _)
  rw [hg] at parts
  rw [Dev.bringupRetry_eq ho ht, if_pos hl]
  exact parts.brought_same hw

theorem Dev.lockLoss_relock_brought {energy : Bool} (hs : g.stage = .active) (ht : g.testAt ≠ some d.ctl.ticks) (hp : g.proto = 2 ∨ g.proto = 4 ∨ g.proto = 5) :
    d.Brought (d.lockLoss l energy) l g .lock { (d.laneAt l).lost d.ctl.ticks with inSvc := false, sdiRate := 0 } := by
  have parts := Dev.enterStage_quiet_parts (d := (d.countLoss l).putLaneAt l { (d.laneAt l).lost d.ctl.ticks with inSvc := false, sdiRate := 0 }) (n := l) (.inl rfl : Stage.lock = .lock ∨ _)
  rw [Dev.putLaneAt_groupAt, Dev.countLoss_groupAt, hg] at parts
  rw [Dev.lockLoss_relocks ho hs ht hp]
  exact (parts.brought_put hw).after (congrArg (fun c => c.ticks) (d.countLoss_ctl l)) (fun k _ => d.countLoss_groupAt l k) (fun k hk => Dev.countLoss_laneAt_other hk) (d.countLoss_work l)

theorem Dev.lockLoss_port_brought {energy : Bool} (hs : g.stage = .active) (ht : g.testAt ≠ some d.ctl.ticks) (hp : g.proto = 1) :
    d.Brought (d.lockLoss l energy) l { g with down := true } (if energy && !g.an then .train else .detect) { (d.laneAt l).lost d.ctl.ticks with inSvc := false } := by
  have parts := Dev.portLoss_alone (energy := energy) ((d.countLoss_groupAt l l).trans hg) hw
  rw [Dev.countLoss_laneAt] at parts
  rw [Dev.lockLoss_port ho hs ht hp]
  exact parts.after (congrArg (fun c => c.ticks) (d.countLoss_ctl l)) (fun k _ => d.countLoss_groupAt l k) (fun k hk => Dev.countLoss_laneAt_other hk) (d.countLoss_work l)

end Alone

/-- What the partner link's device is with other lanes up. -/
theorem Dev.withTwin_parts (e : Dev) (t : Twin) (k : Nat) : ({ e with twin := t } : Dev).laneAt k = e.laneAt k ∧ ({ e with twin := t } : Dev).twin = t ∧ ({ e with twin := t } : Dev).flt = e.flt :=
  ⟨rfl, rfl, rfl⟩

/-- A twin lane that retrains alone. -/
theorem Dev.lockLoss_twin_parts {energy : Bool} (ho : d.groupOf l = some (n, g)) (hs : g.stage = .active) (ht : g.testAt ≠ some d.ctl.ticks) (hp : g.proto = 3)
    (hu : d.twin.lanesUp.filter (· != l) ≠ []) (hl : d.flt.latched.get 0 43 = 0) :
    (d.lockLoss l energy).laneAt l = { (d.laneAt l).lost d.ctl.ticks with
      inSvc := false, retrain := some d.ctl.ticks, relock := none
      ctle := if ((d.laneAt l).cache && (d.laneAt l).cRate == 112500000) = true then (d.laneAt l).cCtle else (d.laneAt l).ctle
      dfe := if ((d.laneAt l).cache && (d.laneAt l).cRate == 112500000) = true then (d.laneAt l).cDfe else (d.laneAt l).dfe
      tx := if ((d.laneAt l).cache && (d.laneAt l).cRate == 112500000) = true then (d.laneAt l).cTx else (d.laneAt l).tx } ∧
    (d.lockLoss l energy).twin = { d.twin with lanesUp := d.twin.lanesUp.filter (· != l) } ∧ (d.lockLoss l energy).flt.status.getLsbD 43 = true := by
  obtain ⟨same, twin, flt⟩ := Dev.withTwin_parts ((d.countLoss l).putLaneAt l { ((d.laneAt l).lost d.ctl.ticks).fromCache g with inSvc := false, retrain := some d.ctl.ticks, relock := none })
    { d.twin with lanesUp := d.twin.lanesUp.filter (· != l) } l
  rw [Dev.lockLoss_twin ho hs ht hp hu, same, twin, flt, Dev.laneAt_putLaneAt, Lane.fromCache_twin hp]
  exact ⟨rfl, rfl, Dev.countLoss_status hl⟩

end Clauses

end Sys2Proof.Machine

/-! # Serial lanes, settled (O51) -/

namespace Sys2Proof.Machine

section Parts

variable {s : State} {d : Dev} {x : Desc} {g : Group} {l n : Nat}

/-- What an accepted CONFIGURE leaves. -/
theorem Dev.laneConfigured_parts (hf : laneBadField x = false) (f : Dev) (h : f = (((d.laneBound x).modLaneAt (x.get 0x20 2) fun y => y.rawStart x).complete x 0 0)) :
    f.groupAt (x.get 0x20 2) = d.laneGroup x ∧ (∀ k, k ≠ x.get 0x20 2 → f.groupAt k = d.groupAt k) ∧
    (∀ i, i < x.get 0x22 1 → f.laneAt (x.get 0x20 2 + i) = ((d.laneAt (x.get 0x20 2 + i)).bound (d.laneGroup x).pam4 d.ctl.ticks).rawStart x) ∧
    (∀ k, k < x.get 0x20 2 ∨ x.get 0x20 2 + x.get 0x22 1 ≤ k → f.laneAt k = d.laneAt k) ∧
    f = { d with group := f.group, lane := f.lane, dsp := f.dsp, thr := f.thr, mem := f.mem, poison := f.poison } := by
  subst h
  refine ⟨?_, fun k hk => ?_, fun i hi => ?_, fun k hk => ?_, ?_⟩
  · rw [complete_groupAt, Dev.modLaneAt_groupAt, Dev.laneBound_groupAt]
  · rw [complete_groupAt, Dev.modLaneAt_groupAt, Dev.laneBound_groupAt_other hk]
  · rw [Dev.complete_laneAt, Dev.laneConfigured_lane hf hi]
  · rw [Dev.complete_laneAt, Dev.laneConfigured_outside (laneBadField_width hf) hk]
  · obtain ⟨thr, dsp, mem, poison, done⟩ := ((d.laneBound x).modLaneAt (x.get 0x20 2) fun y => y.rawStart x).complete_eq x 0 0
    have bound : d.laneBound x = { d with group := (d.laneBound x).group, lane := (d.laneBound x).lane } := by
      unfold Dev.laneBound
      rw [Dev.mapLanes_eq]
      rfl
    rw [done, bound]
    rfl

theorem Dev.laneRelease_own (h : (d.groupAt (x.get 0x20 2)).own = true) : d.laneRelease x = (d.dropGroup (x.get 0x20 2)).complete x 0 0 := Dev.checked_next (by simp [h])

theorem Dev.laneIdle_busy (h : (d.groupAt (x.get 0x20 2)).own = false ∨ d.dozing = true) : d.laneIdle x = d.complete x 6 0 := Dev.checked_first (by rcases h with h | h <;> simp [h])

theorem Dev.laneIdle_runs (h : (d.groupAt (x.get 0x20 2)).own = true) (hd : d.dozing = false) (hon : x.get 0x22 1 ≤ 1) : d.laneIdle x =
    (if x.get 0x22 1 = 1 then d.groupIdle (x.get 0x20 2) false else d.groupWake (x.get 0x20 2)).complete x 0 0 :=
  (Dev.checked_next (by simp [h, hd])).trans (Dev.checked_next (by simp [hon]))

theorem Dev.groupIdle_same (h : (d.groupAt n).stage = .idle) : d.groupIdle n false = d := if_pos (by simp [h])

theorem Dev.groupWake_same (h : (d.groupAt n).stage ≠ .idle) : d.groupWake n = d := if_pos (by simp [h])

/-- What IDLE leaves of a group that is not idle. -/
theorem Dev.laneIdled_parts (h : (d.groupAt n).stage ≠ .idle) (f : Dev) (hf : f = (d.groupIdle n false).complete x 0 0) : f.groupAt n = d.idleGroup n ∧
    (∀ k, k ≠ n → f.groupAt k = d.groupAt k) ∧
    ∀ i, i < (d.groupAt n).width → f.laneAt (n + i) = { d.laneAt (n + i) with inSvc := false, chkLock := false, idleAt := some d.ctl.ticks } := by
  obtain ⟨group, groups, lanes⟩ := Dev.groupIdle_parts h
  subst hf
  refine ⟨?_, fun k hk => ?_, fun i hi => ?_⟩
  · rw [Dev.complete_groupAt, group]
  · rw [Dev.complete_groupAt, groups k hk]
  · rw [Dev.complete_laneAt, lanes i hi]

theorem Dev.idleGroup_eq (d : Dev) (n : Nat) : d.idleGroup n =
    { d.groupAt n with
      stage := .idle, passed := [], retryAt := none, down := false, idleAt := d.ctl.ticks, dormant := false
      midway := (d.groupAt n).stage != .active && !(List.range (d.groupAt n).width).any fun i => (d.laneAt (n + i)).lostAt == some d.ctl.ticks } := by
  unfold Dev.idleGroup groupLanes
  rw [List.any_map]
  rfl

/-- A lane whose idle was within its hold limit keeps its equaliser. -/
theorem Lane.wake_held {y : Lane} {t now : Nat} (ht : y.idleAt = some t) (h : now ≤ t + y.holdTicks) : y.wake now = { y with idleAt := none, polled := none } := by
  have fresh : y.stale now = false := by
    unfold Lane.stale
    rw [ht]
    exact decide_eq_false (Nat.not_lt.mpr h)
  unfold Lane.wake
  rw [fresh]
  rfl

/-- A lane whose idle has outlasted its hold limit is at the defaults. -/
theorem Lane.wake_stale {y : Lane} {t now : Nat} (ht : y.idleAt = some t) (h : t + y.holdTicks < now) :
    (y.wake now).cache = false ∧ (y.wake now).ctle = 16 ∧ (y.wake now).dfe = 0 ∧ (y.wake now).tx = 0x400000#32 := by
  have stale : y.stale now = true := by
    unfold Lane.stale
    rw [ht]
    exact decide_eq_true h
  unfold Lane.wake
  rw [stale]
  exact ⟨rfl, rfl, rfl, rfl⟩

/-- What IDLE with 0 leaves of an idle group. -/
theorem Dev.laneWoken_parts (h : (d.groupAt n).stage = .idle) (f : Dev) (hf : f = (d.groupWake n).complete x 0 0) : (f.groupAt n).stage = (if d.wakesQuick n then .lock else .detect) ∧
    (f.groupAt n).since = d.ctl.ticks ∧ (∀ k, k ≠ n → f.groupAt k = d.groupAt k) ∧ (∀ i, i < (d.groupAt n).width → f.laneAt (n + i) = (d.laneAt (n + i)).wake d.ctl.ticks) ∧
    f.out = d.out ++ (List.range (d.groupAt n).width).map fun i => .notice "LANE_BURST" (n + i) 128 0 := by
  obtain ⟨stage, since, groups, lanes, out⟩ := Dev.groupWake_parts h
  subst hf
  refine ⟨?_, ?_, fun k hk => ?_, fun i hi => ?_, ?_⟩
  · rw [Dev.complete_groupAt, stage]
  · rw [Dev.complete_groupAt, since]
  · rw [Dev.complete_groupAt, groups k hk]
  · rw [Dev.complete_laneAt, lanes i hi]
  · obtain ⟨thr, dsp, mem, poison, done⟩ := (d.groupWake n).complete_eq x 0 0
    rw [done]
    exact out

theorem laneTest_good : (!(x.get 0x22 1 == 0 || x.get 0x22 1 == 7 || x.get 0x22 1 == 9 || x.get 0x22 1 == 15 || x.get 0x22 1 == 23 || x.get 0x22 1 == 31) || decide (x.get 0x23 1 > 1) ||
    decide (x.get 0x24 1 > 3) || decide (x.get 0x25 1 > 1)) = false ↔
    (x.get 0x22 1 = 0 ∨ x.get 0x22 1 = 7 ∨ x.get 0x22 1 = 9 ∨ x.get 0x22 1 = 15 ∨ x.get 0x22 1 = 23 ∨ x.get 0x22 1 = 31) ∧ x.get 0x23 1 ≤ 1 ∧ x.get 0x24 1 ≤ 3 ∧ x.get 0x25 1 ≤ 1 := by
  simp [and_assoc, or_iff_not_imp_left]

/-- The lane of a test group after TEST. -/
def Lane.tested (y : Lane) (clear : Nat) : Lane :=
  { y with chkLock := false, run := 0, win := [], prbsErr := if clear = 1 then 0 else y.prbsErr, prbsBits := if clear = 1 then 0 else y.prbsBits }

/-- The group after TEST. -/
def Dev.testGroup (d : Dev) (x : Desc) : Group :=
  { d.groupAt (x.get 0x20 2) with
    pattern := x.get 0x22 1, check := x.get 0x23 1 == 1, loopback := x.get 0x24 1, testAt := some d.ctl.ticks
    stage := if (d.groupAt (x.get 0x20 2)).stage == .lock && (d.laneAt (x.get 0x20 2)).lostAt == some d.ctl.ticks then .active else (d.groupAt (x.get 0x20 2)).stage }

theorem Dev.laneTest_checks (d : Dev) (x : Desc) : d.laneTest x = d.checked x
    [((d.groupAt (x.get 0x20 2)).proto != 5, 6),
      (!(x.get 0x22 1 == 0 || x.get 0x22 1 == 7 || x.get 0x22 1 == 9 || x.get 0x22 1 == 15 || x.get 0x22 1 == 23 || x.get 0x22 1 == 31) || decide (x.get 0x23 1 > 1) ||
        decide (x.get 0x24 1 > 3) || decide (x.get 0x25 1 > 1), 4)]
    (((d.putGroupAt (x.get 0x20 2) (d.testGroup x)).putLaneAt (x.get 0x20 2) (((d.putGroupAt (x.get 0x20 2) (d.testGroup x)).laneAt (x.get 0x20 2)).tested (x.get 0x25 1))).complete x 0 0) := rfl

/-- A poll, a pass, and a loss of a lane without a group do nothing. -/
theorem Dev.groupless (ho : d.groupOf l = none) (fd : DetectFacts) (fa : LaneFacts) : d.detectPoll l fd = d ∧ d.stagePass l fa = d := by
  unfold Dev.detectPoll Dev.stagePass
  rw [ho]
  exact ⟨rfl, rfl⟩

end Parts

/-- Settles O51: the descriptors by their checks, bring-up and losses by the stage that a group enters, raw and test groups by the equation of their bits. -/
theorem serialLanes : Obligations.SerialLanes := by
  unfold Obligations.SerialLanes
  intro s x e l first g
  dsimp only
  have run {op : Nat} {sp : Dev → Desc → OpSpec} {i : Instr} {f : Dev → Desc → Dev} {k : Dev} (ht : s.dev.Takes 12 op sp x e) (hx : exec i s = ok s (s.dev.runUnit 12 op sp f))
      (h : f e x = k) : exec i s = .next { s with dev := k } := hx.trans (congrArg (ok s) ((ht.runUnit f).trans h))
  refine ⟨fun ht => ⟨fun hb => run ht rfl (Dev.checked_first (laneBusy_iff.mpr hb)), fun hb hf => run ht rfl ((Dev.checked_next (Bool.eq_false_iff.mpr (mt laneBusy_iff.mp hb))).trans
      (Dev.checked_first (laneBadField_of hf))), fun hb hf => ?_⟩,
    fun ht => ⟨fun hh => run ht rfl (Dev.checked_first (by simp [hh])), fun hh => completes_ok (run ht rfl (Dev.laneRelease_own hh)) ?_⟩,
    fun ht => ⟨fun h => run ht rfl (Dev.laneIdle_busy h), fun hh hz => ⟨fun hon => run ht rfl ((Dev.checked_next (by simp [hh, hz])).trans (Dev.checked_first (by simpa using hon))),
      fun h => run ht rfl ?_, fun hon hs => completes_ok (run ht rfl ((Dev.laneIdle_runs hh hz (by omega)).trans (congrArg (fun d : Dev => d.complete x 0 0) (if_pos hon)))) ?_,
      fun hon hs => completes_ok (run ht rfl ((Dev.laneIdle_runs hh hz (by omega)).trans (congrArg (fun d : Dev => d.complete x 0 0) (if_neg (by omega))))) ?_⟩⟩,
    fun ht => ⟨fun h => run ht rfl (Dev.checked_first (by simpa using h)), fun h5 hg => run ht rfl ((Dev.checked_next (by simp [h5])).trans (Dev.checked_first (check_fails laneTest_good hg))),
      fun h5 hg => run ht rfl ?_⟩, fun ho b fd fa => ?_, ?_, ?_, ?_⟩
  · have free : e.laneConfigure x = _ := (e.laneConfigure_checks x).trans (Dev.checked_next (Bool.eq_false_iff.mpr (mt laneBusy_iff.mp hb)))
    refine ⟨fun hm => run ht rfl (free.trans ((Dev.checked_next hf).trans (Dev.checked_first hm))), fun hm ho => run ht rfl (free.trans ((Dev.checked_next hf).trans ((Dev.checked_next hm).trans
      (Dev.checked_first ho)))), fun hm ho => completes_ok (run ht rfl (free.trans ((Dev.checked_next hf).trans ((Dev.checked_next hm).trans (Dev.checked_next ho)))))
        (Dev.laneConfigured_parts hf _ rfl)⟩
  · obtain ⟨group, groups, lanes, outside⟩ := Dev.dropGroup_parts hh
    refine ⟨?_, fun k hk => ?_, fun i hi => ?_, fun k hk => ?_⟩
    · rw [Dev.complete_groupAt, group]
    · rw [Dev.complete_groupAt, groups k hk]
    · rw [Dev.complete_laneAt, lanes i hi]
      rfl
    · rw [Dev.complete_laneAt, outside k hk]
  · rcases h with ⟨hon, hs⟩ | ⟨hon, hs⟩
    · rw [Dev.laneIdle_runs hh hz (by omega), if_pos hon, Dev.groupIdle_same hs]
    · rw [Dev.laneIdle_runs hh hz (by omega), if_neg (by omega), Dev.groupWake_same hs]
  · obtain ⟨group, groups, lanes⟩ := Dev.laneIdled_parts hs _ rfl
    exact ⟨group.trans (e.idleGroup_eq _), groups, lanes⟩
  · obtain ⟨stage, since, groups, lanes, out⟩ := Dev.laneWoken_parts hs _ rfl
    refine ⟨?_, ?_, since, groups, fun i hi => ⟨lanes i hi, fun t hi' hl => (lanes i hi).trans (Lane.wake_held hi' hl), fun t hi' hl => ?_⟩, out⟩
    · rw [stage]
      cases e.wakesQuick (x.get 0x20 2) with
      | false => exact .inr rfl
      | true => exact .inl rfl
    · rw [stage]
      refine Iff.trans ?_ Dev.wakesQuick_iff
      cases e.wakesQuick (x.get 0x20 2) with
      | false => simp
      | true => simp
    · rw [lanes i hi]
      exact Lane.wake_stale hi' hl
  · rw [Dev.laneTest_checks, Dev.checked_next (by simp [h5]), Dev.checked_next (laneTest_good.mpr hg), Dev.checked_nil, Dev.putGroupAt_laneAt]
    rfl
  · obtain ⟨poll, pass⟩ := Dev.groupless ho fd fa
    exact ⟨congrArg (ok s) poll, congrArg (ok s) pass, fun hf => congrArg (ok s) (Dev.lockLoss_free ho hf)⟩
  · intro ho hg hw fa fd energy
    refine ⟨fun hs ha hp hf => ?_,
      fun hs hp hf => ?_, fun t ht hl => congrArg (ok s) (Dev.detectPoll_early ho ht hl), fun hr hc => congrArg (ok s) (Dev.stagePass_still ho hc),
      fun hr hp hc hl => ⟨fun hs => ?_, fun hs ha h3 h2 => ?_, fun hs h2 => ⟨fun hf => ?_, fun hf => ?_⟩, fun hn => ?_⟩, fun hr hs => ⟨fun hn => ?_, fun k hk hl => ⟨?_, fun hp hc => ?_⟩⟩,
      fun t ht => ⟨fun hl => ?_, fun hl => ?_⟩, fun hs ht hp => ?_, fun hs ht hl => ?_, fun hs ht hp => ?_⟩
    · obtain ⟨group, groups, lane, lanes, work⟩ := (Dev.detectPoll_brought ho hg hw hs ha hp (Group.detects_iff.mpr hf)).parts (Group.entered_down (by decide) _)
      exact ⟨_, rfl, group, groups, ⟨fun hc h2 hr hx ht => lane.trans (Lane.trains_cached (y := { s.dev.laneAt l with polled := some s.dev.ctl.ticks }) hc h2 hr hx ht),
        fun hc hx => lane.trans (Lane.trains_plain (y := { s.dev.laneAt l with polled := some s.dev.ctl.ticks }) hc hx)⟩, lanes, work⟩
    · have lost : s.dev.detectPoll l fd = _ := (Dev.detectPoll_eq ho hs hp).trans (if_neg (mt Group.detects_iff.mp hf))
      exact completes_ok (congrArg (ok s) lost) (s.dev.polled_lost fd.clk _ l.isLt)
    · exact completes_brought (i := .bringupStagePass (.general l) fa) rfl (Dev.stagePass_train ho hg hw hr hp hc hl hs) (Group.entered_down (by decide) _)
        (congrArg (fun y : Lane => y.cached g s.dev.ctl.ticks) (Lane.trained_eq _ g fa))
    · exact completes_brought (i := .bringupStagePass (.general l) fa) rfl (Dev.stagePass_lock ho hg hw hr hp hc hl hs ha h3 h2) (Group.entered_active _) rfl
    · exact completes_brought (i := .bringupStagePass (.general l) fa) rfl (Dev.stagePass_sdi ho hg hw hr hp hc hl hs h2 hf) (Group.entered_active _)
        (congrArg (fun n => ({ s.dev.laneAt l with inSvc := true, sdiRate := n } : Lane)) hf)
    · exact congrArg (ok s) (Dev.stagePass_unlocked ho hr hp hc hl hs h2 hf)
    · exact congrArg (ok s) (Dev.stageTimeout_early ho hn (Group.overdue_not hl))
    · exact congrArg (ok s) ((Dev.stageTimeout_late ho hr hs (.inl hn)).trans (Dev.failStage_alone hg hw))
    · exact congrArg (ok s) ((Dev.stageTimeout_late ho hr hs (.inr (Group.overdue_of hk hl))).trans (Dev.failStage_alone hg hw))
    · exact congrArg (ok s) ((Dev.stagePass_late ho hr (by simp [hp]) hc (Group.overdue_of hk hl)).trans (Dev.failStage_alone hg hw))
    · exact congrArg (ok s) ((Dev.bringupRetry_eq ho ht).trans (if_neg (Nat.not_le.mpr hl)))
    · exact completes_brought (i := .bringupRetry (.general l)) rfl (Dev.bringupRetry_brought ho hg hw ht hl) (Group.entered_down (by decide) _) rfl
    · exact completes_brought (i := .laneLockLoss (.general l) energy) rfl (Dev.lockLoss_relock_brought ho hg hw hs ht hp) (Group.entered_down (by decide) _) rfl
    · exact completes_ok (congrArg (ok s) (Dev.lockLoss_completing ho ht hl)) ⟨(s.dev.countLoss_groupAt _ _).trans hg, s.dev.countLoss_laneAt _, Dev.countLoss_status⟩
    · obtain ⟨group, groups, lane, lanes, work⟩ := (Dev.lockLoss_port_brought (energy := energy) ho hg hw hs ht hp).parts (Group.entered_fallen g _ _)
      exact ⟨_, rfl, group, groups, lane ▸ Lane.fallen_parts _ _ _ _, lanes, work⟩
  · intro ho hs fa who v bs b rx
    refine ⟨fun ht hp hg => ?_, fun ht hp hu hl => ?_, fun t hr hk ha hp hc => ?_, fun t hp hr => ⟨fun hl => congrArg (ok s) (Dev.laneReadmit_early ho hr hl),
      congrArg (ok s) (Dev.laneReadmit_error ho hr), fun hl hd => ?_, fun hl hd hh hi => ?_⟩, fun hr => congrArg (ok s) (Dev.eqCacheWrite_active ho hs hr),
      fun hp hf hw => ⟨fun hv => congrArg (ok s) ((Dev.slip_eq ho hw hp hf).trans (if_pos hv)), fun hv => congrArg (ok s) ((Dev.slip_eq ho hw hp hf).trans (if_neg (Bool.eq_false_iff.mp hv)))⟩,
      fun hp hb hr ht hl => ⟨fun h => ?_, fun h hc => ?_⟩, fun hp hc hg hl hrx => congrArg (ok s) (Dev.prbsBits_eq ho hs hp hc hg hl hrx), fun hp hc hg hl hm h0 h1 => ⟨fun hk => ?_, fun hk hb he => ?_⟩⟩
    · obtain ⟨line, sticky⟩ := (s.dev.countLoss l).portLoss_lines first b
      exact completes_ok (congrArg (ok s) (Dev.lockLoss_port ho hs ht hp)) ⟨line, fun h => sticky (Dev.countLoss_status h)⟩
    · exact completes_ok (congrArg (ok s) rfl) (Dev.lockLoss_twin_parts ho hs ht hp hu hl)
    · refine congrArg (ok s) ((Dev.stagePass_runs ho ha hp hc (Group.overdue_not (by simp [Group.limit, hs]))).trans ?_)
      rw [Dev.stageWork, hs]
      exact if_pos (by simp [hr, hk])
    · exact congrArg (ok s) ((Dev.laneReadmit_back ho hs hr hp hl).trans (if_neg (by simpa using hd)))
    · have offers : (s.dev.readmitted l).offerPairing = (s.dev.readmitted l).sendPairing := if_pos (by
        have st : (s.dev.readmitted l).twin.st = .partitioned := hd
        have halted : (s.dev.readmitted l).halted = false := hh
        have busy : (s.dev.readmitted l).ctl.islBusy ≠ some 30 := hi
        simp [st, halted, busy])
      exact congrArg (ok s) ((Dev.laneReadmit_back ho hs hr hp hl).trans ((if_pos (by simp [hd])).trans offers))
    · exact congrArg (ok s) (Dev.rawAtom_waits ho hs hp hb hr ht hl h)
    · obtain ⟨lane, lanes, out, outside, inside, frame⟩ := s.dev.written_parts (s.dev.rawSent l g) rfl (g.get 0x38 8 + (s.dev.laneAt l).rawPtr) l (bytesOf 64 (s.dev.rawLeft l g bs))
        { s.dev.rawLane l g bs with rxBits := (s.dev.rawLeft l g bs).drop 512, rawPtr := ((s.dev.laneAt l).rawPtr + 64) % g.get 0x40 4 }
      rw [bytesOf_length] at outside
      refine completes_ok (congrArg (ok s) (Dev.rawAtom_writes ho hs hp hb hr ht hl h)) ⟨fun j k hj hk => ?_, outside, lane, lanes, out, frame⟩
      rw [inside j (by rw [bytesOf_length]; exact hj) (by rw [bytesOf_length]; exact hc)]
      exact bytesOf_getLsbD hj hk
    · exact congrArg (ok s) ((Dev.prbsBits_one ho hs hp hc hg hl hm h0 h1).trans (congrArg _ (Lane.checkBit_unlocked hk)))
    · exact congrArg (ok s) ((Dev.prbsBits_one ho hs hp hc hg hl hm h0 h1).trans (congrArg _ (Lane.checkBit_locked hk hb he)))
  · exact fun t ht => ⟨fun h => congrArg (ok s) ((Dev.eqCacheDrop_eq ht).trans (if_pos h)), fun h => congrArg (ok s) ((Dev.eqCacheDrop_eq ht).trans (if_neg (Nat.not_lt.mpr h)))⟩

end Sys2Proof.Machine
